-- ==== Sys2Proof/Word.lean ====
section
/-! DEFINITION. The plainest types of the model: bytes, 32-bit words, and the names of the two
planes and the two host ports, which every chapter of the spec uses as indices. -/

namespace Sys2Proof

/-- One byte. -/
abbrev Byte := BitVec 8

/-- One 32-bit word: a register (R557), or the four symbols of one lane word (R105). -/
abbrev Word := BitVec 32

/-- Plane A and Plane B (R6, R18). -/
inductive Plane where
  | a
  | b
  deriving DecidableEq, Repr

/-- The plane id of R6: Plane A is 0, Plane B is 1. -/
def Plane.id : Plane → Nat
  | .a => 0
  | .b => 1

/-- The other plane. -/
def Plane.other : Plane → Plane
  | .a => .b
  | .b => .a

/-- The plane of a plane id (R6): 0 is Plane A, every other id Plane B. -/
def Plane.ofId (n : Nat) : Plane := if n = 0 then .a else .b

/-- Host ports HPA and HPB (R251). -/
inductive Port where
  | a
  | b
  deriving DecidableEq, Repr

/-- The port id: 0 for HPA, 1 for HPB (Table 7-14, Table 16-8). -/
def Port.id : Port → Nat
  | .a => 0
  | .b => 1

/-- The other port. -/
def Port.other : Port → Port
  | .a => .b
  | .b => .a

/-- The port of a port id: 0 is HPA, every other id HPB. -/
def Port.ofId (n : Nat) : Port := if n = 0 then .a else .b

/-- The record rings of one port that the device writes (R253, R254). -/
inductive RecRing where
  | cpr (c : Nat)   -- Completion Ring CPRc, c = 0-15
  | evr (e : Nat)   -- Event Ring EVRe, e = 0-31
  | asr             -- the As-Run Ring
  deriving DecidableEq, Repr

end Sys2Proof
end

