-- ==== Sys2Proof/Syntax.lean ====
section
/-! DEFINITION. The commands of the block: one constructor of `Instr` per row of
spec/opcode_table.json, with its operands. The first operand of every command is `t`, the instant of
the device's clock (in units of 2^-16 ns since `State.reset`) at which the command happens. -/

namespace Sys2Proof

/-- The status symbol of a WT2 word (R107). -/
inductive Wt2Status where
  | notAligned   -- D10.2: receiver not aligned
  | ready        -- D21.2: receiver aligned and ready
  | recovery     -- D12.2: recovery request
  | other        -- any other symbol: a code error
  deriving DecidableEq, Repr

/-- What a SECDED check of a control table entry finds (R212, R319, R387). -/
inductive Ecc where
  | clean
  | corrected
  | uncorrectable
  deriving DecidableEq, Repr

/-- What a Gust engine's checks find (R372). -/
inductive EngErr where
  | corrected      -- a single-bit error in its program store or in its copy of the channel context
  | uncorrectable  -- an uncorrectable error in either store
  | badDma         -- a DMA descriptor that fails its check
  | profile        -- an uncorrectable error in the plane's profile store
  deriving DecidableEq, Repr

/-- How far a page write had come when power failed (Table 15-1). -/
inductive TornStage where
  | beforeErase
  | duringErase
  | programming (w : Nat)   -- word w of 0-31 is being programmed
  | programmed              -- after the last word, before read-back
  deriving DecidableEq, Repr

/-- Why a host port is lost (R303). -/
inductive PortLoss where
  | linkDown
  | busMasterOff
  | readsFailed   -- eight consecutive Doorbell reads have failed
  deriving DecidableEq, Repr

/-- The device's reads of host memory that end after 64 ms (R303, R305). -/
inductive HostRead where
  | doorbell
  | descriptor (ring : Nat)
  | cct (id : Nat)
  | probe
  deriving DecidableEq, Repr

/-- The commands, in the order of spec/opcode_table.json. -/
inductive Instr where
  /-- REGISTER_WRITE (R11): `port` the port of the access, `off` the BAR0 offset, `val` the word written. -/
  | registerWrite (t : Nat) (port : Port) (off : Nat) (val : Word)
  /-- SUPPLIES_VALID (R521): `straps` the levels on the strap balls: XADLY [2:0], HOSTPRI [3], BOOTHOLD [4], LANEREF [5]. -/
  | suppliesValid (t : Nat) (straps : Nat)
  /-- RESET_ASSERT (R546): `lowNs` how long RESET_N is low, in ns. -/
  | resetAssert (t : Nat) (lowNs : Nat)
  /-- RESET_RELEASE (R546): `straps` as for SUPPLIES_VALID. -/
  | resetRelease (t : Nat) (straps : Nat)
  /-- RAIL_DEPARTURE (R522): `rail` the index of Table 17-1. -/
  | railDeparture (t : Nat) (rail : Nat)
  /-- BROWN_OUT (R522): `aonHeld`: VDD_AON stayed inside its window throughout; `stage` where a page write under way stood (Table 15-1). -/
  | brownOut (t : Nat) (aonHeld : Bool) (stage : TornStage)
  /-- XA_START_DELAY_EXPIRY (R429). -/
  | xaStartDelayExpiry (t : Nat)
  /-- XA_USABLE (R429). -/
  | xaUsable (t : Nat)
  /-- XA_EDGE_TIMEOUT (R430). -/
  | xaEdgeTimeout (t : Nat)
  /-- XA_COUNT_CHECK (R430): `count` the XA edges counted over 4,096 FIO cycles. -/
  | xaCountCheck (t : Nat) (count : Nat)
  /-- XB_WINDOW (R431): `offset` XB against its basis in 0.001 ppm, `gap` an edge missing for more than 4 periods, `xaOff` and `xbOff` XA and XB against the LOCKED reference (R432). -/
  | xbWindow (t : Nat) (offset : Int) (gap : Bool) (xaOff : Int) (xbOff : Int)
  /-- XB_EDGE_GAP (R432). -/
  | xbEdgeGap (t : Nat)
  /-- LS_COAST_EXPIRY (R435): `ls` LS-A or LS-B. -/
  | lsCoastExpiry (t : Nat) (ls : Plane)
  /-- LS_RELOCK (R435): `ls` LS-A or LS-B. -/
  | lsRelock (t : Nat) (ls : Plane)
  /-- LS_LOCK_LOST (R436): `ls` LS-A or LS-B. -/
  | lsLockLost (t : Nat) (ls : Plane)
  /-- LS_RELOCK_TIMEOUT (R436): `ls` LS-A or LS-B. -/
  | lsRelockTimeout (t : Nat) (ls : Plane)
  /-- LS_TO_XA (R435). -/
  | lsToXa (t : Nat)
  /-- OM_LOCK (R437): `k` the octet. -/
  | omLock (t : Nat) (k : Nat)
  /-- OM_LOCK_LOST (R437): `k` the octet. -/
  | omLockLost (t : Nat) (k : Nat)
  /-- SYN_LOCK (R441): `m` the synthesizer. -/
  | synLock (t : Nat) (m : Nat)
  /-- SYN_LOCK_LOST (R441): `m` the synthesizer. -/
  | synLockLost (t : Nat) (m : Nat)
  /-- SYN_RELOCK_TIMEOUT (R441): `m` the synthesizer. -/
  | synRelockTimeout (t : Nat) (m : Nat)
  /-- SYN_STEER_UPDATE (R439): the measured offsets of the timebase oscillator from LS-A and from LS-B, in 2^-48. -/
  | synSteerUpdate (t : Nat) (offA : Int) (offB : Int)
  /-- RATIO_RAMP_STEP (R442): `loop` SYN0-SYN5 as 0-5, LS-A 6, LS-B 7; `ratio` the next frequency of the loop in Hz. -/
  | ratioRampStep (t : Nat) (loop : Nat) (ratio : Nat)
  /-- SYN5_RATIO_WRITE (R438): `val` the word written to CLK_SYN_N of SYN5. -/
  | syn5RatioWrite (t : Nat) (val : Word)
  /-- SYNC_ARM (R444). -/
  | syncArm (t : Nat)
  /-- SYNCIN_EDGE (R444). -/
  | syncinEdge (t : Nat)
  /-- SAFE_STATE_TRIGGER (R446): `code` the trigger code of R446. -/
  | safeStateTrigger (t : Nat) (code : Nat)
  /-- CLOCK_GATE_WRITE (R449): `hi` selects GLB_CLKEN1, else GLB_CLKEN0; `val` the word written. -/
  | clockGateWrite (t : Nat) (hi : Bool) (val : Word)
  /-- CLOCK_GATE_DONE (R465): `block` octet 0-47, plane A 48, plane B 49. -/
  | clockGateDone (t : Nat) (block : Nat)
  /-- STACK_TRAIN_DONE (R320): `failed` bit q: pseudo-channel q failed training. -/
  | stackTrainDone (t : Nat) (plane : Plane) (failed : Word)
  /-- KEY_SLOT_UNWRAP (R504). -/
  | keySlotUnwrap (t : Nat)
  /-- RESTORE (R525). -/
  | restore (t : Nat)
  /-- READY (R524). -/
  | ready (t : Nat)
  /-- GRACE_CLOSED (R90). -/
  | graceClosed (t : Nat)
  /-- REFIN_LOST (R61): `x` the input 0-3; `src` the time, in u, of the input the DPLL falls back to. -/
  | refinLost (t : Nat) (x : Nat) (src : Nat)
  /-- PPSIN_LOST (R57). -/
  | ppsinLost (t : Nat)
  /-- REFV_LOST (R60): `src` as for REFIN_LOST. -/
  | refvLost (t : Nat) (src : Nat)
  /-- REFV_ENABLE_WRITE (R60): `en` the value written; `src` as for REFIN_LOST. -/
  | refvEnableWrite (t : Nat) (en : Bool) (src : Nat)
  /-- QUAL_SAMPLE (R67): `x` the input 0-4; `offset` the measured frequency offset in 0.001 ppm. -/
  | qualSample (t : Nat) (x : Nat) (offset : Int)
  /-- DPLL_PHASE_UPDATE (R63): `phase` the phase error in u, `freq` the frequency error and `ctl` the frequency control in 0.001 ppm; for a follower `depart` the lead's departure in u and `leadFreq` its frequency change in 0.001 ppm, both within 1 s (R89). -/
  | dpllPhaseUpdate (t : Nat) (tb : Plane) (phase : Int) (freq : Int) (ctl : Int) (depart : Int) (leadFreq : Int)
  /-- SWITCHING_DONE (R82): `diff` the new input's phase less the epoch counter, in u. -/
  | switchingDone (t : Nat) (tb : Plane) (diff : Int)
  /-- PM_HOLDOFF_EXPIRY (R75): `x` the input whose change has persisted; `src` the time, in u, of the input selected. -/
  | pmHoldoffExpiry (t : Nat) (x : Nat) (src : Nat)
  /-- PM_WTR_EXPIRY (R78): `x` the better input; `src` as above. -/
  | pmWtrExpiry (t : Nat) (x : Nat) (src : Nat)
  /-- TB_PM_FORCE_WRITE (R80): `val` the word written; `src` as above. -/
  | tbPmForceWrite (t : Nat) (val : Word) (src : Nat)
  /-- LEAD_FAILOVER (R86). -/
  | leadFailover (t : Nat)
  /-- LEAD_REQ (R88): `v` the value written to TB_CTRL.lead_req. -/
  | leadReq (t : Nat) (v : Nat)
  /-- TB_CLASS_WRITE (R48): `n` the class, `val` the word written. -/
  | tbClassWrite (t : Nat) (n : Nat) (val : Word)
  /-- CLASS_PARAM_TAKE_EFFECT (R50): `n` the class. -/
  | classParamTakeEffect (t : Nat) (n : Nat)
  /-- TB_SNAP_A (R97). -/
  | tbSnapA (t : Nat)
  /-- TB_SNAP_B (R97): `both` snap_a is written 1 in the same write. -/
  | tbSnapB (t : Nat) (both : Bool)
  /-- LANE_ENABLE (R111): `n` the lane pair. -/
  | laneEnable (t : Nat) (n : Nat)
  /-- LANE_DISABLE (R111): `n` the lane pair. -/
  | laneDisable (t : Nat) (n : Nat)
  /-- LN_RETRAIN (R111): `n` the lane pair. -/
  | lnRetrain (t : Nat) (n : Nat)
  /-- LN_BIT_SLIP (R115): `host`: the write comes from host software, else from Rambler firmware. -/
  | lnBitSlip (t : Nat) (n : Nat) (host : Bool)
  /-- LN_OCT_CTRL_WRITE (R133): `k` the octet, `val` the word written. -/
  | lnOctCtrlWrite (t : Nat) (k : Nat) (val : Word)
  /-- DETECT_PULSE (R111): `found` the far-end termination is there. -/
  | detectPulse (t : Nat) (n : Nat) (found : Bool)
  /-- RX_BIT_LOCK (R111): `n` the lane pair. -/
  | rxBitLock (t : Nat) (n : Nat)
  /-- ALIGN_WINDOW_END (R114): the window's commas at the boundary and anywhere, its code errors and its disparity errors
  but for those that commands of their own report, and the position of K28.5 in the receive word (R105). -/
  | alignWindowEnd (t : Nat) (n : Nat) (atBoundary : Nat) (anywhere : Nat) (code : Nat) (disp : Nat) (pos : Nat)
  /-- WT2_RECEIVED (R111): `status` the WT2 status symbol, `inParcel`: the word stands inside a parcel. -/
  | wt2Received (t : Nat) (n : Nat) (status : Wt2Status) (inParcel : Bool)
  /-- CAP_RECEIVED (R117): `cap` the 15 bytes of Table 3-4. -/
  | capReceived (t : Nat) (n : Nat) (cap : List Byte)
  /-- CAP_SEND (R118): `n` the lane pair. -/
  | capSend (t : Nat) (n : Nat)
  /-- LANE_STATE_TIMEOUT (R111): `n` the lane pair. -/
  | laneStateTimeout (t : Nat) (n : Nat)
  /-- RX_SQUELCH (R120): `n` the lane pair. -/
  | rxSquelch (t : Nat) (n : Nat)
  /-- RX_BIT_LOCK_LOST (R120): `n` the lane pair. -/
  | rxBitLockLost (t : Nat) (n : Nat)
  /-- ERROR_WINDOW_END (R120): the window's code errors and disparity errors, but for those that commands of their own report. -/
  | errorWindowEnd (t : Nat) (n : Nat) (code : Nat) (disp : Nat)
  /-- SKP_TIMEOUT (R120): `n` the lane pair. -/
  | skpTimeout (t : Nat) (n : Nat)
  /-- RECOVERY_REQUEST_SEND (R121): `n` the lane pair. -/
  | recoveryRequestSend (t : Nat) (n : Nat)
  /-- IDL_RUN_SEND (R122): `n` the lane pair. -/
  | idlRunSend (t : Nat) (n : Nat)
  /-- INGRESS_RECOVERY_TIMEOUT (R123): `n` the lane pair. -/
  | ingressRecoveryTimeout (t : Nat) (n : Nat)
  /-- SKP_RECEIVED (R109): `n` the lane pair. -/
  | skpReceived (t : Nat) (n : Nat)
  /-- LULL_RECEIVED (R129): `words` LULL words received, `inParcel`: they cut a parcel short. -/
  | lullReceived (t : Nat) (n : Nat) (words : Nat) (inParcel : Bool)
  /-- ZEPHYR_BURST_RECEIVED (R131): `comma`: a WT2 word showed K28.5 at the held boundary; `wt1` consecutive WT1 words. -/
  | zephyrBurstReceived (t : Nat) (n : Nat) (comma : Bool) (wt1 : Nat)
  /-- EGRESS_IDLE_ENTER (R127): `n` the lane pair. -/
  | egressIdleEnter (t : Nat) (n : Nat)
  /-- EGRESS_WAKE (R132): `n` the lane pair. -/
  | egressWake (t : Nat) (n : Nat)
  /-- PARCEL_RECEIVED (R149): `pos` the three position bytes of SOP, `hdr` the 16 header bytes, `body` the words between header and EOP, `complete` false where another set cut the parcel short (R144). With no position bytes there was no SOP: `body` are data words outside a parcel. -/
  | parcelReceived (t : Nat) (n : Nat) (pos : List Nat) (hdr : List Byte) (body : List Word) (complete : Bool)
  /-- TWIN_HOLD_EXPIRY (R208): `slot` the input slot. -/
  | twinHoldExpiry (t : Nat) (slot : Nat)
  /-- SWM_RECEIVED (R202): `pos` the three position bytes. -/
  | swmReceived (t : Nat) (n : Nat) (pos : List Nat)
  /-- FCH_RECEIVED (R162): `pos` the three position bytes. -/
  | fchReceived (t : Nat) (n : Nat) (pos : List Nat)
  /-- SLOT_BUFFER_GATE (R36): `slot` the input slot. -/
  | slotBufferGate (t : Nat) (slot : Nat)
  /-- HAMPER_INGEST (R182): the newest committed line of `slot` passes to the plane's open channels. -/
  | hamperIngest (t : Nat) (plane : Plane) (slot : Nat)
  /-- MONITOR_PUBLISH (R187): `slot` the input slot. -/
  | monitorPublish (t : Nat) (slot : Nat)
  /-- BREEZE_MSG_INVALID (R171): the BRZ words received, each its bytes B0, B1 and B2 (Table 4-10), from the first word of the
  message to the last that was read of it. -/
  | breezeMsgInvalid (t : Nat) (n : Nat) (words : List (List Byte))
  /-- CREDIT_RECEIVED (R174): Table 4-11's release and seq. -/
  | creditReceived (t : Nat) (n : Nat) (release : Nat) (seq : Nat)
  /-- IDENT_RECEIVED (R177): Table 4-11's fields. -/
  | identReceived (t : Nat) (n : Nat) (release : Nat) (seq : Nat) (payload : List Byte)
  /-- PSTAT_RECEIVED (R177): Table 4-11's fields. -/
  | pstatReceived (t : Nat) (n : Nat) (release : Nat) (seq : Nat) (payload : List Byte)
  /-- TWIN_RECEIVED (R206): Table 4-11's fields. -/
  | twinReceived (t : Nat) (n : Nat) (release : Nat) (seq : Nat) (payload : List Byte)
  /-- BREEZE_BUFFER_RELEASE (R173): `n` the lane pair. -/
  | breezeBufferRelease (t : Nat) (n : Nat)
  /-- CREDIT_SEND (R174): `n` the lane pair. -/
  | creditSend (t : Nat) (n : Nat)
  /-- TALLY_SEND (R176): `n` the lane pair. -/
  | tallySend (t : Nat) (n : Nat)
  /-- TWIN_SEND (R210): `n` the lane pair. -/
  | twinSend (t : Nat) (n : Nat)
  /-- TIMING_SEND (R189): `n` the lane pair. -/
  | timingSend (t : Nat) (n : Nat)
  /-- LINE_READ (R185): the output line read; what the crosspoint and Audio Map checks find; whether scan-out and overlay fetch have delivered the line. -/
  | lineRead (t : Nat) (plane : Plane) (out : Nat) (frame : Nat) (line : Nat) (ecc : Ecc) (audEcc : Ecc) (delivered : Bool) (ovlDelivered : Bool)
  /-- SELECTOR_DECISION (R226): the output line decided. -/
  | selectorDecision (t : Nat) (out : Nat) (frame : Nat) (line : Nat)
  /-- OUTPUT_FRAME_START (R333): the output frame that starts. -/
  | outputFrameStart (t : Nat) (plane : Plane) (out : Nat) (frame : Nat)
  /-- RASTER_CHANGE (R243): `out` the output slot. -/
  | rasterChange (t : Nat) (out : Nat)
  /-- MAP_SCRUB (R213): the entry checked and what the check finds. -/
  | mapScrub (t : Nat) (plane : Plane) (out : Nat) (pend : Bool) (ecc : Ecc)
  /-- AUDIO_MAP_SCRUB (R387): the entry checked and what the check finds. -/
  | audioMapScrub (t : Nat) (plane : Plane) (dst : Nat) (ecc : Ecc)
  /-- PAGE_MAP_SCRUB (R319): the entry checked and what the check finds. -/
  | pageMapScrub (t : Nat) (plane : Plane) (page : Nat) (ecc : Ecc)
  /-- DOORBELL_POLL (R259): the host port. -/
  | doorbellPoll (t : Nat) (port : Port)
  /-- LATCH_SWEEP (R260): `sinceUs` microseconds since the last poll was issued. -/
  | latchSweep (t : Nat) (port : Port) (sinceUs : Nat)
  /-- DOORBELL_READ_COMPLETE (R259): bytes 0x00-0xCF, or none for a failed read. -/
  | doorbellReadComplete (t : Nat) (port : Port) (data : Option (List Byte))
  /-- DOORBELL_WRITEBACK (R261): the host port. -/
  | doorbellWriteback (t : Nat) (port : Port)
  /-- ITEM_ARRIVAL (R266): the 64-byte descriptors read; `ok` false for a failed read. -/
  | itemArrival (t : Nat) (port : Port) (ring : Nat) (descs : List (List Byte)) (ok : Bool)
  /-- ITEM_VALIDATE (R268): the ring whose next item is validated, and the entries (of the control-side Coolbox, or of a
  plane's) in which an uncorrectable error shows (R297, R313). -/
  | itemValidate (t : Nat) (port : Port) (ring : Nat) (spoiled : List (Option Plane × Nat))
  /-- CCT_READ_COMPLETE (R314): the 256 bytes, or none for a failed read. -/
  | cctReadComplete (t : Nat) (port : Port) (id : Nat) (data : Option (List Byte))
  /-- NOP (R265): the ring. -/
  | nop (t : Nat) (port : Port) (ring : Nat)
  /-- SALVO (R273): the ring. -/
  | salvo (t : Nat) (port : Port) (ring : Nat)
  /-- AUTH (R514): the ring. -/
  | auth (t : Nat) (port : Port) (ring : Nat)
  /-- TAKE_VIDEO (R270): the ring. -/
  | takeVideo (t : Nat) (port : Port) (ring : Nat)
  /-- TAKE_AUDIO (R388): the ring. -/
  | takeAudio (t : Nat) (port : Port) (ring : Nat)
  /-- TAKE_FORMAT (R216): the ring. -/
  | takeFormat (t : Nat) (port : Port) (ring : Nat)
  /-- TAKE_OVERLAY (R566): the ring. -/
  | takeOverlay (t : Nat) (port : Port) (ring : Nat)
  /-- CONV_OPEN (R353): the ring. -/
  | convOpen (t : Nat) (port : Port) (ring : Nat)
  /-- CONV_CLOSE (R327): the ring. -/
  | convClose (t : Nat) (port : Port) (ring : Nat)
  /-- SYNC_OPEN (R330): the ring. -/
  | syncOpen (t : Nat) (port : Port) (ring : Nat)
  /-- CCT_SYNC (R315): the ring. -/
  | cctSync (t : Nat) (port : Port) (ring : Nat)
  /-- RESERVE (R324): `resultOk`: the write of the holdings result succeeds. -/
  | reserve (t : Nat) (port : Port) (ring : Nat) (resultOk : Bool)
  /-- RELEASE (R324): `resultOk`: the write of the holdings result succeeds. -/
  | release (t : Nat) (port : Port) (ring : Nat) (resultOk : Bool)
  /-- TIME_SET (R94): the ring. -/
  | timeSet (t : Nat) (port : Port) (ring : Nat)
  /-- TIME_ADJ (R58): the ring. -/
  | timeAdj (t : Nat) (port : Port) (ring : Nat)
  /-- HAMPER_WRITE (R338): `data` the host bytes read. -/
  | hamperWrite (t : Nat) (port : Port) (ring : Nat) (data : List Byte)
  /-- HAMPER_READ (R340): the ring. -/
  | hamperRead (t : Nat) (port : Port) (ring : Nat)
  /-- HAMPER_TRANSFER_DONE (R341): `ok` false where the host access failed. -/
  | hamperTransferDone (t : Nat) (port : Port) (ring : Nat) (ok : Bool)
  /-- NVM_WRITE (R480): `data` the host bytes read, `ok` false where the host access failed. -/
  | nvmWrite (t : Nat) (port : Port) (ring : Nat) (data : List Byte) (ok : Bool)
  /-- NVM_READ (R479): the ring, `ok` false where the host access failed. -/
  | nvmRead (t : Nat) (port : Port) (ring : Nat) (ok : Bool)
  /-- KEY_INFO (R506): the ring, `ok` false where the host access failed. -/
  | keyInfo (t : Nat) (port : Port) (ring : Nat) (ok : Bool)
  /-- KEY_EXTEND (R497): `data` the 48-byte digest read, `ok` false where the host access failed. -/
  | keyExtend (t : Nat) (port : Port) (ring : Nat) (data : List Byte) (ok : Bool)
  /-- KEY_GENERATE (R507): the ring, `ok` false where the write of the statement fails. -/
  | keyGenerate (t : Nat) (port : Port) (ring : Nat) (ok : Bool)
  /-- KEY_PROVENANCE (R510): the ring, `ok` false where the host access failed. -/
  | keyProvenance (t : Nat) (port : Port) (ring : Nat) (ok : Bool)
  /-- KEY_QUOTE (R511): the ring, `ok` false where the host access failed. -/
  | keyQuote (t : Nat) (port : Port) (ring : Nat) (ok : Bool)
  /-- KEY_RESEAL (R508): `data` the expected BMR0-BMR3, `ok` false where the host access failed. -/
  | keyReseal (t : Nat) (port : Port) (ring : Nat) (data : List Byte) (ok : Bool)
  /-- KEY_DELETE (R507): the ring. -/
  | keyDelete (t : Nat) (port : Port) (ring : Nat)
  /-- KEY_RING_AGREE (R512): `data` the host's public key, `ok` false where the host access failed. -/
  | keyRingAgree (t : Nat) (port : Port) (ring : Nat) (data : List Byte) (ok : Bool)
  /-- KEY_SIGN (R505): `data` the digest, `ok` false where the host access failed. -/
  | keySign (t : Nat) (port : Port) (ring : Nat) (data : List Byte) (ok : Bool)
  /-- KEY_MAC (R505): `data` the bytes authenticated, `ok` false where the host access failed. -/
  | keyMac (t : Nat) (port : Port) (ring : Nat) (data : List Byte) (ok : Bool)
  /-- TAKEOVER (R306): the ring. -/
  | takeover (t : Nat) (port : Port) (ring : Nat)
  /-- SALVO_LATCH (R275): the class and the epoch frame of the switch point whose latch point this is. -/
  | salvoLatch (t : Nat) (cls : Nat) (frame : Nat)
  /-- SALVO_COMPLETION_POST (R277): the ring whose first item completes. -/
  | salvoCompletionPost (t : Nat) (port : Port) (ring : Nat)
  /-- ASRUN_CHECKPOINT (R517): `reason` of Table 16-10. -/
  | asrunCheckpoint (t : Nat) (port : Port) (reason : Nat)
  /-- MSIX_MODERATION_EXPIRY (R281): the record ring. -/
  | msixModerationExpiry (t : Nat) (port : Port) (ring : RecRing)
  /-- WEATHERVANE_WRITE (R282): the host port. -/
  | weathervaneWrite (t : Nat) (port : Port)
  /-- RING_CONFIG_WRITE (R254): `off` the offset within the port's HIF block. -/
  | ringConfigWrite (t : Nat) (port : Port) (off : Nat) (val : Word)
  /-- SVR_ENABLE (R255): `pi` the producer index the Doorbell read shows. -/
  | svrEnable (t : Nat) (port : Port) (ring : Nat) (pi : Nat)
  /-- SVR_DISABLE (R256): the Salvo Ring. -/
  | svrDisable (t : Nat) (port : Port) (ring : Nat)
  /-- RECORD_RING_ENABLE (R255): the record ring. -/
  | recordRingEnable (t : Nat) (port : Port) (ring : RecRing)
  /-- RECORD_RING_DISABLE (R256): the record ring. -/
  | recordRingDisable (t : Nat) (port : Port) (ring : RecRing)
  /-- FOLD_BASE_WRITE (R419): `hi` selects HIF_FOLD_BASE_HI. -/
  | foldBaseWrite (t : Nat) (port : Port) (hi : Bool) (val : Word)
  /-- CCT_FLUSH (R313): the port of the write. -/
  | cctFlush (t : Nat) (port : Port)
  /-- HOST_READ_TIMEOUT (R303): the read that timed out. -/
  | hostReadTimeout (t : Nat) (port : Port) (what : HostRead)
  /-- PORT_LOST (R304): the cause of R303. -/
  | portLost (t : Nat) (port : Port) (why : PortLoss)
  /-- PORT_PROBE (R305): the state of the link and of Bus Master Enable. -/
  | portProbe (t : Nat) (port : Port) (linkUp : Bool) (bme : Bool)
  /-- PORT_RESTORED (R305): the host port. -/
  | portRestored (t : Nat) (port : Port)
  /-- PERST_ASSERT (R547): the host port. -/
  | perstAssert (t : Nat) (port : Port)
  /-- PL_FAULT_REQ (R296): the plane. -/
  | plFaultReq (t : Nat) (plane : Plane)
  /-- PL_RESTART_REQ (R300): the plane. -/
  | plRestartReq (t : Nat) (plane : Plane)
  /-- PLANE_AUTO_RESTART (R300): the plane. -/
  | planeAutoRestart (t : Nat) (plane : Plane)
  /-- PLANE_RESTART_DONE (R301): the plane. -/
  | planeRestartDone (t : Nat) (plane : Plane)
  /-- TAKE_SEQUENCER_WATCHDOG (R296): the plane. -/
  | takeSequencerWatchdog (t : Nat) (plane : Plane)
  /-- HAMPER_STACK_FAULT (R320): the plane. -/
  | hamperStackFault (t : Nat) (plane : Plane)
  /-- RESOURCE_RETURN (R326): the closed channel or set. -/
  | resourceReturn (t : Nat) (plane : Plane) (id : Nat)
  /-- PACING_INSTANT (R359): the conversion channel's CCT id and the channel frame that starts. -/
  | pacingInstant (t : Nat) (plane : Plane) (id : Nat) (j : Nat)
  /-- ENGINE_START (R354). -/
  | engineStart (t : Nat)
  /-- ENGINE_WATCHDOG (R362): `g` the Gust engine GE00-GE95. -/
  | engineWatchdog (t : Nat) (g : Nat)
  /-- ENGINE_CONTROL_CHECK_FAULT (R372): `g` the Gust engine, `err` what its checks find. -/
  | engineControlCheckFault (t : Nat) (g : Nat) (err : EngErr)
  /-- ENGINE_TEST_DONE (R375): `pass` the built-in test passed. -/
  | engineTestDone (t : Nat) (g : Nat) (pass : Bool)
  /-- GE_ENG_DIS_WRITE (R376): `hi` selects GE_ENG_DIS_HI. -/
  | geEngDisWrite (t : Nat) (plane : Plane) (hi : Bool) (val : Word)
  /-- GATHER_EXPIRY (R412): `src` the event source. -/
  | gatherExpiry (t : Nat) (src : Nat)
  /-- RATE_LIMIT_EXPIRY (R410): `src` the event source. -/
  | rateLimitExpiry (t : Nat) (src : Nat)
  /-- SQUALL_END (R417). -/
  | squallEnd (t : Nat)
  /-- CAUSE_SETTLE_EXPIRY (R415): `src` the cause's event source. -/
  | causeSettleExpiry (t : Nat) (src : Nat)
  /-- FOLD_SLOT_REWRITE (R420): the Fold Block slot, `ok` false where the write ends in an error. -/
  | foldSlotRewrite (t : Nat) (port : Port) (slot : Nat) (ok : Bool)
  /-- CMX_REQUEST (R453): Table 14-1's master, the tag, the space attribute, address, beats, the chained tag, write bytes and their strobes. -/
  | cmxRequest (t : Nat) (master : Nat) (tag : Nat) (write : Bool) (space : Nat) (addr : Nat) (beats : Nat) (after : Option Nat) (data : List Byte) (strobes : List Bool)
  /-- CMX_SEGMENT (R457): `target` the target port of Table 14-1 (15: default). -/
  | cmxSegment (t : Nat) (target : Nat)
  /-- CMX_MASTER_RESET (R467): `master` of Table 14-1. -/
  | cmxMasterReset (t : Nat) (master : Nat)
  /-- CMX_MASTER_RELEASED (R467): `master` of Table 14-1. -/
  | cmxMasterReleased (t : Nat) (master : Nat)
  /-- CMX_REMAP (R469). -/
  | cmxRemap (t : Nat)
  /-- RAMBLER_WATCHDOG (R472): `c` the Rambler core. -/
  | ramblerWatchdog (t : Nat) (c : Nat)
  /-- LARDER_PAGE_WRITE_DONE (R473): `verify`: the page reads back as programmed. -/
  | larderPageWriteDone (t : Nat) (verify : Bool)
  /-- JOURNAL_COMMIT (R491). -/
  | journalCommit (t : Nat)
  /-- JOURNAL_STRETCH (R491). -/
  | journalStretch (t : Nat)
  /-- COUNTERS_COMMIT (R486). -/
  | countersCommit (t : Nat)
  /-- FAULT_LOG_COMMIT (R487). -/
  | faultLogCommit (t : Nat)
  /-- LARDER_SCRUB (R492): `differ`: the two margin reads differ. -/
  | larderScrub (t : Nat) (differ : Bool)
  /-- ENTROPY_FAIL (R500). -/
  | entropyFail (t : Nat)
  /-- THERMAL_SAMPLE (R531): `tj` the highest sensor reading in degrees C, 0 below 0. -/
  | thermalSample (t : Nat) (tj : Nat)
  /-- THERMAL_TRIP_120 (R532). -/
  | thermalTrip120 (t : Nat)
  /-- THERMAL_STEP_LEAVE (R532). -/
  | thermalStepLeave (t : Nat)
  /-- SMBUS_BLOCK_READ (R548): `code` the command code; `pec`: the master clocks one further byte. -/
  | smbusBlockRead (t : Nat) (code : Nat) (pec : Bool)
  /-- SMBUS_TIMEOUT (R548). -/
  | smbusTimeout (t : Nat)
  /-- BYPASS (R550). -/
  | bypass (t : Nat)
  /-- IDCODE (R550). -/
  | idcode (t : Nat)
  /-- SAMPLE_PRELOAD (R550): `pins` the levels captured, `load` the bits shifted in. -/
  | samplePreload (t : Nat) (pins : List Bool) (load : List Bool)
  /-- EXTEST (R550). -/
  | extest (t : Nat)
  /-- REFIN_EDGES_RETURN (R61): `x` the input 0-3, or 5 for PPSIN. -/
  | refinEdgesReturn (t : Nat) (x : Nat)
  /-- TB_DPLL_SEL_WRITE (R73): `val` the word written; `src` the time of the input selected, in u. -/
  | tbDpllSelWrite (t : Nat) (tb : Plane) (val : Word) (src : Nat)
  /-- CKO_CONFIG_WRITE (R443): `c` the output; `div` selects CLK_CKO_DIV, else CLK_CKO_CFG. -/
  | ckoConfigWrite (t : Nat) (c : Nat) (div : Bool) (val : Word)
  /-- PERST_RELEASE (R547): the host port. -/
  | perstRelease (t : Nat) (port : Port)
  /-- RAIL_RETURN (R478): `rail` the index of Table 17-1. -/
  | railReturn (t : Nat) (rail : Nat)
  deriving DecidableEq, Repr

end Sys2Proof
end

