-- ==== Sys2Proof/WellFormed.lean ====
section
/-! DEFINITION. Well-formed commands: every element a command names exists (chapter 0, Tables 0-2,
0-3, 9-1, 14-1). A command that names an element the device does not have has no meaning
(`Fault.noSuchElement`). -/

namespace Sys2Proof

/-- Lane pairs 0-383 (R3). -/
abbrev laneOk (n : Nat) : Bool := decide (n < 384)

/-- Octets OCT00-OCT47 (R2). -/
abbrev octetOk (k : Nat) : Bool := decide (k < 48)

/-- Synthesizers SYN0-SYN5 (Table 12-1). -/
abbrev synOk (m : Nat) : Bool := decide (m < 6)

/-- Ramped loops: SYN0-SYN5, LS-A, LS-B (R442). -/
abbrev loopOk (l : Nat) : Bool := decide (l < 8)

/-- Rails of Table 17-1. -/
abbrev railOk (r : Nat) : Bool := decide (r < 8)

/-- A stage of a page write names one of the 32 words (R473). -/
def stageOk : TornStage → Bool
  | .programming w => decide (w < 32)
  | .beforeErase => true
  | .duringErase => true
  | .programmed => true

/-- The six strap balls of R542. -/
abbrev strapsOk (s : Nat) : Bool := decide (s < 64)

/-- Gated blocks: octets 0-47, planes 48 and 49 (R449). -/
abbrev blockOk (b : Nat) : Bool := decide (b < 50)

/-- Output slots OS0000-OS1151 (R3). -/
abbrev outOk (o : Nat) : Bool := decide (o < 1152)

/-- Input slots IS0000-IS1151 (R3). -/
abbrev slotOk (s : Nat) : Bool := decide (s < 1152)

/-- Salvo Rings SVR0-SVR15 of a port (R253). -/
abbrev ringOk (r : Nat) : Bool := decide (r < 16)

/-- Record rings of a port (R253). -/
def recRingOk : RecRing → Bool
  | .cpr c => decide (c < 16)
  | .evr e => decide (e < 32)
  | .asr => true

/-- Host reads: a Salvo Ring, a CCT id (R303). -/
def readOk : HostRead → Bool
  | .descriptor r => ringOk r
  | .cct id => decide (id < 4096)
  | .doorbell | .probe => true

/-- Destination channels 0-18431 (R5). -/
abbrev dstOk (d : Nat) : Bool := decide (d < 18432)

/-- Hamper pages of a plane (R318). -/
abbrev pageOk (p : Nat) : Bool := decide (p < 2097152)

/-- Timing classes TC00-TC15 (R47). -/
abbrev classOk (n : Nat) : Bool := decide (n < 16)

/-- CCT ids (Table 9-1). -/
abbrev idOk (i : Nat) : Bool := decide (i < 4096)

/-- Gust engines GE00-GE95 (Table 0-3). -/
abbrev engineOk (g : Nat) : Bool := decide (g < 96)

/-- Control Matrix masters (Table 14-1). -/
abbrev masterOk (m : Nat) : Bool := decide (m < 11)

/-- Transaction tags (R459). -/
abbrev tagOk (t : Nat) : Bool := decide (t < 16)

/-- Space attributes (R454). -/
abbrev spaceOk (s : Nat) : Bool := decide (s < 3)

/-- Beats of a burst (R455). -/
abbrev beatsOk (b : Nat) : Bool := decide (1 ≤ b ∧ b ≤ 256)

/-- Control Matrix targets (Table 14-1). -/
abbrev targetOk (t : Nat) : Bool := decide (t < 10 ∨ t = 15)

/-- Safe-state triggers (R446). -/
abbrev triggerOk (c : Nat) : Bool := decide (1 ≤ c ∧ c ≤ 4)

/-- Checkpoint reasons (Table 16-10). -/
abbrev reasonOk (r : Nat) : Bool := decide (r < 4)

/-- REFIN0-REFIN3 (Table 2-4). -/
abbrev refinOk (x : Nat) : Bool := decide (x < 4)

/-- Timing inputs with an index (Table 2-4). -/
abbrev inputOk (x : Nat) : Bool := decide (x < 5)

/-- Inputs with edges: REFIN0-REFIN3, and PPSIN as 5 (Table 2-4). -/
abbrev edgeInOk (x : Nat) : Bool := decide (x < 4 ∨ x = 5)

/-- Event sources (R405). -/
abbrev srcOk (s : Nat) : Bool := decide (s < 6784)

/-- Fold Block slots (Table 12-6). -/
abbrev foldSlotOk (q : Nat) : Bool := decide (q < 16)

/-- Clock outputs CKO0-CKO7 (R443). -/
abbrev ckoOk (c : Nat) : Bool := decide (c < 8)

/-- Rambler cores (Table 14-4). -/
abbrev coreOk (c : Nat) : Bool := decide (c < 4)

/-- Every element the command names exists. -/
def Instr.wf : Instr → Bool
  | .registerWrite _ _ _ _ => true
  | .suppliesValid _ straps => strapsOk straps
  | .resetAssert _ _ => true
  | .resetRelease _ straps => strapsOk straps
  | .railDeparture _ rail => railOk rail
  | .brownOut _ _ stage => stageOk stage
  | .xaStartDelayExpiry _ => true
  | .xaUsable _ => true
  | .xaEdgeTimeout _ => true
  | .xaCountCheck _ _ => true
  | .xbWindow _ _ _ _ _ => true
  | .xbEdgeGap _ => true
  | .lsCoastExpiry _ _ => true
  | .lsRelock _ _ => true
  | .lsLockLost _ _ => true
  | .lsRelockTimeout _ _ => true
  | .lsToXa _ => true
  | .omLock _ k => octetOk k
  | .omLockLost _ k => octetOk k
  | .synLock _ m => synOk m
  | .synLockLost _ m => synOk m
  | .synRelockTimeout _ m => synOk m
  | .synSteerUpdate _ _ _ => true
  | .ratioRampStep _ loop _ => loopOk loop
  | .syn5RatioWrite _ _ => true
  | .syncArm _ => true
  | .syncinEdge _ => true
  | .safeStateTrigger _ code => triggerOk code
  | .clockGateWrite _ _ _ => true
  | .clockGateDone _ block => blockOk block
  | .stackTrainDone _ _ _ => true
  | .keySlotUnwrap _ => true
  | .restore _ => true
  | .ready _ => true
  | .graceClosed _ => true
  | .refinLost _ x _ => refinOk x
  | .ppsinLost _ => true
  | .refvLost _ _ => true
  | .refvEnableWrite _ _ _ => true
  | .qualSample _ x _ => inputOk x
  | .dpllPhaseUpdate _ _ _ _ _ _ _ => true
  | .switchingDone _ _ _ => true
  | .pmHoldoffExpiry _ x _ => inputOk x
  | .pmWtrExpiry _ x _ => inputOk x
  | .tbPmForceWrite _ _ _ => true
  | .leadFailover _ => true
  | .leadReq _ _ => true
  | .tbClassWrite _ n _ => classOk n
  | .classParamTakeEffect _ n => classOk n
  | .tbSnapA _ => true
  | .tbSnapB _ _ => true
  | .laneEnable _ n => laneOk n
  | .laneDisable _ n => laneOk n
  | .lnRetrain _ n => laneOk n
  | .lnBitSlip _ n _ => laneOk n
  | .lnOctCtrlWrite _ k _ => octetOk k
  | .detectPulse _ n _ => laneOk n
  | .rxBitLock _ n => laneOk n
  | .alignWindowEnd _ n _ _ _ _ _ => laneOk n
  | .wt2Received _ n _ _ => laneOk n
  | .capReceived _ n _ => laneOk n
  | .capSend _ n => laneOk n
  | .laneStateTimeout _ n => laneOk n
  | .rxSquelch _ n => laneOk n
  | .rxBitLockLost _ n => laneOk n
  | .errorWindowEnd _ n _ _ => laneOk n
  | .skpTimeout _ n => laneOk n
  | .recoveryRequestSend _ n => laneOk n
  | .idlRunSend _ n => laneOk n
  | .ingressRecoveryTimeout _ n => laneOk n
  | .skpReceived _ n => laneOk n
  | .lullReceived _ n _ _ => laneOk n
  | .zephyrBurstReceived _ n _ _ => laneOk n
  | .egressIdleEnter _ n => laneOk n
  | .egressWake _ n => laneOk n
  | .parcelReceived _ n _ _ _ _ => laneOk n
  | .twinHoldExpiry _ slot => slotOk slot
  | .swmReceived _ n _ => laneOk n
  | .fchReceived _ n _ => laneOk n
  | .slotBufferGate _ slot => slotOk slot
  | .hamperIngest _ _ slot => slotOk slot
  | .monitorPublish _ slot => slotOk slot
  | .breezeMsgInvalid _ n _ => laneOk n
  | .creditReceived _ n _ _ => laneOk n
  | .identReceived _ n _ _ _ => laneOk n
  | .pstatReceived _ n _ _ _ => laneOk n
  | .twinReceived _ n _ _ _ => laneOk n
  | .breezeBufferRelease _ n => laneOk n
  | .creditSend _ n => laneOk n
  | .tallySend _ n => laneOk n
  | .twinSend _ n => laneOk n
  | .timingSend _ n => laneOk n
  | .lineRead _ _ out _ _ _ _ _ _ => outOk out
  | .selectorDecision _ out _ _ => outOk out
  | .outputFrameStart _ _ out _ => outOk out
  | .rasterChange _ out => outOk out
  | .mapScrub _ _ out _ _ => outOk out
  | .audioMapScrub _ _ dst _ => dstOk dst
  | .pageMapScrub _ _ page _ => pageOk page
  | .doorbellPoll _ _ => true
  | .latchSweep _ _ _ => true
  | .doorbellReadComplete _ _ _ => true
  | .doorbellWriteback _ _ => true
  | .itemArrival _ _ ring _ _ => ringOk ring
  | .itemValidate _ _ ring spoiled => ringOk ring && spoiled.all fun x => idOk x.2
  | .cctReadComplete _ _ id _ => idOk id
  | .nop _ _ ring => ringOk ring
  | .salvo _ _ ring => ringOk ring
  | .auth _ _ ring => ringOk ring
  | .takeVideo _ _ ring => ringOk ring
  | .takeAudio _ _ ring => ringOk ring
  | .takeFormat _ _ ring => ringOk ring
  | .takeOverlay _ _ ring => ringOk ring
  | .convOpen _ _ ring => ringOk ring
  | .convClose _ _ ring => ringOk ring
  | .syncOpen _ _ ring => ringOk ring
  | .cctSync _ _ ring => ringOk ring
  | .reserve _ _ ring _ => ringOk ring
  | .release _ _ ring _ => ringOk ring
  | .timeSet _ _ ring => ringOk ring
  | .timeAdj _ _ ring => ringOk ring
  | .hamperWrite _ _ ring _ => ringOk ring
  | .hamperRead _ _ ring => ringOk ring
  | .hamperTransferDone _ _ ring _ => ringOk ring
  | .nvmWrite _ _ ring _ _ => ringOk ring
  | .nvmRead _ _ ring _ => ringOk ring
  | .keyInfo _ _ ring _ => ringOk ring
  | .keyExtend _ _ ring _ _ => ringOk ring
  | .keyGenerate _ _ ring _ => ringOk ring
  | .keyProvenance _ _ ring _ => ringOk ring
  | .keyQuote _ _ ring _ => ringOk ring
  | .keyReseal _ _ ring _ _ => ringOk ring
  | .keyDelete _ _ ring => ringOk ring
  | .keyRingAgree _ _ ring _ _ => ringOk ring
  | .keySign _ _ ring _ _ => ringOk ring
  | .keyMac _ _ ring _ _ => ringOk ring
  | .takeover _ _ ring => ringOk ring
  | .salvoLatch _ cls _ => classOk cls
  | .salvoCompletionPost _ _ ring => ringOk ring
  | .asrunCheckpoint _ _ reason => reasonOk reason
  | .msixModerationExpiry _ _ ring => recRingOk ring
  | .weathervaneWrite _ _ => true
  | .ringConfigWrite _ _ _ _ => true
  | .svrEnable _ _ ring _ => ringOk ring
  | .svrDisable _ _ ring => ringOk ring
  | .recordRingEnable _ _ ring => recRingOk ring
  | .recordRingDisable _ _ ring => recRingOk ring
  | .foldBaseWrite _ _ _ _ => true
  | .cctFlush _ _ => true
  | .hostReadTimeout _ _ what => readOk what
  | .portLost _ _ _ => true
  | .portProbe _ _ _ _ => true
  | .portRestored _ _ => true
  | .perstAssert _ _ => true
  | .plFaultReq _ _ => true
  | .plRestartReq _ _ => true
  | .planeAutoRestart _ _ => true
  | .planeRestartDone _ _ => true
  | .takeSequencerWatchdog _ _ => true
  | .hamperStackFault _ _ => true
  | .resourceReturn _ _ id => idOk id
  | .pacingInstant _ _ id _ => idOk id
  | .engineStart _ => true
  | .engineWatchdog _ g => engineOk g
  | .engineControlCheckFault _ g _ => engineOk g
  | .engineTestDone _ g _ => engineOk g
  | .geEngDisWrite _ _ _ _ => true
  | .gatherExpiry _ src => srcOk src
  | .rateLimitExpiry _ src => srcOk src
  | .squallEnd _ => true
  | .causeSettleExpiry _ src => srcOk src
  | .foldSlotRewrite _ _ slot _ => foldSlotOk slot
  | .cmxRequest _ master tag _ space _ beats _ _ _ => masterOk master && tagOk tag && spaceOk space && beatsOk beats
  | .cmxSegment _ target => targetOk target
  | .cmxMasterReset _ master => masterOk master
  | .cmxMasterReleased _ master => masterOk master
  | .cmxRemap _ => true
  | .ramblerWatchdog _ c => coreOk c
  | .larderPageWriteDone _ _ => true
  | .journalCommit _ => true
  | .journalStretch _ => true
  | .countersCommit _ => true
  | .faultLogCommit _ => true
  | .larderScrub _ _ => true
  | .entropyFail _ => true
  | .thermalSample _ _ => true
  | .thermalTrip120 _ => true
  | .thermalStepLeave _ => true
  | .smbusBlockRead _ _ _ => true
  | .smbusTimeout _ => true
  | .bypass _ => true
  | .idcode _ => true
  | .samplePreload _ _ _ => true
  | .extest _ => true
  | .refinEdgesReturn _ x => edgeInOk x
  | .tbDpllSelWrite _ _ _ _ => true
  | .ckoConfigWrite _ c _ _ => ckoOk c
  | .perstRelease _ _ => true
  | .railReturn _ rail => railOk rail

end Sys2Proof
end

