-- ==== Sys2Proof/Decode.lean ====
section
/-! DEFINITION. The decoder of the host's table words. No row of spec/opcode_table.json gives bits, so
no word spells a command. -/

namespace Sys2Proof

/-- The command a table word spells: none, since the table gives no row any bits. -/
def decodeTableWord (nbits w : Nat) : Option Instr := (fun _ _ => none) nbits w

end Sys2Proof
end

