-- ==== Sys2Proof/Machine/Bytes.lean ====
section
/-! DEFINITION. Byte-string helpers: little-endian fields (R9), the packing of lane words, CRC-16/CCITT
(R138) and CRC-32C (R264), saturating sums, and signed fields. -/

namespace Sys2Proof.Machine

/-- `v` as `n` little-endian bytes (R9), reduced modulo 2^(8n). -/
def le : Nat → Nat → List Byte
  | 0, _ => []
  | n + 1, v => BitVec.ofNat 8 v :: le n (v / 256)

/-- The number a little-endian byte string holds. -/
def ofLe : List Byte → Nat
  | [] => 0
  | b :: bs => b.toNat + 256 * ofLe bs

/-- `n` zero bytes. -/
def zeros (n : Nat) : List Byte := List.replicate n 0#8

/-- The first `n` bytes of `bs`, padded with zeros to exactly `n`. -/
def fit (n : Nat) (bs : List Byte) : List Byte := (bs ++ zeros (n - bs.length)).take n

/-- Bytes `off` to `off + n - 1` of `bs` as a number; a byte beyond the end counts as 0. -/
def fieldAt (bs : List Byte) (off n : Nat) : Nat := ofLe ((bs.drop off).take n)

/-- The list with its first element that satisfies `p` changed by `f`. -/
def modFirst {α : Type} (p : α → Bool) (f : α → α) : List α → List α
  | [] => []
  | x :: r => if p x then f x :: r else x :: modFirst p f r

/-- Bits [hi:lo] of a number. -/
def bits (v hi lo : Nat) : Nat := (v >>> lo) % 2 ^ (hi + 1 - lo)

/-- Bit `k` of a number. -/
def bitOf (v k : Nat) : Bool := (v >>> k) % 2 == 1

/-- 1 for true, 0 for false. -/
def b2n (b : Bool) : Nat := if b then 1 else 0

/-- A byte string as a mask: bit s mod 8 of byte s div 8 stands for element s (Table 12-6). -/
def bitmap (n : Nat) (s : List Nat) : List Byte :=
  (List.range n).map fun k =>
    BitVec.ofNat 8 ((List.range 8).foldl (fun a b => if s.contains (8 * k + b) then a + 2 ^ b else a) 0)

/-- `s` with `x` inserted, kept in rising order without repeats. -/
def setInsert (x : Nat) : List Nat → List Nat
  | [] => [x]
  | y :: r => if x < y then x :: y :: r else if x = y then y :: r else y :: setInsert x r

/-- The two's complement field of width `w` that holds `z` (modulo 2^w). -/
def ofInt (w : Nat) (z : Int) : Nat := (z % (2 ^ w : Int)).toNat

/-- The signed number a field of width `w` holds. -/
def toInt (w v : Nat) : Int :=
  if v % 2 ^ w < 2 ^ (w - 1) then (v % 2 ^ w : Int) else (v % 2 ^ w : Int) - 2 ^ w

/-- `a + n`, saturating at the largest value of a `w`-bit counter. -/
def satAdd (w a n : Nat) : Nat := min (a + n) (2 ^ w - 1)

/-- One bit of the reflected CRC-32C (R264): the generator 0x1EDC6F41 reads 0x82F63B78 reflected. -/
def crc32cBit (c : Nat) : Nat := if c % 2 = 1 then (c >>> 1) ^^^ 0x82F63B78 else c >>> 1

/-- One byte of CRC-32C. -/
def crc32cByte (c : Nat) (b : Byte) : Nat :=
  crc32cBit (crc32cBit (crc32cBit (crc32cBit (crc32cBit (crc32cBit (crc32cBit (crc32cBit
    (c ^^^ b.toNat))))))))

/-- CRC-32C of a byte string (R264). -/
def crc32c (bs : List Byte) : Nat := (bs.foldl crc32cByte 0xFFFFFFFF) ^^^ 0xFFFFFFFF

/-- One bit of a CRC-16 with generator 0x1021, most significant bit first. -/
def crc16Bit (c : Nat) : Nat := if 0x8000 ≤ c then ((c <<< 1) ^^^ 0x1021) % 65536 else c <<< 1

/-- One byte of CRC-16/CCITT. -/
def crc16Byte (c : Nat) (b : Byte) : Nat :=
  crc16Bit (crc16Bit (crc16Bit (crc16Bit (crc16Bit (crc16Bit (crc16Bit (crc16Bit
    (c ^^^ (b.toNat <<< 8)))))))))

/-- CRC-16 with generator 0x1021 and initial value 0xFFFF. -/
def crc16 (bs : List Byte) : Nat := bs.foldl crc16Byte 0xFFFF

/-- One bit of the SMBus PEC, a CRC-8 with generator 0x07 (R548). -/
def crc8Bit (c : Nat) : Nat := if 0x80 ≤ c then ((c <<< 1) ^^^ 0x07) % 256 else c <<< 1

/-- The SMBus PEC of a byte string. -/
def crc8 (bs : List Byte) : Nat :=
  bs.foldl (fun c b => crc8Bit (crc8Bit (crc8Bit (crc8Bit (crc8Bit (crc8Bit (crc8Bit (crc8Bit (c ^^^ b.toNat))))))))) 0

/-- The four bytes of a lane word; byte 0 is the least significant (R9). -/
def wordBytes (w : Word) : List Byte := le 4 w.toNat

/-- Words of a byte string, four bytes each, little-endian. -/
def toWords : Nat → List Byte → List Word
  | 0, _ => []
  | n + 1, bs => BitVec.ofNat 32 (ofLe (bs.take 4)) :: toWords n (bs.drop 4)

/-- The integers `a` to `a + n - 1`. -/
def span (a n : Nat) : List Nat := (List.range n).map (a + ·)

end Sys2Proof.Machine
end

