-- ==== Sys2Proof/Machine/Registers.lean ====
section
/-! DEFINITION. The register index (chapter 19) and the register tables of every chapter: names, BAR0
offsets, fields with their access codes (R11, Table 0-4), and reset values. `RegName` lists the
registers by the names of the spec; a register that exists more than once is one name with an instance
index. The fields `F.<REGISTER>_<field>` are the rows of the register tables. -/

namespace Sys2Proof.Machine

/-- The registers of Tables 19-3, 19-5 and 19-6, without instance numbers. -/
inductive RegName where
  | TB_CTRL | TB_STATUS | TB_ERR | TB_PM_CTRL | TB_PM_FORCE | TB_QUAL
  | TB_DPLL_CFG | TB_DPLL_SEL | TB_REALIGN | TB_PPS_CFG | TB_REFV_CFG | TB_TAI_UTC
  | TB_PRIO | TB_REF_CFG | TB_REF_NUM | TB_CLASS | TB_SNAP_CTRL | TB_SNAP_SEC_LO
  | TB_SNAP_SEC_HI | TB_SNAP_NS | TB_SNAP_FRAC | LN_OCT_CTRL | LN_OCT_STATUS | LN_CTRL
  | LN_STATUS | LN_ERR | LN_COMMA | LN_RX_EQ | LN_TX_EQ | LN_TX_CTRL
  | LN_CNT_CODE | LN_CAP_RX0 | LN_CAP_RX1 | LN_CAP_RX2 | LN_CAP_RX3 | LN_CNT_HDR
  | LN_CNT_PCL | LN_BRZ_CNT | LN_BRZ_STATUS | LX_CTRL | LX_STATUS | LX_ECC_CNT
  | LX_ECC_ADDR | LX_CNT_MISS | LX_MAP_SEL | LX_MAP_DATA | LX_MAP_CHK | LN_TWIN_CNT
  | LN_MON_MEAN | LN_MON_MIN | LN_MON_MAX | LN_MON_STATE | SEL_CTRL | SEL_STATUS
  | SEL_CNT_FAILOVER | SEL_CNT_FILL | SEL_OUT_IDX | SEL_OUT_STATE | HIF_PORT_CTRL | HIF_PORT_STATUS
  | HIF_ERR | HIF_POLL_SKIP | HIF_DB_BASE_LO | HIF_DB_BASE_HI | HIF_DB_CFG | HIF_WV_BASE_LO
  | HIF_WV_BASE_HI | HIF_WV_CFG | HIF_SVR_BASE_LO | HIF_CPR_BASE_LO | HIF_EVR_BASE_LO | HIF_ASR_BASE_LO
  | HIF_SVR_BASE_HI | HIF_CPR_BASE_HI | HIF_EVR_BASE_HI | HIF_ASR_BASE_HI | HIF_SVR_CFG | HIF_SVR_STATUS
  | HIF_CPR_CFG | HIF_EVR_CFG | HIF_ASR_CFG | HIF_CPR_STATUS | HIF_EVR_STATUS | HIF_ASR_STATUS
  | PL_CTRL | PL_STATUS | PL_CNT | HIF_LOSS | HIF_TAKEN | HAM_CTRL
  | HAM_STATUS | HAM_POOL | HAM_TOKENS | HAM_ECC_CNT | HAM_ECC_ADDR | HAM_PM_SEL
  | HAM_PM_DATA | HAM_PM_CHK | HAM_QUAR | HAM_CB_CNT | HAM_SYNC_IDX | HAM_SYNC_STATE
  | HIF_CCT_BASE_LO | HIF_CCT_BASE_HI | HIF_CCT_CNT | GE_CTRL | GE_STATUS | GE_PACK
  | GE_ENG_IDX | GE_ENG_STATE | GE_ENG_CNT | GE_ENG_DIS_LO | GE_ENG_DIS_HI | GE_CC_IDX
  | GE_CC_STATE | GE_CNT | AX_CTRL | AX_STATUS | AX_ECC_CNT | AX_ECC_ADDR
  | AX_MAP_SEL | AX_MAP_LO | AX_MAP_HI | AX_MAP_CHK | AX_SRC_SEL | AX_SRC_STATE
  | AX_CNT_MISS | AX_CNT_DISC | HIF_FOLD_BASE_LO | HIF_FOLD_BASE_HI | HIF_EV_CTRL | HIF_EV_WRITTEN
  | HIF_EV_FOLDED | HIF_EV_LOST | HIF_EV_CAUSES | HIF_EV_ROUTE | CLK_CTRL | CLK_STATUS
  | CLK_ERR | CLK_XB_CFG | CLK_XB_STATUS | CLK_SAFE | CLK_LOCK_CFG | CLK_SYNC_CFG
  | CLK_DIAG | CLK_OM_LOCK_LO | CLK_OM_LOCK_HI | CLK_SYN_N | CLK_SYN_FRAC | CLK_SYN_MOD
  | CLK_SYN_DITHER | CLK_CKO_CFG | CLK_CKO_DIV | GLB_CLKEN0 | GLB_CLKEN1 | GLB_CLKPEND0
  | GLB_CLKPEND1 | CMX_CTRL | CMX_ERR | CMX_ERR_ADDR_LO | CMX_ERR_ADDR_HI | CMX_ERR_INFO
  | CMX_MRST | CMX_RMB_STATUS | LDR_CTRL | LDR_STATUS | LDR_ERR | LDR_TIE
  | LDR_CNT | LDR_SCRUB | LDR_JRNL | KEY_CTRL | KEY_STATUS | KEY_FAULT
  | KEY_BMR_SEL | KEY_BMR_DATA | KEY_SLOT_SEL | KEY_SLOT_STATE | KEY_CNT | GLB_START
  | GLB_READY | GLB_SUPPLY | GLB_THERM | GLB_THERM_CNT | GLB_GPIO_DIR | GLB_GPIO_OUT
  | GLB_GPIO_IN | GLB_GPIO_PULL | GLB_ID | GLB_REV
  deriving DecidableEq, Repr

/-- Access codes of Table 0-4. -/
inductive Access where
  | rw | ro | w1c | w1s | wo | rwl
  deriving DecidableEq, Repr

/-- A field of a register: its lowest bit and its width. -/
structure Field where
  reg : RegName
  lo : Nat
  width : Nat
  deriving DecidableEq, Repr

/-- A field's row in a register table, as a write needs it: place and access code. -/
structure FieldRow where
  lo : Nat
  width : Nat
  access : Access
  deriving DecidableEq, Repr

/-! ### Where the registers stand: base offset and (count, stride, multiplier) of each index -/

/-- The BAR0 offset of instance 0, and the dimensions of the instance index: for each dimension its
count, its stride in bytes and what one step of it adds to the instance index. -/
def RegName.place : RegName → Nat × List (Nat × Nat × Nat)
  | .TB_CTRL => (0x30000, [])
  | .TB_STATUS => (0x30004, [])
  | .TB_ERR => (0x30008, [])
  | .TB_PM_CTRL => (0x30010, [])
  | .TB_PM_FORCE => (0x30014, [])
  | .TB_QUAL => (0x30018, [])
  | .TB_DPLL_CFG => (0x3001C, [])
  | .TB_DPLL_SEL => (0x30020, [(2, 0x4, 1)])
  | .TB_REALIGN => (0x30028, [])
  | .TB_PPS_CFG => (0x3002C, [])
  | .TB_REFV_CFG => (0x30030, [])
  | .TB_TAI_UTC => (0x30034, [])
  | .TB_PRIO => (0x30040, [(5, 0x4, 1)])
  | .TB_REF_CFG => (0x30080, [(4, 0x10, 1)])
  | .TB_REF_NUM => (0x30084, [(4, 0x10, 1)])
  | .TB_CLASS => (0x30100, [(16, 0x4, 1)])
  | .TB_SNAP_CTRL => (0x30200, [])
  | .TB_SNAP_SEC_LO => (0x30204, [])
  | .TB_SNAP_SEC_HI => (0x30208, [])
  | .TB_SNAP_NS => (0x3020C, [])
  | .TB_SNAP_FRAC => (0x30210, [])
  | .LN_OCT_CTRL => (0x80000, [(48, 0x1000, 1)])
  | .LN_OCT_STATUS => (0x80004, [(48, 0x1000, 1)])
  | .LN_CTRL => (0x80100, [(48, 0x1000, 8), (8, 0x80, 1)])
  | .LN_STATUS => (0x80104, [(48, 0x1000, 8), (8, 0x80, 1)])
  | .LN_ERR => (0x80108, [(48, 0x1000, 8), (8, 0x80, 1)])
  | .LN_COMMA => (0x8010C, [(48, 0x1000, 8), (8, 0x80, 1)])
  | .LN_RX_EQ => (0x80110, [(48, 0x1000, 8), (8, 0x80, 1)])
  | .LN_TX_EQ => (0x80114, [(48, 0x1000, 8), (8, 0x80, 1)])
  | .LN_TX_CTRL => (0x80118, [(48, 0x1000, 8), (8, 0x80, 1)])
  | .LN_CNT_CODE => (0x8011C, [(48, 0x1000, 8), (8, 0x80, 1)])
  | .LN_CAP_RX0 => (0x80120, [(48, 0x1000, 8), (8, 0x80, 1)])
  | .LN_CAP_RX1 => (0x80124, [(48, 0x1000, 8), (8, 0x80, 1)])
  | .LN_CAP_RX2 => (0x80128, [(48, 0x1000, 8), (8, 0x80, 1)])
  | .LN_CAP_RX3 => (0x8012C, [(48, 0x1000, 8), (8, 0x80, 1)])
  | .LN_CNT_HDR => (0x80130, [(48, 0x1000, 8), (8, 0x80, 1)])
  | .LN_CNT_PCL => (0x80134, [(48, 0x1000, 8), (8, 0x80, 1)])
  | .LN_BRZ_CNT => (0x80138, [(48, 0x1000, 8), (8, 0x80, 1)])
  | .LN_BRZ_STATUS => (0x8013C, [(48, 0x1000, 8), (8, 0x80, 1)])
  | .LX_CTRL => (0x100000, [(2, 0x400000, 1)])
  | .LX_STATUS => (0x100004, [(2, 0x400000, 1)])
  | .LX_ECC_CNT => (0x100008, [(2, 0x400000, 1)])
  | .LX_ECC_ADDR => (0x10000C, [(2, 0x400000, 1)])
  | .LX_CNT_MISS => (0x100010, [(2, 0x400000, 1)])
  | .LX_MAP_SEL => (0x100014, [(2, 0x400000, 1)])
  | .LX_MAP_DATA => (0x100018, [(2, 0x400000, 1)])
  | .LX_MAP_CHK => (0x10001C, [(2, 0x400000, 1)])
  | .LN_TWIN_CNT => (0x80140, [(48, 0x1000, 8), (8, 0x80, 1)])
  | .LN_MON_MEAN => (0x80150, [(48, 0x1000, 24), (8, 0x80, 3), (3, 0x10, 1)])
  | .LN_MON_MIN => (0x80154, [(48, 0x1000, 24), (8, 0x80, 3), (3, 0x10, 1)])
  | .LN_MON_MAX => (0x80158, [(48, 0x1000, 24), (8, 0x80, 3), (3, 0x10, 1)])
  | .LN_MON_STATE => (0x8015C, [(48, 0x1000, 24), (8, 0x80, 3), (3, 0x10, 1)])
  | .SEL_CTRL => (0x900000, [])
  | .SEL_STATUS => (0x900004, [])
  | .SEL_CNT_FAILOVER => (0x900008, [])
  | .SEL_CNT_FILL => (0x90000C, [])
  | .SEL_OUT_IDX => (0x900010, [])
  | .SEL_OUT_STATE => (0x900014, [])
  | .HIF_PORT_CTRL => (0x10000, [(2, 0x8000, 1)])
  | .HIF_PORT_STATUS => (0x10004, [(2, 0x8000, 1)])
  | .HIF_ERR => (0x10008, [(2, 0x8000, 1)])
  | .HIF_POLL_SKIP => (0x1000C, [(2, 0x8000, 1)])
  | .HIF_DB_BASE_LO => (0x10010, [(2, 0x8000, 1)])
  | .HIF_DB_BASE_HI => (0x10014, [(2, 0x8000, 1)])
  | .HIF_DB_CFG => (0x10018, [(2, 0x8000, 1)])
  | .HIF_WV_BASE_LO => (0x10020, [(2, 0x8000, 1)])
  | .HIF_WV_BASE_HI => (0x10024, [(2, 0x8000, 1)])
  | .HIF_WV_CFG => (0x10028, [(2, 0x8000, 1)])
  | .HIF_SVR_BASE_LO => (0x10100, [(2, 0x8000, 16), (16, 0x10, 1)])
  | .HIF_CPR_BASE_LO => (0x10200, [(2, 0x8000, 16), (16, 0x10, 1)])
  | .HIF_EVR_BASE_LO => (0x10400, [(2, 0x8000, 32), (32, 0x10, 1)])
  | .HIF_ASR_BASE_LO => (0x10600, [(2, 0x8000, 1)])
  | .HIF_SVR_BASE_HI => (0x10104, [(2, 0x8000, 16), (16, 0x10, 1)])
  | .HIF_CPR_BASE_HI => (0x10204, [(2, 0x8000, 16), (16, 0x10, 1)])
  | .HIF_EVR_BASE_HI => (0x10404, [(2, 0x8000, 32), (32, 0x10, 1)])
  | .HIF_ASR_BASE_HI => (0x10604, [(2, 0x8000, 1)])
  | .HIF_SVR_CFG => (0x10108, [(2, 0x8000, 16), (16, 0x10, 1)])
  | .HIF_SVR_STATUS => (0x1010C, [(2, 0x8000, 16), (16, 0x10, 1)])
  | .HIF_CPR_CFG => (0x10208, [(2, 0x8000, 16), (16, 0x10, 1)])
  | .HIF_EVR_CFG => (0x10408, [(2, 0x8000, 32), (32, 0x10, 1)])
  | .HIF_ASR_CFG => (0x10608, [(2, 0x8000, 1)])
  | .HIF_CPR_STATUS => (0x1020C, [(2, 0x8000, 16), (16, 0x10, 1)])
  | .HIF_EVR_STATUS => (0x1040C, [(2, 0x8000, 32), (32, 0x10, 1)])
  | .HIF_ASR_STATUS => (0x1060C, [(2, 0x8000, 1)])
  | .PL_CTRL => (0x100080, [(2, 0x400000, 1)])
  | .PL_STATUS => (0x100084, [(2, 0x400000, 1)])
  | .PL_CNT => (0x100088, [(2, 0x400000, 1)])
  | .HIF_LOSS => (0x10030, [(2, 0x8000, 1)])
  | .HIF_TAKEN => (0x10034, [(2, 0x8000, 1)])
  | .HAM_CTRL => (0x100100, [(2, 0x400000, 1)])
  | .HAM_STATUS => (0x100104, [(2, 0x400000, 1)])
  | .HAM_POOL => (0x100108, [(2, 0x400000, 1)])
  | .HAM_TOKENS => (0x10010C, [(2, 0x400000, 1)])
  | .HAM_ECC_CNT => (0x100110, [(2, 0x400000, 1)])
  | .HAM_ECC_ADDR => (0x100114, [(2, 0x400000, 1)])
  | .HAM_PM_SEL => (0x100118, [(2, 0x400000, 1)])
  | .HAM_PM_DATA => (0x10011C, [(2, 0x400000, 1)])
  | .HAM_PM_CHK => (0x100120, [(2, 0x400000, 1)])
  | .HAM_QUAR => (0x100124, [(2, 0x400000, 1)])
  | .HAM_CB_CNT => (0x100128, [(2, 0x400000, 1)])
  | .HAM_SYNC_IDX => (0x10012C, [(2, 0x400000, 1)])
  | .HAM_SYNC_STATE => (0x100130, [(2, 0x400000, 1)])
  | .HIF_CCT_BASE_LO => (0x10038, [(2, 0x8000, 1)])
  | .HIF_CCT_BASE_HI => (0x1003C, [(2, 0x8000, 1)])
  | .HIF_CCT_CNT => (0x10040, [(2, 0x8000, 1)])
  | .GE_CTRL => (0x100200, [(2, 0x400000, 1)])
  | .GE_STATUS => (0x100204, [(2, 0x400000, 1)])
  | .GE_PACK => (0x100208, [(2, 0x400000, 1)])
  | .GE_ENG_IDX => (0x10020C, [(2, 0x400000, 1)])
  | .GE_ENG_STATE => (0x100210, [(2, 0x400000, 1)])
  | .GE_ENG_CNT => (0x100214, [(2, 0x400000, 1)])
  | .GE_ENG_DIS_LO => (0x100218, [(2, 0x400000, 1)])
  | .GE_ENG_DIS_HI => (0x10021C, [(2, 0x400000, 1)])
  | .GE_CC_IDX => (0x100220, [(2, 0x400000, 1)])
  | .GE_CC_STATE => (0x100224, [(2, 0x400000, 1)])
  | .GE_CNT => (0x100228, [(2, 0x400000, 1)])
  | .AX_CTRL => (0x100300, [(2, 0x400000, 1)])
  | .AX_STATUS => (0x100304, [(2, 0x400000, 1)])
  | .AX_ECC_CNT => (0x100308, [(2, 0x400000, 1)])
  | .AX_ECC_ADDR => (0x10030C, [(2, 0x400000, 1)])
  | .AX_MAP_SEL => (0x100310, [(2, 0x400000, 1)])
  | .AX_MAP_LO => (0x100314, [(2, 0x400000, 1)])
  | .AX_MAP_HI => (0x100318, [(2, 0x400000, 1)])
  | .AX_MAP_CHK => (0x10031C, [(2, 0x400000, 1)])
  | .AX_SRC_SEL => (0x100320, [(2, 0x400000, 1)])
  | .AX_SRC_STATE => (0x100324, [(2, 0x400000, 1)])
  | .AX_CNT_MISS => (0x100328, [(2, 0x400000, 1)])
  | .AX_CNT_DISC => (0x10032C, [(2, 0x400000, 1)])
  | .HIF_FOLD_BASE_LO => (0x10044, [(2, 0x8000, 1)])
  | .HIF_FOLD_BASE_HI => (0x10048, [(2, 0x8000, 1)])
  | .HIF_EV_CTRL => (0x1004C, [(2, 0x8000, 1)])
  | .HIF_EV_WRITTEN => (0x10050, [(2, 0x8000, 1)])
  | .HIF_EV_FOLDED => (0x10054, [(2, 0x8000, 1)])
  | .HIF_EV_LOST => (0x10058, [(2, 0x8000, 1)])
  | .HIF_EV_CAUSES => (0x1005C, [(2, 0x8000, 1)])
  | .HIF_EV_ROUTE => (0x10080, [(2, 0x8000, 16), (16, 0x4, 1)])
  | .CLK_CTRL => (0x20000, [])
  | .CLK_STATUS => (0x20004, [])
  | .CLK_ERR => (0x20008, [])
  | .CLK_XB_CFG => (0x2000C, [])
  | .CLK_XB_STATUS => (0x20010, [])
  | .CLK_SAFE => (0x20014, [])
  | .CLK_LOCK_CFG => (0x20018, [])
  | .CLK_SYNC_CFG => (0x2001C, [])
  | .CLK_DIAG => (0x20020, [])
  | .CLK_OM_LOCK_LO => (0x20024, [])
  | .CLK_OM_LOCK_HI => (0x20028, [])
  | .CLK_SYN_N => (0x20040, [(6, 0x10, 1)])
  | .CLK_SYN_FRAC => (0x20044, [(6, 0x10, 1)])
  | .CLK_SYN_MOD => (0x20048, [(6, 0x10, 1)])
  | .CLK_SYN_DITHER => (0x2004C, [(6, 0x10, 1)])
  | .CLK_CKO_CFG => (0x200C0, [(8, 0x8, 1)])
  | .CLK_CKO_DIV => (0x200C4, [(8, 0x8, 1)])
  | .GLB_CLKEN0 => (0x40, [])
  | .GLB_CLKEN1 => (0x44, [])
  | .GLB_CLKPEND0 => (0x48, [])
  | .GLB_CLKPEND1 => (0x4C, [])
  | .CMX_CTRL => (0x60000, [])
  | .CMX_ERR => (0x60004, [])
  | .CMX_ERR_ADDR_LO => (0x60008, [])
  | .CMX_ERR_ADDR_HI => (0x6000C, [])
  | .CMX_ERR_INFO => (0x60010, [])
  | .CMX_MRST => (0x60014, [])
  | .CMX_RMB_STATUS => (0x60020, [(4, 0x4, 1)])
  | .LDR_CTRL => (0x50000, [])
  | .LDR_STATUS => (0x50004, [])
  | .LDR_ERR => (0x50008, [])
  | .LDR_TIE => (0x5000C, [])
  | .LDR_CNT => (0x50010, [])
  | .LDR_SCRUB => (0x50014, [])
  | .LDR_JRNL => (0x50018, [])
  | .KEY_CTRL => (0x40000, [])
  | .KEY_STATUS => (0x40004, [])
  | .KEY_FAULT => (0x40008, [])
  | .KEY_BMR_SEL => (0x4000C, [])
  | .KEY_BMR_DATA => (0x40010, [])
  | .KEY_SLOT_SEL => (0x40014, [])
  | .KEY_SLOT_STATE => (0x40018, [])
  | .KEY_CNT => (0x4001C, [])
  | .GLB_START => (0x80, [])
  | .GLB_READY => (0x84, [])
  | .GLB_SUPPLY => (0x88, [])
  | .GLB_THERM => (0x8C, [])
  | .GLB_THERM_CNT => (0x90, [])
  | .GLB_GPIO_DIR => (0xA0, [])
  | .GLB_GPIO_OUT => (0xA4, [])
  | .GLB_GPIO_IN => (0xA8, [])
  | .GLB_GPIO_PULL => (0xAC, [])
  | .GLB_ID => (0x0, [])
  | .GLB_REV => (0x4, [])

/-- The reset value of instance 0 of each register (the Reset columns; `hw` fields at the default
shown in brackets, the others at the value that assumption 4 names). -/
def RegName.resetBase : RegName → Word
  | .TB_CTRL => 0x2#32
  | .TB_STATUS => 0x1F80#32
  | .TB_ERR => 0x0#32
  | .TB_PM_CTRL => 0x28258#32
  | .TB_PM_FORCE => 0x0#32
  | .TB_QUAL => 0x1900064#32
  | .TB_DPLL_CFG => 0x64100A#32
  | .TB_DPLL_SEL => 0x77#32
  | .TB_REALIGN => 0xC8#32
  | .TB_PPS_CFG => 0x0#32
  | .TB_REFV_CFG => 0x5DC#32
  | .TB_TAI_UTC => 0x25#32
  | .TB_PRIO => 0x7#32
  | .TB_REF_CFG => 0x0#32
  | .TB_REF_NUM => 0x989680#32
  | .TB_CLASS => 0x0#32
  | .TB_SNAP_CTRL => 0x0#32
  | .TB_SNAP_SEC_LO => 0x0#32
  | .TB_SNAP_SEC_HI => 0x0#32
  | .TB_SNAP_NS => 0x0#32
  | .TB_SNAP_FRAC => 0x0#32
  | .LN_OCT_CTRL => 0x0#32
  | .LN_OCT_STATUS => 0x0#32
  | .LN_CTRL => 0x9#32
  | .LN_STATUS => 0x0#32
  | .LN_ERR => 0x0#32
  | .LN_COMMA => 0x0#32
  | .LN_RX_EQ => 0x28#32
  | .LN_TX_EQ => 0x21A#32
  | .LN_TX_CTRL => 0x15#32
  | .LN_CNT_CODE => 0x0#32
  | .LN_CAP_RX0 => 0x0#32
  | .LN_CAP_RX1 => 0x0#32
  | .LN_CAP_RX2 => 0x0#32
  | .LN_CAP_RX3 => 0x0#32
  | .LN_CNT_HDR => 0x0#32
  | .LN_CNT_PCL => 0x0#32
  | .LN_BRZ_CNT => 0x0#32
  | .LN_BRZ_STATUS => 0x0#32
  | .LX_CTRL => 0x2#32
  | .LX_STATUS => 0x0#32
  | .LX_ECC_CNT => 0x0#32
  | .LX_ECC_ADDR => 0x0#32
  | .LX_CNT_MISS => 0x0#32
  | .LX_MAP_SEL => 0x0#32
  | .LX_MAP_DATA => 0x0#32
  | .LX_MAP_CHK => 0x0#32
  | .LN_TWIN_CNT => 0x0#32
  | .LN_MON_MEAN => 0x0#32
  | .LN_MON_MIN => 0x0#32
  | .LN_MON_MAX => 0x0#32
  | .LN_MON_STATE => 0x0#32
  | .SEL_CTRL => 0x4C8#32
  | .SEL_STATUS => 0x0#32
  | .SEL_CNT_FAILOVER => 0x0#32
  | .SEL_CNT_FILL => 0x0#32
  | .SEL_OUT_IDX => 0x0#32
  | .SEL_OUT_STATE => 0x0#32
  | .HIF_PORT_CTRL => 0x0#32
  | .HIF_PORT_STATUS => 0x2#32
  | .HIF_ERR => 0x0#32
  | .HIF_POLL_SKIP => 0x0#32
  | .HIF_DB_BASE_LO => 0x0#32
  | .HIF_DB_BASE_HI => 0x0#32
  | .HIF_DB_CFG => 0x88#32
  | .HIF_WV_BASE_LO => 0x0#32
  | .HIF_WV_BASE_HI => 0x0#32
  | .HIF_WV_CFG => 0x28#32
  | .HIF_SVR_BASE_LO => 0x0#32
  | .HIF_CPR_BASE_LO => 0x0#32
  | .HIF_EVR_BASE_LO => 0x0#32
  | .HIF_ASR_BASE_LO => 0x0#32
  | .HIF_SVR_BASE_HI => 0x0#32
  | .HIF_CPR_BASE_HI => 0x0#32
  | .HIF_EVR_BASE_HI => 0x0#32
  | .HIF_ASR_BASE_HI => 0x0#32
  | .HIF_SVR_CFG => 0x0#32
  | .HIF_SVR_STATUS => 0x0#32
  | .HIF_CPR_CFG => 0x0#32
  | .HIF_EVR_CFG => 0x0#32
  | .HIF_ASR_CFG => 0x0#32
  | .HIF_CPR_STATUS => 0x10000#32
  | .HIF_EVR_STATUS => 0x10000#32
  | .HIF_ASR_STATUS => 0x10000#32
  | .PL_CTRL => 0xE#32
  | .PL_STATUS => 0x0#32
  | .PL_CNT => 0x0#32
  | .HIF_LOSS => 0x0#32
  | .HIF_TAKEN => 0x0#32
  | .HAM_CTRL => 0x1#32
  | .HAM_STATUS => 0x0#32
  | .HAM_POOL => 0x0#32
  | .HAM_TOKENS => 0x0#32
  | .HAM_ECC_CNT => 0x0#32
  | .HAM_ECC_ADDR => 0x0#32
  | .HAM_PM_SEL => 0x0#32
  | .HAM_PM_DATA => 0x0#32
  | .HAM_PM_CHK => 0x0#32
  | .HAM_QUAR => 0x0#32
  | .HAM_CB_CNT => 0x0#32
  | .HAM_SYNC_IDX => 0x0#32
  | .HAM_SYNC_STATE => 0x0#32
  | .HIF_CCT_BASE_LO => 0x0#32
  | .HIF_CCT_BASE_HI => 0x0#32
  | .HIF_CCT_CNT => 0x0#32
  | .GE_CTRL => 0x7#32
  | .GE_STATUS => 0x3060#32
  | .GE_PACK => 0x0#32
  | .GE_ENG_IDX => 0x0#32
  | .GE_ENG_STATE => 0x0#32
  | .GE_ENG_CNT => 0x0#32
  | .GE_ENG_DIS_LO => 0x0#32
  | .GE_ENG_DIS_HI => 0x0#32
  | .GE_CC_IDX => 0x0#32
  | .GE_CC_STATE => 0x0#32
  | .GE_CNT => 0x0#32
  | .AX_CTRL => 0x1#32
  | .AX_STATUS => 0x400#32
  | .AX_ECC_CNT => 0x0#32
  | .AX_ECC_ADDR => 0x0#32
  | .AX_MAP_SEL => 0x0#32
  | .AX_MAP_LO => 0x0#32
  | .AX_MAP_HI => 0x0#32
  | .AX_MAP_CHK => 0x0#32
  | .AX_SRC_SEL => 0x0#32
  | .AX_SRC_STATE => 0x0#32
  | .AX_CNT_MISS => 0x0#32
  | .AX_CNT_DISC => 0x0#32
  | .HIF_FOLD_BASE_LO => 0x0#32
  | .HIF_FOLD_BASE_HI => 0x0#32
  | .HIF_EV_CTRL => 0x3#32
  | .HIF_EV_WRITTEN => 0x0#32
  | .HIF_EV_FOLDED => 0x0#32
  | .HIF_EV_LOST => 0x0#32
  | .HIF_EV_CAUSES => 0x0#32
  | .HIF_EV_ROUTE => 0x0#32
  | .CLK_CTRL => 0x0#32
  | .CLK_STATUS => 0x200#32
  | .CLK_ERR => 0x0#32
  | .CLK_XB_CFG => 0x320#32
  | .CLK_XB_STATUS => 0x0#32
  | .CLK_SAFE => 0x0#32
  | .CLK_LOCK_CFG => 0x0#32
  | .CLK_SYNC_CFG => 0x0#32
  | .CLK_DIAG => 0x0#32
  | .CLK_OM_LOCK_LO => 0x0#32
  | .CLK_OM_LOCK_HI => 0x0#32
  | .CLK_SYN_N => 0x13#32
  | .CLK_SYN_FRAC => 0x1#32
  | .CLK_SYN_MOD => 0x5#32
  | .CLK_SYN_DITHER => 0xDEED0000#32
  | .CLK_CKO_CFG => 0x0#32
  | .CLK_CKO_DIV => 0x0#32
  | .GLB_CLKEN0 => 0xFFFFFFFF#32
  | .GLB_CLKEN1 => 0x3FFFF#32
  | .GLB_CLKPEND0 => 0x0#32
  | .GLB_CLKPEND1 => 0x0#32
  | .CMX_CTRL => 0x0#32
  | .CMX_ERR => 0x0#32
  | .CMX_ERR_ADDR_LO => 0x0#32
  | .CMX_ERR_ADDR_HI => 0x0#32
  | .CMX_ERR_INFO => 0x0#32
  | .CMX_MRST => 0x0#32
  | .CMX_RMB_STATUS => 0x10000#32
  | .LDR_CTRL => 0x8#32
  | .LDR_STATUS => 0x0#32
  | .LDR_ERR => 0x0#32
  | .LDR_TIE => 0x0#32
  | .LDR_CNT => 0x0#32
  | .LDR_SCRUB => 0x7#32
  | .LDR_JRNL => 0x0#32
  | .KEY_CTRL => 0x6#32
  | .KEY_STATUS => 0x0#32
  | .KEY_FAULT => 0x0#32
  | .KEY_BMR_SEL => 0x0#32
  | .KEY_BMR_DATA => 0x0#32
  | .KEY_SLOT_SEL => 0x0#32
  | .KEY_SLOT_STATE => 0x0#32
  | .KEY_CNT => 0x0#32
  | .GLB_START => 0x0#32
  | .GLB_READY => 0x0#32
  | .GLB_SUPPLY => 0xFF#32
  | .GLB_THERM => 0x0#32
  | .GLB_THERM_CNT => 0x0#32
  | .GLB_GPIO_DIR => 0x0#32
  | .GLB_GPIO_OUT => 0x0#32
  | .GLB_GPIO_IN => 0x0#32
  | .GLB_GPIO_PULL => 0x0#32
  | .GLB_ID => 0x4F4C1152#32
  | .GLB_REV => 0x1B0#32

/-- The rows of each register's table; bits of no row are reserved (R15). -/
def RegName.rows : RegName → List FieldRow
  | .TB_CTRL => [⟨0, 1, .w1s⟩, ⟨1, 1, .rw⟩, ⟨2, 2, .wo⟩]
  | .TB_STATUS => [⟨0, 3, .ro⟩, ⟨3, 3, .ro⟩, ⟨6, 1, .ro⟩, ⟨7, 3, .ro⟩, ⟨10, 3, .ro⟩, ⟨13, 1, .ro⟩, ⟨14, 1, .ro⟩, ⟨15, 1, .ro⟩, ⟨16, 1, .ro⟩, ⟨17, 5, .ro⟩, ⟨22, 5, .ro⟩]
  | .TB_ERR => [⟨0, 1, .w1c⟩, ⟨1, 1, .w1c⟩, ⟨2, 1, .w1c⟩, ⟨3, 1, .w1c⟩, ⟨4, 1, .w1c⟩]
  | .TB_PM_CTRL => [⟨0, 1, .rw⟩, ⟨1, 12, .rw⟩, ⟨13, 7, .rw⟩]
  | .TB_PM_FORCE => [⟨0, 3, .rw⟩, ⟨3, 1, .rw⟩]
  | .TB_QUAL => [⟨0, 13, .rw⟩, ⟨16, 13, .rw⟩]
  | .TB_DPLL_CFG => [⟨0, 7, .rwl⟩, ⟨8, 7, .rwl⟩, ⟨16, 10, .rwl⟩]
  | .TB_DPLL_SEL => [⟨0, 3, .rw⟩, ⟨4, 3, .rw⟩]
  | .TB_REALIGN => [⟨0, 1, .rw⟩, ⟨1, 10, .rw⟩]
  | .TB_PPS_CFG => [⟨0, 1, .rwl⟩, ⟨1, 1, .rwl⟩, ⟨2, 3, .rwl⟩]
  | .TB_REFV_CFG => [⟨0, 11, .rw⟩, ⟨11, 1, .rw⟩]
  | .TB_TAI_UTC => [⟨0, 8, .rw⟩, ⟨8, 1, .rw⟩, ⟨9, 1, .rw⟩]
  | .TB_PRIO => [⟨0, 3, .rw⟩, ⟨3, 1, .rw⟩]
  | .TB_REF_CFG => [⟨0, 1, .rwl⟩, ⟨1, 1, .rwl⟩, ⟨2, 1, .rwl⟩, ⟨3, 1, .rwl⟩]
  | .TB_REF_NUM => [⟨0, 28, .rwl⟩]
  | .TB_CLASS => [⟨0, 1, .rw⟩, ⟨1, 3, .rw⟩, ⟨4, 1, .rw⟩, ⟨5, 3, .rw⟩, ⟨8, 12, .rw⟩, ⟨20, 1, .rw⟩, ⟨21, 6, .rw⟩]
  | .TB_SNAP_CTRL => [⟨0, 1, .wo⟩, ⟨1, 1, .wo⟩]
  | .TB_SNAP_SEC_LO => [⟨0, 32, .ro⟩]
  | .TB_SNAP_SEC_HI => [⟨0, 16, .ro⟩]
  | .TB_SNAP_NS => [⟨0, 30, .ro⟩]
  | .TB_SNAP_FRAC => [⟨0, 16, .ro⟩]
  | .LN_OCT_CTRL => [⟨0, 1, .w1s⟩, ⟨1, 2, .rwl⟩, ⟨3, 4, .rwl⟩]
  | .LN_OCT_STATUS => [⟨0, 1, .ro⟩, ⟨1, 1, .w1c⟩, ⟨2, 1, .w1c⟩]
  | .LN_CTRL => [⟨0, 1, .rw⟩, ⟨1, 1, .rw⟩, ⟨2, 1, .wo⟩, ⟨3, 1, .rw⟩, ⟨4, 1, .wo⟩]
  | .LN_STATUS => [⟨0, 3, .ro⟩, ⟨3, 1, .ro⟩, ⟨4, 1, .ro⟩, ⟨5, 1, .ro⟩, ⟨6, 1, .ro⟩, ⟨7, 1, .ro⟩, ⟨8, 4, .ro⟩, ⟨12, 4, .ro⟩, ⟨16, 8, .ro⟩, ⟨24, 1, .ro⟩]
  | .LN_ERR => [⟨0, 1, .w1c⟩, ⟨1, 1, .w1c⟩, ⟨2, 1, .w1c⟩, ⟨3, 1, .w1c⟩, ⟨4, 1, .w1c⟩]
  | .LN_COMMA => [⟨0, 11, .ro⟩, ⟨11, 11, .ro⟩, ⟨22, 1, .ro⟩, ⟨23, 1, .ro⟩]
  | .LN_RX_EQ => [⟨0, 4, .rw⟩, ⟨4, 3, .rw⟩]
  | .LN_TX_EQ => [⟨0, 4, .rw⟩, ⟨4, 3, .rw⟩, ⟨7, 4, .rw⟩]
  | .LN_TX_CTRL => [⟨0, 1, .rw⟩, ⟨1, 8, .rw⟩]
  | .LN_CNT_CODE => [⟨0, 16, .ro⟩, ⟨16, 16, .ro⟩]
  | .LN_CAP_RX0 => [⟨0, 32, .ro⟩]
  | .LN_CAP_RX1 => [⟨0, 32, .ro⟩]
  | .LN_CAP_RX2 => [⟨0, 32, .ro⟩]
  | .LN_CAP_RX3 => [⟨0, 24, .ro⟩]
  | .LN_CNT_HDR => [⟨0, 16, .ro⟩, ⟨16, 16, .ro⟩]
  | .LN_CNT_PCL => [⟨0, 16, .ro⟩, ⟨16, 16, .ro⟩]
  | .LN_BRZ_CNT => [⟨0, 12, .ro⟩, ⟨12, 10, .ro⟩, ⟨22, 10, .ro⟩]
  | .LN_BRZ_STATUS => [⟨0, 8, .ro⟩, ⟨8, 8, .ro⟩, ⟨16, 8, .ro⟩, ⟨24, 4, .ro⟩, ⟨28, 1, .ro⟩]
  | .LX_CTRL => [⟨0, 1, .w1s⟩, ⟨1, 1, .rwl⟩]
  | .LX_STATUS => [⟨0, 1, .ro⟩]
  | .LX_ECC_CNT => [⟨0, 16, .ro⟩, ⟨16, 8, .ro⟩]
  | .LX_ECC_ADDR => [⟨0, 11, .ro⟩, ⟨11, 1, .ro⟩, ⟨12, 1, .ro⟩, ⟨13, 7, .ro⟩, ⟨20, 1, .w1c⟩]
  | .LX_CNT_MISS => [⟨0, 32, .ro⟩]
  | .LX_MAP_SEL => [⟨0, 11, .rw⟩, ⟨11, 1, .rw⟩]
  | .LX_MAP_DATA => [⟨0, 32, .ro⟩]
  | .LX_MAP_CHK => [⟨0, 7, .ro⟩]
  | .LN_TWIN_CNT => [⟨0, 16, .ro⟩, ⟨16, 16, .ro⟩]
  | .LN_MON_MEAN => [⟨0, 32, .ro⟩]
  | .LN_MON_MIN => [⟨0, 32, .ro⟩]
  | .LN_MON_MAX => [⟨0, 32, .ro⟩]
  | .LN_MON_STATE => [⟨0, 1, .ro⟩, ⟨1, 1, .ro⟩, ⟨2, 1, .ro⟩, ⟨3, 1, .ro⟩, ⟨8, 8, .ro⟩, ⟨16, 16, .ro⟩]
  | .SEL_CTRL => [⟨0, 1, .w1s⟩, ⟨1, 1, .rwl⟩, ⟨2, 8, .rwl⟩, ⟨10, 1, .rwl⟩]
  | .SEL_STATUS => [⟨0, 1, .ro⟩, ⟨1, 1, .ro⟩]
  | .SEL_CNT_FAILOVER => [⟨0, 32, .ro⟩]
  | .SEL_CNT_FILL => [⟨0, 32, .ro⟩]
  | .SEL_OUT_IDX => [⟨0, 11, .rw⟩]
  | .SEL_OUT_STATE => [⟨0, 1, .ro⟩, ⟨1, 2, .ro⟩, ⟨3, 1, .ro⟩, ⟨4, 1, .ro⟩, ⟨5, 1, .ro⟩, ⟨6, 1, .ro⟩, ⟨7, 1, .ro⟩, ⟨8, 1, .ro⟩, ⟨16, 16, .ro⟩]
  | .HIF_PORT_CTRL => [⟨0, 1, .w1s⟩, ⟨1, 1, .rw⟩]
  | .HIF_PORT_STATUS => [⟨0, 1, .ro⟩, ⟨1, 1, .ro⟩, ⟨2, 1, .ro⟩]
  | .HIF_ERR => [⟨0, 1, .w1c⟩, ⟨1, 1, .w1c⟩, ⟨2, 1, .w1c⟩, ⟨3, 1, .w1c⟩, ⟨4, 1, .w1c⟩, ⟨5, 1, .w1c⟩]
  | .HIF_POLL_SKIP => [⟨0, 32, .ro⟩]
  | .HIF_DB_BASE_LO => [⟨8, 24, .rwl⟩]
  | .HIF_DB_BASE_HI => [⟨0, 32, .rwl⟩]
  | .HIF_DB_CFG => [⟨0, 7, .rw⟩, ⟨7, 1, .rw⟩]
  | .HIF_WV_BASE_LO => [⟨12, 20, .rwl⟩]
  | .HIF_WV_BASE_HI => [⟨0, 32, .rwl⟩]
  | .HIF_WV_CFG => [⟨0, 1, .rw⟩, ⟨1, 1, .rwl⟩, ⟨2, 7, .rw⟩]
  | .HIF_SVR_BASE_LO => [⟨12, 20, .rw⟩]
  | .HIF_CPR_BASE_LO => [⟨12, 20, .rw⟩]
  | .HIF_EVR_BASE_LO => [⟨12, 20, .rw⟩]
  | .HIF_ASR_BASE_LO => [⟨12, 20, .rw⟩]
  | .HIF_SVR_BASE_HI => [⟨0, 32, .rw⟩]
  | .HIF_CPR_BASE_HI => [⟨0, 32, .rw⟩]
  | .HIF_EVR_BASE_HI => [⟨0, 32, .rw⟩]
  | .HIF_ASR_BASE_HI => [⟨0, 32, .rw⟩]
  | .HIF_SVR_CFG => [⟨0, 1, .rw⟩, ⟨1, 4, .rw⟩, ⟨5, 4, .rw⟩, ⟨9, 1, .rw⟩, ⟨10, 1, .rwl⟩]
  | .HIF_SVR_STATUS => [⟨0, 1, .ro⟩, ⟨1, 1, .ro⟩, ⟨2, 1, .ro⟩, ⟨16, 16, .ro⟩]
  | .HIF_CPR_CFG => [⟨0, 1, .rw⟩, ⟨1, 4, .rw⟩, ⟨5, 6, .rw⟩, ⟨11, 8, .rw⟩]
  | .HIF_EVR_CFG => [⟨0, 1, .rw⟩, ⟨1, 4, .rw⟩, ⟨5, 6, .rw⟩, ⟨11, 8, .rw⟩]
  | .HIF_ASR_CFG => [⟨0, 1, .rw⟩, ⟨1, 4, .rw⟩, ⟨5, 6, .rw⟩, ⟨11, 8, .rw⟩]
  | .HIF_CPR_STATUS => [⟨0, 16, .ro⟩, ⟨16, 1, .ro⟩, ⟨17, 1, .ro⟩]
  | .HIF_EVR_STATUS => [⟨0, 16, .ro⟩, ⟨16, 1, .ro⟩, ⟨17, 1, .ro⟩]
  | .HIF_ASR_STATUS => [⟨0, 16, .ro⟩, ⟨16, 1, .ro⟩, ⟨17, 1, .ro⟩]
  | .PL_CTRL => [⟨0, 1, .w1s⟩, ⟨1, 1, .rwl⟩, ⟨2, 2, .rwl⟩, ⟨4, 1, .wo⟩, ⟨5, 1, .wo⟩]
  | .PL_STATUS => [⟨0, 2, .ro⟩, ⟨2, 4, .ro⟩, ⟨6, 1, .ro⟩, ⟨7, 2, .ro⟩]
  | .PL_CNT => [⟨0, 16, .ro⟩, ⟨16, 16, .ro⟩]
  | .HIF_LOSS => [⟨0, 1, .ro⟩, ⟨8, 8, .ro⟩, ⟨16, 16, .ro⟩]
  | .HIF_TAKEN => [⟨0, 16, .ro⟩]
  | .HAM_CTRL => [⟨0, 1, .rwl⟩]
  | .HAM_STATUS => [⟨0, 1, .ro⟩, ⟨1, 6, .ro⟩]
  | .HAM_POOL => [⟨0, 32, .ro⟩]
  | .HAM_TOKENS => [⟨0, 16, .ro⟩, ⟨16, 16, .ro⟩]
  | .HAM_ECC_CNT => [⟨0, 16, .ro⟩, ⟨16, 8, .ro⟩]
  | .HAM_ECC_ADDR => [⟨0, 21, .ro⟩, ⟨21, 1, .ro⟩, ⟨22, 7, .ro⟩, ⟨29, 1, .w1c⟩]
  | .HAM_PM_SEL => [⟨0, 21, .rw⟩]
  | .HAM_PM_DATA => [⟨0, 32, .ro⟩]
  | .HAM_PM_CHK => [⟨0, 7, .ro⟩]
  | .HAM_QUAR => [⟨0, 32, .ro⟩]
  | .HAM_CB_CNT => [⟨0, 16, .ro⟩, ⟨16, 16, .ro⟩]
  | .HAM_SYNC_IDX => [⟨0, 11, .rw⟩]
  | .HAM_SYNC_STATE => [⟨0, 1, .ro⟩, ⟨1, 4, .ro⟩, ⟨5, 4, .ro⟩, ⟨9, 1, .ro⟩, ⟨16, 8, .ro⟩, ⟨24, 8, .ro⟩]
  | .HIF_CCT_BASE_LO => [⟨0, 1, .wo⟩, ⟨12, 20, .rwl⟩]
  | .HIF_CCT_BASE_HI => [⟨0, 32, .rwl⟩]
  | .HIF_CCT_CNT => [⟨0, 16, .ro⟩, ⟨16, 16, .ro⟩]
  | .GE_CTRL => [⟨0, 1, .rwl⟩, ⟨1, 2, .rwl⟩]
  | .GE_STATUS => [⟨0, 7, .ro⟩, ⟨7, 7, .ro⟩, ⟨14, 6, .ro⟩, ⟨20, 1, .ro⟩, ⟨21, 1, .ro⟩, ⟨22, 1, .ro⟩]
  | .GE_PACK => [⟨0, 16, .ro⟩, ⟨16, 7, .ro⟩]
  | .GE_ENG_IDX => [⟨0, 6, .rw⟩]
  | .GE_ENG_STATE => [⟨0, 2, .ro⟩, ⟨2, 1, .ro⟩, ⟨3, 12, .ro⟩, ⟨15, 12, .ro⟩]
  | .GE_ENG_CNT => [⟨0, 16, .ro⟩, ⟨16, 16, .ro⟩]
  | .GE_ENG_DIS_LO => [⟨0, 32, .rwl⟩]
  | .GE_ENG_DIS_HI => [⟨0, 16, .rwl⟩]
  | .GE_CC_IDX => [⟨0, 7, .rw⟩]
  | .GE_CC_STATE => [⟨0, 1, .ro⟩, ⟨1, 1, .ro⟩, ⟨2, 1, .ro⟩, ⟨3, 1, .ro⟩, ⟨16, 16, .ro⟩]
  | .GE_CNT => [⟨0, 16, .ro⟩, ⟨16, 16, .ro⟩]
  | .AX_CTRL => [⟨0, 1, .rwl⟩]
  | .AX_STATUS => [⟨0, 1, .ro⟩, ⟨1, 10, .ro⟩]
  | .AX_ECC_CNT => [⟨0, 16, .ro⟩, ⟨16, 8, .ro⟩]
  | .AX_ECC_ADDR => [⟨0, 15, .ro⟩, ⟨15, 1, .ro⟩, ⟨16, 8, .ro⟩, ⟨24, 1, .w1c⟩]
  | .AX_MAP_SEL => [⟨0, 15, .rw⟩]
  | .AX_MAP_LO => [⟨0, 32, .ro⟩]
  | .AX_MAP_HI => [⟨0, 32, .ro⟩]
  | .AX_MAP_CHK => [⟨0, 8, .ro⟩]
  | .AX_SRC_SEL => [⟨0, 15, .rw⟩]
  | .AX_SRC_STATE => [⟨0, 2, .ro⟩, ⟨2, 1, .ro⟩, ⟨3, 1, .ro⟩, ⟨4, 2, .ro⟩, ⟨16, 16, .ro⟩]
  | .AX_CNT_MISS => [⟨0, 32, .ro⟩]
  | .AX_CNT_DISC => [⟨0, 16, .ro⟩, ⟨16, 16, .ro⟩]
  | .HIF_FOLD_BASE_LO => [⟨12, 20, .rwl⟩]
  | .HIF_FOLD_BASE_HI => [⟨0, 32, .rwl⟩]
  | .HIF_EV_CTRL => [⟨0, 1, .rw⟩, ⟨1, 1, .rw⟩]
  | .HIF_EV_WRITTEN => [⟨0, 32, .ro⟩]
  | .HIF_EV_FOLDED => [⟨0, 32, .ro⟩]
  | .HIF_EV_LOST => [⟨0, 32, .ro⟩]
  | .HIF_EV_CAUSES => [⟨0, 16, .ro⟩, ⟨16, 8, .ro⟩, ⟨24, 8, .ro⟩]
  | .HIF_EV_ROUTE => [⟨0, 5, .rw⟩, ⟨5, 1, .rw⟩]
  | .CLK_CTRL => [⟨0, 1, .w1s⟩, ⟨1, 1, .wo⟩]
  | .CLK_STATUS => [⟨0, 1, .ro⟩, ⟨1, 1, .ro⟩, ⟨2, 1, .ro⟩, ⟨3, 1, .ro⟩, ⟨4, 2, .ro⟩, ⟨6, 2, .ro⟩, ⟨8, 1, .ro⟩, ⟨9, 1, .ro⟩, ⟨10, 6, .ro⟩, ⟨16, 6, .ro⟩, ⟨22, 6, .ro⟩, ⟨28, 1, .ro⟩, ⟨29, 1, .ro⟩]
  | .CLK_ERR => [⟨0, 1, .w1c⟩, ⟨1, 1, .w1c⟩, ⟨2, 1, .w1c⟩, ⟨3, 1, .w1c⟩, ⟨4, 1, .w1c⟩, ⟨5, 1, .w1c⟩, ⟨6, 1, .w1c⟩]
  | .CLK_XB_CFG => [⟨0, 2, .rwl⟩, ⟨2, 1, .rwl⟩, ⟨3, 8, .rwl⟩]
  | .CLK_XB_STATUS => [⟨0, 3, .ro⟩, ⟨3, 2, .ro⟩, ⟨5, 3, .ro⟩, ⟨8, 24, .ro⟩]
  | .CLK_SAFE => [⟨0, 4, .ro⟩, ⟨8, 8, .ro⟩]
  | .CLK_LOCK_CFG => [⟨0, 1, .rwl⟩, ⟨1, 1, .rwl⟩]
  | .CLK_SYNC_CFG => [⟨0, 1, .rw⟩, ⟨1, 1, .rwl⟩, ⟨2, 1, .rwl⟩, ⟨3, 8, .rw⟩]
  | .CLK_DIAG => [⟨0, 1, .rw⟩, ⟨1, 4, .rw⟩, ⟨5, 9, .rw⟩, ⟨14, 4, .rw⟩]
  | .CLK_OM_LOCK_LO => [⟨0, 32, .ro⟩]
  | .CLK_OM_LOCK_HI => [⟨0, 16, .ro⟩]
  | .CLK_SYN_N => [⟨0, 5, .rwl⟩, ⟨5, 1, .rwl⟩]
  | .CLK_SYN_FRAC => [⟨0, 24, .rwl⟩]
  | .CLK_SYN_MOD => [⟨0, 24, .rwl⟩]
  | .CLK_SYN_DITHER => [⟨0, 31, .rwl⟩, ⟨31, 1, .rwl⟩]
  | .CLK_CKO_CFG => [⟨0, 2, .rwl⟩, ⟨2, 4, .rwl⟩, ⟨6, 1, .rwl⟩, ⟨7, 4, .rwl⟩, ⟨11, 1, .rwl⟩]
  | .CLK_CKO_DIV => [⟨0, 25, .rwl⟩]
  | .GLB_CLKEN0 => [⟨0, 32, .rw⟩]
  | .GLB_CLKEN1 => [⟨0, 16, .rw⟩, ⟨16, 1, .rw⟩, ⟨17, 1, .rw⟩]
  | .GLB_CLKPEND0 => [⟨0, 32, .ro⟩]
  | .GLB_CLKPEND1 => [⟨0, 16, .ro⟩, ⟨16, 1, .ro⟩, ⟨17, 1, .ro⟩, ⟨18, 1, .w1c⟩]
  | .CMX_CTRL => [⟨0, 1, .w1s⟩, ⟨1, 1, .w1s⟩]
  | .CMX_ERR => [⟨0, 16, .ro⟩, ⟨16, 8, .ro⟩, ⟨24, 8, .ro⟩]
  | .CMX_ERR_ADDR_LO => [⟨0, 32, .ro⟩]
  | .CMX_ERR_ADDR_HI => [⟨0, 32, .ro⟩]
  | .CMX_ERR_INFO => [⟨0, 4, .ro⟩, ⟨4, 4, .ro⟩, ⟨8, 1, .ro⟩, ⟨9, 2, .ro⟩, ⟨31, 1, .w1c⟩]
  | .CMX_MRST => [⟨0, 11, .ro⟩]
  | .CMX_RMB_STATUS => [⟨0, 2, .ro⟩, ⟨2, 1, .ro⟩, ⟨8, 8, .ro⟩, ⟨16, 16, .ro⟩]
  | .LDR_CTRL => [⟨0, 1, .w1s⟩, ⟨1, 1, .rwl⟩, ⟨2, 1, .rwl⟩, ⟨3, 1, .rwl⟩]
  | .LDR_STATUS => [⟨0, 1, .ro⟩, ⟨1, 14, .ro⟩, ⟨15, 2, .ro⟩]
  | .LDR_ERR => [⟨0, 1, .w1c⟩, ⟨1, 1, .w1c⟩, ⟨2, 1, .w1c⟩]
  | .LDR_TIE => [⟨0, 1, .w1c⟩, ⟨1, 1, .w1c⟩, ⟨2, 1, .w1c⟩]
  | .LDR_CNT => [⟨0, 16, .ro⟩, ⟨16, 16, .ro⟩]
  | .LDR_SCRUB => [⟨0, 5, .rwl⟩, ⟨5, 14, .ro⟩]
  | .LDR_JRNL => [⟨0, 16, .ro⟩, ⟨16, 16, .ro⟩]
  | .KEY_CTRL => [⟨0, 1, .w1s⟩, ⟨1, 1, .rwl⟩, ⟨2, 1, .rwl⟩]
  | .KEY_STATUS => [⟨0, 1, .ro⟩, ⟨1, 1, .ro⟩, ⟨2, 1, .ro⟩, ⟨3, 8, .ro⟩, ⟨11, 4, .ro⟩]
  | .KEY_FAULT => [⟨0, 1, .w1c⟩, ⟨1, 1, .w1c⟩, ⟨2, 1, .w1c⟩]
  | .KEY_BMR_SEL => [⟨0, 3, .rw⟩, ⟨3, 4, .rw⟩]
  | .KEY_BMR_DATA => [⟨0, 32, .ro⟩]
  | .KEY_SLOT_SEL => [⟨0, 7, .rw⟩]
  | .KEY_SLOT_STATE => [⟨0, 2, .ro⟩, ⟨2, 1, .ro⟩, ⟨3, 2, .ro⟩, ⟨5, 2, .ro⟩, ⟨7, 1, .ro⟩, ⟨8, 8, .ro⟩]
  | .KEY_CNT => [⟨0, 16, .ro⟩, ⟨16, 16, .ro⟩]
  | .GLB_START => [⟨0, 3, .ro⟩, ⟨3, 3, .ro⟩, ⟨6, 1, .ro⟩, ⟨7, 1, .ro⟩, ⟨8, 1, .ro⟩, ⟨9, 1, .ro⟩, ⟨10, 1, .ro⟩]
  | .GLB_READY => [⟨0, 16, .ro⟩, ⟨16, 11, .ro⟩]
  | .GLB_SUPPLY => [⟨0, 8, .ro⟩, ⟨8, 8, .w1c⟩, ⟨16, 8, .ro⟩]
  | .GLB_THERM => [⟨0, 8, .ro⟩, ⟨8, 8, .ro⟩, ⟨16, 2, .ro⟩]
  | .GLB_THERM_CNT => [⟨0, 16, .ro⟩, ⟨16, 16, .ro⟩]
  | .GLB_GPIO_DIR => [⟨0, 16, .rw⟩, ⟨16, 16, .rw⟩]
  | .GLB_GPIO_OUT => [⟨0, 16, .rw⟩]
  | .GLB_GPIO_IN => [⟨0, 16, .ro⟩]
  | .GLB_GPIO_PULL => [⟨0, 32, .rw⟩]
  | .GLB_ID => [⟨0, 32, .ro⟩]
  | .GLB_REV => [⟨0, 8, .ro⟩, ⟨8, 8, .ro⟩]

/-- The registers with a field whose Reset column reads `hw` with a default: those that the Board
Table's register defaults and the journal's REG entries may set (R485, R525, R526). -/
def RegName.hwReset : RegName → Bool
  | .TB_PM_CTRL | .TB_QUAL | .TB_DPLL_CFG | .TB_REALIGN | .TB_PPS_CFG
  | .TB_REFV_CFG | .TB_TAI_UTC | .TB_PRIO | .TB_REF_CFG | .TB_REF_NUM
  | .TB_CLASS | .LN_OCT_CTRL | .LN_CTRL | .LN_RX_EQ | .LN_TX_EQ
  | .CLK_XB_CFG | .CLK_LOCK_CFG | .CLK_SYNC_CFG | .CLK_SYN_N | .CLK_SYN_FRAC
  | .CLK_SYN_MOD | .CLK_SYN_DITHER | .CLK_CKO_CFG | .CLK_CKO_DIV | .LDR_SCRUB
  | .KEY_CTRL => true
  | _ => false

/-- Register names, part 1 of 5. -/
def RegName.all1 : List RegName :=
  [.TB_CTRL, .TB_STATUS, .TB_ERR, .TB_PM_CTRL, .TB_PM_FORCE, .TB_QUAL, .TB_DPLL_CFG, .TB_DPLL_SEL, .TB_REALIGN,
   .TB_PPS_CFG, .TB_REFV_CFG, .TB_TAI_UTC, .TB_PRIO, .TB_REF_CFG, .TB_REF_NUM, .TB_CLASS, .TB_SNAP_CTRL,
   .TB_SNAP_SEC_LO, .TB_SNAP_SEC_HI, .TB_SNAP_NS, .TB_SNAP_FRAC, .LN_OCT_CTRL, .LN_OCT_STATUS, .LN_CTRL, .LN_STATUS,
   .LN_ERR, .LN_COMMA, .LN_RX_EQ, .LN_TX_EQ, .LN_TX_CTRL, .LN_CNT_CODE, .LN_CAP_RX0, .LN_CAP_RX1, .LN_CAP_RX2,
   .LN_CAP_RX3, .LN_CNT_HDR, .LN_CNT_PCL, .LN_BRZ_CNT, .LN_BRZ_STATUS, .LX_CTRL]

/-- Register names, part 2 of 5. -/
def RegName.all2 : List RegName :=
  [.LX_STATUS, .LX_ECC_CNT, .LX_ECC_ADDR, .LX_CNT_MISS, .LX_MAP_SEL, .LX_MAP_DATA, .LX_MAP_CHK, .LN_TWIN_CNT,
   .LN_MON_MEAN, .LN_MON_MIN, .LN_MON_MAX, .LN_MON_STATE, .SEL_CTRL, .SEL_STATUS, .SEL_CNT_FAILOVER, .SEL_CNT_FILL,
   .SEL_OUT_IDX, .SEL_OUT_STATE, .HIF_PORT_CTRL, .HIF_PORT_STATUS, .HIF_ERR, .HIF_POLL_SKIP, .HIF_DB_BASE_LO,
   .HIF_DB_BASE_HI, .HIF_DB_CFG, .HIF_WV_BASE_LO, .HIF_WV_BASE_HI, .HIF_WV_CFG, .HIF_SVR_BASE_LO, .HIF_CPR_BASE_LO,
   .HIF_EVR_BASE_LO, .HIF_ASR_BASE_LO, .HIF_SVR_BASE_HI, .HIF_CPR_BASE_HI, .HIF_EVR_BASE_HI, .HIF_ASR_BASE_HI,
   .HIF_SVR_CFG, .HIF_SVR_STATUS, .HIF_CPR_CFG, .HIF_EVR_CFG]

/-- Register names, part 3 of 5. -/
def RegName.all3 : List RegName :=
  [.HIF_ASR_CFG, .HIF_CPR_STATUS, .HIF_EVR_STATUS, .HIF_ASR_STATUS, .PL_CTRL, .PL_STATUS, .PL_CNT, .HIF_LOSS,
   .HIF_TAKEN, .HAM_CTRL, .HAM_STATUS, .HAM_POOL, .HAM_TOKENS, .HAM_ECC_CNT, .HAM_ECC_ADDR, .HAM_PM_SEL, .HAM_PM_DATA,
   .HAM_PM_CHK, .HAM_QUAR, .HAM_CB_CNT, .HAM_SYNC_IDX, .HAM_SYNC_STATE, .HIF_CCT_BASE_LO, .HIF_CCT_BASE_HI,
   .HIF_CCT_CNT, .GE_CTRL, .GE_STATUS, .GE_PACK, .GE_ENG_IDX, .GE_ENG_STATE, .GE_ENG_CNT, .GE_ENG_DIS_LO,
   .GE_ENG_DIS_HI, .GE_CC_IDX, .GE_CC_STATE, .GE_CNT, .AX_CTRL, .AX_STATUS, .AX_ECC_CNT, .AX_ECC_ADDR]

/-- Register names, part 4 of 5. -/
def RegName.all4 : List RegName :=
  [.AX_MAP_SEL, .AX_MAP_LO, .AX_MAP_HI, .AX_MAP_CHK, .AX_SRC_SEL, .AX_SRC_STATE, .AX_CNT_MISS, .AX_CNT_DISC,
   .HIF_FOLD_BASE_LO, .HIF_FOLD_BASE_HI, .HIF_EV_CTRL, .HIF_EV_WRITTEN, .HIF_EV_FOLDED, .HIF_EV_LOST, .HIF_EV_CAUSES,
   .HIF_EV_ROUTE, .CLK_CTRL, .CLK_STATUS, .CLK_ERR, .CLK_XB_CFG, .CLK_XB_STATUS, .CLK_SAFE, .CLK_LOCK_CFG,
   .CLK_SYNC_CFG, .CLK_DIAG, .CLK_OM_LOCK_LO, .CLK_OM_LOCK_HI, .CLK_SYN_N, .CLK_SYN_FRAC, .CLK_SYN_MOD, .CLK_SYN_DITHER,
   .CLK_CKO_CFG, .CLK_CKO_DIV, .GLB_CLKEN0, .GLB_CLKEN1, .GLB_CLKPEND0, .GLB_CLKPEND1, .CMX_CTRL, .CMX_ERR,
   .CMX_ERR_ADDR_LO]

/-- Register names, part 5 of 5. -/
def RegName.all5 : List RegName :=
  [.CMX_ERR_ADDR_HI, .CMX_ERR_INFO, .CMX_MRST, .CMX_RMB_STATUS, .LDR_CTRL, .LDR_STATUS, .LDR_ERR, .LDR_TIE, .LDR_CNT,
   .LDR_SCRUB, .LDR_JRNL, .KEY_CTRL, .KEY_STATUS, .KEY_FAULT, .KEY_BMR_SEL, .KEY_BMR_DATA, .KEY_SLOT_SEL,
   .KEY_SLOT_STATE, .KEY_CNT, .GLB_START, .GLB_READY, .GLB_SUPPLY, .GLB_THERM, .GLB_THERM_CNT, .GLB_GPIO_DIR,
   .GLB_GPIO_OUT, .GLB_GPIO_IN, .GLB_GPIO_PULL, .GLB_ID, .GLB_REV]

/-- All register names, in the order of the chapters. -/
def RegName.all : List RegName :=
  RegName.all1 ++ RegName.all2 ++ RegName.all3 ++ RegName.all4 ++ RegName.all5

/-! ### The fields -/

namespace F

def TB_CTRL_lock : Field := ⟨.TB_CTRL, 0, 1⟩
def TB_CTRL_pm_en : Field := ⟨.TB_CTRL, 1, 1⟩
def TB_CTRL_lead_req : Field := ⟨.TB_CTRL, 2, 2⟩
def TB_STATUS_state_a : Field := ⟨.TB_STATUS, 0, 3⟩
def TB_STATUS_state_b : Field := ⟨.TB_STATUS, 3, 3⟩
def TB_STATUS_lead : Field := ⟨.TB_STATUS, 6, 1⟩
def TB_STATUS_sel : Field := ⟨.TB_STATUS, 7, 3⟩
def TB_STATUS_fallback : Field := ⟨.TB_STATUS, 10, 3⟩
def TB_STATUS_time_valid : Field := ⟨.TB_STATUS, 13, 1⟩
def TB_STATUS_grace_open : Field := ⟨.TB_STATUS, 14, 1⟩
def TB_STATUS_force_wait : Field := ⟨.TB_STATUS, 15, 1⟩
def TB_STATUS_realigning : Field := ⟨.TB_STATUS, 16, 1⟩
def TB_STATUS_qualified : Field := ⟨.TB_STATUS, 17, 5⟩
def TB_STATUS_lost : Field := ⟨.TB_STATUS, 22, 5⟩
def TB_ERR_class_invalid : Field := ⟨.TB_ERR, 0, 1⟩
def TB_ERR_class_in_use : Field := ⟨.TB_ERR, 1, 1⟩
def TB_ERR_refv_late : Field := ⟨.TB_ERR, 2, 1⟩
def TB_ERR_time_set_slewed : Field := ⟨.TB_ERR, 3, 1⟩
def TB_ERR_refv_off : Field := ⟨.TB_ERR, 4, 1⟩
def TB_PM_CTRL_revertive : Field := ⟨.TB_PM_CTRL, 0, 1⟩
def TB_PM_CTRL_wtr : Field := ⟨.TB_PM_CTRL, 1, 12⟩
def TB_PM_CTRL_holdoff : Field := ⟨.TB_PM_CTRL, 13, 7⟩
def TB_PM_FORCE_input : Field := ⟨.TB_PM_FORCE, 0, 3⟩
def TB_PM_FORCE_force : Field := ⟨.TB_PM_FORCE, 3, 1⟩
def TB_QUAL_soft : Field := ⟨.TB_QUAL, 0, 13⟩
def TB_QUAL_hard : Field := ⟨.TB_QUAL, 16, 13⟩
def TB_DPLL_CFG_bw : Field := ⟨.TB_DPLL_CFG, 0, 7⟩
def TB_DPLL_CFG_hold_avg : Field := ⟨.TB_DPLL_CFG, 8, 7⟩
def TB_DPLL_CFG_step_thr : Field := ⟨.TB_DPLL_CFG, 16, 10⟩
def TB_DPLL_SEL_manual : Field := ⟨.TB_DPLL_SEL, 0, 3⟩
def TB_DPLL_SEL_fallback : Field := ⟨.TB_DPLL_SEL, 4, 3⟩
def TB_REALIGN_enable : Field := ⟨.TB_REALIGN, 0, 1⟩
def TB_REALIGN_rate : Field := ⟨.TB_REALIGN, 1, 10⟩
def TB_PPS_CFG_enable : Field := ⟨.TB_PPS_CFG, 0, 1⟩
def TB_PPS_CFG_polarity : Field := ⟨.TB_PPS_CFG, 1, 1⟩
def TB_PPS_CFG_pair : Field := ⟨.TB_PPS_CFG, 2, 3⟩
def TB_REFV_CFG_late_ms : Field := ⟨.TB_REFV_CFG, 0, 11⟩
def TB_REFV_CFG_enable : Field := ⟨.TB_REFV_CFG, 11, 1⟩
def TB_TAI_UTC_utc_offset : Field := ⟨.TB_TAI_UTC, 0, 8⟩
def TB_TAI_UTC_leap_pending : Field := ⟨.TB_TAI_UTC, 8, 1⟩
def TB_TAI_UTC_leap_sign : Field := ⟨.TB_TAI_UTC, 9, 1⟩
def TB_PRIO_prio : Field := ⟨.TB_PRIO, 0, 3⟩
def TB_PRIO_enable : Field := ⟨.TB_PRIO, 3, 1⟩
def TB_REF_CFG_mode : Field := ⟨.TB_REF_CFG, 0, 1⟩
def TB_REF_CFG_polarity : Field := ⟨.TB_REF_CFG, 1, 1⟩
def TB_REF_CFG_iostd : Field := ⟨.TB_REF_CFG, 2, 1⟩
def TB_REF_CFG_den_1001 : Field := ⟨.TB_REF_CFG, 3, 1⟩
def TB_REF_NUM_num : Field := ⟨.TB_REF_NUM, 0, 28⟩
def TB_CLASS_enable : Field := ⟨.TB_CLASS, 0, 1⟩
def TB_CLASS_rate : Field := ⟨.TB_CLASS, 1, 3⟩
def TB_CLASS_scan : Field := ⟨.TB_CLASS, 4, 1⟩
def TB_CLASS_lines : Field := ⟨.TB_CLASS, 5, 3⟩
def TB_CLASS_switch_line : Field := ⟨.TB_CLASS, 8, 12⟩
def TB_CLASS_switch_field : Field := ⟨.TB_CLASS, 20, 1⟩
def TB_CLASS_latch_lead : Field := ⟨.TB_CLASS, 21, 6⟩
def TB_SNAP_CTRL_snap_a : Field := ⟨.TB_SNAP_CTRL, 0, 1⟩
def TB_SNAP_CTRL_snap_b : Field := ⟨.TB_SNAP_CTRL, 1, 1⟩
def TB_SNAP_SEC_LO_sec_lo : Field := ⟨.TB_SNAP_SEC_LO, 0, 32⟩
def TB_SNAP_SEC_HI_sec_hi : Field := ⟨.TB_SNAP_SEC_HI, 0, 16⟩
def TB_SNAP_NS_ns : Field := ⟨.TB_SNAP_NS, 0, 30⟩
def TB_SNAP_FRAC_frac : Field := ⟨.TB_SNAP_FRAC, 0, 16⟩
def LN_OCT_CTRL_lock : Field := ⟨.LN_OCT_CTRL, 0, 1⟩
def LN_OCT_CTRL_rate : Field := ⟨.LN_OCT_CTRL, 1, 2⟩
def LN_OCT_CTRL_twin : Field := ⟨.LN_OCT_CTRL, 3, 4⟩
def LN_OCT_STATUS_om_lock : Field := ⟨.LN_OCT_STATUS, 0, 1⟩
def LN_OCT_STATUS_rate_ignored : Field := ⟨.LN_OCT_STATUS, 1, 1⟩
def LN_OCT_STATUS_twin_ignored : Field := ⟨.LN_OCT_STATUS, 2, 1⟩
def LN_CTRL_enable : Field := ⟨.LN_CTRL, 0, 1⟩
def LN_CTRL_host_align : Field := ⟨.LN_CTRL, 1, 1⟩
def LN_CTRL_bit_slip : Field := ⟨.LN_CTRL, 2, 1⟩
def LN_CTRL_los_teardown : Field := ⟨.LN_CTRL, 3, 1⟩
def LN_CTRL_retrain : Field := ⟨.LN_CTRL, 4, 1⟩
def LN_STATUS_state : Field := ⟨.LN_STATUS, 0, 3⟩
def LN_STATUS_rx_bitlock : Field := ⟨.LN_STATUS, 3, 1⟩
def LN_STATUS_rx_aligned : Field := ⟨.LN_STATUS, 4, 1⟩
def LN_STATUS_rx_idle : Field := ⟨.LN_STATUS, 5, 1⟩
def LN_STATUS_tx_idle : Field := ⟨.LN_STATUS, 6, 1⟩
def LN_STATUS_rx_recover : Field := ⟨.LN_STATUS, 7, 1⟩
def LN_STATUS_slips : Field := ⟨.LN_STATUS, 8, 4⟩
def LN_STATUS_fail_cause : Field := ⟨.LN_STATUS, 12, 4⟩
def LN_STATUS_fail_count : Field := ⟨.LN_STATUS, 16, 8⟩
def LN_STATUS_partner_w1 : Field := ⟨.LN_STATUS, 24, 1⟩
def LN_ERR_bringup_fail : Field := ⟨.LN_ERR, 0, 1⟩
def LN_ERR_rx_lost : Field := ⟨.LN_ERR, 1, 1⟩
def LN_ERR_zephyr_fail : Field := ⟨.LN_ERR, 2, 1⟩
def LN_ERR_cap_active : Field := ⟨.LN_ERR, 3, 1⟩
def LN_ERR_peer_recover : Field := ⟨.LN_ERR, 4, 1⟩
def LN_COMMA_at_boundary : Field := ⟨.LN_COMMA, 0, 11⟩
def LN_COMMA_anywhere : Field := ⟨.LN_COMMA, 11, 11⟩
def LN_COMMA_window_valid : Field := ⟨.LN_COMMA, 22, 1⟩
def LN_COMMA_clean : Field := ⟨.LN_COMMA, 23, 1⟩
def LN_RX_EQ_ctle : Field := ⟨.LN_RX_EQ, 0, 4⟩
def LN_RX_EQ_gain : Field := ⟨.LN_RX_EQ, 4, 3⟩
def LN_TX_EQ_amp : Field := ⟨.LN_TX_EQ, 0, 4⟩
def LN_TX_EQ_pre : Field := ⟨.LN_TX_EQ, 4, 3⟩
def LN_TX_EQ_post : Field := ⟨.LN_TX_EQ, 7, 4⟩
def LN_TX_CTRL_auto_idle : Field := ⟨.LN_TX_CTRL, 0, 1⟩
def LN_TX_CTRL_idle_hold : Field := ⟨.LN_TX_CTRL, 1, 8⟩
def LN_CNT_CODE_code_err : Field := ⟨.LN_CNT_CODE, 0, 16⟩
def LN_CNT_CODE_disp_err : Field := ⟨.LN_CNT_CODE, 16, 16⟩
def LN_CAP_RX0_cap : Field := ⟨.LN_CAP_RX0, 0, 32⟩
def LN_CAP_RX1_cap : Field := ⟨.LN_CAP_RX1, 0, 32⟩
def LN_CAP_RX2_cap : Field := ⟨.LN_CAP_RX2, 0, 32⟩
def LN_CAP_RX3_cap : Field := ⟨.LN_CAP_RX3, 0, 24⟩
def LN_CNT_HDR_crc_err : Field := ⟨.LN_CNT_HDR, 0, 16⟩
def LN_CNT_HDR_hdr_invalid : Field := ⟨.LN_CNT_HDR, 16, 16⟩
def LN_CNT_PCL_len_err : Field := ⟨.LN_CNT_PCL, 0, 16⟩
def LN_CNT_PCL_seq_err : Field := ⟨.LN_CNT_PCL, 16, 16⟩
def LN_BRZ_CNT_msg_err : Field := ⟨.LN_BRZ_CNT, 0, 12⟩
def LN_BRZ_CNT_unknown : Field := ⟨.LN_BRZ_CNT, 12, 10⟩
def LN_BRZ_CNT_credit_viol : Field := ⟨.LN_BRZ_CNT, 22, 10⟩
def LN_BRZ_STATUS_tx_seq : Field := ⟨.LN_BRZ_STATUS, 0, 8⟩
def LN_BRZ_STATUS_tx_release : Field := ⟨.LN_BRZ_STATUS, 8, 8⟩
def LN_BRZ_STATUS_rx_expected : Field := ⟨.LN_BRZ_STATUS, 16, 8⟩
def LN_BRZ_STATUS_tx_credits : Field := ⟨.LN_BRZ_STATUS, 24, 4⟩
def LN_BRZ_STATUS_active : Field := ⟨.LN_BRZ_STATUS, 28, 1⟩
def LX_CTRL_lock : Field := ⟨.LX_CTRL, 0, 1⟩
def LX_CTRL_scrub_en : Field := ⟨.LX_CTRL, 1, 1⟩
def LX_STATUS_map_fault : Field := ⟨.LX_STATUS, 0, 1⟩
def LX_ECC_CNT_corrected : Field := ⟨.LX_ECC_CNT, 0, 16⟩
def LX_ECC_CNT_uncorrected : Field := ⟨.LX_ECC_CNT, 16, 8⟩
def LX_ECC_ADDR_slot : Field := ⟨.LX_ECC_ADDR, 0, 11⟩
def LX_ECC_ADDR_pending : Field := ⟨.LX_ECC_ADDR, 11, 1⟩
def LX_ECC_ADDR_uncorr : Field := ⟨.LX_ECC_ADDR, 12, 1⟩
def LX_ECC_ADDR_syndrome : Field := ⟨.LX_ECC_ADDR, 13, 7⟩
def LX_ECC_ADDR_valid : Field := ⟨.LX_ECC_ADDR, 20, 1⟩
def LX_CNT_MISS_missed : Field := ⟨.LX_CNT_MISS, 0, 32⟩
def LX_MAP_SEL_slot : Field := ⟨.LX_MAP_SEL, 0, 11⟩
def LX_MAP_SEL_pending : Field := ⟨.LX_MAP_SEL, 11, 1⟩
def LX_MAP_DATA_entry : Field := ⟨.LX_MAP_DATA, 0, 32⟩
def LX_MAP_CHK_check : Field := ⟨.LX_MAP_CHK, 0, 7⟩
def LN_TWIN_CNT_taken : Field := ⟨.LN_TWIN_CNT, 0, 16⟩
def LN_TWIN_CNT_dup : Field := ⟨.LN_TWIN_CNT, 16, 16⟩
def LN_MON_MEAN_mean : Field := ⟨.LN_MON_MEAN, 0, 32⟩
def LN_MON_MIN_min : Field := ⟨.LN_MON_MIN, 0, 32⟩
def LN_MON_MAX_max : Field := ⟨.LN_MON_MAX, 0, 32⟩
def LN_MON_STATE_present : Field := ⟨.LN_MON_STATE, 0, 1⟩
def LN_MON_STATE_timed : Field := ⟨.LN_MON_STATE, 1, 1⟩
def LN_MON_STATE_class_match : Field := ⟨.LN_MON_STATE, 2, 1⟩
def LN_MON_STATE_rtp_valid : Field := ⟨.LN_MON_STATE, 3, 1⟩
def LN_MON_STATE_seq : Field := ⟨.LN_MON_STATE, 8, 8⟩
def LN_MON_STATE_rtp_delta : Field := ⟨.LN_MON_STATE, 16, 16⟩
def SEL_CTRL_lock : Field := ⟨.SEL_CTRL, 0, 1⟩
def SEL_CTRL_revertive : Field := ⟨.SEL_CTRL, 1, 1⟩
def SEL_CTRL_wtr : Field := ⟨.SEL_CTRL, 2, 8⟩
def SEL_CTRL_force_on_fault : Field := ⟨.SEL_CTRL, 10, 1⟩
def SEL_STATUS_plane_a_ok : Field := ⟨.SEL_STATUS, 0, 1⟩
def SEL_STATUS_plane_b_ok : Field := ⟨.SEL_STATUS, 1, 1⟩
def SEL_CNT_FAILOVER_failovers : Field := ⟨.SEL_CNT_FAILOVER, 0, 32⟩
def SEL_CNT_FILL_fill : Field := ⟨.SEL_CNT_FILL, 0, 32⟩
def SEL_OUT_IDX_slot : Field := ⟨.SEL_OUT_IDX, 0, 11⟩
def SEL_OUT_STATE_serving : Field := ⟨.SEL_OUT_STATE, 0, 1⟩
def SEL_OUT_STATE_mode : Field := ⟨.SEL_OUT_STATE, 1, 2⟩
def SEL_OUT_STATE_preferred : Field := ⟨.SEL_OUT_STATE, 3, 1⟩
def SEL_OUT_STATE_equiv_a : Field := ⟨.SEL_OUT_STATE, 4, 1⟩
def SEL_OUT_STATE_equiv_b : Field := ⟨.SEL_OUT_STATE, 5, 1⟩
def SEL_OUT_STATE_good_a : Field := ⟨.SEL_OUT_STATE, 6, 1⟩
def SEL_OUT_STATE_good_b : Field := ⟨.SEL_OUT_STATE, 7, 1⟩
def SEL_OUT_STATE_fill : Field := ⟨.SEL_OUT_STATE, 8, 1⟩
def SEL_OUT_STATE_failovers : Field := ⟨.SEL_OUT_STATE, 16, 16⟩
def HIF_PORT_CTRL_lock : Field := ⟨.HIF_PORT_CTRL, 0, 1⟩
def HIF_PORT_CTRL_enable : Field := ⟨.HIF_PORT_CTRL, 1, 1⟩
def HIF_PORT_STATUS_active : Field := ⟨.HIF_PORT_STATUS, 0, 1⟩
def HIF_PORT_STATUS_link_up : Field := ⟨.HIF_PORT_STATUS, 1, 1⟩
def HIF_PORT_STATUS_primary : Field := ⟨.HIF_PORT_STATUS, 2, 1⟩
def HIF_ERR_db_fetch_err : Field := ⟨.HIF_ERR, 0, 1⟩
def HIF_ERR_desc_fetch_err : Field := ⟨.HIF_ERR, 1, 1⟩
def HIF_ERR_cfg_invalid : Field := ⟨.HIF_ERR, 2, 1⟩
def HIF_ERR_resume_invalid : Field := ⟨.HIF_ERR, 3, 1⟩
def HIF_ERR_fold_err : Field := ⟨.HIF_ERR, 4, 1⟩
def HIF_ERR_result_err : Field := ⟨.HIF_ERR, 5, 1⟩
def HIF_POLL_SKIP_skipped : Field := ⟨.HIF_POLL_SKIP, 0, 32⟩
def HIF_DB_BASE_LO_addr : Field := ⟨.HIF_DB_BASE_LO, 8, 24⟩
def HIF_DB_BASE_HI_addr : Field := ⟨.HIF_DB_BASE_HI, 0, 32⟩
def HIF_DB_CFG_poll : Field := ⟨.HIF_DB_CFG, 0, 7⟩
def HIF_DB_CFG_sweep : Field := ⟨.HIF_DB_CFG, 7, 1⟩
def HIF_WV_BASE_LO_addr : Field := ⟨.HIF_WV_BASE_LO, 12, 20⟩
def HIF_WV_BASE_HI_addr : Field := ⟨.HIF_WV_BASE_HI, 0, 32⟩
def HIF_WV_CFG_enable : Field := ⟨.HIF_WV_CFG, 0, 1⟩
def HIF_WV_CFG_size : Field := ⟨.HIF_WV_CFG, 1, 1⟩
def HIF_WV_CFG_period : Field := ⟨.HIF_WV_CFG, 2, 7⟩
def HIF_SVR_BASE_LO_addr : Field := ⟨.HIF_SVR_BASE_LO, 12, 20⟩
def HIF_CPR_BASE_LO_addr : Field := ⟨.HIF_CPR_BASE_LO, 12, 20⟩
def HIF_EVR_BASE_LO_addr : Field := ⟨.HIF_EVR_BASE_LO, 12, 20⟩
def HIF_ASR_BASE_LO_addr : Field := ⟨.HIF_ASR_BASE_LO, 12, 20⟩
def HIF_SVR_BASE_HI_addr : Field := ⟨.HIF_SVR_BASE_HI, 0, 32⟩
def HIF_CPR_BASE_HI_addr : Field := ⟨.HIF_CPR_BASE_HI, 0, 32⟩
def HIF_EVR_BASE_HI_addr : Field := ⟨.HIF_EVR_BASE_HI, 0, 32⟩
def HIF_ASR_BASE_HI_addr : Field := ⟨.HIF_ASR_BASE_HI, 0, 32⟩
def HIF_SVR_CFG_enable : Field := ⟨.HIF_SVR_CFG, 0, 1⟩
def HIF_SVR_CFG_size : Field := ⟨.HIF_SVR_CFG, 1, 4⟩
def HIF_SVR_CFG_cpr : Field := ⟨.HIF_SVR_CFG, 5, 4⟩
def HIF_SVR_CFG_coe : Field := ⟨.HIF_SVR_CFG, 9, 1⟩
def HIF_SVR_CFG_auth_req : Field := ⟨.HIF_SVR_CFG, 10, 1⟩
def HIF_SVR_STATUS_stalled : Field := ⟨.HIF_SVR_STATUS, 0, 1⟩
def HIF_SVR_STATUS_waiting : Field := ⟨.HIF_SVR_STATUS, 1, 1⟩
def HIF_SVR_STATUS_draining : Field := ⟨.HIF_SVR_STATUS, 2, 1⟩
def HIF_SVR_STATUS_ci : Field := ⟨.HIF_SVR_STATUS, 16, 16⟩
def HIF_CPR_CFG_enable : Field := ⟨.HIF_CPR_CFG, 0, 1⟩
def HIF_CPR_CFG_size : Field := ⟨.HIF_CPR_CFG, 1, 4⟩
def HIF_CPR_CFG_msix : Field := ⟨.HIF_CPR_CFG, 5, 6⟩
def HIF_CPR_CFG_mod_us : Field := ⟨.HIF_CPR_CFG, 11, 8⟩
def HIF_EVR_CFG_enable : Field := ⟨.HIF_EVR_CFG, 0, 1⟩
def HIF_EVR_CFG_size : Field := ⟨.HIF_EVR_CFG, 1, 4⟩
def HIF_EVR_CFG_msix : Field := ⟨.HIF_EVR_CFG, 5, 6⟩
def HIF_EVR_CFG_mod_us : Field := ⟨.HIF_EVR_CFG, 11, 8⟩
def HIF_ASR_CFG_enable : Field := ⟨.HIF_ASR_CFG, 0, 1⟩
def HIF_ASR_CFG_size : Field := ⟨.HIF_ASR_CFG, 1, 4⟩
def HIF_ASR_CFG_msix : Field := ⟨.HIF_ASR_CFG, 5, 6⟩
def HIF_ASR_CFG_mod_us : Field := ⟨.HIF_ASR_CFG, 11, 8⟩
def HIF_CPR_STATUS_pi : Field := ⟨.HIF_CPR_STATUS, 0, 16⟩
def HIF_CPR_STATUS_phase : Field := ⟨.HIF_CPR_STATUS, 16, 1⟩
def HIF_CPR_STATUS_full : Field := ⟨.HIF_CPR_STATUS, 17, 1⟩
def HIF_EVR_STATUS_pi : Field := ⟨.HIF_EVR_STATUS, 0, 16⟩
def HIF_EVR_STATUS_phase : Field := ⟨.HIF_EVR_STATUS, 16, 1⟩
def HIF_EVR_STATUS_full : Field := ⟨.HIF_EVR_STATUS, 17, 1⟩
def HIF_ASR_STATUS_pi : Field := ⟨.HIF_ASR_STATUS, 0, 16⟩
def HIF_ASR_STATUS_phase : Field := ⟨.HIF_ASR_STATUS, 16, 1⟩
def HIF_ASR_STATUS_full : Field := ⟨.HIF_ASR_STATUS, 17, 1⟩
def PL_CTRL_lock : Field := ⟨.PL_CTRL, 0, 1⟩
def PL_CTRL_auto_restart : Field := ⟨.PL_CTRL, 1, 1⟩
def PL_CTRL_auto_max : Field := ⟨.PL_CTRL, 2, 2⟩
def PL_CTRL_fault_req : Field := ⟨.PL_CTRL, 4, 1⟩
def PL_CTRL_restart_req : Field := ⟨.PL_CTRL, 5, 1⟩
def PL_STATUS_state : Field := ⟨.PL_STATUS, 0, 2⟩
def PL_STATUS_cause : Field := ⟨.PL_STATUS, 2, 4⟩
def PL_STATUS_auto_blocked : Field := ⟨.PL_STATUS, 6, 1⟩
def PL_STATUS_recent : Field := ⟨.PL_STATUS, 7, 2⟩
def PL_CNT_faults : Field := ⟨.PL_CNT, 0, 16⟩
def PL_CNT_restarts : Field := ⟨.PL_CNT, 16, 16⟩
def HIF_LOSS_lost : Field := ⟨.HIF_LOSS, 0, 1⟩
def HIF_LOSS_losses : Field := ⟨.HIF_LOSS, 8, 8⟩
def HIF_LOSS_dropped : Field := ⟨.HIF_LOSS, 16, 16⟩
def HIF_TAKEN_taken : Field := ⟨.HIF_TAKEN, 0, 16⟩
def HAM_CTRL_scrub_en : Field := ⟨.HAM_CTRL, 0, 1⟩
def HAM_STATUS_trained : Field := ⟨.HAM_STATUS, 0, 1⟩
def HAM_STATUS_pc_quar : Field := ⟨.HAM_STATUS, 1, 6⟩
def HAM_POOL_pool : Field := ⟨.HAM_POOL, 0, 32⟩
def HAM_TOKENS_pool : Field := ⟨.HAM_TOKENS, 0, 16⟩
def HAM_TOKENS_total : Field := ⟨.HAM_TOKENS, 16, 16⟩
def HAM_ECC_CNT_corrected : Field := ⟨.HAM_ECC_CNT, 0, 16⟩
def HAM_ECC_CNT_uncorrected : Field := ⟨.HAM_ECC_CNT, 16, 8⟩
def HAM_ECC_ADDR_page : Field := ⟨.HAM_ECC_ADDR, 0, 21⟩
def HAM_ECC_ADDR_uncorr : Field := ⟨.HAM_ECC_ADDR, 21, 1⟩
def HAM_ECC_ADDR_syndrome : Field := ⟨.HAM_ECC_ADDR, 22, 7⟩
def HAM_ECC_ADDR_valid : Field := ⟨.HAM_ECC_ADDR, 29, 1⟩
def HAM_PM_SEL_page : Field := ⟨.HAM_PM_SEL, 0, 21⟩
def HAM_PM_DATA_entry : Field := ⟨.HAM_PM_DATA, 0, 32⟩
def HAM_PM_CHK_check : Field := ⟨.HAM_PM_CHK, 0, 7⟩
def HAM_QUAR_pc_mask : Field := ⟨.HAM_QUAR, 0, 32⟩
def HAM_CB_CNT_hits : Field := ⟨.HAM_CB_CNT, 0, 16⟩
def HAM_CB_CNT_misses : Field := ⟨.HAM_CB_CNT, 16, 16⟩
def HAM_SYNC_IDX_slot : Field := ⟨.HAM_SYNC_IDX, 0, 11⟩
def HAM_SYNC_STATE_open : Field := ⟨.HAM_SYNC_STATE, 0, 1⟩
def HAM_SYNC_STATE_depth : Field := ⟨.HAM_SYNC_STATE, 1, 4⟩
def HAM_SYNC_STATE_newest : Field := ⟨.HAM_SYNC_STATE, 5, 4⟩
def HAM_SYNC_STATE_black : Field := ⟨.HAM_SYNC_STATE, 9, 1⟩
def HAM_SYNC_STATE_drops : Field := ⟨.HAM_SYNC_STATE, 16, 8⟩
def HAM_SYNC_STATE_repeats : Field := ⟨.HAM_SYNC_STATE, 24, 8⟩
def HIF_CCT_BASE_LO_flush : Field := ⟨.HIF_CCT_BASE_LO, 0, 1⟩
def HIF_CCT_BASE_LO_addr : Field := ⟨.HIF_CCT_BASE_LO, 12, 20⟩
def HIF_CCT_BASE_HI_addr : Field := ⟨.HIF_CCT_BASE_HI, 0, 32⟩
def HIF_CCT_CNT_reads : Field := ⟨.HIF_CCT_CNT, 0, 16⟩
def HIF_CCT_CNT_bad : Field := ⟨.HIF_CCT_CNT, 16, 16⟩
def GE_CTRL_gate_en : Field := ⟨.GE_CTRL, 0, 1⟩
def GE_CTRL_fault_max : Field := ⟨.GE_CTRL, 1, 2⟩
def GE_STATUS_half_free : Field := ⟨.GE_STATUS, 0, 7⟩
def GE_STATUS_ctx_free : Field := ⟨.GE_STATUS, 7, 7⟩
def GE_STATUS_disabled : Field := ⟨.GE_STATUS, 14, 6⟩
def GE_STATUS_stepped : Field := ⟨.GE_STATUS, 20, 1⟩
def GE_STATUS_pack_loaded : Field := ⟨.GE_STATUS, 21, 1⟩
def GE_STATUS_pack_rejected : Field := ⟨.GE_STATUS, 22, 1⟩
def GE_PACK_version : Field := ⟨.GE_PACK, 0, 16⟩
def GE_PACK_profiles : Field := ⟨.GE_PACK, 16, 7⟩
def GE_ENG_IDX_engine : Field := ⟨.GE_ENG_IDX, 0, 6⟩
def GE_ENG_STATE_state : Field := ⟨.GE_ENG_STATE, 0, 2⟩
def GE_ENG_STATE_stepped : Field := ⟨.GE_ENG_STATE, 2, 1⟩
def GE_ENG_STATE_load0 : Field := ⟨.GE_ENG_STATE, 3, 12⟩
def GE_ENG_STATE_load1 : Field := ⟨.GE_ENG_STATE, 15, 12⟩
def GE_ENG_CNT_watchdog : Field := ⟨.GE_ENG_CNT, 0, 16⟩
def GE_ENG_CNT_ctrl_err : Field := ⟨.GE_ENG_CNT, 16, 16⟩
def GE_ENG_DIS_LO_dis : Field := ⟨.GE_ENG_DIS_LO, 0, 32⟩
def GE_ENG_DIS_HI_dis : Field := ⟨.GE_ENG_DIS_HI, 0, 16⟩
def GE_CC_IDX_ctx : Field := ⟨.GE_CC_IDX, 0, 7⟩
def GE_CC_STATE_open : Field := ⟨.GE_CC_STATE, 0, 1⟩
def GE_CC_STATE_fill : Field := ⟨.GE_CC_STATE, 1, 1⟩
def GE_CC_STATE_stepped : Field := ⟨.GE_CC_STATE, 2, 1⟩
def GE_CC_STATE_waiting : Field := ⟨.GE_CC_STATE, 3, 1⟩
def GE_CC_STATE_tag_frame : Field := ⟨.GE_CC_STATE, 16, 16⟩
def GE_CNT_aborts : Field := ⟨.GE_CNT, 0, 16⟩
def GE_CNT_reestablished : Field := ⟨.GE_CNT, 16, 16⟩
def AX_CTRL_scrub_en : Field := ⟨.AX_CTRL, 0, 1⟩
def AX_STATUS_map_fault : Field := ⟨.AX_STATUS, 0, 1⟩
def AX_STATUS_rdr_free : Field := ⟨.AX_STATUS, 1, 10⟩
def AX_ECC_CNT_corrected : Field := ⟨.AX_ECC_CNT, 0, 16⟩
def AX_ECC_CNT_uncorrected : Field := ⟨.AX_ECC_CNT, 16, 8⟩
def AX_ECC_ADDR_dst : Field := ⟨.AX_ECC_ADDR, 0, 15⟩
def AX_ECC_ADDR_uncorr : Field := ⟨.AX_ECC_ADDR, 15, 1⟩
def AX_ECC_ADDR_syndrome : Field := ⟨.AX_ECC_ADDR, 16, 8⟩
def AX_ECC_ADDR_valid : Field := ⟨.AX_ECC_ADDR, 24, 1⟩
def AX_MAP_SEL_dst : Field := ⟨.AX_MAP_SEL, 0, 15⟩
def AX_MAP_LO_entry : Field := ⟨.AX_MAP_LO, 0, 32⟩
def AX_MAP_HI_entry : Field := ⟨.AX_MAP_HI, 0, 32⟩
def AX_MAP_CHK_check : Field := ⟨.AX_MAP_CHK, 0, 8⟩
def AX_SRC_SEL_src : Field := ⟨.AX_SRC_SEL, 0, 15⟩
def AX_SRC_STATE_class : Field := ⟨.AX_SRC_STATE, 0, 2⟩
def AX_SRC_STATE_cs_nonaudio : Field := ⟨.AX_SRC_STATE, 2, 1⟩
def AX_SRC_STATE_preamble : Field := ⟨.AX_SRC_STATE, 3, 1⟩
def AX_SRC_STATE_width : Field := ⟨.AX_SRC_STATE, 4, 2⟩
def AX_SRC_STATE_rate_dev : Field := ⟨.AX_SRC_STATE, 16, 16⟩
def AX_CNT_MISS_missed : Field := ⟨.AX_CNT_MISS, 0, 32⟩
def AX_CNT_DISC_shifts : Field := ⟨.AX_CNT_DISC, 0, 16⟩
def AX_CNT_DISC_slips : Field := ⟨.AX_CNT_DISC, 16, 16⟩
def HIF_FOLD_BASE_LO_addr : Field := ⟨.HIF_FOLD_BASE_LO, 12, 20⟩
def HIF_FOLD_BASE_HI_addr : Field := ⟨.HIF_FOLD_BASE_HI, 0, 32⟩
def HIF_EV_CTRL_fold_en : Field := ⟨.HIF_EV_CTRL, 0, 1⟩
def HIF_EV_CTRL_cause_irq : Field := ⟨.HIF_EV_CTRL, 1, 1⟩
def HIF_EV_WRITTEN_written : Field := ⟨.HIF_EV_WRITTEN, 0, 32⟩
def HIF_EV_FOLDED_folded : Field := ⟨.HIF_EV_FOLDED, 0, 32⟩
def HIF_EV_LOST_lost : Field := ⟨.HIF_EV_LOST, 0, 32⟩
def HIF_EV_CAUSES_last_id : Field := ⟨.HIF_EV_CAUSES, 0, 16⟩
def HIF_EV_CAUSES_active : Field := ⟨.HIF_EV_CAUSES, 16, 8⟩
def HIF_EV_CAUSES_waiting : Field := ⟨.HIF_EV_CAUSES, 24, 8⟩
def HIF_EV_ROUTE_ring : Field := ⟨.HIF_EV_ROUTE, 0, 5⟩
def HIF_EV_ROUTE_enable : Field := ⟨.HIF_EV_ROUTE, 5, 1⟩
def CLK_CTRL_lock : Field := ⟨.CLK_CTRL, 0, 1⟩
def CLK_CTRL_ls_to_xa : Field := ⟨.CLK_CTRL, 1, 1⟩
def CLK_STATUS_xa_usable : Field := ⟨.CLK_STATUS, 0, 1⟩
def CLK_STATUS_xb_qualified : Field := ⟨.CLK_STATUS, 1, 1⟩
def CLK_STATUS_ls_a_src : Field := ⟨.CLK_STATUS, 2, 1⟩
def CLK_STATUS_ls_b_src : Field := ⟨.CLK_STATUS, 3, 1⟩
def CLK_STATUS_ls_a_state : Field := ⟨.CLK_STATUS, 4, 2⟩
def CLK_STATUS_ls_b_state : Field := ⟨.CLK_STATUS, 6, 2⟩
def CLK_STATUS_safe : Field := ⟨.CLK_STATUS, 8, 1⟩
def CLK_STATUS_ctl_on_fio : Field := ⟨.CLK_STATUS, 9, 1⟩
def CLK_STATUS_syn_lock : Field := ⟨.CLK_STATUS, 10, 6⟩
def CLK_STATUS_syn_coast : Field := ⟨.CLK_STATUS, 16, 6⟩
def CLK_STATUS_syn_failed : Field := ⟨.CLK_STATUS, 22, 6⟩
def CLK_STATUS_syn4_on_syn5 : Field := ⟨.CLK_STATUS, 28, 1⟩
def CLK_STATUS_xb_lane_fit : Field := ⟨.CLK_STATUS, 29, 1⟩
def CLK_ERR_xa_fail : Field := ⟨.CLK_ERR, 0, 1⟩
def CLK_ERR_xb_disq : Field := ⟨.CLK_ERR, 1, 1⟩
def CLK_ERR_ls_coast : Field := ⟨.CLK_ERR, 2, 1⟩
def CLK_ERR_syn5_invalid : Field := ⟨.CLK_ERR, 3, 1⟩
def CLK_ERR_cko_invalid : Field := ⟨.CLK_ERR, 4, 1⟩
def CLK_ERR_safe_entered : Field := ⟨.CLK_ERR, 5, 1⟩
def CLK_ERR_ls_to_xa_ignored : Field := ⟨.CLK_ERR, 6, 1⟩
def CLK_XB_CFG_freq : Field := ⟨.CLK_XB_CFG, 0, 2⟩
def CLK_XB_CFG_fitted : Field := ⟨.CLK_XB_CFG, 2, 1⟩
def CLK_XB_CFG_tol : Field := ⟨.CLK_XB_CFG, 3, 8⟩
def CLK_XB_STATUS_passed : Field := ⟨.CLK_XB_STATUS, 0, 3⟩
def CLK_XB_STATUS_basis : Field := ⟨.CLK_XB_STATUS, 3, 2⟩
def CLK_XB_STATUS_input : Field := ⟨.CLK_XB_STATUS, 5, 3⟩
def CLK_XB_STATUS_offset : Field := ⟨.CLK_XB_STATUS, 8, 24⟩
def CLK_SAFE_trigger : Field := ⟨.CLK_SAFE, 0, 4⟩
def CLK_SAFE_count : Field := ⟨.CLK_SAFE, 8, 8⟩
def CLK_LOCK_CFG_en_a : Field := ⟨.CLK_LOCK_CFG, 0, 1⟩
def CLK_LOCK_CFG_en_b : Field := ⟨.CLK_LOCK_CFG, 1, 1⟩
def CLK_SYNC_CFG_arm : Field := ⟨.CLK_SYNC_CFG, 0, 1⟩
def CLK_SYNC_CFG_polarity : Field := ⟨.CLK_SYNC_CFG, 1, 1⟩
def CLK_SYNC_CFG_iostd : Field := ⟨.CLK_SYNC_CFG, 2, 1⟩
def CLK_SYNC_CFG_mask : Field := ⟨.CLK_SYNC_CFG, 3, 8⟩
def CLK_DIAG_enable : Field := ⟨.CLK_DIAG, 0, 1⟩
def CLK_DIAG_src : Field := ⟨.CLK_DIAG, 1, 4⟩
def CLK_DIAG_idx : Field := ⟨.CLK_DIAG, 5, 9⟩
def CLK_DIAG_n : Field := ⟨.CLK_DIAG, 14, 4⟩
def CLK_OM_LOCK_LO_om_lock : Field := ⟨.CLK_OM_LOCK_LO, 0, 32⟩
def CLK_OM_LOCK_HI_om_lock : Field := ⟨.CLK_OM_LOCK_HI, 0, 16⟩
def CLK_SYN_N_n : Field := ⟨.CLK_SYN_N, 0, 5⟩
def CLK_SYN_N_enable : Field := ⟨.CLK_SYN_N, 5, 1⟩
def CLK_SYN_FRAC_f : Field := ⟨.CLK_SYN_FRAC, 0, 24⟩
def CLK_SYN_MOD_m : Field := ⟨.CLK_SYN_MOD, 0, 24⟩
def CLK_SYN_DITHER_seed : Field := ⟨.CLK_SYN_DITHER, 0, 31⟩
def CLK_SYN_DITHER_en : Field := ⟨.CLK_SYN_DITHER, 31, 1⟩
def CLK_CKO_CFG_mode : Field := ⟨.CLK_CKO_CFG, 0, 2⟩
def CLK_CKO_CFG_src : Field := ⟨.CLK_CKO_CFG, 2, 4⟩
def CLK_CKO_CFG_pulse_frame : Field := ⟨.CLK_CKO_CFG, 6, 1⟩
def CLK_CKO_CFG_class : Field := ⟨.CLK_CKO_CFG, 7, 4⟩
def CLK_CKO_CFG_polarity : Field := ⟨.CLK_CKO_CFG, 11, 1⟩
def CLK_CKO_DIV_div : Field := ⟨.CLK_CKO_DIV, 0, 25⟩
def GLB_CLKEN0_oct : Field := ⟨.GLB_CLKEN0, 0, 32⟩
def GLB_CLKEN1_oct : Field := ⟨.GLB_CLKEN1, 0, 16⟩
def GLB_CLKEN1_plane_a : Field := ⟨.GLB_CLKEN1, 16, 1⟩
def GLB_CLKEN1_plane_b : Field := ⟨.GLB_CLKEN1, 17, 1⟩
def GLB_CLKPEND0_oct : Field := ⟨.GLB_CLKPEND0, 0, 32⟩
def GLB_CLKPEND1_oct : Field := ⟨.GLB_CLKPEND1, 0, 16⟩
def GLB_CLKPEND1_plane_a : Field := ⟨.GLB_CLKPEND1, 16, 1⟩
def GLB_CLKPEND1_plane_b : Field := ⟨.GLB_CLKPEND1, 17, 1⟩
def GLB_CLKPEND1_plane_ignored : Field := ⟨.GLB_CLKPEND1, 18, 1⟩
def CMX_CTRL_lock : Field := ⟨.CMX_CTRL, 0, 1⟩
def CMX_CTRL_remap : Field := ⟨.CMX_CTRL, 1, 1⟩
def CMX_ERR_decode : Field := ⟨.CMX_ERR, 0, 16⟩
def CMX_ERR_partial : Field := ⟨.CMX_ERR, 16, 8⟩
def CMX_ERR_leave : Field := ⟨.CMX_ERR, 24, 8⟩
def CMX_ERR_ADDR_LO_addr : Field := ⟨.CMX_ERR_ADDR_LO, 0, 32⟩
def CMX_ERR_ADDR_HI_addr : Field := ⟨.CMX_ERR_ADDR_HI, 0, 32⟩
def CMX_ERR_INFO_master : Field := ⟨.CMX_ERR_INFO, 0, 4⟩
def CMX_ERR_INFO_id : Field := ⟨.CMX_ERR_INFO, 4, 4⟩
def CMX_ERR_INFO_write : Field := ⟨.CMX_ERR_INFO, 8, 1⟩
def CMX_ERR_INFO_space : Field := ⟨.CMX_ERR_INFO, 9, 2⟩
def CMX_ERR_INFO_valid : Field := ⟨.CMX_ERR_INFO, 31, 1⟩
def CMX_MRST_releasing : Field := ⟨.CMX_MRST, 0, 11⟩
def CMX_RMB_STATUS_state : Field := ⟨.CMX_RMB_STATUS, 0, 2⟩
def CMX_RMB_STATUS_patched : Field := ⟨.CMX_RMB_STATUS, 2, 1⟩
def CMX_RMB_STATUS_watchdogs : Field := ⟨.CMX_RMB_STATUS, 8, 8⟩
def CMX_RMB_STATUS_fw : Field := ⟨.CMX_RMB_STATUS, 16, 16⟩
def LDR_CTRL_lock : Field := ⟨.LDR_CTRL, 0, 1⟩
def LDR_CTRL_bt_wen : Field := ⟨.LDR_CTRL, 1, 1⟩
def LDR_CTRL_patch_wen : Field := ⟨.LDR_CTRL, 2, 1⟩
def LDR_CTRL_scrub_en : Field := ⟨.LDR_CTRL, 3, 1⟩
def LDR_STATUS_busy : Field := ⟨.LDR_STATUS, 0, 1⟩
def LDR_STATUS_page : Field := ⟨.LDR_STATUS, 1, 14⟩
def LDR_STATUS_class : Field := ⟨.LDR_STATUS, 15, 2⟩
def LDR_ERR_busy_read : Field := ⟨.LDR_ERR, 0, 1⟩
def LDR_ERR_verify_fail : Field := ⟨.LDR_ERR, 1, 1⟩
def LDR_ERR_rail_abort : Field := ⟨.LDR_ERR, 2, 1⟩
def LDR_TIE_board_table : Field := ⟨.LDR_TIE, 0, 1⟩
def LDR_TIE_counters : Field := ⟨.LDR_TIE, 1, 1⟩
def LDR_TIE_key_slots : Field := ⟨.LDR_TIE, 2, 1⟩
def LDR_CNT_busy_reads : Field := ⟨.LDR_CNT, 0, 16⟩
def LDR_CNT_refreshes : Field := ⟨.LDR_CNT, 16, 16⟩
def LDR_SCRUB_days : Field := ⟨.LDR_SCRUB, 0, 5⟩
def LDR_SCRUB_next : Field := ⟨.LDR_SCRUB, 5, 14⟩
def LDR_JRNL_credit : Field := ⟨.LDR_JRNL, 0, 16⟩
def LDR_JRNL_stretch : Field := ⟨.LDR_JRNL, 16, 16⟩
def KEY_CTRL_lock : Field := ⟨.KEY_CTRL, 0, 1⟩
def KEY_CTRL_quote_en : Field := ⟨.KEY_CTRL, 1, 1⟩
def KEY_CTRL_gen_en : Field := ⟨.KEY_CTRL, 2, 1⟩
def KEY_STATUS_ready : Field := ⟨.KEY_STATUS, 0, 1⟩
def KEY_STATUS_drbg_ok : Field := ⟨.KEY_STATUS, 1, 1⟩
def KEY_STATUS_busy : Field := ⟨.KEY_STATUS, 2, 1⟩
def KEY_STATUS_slots_ready : Field := ⟨.KEY_STATUS, 3, 8⟩
def KEY_STATUS_last_err : Field := ⟨.KEY_STATUS, 11, 4⟩
def KEY_FAULT_entropy_fail : Field := ⟨.KEY_FAULT, 0, 1⟩
def KEY_FAULT_sealed : Field := ⟨.KEY_FAULT, 1, 1⟩
def KEY_FAULT_write_limited : Field := ⟨.KEY_FAULT, 2, 1⟩
def KEY_BMR_SEL_bmr : Field := ⟨.KEY_BMR_SEL, 0, 3⟩
def KEY_BMR_SEL_word : Field := ⟨.KEY_BMR_SEL, 3, 4⟩
def KEY_BMR_DATA_data : Field := ⟨.KEY_BMR_DATA, 0, 32⟩
def KEY_SLOT_SEL_slot : Field := ⟨.KEY_SLOT_SEL, 0, 7⟩
def KEY_SLOT_STATE_state : Field := ⟨.KEY_SLOT_STATE, 0, 2⟩
def KEY_SLOT_STATE_class : Field := ⟨.KEY_SLOT_STATE, 2, 1⟩
def KEY_SLOT_STATE_alg : Field := ⟨.KEY_SLOT_STATE, 3, 2⟩
def KEY_SLOT_STATE_usage : Field := ⟨.KEY_SLOT_STATE, 5, 2⟩
def KEY_SLOT_STATE_wrap1_valid : Field := ⟨.KEY_SLOT_STATE, 7, 1⟩
def KEY_SLOT_STATE_day_writes : Field := ⟨.KEY_SLOT_STATE, 8, 8⟩
def KEY_CNT_auth_fail : Field := ⟨.KEY_CNT, 0, 16⟩
def KEY_CNT_agreements : Field := ⟨.KEY_CNT, 16, 16⟩
def GLB_START_phase : Field := ⟨.GLB_START, 0, 3⟩
def GLB_START_xadly : Field := ⟨.GLB_START, 3, 3⟩
def GLB_START_hostpri : Field := ⟨.GLB_START, 6, 1⟩
def GLB_START_boothold : Field := ⟨.GLB_START, 7, 1⟩
def GLB_START_laneref : Field := ⟨.GLB_START, 8, 1⟩
def GLB_START_journal_valid : Field := ⟨.GLB_START, 9, 1⟩
def GLB_START_brownout : Field := ⟨.GLB_START, 10, 1⟩
def GLB_READY_ms : Field := ⟨.GLB_READY, 0, 16⟩
def GLB_READY_restored : Field := ⟨.GLB_READY, 16, 11⟩
def GLB_SUPPLY_in_window : Field := ⟨.GLB_SUPPLY, 0, 8⟩
def GLB_SUPPLY_left : Field := ⟨.GLB_SUPPLY, 8, 8⟩
def GLB_SUPPLY_departures : Field := ⟨.GLB_SUPPLY, 16, 8⟩
def GLB_THERM_tj : Field := ⟨.GLB_THERM, 0, 8⟩
def GLB_THERM_tj_max : Field := ⟨.GLB_THERM, 8, 8⟩
def GLB_THERM_step : Field := ⟨.GLB_THERM, 16, 2⟩
def GLB_THERM_CNT_alerts : Field := ⟨.GLB_THERM_CNT, 0, 16⟩
def GLB_THERM_CNT_steps : Field := ⟨.GLB_THERM_CNT, 16, 16⟩
def GLB_GPIO_DIR_oe : Field := ⟨.GLB_GPIO_DIR, 0, 16⟩
def GLB_GPIO_DIR_od : Field := ⟨.GLB_GPIO_DIR, 16, 16⟩
def GLB_GPIO_OUT_out : Field := ⟨.GLB_GPIO_OUT, 0, 16⟩
def GLB_GPIO_IN_in : Field := ⟨.GLB_GPIO_IN, 0, 16⟩
def GLB_GPIO_PULL_pull : Field := ⟨.GLB_GPIO_PULL, 0, 32⟩
def GLB_ID_model : Field := ⟨.GLB_ID, 0, 32⟩
def GLB_REV_step : Field := ⟨.GLB_REV, 0, 8⟩
def GLB_REV_rom : Field := ⟨.GLB_REV, 8, 8⟩

end F

end Sys2Proof.Machine
end

