-- ==== Sys2Proof/Machine/Tables.lean ====
section
/-! DEFINITION. Sparse tables in one canonical form: a list of (key, value) pairs, keys strictly
rising, where a key that is not listed holds the table's default value. `Memory` is the table of bytes. -/

namespace Sys2Proof.Machine

/-- A sparse table: keys strictly rising. -/
abbrev Tbl (V : Type) := List (Nat × V)

/-- The value of key `k`; `d` where `k` is not listed. -/
def Tbl.get {V : Type} (d : V) : Tbl V → Nat → V
  | [], _ => d
  | (j, v) :: r, k => if k = j then v else Tbl.get d r k

/-- The table without key `k`. -/
def Tbl.erase {V : Type} (k : Nat) : Tbl V → Tbl V
  | [] => []
  | (j, v) :: r => if k = j then Tbl.erase k r else (j, v) :: Tbl.erase k r

/-- The table with `(k, v)` before the first key above `k`. -/
def Tbl.insert {V : Type} (k : Nat) (v : V) : Tbl V → Tbl V
  | [] => [(k, v)]
  | (j, u) :: r => if k < j then (k, v) :: (j, u) :: r else (j, u) :: Tbl.insert k v r

/-- The table with key `k` holding `v`; an entry equal to the default `d` is not listed. -/
def Tbl.set {V : Type} [DecidableEq V] (d : V) (t : Tbl V) (k : Nat) (v : V) : Tbl V :=
  if v = d then Tbl.erase k t else Tbl.insert k v (Tbl.erase k t)

/-- The table with key `k` changed by `f`. -/
def Tbl.mod {V : Type} [DecidableEq V] (d : V) (t : Tbl V) (k : Nat) (f : V → V) : Tbl V :=
  Tbl.set d t k (f (Tbl.get d t k))

/-- Every listed key lies above `lo`, and keys rise strictly; no entry equals the default. -/
def Tbl.wfFrom {V : Type} [DecidableEq V] (d : V) : Nat → Tbl V → Bool
  | _, [] => true
  | lo, (j, v) :: r => decide (lo ≤ j) && decide (v ≠ d) && Tbl.wfFrom d (j + 1) r

/-- The canonical form of a table whose default is `d`. -/
def Tbl.wf {V : Type} [DecidableEq V] (d : V) (t : Tbl V) : Bool := Tbl.wfFrom d 0 t

/-- One addressed memory of the device: bytes by address, in the canonical form. -/
abbrev Memory := List Host.Cell

/-- What a byte of a memory reads as where nothing is listed: `d` (NOTES.md, Assumptions). -/
def Memory.read (d : Byte) (m : Memory) (a : Nat) : Byte := Tbl.get d m a

/-- The memory with byte `a` holding `b`. -/
def Memory.write (d : Byte) (m : Memory) (a : Nat) (b : Byte) : Memory := Tbl.set d m a b

/-- `n` bytes from address `a`. -/
def Memory.readN (d : Byte) (m : Memory) (a n : Nat) : List Byte :=
  (List.range n).map fun k => Memory.read d m (a + k)

/-- The bytes `bs` written from address `a` upwards. -/
def Memory.writeN (d : Byte) : Memory → Nat → List Byte → Memory
  | m, _, [] => m
  | m, a, b :: bs => Memory.writeN d (Memory.write d m a b) (a + 1) bs

/-- The memory with nothing listed from address `a` up to `a + n - 1`. -/
def Memory.clear (a n : Nat) (m : Memory) : Memory := m.filter fun (x : Host.Cell) => decide (x.1 < a ∨ a + n ≤ x.1)

/-- The canonical form of a memory: addresses strictly rising, no byte equal to the unlisted value. -/
def Memory.wf (d : Byte) (m : Memory) : Bool := Tbl.wf d m

/-- A pair of things, one for each plane or one for each host port. -/
structure Duo (α : Type) where
  a : α
  b : α
  deriving DecidableEq, Repr

/-- The element of a plane. -/
def Duo.pl {α : Type} (x : Duo α) : Plane → α
  | .a => x.a
  | .b => x.b

/-- The element of a port. -/
def Duo.po {α : Type} (x : Duo α) : Port → α
  | .a => x.a
  | .b => x.b

/-- With the element of a plane changed. -/
def Duo.modPl {α : Type} (x : Duo α) (p : Plane) (f : α → α) : Duo α :=
  match p with
  | .a => { x with a := f x.a }
  | .b => { x with b := f x.b }

/-- With the element of a port changed. -/
def Duo.modPo {α : Type} (x : Duo α) (p : Port) (f : α → α) : Duo α :=
  match p with
  | .a => { x with a := f x.a }
  | .b => { x with b := f x.b }

end Sys2Proof.Machine
end

