-- ==== Sys2Proof/Machine/State.lean ====
section
/-! DEFINITION. The state of the OLX1152-B0: every register, buffer, queue, counter and mode the spec
names, as plain data. The default values of the fields are the reset values (`State.reset`); the
registers' reset values are those of `RegName.resetBase`. Instants are in u = 2^-16 ns of the device's
clock since reset unless a field says otherwise. -/

namespace Sys2Proof.Machine

/-! ### What leaves the device -/

/-- The control sets and runs of words that an egress lane sends beside parcels (Table 3-2, R118-R132). -/
inductive LaneSet where
  | wt1 (words : Nat)               -- training words (R112)
  | wt2 (status : Nat)              -- WT2 with status 0 D10.2, 1 D21.2, 2 D12.2 (R107)
  | cap (bytes : List Byte)         -- a CAP set of Table 3-4
  | skp (words : Nat)               -- SKP words, each 496 words after the one before it (R108)
  | idl (words : Nat)               -- a run of IDL words
  | lull (words : Nat)              -- LULL words (R127, R129)
  | zephyr                          -- a Zephyr burst (R130)
  | fch (pos : Nat)                 -- FCH set of a slot position (R218, R243)
  | swm (pos : Nat)                 -- SWM set of a slot position (R201)
  | idle                            -- electrical idle levels without LULL (R437)
  | hiZ                             -- high impedance on both legs (Table 18-2, R446)
  | detect                          -- a receiver-detect pulse (R111)
  deriving DecidableEq, Repr

/-- A PULSE output (R443): the timing class at whose frame starts its active edges fall, none: at the epoch seconds; whether
the active edge falls; and its width in u. -/
structure Pulse where
  cls : Option Nat := none
  falling : Bool := false
  width : Nat := 0
  deriving DecidableEq, Repr

/-- How a clock output is driven (R443): electrical mode; held at its idle level; source, the synthesizer itself for those of the
lead's plane, 8 XB, 9 PULSE; divider, and VCO periods of each cycle that are high; and the pulses of source 9. -/
structure CkoDrive where
  mode : Nat := 0
  idle : Bool := false
  src : Nat := 0
  div : Nat := 0
  high : Nat := 0
  pulse : Option Pulse := none
  deriving DecidableEq, Repr

/-- What the device puts out at a step, in the order of its happening. -/
inductive Emission where
  | hostWrite (p : Port) (addr : Nat) (data : List Byte)             -- a write into host memory
  | hostRead (p : Port) (addr : Nat) (len : Nat)                     -- a read request to host memory
  | msix (p : Port) (vector : Nat) (addr : Nat) (data : Nat)         -- an MSI-X message (R281)
  | lane (n : Nat) (set : LaneSet)                                   -- control sets on EL n
  | breeze (n : Nat) (words : List (List Byte))                      -- a Breeze message: its BRZ words (Tables 4-10, 4-11)
  | parcel (n : Nat) (pos : Nat) (hdr : List Byte) (body : List Word)  -- a parcel on EL n at a slot position
  | cmxResp (master : Nat) (tag : Nat) (seg : Nat) (code : Nat) (data : List Byte)  -- a segment response (R457)
  | hostCompletion (p : Port) (tag : Nat) (status : Nat)             -- a completed inbound read: 0 success, 1 UR, 4 CA (R463)
  | smbus (bytes : List Byte)                                        -- bytes returned on SMB_DAT (R548)
  | jtag (bits : List Bool)                                          -- bits shifted out of TDO (R550)
  | pins (levels : List Bool)                                        -- balls driven from the boundary register (R550)
  | diagclk (drive : Option (Nat × Nat × Nat))                       -- DIAGCLK: source, index and divider exponent, or undriven (R450)
  | cko (c : Nat) (drive : Option CkoDrive)                          -- clock output c is driven anew, or undriven (R443, R446)
  | lockPin (p : Plane) (low : Option Nat)                           -- a lock pin is low for that time, in u, of each 10 us, or released (R445)
  | lockPins (released : Bool)                                       -- LOCKA and LOCKB released or driven (R445, R446)
  | alert (low : Bool)                                               -- ALERT_N (Table 17-5)
  | gpio (drive : List (Option Bool)) (pulls : Word)                 -- GPIO balls, none: not driven, and their pulls (R549, R551, R555)
  deriving DecidableEq, Repr

/-! ### Events, causes and folds (chapter 12) -/

/-- One record of an event source that waits for its gather or for the rate limit (R410, R412). -/
structure EvWait where
  code : Nat := 0
  cnt : Nat := 1                    -- the record's count (Table 12-4)
  a0 : Nat := 0
  a1 : Nat := 0
  occ : Nat := 1                    -- occurrences the record represents
  merged : Bool := false
  time : Nat := 0                   -- 48-bit occurrence time (Table 12-3)
  gatherEnd : Option Nat := none    -- instant the gather ends; none: over, or none needed
  covers : List Nat := []           -- sources of the causes that covered it so far
  due : Duo Bool := ⟨true, true⟩    -- ports still due the record
  deriving DecidableEq, Repr

/-- One event source (R410): its last record and the records that wait. -/
structure EvSrc where
  last : Option Nat := none
  wait : List EvWait := []
  deriving DecidableEq, Repr

/-- A cause (R413): active, or ended and kept until its source sets the next one. -/
structure Cause where
  src : Nat := 0
  code : Nat := 0
  id : Nat := 0
  active : Bool := true
  cond : Bool := true               -- its condition holds (false: the settle runs, R415)
  endAt : Nat := 0                  -- instant its condition ended
  time : Nat := 0
  parent : Nat := 0                 -- cause id named in arg1 (R414)
  codes : List Nat := []            -- a Squall's covered codes in order (R417)
  maps : Duo (List Nat) := ⟨[], []⟩ -- fold map per port: sources folded
  folded : Duo Nat := ⟨0, 0⟩        -- occurrences folded per port
  dirty : Duo Bool := ⟨false, false⟩ -- map changed since the slot was written
  slotAt : Duo Nat := ⟨0, 0⟩        -- instant of the last writing of the slot
  deriving DecidableEq, Repr

/-- A cause record that waits for ring space on a port: its cause slot (R421). -/
structure CauseRec where
  src : Nat := 0
  code : Nat := 0
  clear : Bool := false
  id : Nat := 0
  count : Nat := 1
  a0 : Nat := 0
  a1 : Nat := 0
  time : Nat := 0
  deriving DecidableEq, Repr

/-- The event unit. -/
structure EventUnit where
  srcs : Tbl EvSrc := []                        -- event sources by number (R405, R410)
  causes : List Cause := []                     -- causes in the order of their setting (R413)
  lastId : Nat := 0                             -- last cause id assigned (R409)
  recent : List (Nat × Nat × Nat) := []         -- (instant, code, source) of uncovered foldable occurrences of the last 1 ms (R417)
  squallLast : Nat := 0                         -- instant of the last uncovered occurrence of a Squall's codes (R417)
  waits : Duo (List CauseRec) := ⟨[], []⟩       -- cause slots of each port (R421)
  deriving DecidableEq, Repr

/-! ### Clocks (chapter 13) -/

/-- The clock unit beyond its registers. -/
structure ClkUnit where
  xaMon : Bool := false                         -- the XA monitor runs (R429)
  xaFailed : Bool := false                      -- XA has failed since it was last usable (R430)
  xbOut : Nat := 0                              -- consecutive XB windows outside tol while qualified (R432)
  xbOffset : Int := 0                           -- XB offset in the last passing window, 0.001 ppm (R435)
  refAtSafe : List Nat := []                    -- inputs qualified at safe-state entry and not lost since (R431)
  lsReturn : Duo Bool := ⟨false, false⟩         -- a lane synthesizer coasts to return to XA (R435)
  lsLockLost : Duo Bool := ⟨false, false⟩       -- a lane synthesizer coasts for its own loss of lock (R436)
  ratio : Tbl Nat := []                         -- present frequency of each ramped loop in Hz; unlisted: 2,800,000,000 (R442)
  ramping : List Nat := [0, 1, 2, 3, 4, 5, 6, 7] -- loops whose consumers are gated until the final ratio locks (R442)
  syn5 : Nat × Nat × Nat := (19, 1, 5)          -- SYN5's N, F, M in force (R438)
  eps : Tbl Int := []                           -- steering of each synthesizer in 2^-48 (R439)
  lfsr : Tbl Nat := []                          -- dither LFSR of each synthesizer (R440)
  ckoCfg : Tbl Nat := []                        -- CLK_CKO_CFG in force per output (R443)
  ckoDiv : Tbl Nat := []                        -- CLK_CKO_DIV in force per output (R443)
  ckoSync : Tbl Nat := []                       -- instant of the last SYNCIN divider reset per output (R444)
  omRef : Plane := .a                           -- the lane synthesizer that OM, SYN4 and SYN5 take (R434, R436)
  triggers : List Nat := []                     -- safe-state triggers that stand (R446, R533)
  diag : Option (Nat × Nat × Nat) := none       -- what DIAGCLK is driven from: source, index, divider exponent; none: undriven (R450)
  lockE : Duo Nat := ⟨65536000, 65536000⟩       -- 1 us x e of each lock pin, in u (R445)
  pins : Duo (Option Nat) := ⟨none, none⟩       -- how long each lock pin is low in each 10 us, in u; none: released (R445)
  cko : Tbl (Option CkoDrive) := []             -- how each clock output is driven; none: undriven (R443)
  xaFrom : Nat := 0                             -- instant since which the XA monitor may have passed without a break (R429, R430)
  xbWinAt : Nat := 0                            -- start of the XB window that runs (R431)
  lsCoastAt : Duo Nat := ⟨0, 0⟩                 -- instant at which each lane synthesizer began to coast (R435, R436)
  synLostAt : Tbl Nat := []                     -- instant at which each synthesizer last lost lock (R441)
  safeAt : Nat := 0                             -- instant at which the safe state was entered (R447)
  deriving DecidableEq, Repr

/-! ### Timebases (chapter 2) -/

/-- One timebase: epoch counter and DPLL. -/
structure Timebase where
  epoch : Nat := 0                              -- epoch counter in u = 2^-16 ns: sec, ns and frac (R39)
  buildout : Int := 0                           -- build-out in u (R81)
  ctl : Int := 0                                -- frequency control, 10^-9 ppm (R439)
  hist : List (Nat × Int) := []                 -- control values with their instants, newest first (R64)
  phase : Int := 0                              -- phase error of the last update, in u
  ctlAt : Nat := 0                              -- instant from which the limit of R66 counts: that of the last control value, or of entering ACQUIRING
  prev : Option Int := none                     -- phase error of the update before, where one was taken (R63)
  critFrom : Option Nat := none                 -- since when the LOCKED criteria hold (Table 2-5)
  stepNext : Bool := false                      -- the next phase update is treated as a phase step (R448)
  deriving DecidableEq, Repr

/-- One timing input of Table 2-4 (REFIN0-REFIN3, REFV as 4). -/
structure RefIn where
  qual : Nat := 0                               -- 0 absent, 1 qualifying, 2 qualified, 3 disqualified (Table 7-21)
  samples : List Int := []                      -- last 16 accepted samples, newest first, 0.001 ppm (R67)
  run : Nat := 0                                -- consecutive accepted samples since the last loss or outlier (R69)
  outRun : Nat := 0                             -- consecutive outliers (R68)
  outliers : Nat := 0                           -- outliers counted, 16 bits saturating (R68)
  avgs : List (Nat × Int) := []                 -- averages of the last 60 s with their instants, newest first (R71)
  since : Nat := 0                              -- instant of the last change of the input's state (R75)
  softOut : Bool := false                       -- the average is outside the soft window (R71)
  drifting : Bool := false                      -- the slope exceeds 0.1 ppm/min (R71)
  deriving DecidableEq, Repr

/-- The timing unit beyond its registers. -/
structure TimingUnit where
  tb : Duo Timebase := ⟨{}, {}⟩                 -- Timebase A, Timebase B (R39)
  running : Bool := false                       -- the epoch counters run (R41, R447)
  slewRem : Nat := 0                            -- fraction of a slew step not yet taken (R83)
  timeSlew : Int := 0                           -- what a late TIME_SET has still to slew, in u (R94)
  inputs : Tbl RefIn := []                      -- timing inputs by index (Table 2-4)
  ppsLost : Bool := false                       -- PPSIN shows missing edges (R57)
  refvFrom : Nat := 0                           -- instant of the later of REFV's enabling and its last accepted sample (R60)
  refvOff : Option Int := none                  -- REFV's phase by its last accepted sample: PTP time less the epoch counter, in u (R58)
  everSel : Bool := false                       -- an input has been selected since reset (R86)
  sees : List Nat := []                         -- inputs whose eligibility has persisted for the hold-off (R75)
  jumpOpen : Bool := true                       -- the start jump may still be taken (R91, R94)
  clsNow : Tbl Nat := []                        -- TB_CLASS in force for switch line, field and lead (R50)
  clsPend : Tbl (List (Nat × Nat)) := []        -- changes of a class that wait, oldest first: frame start, in epoch u, and parameters (R50)
  pmAt : Option Nat := none                     -- instant of the priority manager's last selection change (R75)
  deriving DecidableEq, Repr

/-! ### Start-up, supplies and pins (chapters 17 and 18) -/

/-- The thermal monitor (R531, R532). -/
structure Therm where
  alert : Bool := false                         -- ALERT_N is driven low
  step : Bool := false                          -- profiles are stepped down
  safe : Bool := false                          -- 120 C has been reached and the step not left
  below95 : Option Nat := none                  -- since when Tj has read below 95 C
  below105 : Option Nat := none                 -- and below 105 C
  at' : Nat := 0                                -- instant of the last reading
  deriving DecidableEq, Repr

/-- Start-up, reset, supplies, heat and pins beyond their registers. -/
structure StartUnit where
  t0 : Nat := 0                                 -- instant of t0 (R521)
  booted : Bool := false                        -- start-up has begun (R523)
  supplied : Bool := false                      -- t0 has passed and no brown-out since (R521, R522)
  bootDue : Bool := false                       -- start-up waits to read the Larder (R478)
  readyAt : Nat := 0                            -- instant of t_READY (R524)
  resetLow : Bool := false                      -- RESET_N holds the device in reset (R546)
  pack : List Byte := []                        -- header and profile table of the profile pack loaded (R378)
  railOut : List Nat := []                      -- rails now outside their windows (R522)
  railAt : Tbl Nat := []                        -- and the instant at which each had been so for 2 us
  shadow : List (Nat × Nat × List Byte) := []   -- replayed journal: type, key, entry (R489)
  boundary : List Bool := []                    -- boundary register (R550)
  tap : Nat := 1                                -- TAP instruction: 0 EXTEST, 1 IDCODE, 2 SAMPLE/PRELOAD, 3 BYPASS (R550)
  therm : Therm := {}                           -- the thermal monitor (R531)
  smbBytes : List Byte := []                    -- bytes of the last Block Read (R548)
  deriving DecidableEq, Repr
/-! ### Host ports, rings and salvos (chapters 7 and 8) -/

/-- Pages, tokens and half units of one plane: a ring's holdings (R324) or an amount secured. -/
structure Amount where
  pages : Nat := 0
  tokens : Nat := 0
  units : Nat := 0
  deriving DecidableEq, Repr

/-- How far an item has come. -/
inductive ItemPhase where
  | fetched      -- arrived, not yet in the delivery order (R266, R283)
  | delivered    -- delivered, not yet secured; a standalone item being validated (R268)
  | waiting      -- waits for CCT entries read on a Coolbox miss (R314)
  | secured      -- a salvo that holds every resource it needs (R272)
  | latched      -- latched for its switch point (R275)
  | acting       -- a standalone item whose action has begun (R256)
  | done         -- its outcome is decided; the completion is due (R292)
  deriving DecidableEq, Repr

/-- One frame buffer of a channel (R332): the input frame it holds. -/
structure Buf where
  n : Nat := 0                      -- input frame number on the source's grid (R186)
  cnt : Nat := 0                    -- frame count carried by the parcels (R360)
  lines : List Nat := []            -- lines committed so far: line + 4096 x member + 16384 x black + 32768 x abort
  complete : Option Nat := none     -- completion instant of the frame, epoch u (R332)
  field1 : Option Nat := none       -- completion instant of field 1 (R358)
  begun : Nat := 0                  -- arrival of the line that began it
  endAt : Nat := 0                  -- latest arrival of a member's last line
  fldAt : Nat := 0                  -- latest arrival of a member's last line of field 1
  anc : List (Nat × List Word) := []          -- ANC records stored: members * 4096 + line, words (R331)
  aud : List (Nat × Nat × Nat × Word) := []   -- samples stored: member, channel, sample index, sample word (R382)
  deriving DecidableEq, Repr

/-- What a reader of a channel shows (R333, R363). -/
structure Reader where
  sel : Option Nat := none          -- frame-sync: completion instant of the frame held; conversion: channel frame
  buf : Nat := 0                    -- frame buffer held
  reps : Nat := 0                   -- consecutive repeats (R336)
  black : Bool := true              -- its lines are built as missed lines (R336, R363)
  n : Nat := 0                      -- input frame number of the frame shown
  field : Nat := 0                  -- field of the unit shown
  at' : Option Nat := none          -- output frame for which it has selected
  deriving DecidableEq, Repr

/-- How a conversion channel's frame of the last pacing instants stands. -/
inductive ChFrame where
  | fill | missing | aborted | computed
  deriving DecidableEq, Repr

/-- An engine's band of a channel frame (R347). -/
structure Band where
  engine : Nat := 0                 -- local engine
  first : Nat := 0                  -- its first active line, of the output picture
  lines : Nat := 0                  -- its active lines
  overlap : Nat := 0                -- rows read above and below it
  deriving DecidableEq, Repr

/-- A channel frame of a conversion channel (R359-R361). -/
structure Frame where
  j : Nat := 0
  state : ChFrame := .fill
  tagCnt : Nat := 0                 -- channel tag: frame count (R360)
  tagField : Nat := 0
  tagPhase : Nat := 0
  unitN : Nat := 0                  -- input frame number of the unit shown
  unitField : Nat := 0
  inputs : List Nat := []           -- what its computation reads (R365)
  anc : List (Nat × List Word) := []  -- records the pass list carries: 4096 x member + output line, record (R371)
  caption : Option (List Nat) := none -- caption packet it sends, empty with no new data; none: no packet (R371)
  atc : Option (Bool × List Nat) := none -- its ATC: the field identification flag, the packet of the unit shown (R371)
  afd : Option (Nat × Bool) := none -- its AFD: code and aspect bit (R371)
  cct : List Byte := []             -- the parameters in force at its pacing instant (R366)
  lut : List Byte := []             -- the LUT in the engines' local stores; none: the identity (R368, R369)
  bands : List Band := []           -- its division among the channel's engines (R347)
  deriving DecidableEq, Repr

/-- An owner of Hamper pages on a plane: a frame-sync channel, a conversion channel or an overlay set. -/
structure Owner where
  isOpen : Bool := false
  closing : Bool := false           -- closed; its resources return at the end of the switch line (R326)
  closeAt : Nat := 0                -- epoch instant of that end
  fmtIn : Nat := 0                  -- channel format; input format of a conversion
  fmtOut : Nat := 0
  src : Nat := 0                    -- source input slot
  profile : Nat := 0                -- profile code (Table 10-1)
  cct : List Byte := []             -- fields in force, the CCT entry last taken into force (R313)
  cctNext : Option (List Byte) := none -- contents that take effect at the next frame start or pacing instant (R312, R366)
  depth : Nat := 0                  -- frame buffers (R331), output buffers are fmtOut's
  need : Nat := 0                   -- pages its layout requires
  owned : Nat := 0                  -- pages in state 1
  reserved : Nat := 0               -- pages in state 2
  minPages : Nat := 0
  maxPages : Nat := 0
  tokens : Nat := 0
  units : Nat := 0                  -- half units held
  ctx : Bool := false               -- holds a channel context
  pair : Bool := false              -- plane B of a mirrored pair: its CCT entry is that of id - 96 (R355)
  stale : Bool := false             -- overlay set stale on the plane (R569)
  -- frame stores
  bufs : Tbl Buf := []              -- input frame buffers
  writing : Option Nat := none      -- buffer being written
  newest : Option Nat := none       -- newest complete buffer
  drops : Nat := 0
  repeats : Nat := 0
  -- conversion
  e : Nat := 0                      -- first channel frame after the opening or re-establishment (R361)
  startDue : Bool := false          -- its channel frames start at the next pacing instant (R353)
  aborted : Bool := false           -- aborted, to be re-established (R374)
  waiting : Bool := false           -- waits for units (R374)
  stepped : Bool := false           -- thermal step applies (R377)
  anchor : Option (Nat × Nat × Nat × Nat) := none -- frame number, field, frame count, completion instant (R359)
  reps : Nat := 0                   -- consecutive repeats of the anchor
  frames : List Frame := []         -- channel frames, newest first, at most four kept
  made : Nat := 0                   -- channel frames computed, saturating
  aborts : Nat := 0
  ancOver : Nat := 0
  lutDue : Bool := false            -- the LUT is reloaded at the next pacing instant (R369)
  lut : List Byte := []             -- the LUT its engines hold (R369)
  openAt : Nat := 0                 -- epoch instant of its opening (R353)
  hold : Nat := 0                   -- hold_frames of its source's entry (R359)
  holdNext : Option Nat := none     -- and what it becomes at the next pacing instant (R312)
  heard : List (Nat × Nat × Nat × Nat) := [] -- a PX_ASRC channel's input: channel, index, sample word, arrival instant (R394)
  motionFrom : Nat := 0             -- no unit that completed earlier counts as history (R377)
  captions : List (List Nat) := []  -- caption packets queued, oldest first (R371)
  pub : Word := 0#32                -- HAM_SYNC_STATE or GE_CC_STATE as last updated (R343, R380)
  engines : List Nat := []          -- local engines that carry it, whole (R346)
  half : Option Nat := none         -- local engine that carries its half load (R346)
  cost : Nat := 0                   -- cost in half units (R349)
  credit : Amount := {}             -- what a salvo that closes it passes on to its openings (R326)
  rest : Bool := false              -- re-established, or reopened by a restart (R236)
  opened : List Byte := []          -- the CCT entry it was opened with (Table 15-4)
  got : Tbl Nat := []               -- arrival instant of the last line taken of each member, plus 1
  deriving DecidableEq, Repr

/-- What a salvo's opening has secured on one plane (R325). -/
structure Alloc where
  plane : Plane := .a
  id : Nat := 0                     -- CCT id of the channel or set
  amount : Amount := {}
  ctx : Nat := 0                    -- channel contexts
  ctxCredit : Nat := 0              -- those passed on by closings of the salvo (R326)
  fromHold : Amount := {}           -- the part drawn on the ring's holdings
  fromCredit : Amount := {}         -- the part passed on by closings of the salvo (R326)
  entry : Nat := 0                  -- the entry that opens it
  owner : Owner := {}               -- the channel as it opens: the fields its entry was validated with (R313)
  deriving DecidableEq, Repr

/-- The path of a destination (Table 11-3). -/
inductive APath where
  | line
  | frame (slot : Nat)              -- the frame-sync channel read
  | chan (id : Nat)                 -- the channel the output scans
  | asrc (k : Nat)                  -- local context of the PX_ASRC channel
  | silent
  deriving DecidableEq, Repr

/-- An item of a Salvo Ring (R265). -/
structure Item where
  idx : Nat := 0                    -- ring index of its first descriptor
  slots : Nat := 1                  -- ring slots it occupies
  descs : List (List Byte) := []    -- its descriptors, 64 bytes each
  arrive : Nat := 0                 -- instant of arrival (R266)
  arrFrame : Nat := 0               -- the class's epoch frame at arrival (R269)
  seq : Nat := 0                    -- place in the delivery order (R283); 0: not delivered
  phase : ItemPhase := .fetched
  cur : Nat := 0                    -- descriptors judged so far by commands of their own
  status : Nat := 0                 -- completion status (Table 7-18)
  entry : Nat := 0                  -- failing entry (Table 7-17)
  authDesc : Bool := false
  authOk : Bool := false
  target : Nat := 0                 -- epoch frame of the first target switch point (R273, R274)
  tries : Nat := 0                  -- switch points missed so far
  frame : Nat := 0                  -- epoch frame at whose switch point it applied or would have
  late : Bool := false
  deferred : Bool := false
  stamp : Nat := 0                  -- sequence stamp (R284); 0: none
  latchAt : Nat := 0                -- instant of its latching
  begun : Bool := false             -- its switch point has come
  landed : List Nat := []           -- entries that have landed
  applied : Duo Bool := ⟨false, false⟩
  need : List Nat := []             -- CCT ids whose reads are outstanding (R314)
  ccts : List (Nat × List Byte) := [] -- contents of its CCT_SYNC entries (R315)
  secAt : Nat := 0                  -- instant it was secured (R275)
  allocs : List Alloc := []         -- what its openings secured
  closes : List Alloc := []         -- its closings, with what each passes on as credit (R325, R326)
  results : List (Nat × List Byte) := [] -- holdings after its RESERVE and RELEASE entries: entry, result (R567)
  recorded : Bool := false          -- its take records have been written (R279, R515)
  standing : List Nat := []         -- outputs whose raster change is still to come (R240)
  tiedOuts : List Nat := []         -- outputs whose takes the salvo's own raster changes carry (R240)
  changeEnd : Nat := 0              -- end of the first line of the last of those new rasters, epoch u (R277)
  line : Nat := 0                   -- the class's switch line at its latching (R50)
  point : Nat := 0                  -- the epoch instant of the switch point for which it latched (R50, R95)
  paths : List (Nat × Nat × APath) := [] -- destination, plane and path of each audio entry, judged as it latched (R389)
  early : List (Nat × Nat × Nat) := [] -- entry, output and plane of what a line's reading has landed (R198, R245)
  deriving DecidableEq, Repr

/-- A Salvo Ring (R253). -/
structure SvRing where
  pi : Nat := 0                     -- producer index last read (Table 7-1)
  fetch : Nat := 0                  -- index of the next descriptor to fetch
  resumeIdx : Nat := 0              -- resume_index last read
  resumeGen : Nat := 0              -- resume_gen last read
  stallGen : Nat := 0               -- resume_gen at the stall (R263)
  starting : Bool := false          -- enabled, and the Doorbell read that starts it is still to come (R255)
  head : List Byte := []            -- a header read whose other slots svr_pi does not cover yet (R266)
  blocked : Bool := false           -- a stalling failure is decided; nothing is fetched until the resume (R294)
  items : List Item := []           -- items fetched and not completed, in ring order
  hold : Duo Amount := ⟨{}, {}⟩     -- holdings (R324)
  key : Option (Nat × List Byte) := none  -- ring key: generation and 32 bytes (R512)
  keyGens : Nat := 0                -- agreements on the ring since reset (R512)
  pos : Int := 0                    -- slots the consumer index has advanced since the key was agreed (R514)
  deriving DecidableEq, Repr

/-- A completion that waits for space in its Completion Ring (R280): its record without phase, and what its
posting does to the Salvo Ring. -/
structure Held where
  svr : Nat := 0
  bytes : List Byte := []
  newCi : Nat := 0
  stall : Bool := false
  deriving DecidableEq, Repr

/-- A record ring beyond its registers (R254, R278). -/
structure RecSt where
  ci : Nat := 0                     -- consumer index last read
  modPend : Bool := false           -- a record waits for its MSI-X announcement (R281)
  lost : Nat := 0                   -- records lost since the previous OVERFLOW (R421)
  pend : List Nat := []             -- pending map: sources (R421)
  gen : Nat := 0                    -- generation of the pending map's last writing (Table 12-6)
  held : List Held := []            -- completions held in order (R280)
  heldAsr : List (List Byte) := []  -- As-Run records held in order (R518)
  deriving DecidableEq, Repr

/-- A host port beyond its registers. -/
structure PortSt where
  linkUp : Bool := true             -- PCIe link in L0 or a low-power state (R303)
  bme : Bool := true                -- Bus Master Enable (R303)
  perst : Bool := false             -- HPx_PERST_N held low (R547)
  answers : Bool := false           -- answers configuration requests (Table 17-2, R547)
  reading : Bool := false           -- a Doorbell read is outstanding (R259)
  sweepDue : Bool := false          -- a latch sweep waits for the outstanding read (R260)
  probing : Bool := false           -- a probe is outstanding (R305)
  fails : Nat := 0                  -- consecutive Doorbell reads failed (R303)
  polls : Nat := 0                  -- Doorbell reads completed modulo 2^32 (Table 7-1)
  dirty : Bool := false             -- svr_ci or stalled changed since the last writeback (R261)
  turn : Nat := 0                   -- ring served last by the fetch unit (R267)
  cctReads : List Nat := []         -- CCT reads outstanding (R314)
  fnMask : Bool := false            -- MSI-X Function Mask (R281)
  msix : Tbl Nat := []              -- MSI-X table words; unlisted: vector control 1, others 0 (R251)
  pba : List Nat := []              -- MSI-X pending bits (R251)
  wvGen : Nat := 0                  -- Weathervane generation (R282)
  slotGen : Tbl Nat := []           -- generation of each fold slot's last writing (Table 12-6)
  asrSeq : Nat := 0                 -- As-Run records written since the ring was enabled (R515)
  asrHash : List Byte := []         -- As-Run chain value (R515)
  asrSince : Nat := 0               -- records since the last checkpoint (R517)
  asrAt : Nat := 0                  -- instant of the last checkpoint (R517)
  resumed : Bool := false           -- a port loss has ended; the checkpoint of the first poll is due (R517)
  deriving DecidableEq, Repr

/-! ### Planes: Line Exchange, Hamper, engines, Audio Exchange (chapters 5, 8, 9, 10, 11) -/

/-- A route: kind, source slot, channel (Table 5-6). -/
structure Route where
  kind : Nat := 0
  src : Nat := 0
  chan : Nat := 0
  deriving DecidableEq, Repr

/-- A pending crosspoint entry: the route, and the class, epoch frame and switch line at which it lands (R50, R198, R211). -/
structure Pending where
  route : Route := {}
  frame : Nat := 0
  cls : Nat := 0
  line : Nat := 0
  deriving DecidableEq, Repr

/-- A TAKE_VIDEO whose plane mode lands (R29, R229). -/
structure ModeTake where
  frame : Nat := 0
  cls : Nat := 0
  line : Nat := 0
  unrouted : Bool := false          -- the output was unrouted before, and the take routes it
  desc : List Byte := []
  deriving DecidableEq, Repr

/-- A palette load that waits for its switch point (R249). -/
structure PalLoad where
  at' : Nat := 0                    -- epoch instant of that switch point
  ps : Nat := 0
  bytes : List Byte := []
  deriving DecidableEq, Repr

/-- Overlay state of an output (R245). -/
structure Overlay where
  enable : Bool := false
  bpp : Nat := 0                    -- code of Table 7-9
  set : Nat := 0
  ps : Nat := 0
  x0 : Nat := 0
  y0 : Nat := 0
  width : Nat := 0
  height : Nat := 0
  stride : Nat := 0
  addr : Nat := 0
  deriving DecidableEq, Repr

/-- An Audio Map entry (Table 11-2); the default is that of R386. -/
structure AEntry where
  src : Nat := 0x7FFF
  mute : Bool := false
  invert : Bool := false
  gain : Nat := 0x2000
  xfade : Nat := 256
  deriving DecidableEq, Repr

/-- One contribution to a destination: entry, path and path shift; none: not yet selected (R392). -/
structure Contrib where
  entry : AEntry := {}
  path : APath := .silent
  delta : Option Int := none
  deriving DecidableEq, Repr

/-- A destination channel on a plane: its contribution and a running crossfade (R396). -/
structure Dest where
  now : Contrib := {}
  old : Option Contrib := none      -- the contribution faded out
  ksw : Int := 0                    -- first sample slot of the crossfade
  len : Nat := 0                    -- crossfade length
  begin : Nat := 0                  -- epoch instant at which the crossfade began, in u (R233)
  prior : Option (Contrib × Option Contrib × Int × Nat) := none -- contributions and crossfade in force before slot ksw (R397)
  block : Int := 0                  -- sample slot at which the last channel-status block began (R403)
  deriving DecidableEq, Repr

/-- One line unit of a slot buffer (R180): the tag, and the parcel's content. -/
structure Unit' where
  line : Nat := 0
  fmt : Nat := 0
  arrive : Nat := 0                 -- arrival instant on the lead timebase, in u (R146)
  delay : Nat := 0                  -- ingress delay in force at its commit, ns (R312)
  hdr : List Byte := []
  video : List Word := []
  anc : List Word := []
  aud : List (Nat × Nat × Word) := [] -- samples: channel, 48 kHz index, sample word with the class in [31:28] (R382, R384)
  deriving DecidableEq, Repr

/-- A slot buffer (R180): its units, newest first; gated while no parcels arrive (R36). -/
structure SlotBuf where
  units : List Unit' := []
  gated : Bool := true
  deriving DecidableEq, Repr

/-- A Gust engine (Table 10-11). -/
structure Engine where
  state : Nat := 0                  -- 0 idle, 1 running, 2 under test, 3 disabled
  loads : List Nat := []            -- CCT ids of its loads
  watchdog : Nat := 0
  ctrlErr : Nat := 0
  bands : Nat := 0
  faults : List Nat := []           -- instants of its faults of the last hour (R375)
  pub : Word := 0#32                -- GE_ENG_STATE as last updated (R380)
  deriving DecidableEq, Repr

/-- A copy of a line in the staging buffer (R222). -/
structure Copy where
  frame : Nat := 0                  -- output frame
  line : Nat := 0
  hdr : List Byte := []
  body : List Word := []
  deriving DecidableEq, Repr

/-- An output slot in one plane. -/
structure OutPlane where
  active : Route := {}              -- active crosspoint entry (R211)
  pend : Option Pending := none     -- pending crosspoint entry (R211)
  next : Option Pending := none     -- an entry latched behind the pending one (Table 5-7)
  ovl : Overlay := {}               -- overlay state (R245)
  hb : Nat := 0                     -- heartbeat of the last copy built, modulo 8 (R223)
  started : Bool := false           -- a copy has been built since the generator started
  under : Bool := false             -- the rest of the frame is built missed (R238)
  ovlUnder : Bool := false          -- the overlay is transparent for the rest of the frame (R239)
  reader : Reader := {}
  swNext : Bool := false            -- the next line carries sw = 1 (R200)
  waitCopy : Bool := false          -- not yet copied in by a joining plane (R301)
  staged : Option Copy := none      -- copy in the staging buffer (R222)
  lastHb : Option Nat := none       -- heartbeat of the plane's last copy seen by the selector (R225)
  run : Nat := 8                    -- consecutive copies in sequence since a break (R225)
  goodHb : Nat := 0                 -- last good heartbeat (R228)
  good : Bool := false              -- the copy of the last line was good
  clean : Bool := false
  eqv : Bool := false               -- conditions 1 to 4 of R233 hold
  eqFrom : Option Nat := none       -- output frame in which conditions 1 to 3 began to hold; none: they do not
  eqStart : Option Nat := none      -- epoch instant of the first frame start since (R233 condition 4)
  realign : Option Nat := none      -- output frame at whose switch line one salvo closed and opened its channel (R237)
  aconv : Nat := 0                  -- output frames of equal tags of the PX_ASRC channels its audio reads (R236)
  tsFrame : Option Nat := none      -- output frame whose first audio block has been built (R167)
  conv : Nat := 0                   -- output frames with equal channel tags (R236)
  frameNo : Option Nat := none      -- output frame whose start has been taken
  aread : Tbl Reader := []          -- audio readers of frame-sync channels, by CCT id (R392)
  deriving DecidableEq, Repr

/-- A plane beyond its registers and outputs. -/
structure PlaneSt where
  faultAt : Nat := 0                -- instant of the fault (R296)
  autoOk : Bool := true             -- every cause since FAULTED allows automatic restart (R296)
  autos : List Nat := []            -- instants of automatic restarts of the last hour (R300)
  joinAt : Nat := 0                 -- join instant J (R301), device clock
  joinEp : Nat := 0                 -- and on the epoch
  training : Bool := false          -- the Hamper stack trains (R320)
  slots : Tbl SlotBuf := []         -- slot buffers (R180)
  dests : Tbl Dest := []            -- destination channels (R385)
  pals : Tbl (List Byte) := []      -- palette sets, 2 KiB each; unlisted: zeros (R249)
  palPend : List PalLoad := []      -- palette loads that land (R249)
  was : Tbl Owner := []             -- channels that a return of the plane reopens: open at its restart, or opened since (R301)
  owners : Tbl Owner := []          -- Hamper owners by CCT id (R317)
  engines : Tbl Engine := []        -- local engines (R344)
  coolbox : List Nat := []          -- CCT ids cached, most recently used first (R313)
  stackCause : Nat := 0             -- cause id of the last Hamper stack fault (Table 12-10)
  hamAborts : Nat := 0              -- Hamper aborts, 32 bits saturating (Table 9-9)
  pmCorrected : Nat := 0            -- corrected Page Map errors, 32 bits saturating (Table 9-9)
  deriving DecidableEq, Repr

/-- A raster: class, format code and offset (R216). -/
structure Raster where
  cls : Nat := 0
  fmt : Nat := 0
  off : Int := 0                    -- signed ns
  deriving DecidableEq, Repr

/-- A raster change that waits (R240). -/
structure RasterChange where
  dst : Option Raster := none        -- none: declassed
  frame : Nat := 0                  -- frame of the old class that contains the salvo's switch line
  startAt : Nat := 0                -- epoch instant at which the new raster starts, in u
  last : Nat := 0                   -- last frame of the old raster (R241, R242)
  takes : List (List Byte) := []    -- the salvo's takes for the output, which apply with it (R240)
  stamp : Nat := 0
  deriving DecidableEq, Repr

/-- An output slot's shared state: raster, plane mode and selector. -/
structure Out where
  raster : Option Raster := none    -- none: the output has no class (R218)
  change : Option RasterChange := none
  mode : Nat := 0                   -- 0 mirrored, 1 single-plane A, 2 single-plane B (R24)
  changeNext : Option RasterChange := none -- one latched behind it (R244)
  modePend : List ModeTake := []    -- takes whose plane modes land, in the order of their stamps (R29, R229)
  preferred : Plane := .a
  serving : Plane := .a
  moveTo : Bool := false            -- selection moves to the preferred plane when it may (R230)
  wtrRun : Nat := 0                 -- frames of good, clean, equivalent copies of the preferred plane (R231)
  wtrOk : Bool := true
  pl : Duo OutPlane := ⟨{}, {}⟩
  frame : Nat := 0                  -- flywheel: frame of the last line decided (R224)
  line : Nat := 0                   -- flywheel: line last decided; 0: none yet
  fillNow : Bool := false           -- the last line sent was a fill parcel
  fills : Nat := 0                  -- fill parcels of the output
  failovers : Nat := 0
  pub : Word := 0#32                -- SEL_OUT_STATE as last updated (R250)
  abortsNow : Nat := 0              -- lines sent with abort = 1 in the current frame
  abortsLast : Nat := 0             -- and in the last frame
  firstLine : Bool := false         -- the next parcel is the first of a new raster (R243)
  doneDue : Option (Nat × Nat) := none -- FRAME_DONE to come: the end of the frame's last line, and its count (R221)
  cct : Nat := 0                    -- form, tally and ev_en in force: byte 4 of the CCT entry (Table 9-2)
  matchLine : Nat := 0              -- match_line in force
  cctNext : Option (Nat × Nat) := none -- those that take effect at the next frame start (R312)
  jump : Option (Int × Nat) := none -- the start jump's size, in u, and the frame that ends on the old grid (R92)
  after : Nat := 0                  -- epoch instant before which no frame of the raster starts (R92, R218, R241, R242)
  deriving DecidableEq, Repr

/-! ### Inputs and lanes (chapters 3, 4, 5) -/

/-- A received parcel that has passed its checks, held until it is taken (R208) or committed. -/
structure Held' where
  n : Nat := 0                      -- pair it came on
  at' : Nat := 0                    -- instant its EOP arrived
  hdr : List Byte := []
  body : List Word := []
  deriving DecidableEq, Repr

/-- Offsets of the parcels of one frame (R186), in u. -/
structure Acc where
  count : Nat := 0
  sum : Int := 0
  min : Int := 0
  max : Int := 0
  rtp : Option Int := none          -- rtp_delta of the frame (R189)
  deriving DecidableEq, Repr

/-- The input timing monitor of a slot (R186-R189). -/
structure Monitor where
  grid : Option (Nat × Nat) := none -- rate code and line count of the grid
  frame : Nat := 0                  -- first frame of that grid not yet published
  fmt : Nat := 0                    -- format code at the last publication (R391)
  accs : Tbl Acc := []              -- frames not yet published
  missed : List Nat := []           -- lines missed on timed routes since the last publication (R194)
  lo : Int := 0                     -- minimum of the last published frame, in u (R188)
  hi : Int := 0                     -- and its maximum
  deriving DecidableEq, Repr

/-- One audio channel of an input slot (R382, R384). -/
structure AudCh where
  frame : Nat := 0                  -- input frame of the last sample
  m : Nat := 0                      -- samples of that frame so far
  next : Option Nat := none         -- index of the next sample where a timestamp has been given
  last : Nat := 0                   -- last sample
  csPos : Option Nat := none        -- samples since the start of the channel-status block
  csBit : Bool := false             -- byte 0 bit 1 of the last block
  dataLeft : Nat := 0               -- samples until DATA is left
  preLeft : Nat := 0                -- samples until the last preamble is 8,192 samples old
  width : Nat := 0                  -- width of the last preamble
  counts : List Nat := []           -- samples of the last input frames, newest first, at most 16
  dev : Int := 0                    -- their deviation from the epoch grid
  asyncLeft : Nat := 0              -- frames until ASYNC is left
  cls : Nat := 1                    -- class: 1 PCM, 2 DATA, 3 ASYNC
  noted : Bool := false             -- AUDIO_CLASS has been raised this input frame
  pub : Word := 0#32                -- AX_SRC_STATE of the last input frame end (R404)
  deriving DecidableEq, Repr

/-- An input slot beyond its monitor registers (R186). -/
structure InSlot where
  fmt : Nat := 0                    -- format code of the last valid parcel; 0: none
  lastCommit : Nat := 0             -- instant of the last commit (R36)
  taken : List Nat := []            -- the last two line numbers taken, newest first (R207)
  held : Option Held' := none       -- abort copy held (R208)
  lastFrom : Nat := 0               -- member whose copy was taken for the last line: 0 none, 1 even, 2 odd (R210)
  frameFrom : Nat := 0              -- and for the last line of the previous frame
  delay : Nat := 0                  -- ingress delay in force, ns (Table 9-2)
  delayNext : Option Nat := none    -- applies from the first line committed after the synchronisation (R312)
  cct : List Byte := []             -- bytes 4-11 of its CCT entry as last synchronised or opened with (Table 15-4)
  mon : Monitor := {}
  prog : Nat := 0                   -- tally bits as last evaluated (R176)
  aud : Tbl AudCh := []             -- audio channels (R382-R384)
  audMiss : Nat := 0                -- missing samples since the last publication (R390)
  deriving DecidableEq, Repr

/-- PSTAT contents of one slot position and side (Table 4-13). -/
structure Pstat where
  flags : Nat := 0
  detected : Nat := 0
  errors : Nat := 0
  deriving DecidableEq, Repr

/-- A lane pair beyond its registers (R98-R137, R169-R177). -/
structure Lane where
  since : Nat := 0                  -- instant of entry into the state (Table 3-5)
  boundary : Nat := 0               -- receive boundary, 0-9 (R114)
  winAt : Nat := 0                  -- instant the window under way began: the last slip (R114)
  run21 : Nat := 0                  -- consecutive WT2 with D21.2 in HANDSHAKE
  restartRun : Nat := 0             -- consecutive WT2 with D10.2 or D21.2 outside a parcel in ACTIVE (R124)
  capSeen : Bool := false           -- a CAP was received in HANDSHAKE
  capLast : List Byte := []         -- last CAP received
  capRun : Nat := 0                 -- consecutive identical copies of it (R117)
  capOk : Bool := false             -- the partner's CAP is accepted (R117)
  capPeer : Bool := false           -- and an accepted copy carried peer_seen = 1 (R118)
  capSent : Nat := 0                -- CAP sets sent with peer_seen = 1 (R118)
  recFrom : Nat := 0                -- instant ingress recovery began (R123)
  noSignal : Bool := false          -- the signal is absent (R123)
  owed : Bool := false              -- recovery runs are owed to the partner (R122)
  reqAt : Nat := 0                  -- instant of its last request
  ran : Bool := false               -- a run has been sent since
  winErr : Nat := 0                 -- errors of the window under way that commands of their own have reported (R104, R120)
  wordPos : Nat := 0                -- word position 0 in the receive word, 0-3 (R105)
  term : Bool := false              -- the ingress legs are terminated (R112)
  skpFrom : Nat := 0                -- instant from which SKP words are placed on the egress lane (R108)
  skps : Nat := 0                   -- SKP words placed since
  busyAt : Nat := 0                 -- instant at which a condition of R127 was last seen to fail
  -- Breeze (R169-R177)
  credits : Nat := 0                -- the partner's brz_credits (R175)
  release : Nat := 0                -- the device's cumulative release count modulo 256 (R173)
  used : Nat := 0                   -- receive buffers in use, 0-8 (R173)
  relDue : Bool := false            -- a release no message has yet carried (R174)
  queue : List (Nat × List Byte) := [] -- credited messages queued: type and payload (R172)
  ident : List Byte := []           -- last accepted IDENT payload since entry to ACTIVE (R177, Table 7-21)
  pstatLast : List Byte := []       -- last accepted PSTAT payload since entry to ACTIVE (Table 7-21)
  twinLast : List Byte := []        -- last accepted TWIN payload since entry to ACTIVE (Table 7-21)
  seqPrev : Tbl (Nat × Nat × Nat) := [] -- line, frame count and format of the last valid parcel of each position (R152)
  pstat : Tbl Pstat := []           -- PSTAT contents, key 2 x position + side (R177)
  upOk : List Nat := []             -- positions whose last TWIN message shows upstream_ok = 1 (R206)
  deriving DecidableEq, Repr

/-! ### The Larder, the Keystore and the Control Matrix (chapters 14, 15, 16) -/

/-- A write command of the Larder in service or waiting (R474, R475). -/
structure LdrCmd where
  cls : Nat := 0                    -- 0 host, 1 firmware, 2 Keystore, 3 scrubber
  what : Nat := 0                   -- 0 NVM_WRITE, 1 journal, 2 counters, 3 Fault Log, 4 KEY item, 5 refresh, 6 rewrite of R504
  tag : Nat := 0                    -- host: 16 x port + ring; KEY item: slot + 128 x (16 x port + ring); rewrite: slot
  addr : Nat := 0                   -- address of the first byte still to write
  data : List Byte := []            -- bytes still to write
  retried : Bool := false           -- the page under write has been written twice (R477)
  begun : Bool := false             -- a page of it has been written (R478)
  deriving DecidableEq, Repr

/-- The Larder's controller beyond its registers. -/
structure LarderUnit where
  queue : List LdrCmd := []         -- commands in arrival order, the one in service included (R475)
  page : Option Nat := none         -- page under write
  cur : Nat := 0                    -- class whose command has the page under write
  lastCls : Nat := 2                -- class served last (round-robin, R475)
  image : List Byte := []           -- what the page under write is programmed with (R473)
  torn : List (Nat × Nat) := []     -- first address and length of bytes whose 0 bits read 0 or 1 (R477, R481)
  -- Route Journal (R488-R491)
  jSeq : Nat := 0                   -- seq of the last commit
  jNext : Nat := 0                  -- page of the region at which the next commit starts
  jLive : List (Nat × Nat) := []    -- live commits, oldest first: first page and pages
  jNew : List (Nat × Nat × Nat) := [] -- key of each journalled entry and the page of the commit that holds its newest: type, key, page
  jPend : List (Nat × Nat) := []    -- type and key of each pending entry, oldest change first (R489, R491)
  jFly : List (Nat × Nat) := []     -- those of the commit being written
  jWrite : Option (Nat × Nat) := none -- first page and pages of the commit being written
  jSince : Option Nat := none       -- instant of the oldest pending change
  jLast : Nat := 0                  -- instant of the last commit
  jCredit : Nat := 0                -- credit, one page being 10 x 10^9 x 2^16 units (R491)
  jCreditAt : Nat := 0              -- instant up to which it has accrued
  jWas : Option Nat := none         -- instant of the oldest change of the commit being written
  jStretch : Nat := 0               -- STRETCH events raised while the age lasts
  -- Counters (R486)
  cSlot : Nat := 0                  -- slot of the next commit
  cSeq : Nat := 0                   -- seq of the last commit
  cAt : Nat := 0                    -- instant of the last commit, or of start-up
  counts : List Nat := [0, 0, 0, 0, 0, 0, 0, 0, 0, 0] -- the ten counts of R486
  hot : Nat := 0                    -- time above Tj 100 C not yet counted, u
  cValid : Bool := false            -- a Counters record was valid at start-up (R503)
  -- Fault Log (R487)
  fBuf : List (List Byte) := []     -- entries buffered, oldest first, without seq and crc
  fSeq : Nat := 0                   -- seq of the last entry
  fNext : Nat := 0                  -- index of the next entry
  fLast : Option Nat := none        -- instant of the last commit
  scrubAt : Nat := 0                -- instant of the scrubber's last turn (R492)
  ending : Bool := false            -- a reset lets the page under write finish, and nothing after it (R478)
  deriving DecidableEq, Repr

/-- A key slot: the copy in use and its state (R484, R501, R504). -/
structure KeySlot where
  state : Nat := 0                  -- 0 empty, 1 ready, 2 sealed (Table 16-13)
  copy : Option Nat := none         -- copy in use; none: the record is absent
  seq : Nat := 0
  body : List Byte := []            -- Table 16-3
  wrap1 : Bool := false             -- ready from wrap1, the rewrite of R504 left for a later key day (R503)
  deriving DecidableEq, Repr

/-- The Keystore beyond its registers. -/
structure KeyUnit where
  bmr : List (List Byte) := List.replicate 8 (List.replicate 48 0#8) -- BMR0-BMR7 (R497)
  slots : Tbl KeySlot := []         -- the 128 key slots (R501)
  draws : Nat := 0                  -- random values drawn from the DRBG (R500)
  hour0 : Nat := 0                  -- powered hours at start-up (R503)
  unwrapped : Bool := false         -- every slot has been read since reset (R504)
  deriving DecidableEq, Repr

/-- A transaction of a master (R459). -/
structure Txn where
  master : Nat := 0
  tag : Nat := 0
  write : Bool := false
  space : Nat := 0
  addr : Nat := 0                   -- address of the next beat: an offset in its target, or what was asked of the default target
  beats : Nat := 0                  -- beats still to serve
  after : Option Nat := none        -- tag it waits for (R459)
  target : Nat := 15                -- Table 14-1; 15: the default target
  data : List Byte := []            -- write data of the beats still to serve
  strobes : List Bool := []
  seg : Nat := 0                    -- index of the next segment
  dead : Bool := false              -- its master was reset: responses are dropped (R467)
  counted : Bool := false           -- its MISS has been counted (R462)
  worst : Nat := 0                  -- the worst status of its segments: 0 OK, 1 FAULT, 2 MISS
  deriving DecidableEq, Repr

/-- The Control Matrix and the Rambler cores beyond their registers. -/
structure CmxUnit where
  txns : List Txn := []             -- transactions outstanding, in order of issue
  last : Tbl Nat := []              -- master served last at each target, plus 1; unlisted: none yet (R457)
  wdog : Tbl (List Nat) := []       -- instants of each core's watchdog expiries of the last hour (R472)
  restart : Tbl (Option Nat) := []  -- instant of each core's last watchdog expiry (R472)
  patches : List (Nat × List Byte) := [] -- Rambler patches applied at start-up, each its core and bytes (R470)
  tasks : List Nat := [0, 1, 2, 3]  -- core on which each core's tasks run (R472)
  deriving DecidableEq, Repr
/-! ### The whole device -/

/-- Everything but the addressed memories and the queue. -/
structure Dev where
  now : Nat := 0                                -- device clock, in u since reset
  free : Nat := 0                               -- the model's own: free values taken so far (see Config)
  regs : Tbl Word := []                         -- registers by `RegName.key`; unlisted: their reset value (chapter 19)
  emitted : List Emission := []                 -- what the device has put out, newest first
  sets : List (Nat × Nat × Nat) := []           -- status bits set in the present DOM_CTL cycle: cycle, register key, bit (R13)
  ev : EventUnit := {}                          -- events, causes, folds (chapter 12)
  clk : ClkUnit := {}                           -- clocks (chapter 13)
  tim : TimingUnit := {}                        -- timebases and references (chapter 2)
  start : StartUnit := {}                       -- start-up, supplies, heat, pins (chapters 17, 18)
  ports : Duo PortSt := ⟨{}, {}⟩                -- HPA, HPB (R251)
  svr : Tbl SvRing := []                        -- Salvo Rings, key 16 x port + r (R253)
  recs : Tbl RecSt := []                        -- record rings, key 64 x port + ring code (R253)
  seq : Nat := 0                                -- items delivered so far: the delivery order (R283)
  stamp : Nat := 0                              -- last sequence stamp assigned (R284)
  cctData : Tbl (List Byte) := []               -- contents of the cached CCT entries (R311)
  coolCtl : List Nat := []                      -- ids in the control-side Coolbox, most recently used first (R313)
  planes : Duo PlaneSt := ⟨{}, {}⟩              -- Plane A, Plane B (R18)
  outs : Tbl Out := []                          -- output slots (R191, R215, R226)
  startQ : List (Nat × Plane × Nat) := []       -- engine starts queued: CCT id, plane, local engine (R354)
  startAt : Option Nat := none                  -- instant of the last starts (R354)
  ins : Tbl InSlot := []                        -- input slots (R186)
  lanes : Tbl Lane := []                        -- lane pairs (R98)
  ldr : LarderUnit := {}                        -- the Larder's controller (chapter 15)
  key : KeyUnit := {}                           -- the Keystore (chapter 16)
  cmx : CmxUnit := {}                           -- the Control Matrix and the Rambler cores (chapter 14)
  deriving DecidableEq, Repr

/-- The addressed memories. -/
structure Mems where
  larder : Memory := []                         -- Larder array, 4 MiB; unlisted: 0xFF (R473)
  hamper : Duo Memory := ⟨[], []⟩               -- Hamper stacks by owner: owner x 2^36 + owner offset; unlisted: 0 (R318)
  sram : Memory := []                           -- working SRAM, as its difference from the image start-up copies there; unlisted: 0 (Table 14-1, R470)
  deriving DecidableEq, Repr

/-- The state: the commands waiting, first in first out, the memories and the device. -/
structure State where
  pending : List Instr := []
  mem : Mems := {}
  dev : Dev := {}
  deriving DecidableEq, Repr

/-- Why a step stops. -/
inductive Fault where
  /-- A command names an element the device does not have (a lane above 383, a ring above 15 ...): raised by
  every meaning with an index operand out of range. Safe: the spec gives no such element. -/
  | noSuchElement
  deriving DecidableEq, Repr

/-- Why a step has no meaning. -/
inductive Refusal where
  /-- Raised by Dispatch's arms of commands without a meaning. Safe. -/
  | notModelled (mnemonic : String)
  deriving DecidableEq, Repr

/-- The machine right after reset (R14): every register at its reset value, nothing listed in any memory,
no command waiting. -/
def State.reset : State := {}

end Sys2Proof.Machine
end

