-- ==== Sys2Proof/Machine/Coding.lean ====
section
/-! DEFINITION. What stands on a lane: the 8b/10b code groups (R103, R104), the words of the ordered sets (R105,
R107, R130), of a parcel (R143) and of a Breeze message (R170, R171). -/

namespace Sys2Proof.Machine

/-! ### Code groups (R103) -/

/-- A symbol: a data byte or a control character. -/
inductive Sym where
  | d (b : Byte)
  | k (b : Byte)
  deriving DecidableEq, Repr

/-- What the receiver makes of a code group (R104). -/
inductive RxSym where
  | ok (s : Sym)
  | disparity (s : Sym)     -- valid, of the wrong running disparity
  | code                    -- absent from the tables, or a control character not in use
  deriving DecidableEq, Repr

/-- Bits set among the low `n`. -/
def ones (n g : Nat) : Nat := ((List.range n).filter fun k => bitOf g k).length

/-- The standard sub-block abcdei of a byte's five low bits, at negative running disparity (log 46). -/
def sixMinus (x : Nat) : Nat :=
  [0b100111, 0b011101, 0b101101, 0b110001, 0b110101, 0b101001, 0b011001, 0b111000,
   0b111001, 0b100101, 0b010101, 0b110100, 0b001101, 0b101100, 0b011100, 0b010111,
   0b011011, 0b100011, 0b010011, 0b110010, 0b001011, 0b101010, 0b011010, 0b111010,
   0b110011, 0b100110, 0b010110, 0b110110, 0b001110, 0b101110, 0b011110, 0b101011].getD x 0

/-- The standard sub-block fghj of a byte's three high bits, at negative running disparity (log 46). -/
def fourMinus (y : Nat) : Nat := [0b1011, 0b1001, 0b0101, 0b1100, 0b1101, 0b1010, 0b0110, 0b1110].getD y 0

/-- A sub-block of `n` bits at a running disparity (`true`: positive), from that at negative: complemented where it is
unbalanced, or one of the balanced ones that the standard complements. -/
def atRd (n : Nat) (rd swap : Bool) (g : Nat) : Nat :=
  if rd && (swap || 2 * ones n g != n) then 2 ^ n - 1 - g else g

/-- The running disparity after a block of `n` bits. -/
def rdAfter (n : Nat) (rd : Bool) (g : Nat) : Bool := if 2 * ones n g = n then rd else decide (n < 2 * ones n g)

/-- The code group of a data byte at a running disparity, bits abcdei fghj with bit a the most significant. -/
def dataGroup (rd : Bool) (b : Byte) : Nat :=
  let x := b.toNat % 32
  let y := b.toNat / 32
  let s := atRd 6 rd (x == 7) (sixMinus x)
  let r := rdAfter 6 rd s
  let alt := y == 7 && (if r then x == 11 || x == 13 || x == 14 else x == 17 || x == 18 || x == 20)
  s * 16 + (if alt then (if r then 0b1000 else 0b0111) else atRd 4 r (y == 3) (fourMinus y))

/-- The control characters in use, each with its code group at negative running disparity (Table 3-2). -/
def controls : List (Byte × Nat) :=
  [(0x1C#8, 0b0011110100), (0x5C#8, 0b0011110101), (0x7C#8, 0b0011110011), (0x9C#8, 0b0011110010),
   (0xBC#8, 0b0011111010), (0xDC#8, 0b0011110110), (0xF7#8, 0b1110101000), (0xFB#8, 0b1101101000),
   (0xFD#8, 0b1011101000)]

/-- The code group of a symbol at a running disparity; none for a control character not in use (R103, Table 3-2). -/
def Sym.group (rd : Bool) : Sym → Option Nat
  | .d b => some (dataGroup rd b)
  | .k b => (controls.find? fun x => x.1 == b).map fun x => if rd then 1023 - x.2 else x.2

/-- Every symbol that may stand on a lane. -/
def Sym.all : List Sym := (List.range 256).map (fun b => .d (BitVec.ofNat 8 b)) ++ controls.map fun x => .k x.1

/-- A received code group at a running disparity (R104). -/
def receive (rd : Bool) (g : Nat) : RxSym :=
  match Sym.all.find? fun s => s.group rd == some g with
  | some s => .ok s
  | none =>
    match Sym.all.find? fun s => s.group (!rd) == some g with
    | some s => .disparity s
    | none => .code

/-- The bits of a code group in the order in which they are sent: bit a first (R103). -/
def groupBits (g : Nat) : List Bool := (List.range 10).map fun k => bitOf g (9 - k)

/-- The bits that symbols in use put on a lane from a running disparity. -/
def lineBits : Bool → List Sym → List Bool
  | _, [] => []
  | rd, s :: r =>
    let g := (s.group rd).getD 0
    groupBits g ++ lineBits (rdAfter 10 rd g) r

/-! ### Ordered sets (Table 3-3) -/

/-- K28.5. -/
abbrev comma : Sym := .k 0xBC#8

/-- A word of four equal symbols. -/
def four (s : Sym) : List Sym := [s, s, s, s]

/-- A control character and three slot position bytes (R106). -/
def posSet (k : Byte) (p : Nat) : List Sym := .k k :: List.replicate 3 (.d (BitVec.ofNat 8 p))

/-- A WT2 word: status 0 D10.2, 1 D21.2, 2 D12.2 (R107). -/
def wt2Word (status : Nat) : List Sym :=
  [comma, .d 0x4A#8, .d 0x4A#8, .d (if status = 0 then 0x4A#8 else if status = 1 then 0x55#8 else 0x4C#8)]

/-- The IDL word. -/
def idlWord : List Sym := [comma, .d 0x50#8, .d 0xC5#8, .d 0x50#8]

/-- Symbols in words of four. -/
def inWords : List Sym → List (List Sym)
  | a :: b :: c :: e :: r => [a, b, c, e] :: inWords r
  | _ => []

/-- The words of what an egress lane sends beside parcels (Table 3-3); a Zephyr burst is that of R130. -/
def LaneSet.words : LaneSet → List (List Sym)
  | .wt1 n => List.replicate n (four (.d 0xB5#8))
  | .wt2 status => [wt2Word status]
  | .cap bytes => inWords (.k 0x5C#8 :: bytes.map .d)
  | .skp n => List.replicate n (four (.k 0x1C#8))
  | .idl n => List.replicate n idlWord
  | .lull n => List.replicate n (four (.k 0x7C#8))
  | .zephyr => List.replicate 32 (four (.d 0xB5#8)) ++ List.replicate 2 (wt2Word 1) ++ List.replicate 8 idlWord
  | .fch p => [posSet 0xDC#8 p]
  | .swm p => [posSet 0x9C#8 p]
  | .idle | .hiZ | .detect => []

/-- A data word: byte 0 at word position 0 (R143). -/
def dataWord (w : Word) : List Sym := (wordBytes w).map .d

/-- The words of a parcel at a slot position, from SOP through EOP (R143). -/
def parcelWords (pos : Nat) (hdr : List Byte) (body : List Word) : List (List Sym) :=
  posSet 0xFB#8 pos :: inWords (hdr.map .d) ++ body.map dataWord ++ [posSet 0xFD#8 0]

/-- The words that something put out on an egress lane is made of; none for what leaves elsewhere. -/
def Emission.words : Emission → List (List Sym)
  | .lane _ s => s.words
  | .parcel _ pos hdr body => parcelWords pos hdr body
  | .breeze _ ws => ws.map fun w => .k 0xF7#8 :: w.map .d
  | _ => []

/-- The bits on the lane, from the running disparity at its first word (log 46). -/
def Emission.bits (rd : Bool) (e : Emission) : List Bool := lineBits rd e.words.flatten

/-! ### Breeze messages (R170, R171) -/

/-- A message's bytes up to its payload's end (Table 4-11). -/
def brzHead (ty seq release : Nat) (payload : List Byte) : List Byte :=
  le 1 ty ++ le 1 payload.length ++ le 1 release ++ le 1 seq ++ payload

/-- A message with its crc, and its pad where the length is odd. -/
def brzBytes (ty seq release : Nat) (payload : List Byte) : List Byte :=
  let h := brzHead ty seq release payload
  h ++ le 2 (crc16 h) ++ zeros (payload.length % 2)

/-- The BRZ words of a message: B0 with index and last, then two bytes each (Table 4-10). -/
def brzMsg (ty seq release : Nat) (payload : List Byte) : List (List Byte) :=
  let bs := brzBytes ty seq release payload
  let m := bs.length / 2
  (List.range m).map fun i => le 1 (2 * i + b2n (i + 1 == m)) ++ (bs.drop (2 * i)).take 2

/-- Words of a message whose payload has `len` bytes. -/
def brzLen (len : Nat) : Nat := (7 + len) / 2

/-- The bytes of a message received as BRZ words, up to its payload's end, where its indices run from 0, its last word
ends it at the length it states, and its CRC holds (R171). -/
def brzCheck (ws : List (List Byte)) : Option (List Byte) :=
  let bs := ws.flatMap fun w => fit 2 (w.drop 1)
  let len := fieldAt bs 1 1
  let framed := (List.range ws.length).all fun i =>
    let b0 := fieldAt (ws.getD i []) 0 1
    b0 / 2 % 64 == i && b0 % 2 == b2n (i + 1 == ws.length)
  if framed && decide (len ≤ 120) && ws.length == brzLen len && crc16 (bs.take (4 + len)) == fieldAt bs (4 + len) 2 then
    some (bs.take (4 + len))
  else none

end Sys2Proof.Machine
end

