-- ==== Sys2Proof/Config.lean ====
section
/-! DEFINITION. What the spec leaves open: the model's free values. Every constant here is opaque and
has no body, so nothing can be proved about which value it holds; a statement about the model holds for
every value of it. The log entry that names each one stands in its docstring. -/

namespace Sys2Proof

/-- A value the spec states nowhere, drawn at the `n`-th place the device needs one (log 5): a torn
Larder bit (R481), a DRBG output (R500), and so on. `Dev.free` counts the draws. -/
opaque Config.free (n : Nat) : Nat

/-- The SECDED check bits the device stores with an entry of a control table (R563, log 6): the table
(0 crosspoint map, 1 Audio Map, 2 Page Map) and the entry's data bits. -/
opaque Config.check (table entry : Nat) : Nat

/-- The syndrome of a captured error (R563, log 6). -/
opaque Config.syndrome (n : Nat) : Nat

/-- What a pending crosspoint entry holds while no take waits to land (R211, log 6): the plane and the output slot. -/
opaque Config.idlePending (plane slot : Nat) : Nat

/-- The level that the board gives a GPIO ball that the device does not drive, at an instant (Table 18-10, log 19). -/
opaque Config.gpioLevel (now ball : Nat) : Bool

/-- The physical page at which a page of an owner lies (R317, log 7): the plane, the owner's Page Map
history stamp and the page looked up; the answer is the Page Map entry's data. -/
opaque Config.pageMap (plane history page : Nat) : Nat

/-- A 10-bit sample of a computed picture line of a conversion channel, after the base profile (R344-R365, log 8): profile
code, plane-independent inputs of R365 as one list of numbers, the output line, and the place of the sample on it. -/
opaque Config.sample (profile : Nat) (inputs : List Nat) (line place : Nat) : Nat

/-- Steps 1 and 2 of the colour stage, whose filter and matrix arithmetic the spec does not give (R367, log 8): in_matrix, and
profile code, inputs, output line and column; the answer is the column's R', G' and B' codes. -/
opaque Config.toRgb (matrix profile : Nat) (inputs : List Nat) (line column : Nat) : Nat × Nat × Nat

/-- Steps 4 and 5 of the colour stage (R367, log 8): out_matrix, the R', G' and B' codes of the line, and the place of the
sample on it. -/
opaque Config.fromRgb (matrix : Nat) (row : List (Nat × Nat × Nat)) (place : Nat) : Nat

/-- The code that the colour stage gives where R368's result lies above 1,023, of the interpolated value (log 60). -/
opaque Config.lutTop (value : Nat) : Nat

/-- Resampled audio of a PX_ASRC channel (R394, log 8): the inputs and the output sample's index. -/
opaque Config.resampled (inputs : List Nat) (k : Nat) : Word

/-- The records that a line of a converted frame carries of the packets which R371 builds (log 8): the output format, the
line, and the packets, each a code (1 ATC, 2 captions, 3 AFD, 4 payload ID) and what it carries; each record is its words of
Table 4-7. The ST standards fix the line and the packet's form. -/
opaque Config.convAnc (fmt line : Nat) (packets : List (List Nat)) : List (List Word)

/-- Whether a PX_ASRC channel re-centres in an input frame at whose rate it does not follow its source (R394, log 8): slot,
channel, frame, deviation and delay. -/
opaque Config.recentres (inputs : List Nat) : Bool

/-- The Device Unique Secret of R496 (log 9): 32 bytes. -/
opaque Config.dus : List Byte

/-- SHA-384 of the ROM image (R497, log 9). -/
opaque Config.romDigest : List Byte

/-- The vendor's public key in ROM (R378, R470, log 9): 96 bytes. -/
opaque Config.vendorKey : List Byte

/-- A byte of the ROM image (Table 14-1, log 9). -/
opaque Config.rom (offset : Nat) : BitVec 8

/-- A byte of the ROM image in the working SRAM once patches, each a core and its bytes, are applied to it (R470, log 9). -/
opaque Config.patchedRom (patches : List (Nat × List Byte)) (offset : Nat) : BitVec 8

/-- The Hamper page that a page of a Hamper control window reaches, as `Mems.hamper` numbers bytes, in 8 KiB units: the
plane, the instant and the page of the window (Table 14-1, log 20). -/
opaque Config.window (plane now page : Nat) : Nat

/-- The CCT entry that a 256-byte line of the control-side Coolbox holds at an instant (Table 14-1, log 20). -/
opaque Config.coolLine (now line : Nat) : Nat

/-- The Rambler patches that the listed bytes of the Profile patches region hold, in ascending address: the core of each
and its bytes, the last 96 its signature (R470, log 9); the spec does not give their form. -/
opaque Config.patches (region : List (Nat × Byte)) : List (Nat × List Byte)

/-- The n-th output of the DRBG of R500 (log 9): 56 bytes. -/
opaque Config.drbg (n : Nat) : List Byte

/-- How far, in Hz, a lane synthesizer's VCO runs above 2,800 MHz when it gives its 156.25 MHz (R434, R438, R442): the spec
states the range of a VCO and not this frequency (log 16). -/
opaque Config.lsVcoAbove : Fin 400000001

/-- The VCO frequency, in Hz, at which a lane synthesizer gives its 156.25 MHz (log 16). -/
def Config.lsVco : Nat := 2800000000 + Config.lsVcoAbove.val

/-- Frequency in Hz of the clock that an ingress lane recovers at a rate code, which the spec does not state (R450, log 58). -/
opaque Config.rxClock (rate : Nat) : Nat

/-- The ROM and patch level that IDENT carries (Table 4-13), whose coding the spec does not give (log 9). -/
opaque Config.firmware : Nat

/-- The device's serial number (Table 4-13; log 9). -/
opaque Config.serial : Nat

end Sys2Proof
end

