-- ==== Sys2Proof/Machine/Ops.lean ====
section
/-! DEFINITION. The named operations every meaning is built from: register fields, emissions, the
elements of the device, and the move of time. -/

namespace Sys2Proof.Machine

/-! ### Units of time: u = 2^-16 ns (R46) -/

/-- One nanosecond in u. -/
abbrev nsU : Nat := 65536
/-- One microsecond in u. -/
abbrev usU : Nat := 65536000
/-- One millisecond in u. -/
abbrev msU : Nat := 65536000000
/-- One second in u: the scale of R46. -/
abbrev secU : Nat := 65536000000000

/-! ### Registers (R11, R557) -/

/-- The table key of a register instance. -/
def RegName.key (r : RegName) (i : Nat) : Nat := r.ctorIdx * 65536 + i % 65536

/-- The reset word of a register instance: that of its table (R14), which for the synthesizer registers
differs from one instance to the next (R438-R440). -/
def RegName.reset (r : RegName) (i : Nat) : Word :=
  match r with
  | .CLK_SYN_N => BitVec.ofNat 32 (if i = 0 ∨ i = 2 ∨ i = 5 then 19 + (if i = 5 then 0 else 32)
      else 18 + 32)
  | .CLK_SYN_FRAC => BitVec.ofNat 32
      (if i = 0 ∨ i = 2 ∨ i = 5 then 1 else if i = 4 then 13662 else 990)
  | .CLK_SYN_MOD => BitVec.ofNat 32
      (if i = 0 ∨ i = 2 then 125 else if i = 5 then 5 else if i = 4 then 15625 else 1001)
  | .CLK_SYN_DITHER => BitVec.ofNat 32 (0x80000000 + 0x5EED0000 + i)
  | _ => r.resetBase

/-- The word of a register instance. -/
def Dev.reg (d : Dev) (r : RegName) (i : Nat) : Word := Tbl.get (r.reset i) d.regs (r.key i)

/-- With a register instance holding `w`. -/
def Dev.setReg (d : Dev) (r : RegName) (i : Nat) (w : Word) : Dev :=
  { d with regs := Tbl.set (r.reset i) d.regs (r.key i) w }

/-- The field's value in a word. -/
def Field.get (f : Field) (w : Word) : Nat := (w.toNat >>> f.lo) % 2 ^ f.width

/-- The word with the field holding `v`, reduced to its width. -/
def Field.put (f : Field) (w : Word) (v : Nat) : Word :=
  BitVec.ofNat 32 (w.toNat - f.get w * 2 ^ f.lo + v % 2 ^ f.width * 2 ^ f.lo)

/-- A register field. -/
def Dev.rd (d : Dev) (f : Field) (i : Nat := 0) : Nat := f.get (d.reg f.reg i)

/-- With a register field written by the device. -/
def Dev.wr (d : Dev) (f : Field) (v : Nat) (i : Nat := 0) : Dev :=
  d.setReg f.reg i (f.put (d.reg f.reg i) v)

/-- A one-bit field as a truth value. -/
def Dev.flag (d : Dev) (f : Field) (i : Nat := 0) : Bool := d.rd f i == 1

/-! ### Elements -/

/-- Lane pair n. -/
def Dev.lane (d : Dev) (n : Nat) : Lane := Tbl.get {} d.lanes n
/-- With lane pair n changed. -/
def Dev.modLane (d : Dev) (n : Nat) (f : Lane → Lane) : Dev := { d with lanes := Tbl.mod {} d.lanes n f }
/-- Input slot s. -/
def Dev.inp (d : Dev) (s : Nat) : InSlot := Tbl.get {} d.ins s
/-- With input slot s changed. -/
def Dev.modIn (d : Dev) (s : Nat) (f : InSlot → InSlot) : Dev := { d with ins := Tbl.mod {} d.ins s f }
/-- Output slot o. -/
def Dev.out (d : Dev) (o : Nat) : Out := Tbl.get {} d.outs o
/-- With output slot o changed. -/
def Dev.modOut (d : Dev) (o : Nat) (f : Out → Out) : Dev := { d with outs := Tbl.mod {} d.outs o f }
/-- Output slot o in plane p. -/
def Dev.op (d : Dev) (o : Nat) (p : Plane) : OutPlane := (d.out o).pl.pl p
/-- With output slot o in plane p changed. -/
def Dev.modOp (d : Dev) (o : Nat) (p : Plane) (f : OutPlane → OutPlane) : Dev :=
  d.modOut o fun x => { x with pl := x.pl.modPl p f }
/-- Plane p. -/
def Dev.plane (d : Dev) (p : Plane) : PlaneSt := d.planes.pl p
/-- With plane p changed. -/
def Dev.modPlane (d : Dev) (p : Plane) (f : PlaneSt → PlaneSt) : Dev := { d with planes := d.planes.modPl p f }
/-- Hamper owner `id` on plane p. -/
def Dev.owner (d : Dev) (p : Plane) (id : Nat) : Owner := Tbl.get {} (d.plane p).owners id
/-- With Hamper owner `id` on plane p changed. -/
def Dev.modOwner (d : Dev) (p : Plane) (id : Nat) (f : Owner → Owner) : Dev :=
  d.modPlane p fun x => { x with owners := Tbl.mod {} x.owners id f }
/-- Host port p. -/
def Dev.port (d : Dev) (p : Port) : PortSt := d.ports.po p
/-- With host port p changed. -/
def Dev.modPort (d : Dev) (p : Port) (f : PortSt → PortSt) : Dev := { d with ports := d.ports.modPo p f }
/-- Salvo Ring r of port p. -/
def Dev.ring (d : Dev) (p : Port) (r : Nat) : SvRing := Tbl.get {} d.svr (16 * p.id + r)
/-- With Salvo Ring r of port p changed. -/
def Dev.modRing (d : Dev) (p : Port) (r : Nat) (f : SvRing → SvRing) : Dev :=
  { d with svr := Tbl.mod {} d.svr (16 * p.id + r) f }
/-- The timebase of plane p (R39). -/
def Dev.tb (d : Dev) (p : Plane) : Timebase := d.tim.tb.pl p
/-- With the timebase of plane p changed. -/
def Dev.modTb (d : Dev) (p : Plane) (f : Timebase → Timebase) : Dev :=
  { d with tim := { d.tim with tb := d.tim.tb.modPl p f } }
/-- Timing input x (Table 2-4). -/
def Dev.ref (d : Dev) (x : Nat) : RefIn := Tbl.get {} d.tim.inputs x
/-- With timing input x changed. -/
def Dev.modRef (d : Dev) (x : Nat) (f : RefIn → RefIn) : Dev :=
  { d with tim := { d.tim with inputs := Tbl.mod {} d.tim.inputs x f } }

/-- With one more thing put out. -/
def Dev.emit (d : Dev) (e : Emission) : Dev := { d with emitted := e :: d.emitted }

/-- The device after `f` for every element of a list, in order. -/
def Dev.each {α : Type} (d : Dev) (xs : List α) (f : Dev → α → Dev) : Dev := xs.foldl f d

/-- `f` where `b` holds. -/
def Dev.when (d : Dev) (b : Bool) (f : Dev → Dev) : Dev := if b then f d else d

/-- The next free value (log 5), and the device with the draw counted. -/
def Dev.draw (d : Dev) : Nat × Dev := (Config.free d.free, { d with free := d.free + 1 })

/-! ### Time -/

/-- The lead timebase's plane (R85). -/
def Dev.lead (d : Dev) : Plane := Plane.ofId (d.rd F.TB_STATUS_lead)

/-- The lead's epoch counter in u (R39, R46). -/
def Dev.epoch (d : Dev) : Nat := (d.tb d.lead).epoch

/-- A record's time: (sec x 10^9 + ns) mod 2^48 of the lead timebase (Table 12-3). -/
def Dev.stamp48 (d : Dev) : Nat := (d.epoch / nsU) % 2 ^ 48

/-- State of a timebase (Table 2-5). -/
def Dev.tbState (d : Dev) : Plane → Nat
  | .a => d.rd F.TB_STATUS_state_a
  | .b => d.rd F.TB_STATUS_state_b

/-- With the state of a timebase written. -/
def Dev.setTbState (d : Dev) (p : Plane) (v : Nat) : Dev :=
  match p with
  | .a => d.wr F.TB_STATUS_state_a v
  | .b => d.wr F.TB_STATUS_state_b v

/-- PPSIN lends phase to REFIN `x` (R56, R57, TB_PPS_CFG). -/
def Dev.ppsPairs (d : Dev) (x : Nat) : Bool :=
  d.flag F.TB_PPS_CFG_enable && d.rd F.TB_PPS_CFG_pair == x && decide (x < 4)

/-- A time-bearing input (Table 2-4): a REFIN paired with PPSIN bears time only while PPSIN is live, in either mode; after
PPSIN's loss it is a FREQ input (R57). -/
def Dev.timeBearing (d : Dev) (x : Nat) : Bool :=
  x == 4 || (decide (x < 4) && (if d.ppsPairs x then !d.tim.ppsLost else d.flag F.TB_REF_CFG_mode x))

/-- The period of a time-bearing input in u (R54, R56); none for REFV, which states whole seconds (R83). DESIGN CHOICE
(log 39): a TB_REFx_NUM of 0 acts as 1, and one above 200,000,000 is taken as it stands; R54 states no result for either. -/
def Dev.refPeriod (d : Dev) (x : Nat) : Option Nat :=
  if x = 4 then none
  else if d.ppsPairs x then some secU
  else
    let num := max 1 (d.rd F.TB_REF_NUM_num x)
    some (if d.flag F.TB_REF_CFG_den_1001 x then secU * 1001 / (num * 1000) else secU / num)

/-- `z` taken the shorter way modulo `m` (R83). -/
def wrapTo (z : Int) (m : Nat) : Int :=
  let r := z % (m : Int)
  if 2 * r > (m : Int) then r - m else r

/-- The build-out is slewing (R83, R84, TB_STATUS.realigning). -/
def Dev.realigning (d : Dev) : Bool :=
  let st := d.tbState d.lead
  let x := d.rd F.TB_STATUS_sel
  d.flag F.TB_REALIGN_enable && (st == 1 || st == 2) && d.timeBearing x
    && decide ((d.tb d.lead).buildout ≠ 0)

/-- The epoch counters of every timebase in service moved by `z`; the build-outs move the other way (log 12). -/
def Dev.slew (d : Dev) (z : Int) : Dev :=
  let f (t : Timebase) : Timebase := { t with epoch := (t.epoch + z).toNat, buildout := t.buildout - z }
  let d := { d with tim := { d.tim with refvOff := d.tim.refvOff.map (· - z) } }
  (d.when (d.tbState .a != 6) fun d => d.modTb .a f).when (d.tbState .b != 6) fun d => d.modTb .b f

/-- The part of `z` that a slew of at most `q` takes. -/
def slewPart (z : Int) (q : Nat) : Int :=
  if z < 0 then -(min (-z) (q : Int)) else min z (q : Int)

/-- The slews of `dt` u at TB_REALIGN.rate (R83, R94): first what a late TIME_SET has left, then the
build-out of a time-bearing selected input. -/
def Dev.slewFor (d : Dev) (dt : Nat) : Dev :=
  let n := d.tim.slewRem + max 1 (d.rd F.TB_REALIGN_rate) * dt
  let q := n / 1000000000
  let d := { d with tim := { d.tim with slewRem := n % 1000000000 } }
  if d.tim.timeSlew ≠ 0 then
    let z := slewPart d.tim.timeSlew q
    { d.slew z with tim := { (d.slew z).tim with timeSlew := d.tim.timeSlew - z } }
  else if d.realigning then
    let b := (d.tb d.lead).buildout
    let b := match d.refPeriod (d.rd F.TB_STATUS_sel) with
      | some m => wrapTo b m
      | none => b
    (d.modTb d.lead fun t => { t with buildout := b }).slew (slewPart b q)
  else d

/-- The plane's clocks have stopped: its lane synthesizer has failed (R87, R436). -/
def Dev.clocksStopped (d : Dev) : Plane → Bool
  | .a => d.rd F.CLK_STATUS_ls_a_state == 3
  | .b => d.rd F.CLK_STATUS_ls_b_state == 3

/-- Words that pass a lane of an octet at its rate in `dt` u (Table 3-1). -/
def Dev.laneWords (d : Dev) (n dt : Nat) : Nat := dt * (312500000 / 2 ^ d.rd F.LN_OCT_CTRL_rate (n / 8)) / secU

/-- SKP words due on an egress lane that is ACTIVE, awake and clocked: 496 words lie between one and the next (R108).
DESIGN CHOICE (log 43): the spec allows any number from 480 to 511. -/
def Dev.skpDue (d : Dev) (n : Nat) : Nat :=
  let l := d.lane n
  if d.rd F.LN_STATUS_state n == 6 && !d.flag F.LN_STATUS_tx_idle n && d.flag F.LN_OCT_STATUS_om_lock (n / 8)
      && !d.flag F.CLK_STATUS_safe then d.laneWords n (d.now - l.skpFrom) / 497 - l.skps
  else 0

/-- The SKP words that have fallen due leave (R108). -/
def Dev.placeSkps (d : Dev) : Dev :=
  d.each d.lanes fun d (x : Nat × Lane) =>
    let k := d.skpDue x.1
    if k = 0 then d else (d.emit (.lane x.1 (.skp k))).modLane x.1 fun l => { l with skps := l.skps + k }

/-- Time moves on to instant `t`, never back: both epoch counters run with the device clock (R39, R41)
unless the safe state has stopped them (R447), or one's plane has no clocks (R87), and slews proceed; egress lanes
send the SKP words due (R108). -/
def Dev.advance (d : Dev) (t : Nat) : Dev :=
  let dt := t - d.now
  let d := { d with now := d.now + dt }
  let d :=
    if d.tim.running && !d.flag F.CLK_STATUS_safe then
      let run (stopped : Bool) (x : Timebase) : Timebase := if stopped then x else { x with epoch := x.epoch + dt }
      ((d.modTb .a (run (d.clocksStopped .a))).modTb .b (run (d.clocksStopped .b))).slewFor dt
    else d
  d.placeSkps

/-! ### Commands -/

/-- A command's effect `f` on the device at instant `t`; the command faults where it names an element
the device does not have. -/
def onDev (ok : Bool) (t : Nat) (s : State) (f : Dev → Dev) : Host.Outcome State Fault Refusal :=
  if ok then .next { s with dev := f (s.dev.advance t) } else .fault .noSuchElement

/-- As `onDev`, for a command that also reads or writes the addressed memories. -/
def onMem (ok : Bool) (t : Nat) (s : State) (f : Mems → Dev → Mems × Dev) :
    Host.Outcome State Fault Refusal :=
  if ok then
    let r := f s.mem (s.dev.advance t)
    .next { s with mem := r.1, dev := r.2 }
  else .fault .noSuchElement

end Sys2Proof.Machine
end

