-- ==== Sys2Proof/Machine/Flags.lean ====
section
/-! DEFINITION. The status and flag computations: sticky status bits (W1C, R13), saturating counters,
one-bit state, and element masks in status registers. -/

namespace Sys2Proof.Machine

/-- The DOM_CTL cycle of the present instant: 2 ns at 500 MHz, counted from reset (Table 1-4, log 38). -/
def Dev.ctlCycle (d : Dev) : Nat := d.now / (2 * nsU)

/-- Bit `k` of a field noted as set in the present DOM_CTL cycle (R13). -/
def Dev.noteSet (d : Dev) (f : Field) (i k : Nat) : Dev :=
  { d with sets := (d.ctlCycle, f.reg.key i, f.lo + k) :: d.sets.filter fun x => x.1 == d.ctlCycle }

/-- A status bit set by the device; a write of 1 to it in the same DOM_CTL cycle leaves it set (R13). -/
def Dev.raise (d : Dev) (f : Field) (i : Nat := 0) : Dev := (d.wr f 1 i).noteSet f i 0

/-- The bits of a register that the device has set in the present DOM_CTL cycle (R13). -/
def Dev.newBits (d : Dev) (r : RegName) (i : Nat) : Word :=
  (d.sets.filter fun x => x.1 == d.ctlCycle && x.2.1 == r.key i).foldl (fun w x => w ||| BitVec.ofNat 32 (2 ^ x.2.2)) 0#32

/-- A one-bit field written by the device. -/
def Dev.put (d : Dev) (f : Field) (b : Bool) (i : Nat := 0) : Dev := d.wr f (b2n b) i

/-- A counter raised by `n`, saturating at its field's width. -/
def Dev.bump (d : Dev) (f : Field) (i : Nat := 0) (n : Nat := 1) : Dev :=
  d.wr f (satAdd f.width (d.rd f i) n) i

/-- Bit `k` of a mask field. -/
def Dev.bitAt (d : Dev) (f : Field) (k : Nat) (i : Nat := 0) : Bool := bitOf (d.rd f i) k

/-- With bit `k` of a mask field written. -/
def Dev.setBit (d : Dev) (f : Field) (k : Nat) (b : Bool) (i : Nat := 0) : Dev :=
  let v := d.rd f i
  d.wr f (if bitOf v k == b then v else if b then v + 2 ^ k else v - 2 ^ k) i

/-- Bit `k` of a field of status bits set by the device (R13). -/
def Dev.raiseBit (d : Dev) (f : Field) (k : Nat) (i : Nat := 0) : Dev := (d.setBit f k true i).noteSet f i k

/-- The firmware tasks of core `c` (Table 14-4) run on a core that is neither held in reset nor restarting (R472). DESIGN CHOICE
(log 61): the tasks of a core that restarts resume 50 ms after its watchdog expired, the latest R472 allows. -/
def Dev.taskRuns (d : Dev) (c : Nat) : Bool :=
  let k := d.cmx.tasks.getD c c
  d.rd F.CMX_RMB_STATUS_state k != 3 && !(Tbl.get none d.cmx.restart k).any fun a => decide (d.now < a + 50 * msU)

/-! ### Control Matrix transactions -/

/-- Transactions of a master. -/
def Dev.txnsOf (d : Dev) (master : Nat) : List Txn := d.cmx.txns.filter fun x => x.master == master

/-- With the outstanding transactions changed. -/
def Dev.modTxns (d : Dev) (f : List Txn → List Txn) : Dev := { d with cmx := { d.cmx with txns := f d.cmx.txns } }

/-- A master is reset (R467): what is left of its bursts goes on with cleared strobes, and its responses are dropped. -/
def Dev.masterReset (d : Dev) (master : Nat) : Dev :=
  if (d.txnsOf master).isEmpty then d
  else (d.modTxns fun l => l.map fun x => if x.master == master then { x with dead := true, strobes := [] } else x).setBit
    F.CMX_MRST_releasing master true

/-- Count `k` of R486 raised by `n`. -/
def Dev.countUp (d : Dev) (k : Nat) (n : Nat := 1) : Dev :=
  { d with ldr := { d.ldr with counts := d.ldr.counts.modify k fun c => (c + n) % 2 ^ 32 } }

/-- A change that the Route Journal is to record: an entry's type and key (R489). -/
def Dev.noteJournal (d : Dev) (ty key : Nat) : Dev :=
  if d.ldr.jPend.contains (ty, key) then d
  else { d with ldr := { d.ldr with jPend := d.ldr.jPend ++ [(ty, key)], jSince := some (d.ldr.jSince.getD d.now) } }

/-- The BAR0 offset from instance 0, by the dimensions of `RegName.place`. -/
def placeOff : List (Nat × Nat × Nat) → Nat → Nat
  | [], _ => 0
  | (_, stride, k) :: ds, i => i / k * stride + placeOff ds (i % k)

/-- The BAR0 offset of a register instance (R556). -/
def regOff (r : RegName) (i : Nat) : Nat := r.place.1 + placeOff r.place.2 i

/-- A register that a REG entry records has been written (R489, Table 15-4): `old` is the device before the write. -/
def Dev.noteReg (d old : Dev) (r : RegName) (i : Nat) : Dev :=
  if r.hwReset && d.reg r i != old.reg r i then d.noteJournal 5 (regOff r i) else d

/-! ### Clock gates (R449, R464, R465) -/

/-- The octet's clock gate is open. -/
def Dev.octGateOpen (d : Dev) (k : Nat) : Bool :=
  if k < 32 then d.bitAt F.GLB_CLKEN0_oct k else d.bitAt F.GLB_CLKEN1_oct (k - 32)

/-- The octet's block answers as gated: its gate is closed, or closing or opening is under way. A write to it is discarded. -/
def Dev.octetGated (d : Dev) (k : Nat) : Bool :=
  !d.octGateOpen k || (if k < 32 then d.bitAt F.GLB_CLKPEND0_oct k else d.bitAt F.GLB_CLKPEND1_oct (k - 32))

/-- The plane's blocks answer as gated. -/
def Dev.planeGated (d : Dev) : Plane → Bool
  | .a => !d.flag F.GLB_CLKEN1_plane_a || d.flag F.GLB_CLKPEND1_plane_a
  | .b => !d.flag F.GLB_CLKEN1_plane_b || d.flag F.GLB_CLKPEND1_plane_b

end Sys2Proof.Machine
end

