-- ==== Sys2Proof/Machine/Records.lean ====
section
/-! DEFINITION. Record rings (R254, R255, R278-R281): writing a record, its phase, its MSI-X message. -/

namespace Sys2Proof.Machine

/-- Code of a record ring: CPRc is c, EVRe 16 + e, the As-Run Ring 48. -/
def recCode : RecRing → Nat
  | .cpr c => c
  | .evr e => 16 + e
  | .asr => 48

/-- A record ring beyond its registers. -/
def Dev.rr (d : Dev) (p : Port) (r : RecRing) : RecSt := Tbl.get {} d.recs (64 * p.id + recCode r)

/-- With a record ring changed. -/
def Dev.modRec (d : Dev) (p : Port) (r : RecRing) (f : RecSt → RecSt) : Dev :=
  { d with recs := Tbl.mod {} d.recs (64 * p.id + recCode r) f }

/-- The registers of a record ring: their instance, and the fields enable, size, msix, mod_us, pi, phase,
full, base [31:12] and base [63:32] (Table 7-23). -/
structure RecRegs where
  i : Nat
  enable : Field
  size : Field
  msix : Field
  modUs : Field
  pi : Field
  phase : Field
  full : Field
  lo : Field
  hi : Field

/-- The registers of a record ring of a port. -/
def recRegs (p : Port) : RecRing → RecRegs
  | .cpr c => ⟨16 * p.id + c, F.HIF_CPR_CFG_enable, F.HIF_CPR_CFG_size, F.HIF_CPR_CFG_msix, F.HIF_CPR_CFG_mod_us,
      F.HIF_CPR_STATUS_pi, F.HIF_CPR_STATUS_phase, F.HIF_CPR_STATUS_full, F.HIF_CPR_BASE_LO_addr, F.HIF_CPR_BASE_HI_addr⟩
  | .evr e => ⟨32 * p.id + e, F.HIF_EVR_CFG_enable, F.HIF_EVR_CFG_size, F.HIF_EVR_CFG_msix, F.HIF_EVR_CFG_mod_us,
      F.HIF_EVR_STATUS_pi, F.HIF_EVR_STATUS_phase, F.HIF_EVR_STATUS_full, F.HIF_EVR_BASE_LO_addr, F.HIF_EVR_BASE_HI_addr⟩
  | .asr => ⟨p.id, F.HIF_ASR_CFG_enable, F.HIF_ASR_CFG_size, F.HIF_ASR_CFG_msix, F.HIF_ASR_CFG_mod_us,
      F.HIF_ASR_STATUS_pi, F.HIF_ASR_STATUS_phase, F.HIF_ASR_STATUS_full, F.HIF_ASR_BASE_LO_addr, F.HIF_ASR_BASE_HI_addr⟩

/-- Bytes of one record: 16 in a Completion Ring, 32 in an Event Ring, 64 in the As-Run Ring (Tables 7-17,
12-3, 16-9). -/
def recBytes : RecRing → Nat
  | .cpr _ => 16
  | .evr _ => 32
  | .asr => 64

/-- The byte that carries the record's phase in its bit 7 (Tables 7-17, 12-3, 16-9). -/
def phaseByte : RecRing → Nat
  | .cpr _ => 7
  | .evr _ => 3
  | .asr => 1

/-- The record ring is in use (R255). -/
def Dev.ringOn (d : Dev) (p : Port) (r : RecRing) : Bool := d.flag (recRegs p r).enable (recRegs p r).i

/-- Entries of the ring (R254). -/
def Dev.recSize (d : Dev) (p : Port) (r : RecRing) : Nat := 2 ^ (6 + d.rd (recRegs p r).size (recRegs p r).i)

/-- Records not yet consumed. -/
def Dev.recUsed (d : Dev) (p : Port) (r : RecRing) : Nat :=
  (d.rd (recRegs p r).pi (recRegs p r).i + 65536 - (d.rr p r).ci % 65536) % 65536

/-- The ring has a free entry: a ring of 65,536 entries never holds more than 65,535 (R258). -/
def Dev.recRoom (d : Dev) (p : Port) (r : RecRing) : Bool := decide (d.recUsed p r < Nat.min (d.recSize p r) 65535)

/-- Host address of the ring. -/
def Dev.recBase (d : Dev) (p : Port) (r : RecRing) : Nat :=
  d.rd (recRegs p r).lo (recRegs p r).i * 4096 + d.rd (recRegs p r).hi (recRegs p r).i * 2 ^ 32

/-- A host port is lost (R303). -/
def Dev.lost (d : Dev) (p : Port) : Bool := d.flag F.HIF_LOSS_lost p.id

/-- A write into host memory (R252 splits it; one emission stands for the whole). -/
def Dev.hostWrite (d : Dev) (p : Port) (addr : Nat) (data : List Byte) : Dev := d.emit (.hostWrite p addr data)

/-- A word of a port's MSI-X table: vectors are masked at reset (PCI Express; log 13). -/
def Dev.msixWord (d : Dev) (p : Port) (k : Nat) : Nat :=
  Tbl.get (if k % 4 = 3 then 1 else 0) (d.port p).msix k

/-- A vector is masked by the Function Mask or by its own Mask bit (R281). -/
def Dev.msixMasked (d : Dev) (p : Port) (v : Nat) : Bool :=
  (d.port p).fnMask || d.msixWord p (4 * v + 3) % 2 == 1

/-- An MSI-X vector is raised: its message is sent, or its pending bit is set while it is masked (R281). -/
def Dev.raiseMsix (d : Dev) (p : Port) (v : Nat) : Dev :=
  if d.msixMasked p v then d.modPort p fun x => { x with pba := setInsert v x.pba }
  else d.emit (.msix p v (d.msixWord p (4 * v) + d.msixWord p (4 * v + 1) * 2 ^ 32) (d.msixWord p (4 * v + 2)))

/-- The ring's vector is raised and every record written by then is announced (R281). -/
def Dev.announce (d : Dev) (p : Port) (r : RecRing) : Dev :=
  (d.modRec p r fun x => { x with modPend := false }).raiseMsix p (d.rd (recRegs p r).msix (recRegs p r).i)

/-- The record with the ring's phase in its phase bit (R278). -/
def withPhase (r : RecRing) (ph : Nat) (bs : List Byte) : List Byte :=
  let bs := fit (recBytes r) bs
  bs.set (phaseByte r) (BitVec.ofNat 8 (fieldAt bs (phaseByte r) 1 % 128 + 128 * ph))

/-- A record written whole at the producer index with the current phase, and announced (R278, R279, R281). -/
def Dev.writeRecord (d : Dev) (p : Port) (r : RecRing) (bs : List Byte) (now : Bool := false) : Dev :=
  let g := recRegs p r
  let pi := d.rd g.pi g.i
  let size := d.recSize p r
  let d := d.hostWrite p (d.recBase p r + pi % size * recBytes r) (withPhase r (d.rd g.phase g.i) bs)
  let pi := (pi + 1) % 65536
  let d := d.wr g.pi pi g.i
  let d := if pi % size = 0 then d.wr g.phase (1 - d.rd g.phase g.i) g.i else d
  if now || d.rd g.modUs g.i == 0 then d.announce p r else d.modRec p r fun x => { x with modPend := true }

/-- A record due to a lost port is discarded and counted (R304). -/
def Dev.drop (d : Dev) (p : Port) (n : Nat := 1) : Dev := d.bump F.HIF_LOSS_dropped p.id n

end Sys2Proof.Machine
end

