-- ==== Sys2Proof/Machine/Events.lean ====
section
/-! DEFINITION. The event unit (chapter 12): occurrences, rate limit, gather, causes, folding, ring space
and overflow; and the commands of its timers. -/

namespace Sys2Proof.Machine

/-! ### Sources (Tables 0-3, 12-1) -/

/-- The raster source EV(4o + k). -/
def evRaster (o k : Nat) : Nat := 4 * o + k
/-- Input slot IS i. -/
def evIn (i : Nat) : Nat := 4608 + i
/-- Ingress lane IL n. -/
def evIL (n : Nat) : Nat := 5760 + n
/-- Egress lane EL n. -/
def evEL (n : Nat) : Nat := 6144 + n
/-- Gust engine GE g. -/
def evGE (g : Nat) : Nat := 6528 + g
/-- Timing input x; PPSIN as 5. -/
def evRef (x : Nat) : Nat := 6624 + x
/-- SYNCIN. -/
abbrev evSync : Nat := 6630
/-- Timebase of a plane. -/
def evTb (p : Plane) : Nat := 6631 + p.id
/-- Plane. -/
def evPl (p : Plane) : Nat := 6633 + p.id
/-- Hamper stack of a plane. -/
def evHam (p : Plane) : Nat := 6635 + p.id
/-- Audio Exchange of a plane. -/
def evAx (p : Plane) : Nat := 6637 + p.id
/-- Host port. -/
def evPort (p : Port) : Nat := 6639 + p.id
/-- Lane synthesizer. -/
def evLs (p : Plane) : Nat := 6641 + p.id
/-- SYN m. -/
def evSyn (m : Nat) : Nat := 6643 + m
/-- XA, XB. -/
abbrev evXa : Nat := 6649
abbrev evXb : Nat := 6650
/-- Clock safety logic. -/
abbrev evSafe : Nat := 6651
/-- Thermal monitor. -/
abbrev evTherm : Nat := 6652
/-- Supply monitors. -/
abbrev evRail : Nat := 6653
/-- Larder. -/
abbrev evLdr : Nat := 6654
/-- Keystore. -/
abbrev evKey : Nat := 6655
/-- Control Matrix. -/
abbrev evCmx : Nat := 6656
/-- Rambler core c. -/
def evRmb (c : Nat) : Nat := 6657 + c
/-- Squall detector. -/
abbrev evSquall : Nat := 6661
/-- Start-up. -/
abbrev evStart : Nat := 6662
/-- OM k. -/
def evOm (k : Nat) : Nat := 6663 + k

/-- The routing group of a source (Table 12-2). -/
def evGroup (s : Nat) : Nat :=
  if s < 4608 then s % 4
  else if s < 5760 then 4
  else if s < 6144 then 5
  else if s < 6528 then 6
  else if s < 6624 then 7
  else if s < 6633 then 8
  else if s < 6639 then 9
  else if s < 6641 then 11
  else if s < 6652 then 10
  else if s < 6654 then 13
  else if s < 6661 then 12
  else if s = 6661 then 14
  else if s = 6662 then 13
  else if s < 6711 then 10
  else 15

/-- A code that may be folded when the source raises it (Table 12-4). -/
def foldable (s c : Nat) : Bool :=
  if s < 4608 then c == 0x04
  else if s < 5760 then [0x11, 0x13, 0x14, 0x15, 0x16, 0x17, 0x18].contains c
  else if s < 6144 then c == 0x23 || c == 0x24
  else if s < 6528 then c == 0x28
  else if s < 6624 then c == 0x30 || c == 0x33
  else if s == 6631 || s == 6632 then c == 0x4E
  else if s == 6635 || s == 6636 then c == 0x5A || c == 0x5B
  else if s == 6637 || s == 6638 then c == 0x5C
  else if 6643 ≤ s && s ≤ 6648 then c == 0x68 || c == 0x6A
  else false

/-! ### Coverage (Table 12-5) -/

/-- The lane pair that carries an input slot (R3): the even member's number in a twin set. -/
def slotPair (s : Nat) : Nat := s / 3

/-- The octet's twin bit joins this pair to its neighbour, at rate code 0 or 2 (R133). -/
def Dev.twinned (d : Dev) (n : Nat) : Bool :=
  d.rd F.LN_OCT_CTRL_rate (n / 8) != 1 && d.bitAt F.LN_OCT_CTRL_twin (n % 8 / 2) (n / 8)

/-- The lane's ingress cause is active (Table 12-5, Ingress lane down). -/
def Dev.laneDown (d : Dev) (n : Nat) : Bool :=
  d.ev.causes.any fun c => c.active && c.src == evIL n

/-- The engines of plane p: GE00-GE47, GE48-GE95 (R344). -/
def engineOf (p : Plane) (s : Nat) : Bool := decide (evGE (48 * p.id) ≤ s ∧ s < evGE (48 * p.id + 48))

/-- A cause of Table 12-5, by its source, covers code `c` of source `s` with count field `cnt`. The Squall
covers its covered codes. -/
def Dev.covers (d : Dev) (k : Cause) (s c cnt : Nat) : Bool :=
  let ks := k.src
  if (6624 ≤ ks && ks ≤ 6628) || ks == 6631 || ks == 6632 then
    (decide (4608 ≤ s ∧ s < 5760) && (c == 0x11 || c == 0x18))
      || (decide (6643 ≤ s ∧ s ≤ 6648) && (c == 0x68 || c == 0x6A))
  else if ks == 6633 || ks == 6634 then
    let p := Plane.ofId (ks - 6633)
    (decide (s < 4608) && s % 4 == 3 && c == 0x04 && cnt % 2 == p.id)
      || (engineOf p s && (c == 0x30 || c == 0x33)) || (s == evTb p && c == 0x4E)
      || (s == evHam p && (c == 0x5A || c == 0x5B)) || (s == evAx p && c == 0x5C)
  else if ks == 6635 || ks == 6636 then
    let p := Plane.ofId (ks - 6635)
    (decide (s < 4608) && s % 4 == 3 && c == 0x04 && cnt % 2 == p.id && cnt / 2 % 2 == 1)
      || (s == evHam p && c == 0x5A) || (engineOf p s && c == 0x30)
  else if 5760 ≤ ks && ks < 6144 then
    let n := ks - 5760
    (s == ks && (c == 0x23 || c == 0x24)) || (s == evEL n && c == 0x28)
      || (decide (4608 ≤ s ∧ s < 5760) && [0x11, 0x13, 0x15, 0x16, 0x17, 0x18].contains c
          && (if d.twinned n then slotPair (s - 4608) == n / 2 * 2 && d.laneDown (n / 2 * 2) && d.laneDown (n / 2 * 2 + 1)
              else slotPair (s - 4608) == n))
  else ks == evSquall && k.codes.contains c

/-- The codes Table 12-5 lists. -/
def causeCodes : List Nat :=
  [0x04, 0x11, 0x13, 0x15, 0x16, 0x17, 0x18, 0x23, 0x24, 0x28, 0x30, 0x33, 0x4E, 0x5A, 0x5B, 0x5C, 0x68, 0x6A]

/-- The cause covers the source for some code (R416); for an UNDERRUN source, for some count. -/
def Dev.coversAny (d : Dev) (k : Cause) (s : Nat) : Bool :=
  causeCodes.any fun c => (List.range 4).any fun n => d.covers k s c n

/-- The active causes that cover an occurrence now, in the order of their setting; a Squall takes part
only where no cause set before it covers the occurrence (R417, log 14). -/
def Dev.coveredBy (d : Dev) (s c cnt : Nat) : List Nat :=
  (d.ev.causes.foldl (fun l k =>
    if k.active && d.covers k s c cnt && (k.src != evSquall || l.isEmpty) then l ++ [k.src] else l) [])

/-! ### Ports -/

/-- With the cause of source `s` changed. -/
def Dev.modCause (d : Dev) (s : Nat) (f : Cause → Cause) : Dev :=
  { d with ev := { d.ev with causes := d.ev.causes.map fun k => if k.src == s then f k else k } }

/-- With a port's waiting cause records changed (R421). -/
def Dev.modWaits (d : Dev) (p : Port) (f : List CauseRec → List CauseRec) : Dev :=
  { d with ev := { d.ev with waits := d.ev.waits.modPo p f } }

/-- A port routes the group of a source (R406). -/
def Dev.routes (d : Dev) (p : Port) (s : Nat) : Bool := d.flag F.HIF_EV_ROUTE_enable (16 * p.id + evGroup s)

/-- The Event Ring of a source on a port (R406). -/
def Dev.evRing (d : Dev) (p : Port) (s : Nat) : RecRing := .evr (d.rd F.HIF_EV_ROUTE_ring (16 * p.id + evGroup s))

/-- A record of the source may reach the port: a port's own LOST record never does (Table 12-4). -/
def evReaches (p : Port) (s c : Nat) : Bool := !(c == 0x60 && s == evPort p)

/-- Host address of the port's Fold Block (R418); 0 while none is set. -/
def Dev.foldBase (d : Dev) (p : Port) : Nat :=
  d.rd F.HIF_FOLD_BASE_LO_addr p.id * 4096 + d.rd F.HIF_FOLD_BASE_HI_addr p.id * 2 ^ 32

/-- An event record (Table 12-3), without its phase. -/
def evRecord (src code flags time id cnt a0 a1 : Nat) : List Byte :=
  le 2 src ++ le 1 code ++ le 1 flags ++ le 6 time ++ le 2 id ++ le 4 cnt ++ le 4 a0 ++ le 4 a1 ++ zeros 8

/-- A Fold Block slot (Table 12-6). -/
def foldSlot (gen id flags cnt : Nat) (codes map : List Nat) : List Byte :=
  le 4 gen ++ le 2 id ++ le 2 flags ++ le 4 cnt ++ fit 8 (codes.map (BitVec.ofNat 8)) ++ zeros 12
    ++ bitmap 848 map ++ zeros 140 ++ le 4 gen

/-- The Fold Block slot of a cause source (Table 12-5); none for lane causes. DESIGN CHOICE (log 59): slots 12-15, which hold
0, are never written by the device: the host's memory holds 0 there from the start. -/
def mapSlot (s : Nat) : Option Nat :=
  if 6624 ≤ s ∧ s ≤ 6628 then some (s - 6624)
  else if s = 6631 ∨ s = 6632 then some (5 + (s - 6631))
  else if s = 6633 ∨ s = 6634 then some (7 + (s - 6633))
  else if s = 6635 ∨ s = 6636 then some (9 + (s - 6635))
  else if s = 6661 then some 11
  else none

/-! ### Records on a port -/

/-- Ordinary records may be written: fewer than S - 16 wait (R421). -/
def Dev.evRoom (d : Dev) (p : Port) (r : RecRing) : Bool := decide (d.recUsed p r + 16 < d.recSize p r)

/-- The pending map and the OVERFLOW record of a ring that has lost records, once it has room (R423). -/
def Dev.flushLost (d : Dev) (p : Port) (r : RecRing) : Dev :=
  let x := d.rr p r
  if (x.lost != 0 || !x.pend.isEmpty) && d.evRoom p r && d.ringOn p r then
    let e := recCode r - 16
    let d := d.modRec p r fun x => { x with lost := 0, pend := [], gen := x.gen + 1 }
    let d := d.when (d.foldBase p != 0) fun d =>
      d.hostWrite p (d.foldBase p + 0x4000 + 0x400 * e) (foldSlot (x.gen + 1) 0 0 x.lost [] x.pend)
    (d.writeRecord p r (evRecord 0x1FFF 0xFE 0 d.stamp48 0 x.lost e 0)).bump F.HIF_EV_WRITTEN_written p.id
  else d

/-- A record is lost for ring space: its source's pending bit and the OVERFLOW count (R421). -/
def Dev.loseRecord (d : Dev) (p : Port) (r : RecRing) (src : Nat) : Dev :=
  d.modRec p r fun x => { x with lost := x.lost + 1, pend := setInsert src x.pend }

/-- The id an ordinary record carries on a port (R416): that of the earliest active cause that the port
routes and that covers the source for any code; a Squall only once the source stands in its map. -/
def Dev.recordId (d : Dev) (p : Port) (s : Nat) : Nat :=
  match d.ev.causes.find? fun k => k.active && d.routes p k.src
      && (if k.src == evSquall then (k.maps.po p).contains s else d.coversAny k s) with
  | some k => k.id
  | none => 0

/-- One ordinary record on one port (R406, R304, R421, R423). -/
def Dev.writeOrdinary (d : Dev) (p : Port) (s : Nat) (w : EvWait) : Dev :=
  if !(d.routes p s && w.due.po p && evReaches p s w.code) then d
  else if d.lost p then d.drop p
  else
    let r := d.evRing p s
    if !d.ringOn p r then d.bump F.HIF_EV_LOST_lost p.id
    else
      let d := d.flushLost p r
      if d.evRoom p r then
        (d.writeRecord p r (evRecord s w.code (if w.merged then 4 else 0) w.time (d.recordId p s) w.cnt w.a0 w.a1)).bump
          F.HIF_EV_WRITTEN_written p.id
      else (d.loseRecord p r s).bump F.HIF_EV_LOST_lost p.id

/-- An event source. -/
def Dev.evSrc (d : Dev) (s : Nat) : EvSrc := Tbl.get {} d.ev.srcs s

/-- With an event source changed. -/
def Dev.modSrc (d : Dev) (s : Nat) (f : EvSrc → EvSrc) : Dev :=
  { d with ev := { d.ev with srcs := Tbl.mod {} d.ev.srcs s f } }

/-- An earlier occurrence of the cause's source still waits to be written on the port: the source's records keep the order
of their occurrences (R290). DEDUCED (log 57): the cause record waits for it. -/
def Dev.heldBack (d : Dev) (p : Port) (c : CauseRec) : Bool :=
  (d.evSrc c.src).wait.any fun w => w.due.po p && evReaches p c.src w.code
    && decide ((c.time + 2 ^ 48 - w.time % 2 ^ 48) % 2 ^ 48 < 2 ^ 47)

/-- A cause record on one port (R413, R421, R424): written while any entry is free and none waits before it,
else it waits in its cause slot. -/
def Dev.writeCause (d : Dev) (p : Port) (c : CauseRec) : Dev :=
  if !(d.routes p c.src) then d
  else if d.lost p then d.drop p
  else
    let r := d.evRing p c.src
    if !d.ringOn p r then d.bump F.HIF_EV_LOST_lost p.id
    else if d.recRoom p r && !d.heldBack p c && !((d.ev.waits.po p).any fun x => d.evRing p x.src == r && !d.heldBack p x) then
      (d.writeRecord p r (evRecord c.src c.code (if c.clear then 3 else 1) c.time c.id c.count c.a0 c.a1)
        (d.flag F.HIF_EV_CTRL_cause_irq p.id)).bump F.HIF_EV_WRITTEN_written p.id
    else d.modWaits p (· ++ [c])

/-- Waiting cause records of a port written while their rings have free entries, in order (R421). -/
def Dev.drainCauses (d : Dev) (p : Port) : List CauseRec → Dev
  | [] => d
  | c :: rest =>
    let r := d.evRing p c.src
    let d := d.modWaits p (·.drop 1)
    let d := if d.ringOn p r && d.recRoom p r && !d.heldBack p c then
        (d.writeRecord p r (evRecord c.src c.code (if c.clear then 3 else 1) c.time c.id c.count c.a0 c.a1)
          (d.flag F.HIF_EV_CTRL_cause_irq p.id)).bump F.HIF_EV_WRITTEN_written p.id
      else d.modWaits p (· ++ [c])
    Dev.drainCauses d p rest

/-- A port's Event Rings after ring space has returned (R421, R423). -/
def Dev.eventSpace (d : Dev) (p : Port) : Dev :=
  if d.lost p then d
  else (d.drainCauses p (d.ev.waits.po p)).each (List.range 32) fun d e => d.flushLost p (.evr e)

/-- A Fault Log entry buffered (R487): up to 64 wait, and an entry that finds the buffer full is dropped and
counted. The entry's seq and check are added at its commit. -/
def Dev.logFault (d : Dev) (src code id a0 a1 : Nat) : Dev :=
  let l := d.ldr
  if l.fBuf.length < 64 then
    { d with ldr := { l with fBuf := l.fBuf ++
        [le 4 (d.epoch / secU) ++ le 2 src ++ le 2 code ++ le 4 id ++ le 4 a0 ++ le 4 a1 ++ zeros 36] } }
  else d.countUp 8

/-! ### Occurrences -/

/-- The source's record is written to the ports that are due it, when its gather is over and 1 ms has passed
since its previous record (R410-R412, R290). -/
def Dev.serveSrc (d : Dev) (s : Nat) : Dev :=
  let x := d.evSrc s
  match x.wait with
  | [] => d
  | w :: rest =>
    let limit := match x.last with
      | some l => decide (d.now < l + msU)
      | none => false
    if w.gatherEnd.isSome || limit then d
    else
      let d := d.modSrc s fun _ => { last := some d.now, wait := rest }
      let d := (d.writeOrdinary .a s w).writeOrdinary .b s w
      d.when (decide (6631 ≤ s ∧ s ≤ 6662)) fun d => d.logFault s w.code (d.recordId .a s) w.a0 w.a1

/-- The source's record is written where it may be, and then the cause records of the source that waited for it. -/
def Dev.serviceSrc (d : Dev) (s : Nat) : Dev :=
  let free (d : Dev) (p : Port) : Dev :=
    d.when ((d.ev.waits.po p).any fun c => c.src == s) fun d => d.drainCauses p (d.ev.waits.po p)
  free (free (d.serveSrc s) .a) .b

/-- Every record in gather that a cause covers now notes it (R412). -/
def Dev.noteCover (d : Dev) : Dev :=
  { d with ev := { d.ev with srcs := d.ev.srcs.map fun (s, x) =>
      (s, { x with wait := x.wait.map fun w =>
        if w.gatherEnd.isSome then
          { w with covers := (d.coveredBy s w.code w.cnt).foldl (fun cs c => setInsert c cs) w.covers }
        else w }) } }

/-- The gather of a waiting record ends (R412, R416): per port it is folded under the earliest set cause that
the port routes and that covered it, else the port stays due the record. -/
def Dev.foldOn (d : Dev) (p : Port) (s : Nat) (w : EvWait) : Bool × Dev :=
  if d.flag F.HIF_EV_CTRL_fold_en p.id then
    match d.ev.causes.find? fun k => w.covers.contains k.src && d.routes p k.src with
    | some k =>
      let d := d.modCause k.src fun c =>
        { c with maps := c.maps.modPo p (setInsert s), folded := c.folded.modPo p (· + w.occ)
                 dirty := c.dirty.modPo p fun x => x || !(k.maps.po p).contains s }
      (true, d.bump F.HIF_EV_FOLDED_folded p.id w.occ)
    | none => (false, d)
  else (false, d)

/-- A cause's Fold Block slot written on a port (R420). -/
def Dev.writeSlot (d : Dev) (p : Port) (k : Cause) (final : Bool) : Dev :=
  match mapSlot k.src with
  | none => d
  | some q =>
    if !(d.routes p k.src) || d.foldBase p == 0 || d.lost p then d
    else
      let gen := (Tbl.get 0 (d.port p).slotGen q + 1) % 2 ^ 32
      let flags := b2n (k.active && !final) + 2 * b2n final + 4 * b2n (decide (8 < k.codes.length))
      let d := d.modPort p fun x => { x with slotGen := Tbl.set 0 x.slotGen q gen }
      let d := d.modCause k.src fun c =>
        { c with dirty := c.dirty.modPo p fun _ => false, slotAt := c.slotAt.modPo p fun _ => d.now }
      d.hostWrite p (d.foldBase p + 0x400 * q)
        (foldSlot gen k.id flags (k.folded.po p) (k.codes.take 8) (k.maps.po p))

/-- A cause that begins anew: new id, cleared maps, its slot and its set record (R409, R413, R420). -/
def Dev.newCause (d : Dev) (s code a0 a1 parent : Nat) (codes : List Nat) : Dev :=
  let id := if d.ev.lastId % 65536 = 65535 then 1 else d.ev.lastId % 65536 + 1
  let k : Cause := { src := s, code := code, id := id, time := d.stamp48, parent := parent, codes := codes }
  let a1 := if parent = 0 then a1 else parent
  let d := { d with ev := { d.ev with lastId := id
                                      causes := (d.ev.causes.filter fun (c : Cause) => c.src != s) ++ [k]
                                      squallLast := if s = evSquall then d.now else d.ev.squallLast } }
  let rec' : CauseRec := { src := s, code := code, id := id, a0 := a0, a1 := a1, time := d.stamp48 }
  let d := ((d.writeSlot .a k false).writeCause .a rec').writeSlot .b k false |>.writeCause .b rec'
  (d.logFault s code id a0 a1).noteCover

/-- A set and a clear record of the source both wait on the port (R422). -/
def Dev.bothWait (d : Dev) (p : Port) (s : Nat) : Bool :=
  ((d.ev.waits.po p).any fun c => c.src == s && !c.clear) && ((d.ev.waits.po p).any fun c => c.src == s && c.clear)

/-- A cause re-set while its set and clear records wait on some port: it continues with its id (R422). -/
def Dev.resumeCause (d : Dev) (k : Cause) (a0 a1 : Nat) : Dev :=
  let rec' : CauseRec := { src := k.src, code := k.code, id := k.id, a0 := a0
                           a1 := if k.parent = 0 then a1 else k.parent, time := d.stamp48 }
  let k' := { k with active := true, cond := true }
  let d := d.modCause k.src fun _ => k'
  let one (d : Dev) (p : Port) : Dev :=
    if d.bothWait p k.src then
      (d.modCause k.src fun c => { c with dirty := c.dirty.modPo p fun _ => true }).modWaits p fun ws => (ws.filter fun c => !(c.src == k.src && c.clear)).map fun c =>
        if c.src == k.src then { c with count := c.count + 1 } else c
    else (d.writeSlot p k' false).writeCause p rec'
  (one (one d .a) .b).noteCover

/-- A cause's condition begins (R413, R415, R422). -/
def Dev.setCause (d : Dev) (s code : Nat) (a0 a1 parent : Nat := 0) (codes : List Nat := []) : Dev :=
  match d.ev.causes.find? fun k => k.src == s && k.code == code with
  | some k =>
    if k.active then d.modCause s fun c => { c with cond := true }
    else if d.bothWait .a s || d.bothWait .b s then d.resumeCause k a0 a1
    else d.newCause s code a0 a1 parent codes
  | none => d.newCause s code a0 a1 parent codes

/-- The id of a source's active cause; 0: none (R414). -/
def Dev.causeOf (d : Dev) (s : Nat) : Nat := ((d.ev.causes.find? fun k => k.src == s && k.active).map (·.id)).getD 0

/-- A cause's condition ends: the settle of 2 s begins (R415). -/
def Dev.endCause (d : Dev) (s : Nat) : Dev :=
  d.modCause s fun c => if c.active && c.cond then { c with cond := false, endAt := d.now } else c

/-- A cause has ended: its final slot, then its clear record with the occurrences folded for the port
(R415, R420). -/
def Dev.clearCause (d : Dev) (s : Nat) : Dev :=
  match d.ev.causes.find? fun k => k.src == s && k.active with
  | none => d
  | some k =>
    let d := d.modCause s fun c => { c with active := false, cond := false }
    let one (d : Dev) (p : Port) : Dev :=
      (d.writeSlot p { k with active := false } true).writeCause p
        { src := s, code := k.code, clear := true, id := k.id, count := k.folded.po p, a1 := k.parent, time := d.stamp48 }
    (one (one d .a) .b).logFault s k.code k.id 0 k.parent

/-- The Squall detector on a foldable occurrence that no other cause covers (R417). -/
def Dev.squallNote (d : Dev) (s c : Nat) : Dev :=
  let recent := (d.now, c, s) :: (d.ev.recent.filter fun x => decide (d.now ≤ x.1 + msU))
  let d := { d with ev := { d.ev with recent := recent } }
  let distinct := (recent.filter fun x => x.2.1 == c).foldl (fun l x => setInsert x.2.2 l) []
  match d.ev.causes.find? fun k => k.src == evSquall && k.active with
  | some k =>
    if k.codes.contains c then { d with ev := { d.ev with squallLast := d.now } }
    else if 32 ≤ distinct.length then
      ({ d with ev := { d.ev with squallLast := d.now } }.modCause evSquall fun x =>
        { x with codes := x.codes ++ [c] }).noteCover
    else d
  | none => if 32 ≤ distinct.length then d.newCause evSquall 0x80 0 0 0 [c] else d

/-- An occurrence of an event source (R410-R412, R417): it joins a waiting record of its code, waits as a
record of its own, or is lost where two others wait; a raster source's occurrences are never merged (R411). -/
def Dev.occur (d : Dev) (s code : Nat) (a0 a1 : Nat := 0) (cnt : Nat := 1) (time : Option Nat := none) : Dev :=
  let fold := foldable s code
  let others := (d.ev.causes.any fun k => k.active && k.src != evSquall && d.covers k s code cnt)
  let d := d.when (fold && !others) fun d => d.squallNote s code
  let w : EvWait := { code := code, cnt := cnt, a0 := a0, a1 := a1, time := time.getD d.stamp48
                      gatherEnd := if fold then some (d.now + msU) else none
                      covers := if fold then (d.coveredBy s code cnt).foldl (fun l c => setInsert c l) [] else [] }
  let x := d.evSrc s
  let d :=
    if s < 4608 then d.modSrc s fun x => { x with wait := x.wait ++ [w] }
    else if x.wait.any (fun v => v.code == code) then
      d.modSrc s fun x => { x with wait := x.wait.map fun v =>
        if v.code == code then { v with cnt := v.cnt + cnt, occ := v.occ + 1, merged := true
                                        covers := if v.gatherEnd.isSome then w.covers.foldl (fun l c => setInsert c l) v.covers
                                                  else v.covers }
        else v }
    else if x.wait.length ≥ 2 then
      let one (d : Dev) (p : Port) : Dev :=
        d.when (d.routes p s && evReaches p s code && d.ringOn p (d.evRing p s)) fun d => d.loseRecord p (d.evRing p s) s
      one (one d .a) .b
    else d.modSrc s fun x => { x with wait := x.wait ++ [w] }
  d.serviceSrc s

/-! ### The commands of the event timers -/

/-- The first record of the source whose gather is over by now is folded or left due to each port (R412, R416). -/
def Dev.endGather (d : Dev) (s : Nat) : Dev :=
  let isOver (w : EvWait) : Bool := match w.gatherEnd with
    | some e => decide (e ≤ d.now)
    | none => false
  match (d.evSrc s).wait.find? isOver with
  | none => d
  | some w =>
    let (fa, d) := d.foldOn .a s w
    let (fb, d) := d.foldOn .b s w
    let rest := (d.evSrc s).wait
    if fa && fb then
      (d.modSrc s fun x => { x with wait := rest.eraseP isOver }).serviceSrc s
    else
      let dueNow (v : EvWait) : EvWait := { v with gatherEnd := none, due := ⟨!fa, !fb⟩ }
      let ws := modFirst isOver dueNow rest
      (d.modSrc s fun x => { x with wait := ws }).serviceSrc s

/-- GATHER_EXPIRY (R412). -/
def execGatherExpiry (t src : Nat) (s : State) : Host.Outcome State Fault Refusal :=
  onDev (srcOk src) t s fun d => d.endGather src

/-- RATE_LIMIT_EXPIRY (R410). -/
def execRateLimitExpiry (t src : Nat) (s : State) : Host.Outcome State Fault Refusal :=
  onDev (srcOk src) t s fun d => d.serviceSrc src

/-- SQUALL_END (R417): 1 s has passed with no occurrence of a covered code from a source that no other cause
covers. -/
def execSquallEnd (t : Nat) (s : State) : Host.Outcome State Fault Refusal :=
  onDev true t s fun d => if d.now < d.ev.squallLast + secU then d else d.clearCause evSquall

/-- CAUSE_SETTLE_EXPIRY (R415): 2 s after the condition ended. -/
def execCauseSettleExpiry (t src : Nat) (s : State) : Host.Outcome State Fault Refusal :=
  onDev (srcOk src) t s fun d =>
    if d.ev.causes.any (fun k => k.src == src && k.src != evSquall && k.active && !k.cond && decide (k.endAt + 2 * secU ≤ d.now))
    then d.clearCause src else d

/-- FOLD_SLOT_REWRITE (R420, Table 14-4): a changed slot, at most once every 10 ms, while RMB3's tasks run. -/
def execFoldSlotRewrite (t : Nat) (port : Port) (slot : Nat) (ok : Bool) (s : State) : Host.Outcome State Fault Refusal :=
  onDev (foldSlotOk slot) t s fun d =>
    match d.ev.causes.find? fun k => k.active && mapSlot k.src == some slot && k.dirty.po port with
    | some k => if d.now < k.slotAt.po port + 10 * msU || !d.taskRuns 3 then d
      else if ok then d.writeSlot port k false
      else
        let d' := d.writeSlot port k false
        if d'.emitted.length == d.emitted.length then d'
        else (({ d' with emitted := d.emitted }).raise F.HIF_ERR_fold_err port.id).modCause k.src fun c =>
          { c with dirty := c.dirty.modPo port fun _ => true }
    | none => d

end Sys2Proof.Machine
end

