-- ==== Sys2Proof/Machine/Grid.lean ====
section
/-! DEFINITION. The frame grid (R42-R46), timing classes (R47-R53, R196-R199), formats (Tables 2-3, 4-1)
and switch and latch points (Table 7-16, R273-R275). -/

namespace Sys2Proof.Machine

/-! ### Rates (Table 2-1) -/

/-- Numerator of a rate. -/
def rateNum (r : Nat) : Nat := [24000, 24, 25, 30000, 30, 50, 60000, 60].getD r 1
/-- Denominator of a rate. -/
def rateDen (r : Nat) : Nat := if r = 0 ∨ r = 3 ∨ r = 6 then 1001 else 1
/-- Rate family: 0 F50, 1 F59, 2 F60 (Table 2-1, R52). -/
def rateFamily (r : Nat) : Nat := [1, 2, 0, 1, 2, 0, 1, 2].getD r 0

/-- `a / b` rounded up. -/
def ceilDiv (a b : Nat) : Nat := (a + b - 1) / b

/-- Epoch frame number at epoch instant `u` (R46). -/
def frameAt (r u : Nat) : Nat := u * rateNum r / (rateDen r * secU)

/-- Counter value of the start of frame `n` (R42, R44). -/
def frameStart (r n : Nat) : Nat := ceilDiv (n * rateDen r * secU) (rateNum r)

/-- Counter value of a point `i` lines after the epoch on a grid of `L` lines a frame (R44, R45). -/
def linePoint (r L i : Nat) : Nat := ceilDiv (i * rateDen r * secU) (rateNum r * L)

/-- Counter value of the start of line `k` of frame `n` (R45). -/
def lineStart (r L n k : Nat) : Nat := linePoint r L (n * L + (k - 1))

/-- A line period in u, rounded down. -/
def lineU (r L : Nat) : Nat := rateDen r * secU / (rateNum r * L)

/-- A frame period in u, rounded down. -/
def frameU (r : Nat) : Nat := rateDen r * secU / rateNum r

/-- The next shared boundary of two rates of one family, not earlier than the exact instant `a / b` u (R53), placed on
the counter by R44. -/
def sharedBoundary (r1 r2 a b : Nat) : Nat :=
  let g := Nat.gcd (rateNum r1) (rateNum r2)
  ceilDiv (ceilDiv (a * g) (b * rateDen r1 * secU) * rateDen r1 * secU) g

/-! ### Classes -/

/-- Total lines of a TB_CLASS lines code (Table 2-3). -/
def classLines (l : Nat) : Nat := [525, 625, 750, 1125, 2250].getD l 0

/-- Table 2-3 lists the combination of lines code, scan and rate. -/
def classForm (lines scan rate : Nat) : Bool :=
  match lines with
  | 0 => scan == 1 && rate == 3
  | 1 => scan == 1 && rate == 2
  | 2 => scan == 0
  | 3 => scan == 0 || rate == 2 || rate == 3 || rate == 4
  | 4 => scan == 0
  | _ => false

/-- A switch line that R197 allows; 0 selects the default (R51). -/
def switchLineOk (lines scan line field : Nat) : Bool :=
  if line = 0 then true
  else if scan = 0 then decide (line ≤ classLines lines)
  else
    let last1 := [263, 313, 375, 563].getD lines 0
    if field = 0 then decide (line ≤ last1) else decide (last1 < line ∧ line ≤ classLines lines)

/-- The default switch line (Table 5-4). -/
def defaultSwitch (lines scan field : Nat) : Nat :=
  match lines with
  | 0 => if field = 0 then 10 else 273
  | 1 => if field = 0 then 6 else 319
  | 3 => if scan = 1 ∧ field = 1 then 569 else 7
  | _ => 7

/-- The class runs. -/
def Dev.clsOn (d : Dev) (n : Nat) : Bool := d.flag F.TB_CLASS_enable n
/-- Rate code of a class. -/
def Dev.clsRate (d : Dev) (n : Nat) : Nat := d.rd F.TB_CLASS_rate n
/-- Total lines of a class. -/
def Dev.clsL (d : Dev) (n : Nat) : Nat := classLines (d.rd F.TB_CLASS_lines n)

/-- switch_line, switch_field and latch_lead of a TB_CLASS word, packed: [11:0], [12], [18:13]. -/
def packParams (line field lead : Nat) : Nat := line + field * 4096 + lead * 8192

/-- The parameters in force (R50). -/
def Dev.clsParams (d : Dev) (n : Nat) : Nat := Tbl.get 0 d.tim.clsNow n

/-- The switch line in force (R196). -/
def Dev.switchLine (d : Dev) (n : Nat) : Nat :=
  let p := d.clsParams n
  if p % 4096 = 0 then defaultSwitch (d.rd F.TB_CLASS_lines n) (d.rd F.TB_CLASS_scan n) (p / 4096 % 2) else p % 4096

/-- The latch lead in force (R51). -/
def Dev.latchLead (d : Dev) (n : Nat) : Nat :=
  let l := d.clsParams n / 8192
  if l = 0 then 4 else l

/-- The switch point of frame `f` of a class whose switch line is `s` (R198). -/
def Dev.tSAt (d : Dev) (c f s : Nat) : Nat := lineStart (d.clsRate c) (d.clsL c) f s

/-- The switch point of frame `f` of a class by the switch line in force (R198). -/
def Dev.tS (d : Dev) (c f : Nat) : Nat := d.tSAt c f (d.switchLine c)

/-- The latch point of frame `f` of a class (Table 7-16): latch-lead lines before the switch line, in the
frame before where the line lies there. -/
def Dev.tL (d : Dev) (c f : Nat) : Nat :=
  linePoint (d.clsRate c) (d.clsL c) (f * d.clsL c + (d.switchLine c - 1) - d.latchLead c)

/-- The first frame of a class whose instant `at'` lies after the counter value `u`. -/
def Dev.firstAfter (d : Dev) (at' : Dev → Nat → Nat → Nat) (c u : Nat) : Nat :=
  let f := frameAt (d.clsRate c) u
  ((span (f - 1) 5).find? fun n => decide (u < at' d c n)).getD (f + 1)

/-! ### Formats (Table 4-1) -/

/-- The format code names a format. -/
def fmtOk (c : Nat) : Bool :=
  c == 1 || c == 2 || (decide (0x10 ≤ c ∧ c < 0x18)) || (decide (0x20 ≤ c ∧ c < 0x28))
    || (decide (0x32 ≤ c ∧ c ≤ 0x34)) || (decide (0x40 ≤ c ∧ c < 0x60))

/-- Slot demand g. -/
def fmtG (c : Nat) : Nat := if c < 0x40 then 1 else if c < 0x50 then 2 else 4

/-- Rate code of a format. -/
def fmtRate (c : Nat) : Nat := if c = 1 then 3 else if c = 2 then 2 else c % 8

/-- Line count L of the parcel stream. -/
def fmtL (c : Nat) : Nat := if c = 1 then 525 else if c = 2 then 625 else if c < 0x20 then 750 else 1125

/-- Interlaced. -/
def fmtInter (c : Nat) : Bool := c == 1 || c == 2 || decide (0x30 ≤ c ∧ c < 0x38)

/-- Active line. -/
def fmtActive (c k : Nat) : Bool :=
  if c = 1 then decide ((20 ≤ k ∧ k ≤ 263) ∨ (283 ≤ k ∧ k ≤ 525))
  else if c = 2 then decide ((23 ≤ k ∧ k ≤ 310) ∨ (336 ≤ k ∧ k ≤ 623))
  else if c < 0x20 then decide (26 ≤ k ∧ k ≤ 745)
  else if fmtInter c then decide ((21 ≤ k ∧ k ≤ 560) ∨ (584 ≤ k ∧ k ≤ 1123))
  else decide (42 ≤ k ∧ k ≤ 1121)

/-- Active lines of a frame, in order. -/
def fmtActives (c : Nat) : List Nat := (span 1 (fmtL c)).filter (fmtActive c)

/-- The last active line. -/
def fmtLastActive (c : Nat) : Nat :=
  if c = 1 then 525 else if c = 2 then 623 else if c < 0x20 then 745 else if fmtInter c then 1123 else 1121

/-- Video words of an active line. -/
def fmtWords (c : Nat) : Nat := if c < 0x10 then 450 else if c < 0x20 then 800 else 1200

/-- 2160p. -/
def fmt2160 (c : Nat) : Bool := decide (0x50 ≤ c)

/-- R'G'B' components (Table 4-6). -/
def fmtRgb (c : Nat) : Bool := decide (0x48 ≤ c ∧ c < 0x50)

/-- A format valid at a lane rate code (R138, R140). -/
def fmtAtRate (c rate : Nat) : Bool :=
  fmtOk c && (rate == 0 || (fmtG c == 1 && (rate == 1 || !(c == 0x25 || c == 0x26 || c == 0x27))))

/-- The word limit W (R142). -/
def wordLimit (c rate : Nat) : Nat :=
  min 2048 ((if rate = 2 then 48437500 else 96875000) * rateDen (fmtRate c) / (fmtL c * rateNum (fmtRate c)))

/-- A format's rate, scan and line count are those of a TB_CLASS word's rate, scan and lines (R216). -/
def fmtClass (c rate scan lines : Nat) : Bool :=
  fmtRate c == rate && b2n (fmtInter c) == scan
    && (if fmt2160 c then lines == 4 else lines != 4 && classLines lines == fmtL c)

/-- A format fits a class (R216). -/
def Dev.fmtFits (d : Dev) (c n : Nat) : Bool :=
  fmtClass c (d.clsRate n) (d.rd F.TB_CLASS_scan n) (d.rd F.TB_CLASS_lines n)

/-- The line of an output raster of format `c` on which a class's switch line `s` lands (R198, R199). -/
def lineOn (s c : Nat) : Nat := if fmt2160 c then ceilDiv s 2 else s

/-- The line of an output raster of format `c` on which the switch line in force of class `n` lands. -/
def Dev.landLine (d : Dev) (n c : Nat) : Nat := lineOn (d.switchLine n) c

/-! ### Output rasters (R215, R218, R241, R242, R92) -/

/-- Start of line `k` of frame `f` of an output's raster, offset included (R215, R44), in epoch u. -/
def Raster.lineAt (r : Raster) (f k : Nat) : Nat :=
  (((f * fmtL r.fmt + (k - 1)) * rateDen (fmtRate r.fmt) * secU : Nat) / (rateNum (fmtRate r.fmt) * fmtL r.fmt : Nat)
    + b2n (((f * fmtL r.fmt + (k - 1)) * rateDen (fmtRate r.fmt) * secU) % (rateNum (fmtRate r.fmt) * fmtL r.fmt) != 0)
    + r.off * (nsU : Int) : Int).toNat

/-- The first frame of a raster whose start is not earlier than `u`. -/
def Raster.frameFrom (r : Raster) (u : Nat) : Nat :=
  let f := frameAt (fmtRate r.fmt) ((u : Int) - r.off * (nsU : Int)).toNat
  ((span (f - 1) 4).find? fun n => decide (u ≤ r.lineAt n 1)).getD (f + 1)

/-- Where an old raster gives way to a new one after its frame `frame`, which the start jump may have moved to end at
`jumped` (R92, R241, R242): the instant, and the last frame of the old raster. -/
def changeFrom (r : Raster) (dst : Option Raster) (frame : Nat) (jumped : Option Nat) : Nat × Nat :=
  let e := jumped.getD (r.lineAt (frame + 1) 1)
  match dst with
  | none => (e, frame)
  | some n =>
    if rateFamily (fmtRate r.fmt) = rateFamily (fmtRate n.fmt) ∧ r.off = n.off then
      let (a, b) := match jumped with
        | some u => (((u : Int) - r.off * (nsU : Int)).toNat, 1)
        | none => ((frame + 1) * rateDen (fmtRate r.fmt) * secU, rateNum (fmtRate r.fmt))
      let at' := (((sharedBoundary (fmtRate r.fmt) (fmtRate n.fmt) a b : Nat) : Int) + r.off * (nsU : Int)).toNat
      (at', r.frameFrom at' - 1)
    else (n.lineAt (n.frameFrom e) 1, frame)

/-- Format of an output's raster; 0 without a class. -/
def Out.fmt (x : Out) : Nat := match x.raster with
  | some r => r.fmt
  | none => 0

/-- Offset of an output's raster in ns. -/
def Out.off (x : Out) : Int := match x.raster with
  | some r => r.off
  | none => 0

/-- Class of an output's raster; 0 without one. -/
def Out.cls (x : Out) : Nat := match x.raster with
  | some r => r.cls
  | none => 0

/-- The output slot that holds the raster and the routes of output slot `o`: the first of its slot group (R204). -/
def Dev.headOf (d : Dev) (o : Nat) : Nat :=
  if fmtG (d.out (o / 4 * 4)).fmt = 4 then o / 4 * 4 else if fmtG (d.out (o / 2 * 2)).fmt = 2 then o / 2 * 2 else o

/-- The raster changes of an output that wait, in their order. -/
def Out.changes (x : Out) : List RasterChange := x.change.toList ++ x.changeNext.toList

/-- The slots that a raster change of output `o` covers: those of the old group and of the new one. -/
def Dev.changeSpan (d : Dev) (o : Nat) (c : RasterChange) : List Nat :=
  span o (Nat.max 1 (Nat.max (fmtG (d.out o).fmt) (c.dst.elim 1 fun r => fmtG r.fmt)))

/-- The waiting raster changes that cover an output slot. -/
def Dev.changesOf (d : Dev) (o : Nat) : List RasterChange :=
  [o, o / 2 * 2, o / 4 * 4].flatMap fun h => (d.out h).changes.filter fun c => (d.changeSpan h c).contains o

/-- The epoch instant of line `k` of frame `f` of an output, where its raster has such a line: a raster change and the
start jump end it (R92, R241, R242). -/
def Dev.lineTime (d : Dev) (o f k : Nat) : Option Nat :=
  let x := d.out (d.headOf o)
  match x.raster with
  | none => none
  | some r =>
    let last := match x.change with
      | some c => decide (f ≤ c.last)
      | none => true
    match x.jump with
    | some (z, g) =>
      if f = g then some ((r.lineAt f k : Int) + z).toNat
      else if x.change.isNone ∧ ((r.lineAt (g + 1) 1 : Int) + z).toNat ≤ r.lineAt f 1 then some (r.lineAt f k)
      else none
    | none => if last = true ∧ x.after ≤ r.lineAt f 1 then some (r.lineAt f k) else none

/-! ### Slots that exist (R3, R4, R133, R193) -/

/-- Rate code of a lane pair (R99). -/
def Dev.laneRate (d : Dev) (n : Nat) : Nat := d.rd F.LN_OCT_CTRL_rate (n / 8)

/-- Slot position `q` exists at the lane's rate (R4, Table 3-1). -/
def Dev.posExists (d : Dev) (n q : Nat) : Bool := q == 0 || (decide (q < 3) && d.laneRate n == 0)

/-- A slot number exists for routing (R3, R4, R133). -/
def Dev.slotExists (d : Dev) (s : Nat) : Bool :=
  decide (s < 1152) && d.posExists (s / 3) (s % 3) && !(d.twinned (s / 3) && s / 3 % 2 == 1)

/-- Members of the slot group that begins at a slot. -/
def group (s g : Nat) : List Nat := span s g

end Sys2Proof.Machine
end

