-- ==== Sys2Proof/Machine/Operands.lean ====
section
/-! DEFINITION. The operand forms: the layouts of descriptors (Tables 7-2 to 7-14, 16-4) and of CCT
entries (Tables 9-2, 10-4, 11-4), and their reserved fields (R16, R310). -/

namespace Sys2Proof.Machine

/-- A field of a descriptor or CCT entry: its first bit, counted from bit 0 of byte 0, and its width. -/
abbrev Fld := Nat × Nat

/-- The field's value in a byte string. -/
def Fld.of (f : Fld) (b : List Byte) : Nat := (ofLe b >>> f.1) % 2 ^ f.2

/-- The field as a truth value. -/
def Fld.on (f : Fld) (b : List Byte) : Bool := f.of b == 1

/-- Every bit from `lo` to `hi - 1` outside the fields of `used` is 0. -/
def reservedOk (lo hi : Nat) (used : List Fld) (b : List Byte) : Bool :=
  let mask := used.foldl (fun m f => m ||| ((2 ^ f.2 - 1) <<< f.1)) 0
  let v := (ofLe b % 2 ^ hi) >>> lo <<< lo
  (v ||| mask) == mask

/-! ### Descriptors -/

namespace D

/-- Table 7-2: opcode, subop, crc. -/
abbrev op : Fld := (0, 8)
abbrev subop : Fld := (8, 8)
abbrev crc : Fld := (480, 32)

/-- Table 7-4: the SALVO header. -/
abbrev count : Fld := (32, 12)
abbrev cls : Fld := (44, 4)
abbrev asap : Fld := (48, 1)
abbrev coe : Fld := (49, 1)
abbrev dropIfLate : Fld := (50, 1)
abbrev auth : Fld := (51, 1)
abbrev tag : Fld := (64, 16)
abbrev atFrame : Fld := (96, 64)

/-- Table 7-5: AUTH. -/
abbrev keyGen : Fld := (32, 32)
abbrev mac : Fld := (64, 128)

/-- Tables 7-6, 7-8, 7-9: the output slot of a take. -/
abbrev out : Fld := (32, 11)

/-- Table 7-6: TAKE_VIDEO. -/
abbrev kind : Fld := (48, 2)
abbrev src : Fld := (64, 11)
abbrev chan : Fld := (80, 12)
abbrev mode : Fld := (96, 2)
abbrev prefSet : Fld := (98, 1)
abbrev preferred : Fld := (99, 1)

/-- Table 7-7: TAKE_AUDIO; the fields of entry j. -/
abbrev aCount : Fld := (32, 3)
abbrev aDst (j : Nat) : Fld := (64 + 64 * j, 15)
abbrev aMute (j : Nat) : Fld := (79 + 64 * j, 1)
abbrev aSrc (j : Nat) : Fld := (80 + 64 * j, 15)
abbrev aInvert (j : Nat) : Fld := (95 + 64 * j, 1)
abbrev aGain (j : Nat) : Fld := (96 + 64 * j, 16)
abbrev aXfade (j : Nat) : Fld := (112 + 64 * j, 11)

/-- Table 7-8: TAKE_FORMAT. -/
abbrev fCls : Fld := (48, 4)
abbrev declass : Fld := (52, 1)
abbrev fmt : Fld := (64, 8)
abbrev offset : Fld := (96, 32)

/-- Table 7-9: TAKE_OVERLAY. -/
abbrev palOnly : Fld := (43, 1)
abbrev enable : Fld := (48, 1)
abbrev bpp : Fld := (49, 2)
abbrev load : Fld := (51, 1)
abbrev set : Fld := (64, 12)
abbrev ps : Fld := (80, 6)
abbrev x0 : Fld := (96, 13)
abbrev y0 : Fld := (112, 13)
abbrev width : Fld := (128, 13)
abbrev height : Fld := (144, 13)
abbrev stride : Fld := (160, 16)
abbrev addr : Fld := (192, 32)
abbrev palAddr : Fld := (224, 32)

/-- Table 7-10: CONV_OPEN and CONV_CLOSE. -/
abbrev cChan : Fld := (32, 12)
abbrev mirrored : Fld := (44, 1)
abbrev cSrc : Fld := (48, 11)
abbrev profile : Fld := (64, 16)
abbrev cMin : Fld := (96, 32)
abbrev cMax : Fld := (128, 32)
abbrev cTokens : Fld := (160, 16)
abbrev cPlanes : Fld := (48, 2)

/-- Table 7-10: SYNC_OPEN. -/
abbrev sSrc : Fld := (32, 11)
abbrev sMin : Fld := (64, 32)
abbrev sMax : Fld := (96, 32)
abbrev sTokens : Fld := (128, 16)

/-- Table 7-11: CCT_SYNC, RESERVE and RELEASE. -/
abbrev first : Fld := (32, 12)
abbrev entries : Fld := (48, 13)
abbrev planes : Fld := (32, 2)
abbrev pages : Fld := (64, 32)
abbrev tokens : Fld := (96, 16)
abbrev units : Fld := (112, 8)
abbrev result : Fld := (128, 64)

/-- Table 7-12: TIME_SET and TIME_ADJ. -/
abbrev sec : Fld := (32, 48)
abbrev ns : Fld := (96, 30)
abbrev frac : Fld := (128, 16)
abbrev offNs : Fld := (96, 32)

/-- Table 7-13: HAMPER_* and NVM_*. -/
abbrev restored : Fld := (34, 1)
abbrev owner : Fld := (48, 12)
abbrev hOffset : Fld := (64, 32)
abbrev hLength : Fld := (96, 32)
abbrev host : Fld := (128, 64)
abbrev nAddr : Fld := (32, 22)
abbrev nLength : Fld := (96, 13)

/-- Table 7-14: TAKEOVER. -/
abbrev port : Fld := (32, 1)
abbrev force : Fld := (33, 1)
abbrev svrMask : Fld := (48, 16)

/-- Table 16-4: KEY_*. -/
abbrev slot : Fld := (32, 7)
abbrev bmr : Fld := (32, 3)
abbrev kClass : Fld := (40, 1)
abbrev alg : Fld := (48, 2)
abbrev usage : Fld := (64, 2)
abbrev kLength : Fld := (48, 16)
abbrev kData8 : Fld := (64, 64)
abbrev nonce : Fld := (192, 256)

end D

/-- Opcode of a descriptor. -/
def descOp (b : List Byte) : Nat := D.op.of b

/-- The fields an opcode and subop use between bytes 4 and 59. -/
def descFields (op subop : Nat) (b : List Byte) : List Fld :=
  match op with
  | 0x01 => [D.count, D.cls, D.asap, D.coe, D.dropIfLate, D.auth, D.tag, D.atFrame]
  | 0x10 => [D.out, D.kind, D.src, D.chan, D.mode, D.prefSet, D.preferred]
  | 0x11 => D.aCount :: (List.range (min 6 (D.aCount.of b))).map fun j => (64 + 64 * j, 59)
  | 0x12 => [D.out, D.fCls, D.declass, D.fmt, D.offset]
  | 0x13 => [D.out, D.palOnly, D.enable, D.bpp, D.load, D.set, D.ps, D.x0, D.y0, D.width, D.height, D.stride,
      D.addr, D.palAddr]
  | 0x14 => [D.cChan, D.mirrored, D.cSrc, D.profile, D.cMin, D.cMax, D.cTokens]
  | 0x15 => [D.cChan, D.cPlanes]
  | 0x16 => [D.sSrc, D.cPlanes, D.sMin, D.sMax, D.sTokens]
  | 0x20 => [D.first, D.entries]
  | 0x21 => [D.planes, D.pages, D.tokens, D.units, D.result]
  | 0x22 => [D.planes, D.pages, D.tokens, D.units, D.result]
  | 0x30 => if subop = 0 then [D.sec, D.ns, D.frac] else [D.sec, D.offNs, D.frac]
  | 0x31 => [D.planes, D.restored, D.owner, D.hOffset, D.hLength, D.host]
  | 0x32 => [D.planes, D.owner, D.hOffset, D.hLength, D.host]
  | 0x40 => [D.nAddr, D.nLength, D.host]
  | 0x41 => [D.nAddr, D.nLength, D.host]
  | 0x50 => [D.host]
  | 0x51 => [D.bmr, D.host]
  | 0x52 => [D.slot, D.kClass, D.alg, D.usage, D.host, D.nonce]
  | 0x53 => [D.slot, D.host, D.nonce]
  | 0x54 => [D.host, D.nonce]
  | 0x55 => [D.slot, D.host]
  | 0x56 => [D.slot]
  | 0x57 => [D.kData8, D.host]
  | 0x58 => [D.slot, D.kData8, D.host]
  | 0x59 => [D.slot, D.kLength, D.kData8, D.host]
  | 0x60 => [D.port, D.force, D.svrMask]
  | 0x7F => [D.keyGen, D.mac]
  | _ => []

/-- An opcode that may stand as a salvo entry (Table 7-3). -/
def entryOp (op : Nat) : Bool :=
  op == 0x00 || (decide (0x10 ≤ op ∧ op ≤ 0x16)) || (decide (0x20 ≤ op ∧ op ≤ 0x22))

/-- An opcode that may begin an item (Table 7-3, R505). -/
def headOp (op : Nat) : Bool :=
  op == 0x00 || op == 0x01 || (decide (0x20 ≤ op ∧ op ≤ 0x22)) || (decide (0x30 ≤ op ∧ op ≤ 0x32))
    || op == 0x40 || op == 0x41 || (decide (0x50 ≤ op ∧ op ≤ 0x59)) || op == 0x60

/-- The descriptor's CRC holds (R264). -/
def descCrcOk (b : List Byte) : Bool := D.crc.of b == crc32c (b.take 60)

/-- The subop is one its opcode defines, and every reserved bit is 0 (R16, R561). -/
def descFormOk (b : List Byte) : Bool :=
  decide (D.subop.of b ≤ b2n (descOp b == 0x30)) && reservedOk 16 480 (descFields (descOp b) (D.subop.of b) b) b

/-- TAKE_FORMAT's declass. -/
def fmtDeclass (b : List Byte) : Bool := D.declass.on b
/-- TAKE_FORMAT's class. -/
def fmtCls (b : List Byte) : Nat := D.fCls.of b

/-- The item's first descriptor. -/
def Item.head (it : Item) : List Byte := it.descs.headD []
/-- The item is a salvo. -/
def Item.isSalvo (it : Item) : Bool := descOp it.head == 0x01
/-- The salvo is ASAP (R273). -/
def Item.asap (it : Item) : Bool := D.asap.on it.head
/-- The salvo's class. -/
def Item.cls (it : Item) : Nat := D.cls.of it.head
/-- The salvo carries AUTH. -/
def Item.auth (it : Item) : Bool := D.auth.on it.head
/-- The salvo's entries, without header and AUTH. -/
def Item.entries (it : Item) : List (List Byte) := if it.isSalvo then (it.descs.drop 1).take (D.count.of it.head) else []
/-- The entries with their numbers from 1. -/
def Item.numbered (it : Item) : List (Nat × List Byte) := (span 1 it.entries.length).zip it.entries
/-- The AUTH descriptor. -/
def Item.authBytes (it : Item) : List Byte := it.descs.getD (D.count.of it.head + 1) []

/-! ### CCT entries -/

namespace C

/-- Table 9-2, every type. -/
abbrev type : Fld := (0, 8)
abbrev version : Fld := (8, 8)
abbrev crc : Fld := (2016, 32)
/-- Type 1, input. -/
abbrev delay : Fld := (32, 32)
abbrev depth : Fld := (64, 4)
abbrev anc : Fld := (72, 8)
abbrev syncFmt : Fld := (80, 8)
abbrev hold : Fld := (88, 8)
/-- Type 2, output. -/
abbrev outByte : Fld := (32, 8)
abbrev matchLine : Fld := (48, 12)
/-- Type 3, conversion. -/
abbrev outFmt : Fld := (32, 8)
abbrev ancConv : Fld := (40, 8)
abbrev inFmt : Fld := (64, 8)
abbrev aspect : Fld := (72, 2)
abbrev cropX : Fld := (96, 13)
abbrev cropY : Fld := (112, 13)
abbrev cropW : Fld := (128, 13)
abbrev cropH : Fld := (144, 13)
abbrev inMatrix : Fld := (160, 2)
abbrev outMatrix : Fld := (162, 2)
abbrev lutSet : Fld := (176, 12)
abbrev lutAddr : Fld := (192, 32)
abbrev dropAtc : Fld := (224, 1)
abbrev dropCaptions : Fld := (225, 1)
abbrev dropAfd : Fld := (226, 1)
abbrev passCount : Fld := (232, 7)
/-- PX_ASRC (Table 11-4). -/
abbrev mask : Fld := (64, 16)
abbrev asrcDelay : Fld := (80, 13)
/-- Type 4, overlay set. -/
abbrev pages : Fld := (32, 32)
abbrev tokens : Fld := (64, 16)

end C

/-- The type code of a CCT id (Table 9-1). -/
def cctType (id : Nat) : Nat := if id < 1152 then 1 else if id < 2304 then 2 else if id < 2496 then 3 else 4

/-- The fields of a conversion entry by Table 10-4, with its list entries in use. -/
def convFields (passes : Nat) : List Fld :=
  [C.outFmt, C.ancConv, C.inFmt, C.aspect, (80, 5), (88, 4), C.cropX, C.cropY, C.cropW, C.cropH, (160, 4), C.lutSet,
    C.lutAddr, (224, 3), C.passCount, (992, 16 * min 64 passes)]

/-- Table 11-4's fields. -/
def asrcFields : List Fld := [C.outFmt, C.ancConv, C.mask, C.asrcDelay]

/-- The fields of an entry of an id; for type 3 by the layout in force: 0 both, 1 Table 10-4, 2 Table 11-4
(R310). -/
def cctFields (id layout : Nat) (b : List Byte) : List Fld :=
  [C.type, C.version] ++
  match cctType id with
  | 1 => [C.delay, C.depth, C.anc, C.syncFmt, C.hold]
  | 2 => [C.outByte, C.matchLine]
  | 3 =>
    if layout = 1 then convFields (C.passCount.of b) else if layout = 2 then asrcFields
    else convFields (C.passCount.of b) ++ asrcFields
  | _ => [C.pages, C.tokens]

/-- R310: 0 for a usable entry, else the status of the item that needs it: CRC_ERR or INVALID. -/
def cctStatus (id layout : Nat) (b : List Byte) : Nat :=
  if C.crc.of b != crc32c (b.take 252) then 0x11
  else if C.type.of b == cctType id && C.version.of b == 1 && reservedOk 0 2016 (cctFields id layout b) b then 0
  else 0x12

/-- Form, tally and ev_en of an output entry (Table 9-2). -/
def outForm (c : Nat) : Bool := c % 2 == 1
def outTally (c : Nat) : Nat := c / 2 % 8
def outEvEn (c k : Nat) : Bool := bitOf c (4 + k)

/-! ### Profile codes (Table 10-1) -/

/-- PX_ASRC. -/
abbrev pxAsrc : Nat := 0x10
/-- The base code of a profile code. -/
def baseOf (profile : Nat) : Nat := profile % 256

end Sys2Proof.Machine
end

