-- ==== Sys2Proof/Machine/PlaneFault.lean ====
section
/-! DEFINITION. What changes of a timebase's or a lane synthesizer's state bring about in the
synthesizers, at the clock outputs and on the lock pins (R441, R443, R445), and the declaration of a plane fault (R296). -/

namespace Sys2Proof.Machine

/-! ### Lane synthesizers and synthesizers (Table 13-4) -/

/-- State of a lane synthesizer: 0 locking, 1 locked, 2 coasting, 3 failed. -/
def Dev.lsState (d : Dev) : Plane → Nat
  | .a => d.rd F.CLK_STATUS_ls_a_state
  | .b => d.rd F.CLK_STATUS_ls_b_state

/-- The lane synthesizer that a synthesizer takes as its reference (Table 13-4, R434). -/
def Dev.synRef (d : Dev) (m : Nat) : Plane := if m < 2 then .a else if m < 4 then .b else d.clk.omRef

/-- The timebase that steers a synthesizer (Table 13-4). -/
def Dev.synSteer (d : Dev) (m : Nat) : Plane := if m < 2 then .a else if m < 4 then .b else d.lead

/-- The synthesizer's eps is frozen by its reference or its timebase (R441). -/
def Dev.synFrozen (d : Dev) (m : Nat) : Bool :=
  let st := d.tbState (d.synSteer m)
  d.lsState (d.synRef m) == 2 || st == 3 || st == 4

/-- Locked synthesizers begin or end coasting with their reference and their timebase (R441). -/
def Dev.refreshCoast (d : Dev) : Dev :=
  d.each (List.range 6) fun d m =>
    if !d.bitAt F.CLK_STATUS_syn_lock m then d
    else if d.synFrozen m then
      if d.bitAt F.CLK_STATUS_syn_coast m then d
      else (d.setBit F.CLK_STATUS_syn_coast m true).occur (evSyn m) 0x6A
    else d.setBit F.CLK_STATUS_syn_coast m false

/-- Both synthesizers of a lock pin are locked (R445). -/
def Dev.pinSynsLocked (d : Dev) (p : Plane) : Bool :=
  d.bitAt F.CLK_STATUS_syn_lock (2 * p.id) && d.bitAt F.CLK_STATUS_syn_lock (2 * p.id + 1)

/-- The error e of a lock pin in u of 1 us x e (R445). -/
def Dev.pinError (d : Dev) (p : Plane) : Nat :=
  let st := d.tbState p
  if !d.pinSynsLocked p || d.flag F.CLK_STATUS_safe || st == 0 || st == 4 || st == 6 then usU
  else if st == 3 then d.clk.lockE.pl p
  else min usU (d.tb p).phase.natAbs

/-- How long a lock pin is pulled low in each 10 us, in u: (1 - e) x 10 us; none: released, while it is not enabled or the safe
state is in force (R445, R446). -/
def Dev.pinLow (d : Dev) (p : Plane) : Option Nat :=
  let en := match p with
    | .a => d.flag F.CLK_LOCK_CFG_en_a
    | .b => d.flag F.CLK_LOCK_CFG_en_b
  if en && !d.flag F.CLK_STATUS_safe then some (10 * (usU - d.clk.lockE.pl p)) else none

/-- A lock pin follows its error (R445). -/
def Dev.refreshPin (d : Dev) (p : Plane) : Dev :=
  if d.pinLow p = d.clk.pins.pl p then d
  else { d with clk := { d.clk with pins := d.clk.pins.modPl p fun _ => d.pinLow p } }.emit (.lockPin p (d.pinLow p))

/-! ### Clock outputs (R442, R443) -/

/-- The loop's consumers are gated until its final ratio locks (R442). -/
def Dev.gated (d : Dev) (l : Nat) : Bool := d.clk.ramping.contains l

/-- The synthesizer runs: SYN5 only while enabled, or while it stands in for SYN4. -/
def Dev.synRuns (d : Dev) (m : Nat) : Bool :=
  decide (m < 5) || d.flag F.CLK_SYN_N_enable 5 || d.flag F.CLK_STATUS_syn4_on_syn5

/-- The synthesizer of a source of Table 13-10: 6 and 7 are those of the lead's plane. -/
def Dev.ckoSyn (d : Dev) (src : Nat) : Nat := if src < 6 then src else 2 * d.lead.id + (src - 6)

/-- The timing class whose frame starts a PULSE setting marks; none: it marks the epoch seconds (Table 13-10). -/
def pulseClass (cfg : Nat) : Option Nat := if bitOf cfg 6 then some (bits cfg 10 7) else none

/-- The pulses of a PULSE setting (R443): a width of div x 100 ns that is not shorter than the period is half the period, in whole
u. -/
def Dev.pulse (d : Dev) (cfg div : Nat) : Pulse :=
  let (num, den) := match pulseClass cfg with
    | some n => (rateNum (d.clsRate n), rateDen (d.clsRate n))
    | none => (1, 1)
  let w := div * 100 * nsU
  { cls := pulseClass cfg, falling := bitOf cfg 11, width := if w * num < den * secU then w else den * secU / (2 * num) }

/-- How a clock output is driven (R443): undriven with mode 0 and in the safe state; at its idle level while its synthesizer is
gated, does not run, or is SYN5 in SYN4's stead (R441, R442), while XB is not qualified, while the class of its pulses is not
enabled (log 72), and with sources 10-15. -/
def Dev.ckoDrive (d : Dev) (c : Nat) : Option CkoDrive :=
  let cfg := Tbl.get 0 d.clk.ckoCfg c
  let div := Tbl.get 0 d.clk.ckoDiv c
  let src := cfg / 4 % 16
  if cfg % 4 = 0 ∨ d.flag F.CLK_STATUS_safe = true then none
  else if src < 8 then
    let m := d.ckoSyn src
    some { mode := cfg % 4, src := m, div := max 2 div, high := (max 2 div + 1) / 2
           idle := d.gated m || !d.synRuns m || (m == 5 && d.flag F.CLK_STATUS_syn4_on_syn5) }
  else if src = 8 then some { mode := cfg % 4, src := 8, idle := !d.flag F.CLK_STATUS_xb_qualified }
  else if src = 9 then some { mode := cfg % 4, src := 9, pulse := some (d.pulse cfg div)
                              idle := (pulseClass cfg).any fun n => !d.clsOn n }
  else some { mode := cfg % 4, src := src, idle := true }

/-- A clock output follows its source. -/
def Dev.refreshCko (d : Dev) (c : Nat) : Dev :=
  if d.ckoDrive c = Tbl.get none d.clk.cko c then d
  else { d with clk := { d.clk with cko := Tbl.set none d.clk.cko c (d.ckoDrive c) } }.emit (.cko c (d.ckoDrive c))

/-- The PULSE outputs of a class follow a change of it (R443). -/
def Dev.refreshPulses (d : Dev) (n : Nat) : Dev :=
  d.each (List.range 8) fun d c =>
    let cfg := Tbl.get 0 d.clk.ckoCfg c
    d.when (cfg / 4 % 16 == 9 && pulseClass cfg == some n) fun d => d.refreshCko c

/-- The lock pins and the clock outputs follow the timebases and synthesizers (R443, R445). -/
def Dev.refreshPins (d : Dev) : Dev :=
  let d := { d with clk := { d.clk with lockE := ⟨d.pinError .a, d.pinError .b⟩ } }
  ((d.refreshPin .a).refreshPin .b).each (List.range 8) fun d c => d.refreshCko c

/-- A timebase enters a state of Table 2-5, with its events and its Becalmed cause (Tables 12-4, 12-5); `parent` is the id of
the cause that brought a BECALMED about (R414). -/
def Dev.setTb (d : Dev) (p : Plane) (v : Nat) (parent : Nat := 0) : Dev :=
  let old := d.tbState p
  let d := d.setTbState p v
  let d := if old == 4 && v != 4 then d.endCause (evTb p) else d
  let d := if v == 4 && old != 4 then d.setCause (evTb p) 0x49 0 0 parent else d
  let d := if v == 2 && old != 2 then d.occur (evTb p) 0x4A else d
  let d := if v == 6 && old != 6 then d.occur (evTb p) 0x4E else d
  d.refreshCoast.refreshPins

/-! ### Plane faults (R296) -/

/-- The plane's service state (Table 8-3). -/
def Dev.plState (d : Dev) (p : Plane) : Nat := d.rd F.PL_STATUS_state p.id

/-- In service, for applying salvos and computing outputs: IN_SERVICE or JOINING (R568). -/
def Dev.inService (d : Dev) (p : Plane) : Bool := d.plState p == 0 || d.plState p == 3

/-- A plane fault is declared: FAULTED or RESTARTING (R568). -/
def Dev.plFaulted (d : Dev) (p : Plane) : Bool := d.plState p == 1 || d.plState p == 2

/-- The cause allows automatic restart (Table 8-2). -/
def autoAllowed (cause : Nat) : Bool := cause != 5 && cause != 8

/-- A plane enters a service state of Table 8-3, with its STATE event and SEL_STATUS (R568). -/
def Dev.setPlane (d : Dev) (p : Plane) (v : Nat) : Dev :=
  let d := d.wr F.PL_STATUS_state v p.id
  let d := match p with
    | .a => d.put F.SEL_STATUS_plane_a_ok (v == 0)
    | .b => d.put F.SEL_STATUS_plane_b_ok (v == 0)
  d.occur (evPl p) 0x51 v

/-- A faulted plane applies no part of any salvo, and its applied bits read 0 (R297, R298). -/
def Dev.unapply (d : Dev) (p : Plane) : Dev :=
  { d with svr := d.svr.map fun (x : Nat × SvRing) => (x.1, { x.2 with items := x.2.items.map fun it =>
      if it.phase == .latched then { it with applied := it.applied.modPl p fun _ => false } else it }) }

/-- The channels open as the plane fails are those that its return reopens; those that an unfinished return has still to
reopen stay among them (R301). -/
def PlaneSt.keepOpen (x : PlaneSt) (fresh : Bool) : PlaneSt :=
  { x with was := (x.owners.filter fun o => o.2.isOpen).foldl (fun t o => Tbl.set {} t o.1 o.2) (if fresh then [] else x.was) }

/-- A cause of Table 8-2 on a plane (R296, R298): a new fault outside FAULTED, else the cause is noted.
`parent` is the id of the cause that brought it about (R414). -/
def Dev.planeFault (d : Dev) (p : Plane) (cause : Nat) (parent : Nat := 0) : Dev :=
  let d1 := d.wr F.PL_STATUS_cause cause p.id
  if d.plState p == 1 then d1.modPlane p fun x => { x with autoOk := x.autoOk && autoAllowed cause }
  else
    let d := d1.modPlane p fun x => { (x.keepOpen (d.plState p == 0)) with faultAt := d.now, autoOk := autoAllowed cause }
    let d := d.bump F.PL_CNT_faults p.id
    let d := d.countUp (3 + p.id)
    let d := d.setCause (evPl p) 0x50 cause parent parent
    ((d.setPlane p 1).setTb p 6).unapply p

end Sys2Proof.Machine
end

