-- ==== Sys2Proof/Machine/Lanes.lean ====
section
/-! DEFINITION. Waftlink lanes (chapter 3): bring-up, alignment, recovery, electrical idle; and the part of
the Breeze channel (R169-R177) that lane states drive. -/

namespace Sys2Proof.Machine

/-! ### Reading a pair -/

/-- State of a pair (Table 3-5). -/
def Dev.lnState (d : Dev) (n : Nat) : Nat := d.rd F.LN_STATUS_state n

/-- Words since the pair entered its state. -/
def Dev.wordsIn (d : Dev) (n : Nat) : Nat := d.laneWords n (d.now - (d.lane n).since)

/-- The other member of a twin set. -/
def mate (n : Nat) : Nat := if n % 2 = 0 then n + 1 else n - 1

/-- The members of the pair's twin set, or the pair alone (R133). -/
def Dev.members (d : Dev) (n : Nat) : List Nat := if d.twinned n then [n / 2 * 2, n / 2 * 2 + 1] else [n]

/-- First slot number of the pair: that of the even member in a twin set (R3, R133). -/
def Dev.slot0 (d : Dev) (n : Nat) : Nat := 3 * (if d.twinned n then n / 2 * 2 else n)

/-- Slot positions that exist at the pair's rate (R4). -/
def Dev.positions (d : Dev) (n : Nat) : List Nat := if d.laneRate n = 0 then [0, 1, 2] else [0]

/-- The lanes that carry an output slot. -/
def Dev.egressLanes (d : Dev) (m : Nat) : List Nat := if d.slotExists m then d.members (m / 3) else []

/-- The accepted partner CAP: byte `k`. -/
def Dev.capByte (d : Dev) (n k : Nat) : Nat :=
  let w := match k / 4 with
    | 0 => d.rd F.LN_CAP_RX0_cap n
    | 1 => d.rd F.LN_CAP_RX1_cap n
    | 2 => d.rd F.LN_CAP_RX2_cap n
    | _ => d.rd F.LN_CAP_RX3_cap n
  bits w (8 * (k % 4) + 7) (8 * (k % 4))

/-- The partner transmits at position `q` (Table 3-4). -/
def Dev.partnerTx (d : Dev) (n q : Nat) : Bool := bitOf (d.capByte n 3) q
/-- The partner receives at position `q`. -/
def Dev.partnerRx (d : Dev) (n q : Nat) : Bool := bitOf (d.capByte n 3) (4 + q)

/-- Electrical idle is in use on the pair (R129). -/
def Dev.idleUsed (d : Dev) (n : Nat) : Bool :=
  d.lnState n == 6 && d.laneRate n != 1 && bitOf (d.capByte n 2) 1

/-- Ingress parcels of the pair are taken (R120, R123). -/
def Dev.rxOpen (d : Dev) (n : Nat) : Bool :=
  d.lnState n == 6 && !d.flag F.LN_STATUS_rx_recover n && !d.flag F.LN_STATUS_rx_idle n

/-- The route of an output on a plane is not kind 0, now or once its pending entry lands. -/
def Dev.hasRoute (d : Dev) (o : Nat) : Bool :=
  let h := d.headOf o
  let one (p : Plane) : Bool :=
    let x := d.op h p
    x.active.kind != 0 || (x.pend.toList ++ x.next.toList).any fun y => y.route.kind != 0
  one .a || one .b || (d.changesOf o).any fun c => c.takes.any fun b => descOp b == 0x10 && D.kind.of b != 0

/-- Some output slot of the lane or of its twin set has a route (R127). -/
def Dev.laneRouted (d : Dev) (n : Nat) : Bool := (d.positions n).any fun q => d.hasRoute (d.slot0 n + q)

/-- The device's own CAP (Table 3-4). -/
def Dev.ownCap (d : Dev) (n : Nat) : List Byte :=
  let r := d.laneRate n
  let slots := if r = 0 then 7 else 1
  le 1 (if r = 1 then 1 else 2) ++ le 1 r
    ++ le 1 (b2n (d.lane n).capOk + 2 * b2n (r != 1) + 4 * b2n (d.twinned n) + 8)
    ++ le 1 (slots + 16 * slots) ++ le 2 n ++ le 1 8 ++ le 1 0 ++ le 4 0x4F4C1152 ++ zeros 3

/-- A partner CAP is compatible (R117). -/
def Dev.capFits (d : Dev) (n : Nat) (cap : List Byte) : Bool :=
  let r := d.laneRate n
  let v := fieldAt cap 0 1
  let slots := fieldAt cap 3 1
  let none' (m : Nat) : Bool := m % 8 ≤ (if r = 0 then 7 else 1)
  fieldAt cap 1 1 % 4 == r && (if r = 1 then v == 1 || v == 2 else v == 2)
    && none' slots && none' (slots / 16) && !(bitOf (fieldAt cap 2 1) 3 && fieldAt cap 6 1 == 0)

/-! ### Breeze: sending -/

/-- Breeze runs on the pair (R169). -/
def Dev.brzOn (d : Dev) (n : Nat) : Bool := d.flag F.LN_BRZ_STATUS_active n

/-- Credits the device may still use (R172, Table 4-17). -/
def Dev.brzLeft (d : Dev) (n : Nat) : Nat :=
  (d.lane n).credits - (d.rd F.LN_BRZ_STATUS_tx_seq n + 256 - d.rd F.LN_BRZ_STATUS_tx_release n) % 256

/-- tx_credits follows. -/
def Dev.noteCredits (d : Dev) (n : Nat) : Dev := d.wr F.LN_BRZ_STATUS_tx_credits (min 15 (d.brzLeft n)) n

/-- A message leaves; it carries every release so far (R170, R172, R174). -/
def Dev.sendBrz (d : Dev) (n ty : Nat) (payload : List Byte) : Dev :=
  let seq := d.rd F.LN_BRZ_STATUS_tx_seq n
  let d := d.emit (.breeze n (brzMsg ty seq (d.lane n).release payload))
  let d := d.modLane n fun l => { l with relDue := false }
  if ty = 0 then d else (d.wr F.LN_BRZ_STATUS_tx_seq ((seq + 1) % 256) n).noteCredits n

/-- Queued messages leave while credits last (R172). -/
def Dev.flushBrz (d : Dev) (n : Nat) : List (Nat × List Byte) → Dev
  | [] => d.modLane n fun l => { l with queue := [] }
  | m :: rest =>
    if 0 < d.brzLeft n then Dev.flushBrz (d.sendBrz n m.1 m.2) n rest
    else d.modLane n fun l => { l with queue := m :: rest }

/-- A condition of R127 fails now on a lane: the hold begins anew when it holds again. -/
def Dev.noteBusy (d : Dev) (n : Nat) : Dev := d.modLane n fun l => { l with busyAt := d.now }

/-- The routes of the output slots `ms` change now (R127). -/
def Dev.noteRouted (d : Dev) (ms : List Nat) : Dev := d.each (ms.flatMap d.egressLanes) Dev.noteBusy

/-- A credited message is queued, and leaves at once while Breeze runs, the egress is awake and credits last. -/
def Dev.queueBrz (d : Dev) (n ty : Nat) (payload : List Byte) : Dev :=
  if !d.brzOn n then d
  else
    let d := d.noteBusy n
    if d.flag F.LN_STATUS_tx_idle n then d.modLane n fun l => { l with queue := l.queue ++ [(ty, payload)] }
    else d.flushBrz n ((d.lane n).queue ++ [(ty, payload)])

/-! ### States -/

/-- A raster source raises an event only while its ev_en bit is 1 (R407). -/
def Dev.rasterOccur (d : Dev) (o k code : Nat) (a0 : Nat := 0) (cnt : Nat := 1) (time : Option Nat := none) : Dev :=
  if outEvEn (d.out o).cct k then d.occur (evRaster o k) code a0 0 cnt time else d

/-- The Ingress lane down cause follows its condition (Table 12-5). -/
def Dev.refreshDown (d : Dev) (n : Nat) : Dev :=
  if d.lnState n == 7 || d.flag F.LN_STATUS_rx_recover n then
    if d.laneDown n then d.modCause (evIL n) fun c => { c with cond := true }
    else d.setCause (evIL n) 0x20 (d.rd F.LN_STATUS_fail_cause n)
  else d.endCause (evIL n)

/-- The counters that entry to TRAIN clears (Tables 3-13, 4-17, R214). -/
def Dev.clearLaneCounters (d : Dev) (n : Nat) : Dev :=
  (((((d.setReg .LN_CNT_CODE n 0#32).setReg .LN_CNT_HDR n 0#32).setReg .LN_CNT_PCL n 0#32).setReg .LN_BRZ_CNT n 0#32).setReg
    .LN_TWIN_CNT n 0#32)

/-- What a pair begins to send on entry to a state (Table 3-5). -/
def Dev.stateSet (d : Dev) (n v : Nat) : Dev :=
  match v with
  | 0 => d.emit (.lane n .hiZ)
  | 2 => d.emit (.lane n (.wt1 4096))
  | 3 => d.emit (.lane n (.wt2 0))
  | 4 => d.emit (.lane n (.wt2 1))
  | 5 => d
  | 6 => d
  | _ => d.emit (.lane n .idle)

/-- Breeze begins anew on entry to ACTIVE, with IDENT and CREDIT sent (R174, R175). -/
def Dev.startBreeze (d : Dev) (n : Nat) : Dev :=
  let on := bitOf (d.capByte n 2) 3
  let d := (d.setReg .LN_BRZ_STATUS n 0#32).put F.LN_BRZ_STATUS_active on n
  let d := d.modLane n fun l => { l with credits := if on then d.capByte n 6 else 0, release := 0, used := 0
                                         relDue := false, queue := [], ident := [], pstatLast := [], twinLast := [] }
  let d := d.noteCredits n
  if on then
    (d.sendBrz n 0 []).queueBrz n 1 (le 4 0x4F4C1152 ++ le 8 Config.serial ++ le 4 Config.firmware)
  else d

/-- The egress lane's words begin: SKP words are placed from now on (R108). -/
def Dev.startWords (d : Dev) (n : Nat) : Dev := d.modLane n fun l => { l with skpFrom := d.now, skps := 0 }

/-- A Zephyr burst leaves (R130). -/
def Dev.zephyr (d : Dev) (n : Nat) : Dev := (d.emit (.lane n .zephyr)).startWords n

/-- A pair enters a state of Table 3-5; every state but OFF terminates the ingress legs (R112). -/
def Dev.setLane (d : Dev) (n v : Nat) : Dev :=
  let old := d.lnState n
  let d := (d.wr F.LN_STATUS_state v n).modLane n fun l => { l with since := d.now, winAt := d.now, winErr := 0, owed := false, restartRun := 0, busyAt := d.now, term := v != 0 }
  let d := d.when (v != 6) fun d =>
    (((d.put F.LN_STATUS_rx_idle false n).put F.LN_STATUS_tx_idle false n).put F.LN_STATUS_rx_recover false n).put
      F.LN_BRZ_STATUS_active false n
  let d := d.when (decide (v < 4) || v == 7) fun d => d.put F.LN_STATUS_rx_aligned false n
  let d := d.when (decide (v < 3) || v == 7) fun d => d.put F.LN_STATUS_rx_bitlock false n
  let d := d.when (v == 2) fun d => d.clearLaneCounters n
  let d := d.when (v == 3) fun d => (d.wr F.LN_STATUS_slips 0 n).put F.LN_COMMA_window_valid false n
  let d := d.when (v == 4) fun d => d.modLane n fun l =>
    { l with run21 := 0, capSeen := false, capLast := [], capRun := 0, capOk := false, capPeer := false, capSent := 0 }
  let d := d.stateSet n v
  let d := d.when (v == 6 && old != 6) fun d => ((d.startWords n).startBreeze n).occur (evIL n) 0x21
  d.refreshDown n

/-- The pair fails with a cause code of Table 3-5 (R111). -/
def Dev.failLane (d : Dev) (n cause : Nat) : Dev :=
  let was := d.lnState n
  let d := ((d.wr F.LN_STATUS_fail_cause cause n).bump F.LN_STATUS_fail_count n).raise F.LN_ERR_bringup_fail n
  let d := d.setLane n 7
  let d := d.when (was != 6) fun d => d.occur (evIL n) 0x22 cause
  d.when (cause == 6) fun d => d.occur (evEL n) 0x29

/-- OFF to DETECT (Table 3-5). -/
def Dev.tryDetect (d : Dev) (n : Nat) : Dev :=
  if d.lnState n == 0 && d.flag F.LN_CTRL_enable n && d.flag F.LN_OCT_STATUS_om_lock (n / 8) then d.setLane n 1 else d

/-- Ingress recovery begins (R120). -/
def Dev.beginRecovery (d : Dev) (n : Nat) : Dev :=
  if d.lnState n == 6 && !d.flag F.LN_STATUS_rx_recover n then
    let d := (((d.put F.LN_STATUS_rx_recover true n).put F.LN_STATUS_rx_aligned false n).put F.LN_STATUS_rx_idle false n).raise
      F.LN_ERR_rx_lost n
    let d := (d.wr F.LN_STATUS_slips 0 n).put F.LN_COMMA_window_valid false n
    (d.modLane n fun l => { l with recFrom := d.now, winAt := d.now, winErr := 0, restartRun := 0 }).refreshDown n
  else d

/-- An idle egress lane and its twin leave electrical idle: a Zephyr burst, then CREDIT (R130, R135, R174). -/
def Dev.wakeLane (d : Dev) (n : Nat) : Dev :=
  d.each (d.members n) fun d m =>
    if d.flag F.LN_STATUS_tx_idle m then
      let d := ((d.put F.LN_STATUS_tx_idle false m).zephyr m).noteBusy m
      if d.brzOn m then (d.sendBrz m 0 []).flushBrz m (d.lane m).queue else d
    else d

/-- The pair's ingress meets an error that starts recovery, unless the lane is idle (R120, R129). -/
def Dev.rxError (d : Dev) (n : Nat) : Dev := if d.flag F.LN_STATUS_rx_idle n then d else d.beginRecovery n

/-- A lane command: nothing moves during the safe state (R447). -/
def onLane (n t : Nat) (s : State) (f : Dev → Dev) : Host.Outcome State Fault Refusal :=
  onDev (laneOk n) t s fun d => if d.flag F.CLK_STATUS_safe then d else f d

/-- Words arrive on a pair: its signal is there (R123). -/
def Dev.hear (d : Dev) (n : Nat) : Dev := d.modLane n fun l => { l with noSignal := false }

/-- Words that are no WT2 and no SKP arrive: a run of WT2 words ends (R111, R124). -/
def Dev.hearSet (d : Dev) (n : Nat) : Dev := d.modLane n fun l => { l with noSignal := false, run21 := 0, restartRun := 0 }

/-- A command that brings received words: a pair in OFF, or with an idle ingress, does not take them (R111, R129). -/
def onWords (n t : Nat) (s : State) (f : Dev → Dev) : Host.Outcome State Fault Refusal :=
  onLane n t s fun d => if d.lnState n == 0 || d.flag F.LN_STATUS_rx_idle n then d else f d

/-! ### Set-up and bring-up -/

/-- LN_CTRL.enable is set (R111). -/
def Dev.laneEnable (d : Dev) (n : Nat) : Dev :=
  let d := d.put F.LN_CTRL_enable true n
  if d.flag F.CLK_STATUS_safe then d else d.tryDetect n

/-- LANE_ENABLE (R111). -/
def execLaneEnable (t n : Nat) (s : State) : Host.Outcome State Fault Refusal :=
  onDev (laneOk n) t s fun d => if d.octetGated (n / 8) then d else (d.laneEnable n).noteReg d .LN_CTRL n

/-- LN_CTRL.enable is cleared (Table 3-10): LULL before OFF where the pair is ACTIVE and has LULL. -/
def Dev.laneDisable (d : Dev) (n : Nat) : Dev :=
  let d := d.put F.LN_CTRL_enable false n
  if d.flag F.CLK_STATUS_safe || d.lnState n == 0 then d
  else
    (d.when (d.lnState n == 6 && d.laneRate n != 1 && !d.flag F.LN_STATUS_tx_idle n) fun d => d.emit (.lane n (.lull 4))).setLane n 0

/-- LANE_DISABLE (R111). -/
def execLaneDisable (t n : Nat) (s : State) : Host.Outcome State Fault Refusal :=
  onDev (laneOk n) t s fun d => if d.octetGated (n / 8) then d else (d.laneDisable n).noteReg d .LN_CTRL n

/-- A write of 1 to LN_CTRL.retrain (Table 3-10). -/
def Dev.retrain (d : Dev) (n : Nat) : Dev := if d.lnState n == 0 then d else d.setLane n 1

/-- LN_RETRAIN (R111). -/
def execLnRetrain (t n : Nat) (s : State) : Host.Outcome State Fault Refusal :=
  onLane n t s fun d => if d.octetGated (n / 8) then d else d.retrain n

/-- A slip is taken (R114, R115): the boundary moves one bit later and the window starts again. The eleventh of an attempt
ends it as failed; in ingress recovery the next attempt follows (R121). -/
def Dev.slip (d : Dev) (n : Nat) : Dev :=
  let k := d.rd F.LN_STATUS_slips n
  if decide (10 ≤ k) && d.lnState n == 3 then d.failLane n 2
  else ((d.wr F.LN_STATUS_slips (if 10 ≤ k then 0 else k + 1) n).put F.LN_COMMA_window_valid false n).modLane n fun l =>
    { l with boundary := (l.boundary + 1) % 10, winAt := d.now, winErr := 0 }

/-- An alignment attempt is under way: ALIGN or ingress recovery, not aligned (R115). -/
def Dev.searching (d : Dev) (n : Nat) : Bool :=
  (d.lnState n == 3 || d.flag F.LN_STATUS_rx_recover n) && !d.flag F.LN_STATUS_rx_aligned n

/-- One step of the firmware search on a completed window (R115), while its core runs (Table 14-4); a failed attempt in recovery is followed
by the next (R121). -/
def Dev.fwStep (d : Dev) (n : Nat) : Dev :=
  if d.searching n && !d.flag F.LN_CTRL_host_align n && d.taskRuns 1 && d.flag F.LN_COMMA_window_valid n
      && decide (16 ≤ d.rd F.LN_COMMA_anywhere n) then
    if d.rd F.LN_STATUS_slips n = 10 then if d.lnState n == 3 then d else d.wr F.LN_STATUS_slips 0 n
    else d.slip n
  else d

/-- A write of 1 to LN_CTRL.bit_slip by host software or by Rambler firmware (R115). -/
def Dev.bitSlip (d : Dev) (n : Nat) (host : Bool) : Dev :=
  if d.searching n && d.flag F.LN_CTRL_host_align n == host then d.slip n else d

/-- LN_BIT_SLIP (R115). -/
def execLnBitSlip (t n : Nat) (host : Bool) (s : State) : Host.Outcome State Fault Refusal :=
  onLane n t s fun d => if d.octetGated (n / 8) then d else d.bitSlip n host

/-- A write to LN_OCT_CTRL (R99, R133, Table 3-10, R560). -/
def Dev.octWrite (d : Dev) (k : Nat) (val : Word) : Dev :=
  let locked := d.flag F.LN_OCT_CTRL_lock k
  let busy := (List.range 8).any fun j => d.flag F.LN_CTRL_enable (8 * k + j)
  let r0 := d.rd F.LN_OCT_CTRL_rate k
  let r := F.LN_OCT_CTRL_rate.get val
  let w0 := d.rd F.LN_OCT_CTRL_twin k
  let w := F.LN_OCT_CTRL_twin.get val
  let d := if locked || r == r0 then d
    else if r == 3 || busy then d.raise F.LN_OCT_STATUS_rate_ignored k
    else d.wr F.LN_OCT_CTRL_rate r k
  let d := if locked || w == w0 then d
    else if busy || ((r0 == 1 || d.rd F.LN_OCT_CTRL_rate k == 1) && (w &&& (15 - w0)) != 0) then
      d.raise F.LN_OCT_STATUS_twin_ignored k
    else d.wr F.LN_OCT_CTRL_twin w k
  d.when (F.LN_OCT_CTRL_lock.get val == 1) fun d => d.raise F.LN_OCT_CTRL_lock k

/-- LN_OCT_CTRL_WRITE (R133). -/
def execLnOctCtrlWrite (t k : Nat) (val : Word) (s : State) : Host.Outcome State Fault Refusal :=
  onDev (octetOk k) t s fun d => if d.octetGated k then d else (d.octWrite k val).noteReg d .LN_OCT_CTRL k

/-- DETECT_PULSE (R111). -/
def execDetectPulse (t n : Nat) (found : Bool) (s : State) : Host.Outcome State Fault Refusal :=
  onLane n t s fun d =>
    if d.lnState n == 1 then (d.emit (.lane n .detect)).when found fun d => d.setLane n 2 else d

/-- RX_BIT_LOCK (R111): bit lock has held for 10 us. -/
def execRxBitLock (t n : Nat) (s : State) : Host.Outcome State Fault Refusal :=
  onLane n t s fun d =>
    if d.lnState n = 0 then d
    else
      let d := (d.put F.LN_STATUS_rx_bitlock true n).modLane n fun l => { l with noSignal := false }
      if d.lnState n == 2 && decide (4096 ≤ d.wordsIn n) then
        (d.setLane n 3).put F.LN_STATUS_rx_bitlock true n
      else d

/-- Code and disparity errors counted (R104). -/
def Dev.countErrors (d : Dev) (n code disp : Nat) : Dev :=
  (d.bump F.LN_CNT_CODE_code_err n code).bump F.LN_CNT_CODE_disp_err n disp

/-- Code errors that a command of its own reports: counted, and part of the window under way (R104, R120). -/
def Dev.codeErrors (d : Dev) (n k : Nat) : Dev :=
  (d.countErrors n k 0).modLane n fun l => { l with winErr := l.winErr + k }

/-- Errors of the window under way: those counted at its end and those reported in it. -/
def Dev.windowErrors (d : Dev) (n code disp : Nat) : Nat := code + disp + (d.lane n).winErr

/-- 1,024 symbols have passed since the window began, at a rate within R101. -/
def Dev.windowOver (d : Dev) (n : Nat) : Bool := decide (255 ≤ d.laneWords n (d.now - (d.lane n).winAt))

/-- A window ends and the next begins (R114, R120). -/
def Dev.endWindow (d : Dev) (n code disp : Nat) : Dev :=
  (d.countErrors n code disp).modLane n fun l => { l with winAt := d.now, winErr := 0 }

/-- Symbol alignment is declared with K28.5 at position `pos` of the receive word (R105, R114): on to HANDSHAKE, or
recovery ends (R123), after which the first parcels are not counted under R152. -/
def Dev.declareAligned (d : Dev) (n pos : Nat) : Dev :=
  let d := (d.put F.LN_STATUS_rx_aligned true n).modLane n fun l => { l with wordPos := pos % 4 }
  if d.lnState n == 3 then d.setLane n 4
  else (((d.put F.LN_STATUS_rx_recover false n).modLane n fun l => { l with seqPrev := [] }).refreshDown n).occur (evIL n) 0x21

/-- ALIGN_WINDOW_END (R114, R120): a window ends with its commas counted. -/
def execAlignWindowEnd (t n atBoundary anywhere code disp pos : Nat) (s : State) : Host.Outcome State Fault Refusal :=
  onWords n t s fun d =>
    if !d.windowOver n then d
    else
      let errs := d.windowErrors n code disp
      let d := d.when (decide (0 < anywhere)) fun d => d.hear n
      let d := ((d.wr F.LN_COMMA_at_boundary (min 2047 atBoundary) n).wr F.LN_COMMA_anywhere (min 2047 anywhere) n).put
        F.LN_COMMA_window_valid true n
      let d := (d.put F.LN_COMMA_clean (errs == 0) n).endWindow n code disp
      if d.searching n && decide (16 ≤ atBoundary) && errs == 0 then d.declareAligned n pos
      else if 16 ≤ errs then (d.beginRecovery n).fwStep n
      else d.fwStep n

/-- HANDSHAKE to CAP: the partner is ready and 16 WT2 words have been sent (Table 3-5). -/
def Dev.tryCap (d : Dev) (n : Nat) : Dev :=
  let l := d.lane n
  if d.lnState n == 4 && (decide (8 ≤ l.run21) || l.capSeen) && decide (16 ≤ d.wordsIn n) then d.setLane n 5 else d

/-- The partner restarts (R124). -/
def Dev.partnerRestart (d : Dev) (n v : Nat) : Dev := (d.occur (evIL n) 0x25).setLane n v

/-- WT2 in ACTIVE: a recovery request (R122) or a partner restart (R124). -/
def Dev.wt2Active (d : Dev) (n : Nat) (status : Wt2Status) (inParcel : Bool) : Dev :=
  match status with
  | .recovery =>
    let d := (d.modLane n fun l => { l with owed := true, reqAt := d.now, ran := false, restartRun := 0 }).raise
      F.LN_ERR_peer_recover n
    (d.occur (evEL n) 0x28).wakeLane n
  | _ =>
    let k := if inParcel then 0 else (d.lane n).restartRun + 1
    let d := d.modLane n fun l => { l with restartRun := k }
    if 8 ≤ k then d.partnerRestart n 4 else d

/-- WT2_RECEIVED (R107, R111, R122, R124). -/
def execWt2Received (t n : Nat) (status : Wt2Status) (inParcel : Bool) (s : State) : Host.Outcome State Fault Refusal :=
  onWords n t s fun d =>
    let d := d.hear n
    if status = .other then (d.codeErrors n 1).hearSet n
    else if d.lnState n = 4 then
      (d.modLane n fun l => { l with run21 := if status = .ready then l.run21 + 1 else 0 }).tryCap n
    else if d.lnState n = 6 then d.wt2Active n status inParcel
    else d

/-- CAP to ACTIVE (R118). -/
def Dev.tryActive (d : Dev) (n : Nat) : Dev :=
  let l := d.lane n
  if d.lnState n == 5 && l.capOk && l.capPeer && decide (3 ≤ l.capSent) then d.setLane n 6 else d

/-- NOT_RECEIVED for every routed output at a position the partner does not receive, or whose slot has ceased to exist; a
2160p group reports from its first slot (R164, R193, R221, Table 12-4). -/
def Dev.noteNotReceived (d : Dev) (n : Nat) : Dev :=
  d.each ((d.members n).flatMap fun m => span (3 * m) 3) fun d o =>
    let h := d.headOf o
    d.when (((d.op h .a).active.kind != 0 || (d.op h .b).active.kind != 0) && (!d.slotExists o || !d.partnerRx n (o % 3))) fun d =>
      d.rasterOccur h 3 0x05 (o % 3)

/-- Three identical copies: the partner's CAP is accepted or found incompatible (R117). -/
def Dev.acceptCap (d : Dev) (n : Nat) (cap : List Byte) : Dev :=
  if !d.capFits n cap then d.failLane n 6
  else
    let d := (d.wr F.LN_CAP_RX0_cap (fieldAt cap 0 4) n).wr F.LN_CAP_RX1_cap (fieldAt cap 4 4) n
    let d := (d.wr F.LN_CAP_RX2_cap (fieldAt cap 8 4) n).wr F.LN_CAP_RX3_cap (fieldAt cap 12 3) n
    let d := d.put F.LN_STATUS_partner_w1 (fieldAt cap 0 1 == 1) n
    let d := d.modLane n fun l => { l with capOk := true, capPeer := bitOf (fieldAt cap 2 1) 0 }
    (d.noteNotReceived n).tryActive n

/-- A received CAP with its reserved bits as 0 (Table 3-4, R117). -/
def capMasked (cap : List Byte) : List Byte :=
  (List.range 15).map fun k =>
    cap.getD k 0#8 &&& (if k = 1 then 0x03#8 else if k = 2 then 0x0F#8 else if k = 3 then 0x77#8
      else if k = 7 ∨ 12 ≤ k then 0#8 else 0xFF#8)

/-- CAP_RECEIVED (R117, R118): copies that differ in reserved bits alone are identical; LN_CAP_RX shows those of the last
(log 45). -/
def execCapReceived (t n : Nat) (cap : List Byte) (s : State) : Host.Outcome State Fault Refusal :=
  onWords n t s fun d =>
    let d := d.hearSet n
    let cap := fit 15 cap
    if d.lnState n = 6 then (d.raise F.LN_ERR_cap_active n).occur (evIL n) 0x26
    else if d.lnState n = 4 ∨ d.lnState n = 5 then
      let k := if (d.lane n).capLast = capMasked cap then (d.lane n).capRun + 1 else 1
      let d := (d.modLane n fun l => { l with capLast := capMasked cap, capRun := k, capSeen := true }).tryCap n
      if d.lnState n == 5 && decide (3 ≤ k) then d.acceptCap n cap else d
    else d

/-- CAP_SEND (R118). -/
def execCapSend (t n : Nat) (s : State) : Host.Outcome State Fault Refusal :=
  onLane n t s fun d =>
    if d.lnState n = 5 then
      let d := d.emit (.lane n (.cap (d.ownCap n)))
      (d.modLane n fun l => { l with capSent := if l.capOk then l.capSent + 1 else 0 }).tryActive n
    else d

/-- LANE_STATE_TIMEOUT (Table 3-5). -/
def execLaneStateTimeout (t n : Nat) (s : State) : Host.Outcome State Fault Refusal :=
  onLane n t s fun d =>
    let passed (ms : Nat) : Bool := decide ((d.lane n).since + ms * msU ≤ d.now)
    match d.lnState n with
    | 2 => if passed 20 then d.failLane n 1 else d
    | 3 => if passed 20 then d.failLane n 3 else d
    | 4 => if passed 10 then d.failLane n 4 else d
    | 5 => if passed 10 then d.failLane n 5 else d
    | 7 => if passed 100 then d.setLane n 1 else d
    | _ => d

/-! ### Holding the link -/

/-- RX_SQUELCH (R120). -/
def execRxSquelch (t n : Nat) (s : State) : Host.Outcome State Fault Refusal :=
  onLane n t s fun d =>
    if d.flag F.LN_STATUS_rx_idle n || d.lnState n == 0 then d
    else (d.modLane n fun l => { l with noSignal := true }).beginRecovery n

/-- RX_BIT_LOCK_LOST (R120). -/
def execRxBitLockLost (t n : Nat) (s : State) : Host.Outcome State Fault Refusal :=
  onLane n t s fun d => if d.flag F.LN_STATUS_rx_idle n then d else (d.put F.LN_STATUS_rx_bitlock false n).beginRecovery n

/-- ERROR_WINDOW_END (R120): a window ends; its commas are not counted here. -/
def execErrorWindowEnd (t n code disp : Nat) (s : State) : Host.Outcome State Fault Refusal :=
  onWords n t s fun d =>
    if !d.windowOver n then d
    else (d.endWindow n code disp).when (decide (16 ≤ d.windowErrors n code disp)) fun d => d.beginRecovery n

/-- SKP_TIMEOUT (R120). -/
def execSkpTimeout (t n : Nat) (s : State) : Host.Outcome State Fault Refusal :=
  onLane n t s fun d => d.rxError n

/-- RECOVERY_REQUEST_SEND (R121). DESIGN CHOICE (log 47): an egress lane in electrical idle sends no request and is not
woken for one; R121 and Table 3-10 do not say what it does. -/
def execRecoveryRequestSend (t n : Nat) (s : State) : Host.Outcome State Fault Refusal :=
  onLane n t s fun d =>
    if d.flag F.LN_STATUS_rx_recover n && !d.flag F.LN_STATUS_tx_idle n then d.emit (.lane n (.wt2 2)) else d

/-- 4,096 words have passed since the last recovery request (R122). -/
def Dev.requestOver (d : Dev) (n : Nat) : Bool := decide (4096 ≤ d.laneWords n (d.now - (d.lane n).reqAt))

/-- Recovery runs are owed to the partner: one for every request, and more until 4,096 words have passed without a
further request (R122). -/
def Dev.runOwed (d : Dev) (n : Nat) : Bool := (d.lane n).owed && !((d.lane n).ran && d.requestOver n)

/-- IDL_RUN_SEND (R122). -/
def execIdlRunSend (t n : Nat) (s : State) : Host.Outcome State Fault Refusal :=
  onLane n t s fun d =>
    if d.runOwed n && d.lnState n == 6 then
      ((d.emit (.lane n (.idl 64))).noteBusy n).modLane n fun l => { l with owed := !d.requestOver n, ran := true }
    else d

/-- INGRESS_RECOVERY_TIMEOUT (R123). -/
def execIngressRecoveryTimeout (t n : Nat) (s : State) : Host.Outcome State Fault Refusal :=
  onLane n t s fun d =>
    if d.flag F.LN_STATUS_rx_recover n && d.flag F.LN_CTRL_los_teardown n
        && decide ((d.lane n).recFrom + 100 * msU ≤ d.now) then
      d.failLane n (if (d.lane n).noSignal then 7 else 8)
    else d

/-- SKP_RECEIVED (R109): discarded; that it was received shows the signal (R123). -/
def execSkpReceived (t n : Nat) (s : State) : Host.Outcome State Fault Refusal :=
  onWords n t s fun d => d.hear n

/-! ### Electrical idle -/

/-- A parcel cut short is counted as a length error (R144). -/
def Dev.cutShort (d : Dev) (n : Nat) : Dev := (d.bump F.LN_CNT_PCL_len_err n).occur (evIL n) 0x23

/-- LULL_RECEIVED (R129, R144). -/
def execLullReceived (t n words : Nat) (inParcel : Bool) (s : State) : Host.Outcome State Fault Refusal :=
  onWords n t s fun d =>
    let d := d.hearSet n
    let d := d.when (inParcel && d.rxOpen n) fun d => d.cutShort n
    if d.idleUsed n then
      if 2 ≤ words ∧ !d.flag F.LN_STATUS_rx_recover n then d.put F.LN_STATUS_rx_idle true n else d
    else d.codeErrors n words

/-- ZEPHYR_BURST_RECEIVED (R124, R131). -/
def execZephyrBurstReceived (t n : Nat) (comma : Bool) (wt1 : Nat) (s : State) : Host.Outcome State Fault Refusal :=
  onLane n t s fun d =>
    if d.lnState n = 6 then
      let d := d.hearSet n
      if 64 < wt1 then d.partnerRestart n 2
      else
        let d := d.put F.LN_STATUS_rx_idle false n
        if comma then d else ((d.raise F.LN_ERR_zephyr_fail n).occur (evIL n) 0x24).beginRecovery n
    else d

/-- The conditions of R127 on one member. -/
def Dev.idleFree (d : Dev) (n : Nat) : Bool :=
  d.idleUsed n && d.flag F.LN_TX_CTRL_auto_idle n && !d.laneRouted n && (d.lane n).queue.isEmpty && !d.runOwed n

/-- LN_TX_CTRL.idle_hold in u; 0 acts as 1 (Table 3-13). -/
def Dev.idleHold (d : Dev) (n : Nat) : Nat := max 1 (d.rd F.LN_TX_CTRL_idle_hold n) * msU

/-- The instant at which the last recovery run owed to the partner was over: 4,096 words after its last request (R122). -/
def Dev.runsOver (d : Dev) (n : Nat) : Nat :=
  if (d.lane n).ran then (d.lane n).reqAt + ceilDiv (4096 * secU) (312500000 / 2 ^ d.laneRate n) else 0

/-- And they have held together for idle_hold (R127). -/
def Dev.mayIdle (d : Dev) (n : Nat) : Bool :=
  d.idleFree n && decide (max (d.lane n).busyAt (d.runsOver n) + d.idleHold n ≤ d.now)

/-- EGRESS_IDLE_ENTER (R127, R128, R135). -/
def execEgressIdleEnter (t n : Nat) (s : State) : Host.Outcome State Fault Refusal :=
  onLane n t s fun d =>
    if (d.members n).all d.mayIdle then
      d.each (d.members n) fun d m =>
        if d.flag F.LN_STATUS_tx_idle m then d else (d.emit (.lane m (.lull 4))).put F.LN_STATUS_tx_idle true m
    else d

/-- EGRESS_WAKE (R132). -/
def execEgressWake (t n : Nat) (s : State) : Host.Outcome State Fault Refusal :=
  onLane n t s fun d =>
    if d.laneRouted n || (d.members n).any (fun m => !(d.lane m).queue.isEmpty || d.runOwed m) then d.wakeLane n else d

end Sys2Proof.Machine
end

