-- ==== Sys2Proof/Machine/Breeze.lean ====
section
/-! DEFINITION. The Breeze channel (R169-R177): what is received, and the device's own messages. -/

namespace Sys2Proof.Machine

/-! ### Receiving -/

/-- The release count a message carries (R172). -/
def Dev.noteRelease (d : Dev) (n release : Nat) : Dev :=
  let d := (d.wr F.LN_BRZ_STATUS_tx_release release n).noteCredits n
  if d.flag F.LN_STATUS_tx_idle n then d else d.flushBrz n (d.lane n).queue

/-- How far `seq` lies beyond the expected number; 0 where it lies behind. DEDUCED (log 49): numbers count modulo 256, and
one lies beyond where it is fewer than 128 steps ahead. -/
def Dev.brzGap (d : Dev) (n seq : Nat) : Nat :=
  let g := (seq + 256 - d.rd F.LN_BRZ_STATUS_rx_expected n) % 256
  if g < 128 then g else 0

/-- `k` releases are due to the partner (R173). -/
def Dev.releases (d : Dev) (n k : Nat) : Dev :=
  d.modLane n fun l => { l with release := (l.release + k) % 256, relDue := l.relDue || decide (0 < k) }

/-- The numbers before `seq` that have not arrived are missing and released; `next` is expected now (R173). -/
def Dev.takeSeq (d : Dev) (n seq next : Nat) : Dev :=
  let d := d.releases n (d.brzGap n seq)
  d.wr F.LN_BRZ_STATUS_rx_expected (next % 256) n

/-- A message is discarded, or `k` BRZ words are: counted and reported (R171, Tables 4-17, 12-4). -/
def Dev.dropMsg (d : Dev) (n : Nat) (f : Field) (k : Nat := 1) : Dev := (d.bump f n k).occur (evIL n) 0x23

/-- The words of a message whose payload has `len` bytes, received while Breeze does not run (Table 4-14). -/
def Dev.noBreeze (d : Dev) (n len : Nat) : Dev := d.dropMsg n F.LN_BRZ_CNT_msg_err (brzLen len)

/-- A message of unknown type or on the wrong pair: discarded, its number released (Tables 4-12, 4-14). -/
def Dev.unknownMsg (d : Dev) (n release seq : Nat) : Dev :=
  (((d.noteRelease n release).takeSeq n seq (seq + 1)).releases n 1).dropMsg n F.LN_BRZ_CNT_unknown

/-- A credited message is taken into a buffer, or discarded with its number released where none is free
(R173, Table 4-14); the flag says that it was taken. -/
def Dev.brzTake (d : Dev) (n release seq len : Nat) : Bool × Dev :=
  if !d.brzOn n then (false, d.noBreeze n len)
  else
    let d := (d.noteRelease n release).takeSeq n seq (seq + 1)
    if 8 ≤ (d.lane n).used then (false, (d.dropMsg n F.LN_BRZ_CNT_credit_viol).releases n 1)
    else (true, d.modLane n fun l => { l with used := l.used + 1 })

/-- A CREDIT message is taken (R173, R174). -/
def Dev.takeCredit (d : Dev) (n release seq : Nat) : Dev :=
  if d.brzOn n then (d.noteRelease n release).takeSeq n seq (if d.brzGap n seq = 0 then d.rd F.LN_BRZ_STATUS_rx_expected n else seq)
  else d.noBreeze n 0

/-- An IDENT message is taken (R177). -/
def Dev.takeIdent (d : Dev) (n release seq : Nat) (payload : List Byte) : Dev :=
  let r := d.brzTake n release seq payload.length
  if r.1 then r.2.modLane n fun l => { l with ident := fit 16 payload } else r.2

/-- One PSTAT entry (Table 4-13, R177): ignored at a position that the partner's CAP does not name. -/
def Dev.pstatEntry (d : Dev) (n : Nat) (e : List Byte) : Dev :=
  let pos := fieldAt e 0 1 % 4
  let side := fieldAt e 0 1 / 4 % 2
  let p : Pstat := { flags := fieldAt e 1 1 % 8, detected := fieldAt e 2 1, errors := fieldAt e 3 1 }
  if !(decide (pos < 3) && (if side = 0 then d.partnerTx n pos else d.partnerRx n pos)) then d
  else
    let old := Tbl.get {} (d.lane n).pstat (2 * pos + side)
    let d := d.modLane n fun l => { l with pstat := Tbl.set {} l.pstat (2 * pos + side) p }
    d.when (side == 0 && (old.flags != p.flags || old.detected != p.detected)) fun d =>
      d.occur (evIn (d.slot0 n + pos)) 0x11 (p.flags + 256 * p.detected)

/-- A PSTAT message is taken (R177). -/
def Dev.takePstat (d : Dev) (n release seq : Nat) (payload : List Byte) : Dev :=
  let r := d.brzTake n release seq payload.length
  if r.1 then
    let m := min 6 (min (fieldAt payload 0 1) ((payload.length - 1) / 4))
    (r.2.modLane n fun l => { l with pstatLast := fit 25 payload }).each (List.range m) fun d j =>
      d.pstatEntry n ((payload.drop (1 + 4 * j)).take 4)
  else r.2

/-- A TWIN message is taken (R206, R177): outside a twin set it is discarded and released (Table 4-14). -/
def Dev.takeTwin (d : Dev) (n release seq : Nat) (payload : List Byte) : Dev :=
  if d.brzOn n && !d.twinned n then d.unknownMsg n release seq
  else
    let r := d.brzTake n release seq payload.length
    if r.1 then
      r.2.modLane n fun l => { l with twinLast := fit 3 payload
                                      upOk := (List.range 3).filter fun q => bitOf (fieldAt payload q 1) 0 }
    else r.2

/-- A message that passes R171 is taken by its type; the device's own types TALLY and TIMING are unknown from a partner
(Table 4-12). -/
def Dev.takeMsg (d : Dev) (n : Nat) (m : List Byte) : Dev :=
  let release := fieldAt m 2 1
  let seq := fieldAt m 3 1
  match fieldAt m 0 1 with
  | 0 => d.takeCredit n release seq
  | 1 => d.takeIdent n release seq (m.drop 4)
  | 2 => d.takePstat n release seq (m.drop 4)
  | 4 => d.takeTwin n release seq (m.drop 4)
  | _ => d.unknownMsg n release seq

/-- A pair receives BRZ words: ACTIVE and not in recovery or idle. -/
def onBreeze (n t : Nat) (s : State) (f : Dev → Dev) : Host.Outcome State Fault Refusal :=
  onLane n t s fun d => if d.rxOpen n then f (d.hearSet n) else d

/-- BREEZE_MSG_INVALID (R171, Tables 4-12, 4-14): the words are checked; every word is counted while Breeze does not run. -/
def execBreezeMsgInvalid (t n : Nat) (words : List (List Byte)) (s : State) : Host.Outcome State Fault Refusal :=
  onBreeze n t s fun d =>
    if !d.brzOn n then d.dropMsg n F.LN_BRZ_CNT_msg_err words.length
    else match brzCheck words with
      | none => d.dropMsg n F.LN_BRZ_CNT_msg_err
      | some m => d.takeMsg n m

/-- CREDIT_RECEIVED (R173, R174). -/
def execCreditReceived (t n release seq : Nat) (s : State) : Host.Outcome State Fault Refusal :=
  onBreeze n t s fun d => d.takeCredit n release seq

/-- IDENT_RECEIVED (R177). -/
def execIdentReceived (t n release seq : Nat) (payload : List Byte) (s : State) : Host.Outcome State Fault Refusal :=
  onBreeze n t s fun d => d.takeIdent n release seq payload

/-- PSTAT_RECEIVED (R177). -/
def execPstatReceived (t n release seq : Nat) (payload : List Byte) (s : State) : Host.Outcome State Fault Refusal :=
  onBreeze n t s fun d => d.takePstat n release seq payload

/-- TWIN_RECEIVED (R206, R177). -/
def execTwinReceived (t n release seq : Nat) (payload : List Byte) (s : State) : Host.Outcome State Fault Refusal :=
  onBreeze n t s fun d => d.takeTwin n release seq payload

/-- BREEZE_BUFFER_RELEASE (R173). -/
def execBreezeBufferRelease (t n : Nat) (s : State) : Host.Outcome State Fault Refusal :=
  onLane n t s fun d =>
    if (d.lane n).used = 0 then d else (d.modLane n fun l => { l with used := l.used - 1 }).releases n 1

/-! ### Sending -/

/-- CREDIT_SEND (R174): never on an idle lane. -/
def execCreditSend (t n : Nat) (s : State) : Host.Outcome State Fault Refusal :=
  onLane n t s fun d => if d.brzOn n && !d.flag F.LN_STATUS_tx_idle n then d.sendBrz n 0 [] else d

/-- The TALLY payload (R176). -/
def Dev.tallyPayload (d : Dev) (n : Nat) : List Byte :=
  (List.range 3).flatMap fun q =>
    if (d.positions n).contains q then le 1 (d.inp (d.slot0 n + q)).prog ++ le 1 (outTally (d.out (d.slot0 n + q)).cct)
    else zeros 2

/-- TALLY_SEND (R176). -/
def execTallySend (t n : Nat) (s : State) : Host.Outcome State Fault Refusal :=
  onLane n t s fun d => d.queueBrz n 3 (d.tallyPayload n)

/-- A member of a twin set is ACTIVE and not in ingress recovery (R206). -/
def Dev.memberUp (d : Dev) (n : Nat) : Bool := d.lnState n == 6 && !d.flag F.LN_STATUS_rx_recover n

/-- Its partner's upstream is healthy at the position, or no Breeze runs on it: the upstream_ok condition of R206. -/
def Dev.upstreamOk (d : Dev) (n q : Nat) : Bool := !d.brzOn n || (d.lane n).upOk.contains q

/-- Eligible for a slot position (R206). -/
def Dev.memberEligible (d : Dev) (n q : Nat) : Bool := d.memberUp n && (d.upstreamOk n q || !d.upstreamOk (mate n) q)

/-- The TWIN payload (R210). -/
def Dev.twinPayload (d : Dev) (n : Nat) : List Byte :=
  (List.range 3).flatMap fun q =>
    let f := (d.inp (d.slot0 n + q)).frameFrom
    le 1 (if !(d.memberEligible n q || d.memberEligible (mate n) q) || f = 0 then 0 else if f = n % 2 + 1 then 1 else 2)

/-- TWIN_SEND (R210): twin members only. -/
def execTwinSend (t n : Nat) (s : State) : Host.Outcome State Fault Refusal :=
  onLane n t s fun d => if d.twinned n then d.queueBrz n 4 (d.twinPayload n) else d

/-- The TIMING payload: the mean, present, and timed and class_match, of each input slot of the lane (R189). -/
def Dev.timingPayload (d : Dev) (n : Nat) : List Byte :=
  (List.range 3).flatMap fun q =>
    let i := d.slot0 n + q
    le 4 (d.rd F.LN_MON_MEAN_mean i)
      ++ le 2 (b2n (d.flag F.LN_MON_STATE_present i) + 2 * b2n (d.flag F.LN_MON_STATE_timed i && d.flag F.LN_MON_STATE_class_match i))

/-- TIMING_SEND (R189). -/
def execTimingSend (t n : Nat) (s : State) : Host.Outcome State Fault Refusal :=
  onLane n t s fun d => d.queueBrz n 5 (d.timingPayload n)

end Sys2Proof.Machine
end

