-- ==== Sys2Proof/Machine/Embed.lean ====
section
/-! DEFINITION. Embedded audio: ANC packets (R153, R154), the audio packets of ST 299-1 and ST 272 as the Audio Exchange
takes them out (R381, R384) and builds them (R401, R402), and the channel status of R403. -/

namespace Sys2Proof.Machine

/-! ### ANC packets (Table 4-7) -/

/-- ANC records at the head of a section, one by one (Table 4-7). -/
def ancRecords : Nat → List Word → List (List Word)
  | 0, _ => []
  | _ + 1, [] => []
  | n + 1, w :: r =>
    let k := ceilDiv (10 * (w.toNat % 512)) 32
    (w :: r.take k) :: ancRecords n (r.drop k)

/-- Words of 10-bit samples (R153). -/
def pack10 (n : Nat) (ss : List Nat) : List Word :=
  toWords n (le (4 * n) (ss.reverse.foldl (fun v x => v * 1024 + x) 0))

/-- Word `i` of a record's packet. -/
def packetWord (r : List Word) (i : Nat) : Nat := (ofLe ((r.drop 1).flatMap wordBytes) >>> (10 * i)) % 1024

/-- The low 8 bits of user data word `k` of a record's packet. -/
def userByte (r : List Word) (k : Nat) : Nat := packetWord r (3 + k) % 256

/-- A packet word of 8 bits: even parity in bit 8 and its complement in bit 9 (ST 291-1, log 8). -/
def parityWord (b : Nat) : Nat :=
  let p := ((List.range 8).filter fun k => bitOf b k).length % 2
  b + p * 256 + (1 - p) * 512

/-- A packet's words from DID to the checksum (ST 291-1, log 8). -/
def packetOf (did dbn : Nat) (user : List Nat) : List Nat :=
  let ws := parityWord did :: parityWord dbn :: parityWord user.length :: user
  let sum := ws.foldl (fun s w => s + w % 512) 0 % 512
  ws ++ [sum + (1 - sum / 256) * 512]

/-- The record of a packet in horizontal ancillary space; `chroma`: in the C stream. -/
def packetRecord (chroma : Bool) (ws : List Nat) : List Word :=
  BitVec.ofNat 32 (ws.length + b2n chroma * 512 + 1024) :: pack10 (ceilDiv (10 * ws.length) 32) ws

/-! ### Audio packets: what they are (log 8) -/

/-- The kind of an audio packet. -/
inductive AudioPacket where
  | data | extended | control
  deriving DecidableEq, Repr

/-- Kind and group, from 0, of an audio packet of ST 272 (`sd`) or ST 299-1. -/
def audioPacket (sd : Bool) (did : Nat) : Option (AudioPacket × Nat) :=
  if sd then
    if 0xF8 ≤ did ∧ did ≤ 0xFF then some (if did % 2 = 1 then .data else .extended, (0xFF - did) / 2)
    else if 0xEC ≤ did ∧ did ≤ 0xEF then some (.control, 0xEF - did) else none
  else if 0xE4 ≤ did ∧ did ≤ 0xE7 then some (.data, 0xE7 - did)
  else if 0xE0 ≤ did ∧ did ≤ 0xE3 then some (.control, 0xE3 - did) else none

/-- Kind and group of a record's packet. -/
def audioRecord (sd : Bool) (r : List Word) : Option (AudioPacket × Nat) := audioPacket sd (packetWord r 0 % 256)

/-- A sample word (Table 4-9). -/
def sampleWord (x : Nat) (v u c z : Bool) : Word :=
  BitVec.ofNat 32 (x % 2 ^ 24 + b2n v * 2 ^ 24 + b2n u * 2 ^ 25 + b2n c * 2 ^ 26 + b2n z * 2 ^ 27)

/-! ### De-embedding (R381) -/

/-- The four samples of an ST 299-1 data packet. -/
def hdSamples (g : Nat) (r : List Word) : List (Nat × Word) :=
  (List.range 4).map fun c =>
    let b (k : Nat) : Nat := userByte r (2 + 4 * c + k)
    (4 * g + c, sampleWord (b 0 / 16 + b 1 * 16 + b 2 * 4096 + b 3 % 16 * 2 ^ 20) (bitOf (b 3) 4) (bitOf (b 3) 5)
      (bitOf (b 3) 6) (bitOf (b 0) 3))

/-- The samples of an ST 272 data packet, with the low four bits that its extended data packet holds. -/
def sdSamples (g : Nat) (r ext : List Word) : List (Nat × Word) :=
  (List.range (packetWord r 2 % 256 / 3)).map fun j =>
    let x (k : Nat) : Nat := packetWord r (3 + 3 * j + k)
    let aux := if ext.isEmpty then 0 else userByte ext (j / 2) / (if j % 2 = 0 then 1 else 16) % 16
    (4 * g + x 0 / 2 % 4, sampleWord ((x 0 / 8 % 64 + x 1 % 512 * 64 + x 2 % 32 * 2 ^ 15) * 16 + aux) (bitOf (x 2) 5)
      (bitOf (x 2) 6) (bitOf (x 2) 7) (bitOf (x 0) 0))

/-- The samples of the audio packets among a line's ANC records, in order (R381). -/
def deembed (sd : Bool) : List (List Word) → List (Nat × Word)
  | [] => []
  | r :: rest =>
    (match audioRecord sd r with
      | some (.data, g) =>
        if sd then sdSamples g r (match rest with
          | e :: _ => if audioRecord sd e == some (.extended, g) then e else []
          | [] => [])
        else hdSamples g r
      | _ => []) ++ deembed sd rest

/-- The channels whose audio control packets state a rate other than 48 kHz, or asynchronous audio (Table 11-1). -/
def statedAsync (sd : Bool) (rs : List (List Word)) : List Nat :=
  rs.flatMap fun r =>
    match audioRecord sd r with
    | some (.control, g) =>
      let pair (b k : Nat) : List Nat := if b = 0 then [] else [4 * g + k, 4 * g + k + 1]
      if sd then pair (userByte r 2 % 16) 0 ++ pair (userByte r 2 / 16) 2
      else pair (userByte r 1 % 16) 0 ++ pair (userByte r 1 % 16) 2
    | _ => []

/-! ### Embedding (R401, R402) -/

/-- One step of the BCH(31,25) remainder of ST 299-1: the generator is X^6 + X^5 + X^3 + X^2 + X + 1. -/
def bchStep (r : Nat) (b : Bool) : Nat :=
  if bitOf r 5 != b then (r * 2 % 64) ^^^ 0x2F else r * 2 % 64

/-- The six error-correction words over the words of a packet from the ancillary data flag on, column by column. -/
def eccWords (ws : List Nat) : List Nat :=
  let rem (k : Nat) : Nat := ws.foldl (fun r w => bchStep r (bitOf w k)) 0
  (List.range 6).map fun j => parityWord ((List.range 8).foldl (fun v k => v + b2n (bitOf (rem k) (5 - j)) * 2 ^ k) 0)

/-- Words of a sample in an ST 299-1 data packet. -/
def hdSampleWords (w : Word) : List Nat :=
  let n := w.toNat
  let x := n % 2 ^ 24
  let top := x / 2 ^ 20 + n / 2 ^ 24 % 8 * 16
  let b0 := b2n (bitOf n 27) * 8 + x % 16 * 16
  let odd (b : Nat) : Nat := ((List.range 8).filter fun k => bitOf b k).length
  let p := (odd b0 + odd (x / 16 % 256) + odd (x / 4096 % 256) + odd top) % 2
  [b0, x / 16 % 256, x / 4096 % 256, top + p * 128].map parityWord

/-- The ST 299-1 data packet of group `g`: the clock phase of its sample time and its four samples. -/
def hdData (g clock : Nat) (ws : List Word) : List Word :=
  let user := [clock % 256, clock / 256 % 16 + clock / 4096 % 2 * 32].map parityWord ++ ws.flatMap hdSampleWords
  let head := [0xE7 - g, 0, 24].map parityWord
  packetRecord true (packetOf (0xE7 - g) 0 (user ++ eccWords ([0, 0x3FF, 0x3FF] ++ head ++ user)))

/-- The ST 299-1 control packet of group `g`: 48 kHz synchronous, with its active channels. -/
def hdControl (g act : Nat) : List Word :=
  packetRecord false (packetOf (0xE3 - g) 0 ([0, 0, act, 0, 0, 0, 0, 0, 0, 0, 0].map parityWord))

/-- Words of a sample of channel `ch` of its group in an ST 272 data packet. -/
def sdSampleWords (ch : Nat) (w : Word) : List Nat :=
  let n := w.toNat
  let x := n % 2 ^ 24 / 16
  let a := b2n (bitOf n 27) + ch * 2 + x % 64 * 8
  let b := x / 64 % 512
  let c := x / 2 ^ 15 + n / 2 ^ 24 % 8 * 32
  let p := ((List.range 9).filter fun k => bitOf a k != (bitOf b k != (decide (k < 8) && bitOf c k))).length % 2
  [a, b, c + p * 256].map fun v => v + (1 - v / 256) * 512

/-- The ST 272 basic data packet of group `g`: its samples, each with its channel in the group. -/
def sdData (g : Nat) (ws : List (Nat × Word)) : List Word :=
  packetRecord false (packetOf (0xFF - 2 * g) 0 (ws.flatMap fun x => sdSampleWords x.1 x.2))

/-- The ST 272 control packet of group `g`. -/
def sdControl (g act : Nat) : List Word :=
  packetRecord false (packetOf (0xEF - g) 0 ([0, 0, 0, act, 0, 0, 0, 0, 0, 0, 0, 0, 0, 0, 0, 0, 0, 0].map parityWord))

/-- The lines that carry audio control packets: the second after the switching line of each field (log 8). -/
def controlLine (c k : Nat) : Bool :=
  if c = 1 then k == 12 || k == 275 else if c = 2 then k == 8 || k == 321 else k == 9 || (fmtInter c && k == 571)

/-- Sample clocks of a line of an HD or 3G format (log 8). -/
def lineClocks (c : Nat) : Nat :=
  let nominal := ceilDiv (rateNum (fmtRate c)) (rateDen (fmtRate c))
  (if fmtL c = 1125 ∧ 30 < nominal then 148500000 else 74250000) / (nominal * fmtL c)

/-- Clock phase of sample slot `k` of line `line` of frame `f`: sample clocks from the line's start to its instant (R402). -/
def clockPhase (c f line k : Nat) : Nat :=
  let n := rateNum (fmtRate c) * fmtL c
  (k * n - 48000 * (f * fmtL c + (line - 1)) * rateDen (fmtRate c)) * lineClocks c / (48000 * rateDen (fmtRate c))

/-- The audio packets of a line: its sample slots with their clock phases, the active channels of each embedded group, and
a channel's word at each of the slots. -/
def embed (c line : Nat) (clocks : List Nat) (groups : List (Nat × Nat)) (word : Nat → Nat → Word) : List (List Word) :=
  let times := List.range clocks.length
  let four (f : Nat → List (List Word)) : List (List Word) := groups.flatMap fun g => f g.1
  if c < 0x10 then
    (if controlLine c line then groups.map fun g => sdControl g.1 g.2 else []) ++
      (if clocks.isEmpty then [] else four fun g =>
        [sdData g (times.flatMap fun j => (List.range 4).map fun ch => (ch, word (4 * g + ch) j))])
  else
    (if controlLine c line then groups.map fun g => hdControl g.1 g.2 else []) ++
      times.flatMap fun j => four fun g => [hdData g (clocks.getD j 0) ((List.range 4).map fun ch => word (4 * g + ch) j)]

/-! ### Channel status (R403, AES3, log 8) -/

/-- The CRC of byte 23 of a channel-status block, bit 7 first sent: X^8 + X^4 + X^3 + X^2 + 1 over the 184 bits before it. -/
def csCrc (cs : Nat → Bool) : Nat :=
  (List.range 184).foldl (fun r k => if bitOf r 7 != cs k then (r * 2 % 256) ^^^ 0x1D else r * 2 % 256) 0xFF

/-- Bits of a professional block that states linear PCM, no emphasis and 48 kHz, before its CRC. -/
def csPlain (k : Nat) : Bool := k == 0 || k == 2 || k == 7

/-- The channel-status bit that a live destination without source bits sends at a position of the block (R403). -/
def csBit (pos : Nat) : Bool := if pos < 184 then csPlain pos else bitOf (csCrc csPlain) (191 - pos)

end Sys2Proof.Machine
end

