-- ==== Sys2Proof/Machine/Parcels.lean ====
section
/-! DEFINITION. Ingress parcels (R138-R163), the slot buffers (R179, R180, R36), the input timing monitor
(R186-R189, R564), twin-set selection (R206-R210) and audio de-embedding (R381, R382, R384). -/

namespace Sys2Proof.Machine

/-! ### The parcel header (Table 4-3) -/

abbrev hSlot (h : List Byte) : Nat := fieldAt h 0 2 % 2048
abbrev hOrigin (h : List Byte) : Nat := fieldAt h 0 2 / 2048 % 2
abbrev hSub (h : List Byte) : Nat := fieldAt h 0 2 / 4096 % 4
abbrev hFmt (h : List Byte) : Nat := fieldAt h 2 1
abbrev hFlag (h : List Byte) (k : Nat) : Bool := bitOf (fieldAt h 3 1) k
/-- sw. -/
abbrev hSw (h : List Byte) : Bool := hFlag h 0
/-- abort. -/
abbrev hAbort (h : List Byte) : Bool := hFlag h 2
/-- black. -/
abbrev hBlack (h : List Byte) : Bool := hFlag h 3
/-- rtp. -/
abbrev hRtp (h : List Byte) : Bool := hFlag h 4
/-- vid. -/
abbrev hVid (h : List Byte) : Bool := hFlag h 5
abbrev hLine (h : List Byte) : Nat := fieldAt h 4 2 % 4096
abbrev hFrame (h : List Byte) : Nat := fieldAt h 6 2
abbrev hTsw (h : List Byte) : Nat := fieldAt h 8 4
abbrev hAnc (h : List Byte) : Nat := fieldAt h 12 2 % 64
abbrev hAud (h : List Byte) : Nat := fieldAt h 12 2 / 64 % 16

/-- The slot position that three position bytes name: two of them agree on it and it is 0, 1 or 2 (R106). -/
def posOf (p : List Nat) : Option Nat :=
  let a := p.getD 0 3
  let b := p.getD 1 3
  let c := p.getD 2 3
  let v := if a = b ∨ a = c then a else if b = c then b else 3
  if v < 3 then some v else none

/-- Number of bits set among the low 16. -/
def popcount16 (v : Nat) : Nat := ((List.range 16).filter fun k => bitOf v k).length

/-- Words of `n` ANC records at the head of `ws` (R151); none where the words end first. -/
def ancWords : Nat → List Word → Option Nat
  | 0, _ => some 0
  | _ + 1, [] => none
  | n + 1, w :: r =>
    let k := ceilDiv (10 * (w.toNat % 512)) 32
    if r.length < k then none else (ancWords n (r.drop k)).map (· + 1 + k)

/-- The three sections of a parcel body, where its length is the one R151 computes. -/
def sections (h : List Byte) (body : List Word) : Option (List Word × List Word × List Word) :=
  let v := if hVid h then fmtWords (hFmt h) else 0
  if body.length < v then none
  else
    let r := body.drop v
    match ancWords (hAnc h) r with
    | none => none
    | some a =>
      let au := r.drop a
      let need := if hAud h = 0 then some 0 else
        match au with
        | [] => none
        | w :: _ => some (1 + b2n (bitOf w.toNat 24) + hAud h * popcount16 w.toNat)
      if need = some au.length then some (body.take v, r.take a, au) else none

/-- The content flags obey R150 and the other content checks of Table 4-5. -/
def contentOk (h : List Byte) : Bool :=
  let act := fmtActive (hFmt h) (hLine h)
  (if act then hVid h != hBlack h else !hVid h && !hBlack h)
    && (!hAbort h || (!hVid h && hAnc h == 0 && hAud h == 0))
    && decide (hAud h ≤ 8) && !(decide (0 < hAud h) && hOrigin h == 0)
    && (!hRtp h || (hLine h == 1 && hOrigin h == 1))

/-- The first check of Table 4-5 that a parcel fails, as the counter that takes it; none for a valid parcel. -/
def Dev.parcelCheck (d : Dev) (n pos : Nat) (h : List Byte) (body : List Word) : Option Field :=
  let rate := d.laneRate n
  let f := hFmt h
  if fieldAt h 14 2 ≠ crc16 (h.take 14) then some F.LN_CNT_HDR_crc_err
  else if hSlot h ≠ d.slot0 n + pos || !d.partnerTx n pos || !fmtAtRate f rate || decide (fmtG f ≤ hSub h)
      || hSlot h % fmtG f != hSub h || hLine h == 0 || decide (fmtL f < hLine h) || !contentOk h then
    some F.LN_CNT_HDR_hdr_invalid
  else if (sections h body).isNone || decide (wordLimit f rate < 6 + body.length) then some F.LN_CNT_PCL_len_err
  else none

/-! ### Audio de-embedding -/

/-- Samples before the start of frame `n` of a rate: ceil(48,000 x tF(n)) (R382, R562). -/
def samplesAt (r n : Nat) : Nat := ceilDiv (48000 * n * rateDen r) (rateNum r)

/-- The index with low 32 bits `ats` nearest to `base` (R382). -/
def nearest32 (base ats : Nat) : Nat :=
  let m := 2 ^ 32
  let x := base / m * m + ats
  if 2 * x < 2 * base - m then x + m else if 2 * base + m < 2 * x ∧ m ≤ x then x - m else x

/-- The width of the ST 337 preamble that two consecutive samples form (Table 11-1); 0: none. -/
def preamble (x y : Nat) : Nat :=
  if x = 0xF87200 ∧ y = 0x4E1F00 then 1 else if x = 0x6F8720 ∧ y = 0x54E1F0 then 2
  else if x = 0x96F872 ∧ y = 0xA54E1F then 3 else 0

/-- A channel at the start of input frame `f` of a rate (R384): the frame before is counted. -/
def AudCh.newFrame (c : AudCh) (r f : Nat) : AudCh :=
  if c.frame = f then c
  else
    let counts := if f = c.frame + 1 then (c.m :: c.counts).take 16 else []
    let dev : Int := (counts.foldl (· + ·) 0 : Nat) - ((samplesAt r f - samplesAt r (f - 16) : Nat) : Int)
    let off := counts.length == 16 && decide (2 < dev.natAbs)
    { c with frame := f, m := 0, counts := counts, dev := if counts.length = 16 then dev else 0
             asyncLeft := if off then 16 else c.asyncLeft - 1, noted := false }

/-- A channel whose measured rate lies beyond 1,000 ppm of 48 kHz (R394). -/
def AudCh.offRate (c : AudCh) : Bool := decide (((c.counts.foldl (· + ·) 0 : Nat) : Int) - c.dev < 1000 * (c.dev.natAbs : Int))

/-- A channel takes one sample word (Tables 4-9, 11-1). -/
def AudCh.take (c : AudCh) (w : Word) : AudCh :=
  let x := w.toNat % 2 ^ 24
  let pos := if bitOf w.toNat 27 then some 0 else c.csPos.map (· + 1)
  let cs := pos == some 1 && bitOf w.toNat 26
  let p := preamble c.last x
  { c with m := c.m + 1, next := c.next.map (· + 1), last := x, csPos := pos
           csBit := if pos = some 1 then cs else c.csBit
           dataLeft := if cs || p != 0 then 8192 else c.dataLeft - 1
           preLeft := if p ≠ 0 then 8192 else c.preLeft - 1, width := if p = 0 then c.width else p }

/-- The class of a channel (R384). -/
def AudCh.class' (c : AudCh) : Nat := if 0 < c.asyncLeft then 3 else if 0 < c.dataLeft then 2 else 1

/-- A PX_ASRC channel that converts the source channel, at a rate it does not follow, re-centres where its buffers demand
it and counts the slip on its plane (R394, log 8). -/
def Dev.recentre (d : Dev) (i ch f : Nat) (dev : Int) : Dev :=
  d.each [Plane.a, Plane.b] fun d p =>
    d.each ((d.plane p).owners.filter fun x => x.2.isOpen && baseOf x.2.profile == pxAsrc && x.2.src == i && bitOf (C.mask.of x.2.cct) ch)
      fun d x => if Config.recentres [i, ch, f, ofInt 32 dev, C.asrcDelay.of x.2.cct] then d.bump F.AX_CNT_DISC_slips p.id else d

/-- One sample of slot `i`, channel `ch`, in input frame `f`: its index, its word with its class, and AUDIO_CLASS where
the class changes (R382, R384); `packet`: of an audio block, whose indices go on from its timestamps. -/
def Dev.takeSample (d : Dev) (i r f ch : Nat) (w : Word) (packet : Bool) : (Nat × Word) × Dev :=
  let c := (Tbl.get {} (d.inp i).aud ch).newFrame r f
  let first := c.m == 0
  let idx := if packet then c.next.getD (samplesAt r f + c.m) else samplesAt r f + c.m
  let c := { c.take w with next := if packet then (c.take w).next else none }
  let k := c.class'
  let raise := k != c.cls && !c.noted
  let c := { c with cls := if raise then k else c.cls, noted := c.noted || raise }
  let d := (d.modIn i fun x => { x with aud := Tbl.set {} x.aud ch c }).when raise fun d => d.occur (evIn i) 0x14 (ch + 16 * k)
  ((idx, BitVec.ofNat 32 (w.toNat % 2 ^ 28 + k * 2 ^ 28)),
    d.when (first && c.counts.length == 16 && c.offRate) fun d => d.recentre i ch f c.dev)

/-- Samples in order, each with its channel: the tags they bear. -/
def Dev.takeSamples (d : Dev) (i r f : Nat) (packet : Bool) : List (Nat × Word) → List (Nat × Nat × Word) × Dev
  | [] => ([], d)
  | x :: rest =>
    let a := d.takeSample i r f x.1 x.2 packet
    let b := a.2.takeSamples i r f packet rest
    ((x.1, a.1) :: b.1, b.2)

/-- Audio control packets of a line make the channels ASYNC that they state so, in the frame and for 16 more (Table 11-1). -/
def Dev.noteStated (d : Dev) (i r f : Nat) (chans : List Nat) : Dev :=
  d.each chans fun d ch => d.modIn i fun x => { x with aud := Tbl.mod {} x.aud ch fun c => { c.newFrame r f with asyncLeft := 17 } }

/-- The samples of an audio block, in order (R156). -/
def blockSamples (ws : List Word) : List (Nat × Word) :=
  match ws with
  | [] => []
  | w :: r =>
    let chans := (List.range 16).filter fun k => bitOf w.toNat k
    let smp := r.drop (b2n (bitOf w.toNat 24))
    (List.range smp.length).zip smp |>.map fun (j, x) => (chans.getD (j % max 1 chans.length) 0, x)

/-- A timestamp word sets the index of the block's first sample in every channel of the block (R382). -/
def Dev.noteAts (d : Dev) (i r f : Nat) (ws : List Word) : Dev :=
  match ws with
  | w :: a :: _ =>
    if bitOf w.toNat 24 then
      d.each ((List.range 16).filter fun k => bitOf w.toNat k) fun d ch =>
        d.modIn i fun x => { x with aud := Tbl.mod {} x.aud ch fun c =>
          let c := c.newFrame r f
          { c with next := some (nearest32 (samplesAt r f + c.m) a.toNat) } }
    else d
  | _ => d

/-! ### The monitor (R186) -/

/-- The ingress delay in force, at most one line period, in u (R184). -/
def delayU (delay r L : Nat) : Nat := min (delay * nsU) (lineU r L)

/-- The offset of a parcel of line `k` that arrived at epoch instant `a`, if it belongs to frame `f` (R186), in u. -/
def offsetIn (r L k a dly f : Nat) : Int :=
  ((a + delayU dly r L : Nat) : Int) - ((lineStart r L f k : Nat) : Int) + ((2 * rateDen r * secU / (rateNum r * L) : Nat) : Int)

/-- The frame that makes the offset smallest (R186). -/
def frameFor (r L k a dly : Nat) : Nat :=
  let f := frameAt r a
  [f - 1, f, f + 1].foldl (fun b n =>
    if (offsetIn r L k a dly n).natAbs < (offsetIn r L k a dly b).natAbs then n else b) (f - 1)

/-- rtp_delta of frame `n` (R189). -/
def rtpDelta (r n tsw : Nat) : Int :=
  let z := toInt 32 ((tsw + 2 ^ 32 - n * rateDen r * 90000 / rateNum r % 2 ^ 32) % 2 ^ 32)
  max (-32767) (min 32767 z)

/-- One more parcel in a frame's figures. -/
def Acc.add (a : Acc) (z : Int) (rtp : Option Int) : Acc :=
  { count := a.count + 1, sum := a.sum + z, min := if a.count = 0 || decide (z < a.min) then z else a.min
    max := if a.count = 0 || decide (a.max < z) then z else a.max, rtp := if rtp.isSome then rtp else a.rtp }

/-- The monitor takes a committed parcel (R186, R564); a new grid begins with no frame published. DESIGN CHOICE (log 51):
what the old grid's frames hold unpublished is dropped, and its last publication stands until the new grid's first. -/
def Monitor.take (m : Monitor) (r L k a dly : Nat) (rtp : Option Nat) : Monitor :=
  let f := frameFor r L k a dly
  let m := if m.grid = some (r, L) then m else { m with grid := some (r, L), frame := min f (frameAt r a), accs := [] }
  if f < m.frame then m
  else { m with accs := Tbl.mod {} m.accs f fun x => x.add (offsetIn r L k a dly f) (rtp.map (rtpDelta r f)) }

/-! ### Commit -/

/-- A unit written into the slot buffers of both planes (R179, R180); the buffers wake (R36). -/
def Dev.writeUnit (d : Dev) (i : Nat) (u : Unit') : Dev :=
  let put (b : SlotBuf) : SlotBuf := { gated := false, units := (u :: b.units).take 4 }
  let one (x : PlaneSt) : PlaneSt := { x with slots := Tbl.mod {} x.slots i put }
  (d.modPlane .a one).modPlane .b one

/-- A checked parcel is committed with arrival instant `a` (R162, R163, R179-R186, R202, R381). -/
def Dev.commitParcel (d : Dev) (i a : Nat) (h : List Byte) (body : List Word) : Dev :=
  let f := hFmt h
  let r := fmtRate f
  let L := fmtL f
  let x := d.inp i
  let dly := x.delayNext.getD x.delay
  let d := d.when (x.fmt != 0 && x.fmt != f) fun d => d.occur (evIn i) 0x10 f
  let n := frameFor r L (hLine h) a dly
  let d := d.modIn i fun x =>
    { x with fmt := f, delay := dly, delayNext := none, lastCommit := d.now
             mon := Monitor.take (if hSw h then { x.mon with accs := x.mon.accs.filter fun y => y.1 != n } else x.mon) r L (hLine h) a dly
               (if hRtp h && hOrigin h == 1 && hLine h == 1 then some (hTsw h) else none) }
  let d := d.when (hSw h) fun d => d.occur (evIn i) 0x12
  let (video, anc, au) := (sections h body).getD ([], [], [])
  let d := d.when (hOrigin h == 1 && !hAbort h) fun d => d.noteAts i r n au
  let recs := if hOrigin h = 1 then [] else ancRecords 63 anc
  let d := d.noteStated i r n (statedAsync (decide (f < 0x10)) recs)
  let (tags, d) := if hAbort h then ([], d) else
    d.takeSamples i r n (hOrigin h == 1) (if hOrigin h = 1 then blockSamples au else deembed (decide (f < 0x10)) recs)
  d.writeUnit i { line := hLine h, fmt := f, arrive := a, delay := dly, hdr := h
                  video := if hAbort h then [] else video, anc := if hAbort h then [] else anc, aud := tags }

/-- A copy is taken from a twin member (R207, R210). -/
def Dev.takeCopy (d : Dev) (n i a : Nat) (h : List Byte) (body : List Word) : Dev :=
  let d := d.modIn i fun x =>
    { x with held := none, taken := (hLine h :: x.taken).take 2, lastFrom := n % 2 + 1
             frameFrom := if hLine h ≤ x.taken.headD 0 then x.lastFrom else x.frameFrom }
  (d.bump F.LN_TWIN_CNT_taken n).commitParcel i a h body

/-- The held copy is taken now (R208). -/
def Dev.takeHeld (d : Dev) (i : Nat) : Dev :=
  match (d.inp i).held with
  | some c => d.takeCopy c.n i d.epoch c.hdr c.body
  | none => d

/-- A valid copy of a line in a twin set (R206-R208). A later line from either member ends a hold. DESIGN CHOICE (log 52):
a further abort copy of a held line, and the holding member's own repeat of it, count as dup; the held copy that the other
member's good copy replaces does not. -/
def Dev.twinCopy (d : Dev) (n i pos : Nat) (h : List Byte) (body : List Word) : Dev :=
  if (d.inp i).taken.contains (hLine h) then d.bump F.LN_TWIN_CNT_dup n
  else
    match (d.inp i).held.filter fun c => hLine c.hdr == hLine h with
    | some c =>
      if hAbort h || c.n == n then d.bump F.LN_TWIN_CNT_dup n
      else d.when (d.memberEligible n pos) fun d => d.takeCopy n i d.epoch h body
    | none =>
      let d := d.takeHeld i
      if !d.memberEligible n pos then d
      else if hAbort h && d.memberEligible (mate n) pos then
        d.modIn i fun x => { x with held := some { n := n, at' := d.now, hdr := h, body := body } }
      else d.takeCopy n i d.epoch h body

/-- A parcel departs from the sequence of R145 (R152). -/
def seqBreak (old : Nat × Nat × Nat) (line frame : Nat) : Bool :=
  if old.1 < fmtL old.2.2 then !(line == old.1 + 1 && frame == old.2.1) else !(line == 1 && frame == (old.2.1 + 1) % 65536)

/-- The sequence check of a position's parcels on their pair (R152, R202, R210). -/
def Dev.noteSeq (d : Dev) (n pos : Nat) (h : List Byte) : Dev :=
  let old := Tbl.get (0, 0, 0) (d.lane n).seqPrev pos
  let d := d.when (old != (0, 0, 0) && !hSw h && seqBreak old (hLine h) (hFrame h)) fun d => d.bump F.LN_CNT_PCL_seq_err n
  d.modLane n fun l => { l with seqPrev := Tbl.set (0, 0, 0) l.seqPrev pos (hLine h, hFrame h, hFmt h) }

/-- A position's next parcel is not counted under R152. -/
def Dev.forgetSeq (d : Dev) (n : Nat) (ps : List Nat) : Dev :=
  d.modLane n fun l => { l with seqPrev := l.seqPrev.filter fun x => !ps.contains x.1 }

/-- A set whose position bytes do not agree is discarded and counted by a receiver that is aligned (R106). -/
def Dev.badPos (d : Dev) (n : Nat) : Dev := d.when (d.flag F.LN_STATUS_rx_aligned n) fun d => d.codeErrors n 1

/-- Data words outside a parcel are discarded, each counted as a length error (R144). -/
def Dev.strayWords (d : Dev) (n k : Nat) : Dev := if k = 0 then d else (d.bump F.LN_CNT_PCL_len_err n k).occur (evIL n) 0x23

/-- PARCEL_RECEIVED (R144, R149). -/
def execParcelReceived (t n : Nat) (pos : List Nat) (hdr : List Byte) (body : List Word) (complete : Bool)
    (s : State) : Host.Outcome State Fault Refusal :=
  onWords n t s fun d =>
    let d := d.hearSet n
    if pos.isEmpty then d.when (d.rxOpen n) fun d => d.strayWords n body.length
    else match posOf pos with
      | none => d.badPos n
      | some p =>
        if !d.rxOpen n then d else
        let h := fit 16 hdr
        if !complete then d.cutShort n
        else match d.parcelCheck n p h body with
          | some f => (d.bump f n).occur (evIL n) 0x23
          | none =>
            let d := d.noteSeq n p h
            let i := d.slot0 n + p
            if d.twinned n then d.twinCopy n i p h body else d.commitParcel i d.epoch h body

/-- TWIN_HOLD_EXPIRY (R208): H/4 after the held copy arrived. -/
def execTwinHoldExpiry (t slot : Nat) (s : State) : Host.Outcome State Fault Refusal :=
  onDev (slotOk slot) t s fun d =>
    match (d.inp slot).held with
    | some c => if c.at' + lineU (fmtRate (hFmt c.hdr)) (fmtL (hFmt c.hdr)) / 4 ≤ d.now then d.takeHeld slot else d
    | none => d

/-- SWM_RECEIVED (R202, R106): a marker changes nothing by itself. -/
def execSwmReceived (t n : Nat) (pos : List Nat) (s : State) : Host.Outcome State Fault Refusal :=
  onWords n t s fun d => let d := d.hearSet n; if (posOf pos).isNone then d.badPos n else d

/-- FCH_RECEIVED (R162): the slot's old stream ends, so the next parcel is not counted (R152). -/
def execFchReceived (t n : Nat) (pos : List Nat) (s : State) : Host.Outcome State Fault Refusal :=
  onWords n t s fun d =>
    let d := d.hearSet n
    match posOf pos with
    | none => d.badPos n
    | some p => d.when (d.rxOpen n) fun d => d.forgetSeq n [p]

/-- No parcels can arrive for a slot: no member of its pair receives, or its position does not exist (R36). -/
def Dev.noParcels (d : Dev) (i : Nat) : Bool :=
  !d.posExists (i / 3) (i % 3) || (d.members (i / 3)).all fun m => !d.rxOpen m

/-- SLOT_BUFFER_GATE (R36): four line periods of the last format after the last commit. -/
def execSlotBufferGate (t slot : Nat) (s : State) : Host.Outcome State Fault Refusal :=
  onDev (slotOk slot) t s fun d =>
    let x := d.inp slot
    if d.noParcels slot && decide (x.lastCommit + 4 * lineU (fmtRate x.fmt) (fmtL x.fmt) ≤ d.now) then
      let one (p : PlaneSt) : PlaneSt := { p with slots := Tbl.set {} p.slots slot {} }
      (d.modPlane .a one).modPlane .b one
    else d

/-! ### Publication (R187) -/

/-- An enabled class has the rate, scan and line count of a format (R187). -/
def Dev.classMatch (d : Dev) (fmt : Nat) : Bool := (List.range 16).any fun n => d.clsOn n && d.fmtFits fmt n

/-- AX_SRC_STATE of a channel as input frame `f` of a rate ends (R404): its counts take in that frame. -/
def AudCh.publish (c : AudCh) (r f : Nat) : AudCh :=
  let present := decide (f ≤ c.frame)
  let x := c
  let c := if c.frame = f then c.newFrame r (f + 1) else c
  let w := b2n c.csBit * 4 + b2n (decide (0 < c.preLeft)) * 8 + c.width * 16 + ofInt 16 (max (-32768) (min 32767 c.dev)) * 65536
  { x with pub := BitVec.ofNat 32 (w + if present then c.class' else 0) }

/-- The figures of frame `f` are published (R187, R189, R194, R214, R390, R404). DESIGN CHOICE (log 15): the registers show
them rounded down to whole ns; R188 judges the figures themselves. -/
def Dev.publish (d : Dev) (i f r L : Nat) : Dev :=
  let x := d.inp i
  let a := Tbl.get {} x.mon.accs f
  let H : Int := lineU r L
  let ns (z : Int) : Nat := ofInt 32 (z / (nsU : Int))
  let present := decide (0 < a.count)
  let timed := present && decide (-H ≤ a.min ∧ a.max ≤ H)
  let was := d.flag F.LN_MON_STATE_present i
  let wasT := d.flag F.LN_MON_STATE_timed i
  let d := ((d.wr F.LN_MON_MEAN_mean (ns (a.sum / (max 1 a.count : Nat))) i).wr F.LN_MON_MIN_min (ns a.min) i).wr
    F.LN_MON_MAX_max (ns a.max) i
  let d := ((d.put F.LN_MON_STATE_present present i).put F.LN_MON_STATE_timed timed i).put F.LN_MON_STATE_class_match
    (d.classMatch x.fmt) i
  let d := (d.put F.LN_MON_STATE_rtp_valid a.rtp.isSome i).wr F.LN_MON_STATE_rtp_delta (ofInt 16 (a.rtp.getD 0)) i
  let d := d.wr F.LN_MON_STATE_seq ((d.rd F.LN_MON_STATE_seq i + 1) % 256) i
  let d := d.when (was != present) fun d => d.occur (evIn i) (if present then 0x17 else 0x16)
  let d := d.when (wasT != timed) fun d => d.occur (evIn i) 0x18 (d.reg .LN_MON_STATE i).toNat
  let d := d.when (!x.mon.missed.isEmpty) fun d => d.occur (evIn i) 0x13 x.mon.missed.length
  let d := d.when (decide (0 < x.audMiss)) fun d => d.occur (evIn i) 0x15 x.audMiss
  d.modIn i fun y =>
    { y with audMiss := 0
             aud := y.aud.map fun (c : Nat × AudCh) => (c.1, c.2.publish r f)
             mon := { y.mon with frame := f + 1, fmt := y.fmt, missed := [], lo := a.min, hi := a.max, accs := y.mon.accs.filter fun (z : Nat × Acc) => decide (f < z.1) } }

/-- MONITOR_PUBLISH (R187): a frame of the slot's grid has ended. -/
def execMonitorPublish (t slot : Nat) (s : State) : Host.Outcome State Fault Refusal :=
  onDev (slotOk slot) t s fun d =>
    match (d.inp slot).mon.grid with
    | none => d
    | some (r, L) =>
      let f := frameAt r d.epoch
      if (d.inp slot).mon.frame < f then d.publish slot (f - 1) r L else d

/-- The last published frame's figures put the slot in time for an output offset, in ns (R188). -/
def Dev.timedFor (d : Dev) (i : Nat) (off : Int) : Bool :=
  let f := (d.inp i).fmt
  let H : Int := lineU (fmtRate f) (fmtL f)
  let m := (d.inp i).mon
  d.flag F.LN_MON_STATE_present i && decide (-H ≤ m.lo - off * (nsU : Int) ∧ m.hi - off * (nsU : Int) ≤ H)

end Sys2Proof.Machine
end

