-- ==== Sys2Proof/Machine/Curve.lean ====
section
/-! DEFINITION. The curve P-384 and ECDSA over it (R495, R499, R500, R512; FIPS 186-5). Points are in Jacobian
coordinates, Z = 0 being the point at infinity. -/

namespace Sys2Proof.Machine

namespace P384

/-- The field's prime. -/
def prime : Nat := 2 ^ 384 - 2 ^ 128 - 2 ^ 96 + 2 ^ 32 - 1

/-- The coefficient b of y^2 = x^3 - 3x + b. -/
def coeffB : Nat :=
  0xb3312fa7e23ee7e4988e056be3f82d19181d9c6efe8141120314088f5013875ac656398d8a2ed19d2a85c8edd3ec2aef

/-- The order of the base point. -/
def order : Nat :=
  0xffffffffffffffffffffffffffffffffffffffffffffffffc7634d81f4372ddf581a0db248b0a77aecec196accc52973

/-- A point. -/
structure Point where
  x : Nat := 1
  y : Nat := 1
  z : Nat := 0
  deriving DecidableEq, Repr

/-- The base point. -/
def base : Point where
  x := 0xaa87ca22be8b05378eb1c71ef320ad746e1d3b628ba79b9859f741e082542a385502f25dbf55296c3a545e3872760ab7
  y := 0x3617de4a96262c6f5d9e98bf9292dc29f8f41dbd289a147ce9da3113b5f0b8c00a60b1ce1d7e819d7a431d7c90ea0e5f
  z := 1

/-- The bits of a 384-bit number, the highest first. -/
def bitsOf (n : Nat) : List Bool := ((List.range 384).map n.testBit).reverse

/-- `a` to the power `e` modulo `m`. -/
def power (m a e : Nat) : Nat := (bitsOf e).foldl (fun acc b => acc * acc % m * (if b then a else 1) % m) 1

/-- The inverse modulo a prime. -/
def inverse (m a : Nat) : Nat := power m a (m - 2)

/-- Product, and difference, in the field. -/
def mul (a b : Nat) : Nat := a * b % prime
/-- Difference. -/
def sub (a b : Nat) : Nat := (a + prime - b % prime) % prime

/-- Twice a point. -/
def double (P : Point) : Point :=
  let yy := mul P.y P.y
  let s := mul (4 * P.x) yy
  let zz := mul P.z P.z
  let m := sub (3 * mul P.x P.x) (3 * mul zz zz)
  let x := sub (mul m m) (2 * s)
  { x := x, y := sub (mul m (sub s x)) (mul (8 * yy) yy), z := mul (2 * P.y) P.z }

/-- The sum of two points. -/
def add (P Q : Point) : Point :=
  if P.z = 0 then Q else if Q.z = 0 then P
  else
    let (pz, qz) := (mul P.z P.z, mul Q.z Q.z)
    let (u, s) := (mul P.x qz, mul P.y (mul qz Q.z))
    let h := sub (mul Q.x pz) u
    let r := sub (mul Q.y (mul pz P.z)) s
    if h = 0 then (if r = 0 then double P else {})
    else
      let hh := mul h h
      let hhh := mul hh h
      let x := sub (mul r r) (hhh + 2 * mul u hh)
      { x := x, y := sub (mul r (sub (mul u hh) x)) (mul s hhh), z := mul h (mul P.z Q.z) }

/-- A point times a scalar. -/
def times (k : Nat) (P : Point) : Point :=
  (bitsOf k).foldl (fun acc b => if b then add (double acc) P else double acc) {}

/-- The affine coordinates of a point that is not at infinity. -/
def affine (P : Point) : Nat × Nat :=
  let i := inverse prime P.z
  let ii := mul i i
  (mul P.x ii, mul P.y (mul ii i))

/-- A public key's point: x followed by y, each 48 bytes, big-endian (R495). -/
def pointOf (key : List Byte) : Point := { x := ofBe (key.take 48), y := ofBe ((key.drop 48).take 48), z := 1 }

end P384

open P384

/-- A private scalar from 448 bits by extra random bits (R499). -/
def scalarOf (out : List Byte) : List Byte := be 48 (ofBe out % (P384.order - 1) + 1)

/-- The public key of a private scalar: 96 bytes. -/
def p384Public (scalar : List Byte) : List Byte :=
  let (x, y) := affine (times (ofBe scalar) base)
  be 48 x ++ be 48 y

/-- 96 bytes are a public key on the curve (R512). -/
def onCurve (key : List Byte) : Bool :=
  let P := pointOf key
  decide (P.x < prime ∧ P.y < prime) && mul P.y P.y == (sub (mul (mul P.x P.x) P.x) (3 * P.x) + coeffB) % prime

/-- The x-coordinate of the ECDH shared point (R512). -/
def ecdh (scalar peer : List Byte) : List Byte := be 48 (affine (times (ofBe scalar) (pointOf peer))).1

/-- The signature r, s of a 48-byte digest with the per-signature secret that the random bits give (R495, R500). -/
def ecdsa (scalar digest secret : List Byte) : List Byte :=
  let k := ofBe (scalarOf secret)
  let r := (affine (times k base)).1 % P384.order
  be 48 r ++ be 48 (inverse P384.order k * ((ofBe digest + r * ofBe scalar) % P384.order) % P384.order)

/-- A signature of a 48-byte digest verifies under a public key (R378, R470). -/
def ecdsaVerifies (key digest sig : List Byte) : Bool :=
  let (r, s) := (ofBe (sig.take 48), ofBe (sig.drop 48))
  let w := inverse P384.order s
  let P := add (times (ofBe digest * w % P384.order) base) (times (r * w % P384.order) (pointOf key))
  decide (0 < r ∧ r < P384.order ∧ 0 < s ∧ s < P384.order ∧ P.z ≠ 0) && (affine P).1 % P384.order == r

/-- A vendor signature over SHA-384 of a message verifies against the vendor key in ROM (R378, R470; log 9). -/
def vendorVerifies (message signature : List Byte) : Bool := ecdsaVerifies Config.vendorKey (sha384 message) signature

end Sys2Proof.Machine
end

