-- ==== Sys2Proof/Machine/AsRun.lean ====
section
/-! DEFINITION. The keys the device derives (R498, R499), its random values (R500), and the As-Run chain
(R515-R518). -/

namespace Sys2Proof.Machine

/-! ### Device keys (R498, R499) -/

/-- A Boot Measurement Register. -/
def Dev.bmrOf (d : Dev) (x : Nat) : List Byte := d.key.bmr.getD x (zeros 48)

/-- A BMR extended with a 48-byte digest (R497). -/
def Dev.extend (d : Dev) (x : Nat) (digest : List Byte) : Dev :=
  { d with key := { d.key with bmr := d.key.bmr.set x (sha384 (d.bmrOf x ++ digest)) } }

/-- The Context of Table 16-2 over given BMR0-BMR3. -/
def keyContext (classM : Bool) (purpose : Nat) (bmr : List (List Byte)) : List Byte :=
  [if classM then 0x4D#8 else 0x49#8, BitVec.ofNat 8 purpose, 0#8, 0#8] ++ bmr.headD [] ++
    (if classM then ((bmr.drop 1).take 3).flatten else [])

/-- A device key of `bits` bits. -/
def deviceKey (classM : Bool) (purpose bits : Nat) (bmr : List (List Byte)) : List Byte :=
  kdf Config.dus "OLX1152 Keystore" (keyContext classM purpose bmr) bits

/-- The Device Identity Key (R499). -/
def Dev.dik (d : Dev) : List Byte := scalarOf (deviceKey false 1 448 d.key.bmr)

/-- The As-Run Key (R499). -/
def Dev.asrunKey (d : Dev) : List Byte := scalarOf (deviceKey true 3 448 d.key.bmr)

/-- A key-wrapping key over given measurements (R499). -/
def kekOf (classM : Bool) (bmr : List (List Byte)) : List Byte := deviceKey classM 2 256 bmr

/-- The device id (R499). -/
def Dev.deviceId (d : Dev) : List Byte := (sha384 (p384Public d.dik)).take 16

/-- A random value of the DRBG, and the device with the draw counted (R500). -/
def Dev.random (d : Dev) : List Byte × Dev :=
  (Config.drbg d.key.draws, { d with key := { d.key with draws := d.key.draws + 1 } })

/-- A signature over a digest, and the device after the draw of its secret (R495, R500). -/
def Dev.sign (d : Dev) (scalar digest : List Byte) : List Byte × Dev :=
  let (r, d) := d.random
  (ecdsa scalar digest r, d)

/-! ### The As-Run Ring -/

/-- A record of the As-Run Ring: written, or waiting in order for space (R518), or dropped (R304). -/
def Dev.writeAsr (d : Dev) (p : Port) (bs : List Byte) : Dev :=
  if !d.ringOn p .asr then d
  else if d.lost p then d.drop p
  else if (d.rr p .asr).heldAsr.isEmpty && d.recRoom p .asr then d.writeRecord p .asr bs
  else (d.modRec p .asr fun x => { x with heldAsr := x.heldAsr ++ [bs] }).put F.HIF_ASR_STATUS_full true p.id

/-- Waiting records written while the ring has space (R518). -/
def Dev.flushAsr (d : Dev) (p : Port) : List (List Byte) → Dev
  | [] => d.put F.HIF_ASR_STATUS_full false p.id
  | b :: rest =>
    if d.ringOn p .asr && d.recRoom p .asr then
      Dev.flushAsr ((d.modRec p .asr fun x => { x with heldAsr := rest }).writeRecord p .asr b) p rest
    else d

/-- Checkpoint entry 0 of Table 16-10, its phase bit clear. -/
def Dev.checkpointHead (d : Dev) (p : Port) (reason : Nat) : List Byte :=
  let x := d.port p
  [2#8, 0#8, BitVec.ofNat 8 reason] ++ zeros 5 ++ le 8 x.asrSeq ++ le 4 x.asrSince ++ zeros 4
    ++ le 6 (d.epoch / secU) ++ zeros 2 ++ le 4 (d.epoch % secU / nsU) ++ zeros 4
    ++ (sha384 (p384Public d.asrunKey)).take 16 ++ zeros 8

/-- Checkpoint entry `part`, 1-3. -/
def checkpointPart (part : Nat) (value : List Byte) : List Byte :=
  [3#8, 0#8, BitVec.ofNat 8 part] ++ zeros 13 ++ fit 48 value

/-- A checkpoint (R517): a start or resumed one starts a new chain (R516). -/
def Dev.checkpoint (d : Dev) (p : Port) (reason : Nat) : Dev :=
  if !d.ringOn p .asr then d
  else
    let head := d.checkpointHead p reason
    let c := if reason = 0 ∨ reason = 3 then sha384 head else (d.port p).asrHash
    let (sig, d) := d.sign d.asrunKey (sha384 (head ++ c))
    let d := d.modPort p fun x => { x with asrHash := c, asrSince := 0, asrAt := d.now }
    ((((d.writeAsr p head).writeAsr p (checkpointPart 1 c)).writeAsr p (checkpointPart 2 (sig.take 48))).writeAsr p
      (checkpointPart 3 (sig.drop 48)))

/-- A take record of entry `k` of a salvo on ring `r` (Table 16-9), its phase bit clear. -/
def takeRecord (it : Item) (r k : Nat) (b : List Byte) (seq : Nat) : List Byte :=
  let flags := b2n it.applied.a + 2 * b2n it.applied.b + 4 * b2n it.late + 8 * b2n it.deferred + 16 * b2n it.authOk
  [1#8, BitVec.ofNat 8 flags] ++ le 2 (it.idx + k) ++ b.take 1 ++ [BitVec.ofNat 8 r] ++ le 2 k ++ le 8 seq
    ++ le 8 it.stamp ++ le 4 it.frame ++ (b.drop 4).take 24 ++ (sha384 (b.take 60)).take 12

/-- A take record written and chained (R515, R516), after the checkpoint that 256 records since the last one
make due (R517). While the ring is disabled there is no chain (R518). -/
def Dev.writeTake (d : Dev) (p : Port) (it : Item) (r k : Nat) (b : List Byte) : Dev :=
  if !d.ringOn p .asr then d
  else
    let d := if 256 ≤ (d.port p).asrSince then d.checkpoint p 1 else d
    let seq := (d.port p).asrSeq + 1
    let bs := takeRecord it r k b seq
    let d := d.modPort p fun x => { x with asrSeq := seq, asrSince := x.asrSince + 1, asrHash := sha384 (x.asrHash ++ bs) }
    d.writeAsr p bs

/-- ASRUN_CHECKPOINT (R517): reason 1 once 256 records, reason 2 once 1 s and a record, have passed since the last
checkpoint; reasons 0 and 3 come with the ring's enabling and the first poll after a loss. -/
def execAsrunCheckpoint (t : Nat) (port : Port) (reason : Nat) (s : State) : Host.Outcome State Fault Refusal :=
  onDev (reasonOk reason) t s fun d =>
    let x := d.port port
    let due := match reason with
      | 1 => decide (256 ≤ x.asrSince)
      | 2 => decide (0 < x.asrSince ∧ x.asrAt + secU ≤ d.now)
      | 3 => x.resumed
      | _ => false
    if due then (d.modPort port fun x => { x with resumed := if reason = 3 then false else x.resumed }).checkpoint port reason
    else d

end Sys2Proof.Machine
end

