-- ==== Sys2Proof/Machine/Rings.lean ====
section
/-! DEFINITION. Salvo Rings, Doorbell Blocks and Completion Rings (R253-R267, R278-R286, R292-R295): the ring
registers, the delivery order, withdrawal, failure, stall and resume, the posting of completions; and the commands
of the rings. -/

namespace Sys2Proof.Machine

/-! ### Ring registers -/

/-- Register instance of Salvo Ring r of a port. -/
def svrI (p : Port) (r : Nat) : Nat := 16 * p.id + r

/-- The ring is in use. -/
def Dev.svrOn (d : Dev) (p : Port) (r : Nat) : Bool := d.flag F.HIF_SVR_CFG_enable (svrI p r)
/-- The ring is stalled (R263). -/
def Dev.svrStalled (d : Dev) (p : Port) (r : Nat) : Bool := d.flag F.HIF_SVR_STATUS_stalled (svrI p r)
/-- The ring drains (R256). -/
def Dev.svrDraining (d : Dev) (p : Port) (r : Nat) : Bool := d.flag F.HIF_SVR_STATUS_draining (svrI p r)
/-- Slots of the ring (R254). -/
def Dev.svrSize (d : Dev) (p : Port) (r : Nat) : Nat := 2 ^ (6 + d.rd F.HIF_SVR_CFG_size (svrI p r))
/-- Device consumer index of the ring. -/
def Dev.svrCi (d : Dev) (p : Port) (r : Nat) : Nat := d.rd F.HIF_SVR_STATUS_ci (svrI p r)
/-- The Completion Ring of a Salvo Ring (R280). -/
def Dev.svrCpr (d : Dev) (p : Port) (r : Nat) : Nat := d.rd F.HIF_SVR_CFG_cpr (svrI p r)

/-- `b - a` modulo 65,536 (R258). -/
def idxDiff (a b : Nat) : Nat := (b + 65536 - a % 65536) % 65536

/-- With an item of a ring changed. -/
def Dev.modItem (d : Dev) (p : Port) (r idx : Nat) (f : Item → Item) : Dev :=
  d.modRing p r fun x => { x with items := x.items.map fun it => if it.idx == idx then f it else it }

/-- Polling runs on the port: HIF_PORT_STATUS.active follows enable and loss. -/
def Dev.refreshActive (d : Dev) (p : Port) : Dev :=
  d.put F.HIF_PORT_STATUS_active (d.flag F.HIF_PORT_CTRL_enable p.id && !d.lost p) p.id

/-! ### Pools and holdings (R324, R325) -/

/-- Both added. -/
def Amount.add (x y : Amount) : Amount := ⟨x.pages + y.pages, x.tokens + y.tokens, x.units + y.units⟩
/-- The second taken from the first, not below 0. -/
def Amount.sub (x y : Amount) : Amount := ⟨x.pages - y.pages, x.tokens - y.tokens, x.units - y.units⟩
/-- The smaller of each. -/
def Amount.least (x y : Amount) : Amount := ⟨Nat.min x.pages y.pages, Nat.min x.tokens y.tokens, Nat.min x.units y.units⟩

/-- 0 where `y` covers `x`, else the status of the first short kind: pages, tokens, units (R324, R325). -/
def Amount.short (x y : Amount) : Nat :=
  if y.pages < x.pages then 0x15 else if y.tokens < x.tokens then 0x16 else if y.units < x.units then 0x17 else 0

/-- The pool of a plane: free pages and tokens less the ring holdings (chapter 9), and free half units. -/
def Dev.pool (d : Dev) (p : Plane) : Amount :=
  ⟨d.rd F.HAM_POOL_pool p.id, d.rd F.HAM_TOKENS_pool p.id, d.rd F.GE_STATUS_half_free p.id⟩

/-- With the pool of a plane written. -/
def Dev.setPool (d : Dev) (p : Plane) (a : Amount) : Dev :=
  ((d.wr F.HAM_POOL_pool a.pages p.id).wr F.HAM_TOKENS_pool a.tokens p.id).wr F.GE_STATUS_half_free a.units p.id

/-- Amounts returned to the pool of a plane, and channel contexts. -/
def Dev.giveBack (d : Dev) (p : Plane) (a : Amount) (ctx : Nat) : Dev :=
  (d.setPool p ((d.pool p).add a)).wr F.GE_STATUS_ctx_free (d.rd F.GE_STATUS_ctx_free p.id + ctx) p.id

/-- A ring's holdings on a plane. -/
def Dev.holdOf (d : Dev) (pt : Port) (r : Nat) (p : Plane) : Amount := (d.ring pt r).hold.pl p

/-- With a ring's holdings on a plane changed. -/
def Dev.modHold (d : Dev) (pt : Port) (r : Nat) (p : Plane) (f : Amount → Amount) : Dev :=
  d.modRing pt r fun x => { x with hold := x.hold.modPl p f }

/-- The planes a 2-bit mask names. -/
def maskPlanes (m : Nat) : List Plane := [Plane.a, Plane.b].filter fun p => bitOf m p.id

/-- The amounts a RESERVE or RELEASE names. -/
def resAmount (b : List Byte) : Amount := ⟨D.pages.of b, D.tokens.of b, D.units.of b⟩

/-- Amounts moved from the pool into a ring's holdings on the named planes (RESERVE). -/
def Dev.toHold (d : Dev) (pt : Port) (r planes : Nat) (a : Amount) : Dev :=
  d.each (maskPlanes planes) fun d p => (d.setPool p ((d.pool p).sub a)).modHold pt r p (·.add a)

/-- Amounts moved from a ring's holdings back to the pool on the named planes (RELEASE). -/
def Dev.fromHold (d : Dev) (pt : Port) (r planes : Nat) (a : Amount) : Dev :=
  d.each (maskPlanes planes) fun d p =>
    let a := a.least (d.holdOf pt r p)
    (d.setPool p ((d.pool p).add a)).modHold pt r p (·.sub a)

/-- Everything a secured salvo holds is released: what its openings drew returns whence it came, and what its
RESERVE and RELEASE entries moved moves back as far as it is still there (R292, log 17). -/
def Dev.undoItem (d : Dev) (pt : Port) (r : Nat) (it : Item) : Dev :=
  let d := d.each it.allocs fun d a =>
    (d.giveBack a.plane ((a.amount.sub a.fromHold).sub a.fromCredit) (a.ctx - a.ctxCredit)).modHold pt r a.plane (·.add a.fromHold)
  let d := if it.isSalvo then
      d.each it.entries.reverse fun d b =>
        if descOp b == 0x21 then d.fromHold pt r (D.planes.of b) (resAmount b)
        else if descOp b == 0x22 then
          d.each (maskPlanes (D.planes.of b)) fun d p =>
            let a := (resAmount b).least (d.pool p)
            (d.setPool p ((d.pool p).sub a)).modHold pt r p (·.add a)
        else d
    else d
  d.modItem pt r it.idx fun x => { x with allocs := [], closes := [], results := [] }

/-! ### Failure, withdrawal (R292-R294) -/

/-- The item has not latched and its action has not begun. -/
def Item.unlatched (it : Item) : Bool :=
  match it.phase with
  | .fetched | .delivered | .waiting | .secured => true
  | .latched | .acting | .done => false

/-- The salvo's own continue-on-error bit, where its header could be read. -/
def Item.coe (it : Item) : Bool := it.isSalvo && descCrcOk it.head && D.coe.on it.head

/-- The item has failed. -/
def Item.failed (it : Item) : Bool := it.phase == .done && decide (0x10 ≤ it.status)

/-- The item's failure stalls its ring (R294). -/
def Dev.stalling (d : Dev) (p : Port) (r : Nat) (it : Item) : Bool :=
  it.failed && !d.flag F.HIF_SVR_CFG_coe (svrI p r) && !it.coe

/-- Items of a ring withdrawn: they release what they secured and post no completion; the ring's fetching goes
back to the first of them, or behind what stays after it (R294). -/
def Dev.withdraw (d : Dev) (p : Port) (r : Nat) (sel : Item → Bool) : Dev :=
  let gone := (d.ring p r).items.filter sel
  let d := d.each gone fun d it => if it.phase == .secured then d.undoItem p r it else d
  d.modRing p r fun x =>
    let rest := x.items.filter fun it => !sel it
    { x with items := rest, head := []
             fetch := match gone, rest.getLast? with
               | [], _ => x.fetch
               | it :: _, none => it.idx
               | _, some it => (it.idx + it.slots) % 65536 }

/-- The item's outcome was decided without its having latched or begun its action (R256). -/
def Item.undone (it : Item) : Bool :=
  it.phase == .done && if it.isSalvo then it.stamp == 0 else decide (0x10 ≤ it.status ∧ it.status ≤ 0x19)

/-- Every item that has not latched is withdrawn, those whose outcome was decided included (R256, R304, R306). -/
def Dev.withdrawUnlatched (d : Dev) (p : Port) (r : Nat) : Dev :=
  (d.withdraw p r fun it => it.unlatched || it.undone).modRing p r fun x => { x with blocked := false, starting := false }

/-- An item whose failure is decided: where it stalls its ring, every later item of the ring that has not latched is
withdrawn and nothing more is fetched (R294). -/
def Dev.stallBehind (d : Dev) (p : Port) (r : Nat) (it : Item) : Dev :=
  let later (x : Item) : Bool :=
    decide (idxDiff it.idx x.idx < 32768) && x.idx != it.idx && (x.unlatched || x.undone)
  if d.stalling p r it then (d.withdraw p r later).modRing p r fun x => { x with blocked := true } else d

/-- An item fails (R292): it releases what it secured; a failure that stalls its ring withdraws every later item of
it (R294); after one that does not, later items are validated again where the item carried CCT entries (R316). -/
def Dev.failItem (d : Dev) (p : Port) (r idx status entry : Nat) (authDesc : Bool := false) : Dev :=
  match (d.ring p r).items.find? fun it => it.idx == idx with
  | none => d
  | some it =>
    let d := if it.phase == .secured then d.undoItem p r it else d
    let d := d.modItem p r idx fun x =>
      { x with phase := .done, status := status, entry := entry, authDesc := authDesc, need := [], stamp := 0 }
    let d := d.when (status == 0x14) fun d => d.bump F.KEY_CNT_auth_fail
    let failed := { it with phase := .done, status := status }
    if d.stalling p r failed then d.stallBehind p r failed
    else if it.ccts.isEmpty then d
    else
      let redo := (d.ring p r).items.filter fun x =>
        decide (idxDiff it.idx x.idx < 32768) && x.idx != idx && (x.phase == .secured || x.phase == .waiting)
      d.each redo fun d x =>
        (if x.phase == .secured then d.undoItem p r x else d).modItem p r x.idx fun y =>
          { y with phase := .delivered, cur := 0, need := [], ccts := [] }

/-! ### Delivery (R267, R283-R286, R280, R518, R527) -/

/-- t_READY has passed (R524). -/
def Dev.isReady (d : Dev) : Bool := decide (4 ≤ d.rd F.GLB_START_phase)

/-- The ring's Completion Ring is full (R280). -/
def Dev.cprFull (d : Dev) (p : Port) (r : Nat) : Bool :=
  let c := RecRing.cpr (d.svrCpr p r)
  !(d.rr p c).held.isEmpty || (d.ringOn p c && !d.recRoom p c)

/-- A salvo has applied by epoch `e`: its switch point has come and its every entry has landed. -/
def Item.hasApplied (it : Item) (e : Nat) : Bool :=
  it.phase == .latched && it.standing.isEmpty && decide (it.point ≤ e) && it.landed.length == it.entries.length

/-- Salvos of a ring delivered and not yet applied (R285). -/
def SvRing.queued (x : SvRing) (e : Nat) : Nat :=
  (x.items.filter fun it => it.isSalvo && it.seq != 0 && it.phase != .done && !it.hasApplied e).length

/-- Delivered salvos not yet applied, over all rings (R285). -/
def Dev.queued (d : Dev) : Nat := d.svr.foldl (fun n x => n + SvRing.queued x.2 d.epoch) 0

/-- The fetch unit serves the ring: its port is there, it is enabled and unstalled, its Completion Ring has space, and no
standalone item stands at its end (R267, R280, R286, R294). -/
def Dev.serves (d : Dev) (p : Port) (r : Nat) : Bool :=
  let x := d.ring p r
  d.svrOn p r && !d.svrStalled p r && !x.blocked && !x.starting && !d.lost p && !d.cprFull p r

/-- Host address of slot `x` of a Salvo Ring (R258). -/
def Dev.svrSlot (d : Dev) (p : Port) (r x : Nat) : Nat :=
  d.rd F.HIF_SVR_BASE_LO_addr (svrI p r) * 4096 + d.rd F.HIF_SVR_BASE_HI_addr (svrI p r) * 2 ^ 32 + x % d.svrSize p r * 64

/-- The reads of `n` slots of a ring from slot `x` on, in two parts where they wrap past the end of the ring (R258, R266). -/
def Dev.readSlots (d : Dev) (p : Port) (r x n : Nat) : Dev :=
  let k := Nat.min n (d.svrSize p r - x % d.svrSize p r)
  let one (d : Dev) (x n : Nat) : Dev := if n = 0 then d else d.emit (.hostRead p (d.svrSlot p r x) (64 * n))
  one (one d x k) (x + k) (n - k)

/-- Slots of the item that a header read opens (R266). -/
def headSlots (b : List Byte) : Nat :=
  if descCrcOk b && descOp b == 0x01 then D.count.of b + 1 + b2n (D.auth.on b) else 1

/-- The ring holds an unfetched item that the fetch unit can read now: what has arrived of it has been delivered, no
standalone item stands before it, and svr_pi covers what a header read before asks for (R266, R267). -/
def Dev.toFetch (d : Dev) (p : Port) (r : Nat) : Bool :=
  let x := d.ring p r
  d.serves p r && x.fetch != x.pi && x.items.all (fun it => it.isSalvo && it.seq != 0)
    && (x.head.isEmpty || decide (headSlots x.head ≤ idxDiff x.fetch x.pi))

/-- The first fetched item of a ring that may be delivered now: R280, R285, R286, R518 and R527 hold none back. -/
def Dev.deliverable (d : Dev) (p : Port) (r : Nat) : Option Nat :=
  let x := d.ring p r
  if !d.serves p r then none
  else
    match x.items.find? fun it => it.seq == 0 with
    | none => none
    | some it =>
      let before := x.items.takeWhile fun y => y.idx != it.idx
      if before.any (fun y => !y.isSalvo) then none
      else if it.isSalvo && (!d.isReady || decide (256 ≤ d.queued) || decide (64 ≤ x.queued d.epoch) || !(d.rr p .asr).heldAsr.isEmpty)
      then none
      else some it.idx

/-- One item of a ring delivered where one may be (R283). -/
def Dev.deliverOne (d : Dev) (p : Port) (r : Nat) : Dev :=
  match d.deliverable p r with
  | none => d
  | some idx =>
    let d := { d with seq := d.seq + 1 }
    (d.modItem p r idx fun it =>
        { it with seq := d.seq, phase := if it.phase == .fetched then .delivered else it.phase }).modPort p fun x => { x with turn := r }

/-- The port's fetch unit delivers what it may, one item per ring per turn (R267). DEDUCED (log 55): a ring whose turn it is
and whose item is still being read keeps its turn. -/
def Dev.deliver (d : Dev) (p : Port) : Dev :=
  let n := (List.range 16).foldl (fun n r => n + ((d.ring p r).items.filter fun it => it.seq == 0).length) 0
  d.each (List.range n) fun d _ =>
    match ((List.range 16).map fun k => ((d.port p).turn + 1 + k) % 16).find? fun r =>
        (d.deliverable p r).isSome || d.toFetch p r with
    | some r => d.deliverOne p r
    | none => d

/-- Both fetch units deliver, the primary port's first (R544). -/
def Dev.deliverAll (d : Dev) : Dev :=
  if d.flag F.GLB_START_hostpri then (d.deliver .b).deliver .a else (d.deliver .a).deliver .b

/-! ### Completions (R262, R263, R277-R280) -/

/-- The ring has drained once nothing of it is left (R256). -/
def Dev.refreshDrain (d : Dev) (p : Port) (r : Nat) : Dev :=
  let left := !(d.ring p r).items.isEmpty || (List.range 16).any fun c => (d.rr p (.cpr c)).held.any fun h => h.svr == r
  if d.svrDraining p r && !left then d.put F.HIF_SVR_STATUS_draining false (svrI p r) else d

/-- svr_ci moves to an index (R262, R514). -/
def Dev.setCi (d : Dev) (p : Port) (r ci : Nat) : Dev :=
  let n := idxDiff (d.svrCi p r) ci
  let d := d.wr F.HIF_SVR_STATUS_ci ci (svrI p r)
  (d.modRing p r fun x => { x with pos := x.pos + n }).modPort p fun x => { x with dirty := true }

/-- What a completion's posting does to its Salvo Ring: svr_ci moves past the item, and its stall takes effect
(R262, R263). -/
def Dev.settle (d : Dev) (p : Port) (r newCi : Nat) (stall : Bool) : Dev :=
  let d := d.setCi p r newCi
  let d := d.when stall fun d =>
    (d.put F.HIF_SVR_STATUS_stalled true (svrI p r)).modRing p r fun x => { x with stallGen := x.resumeGen }
  d.refreshDrain p r

/-- A completion posted: written, or held in order for a full or disabled ring, or dropped with its port, or not posted at
all where a TAKEOVER took its ring (R280, R256, R304, R307). -/
def Dev.postRecord (d : Dev) (p : Port) (r : Nat) (bytes : List Byte) (newCi : Nat) (stall : Bool) : Dev :=
  let c := RecRing.cpr (d.svrCpr p r)
  if d.lost p then (d.drop p).settle p r newCi stall
  else if d.ringOn p c && d.recRoom p c && (d.rr p c).held.isEmpty then (d.writeRecord p c bytes).settle p r newCi stall
  else if d.bitAt F.HIF_TAKEN_taken r p.id then d.settle p r newCi false
  else
    (d.modRec p c fun x => { x with held := x.held ++ [{ svr := r, bytes := bytes, newCi := newCi, stall := stall }] }).put
      (recRegs p c).full true (recRegs p c).i

/-- Held completions of a ring posted while it has space (R280). -/
def Dev.flushHeld (d : Dev) (p : Port) (c : Nat) : List Held → Dev
  | [] => d.put F.HIF_CPR_STATUS_full false (16 * p.id + c)
  | h :: rest =>
    if d.lost p || (d.ringOn p (.cpr c) && d.recRoom p (.cpr c)) then
      let d := d.modRec p (.cpr c) fun x => { x with held := rest }
      Dev.flushHeld ((if d.lost p then d.drop p else d.writeRecord p (.cpr c) h.bytes).settle p h.svr h.newCi h.stall) p c rest
    else d

/-- The completion record of an item, its phase bit clear (Table 7-17). -/
def Dev.completionOf (d : Dev) (p : Port) (r : Nat) (it : Item) : List Byte :=
  let flags := r + 16 * b2n it.applied.a + 32 * b2n it.applied.b + 64 * b2n it.late + 128 * b2n it.deferred
  let entry := it.entry % 4096 + 4096 * b2n (d.stalling p r it) + 8192 * b2n it.authOk + 16384 * b2n it.authDesc
  le 2 it.idx ++ le 2 (if it.isSalvo then D.tag.of it.head else 0) ++ le 1 it.status ++ le 1 flags ++ le 2 entry
    ++ le 4 (if it.isSalvo then it.frame else d.epoch / secU) ++ le 4 it.stamp

/-- Some As-Run record of the item still waits for space (R279, R518). -/
def Dev.asrWaits (d : Dev) (p : Port) (r : Nat) (it : Item) : Bool :=
  (d.rr p .asr).heldAsr.any fun b =>
    fieldAt b 0 1 == 1 && fieldAt b 5 1 % 16 == r && decide (idxDiff it.idx (fieldAt b 2 2) < it.slots)

/-- The take records of an item that applied, written before its completion (R279, R515). -/
def Dev.recordTakes (d : Dev) (p : Port) (r : Nat) (it : Item) : Dev :=
  if it.recorded || !it.isSalvo || it.status != 0 || !(it.applied.a || it.applied.b) then d
  else
    (d.each it.numbered fun d e => if decide (0x10 ≤ descOp e.2 ∧ descOp e.2 ≤ 0x16) then d.writeTake p it r e.1 e.2 else d).modItem
      p r it.idx fun x => { x with recorded := true }

/-- The ring's first item completes where its outcome is decided (R277, R279, R288). -/
def Dev.postFirst (d : Dev) (p : Port) (r : Nat) : Dev :=
  match (d.ring p r).items with
  | [] => d
  | it :: _ =>
    if it.phase != .done then d
    else
      let d := d.recordTakes p r it
      if d.asrWaits p r it then d
      else
        let stall := d.stalling p r it
        let bytes := d.completionOf p r it
        let d := d.modRing p r fun x => { x with items := x.items.drop 1 }
        (d.postRecord p r bytes ((it.idx + it.slots) % 65536) stall).deliverAll

/-! ### The Doorbell Block (R257-R263) -/

/-- Host address of the port's Doorbell Block. -/
def Dev.dbBase (d : Dev) (p : Port) : Nat := d.rd F.HIF_DB_BASE_LO_addr p.id * 256 + d.rd F.HIF_DB_BASE_HI_addr p.id * 2 ^ 32

/-- Polling and fetching run on the port. -/
def Dev.polling (d : Dev) (p : Port) : Bool := d.flag F.HIF_PORT_CTRL_enable p.id && !d.lost p

/-- A read of bytes 0x00-0xCF issued (R259). -/
def Dev.issueDoorbell (d : Dev) (p : Port) : Dev :=
  (d.modPort p fun x => { x with reading := true, sweepDue := false }).emit (.hostRead p (d.dbBase p) 0xD0)

/-- DOORBELL_POLL (R259): a poll that falls due while a read is outstanding is skipped and counted. -/
def execDoorbellPoll (t : Nat) (port : Port) (s : State) : Host.Outcome State Fault Refusal :=
  onDev true t s fun d =>
    if !d.polling port then d
    else if (d.port port).reading then d.bump F.HIF_POLL_SKIP_skipped port.id
    else
      let d := d.issueDoorbell port
      d.when (d.port port).resumed fun d => (d.modPort port fun x => { x with resumed := false }).checkpoint port 3

/-- A Doorbell read asked for: issued, or served when the outstanding one completes (R259). -/
def Dev.askDoorbell (d : Dev) (p : Port) : Dev :=
  if (d.port p).reading then d.modPort p fun x => { x with sweepDue := true } else d.issueDoorbell p

/-- LATCH_SWEEP (R260): within 1 us of a poll that poll serves it; else it is issued, or waits for the outstanding read. -/
def execLatchSweep (t : Nat) (port : Port) (sinceUs : Nat) (s : State) : Host.Outcome State Fault Refusal :=
  onDev true t s fun d =>
    if !d.polling port || !d.flag F.HIF_DB_CFG_sweep port.id || decide (sinceUs ≤ 1) then d else d.askDoorbell port

/-- A Doorbell read has failed (R303). -/
def Dev.doorbellFailed (d : Dev) (p : Port) : Dev :=
  let d := d.raise F.HIF_ERR_db_fetch_err p.id
  let d := d.modPort p fun x => { x with reading := false, fails := x.fails + 1 }
  d.when (d.port p).sweepDue fun d => d.issueDoorbell p

/-- A stalled ring resumes, or flags resume_invalid (R263). -/
def Dev.resumeRing (d : Dev) (p : Port) (r : Nat) : Dev :=
  let x := d.ring p r
  if !d.svrOn p r || !d.svrStalled p r || x.resumeGen == x.stallGen then d
  else
    let ci := d.svrCi p r
    if idxDiff ci x.resumeIdx ≤ idxDiff ci x.pi then
      let d := (d.withdraw p r fun _ => true).setCi p r x.resumeIdx
      (d.put F.HIF_SVR_STATUS_stalled false (svrI p r)).modRing p r fun x =>
        { x with fetch := x.resumeIdx, blocked := false, stallGen := x.resumeGen }
    else d.raise F.HIF_ERR_resume_invalid p.id

/-- A Salvo Ring starts, empty, at a producer index (R255). -/
def Dev.startRing (d : Dev) (p : Port) (r pi : Nat) : Dev :=
  let d := (d.wr F.HIF_SVR_STATUS_ci pi (svrI p r)).modPort p fun x => { x with dirty := true }
  d.modRing p r fun x => { x with pi := pi % 65536, fetch := pi % 65536, items := [], head := [], starting := false }

/-- The bytes of a Doorbell read taken (Table 7-1). -/
def Dev.takeDoorbell (d : Dev) (p : Port) (b : List Byte) : Dev :=
  let d := d.each (List.range 16) fun d r =>
    if d.svrOn p r then
      let d := if (d.ring p r).starting then d.startRing p r (fieldAt b (2 * r) 2) else d
      (d.modRing p r fun x => { x with pi := fieldAt b (2 * r) 2, resumeIdx := fieldAt b (0x20 + 4 * r) 2
                                       resumeGen := fieldAt b (0x22 + 4 * r) 2 }).resumeRing p r
    else d
  let d := d.each (List.range 16) fun d c => d.modRec p (.cpr c) fun x => { x with ci := fieldAt b (0x60 + 2 * c) 2 }
  let d := d.each (List.range 32) fun d e => d.modRec p (.evr e) fun x => { x with ci := fieldAt b (0x80 + 2 * e) 2 }
  let d := d.modRec p .asr fun x => { x with ci := fieldAt b 0xC0 2 }
  let d := d.each (List.range 16) fun d c => d.flushHeld p c (d.rr p (.cpr c)).held
  ((d.flushAsr p (d.rr p .asr).heldAsr).eventSpace p).deliverAll

/-- DOORBELL_READ_COMPLETE (R259, R261, R263, R280, R423). -/
def execDoorbellReadComplete (t : Nat) (port : Port) (data : Option (List Byte)) (s : State) :
    Host.Outcome State Fault Refusal :=
  onDev true t s fun d =>
    if !(d.port port).reading || !d.polling port then d
    else
      match data with
      | none => d.doorbellFailed port
      | some b =>
        let d := d.modPort port fun x =>
          { x with reading := false, fails := 0, polls := (x.polls + 1) % 2 ^ 32
                   dirty := x.dirty || (x.polls + 1) % 256 == 0 }
        let d := d.takeDoorbell port b
        d.when (d.port port).sweepDue fun d => d.issueDoorbell port

/-- Bytes 0xD0-0xFF of the Doorbell Block. -/
def Dev.doorbellOut (d : Dev) (p : Port) : List Byte :=
  ((List.range 16).map fun r => le 2 (d.svrCi p r)).flatten
    ++ le 2 ((List.range 16).foldl (fun m r => m + 2 ^ r * b2n (d.svrStalled p r)) 0) ++ zeros 2
    ++ le 4 (d.port p).polls ++ zeros 8

/-- DOORBELL_WRITEBACK (R261). -/
def execDoorbellWriteback (t : Nat) (port : Port) (s : State) : Host.Outcome State Fault Refusal :=
  onDev true t s fun d =>
    if d.polling port && (d.port port).dirty then
      (d.modPort port fun x => { x with dirty := false }).hostWrite port (d.dbBase port + 0xD0) (d.doorbellOut port)
    else d

/-! ### Arrival (R265, R266) -/

/-- The status and slots of an item from what its descriptor reads brought; none: it has not arrived. -/
def Dev.arrival (d : Dev) (p : Port) (r : Nat) (descs : List (List Byte)) (ok : Bool) : Option (Nat × Nat) :=
  let head := descs.headD []
  let good := !descs.isEmpty && descCrcOk head && headOp (descOp head)
  let n := if good then headSlots head else 1
  let covered := decide (n ≤ idxDiff (d.ring p r).fetch (d.ring p r).pi)
  if good && decide (d.svrSize p r < n) then some (0x19, 1)
  else if !ok then if covered then some (0x10, n) else none
  else if descs.isEmpty then none
  else if !good then some (if descCrcOk head then 0x13 else 0x11, 1)
  else if covered && descs.length == n then some (0, n)
  else none

/-- The descriptor reads that brought an item, or its header alone: the header, where it was not read before, and the
rest (R266). DESIGN CHOICE (log 56): they are issued with the command that completes them. -/
def Dev.readItem (d : Dev) (p : Port) (r : Nat) (descs : List (List Byte)) (out : Option (Nat × Nat)) : Dev :=
  let x := d.ring p r
  let d := if x.head.isEmpty then d.readSlots p r x.fetch 1 else d
  match out with
  | some (st, n) => if st == 0 || (st == 0x10 && !descs.isEmpty) then d.readSlots p r (x.fetch + 1) (n - 1) else d
  | none => d

/-- An item enters its ring (R266, R269, R273, R274): one that failed on the way has its outcome decided. A header whose
other slots are still to come is kept. -/
def Dev.arrive (d : Dev) (p : Port) (r : Nat) (descs : List (List Byte)) (ok : Bool) : Dev :=
  let x := d.ring p r
  let descs := if descs.isEmpty && !x.head.isEmpty then [x.head] else descs
  if !d.polling p || !d.svrOn p r || d.svrStalled p r || x.blocked || x.starting || x.fetch == x.pi then d
  else
    let out := d.arrival p r descs ok
    let head := descs.headD []
    match out with
    | none => if descs.isEmpty || !ok then d else (d.readItem p r descs out).modRing p r fun x => { x with head := head }
    | some (status, n) =>
      let c := D.cls.of head
      let tgt := if D.asap.on head then d.firstAfter Dev.tS c d.epoch else D.atFrame.of head
      let it : Item := { idx := x.fetch, slots := n, descs := descs, arrive := d.now
                         arrFrame := frameAt (d.clsRate c) d.epoch, target := tgt, frame := tgt }
      let d := (d.readItem p r descs out).modRing p r fun x =>
        { x with items := x.items ++ [it], fetch := (x.fetch + n) % 65536, head := [] }
      let d := d.when (!ok) fun d => d.raise F.HIF_ERR_desc_fetch_err p.id
      if status = 0 then d.deliverAll else d.failItem p r it.idx status 0

/-- ITEM_ARRIVAL (R266). -/
def execItemArrival (t : Nat) (port : Port) (ring : Nat) (descs : List (List Byte)) (ok : Bool) (s : State) :
    Host.Outcome State Fault Refusal :=
  onDev (ringOk ring) t s fun d => d.arrive port ring (descs.map (fit 64)) ok

/-! ### Setting rings up (R254-R256, R419) -/

/-- A Salvo Ring enabled: it starts empty at the producer index that the Doorbell read shows, here or, for none, in the
read that it asks for (R255). -/
def Dev.svrEnable (d : Dev) (p : Port) (r : Nat) (pi : Option Nat) : Dev :=
  if d.svrOn p r then d
  else if d.svrDraining p r then d.raise F.HIF_ERR_cfg_invalid p.id
  else
    let d := (d.put F.HIF_SVR_CFG_enable true (svrI p r)).put F.HIF_SVR_STATUS_stalled false (svrI p r)
    let d := (d.setBit F.HIF_TAKEN_taken r false p.id).modRing p r fun x =>
      { x with items := [], head := [], blocked := false, key := none, pos := 0, starting := true }
    match pi with
    | some pi =>
      (if (d.port p).reading then d else d.emit (.hostRead p (d.dbBase p) 0xD0)).startRing p r pi
    | none => d.when (d.polling p) fun d => d.askDoorbell p

/-- A Salvo Ring disabled (R256, R513). -/
def Dev.svrDisable (d : Dev) (p : Port) (r : Nat) : Dev :=
  if !d.svrOn p r then d
  else
    let d := (d.withdrawUnlatched p r).put F.HIF_SVR_CFG_enable false (svrI p r)
    let d := d.modRing p r fun x => { x with key := none }
    ((d.put F.HIF_SVR_STATUS_draining true (svrI p r)).refreshDrain p r).deliverAll

/-- An Event Ring of the port is enabled. -/
def Dev.anyEvr (d : Dev) (p : Port) : Bool := (List.range 32).any fun e => d.ringOn p (.evr e)

/-- A record ring enabled (R255, R419, R517). -/
def Dev.recEnable (d : Dev) (p : Port) (r : RecRing) : Dev :=
  let g := recRegs p r
  let isEvr := match r with
    | .evr _ => true
    | _ => false
  if d.ringOn p r then d
  else if isEvr && d.foldBase p == 0 then d.raise F.HIF_ERR_cfg_invalid p.id
  else
    let d := (((d.put g.enable true g.i).wr g.pi 0 g.i).wr g.phase 1 g.i).modRec p r fun x => { x with ci := 0, modPend := false }
    match r with
    | .cpr c => (d.flushHeld p c (d.rr p (.cpr c)).held).deliverAll
    | .evr _ => d
    | .asr => (d.modPort p fun x => { x with asrSeq := 0, asrSince := 0 }).checkpoint p 0

/-- A record ring disabled (R256, R518): waiting As-Run records are kept no longer. -/
def Dev.recDisable (d : Dev) (p : Port) (r : RecRing) : Dev :=
  let g := recRegs p r
  if !d.ringOn p r then d
  else
    let d := d.put g.enable false g.i
    match r with
    | .cpr _ => d
    | .evr _ => d
    | .asr => ((d.modRec p .asr fun x => { x with heldAsr := [] }).put g.full false g.i).deliverAll

/-- The ring registers at an offset of a port block: BASE_LO 0, BASE_HI 1, CFG 2; a Salvo Ring or a record ring. -/
inductive RingReg where
  | svr (r : Nat)
  | recRing (r : RecRing)
  deriving DecidableEq, Repr

/-- The ring and register (0 BASE_LO, 1 BASE_HI, 2 CFG) at an offset of a port block (Table 7-22). -/
def ringReg (off : Nat) : Option (RingReg × Nat) :=
  let k := off % 16 / 4
  if off % 4 ≠ 0 ∨ k = 3 then none
  else if 0x100 ≤ off ∧ off < 0x200 then some (.svr ((off - 0x100) / 16), k)
  else if 0x200 ≤ off ∧ off < 0x300 then some (.recRing (.cpr ((off - 0x200) / 16)), k)
  else if 0x400 ≤ off ∧ off < 0x600 then some (.recRing (.evr ((off - 0x400) / 16)), k)
  else if 0x600 ≤ off ∧ off < 0x610 then some (.recRing .asr, k)
  else none

/-- The registers BASE_LO, BASE_HI and CFG of a ring. -/
def ringNames : RingReg → RegName × RegName × RegName
  | .svr _ => (.HIF_SVR_BASE_LO, .HIF_SVR_BASE_HI, .HIF_SVR_CFG)
  | .recRing (.cpr _) => (.HIF_CPR_BASE_LO, .HIF_CPR_BASE_HI, .HIF_CPR_CFG)
  | .recRing (.evr _) => (.HIF_EVR_BASE_LO, .HIF_EVR_BASE_HI, .HIF_EVR_CFG)
  | .recRing .asr => (.HIF_ASR_BASE_LO, .HIF_ASR_BASE_HI, .HIF_ASR_CFG)

/-- A write to a ring's BASE or CFG register (R254); a changed enable bit enables or disables the ring. -/
def Dev.ringCfgWrite (d : Dev) (p : Port) (off : Nat) (val : Word) : Dev :=
  match ringReg off with
  | none => d
  | some (g, k) =>
    let (i, on, mask, draining) := match g with
      | .svr r => (svrI p r, d.svrOn p r, 0x7FE, d.svrDraining p r)
      | .recRing r => ((recRegs p r).i, d.ringOn p r, 0x7FFFE, false)
    let names := ringNames g
    let bad := d.raise F.HIF_ERR_cfg_invalid p.id
    if k = 0 then if on || draining then bad else d.setReg names.1 i (val &&& 0xFFFFF000#32)
    else if k = 1 then if on || draining then bad else d.setReg names.2.1 i val
    else
      let old := (d.reg names.2.2 i).toNat
      let v := val.toNat &&& mask
      let v := match g with
        | .svr _ => if d.flag F.HIF_PORT_CTRL_lock p.id then (v &&& 0x3FE) + (old &&& 0x400) else v
        | _ => v
      let changes := v != (old &&& mask)
      let en := val.toNat % 2 == 1
      if (changes && (on || draining)) || (en && draining) || (changes && decide (10 < v / 2 % 16)) then bad
      else
        let d := if changes then d.setReg names.2.2 i (BitVec.ofNat 32 (v + old % 2)) else d
        match g with
        | .svr r => if en == on then d else if en then d.svrEnable p r none else d.svrDisable p r
        | .recRing r => if en == on then d else if en then d.recEnable p r else d.recDisable p r

/-- RING_CONFIG_WRITE (R254). -/
def execRingConfigWrite (t : Nat) (port : Port) (off : Nat) (val : Word) (s : State) : Host.Outcome State Fault Refusal :=
  onDev true t s fun d => d.ringCfgWrite port off val

/-- SVR_ENABLE (R255). -/
def execSvrEnable (t : Nat) (port : Port) (ring pi : Nat) (s : State) : Host.Outcome State Fault Refusal :=
  onDev (ringOk ring) t s fun d => d.svrEnable port ring (some pi)

/-- SVR_DISABLE (R256). -/
def execSvrDisable (t : Nat) (port : Port) (ring : Nat) (s : State) : Host.Outcome State Fault Refusal :=
  onDev (ringOk ring) t s fun d => d.svrDisable port ring

/-- RECORD_RING_ENABLE (R255). -/
def execRecordRingEnable (t : Nat) (port : Port) (ring : RecRing) (s : State) : Host.Outcome State Fault Refusal :=
  onDev (recRingOk ring) t s fun d => d.recEnable port ring

/-- RECORD_RING_DISABLE (R256). -/
def execRecordRingDisable (t : Nat) (port : Port) (ring : RecRing) (s : State) : Host.Outcome State Fault Refusal :=
  onDev (recRingOk ring) t s fun d => d.recDisable port ring

/-- MSIX_MODERATION_EXPIRY (R281). -/
def execMsixModerationExpiry (t : Nat) (port : Port) (ring : RecRing) (s : State) : Host.Outcome State Fault Refusal :=
  onDev (recRingOk ring) t s fun d => if (d.rr port ring).modPend then d.announce port ring else d

/-- A write to HIF_FOLD_BASE_LO or HIF_FOLD_BASE_HI (R419). -/
def Dev.foldBaseWrite (d : Dev) (p : Port) (hi : Bool) (val : Word) : Dev :=
  if d.anyEvr p then d.raise F.HIF_ERR_cfg_invalid p.id
  else if d.flag F.HIF_PORT_CTRL_lock p.id then d
  else if hi then d.setReg .HIF_FOLD_BASE_HI p.id val
  else d.setReg .HIF_FOLD_BASE_LO p.id (val &&& 0xFFFFF000#32)

/-- FOLD_BASE_WRITE (R419). -/
def execFoldBaseWrite (t : Nat) (port : Port) (hi : Bool) (val : Word) (s : State) : Host.Outcome State Fault Refusal :=
  onDev true t s fun d => d.foldBaseWrite port hi val

/-- Every cached CCT entry discarded in all three Coolboxes (R313). -/
def Dev.cctFlush (d : Dev) : Dev :=
  let drop (x : PlaneSt) : PlaneSt := { x with coolbox := [] }
  ({ d with cctData := [], coolCtl := [] }.modPlane .a drop).modPlane .b drop

/-- CCT_FLUSH (R313): a write of HIF_CCT_BASE_LO.flush through the named port. -/
def execCctFlush (t : Nat) (_port : Port) (s : State) : Host.Outcome State Fault Refusal :=
  onDev true t s fun d => d.cctFlush

end Sys2Proof.Machine
end

