-- ==== Sys2Proof/Machine/Channels.lean ====
section
/-! DEFINITION. Hamper channels: profiles, pages, tokens and engine units (chapters 9 and 10), the opening and
closing of channels and sets, the allocation of engines, readers, and Hamper and engine aborts. -/

namespace Sys2Proof.Machine

/-! ### Profiles (Tables 10-1, 10-2, 10-8) -/

/-- A base profile (Table 10-2). -/
structure Profile where
  half : Nat := 0
  lp : Nat := 0
  history : Nat := 0
  depth : Nat := 3
  w : Nat := 0
  rp : Nat := 1
  step : Nat := 0xFF
  overlap : Nat := 0
  deriving DecidableEq, Repr

/-- The ROM library (Table 10-2); a step of its own code marks a stepped behaviour of the same profile. -/
def romProfile (base : Nat) : Option Profile :=
  match base with
  | 0x00 => some {}
  | 0x01 => some { half := 2, overlap := 8 }
  | 0x02 => some { half := 4, lp := 1, history := 2, depth := 4, w := 8, rp := 2, step := 0x02, overlap := 8 }
  | 0x03 => some { half := 2, history := 1, rp := 2, overlap := 8 }
  | 0x04 => some { half := 4, lp := 1, history := 1, depth := 4, w := 8, rp := 2, step := 0x04, overlap := 8 }
  | 0x05 => some { half := 8, lp := 2, history := 3, depth := 5, w := 32, rp := 3, step := 0x04, overlap := 16 }
  | 0x10 => some { depth := 0 }
  | _ => none

/-- The profile of a base code in the profile store: a loaded pack's row first (R378, Table 10-8). -/
def Dev.profileOf (d : Dev) (base : Nat) : Option Profile :=
  let pk := d.start.pack
  match (List.range (if pk.isEmpty then 0 else fieldAt pk 6 1)).find? fun i => fieldAt pk (32 + 16 * i) 1 == base with
  | some i =>
    let v := fieldAt pk (32 + 16 * i) 4
    some { half := bits v 15 8, lp := bits v 19 16, history := bits v 23 20, depth := bits v 27 24, rp := bits v 31 28,
           w := fieldAt pk (36 + 16 * i) 2, step := fieldAt pk (39 + 16 * i) 1
           overlap := fieldAt pk (38 + 16 * i) 1 }
  | none => romProfile base

/-- The colour bit of a profile code. -/
def colourOf (profile : Nat) : Bool := bitOf profile 8
/-- PX_FRC_BLEND or PX_FRC_MC. -/
def isFrc (profile : Nat) : Bool := baseOf profile == 4 || baseOf profile == 5

/-- The unit of a conversion is the field (Table 10-3). -/
def fieldUnit (profile fmtIn fmtOut : Nat) : Bool :=
  fmtInter fmtIn &&
    match baseOf profile with
    | 0x02 => rateNum (fmtRate fmtOut) * rateDen (fmtRate fmtIn) == 2 * rateNum (fmtRate fmtIn) * rateDen (fmtRate fmtOut)
    | b => decide (b = 4 ∨ b = 5 ∨ 0x80 ≤ b)

/-- Rates compared: `a` times `x` equals rate of `y`. -/
def rateTimes (k x y : Nat) : Bool :=
  k * rateNum (fmtRate x) * rateDen (fmtRate y) == rateNum (fmtRate y) * rateDen (fmtRate x)

/-- The formats a profile accepts (Table 10-3). -/
def formatsOk (profile fmtIn fmtOut : Nat) : Bool :=
  fmtOk fmtIn && fmtOk fmtOut &&
    match baseOf profile with
    | 0x00 => fmtIn == fmtOut
    | 0x01 => fmtInter fmtIn == fmtInter fmtOut && rateTimes 1 fmtIn fmtOut
    | 0x02 => fmtInter fmtIn && !fmtInter fmtOut && (rateTimes 1 fmtIn fmtOut || rateTimes 2 fmtIn fmtOut)
    | 0x03 => !fmtInter fmtIn && fmtInter fmtOut && (rateTimes 1 fmtIn fmtOut || rateTimes 2 fmtOut fmtIn)
    | _ => true

/-- Cost in half units (R349); PX_ASRC's is its share of a shared half unit. -/
def Dev.costOf (d : Dev) (profile fmtIn fmtOut : Nat) : Nat :=
  if baseOf profile = pxAsrc then 0
  else (((d.profileOf (baseOf profile)).getD {}).half + b2n (colourOf profile)) * Nat.max (fmtG fmtIn) (fmtG fmtOut)

/-! ### Pages (R331, R351) -/

/-- Active lines of a frame. -/
def fmtActiveCount (c : Nat) : Nat := if c = 1 then 487 else if c = 2 then 576 else if c < 0x20 then 720 else 1080

/-- An ANC budget; 0 acts as 16 (Table 9-2). -/
def ancKib (k : Nat) : Nat := if k = 0 then 16 else k

/-- V of R331. -/
def videoPages (c : Nat) : Nat := ceilDiv (fmtActiveCount c * fmtWords c * 4) 8192
/-- A of R331. -/
def audioTimes (c : Nat) : Nat := ceilDiv (48000 * rateDen (fmtRate c)) (rateNum (fmtRate c))
/-- S of R331. -/
def sidePages (c anc : Nat) : Nat := ceilDiv (64 * audioTimes c + 1024 * ancKib anc) 8192
/-- Pages of one frame buffer, the slot group whole. -/
def framePages (c anc : Nat) : Nat := fmtG c * (videoPages c + sidePages c anc)

/-- ceil(spread / P), the spread in ns (R334, R351). -/
def spreadFrames (c : Nat) (spread : Int) : Nat :=
  ceilDiv (spread.toNat * rateNum (fmtRate c)) (rateDen (fmtRate c) * 1000000000)

/-- Need of a frame-sync channel (R331). -/
def syncNeed (c anc depth : Nat) : Nat := depth * framePages c anc

/-- Need of a conversion channel (R351); of PX_ASRC 16 pages (R394). -/
def Dev.convNeed (d : Dev) (profile fmtIn fmtOut anc : Nat) (spread : Int) : Nat :=
  if baseOf profile = pxAsrc then 16
  else
    let p := (d.profileOf (baseOf profile)).getD {}
    p.depth * framePages fmtIn anc + (3 + spreadFrames fmtOut spread) * framePages fmtOut anc
      + p.w * Nat.max (fmtG fmtIn) (fmtG fmtOut)

/-! ### Tokens (R322, R352) -/

/-- Token demand of a frame-sync channel that `m` outputs scan (R322). -/
def syncTokens (c anc m : Nat) : Nat :=
  ceilDiv (8 * (8192 * framePages c anc) * rateNum (fmtRate c) * (1 + m)) (rateDen (fmtRate c) * 100000000)

/-- Token demand of a conversion channel that `m` outputs scan (R352); of PX_ASRC 1 (R394). -/
def Dev.convTokens (d : Dev) (profile fmtIn fmtOut anc m : Nat) : Nat :=
  if baseOf profile = pxAsrc then 1
  else
    let p := (d.profileOf (baseOf profile)).getD {}
    let fin := 8192 * framePages fmtIn anc
    let fout := 8192 * framePages fmtOut anc
    let x := 2 * 8192 * p.w * Nat.max (fmtG fmtIn) (fmtG fmtOut)
    let (n1, d1, n2, d2) := (rateNum (fmtRate fmtIn), rateDen (fmtRate fmtIn), rateNum (fmtRate fmtOut), rateDen (fmtRate fmtOut))
    ceilDiv (8 * (fin * n1 * d2 + (p.rp * fin + (1 + m) * fout + x) * n2 * d1)) (d1 * d2 * 100000000)

/-! ### Owners -/

/-- An id of a conversion channel. -/
def isConv (id : Nat) : Bool := cctType id == 3
/-- An id of a frame-sync channel. -/
def isSync (id : Nat) : Bool := cctType id == 1
/-- An id of an overlay set. -/
def isSet (id : Nat) : Bool := cctType id == 4

/-- The channel or set is open on the plane. -/
def Dev.isOpen (d : Dev) (p : Plane) (id : Nat) : Bool := (d.owner p id).isOpen

/-- A plane computes an output: both for a mirrored output, the named one for a single-plane output (R25, R26). -/
def Dev.computes (d : Dev) (o : Nat) (p : Plane) : Bool :=
  match (d.out o).mode with
  | 0 => true
  | 1 => p == .a
  | _ => p == .b

/-- Outputs of a plane whose route scans a channel. -/
def Dev.scanners (d : Dev) (p : Plane) (id : Nat) : List Nat :=
  (d.outs.filter fun x => (x.2.pl.pl p).active.kind == 3 && (x.2.pl.pl p).active.chan == id && d.computes x.1 p).map (·.1)

/-- Slots of a channel's source group. -/
def Owner.covers (o : Owner) (id i : Nat) (sync : Bool) : Bool :=
  let first := if sync then id else o.src
  decide (first ≤ i ∧ i < first + fmtG o.fmtIn)

/-- The open frame-sync channel of a slot (Table 11-3). -/
def Dev.syncOf (d : Dev) (p : Plane) (i : Nat) : Option Nat :=
  [i, i - 1, i - 2, i - 3].find? fun id => decide (id < 1152) && d.isOpen p id && (d.owner p id).covers id i true

/-- The path of a destination's source (Table 11-3, R389), on the routes and channels now in force. -/
def Dev.pathOf (d : Dev) (p : Plane) (out src : Nat) : APath :=
  if 18432 ≤ src ∧ src ≤ 19967 then
    let k := (src - 18432) / 16
    let id := 2304 + 96 * p.id + k
    if d.isOpen p id && baseOf (d.owner p id).profile == pxAsrc then .asrc k else .silent
  else if 18432 ≤ src then .silent
  else
    let i := src / 16
    let r := (d.op (d.headOf out) p).active
    if r.kind == 3 && d.isOpen p r.chan && (d.owner p r.chan).covers r.chan i (isSync r.chan) then .chan r.chan
    else match d.syncOf p i with
      | some id => .frame id
      | none => .line

/-- The destinations of a plane with their entries. -/
def Dev.dest (d : Dev) (p : Plane) (a : Nat) : Dest := Tbl.get {} (d.plane p).dests a

/-- With a destination changed. -/
def Dev.modDest (d : Dev) (p : Plane) (a : Nat) (f : Dest → Dest) : Dev :=
  d.modPlane p fun x => { x with dests := Tbl.mod {} x.dests a f }

/-- Outputs that read a frame-sync channel for audio alone: a destination on its frame path, and a video route that
does not scan it (R393). -/
def Dev.audioReaders (d : Dev) (p : Plane) (id : Nat) : List Nat :=
  ((d.plane p).dests.foldl (fun l x =>
    if d.pathOf p (x.1 / 16) x.2.now.entry.src == .frame id then setInsert (x.1 / 16) l else l) []).filter fun o =>
      let r := (d.op (d.headOf o) p).active
      d.computes (d.headOf o) p && !(r.kind == 3 && r.chan == id)

/-- Audio reader contexts in use on a plane (R393). -/
def Dev.audioContexts (d : Dev) (p : Plane) : Nat :=
  (d.plane p).owners.foldl (fun n x => if isSync x.1 && x.2.isOpen then n + (d.audioReaders p x.1).length else n) 0

/-- The largest difference between the offsets of a channel's readers (R334). -/
def Dev.spread (d : Dev) (p : Plane) (id : Nat) : Int :=
  let offs := (d.scanners p id ++ d.audioReaders p id).map fun o => (d.out (d.headOf o)).off
  match offs with
  | [] => 0
  | z :: zs => zs.foldl max z - zs.foldl min z

/-- ANC budget of a channel's entry. -/
def Owner.anc (o : Owner) (id : Nat) : Nat := if isSync id then C.anc.of o.cct else C.ancConv.of o.cct

/-- Token demand of an open channel on the routes now in force (R322, R352, R393). -/
def Dev.demand (d : Dev) (p : Plane) (id : Nat) : Nat :=
  let o := d.owner p id
  let m := (d.scanners p id).length
  if isSync id then syncTokens o.fmtIn (o.anc id) m + (d.audioReaders p id).length
  else if isConv id then d.convTokens o.profile o.fmtIn o.fmtOut (o.anc id) m
  else 0

/-- Pages a channel's present layout requires. -/
def Dev.needNow (d : Dev) (p : Plane) (id : Nat) : Nat :=
  let o := d.owner p id
  if isSync id then o.need else if isConv id then d.convNeed o.profile o.fmtIn o.fmtOut (o.anc id) (d.spread p id) else o.need

/-! ### Engines (R344-R346, R375, R376) -/

/-- Local engine i of a plane. -/
def Dev.engine (d : Dev) (p : Plane) (i : Nat) : Engine := Tbl.get {} (d.plane p).engines i

/-- With a local engine changed. -/
def Dev.modEngine (d : Dev) (p : Plane) (i : Nat) (f : Engine → Engine) : Dev :=
  d.modPlane p fun x => { x with engines := Tbl.mod {} x.engines i f }

/-- GE_ENG_DIS removes the engine from the pool (R376). -/
def Dev.engRemoved (d : Dev) (p : Plane) (i : Nat) : Bool :=
  if i < 32 then d.bitAt F.GE_ENG_DIS_LO_dis i p.id else d.bitAt F.GE_ENG_DIS_HI_dis (i - 32) p.id

/-- The engine is idle and may be allocated (R346). -/
def Dev.engIdle (d : Dev) (p : Plane) (i : Nat) : Bool :=
  let e := d.engine p i
  e.state == 0 && e.loads.isEmpty && !d.engRemoved p i

/-- Half units of an engine's half loads: two PX_ASRC channels share one (R345). -/
def Dev.halfLoads (d : Dev) (p : Plane) (i : Nat) : Nat × Nat :=
  (d.engine p i).loads.foldl (fun n id =>
    let o := d.owner p id
    if o.half != some i then n else if baseOf o.profile == pxAsrc then (n.1, n.2 + 1) else (n.1 + 1, n.2)) (0, 0)

/-- The engine carries exactly one half load (R346). -/
def Dev.engHalf (d : Dev) (p : Plane) (i : Nat) : Bool :=
  let (h, a) := d.halfLoads p i
  let e := d.engine p i
  h + (a + 1) / 2 == 1 && e.loads.length == h + a && e.state == 1 && !d.engRemoved p i

/-- The engine's shared half unit carries exactly one PX_ASRC channel (R346). -/
def Dev.engShared (d : Dev) (p : Plane) (i : Nat) : Bool := (d.halfLoads p i).2 % 2 == 1 && (d.engine p i).state == 1

/-- A channel put on an engine. -/
def Dev.load (d : Dev) (p : Plane) (i id : Nat) : Dev :=
  d.modEngine p i fun e => { e with state := 1, loads := e.loads ++ [id] }

/-- The engines of a channel of cost `c` allocated (R346); none where the plane has too few. Each start joins the
queue of starts (R354). -/
def Dev.allocEngines (d : Dev) (p : Plane) (id c : Nat) (asrc : Bool) : Option Dev :=
  let locals := List.range 48
  let start (d : Dev) (is : List Nat) : Dev := { d with startQ := d.startQ ++ is.map fun i => (id, p, i) }
  let halfEng := (locals.find? fun i => d.engHalf p i).orElse fun _ => locals.find? fun i => d.engIdle p i
  if asrc then
    match (locals.find? fun i => d.engShared p i).orElse fun _ => halfEng with
    | some i => some (start ((d.load p i id).modOwner p id fun o => { o with engines := [], half := some i, cost := 0 }) [i])
    | none => none
  else
    let whole := (locals.filter fun i => d.engIdle p i).take (c / 2)
    if whole.length < c / 2 then none
    else
      let d1 := d.each whole fun d i => d.load p i id
      if c % 2 = 0 then some (start (d1.modOwner p id fun o => { o with engines := whole, half := none, cost := c }) whole)
      else
        match (locals.find? fun i => d1.engHalf p i).orElse fun _ => locals.find? fun i => d1.engIdle p i with
        | some i => some (start ((d1.load p i id).modOwner p id fun o => { o with engines := whole, half := some i, cost := c }) (whole ++ [i]))
        | none => none

/-- The loads of an engine as Table 10-11 shows them: the first, a second half load, and the second PX_ASRC channel of
a shared half unit. -/
def Dev.engLoads (d : Dev) (p : Plane) (i : Nat) : Nat × Nat × Nat :=
  let split := (d.engine p i).loads.foldl (fun (x : List Nat × List Nat × Nat) id =>
    if baseOf (d.owner p id).profile != pxAsrc then (x.1 ++ [id], x.2.1, x.2.2)
    else if x.2.2 % 2 = 0 then (x.1 ++ [id], x.2.1, x.2.2 + 1) else (x.1, x.2.1 ++ [id], x.2.2 + 1)) ([], [], 0)
  (split.1.getD 0 0, split.1.getD 1 0, split.2.1.getD 0 0)

/-- An engine runs once the start of some load of it has been served (R354). -/
def Dev.engState (d : Dev) (p : Plane) (i : Nat) : Nat :=
  let e := d.engine p i
  if e.state = 1 ∧ e.loads.all (fun id => d.startQ.contains (id, p, i)) = true then 0 else e.state

/-- GE_ENG_STATE of an engine updated (R380). -/
def Dev.pubEngine (d : Dev) (p : Plane) (i : Nat) : Dev :=
  let (a, b, _) := d.engLoads p i
  let w := d.engState p i + 4 * b2n ((d.engine p i).loads.any fun id => (d.owner p id).stepped) + 8 * a + 32768 * b
  d.modEngine p i fun e => { e with pub := BitVec.ofNat 32 w }

/-- An engine loses a load: idle when it was the last, and out of the pool where GE_ENG_DIS removes it (R376). -/
def Dev.unload (d : Dev) (p : Plane) (i id : Nat) : Dev :=
  let d := d.modEngine p i fun e =>
    let ls := e.loads.filter (· != id)
    { e with loads := ls, state := if ls.isEmpty && e.state == 1 then 0 else e.state }
  let d := d.pubEngine p i
  if d.engRemoved p i && (d.engine p i).loads.isEmpty && (d.engine p i).state == 0 then
    d.wr F.GE_STATUS_half_free (d.rd F.GE_STATUS_half_free p.id - 2) p.id
  else d

/-- Half units a channel gives back when it leaves its engines: a shared half unit only with its last channel (R349). -/
def Dev.unitsOf (d : Dev) (p : Plane) (id : Nat) : Nat :=
  let o := d.owner p id
  match o.half with
  | some i => if baseOf o.profile = pxAsrc then b2n ((d.halfLoads p i).2 % 2 == 1) else o.cost
  | none => o.cost

/-- A channel leaves its engines; its half units return to the pool less what `kept` passes on. -/
def Dev.stopEngines (d : Dev) (p : Plane) (id : Nat) (kept : Nat := 0) : Dev :=
  let o := d.owner p id
  let n := d.unitsOf p id - kept
  let d := d.wr F.GE_STATUS_half_free (d.rd F.GE_STATUS_half_free p.id + n) p.id
  let d := d.each (o.engines ++ o.half.toList) fun d i => d.unload p i id
  let d := { d with startQ := d.startQ.filter fun x => !(x.1 == id && x.2.1 == p) }
  d.modOwner p id fun o => { o with engines := [], half := none }

/-! ### Opening, closing, aborts -/

/-- A closed channel's resources return, less what the closing salvo passed on (R326, R355). -/
def Dev.returnOwner (d : Dev) (p : Plane) (id : Nat) : Dev :=
  let o := d.owner p id
  let d := if isConv id then d.stopEngines p id o.credit.units else d
  let back : Amount := ⟨o.owned + o.reserved - o.credit.pages, o.tokens - o.credit.tokens, 0⟩
  let d := d.giveBack p back (b2n o.ctx)
  d.modPlane p fun x => { x with owners := Tbl.set {} x.owners id {} }

/-- A channel or set opens on a plane as an allocation describes it (R321, R353): its engines start, its frames are
empty. A conversion channel takes the hold_frames in force of its source's entry (R313, R359). -/
def Dev.openOwner (d : Dev) (a : Alloc) : Dev :=
  let d := d.when (d.owner a.plane a.id).closing fun d => d.returnOwner a.plane a.id
  let hold := if isConv a.id then ((d.inp a.owner.src).cct.getD 7 0#8).toNat else 0
  let d := d.modOwner a.plane a.id fun _ =>
    { a.owner with isOpen := true, startDue := isConv a.id, openAt := d.epoch, hold := hold, opened := a.owner.cct
                   pub := if isSync a.id then BitVec.ofNat 32 (1 + 2 * a.owner.depth) else 0#32 }
  if isConv a.id then
    (d.allocEngines a.plane a.id a.owner.cost (baseOf a.owner.profile == pxAsrc)).getD
      (d.modOwner a.plane a.id fun o => { o with aborted := true, waiting := true })
  else d

/-- A channel opens on the pool alone, as a returning plane and the restore open it; where the pool is short it stays
closed and CHANNEL_UNHELD is raised (R329, R525, R526). -/
def Dev.openFromPool (d : Dev) (a : Alloc) : Dev :=
  let p := a.plane
  let asrc := baseOf a.owner.profile == pxAsrc
  let units := if !isConv a.id then 0
    else if asrc then b2n (!(List.range 48).any fun i => d.engShared p i) else a.owner.cost
  let want : Amount := ⟨a.owner.owned + a.owner.reserved, a.owner.tokens, units⟩
  let ctx := b2n (isConv a.id)
  let free := d.rd F.GE_STATUS_ctx_free p.id
  if want.short (d.pool p) = 0 ∧ ctx ≤ free then
    ((d.setPool p ((d.pool p).sub want)).wr F.GE_STATUS_ctx_free (free - ctx) p.id).openOwner a
  else d.occur (evPl p) 0x52 a.id

/-- A Hamper abort (R328) or engine abort (R373) of an open channel, from channel frame `j`: its frames are discarded
until it is re-established, and its half units return. -/
def Dev.abortOwner (d : Dev) (p : Plane) (id : Nat) (engine : Bool) (j : Nat) : Dev :=
  if !d.isOpen p id || (d.owner p id).aborted then d
  else
    let d := if isConv id then d.stopEngines p id else d
    let d := d.modOwner p id fun o =>
      { o with aborted := true, bufs := [], writing := none, newest := none, anchor := none
               frames := o.frames.map fun f => if j ≤ f.j then { f with state := .aborted } else f, aborts := satAdd 16 o.aborts 1 }
    let d := d.bump F.GE_CNT_aborts p.id
    if engine then d
    else (d.modPlane p fun x => { x with hamAborts := satAdd 32 x.hamAborts 1 }).occur (evHam p) 0x5A id

end Sys2Proof.Machine
end

