-- ==== Sys2Proof/Machine/Takes.lean ====
section
/-! DEFINITION. What the entries of a salvo change: routes, plane modes, Audio Map entries, rasters, overlays and
owners; the state a salvo leaves (R191, R216, R245, R270, R327, R385, R389). -/

namespace Sys2Proof.Machine

/-- The planes in service (R568). -/
def Dev.planesUp (d : Dev) : List Plane := [Plane.a, Plane.b].filter d.inService

/-- The planes in service that compute an output. -/
def Dev.planesOf (d : Dev) (o : Nat) : List Plane := d.planesUp.filter fun p => d.computes o p

/-- The planes of a mask that are in service. -/
def Dev.masked (d : Dev) (m : Nat) : List Plane := (maskPlanes m).filter d.inService

/-! ### TAKE_VIDEO -/

/-- The plane mode a TAKE_VIDEO leaves (Table 7-6). -/
def newMode (old : Nat) (b : List Byte) : Nat := if D.mode.of b = 0 then old else D.mode.of b - 1

/-- The route a TAKE_VIDEO gives a plane under a plane mode (R270): plane B of a mirrored output scans the mirror
channel. -/
def routeFor (mode : Nat) (p : Plane) (b : List Byte) : Route :=
  let chan := D.chan.of b
  { kind := D.kind.of b, src := D.src.of b
    chan := if D.kind.of b = 3 ∧ mode = 0 ∧ p = .b ∧ isConv chan then chan + 96 else chan }

/-- The route read from an output's entry where the two planes' tables agree: kind 0 for an output of no route. -/
def Dev.unrouted (d : Dev) (o : Nat) : Bool := [Plane.a, Plane.b].all fun p => (d.op o p).active.kind == 0

/-- Plane mode, preferred plane and serving plane after a TAKE_VIDEO (R29-R31, R229, R230). -/
def Dev.landMode (d : Dev) (o : Nat) (b : List Byte) (fromUnrouted : Bool) : Dev :=
  let x := d.out o
  let m := newMode x.mode b
  let pref := if D.prefSet.on b then Plane.ofId (D.preferred.of b) else x.preferred
  let serving := if m = 1 then .a else if m = 2 then .b
    else if x.mode = 1 then .a else if x.mode = 2 then .b else if fromUnrouted then pref else x.serving
  let d := d.modOut o fun x => { x with mode := m, preferred := pref, serving := serving
                                        moveTo := m == 0 && (x.moveTo || D.prefSet.on b && pref != x.preferred) && serving != pref }
  let d := d.when (m != x.mode || pref != x.preferred) fun d =>
    (d.noteJournal 1 o).modOut o fun x => { x with wtrRun := 0, wtrOk := false }
  if m = 0 ∧ x.mode ≠ 0 then
    let added := if x.mode = 1 then Plane.b else .a
    d.modOp o added fun y => { y with eqv := false, eqFrom := none, eqStart := none }
  else d

/-- The route of a TAKE_VIDEO lands on a plane (R198); `sw`: on a switch line, which the plane that computes the output
marks (R200, R201). -/
def Dev.landRoute (d : Dev) (o : Nat) (p : Plane) (r : Route) (sw : Bool) : Dev :=
  if (d.op o p).active == r then d.modOp o p fun x => { x with pend := none }
  else
    let ms := group o (Nat.max 1 (fmtG (d.out o).fmt))
    let d := (d.noteRouted ms).modOp o p fun x => { x with active := r, pend := none, under := false, reader := {} }
    let marks := sw && r.kind != 0 && d.computes o p
    (d.noteJournal 1 o).each ms fun d m => d.modOp m p fun x => { x with swNext := x.swNext || marks }

/-- A TAKE_VIDEO lands on the given planes, not on a switch line. -/
def Dev.landVideo (d : Dev) (b : List Byte) (planes : List Plane) : Dev :=
  let o := D.out.of b
  let d := d.landMode o b (d.unrouted o && D.kind.of b != 0)
  let m := (d.out o).mode
  d.each planes fun d p => d.landRoute o p (routeFor m p b) false

/-! ### TAKE_AUDIO (R385, R389, R396-R398, R400) -/

/-- Entry j of a TAKE_AUDIO. -/
def aEntry (b : List Byte) (j : Nat) : AEntry :=
  { src := (D.aSrc j).of b, mute := (D.aMute j).on b, invert := (D.aInvert j).on b, gain := (D.aGain j).of b
    xfade := (D.aXfade j).of b }

/-- The entries of a TAKE_AUDIO with their destinations. -/
def aEntries (b : List Byte) : List (Nat × AEntry) :=
  (List.range (min 6 (D.aCount.of b))).map fun j => ((D.aDst j).of b, aEntry b j)

/-- The source is classified DATA now (R384, R399). -/
def Dev.isData (d : Dev) (src : Nat) : Bool :=
  decide (src < 18432) && (Tbl.get {} (d.inp (src / 16)).aud (src % 16)).class' == 2

/-- The path shift of a contribution on a path: that which the output's reader of the channel has given its destinations on
that path, none before it first selects (R392). -/
def Dev.deltaOn (d : Dev) (p : Plane) (a : Nat) (path : APath) : Option Int :=
  ((d.plane p).dests.find? fun x => x.1 / 16 == a / 16 && x.2.now.path == path && x.2.now.delta.isSome).bind fun x => x.2.now.delta

/-- A destination takes a contribution at sample slot `ksw`: a crossfade over `n` samples, or a cut (R396, R397); the class at
`ksw` has its say there (R398). A change of xfade alone has no audible effect (R397). What was in force before is kept for slots before `ksw`. -/
def Dev.landContrib (d : Dev) (p : Plane) (a : Nat) (c : Contrib) (n : Nat) (ksw : Int) : Dev :=
  let x := d.dest p a
  let same := { x.now.entry with xfade := c.entry.xfade } == c.entry && x.now.path == c.path
  let d := d.when (x.now.entry != c.entry) fun d => d.noteJournal 2 (a / 4)
  if same then d.modDest p a fun x => { x with now := { x.now with entry := c.entry } }
  else
    d.modDest p a fun x =>
      { now := c, old := some x.now, ksw := ksw, len := n, begin := d.epoch
        prior := some (x.now, x.old, x.ksw, x.len), block := x.block }

/-- The path that a salvo gives a destination on a plane: as judged at its latch point, or as it now is (R389). -/
def Dev.givenPath (d : Dev) (paths : List (Nat × Nat × APath)) (p : Plane) (a src : Nat) : APath :=
  ((paths.find? fun x => x.1 == a && x.2.1 == p.id).map (·.2.2)).getD (d.pathOf p (a / 16) src)

/-- A TAKE_AUDIO lands on the given planes at sample slot `ksw`; `cut`: with no crossfade (R400). -/
def Dev.landAudio (d : Dev) (paths : List (Nat × Nat × APath)) (es : List (Nat × AEntry)) (planes : List Plane) (ksw : Int)
    (cut : Bool) : Dev :=
  d.each es fun d e => d.each planes fun d p =>
    let path := d.givenPath paths p e.1 e.2.src
    d.landContrib p e.1 { entry := e.2, path := path, delta := d.deltaOn p e.1 path } (if cut then 0 else e.2.xfade) ksw

/-- Path changes of an output's destinations where its route has changed (R389, R396). -/
def Dev.repath (d : Dev) (p : Plane) (o : Nat) (ksw : Int) : Dev :=
  d.each (((d.plane p).dests.filter fun x => d.headOf (x.1 / 16) == o).map (·.1)) fun d a =>
    let x := d.dest p a
    let path := d.pathOf p o x.now.entry.src
    if path == x.now.path then d else d.landContrib p a { x.now with path := path, delta := d.deltaOn p a path } x.now.entry.xfade ksw

/-! ### TAKE_FORMAT (R216) -/

/-- The raster a TAKE_FORMAT gives; none with declass. -/
def rasterOf (b : List Byte) : Option Raster :=
  if fmtDeclass b then none else some { cls := fmtCls b, fmt := D.fmt.of b, off := toInt 32 (D.offset.of b) }

/-! ### TAKE_OVERLAY (R245, R566) -/

/-- The overlay state a TAKE_OVERLAY gives; disabled, it keeps no field. -/
def overlayOf (b : List Byte) : Overlay :=
  if D.enable.on b then
    { enable := true, bpp := D.bpp.of b, set := D.set.of b, ps := D.ps.of b, x0 := D.x0.of b, y0 := D.y0.of b
      width := D.width.of b, height := D.height.of b, stride := D.stride.of b, addr := D.addr.of b }
  else {}

/-! ### CONV_CLOSE (Table 7-10) -/

/-- The planes and ids a CONV_CLOSE closes: for a conversion pair, bit 0 closes chan and bit 1 chan + 96. -/
def closings (b : List Byte) : List (Plane × Nat) :=
  let c := D.cChan.of b
  (maskPlanes (D.cPlanes.of b)).map fun p => (p, if decide (2304 ≤ c ∧ c < 2400) && p == .b then c + 96 else c)

/-! ### The state a salvo leaves -/

/-- What an entry leaves, on both planes' tables: the projection that later entries and later salvos are validated on
(R270, R325, R327). `allocs` are the openings the salvo has been given so far. -/
def Dev.project (d : Dev) (allocs : List Alloc) (k : Nat) (b : List Byte) : Dev :=
  match descOp b with
  | 0x10 => d.landVideo b [.a, .b]
  | 0x11 => d.each (aEntries b) fun d e => d.each [Plane.a, Plane.b] fun d p =>
      d.modDest p e.1 fun x => { x with now := { x.now with entry := e.2 } }
  | 0x12 => d.modOut (D.out.of b) fun x => { x with raster := rasterOf b }
  | 0x13 =>
    if D.palOnly.on b then d
    else d.each [Plane.a, Plane.b] fun d p => d.modOp (D.out.of b) p fun x => { x with ovl := overlayOf b }
  | 0x15 => d.each (closings b) fun d c => d.modOwner c.1 c.2 fun o => { o with isOpen := false }
  | _ => d.each (allocs.filter fun a => a.entry == k) fun d a => d.modOwner a.plane a.id fun _ => { a.owner with isOpen := true }

/-- Items inserted in delivery order. -/
def insertItem (it : Item) : List Item → List Item
  | [] => [it]
  | x :: r => if it.seq < x.seq then it :: x :: r else x :: insertItem it r

/-- Salvos that have been secured or latched and have not wholly applied, delivered before `seq`, in delivery order. -/
def Dev.salvosBefore (d : Dev) (seq : Nat) : List Item :=
  d.svr.foldl (fun l x => x.2.items.foldl (fun l it =>
    if it.isSalvo && (it.phase == .secured || it.phase == .latched) && decide (it.seq < seq) then insertItem it l else l) l) []

/-- The state that the salvos delivered before `seq` leave. -/
def Dev.base (d : Dev) (seq : Nat) : Dev :=
  d.each (d.salvosBefore seq) fun d it =>
    d.each it.numbered fun d e => if it.landed.contains e.1 then d else d.project it.allocs e.1 e.2

end Sys2Proof.Machine
end

