-- ==== Sys2Proof/Machine/Validate.lean ====
section
/-! DEFINITION. Validation and securing of items (R264-R272, R292, R293, R309-R316, R321-R327, R349-R353, R388):
content checks on the state a salvo leaves, CCT entries, and the running totals of R325. -/

namespace Sys2Proof.Machine

/-! ### Statuses of Table 7-18 -/

abbrev stFetch : Nat := 0x10
abbrev stCrc : Nat := 0x11
abbrev stInvalid : Nat := 0x12
abbrev stHostErr : Nat := 0x1B
abbrev stOpcode : Nat := 0x13
abbrev stAuth : Nat := 0x14

/-- INVALID unless the condition holds. -/
def need (b : Bool) : Nat := if b then 0 else stInvalid

/-- The first status that is not 0. -/
def firstBad (xs : List Nat) : Nat := (xs.find? (· != 0)).getD 0

/-! ### Descriptors (R264, R265, R561, R269, R514) -/

/-- The descriptor's own status where it stands: CRC, opcode, then form. -/
def descStatus (b : List Byte) (allowed : Nat → Bool) : Nat :=
  if !descCrcOk b then stCrc else if !allowed (descOp b) then stOpcode else need (descFormOk b)

/-- Message of Table 16-8. -/
def tagMessage (port : Port) (ring gen pos : Nat) (it : Item) : List Byte :=
  le 1 port.id ++ le 1 ring ++ zeros 2 ++ le 4 gen ++ le 8 pos
    ++ ((it.descs.take (D.count.of it.head + 1)).map fun x => x.take 60).flatten ++ it.authBytes.take 8

/-- The AUTH tag and key_gen verify under the ring's key; none: the ring has no key (R513, R514). -/
def Dev.authVerifies (d : Dev) (p : Port) (r : Nat) (it : Item) : Option Bool :=
  let x := d.ring p r
  match x.key with
  | none => none
  | some (gen, key) =>
    let pos := (x.pos + (idxDiff (d.svrCi p r) it.idx : Nat)).toNat
    some (D.keyGen.of it.authBytes == gen
      && D.mac.of it.authBytes == ofLe ((hmac256 key (tagMessage p r gen pos it)).take 16))

/-- What a check found: status, failing entry, and whether the failing descriptor is the AUTH descriptor. -/
abbrev Verdict := Nat × Nat × Bool

/-- Nothing wrong. -/
abbrev allGood : Verdict := (0, 0, false)

/-- Every descriptor of a salvo, in order (R292). -/
def descVerdict (it : Item) : Verdict :=
  let heads := descStatus it.head headOp
  if heads ≠ 0 then (heads, 0, false)
  else
    match it.numbered.find? fun e => descStatus e.2 entryOp != 0 with
    | some e => (descStatus e.2 entryOp, e.1, false)
    | none =>
      if it.auth then
        let a := descStatus it.authBytes fun op => op == 0x7F
        (a, 0, a != 0)
      else allGood

/-- Authentication of a salvo (R269, R513, R514). -/
def Dev.authVerdict (d : Dev) (p : Port) (r : Nat) (it : Item) : Verdict :=
  if it.auth then
    match d.authVerifies p r it with
    | none => (stAuth, 0, false)
    | some true => allGood
    | some false => (stAuth, 0, true)
  else if d.flag F.HIF_SVR_CFG_auth_req (svrI p r) then (stAuth, 0, false) else allGood

/-- The checks on the salvo as a whole, before its entries' content (R269). -/
def Dev.headVerdict (d : Dev) (p : Port) (r : Nat) (it : Item) : Verdict :=
  let v := descVerdict it
  if v.1 ≠ 0 then v
  else
    let a := d.authVerdict p r it
    if a.1 ≠ 0 then a
    else if !d.clsOn it.cls || (!it.asap && decide (it.arrFrame + 1048576 < D.atFrame.of it.head)) then (stInvalid, 0, false)
    else allGood

/-! ### Slots (R193) -/

/-- Every member of a slot group exists. -/
def Dev.groupExists (d : Dev) (s g : Nat) : Bool := (group s g).all d.slotExists

/-- The format a source has in the monitor's last published frame; none: absent (R330, R350). -/
def Dev.sourceFmt (d : Dev) (s : Nat) : Option Nat :=
  if d.flag F.LN_MON_STATE_present s && fmtOk (d.inp s).fmt then some (d.inp s).fmt else none

/-- Picture of a format, samples by lines (R246). -/
def fmtPicture (c : Nat) : Nat × Nat :=
  if c < 0x10 then (720, fmtActiveCount c) else if c < 0x20 then (1280, 720) else if fmt2160 c then (3840, 2160) else (1920, 1080)

/-! ### CCT entries (R309-R316) -/

/-- Ids that a CCT_SYNC names. -/
def syncIds (b : List Byte) : List Nat := span (D.first.of b) (D.entries.of b)

/-- The id stands in one of the CCT_SYNC entries. -/
def namedBy (es : List (List Byte)) (id : Nat) : Bool :=
  es.any fun b => descOp b == 0x20 && decide (D.first.of b ≤ id ∧ id < D.first.of b + D.entries.of b)

/-- The control-side Coolbox's copy of an entry. -/
def Dev.cached (d : Dev) (id : Nat) : Option (List Byte) :=
  if d.coolCtl.contains id then some (Tbl.get [] d.cctData id) else none

/-- Contents read for an item. -/
def Item.cctOf (it : Item) (id : Nat) : Option (List Byte) := (it.ccts.find? fun x => x.1 == id).map (·.2)

/-- Contents of an entry for entry `k` of an item (R315, R316): those of the salvo's own earlier CCT_SYNC entries, of
earlier unlatched salvos of its ring, of the Coolbox, or read on a miss; none: a read is needed. -/
def Dev.cctFor (d : Dev) (p : Port) (r : Nat) (it : Item) (k id : Nat) : Option (List Byte) :=
  if namedBy (it.entries.take (k - 1)) id then it.cctOf id
  else
    match ((d.ring p r).items.filter fun x => decide (x.seq < it.seq) && x.phase == .secured && namedBy x.entries id).getLast? with
    | some x => x.cctOf id
    | none =>
      match d.cached id with
      | some b => some b
      | none => it.cctOf id

/-- The layout in which a type 3 entry is checked at a CCT_SYNC (R310). -/
def Dev.layoutOf (d : Dev) (id : Nat) : Nat :=
  match [Plane.a, Plane.b].find? fun p => d.isOpen p id with
  | some p => if baseOf (d.owner p id).profile = pxAsrc then 2 else 1
  | none => 0

/-- The crop window lies inside the picture, pass_count and delay are in range (R366, Table 10-4, Table 11-4). -/
def paramsOk (asrc : Bool) (fmtIn : Nat) (c : List Byte) : Bool :=
  if asrc then
    C.mask.of c != 0 && (C.asrcDelay.of c == 0 || decide (96 ≤ C.asrcDelay.of c ∧ C.asrcDelay.of c ≤ 4800))
  else
    let (w, h) := fmtPicture fmtIn
    let (x, y, cw, ch) := (C.cropX.of c, C.cropY.of c, C.cropW.of c, C.cropH.of c)
    decide (C.passCount.of c ≤ 64) && decide (x < w) && decide (y < h)
      && decide (x + cw ≤ w) && decide (y + ch ≤ h)

/-- The LUT rule of the colour stage (R367-R369). -/
def Dev.lutOk (d : Dev) (planes : List Plane) (profile fmtOut : Nat) (c : List Byte) : Bool :=
  !colourOf profile ||
    ((!fmtRgb fmtOut || (C.inMatrix.of c == 0 && C.outMatrix.of c == 0)) &&
      (C.lutSet.of c == 0 || (C.lutAddr.of c % 16 == 0 && planes.all fun p =>
        isSet (C.lutSet.of c) && d.isOpen p (C.lutSet.of c)
          && decide (C.lutAddr.of c + 215622 ≤ (d.owner p (C.lutSet.of c)).owned * 8192))))

/-- Status of one entry of a CCT_SYNC (R310, R366). -/
def Dev.syncStatus (d : Dev) (id : Nat) (c : List Byte) : Nat :=
  let s := cctStatus id (d.layoutOf id) c
  if s ≠ 0 then s
  else
    match [Plane.a, Plane.b].find? fun p => isConv id && d.isOpen p id with
    | none => 0
    | some p =>
      let o := d.owner p id
      let planes := [Plane.a, Plane.b].filter fun q => d.isOpen q (id + 96 * q.id - 96 * p.id)
      need (paramsOk (baseOf o.profile == pxAsrc) o.fmtIn c && d.lutOk planes o.profile o.fmtOut c)

/-! ### Openings (R321, R330, R350) -/

/-- What an opening's entry gives: a status, a CCT entry to be read, or the allocations. -/
inductive Opening where
  | bad (status : Nat)
  | miss (id : Nat)
  | allocs (l : List Alloc)

/-- The fields of an opening common to CONV_OPEN and SYNC_OPEN, checked (R321, Table 7-15). -/
def boundsOk (nd mn mx tk : Nat) : Bool := decide (nd ≤ mx) && decide (mn ≤ mx) && decide (0 < tk)

/-- A frame-sync channel as SYNC_OPEN opens it with its CCT entry `c` (R331). -/
def Dev.syncOwner (_ : Dev) (s mn mx tk fmt : Nat) (c : List Byte) : Owner :=
  let depth := if C.depth.of c = 0 then 3 else C.depth.of c
  let nd := syncNeed fmt (C.anc.of c) depth
  { fmtIn := fmt, fmtOut := fmt, src := s, cct := c, depth := depth, need := nd, owned := nd
    reserved := Nat.max mn nd - nd, minPages := mn, maxPages := mx, tokens := tk }

/-- A frame-sync channel's opening with its CCT entry `c`, on the planes in service of a mask (R330, R331). -/
def Dev.syncAllocs (d : Dev) (k s planes mn mx tk fmt : Nat) (c : List Byte) : Opening :=
  let o := d.syncOwner s mn mx tk fmt c
  let nd := o.need
  let planes := d.masked planes
  if !fmtOk fmt || decide (C.depth.of c = 1 ∨ C.depth.of c = 2) || !d.groupExists s (fmtG fmt)
      || !boundsOk nd mn mx tk || planes.any (fun q => d.isOpen q s) then .bad stInvalid
  else
    .allocs (planes.map fun q =>
      { plane := q, id := s, entry := k, amount := ⟨Nat.max mn nd, tk, 0⟩, owner := o })

/-- The format a frame-sync channel takes by its entry (R330); 0: none. -/
def Dev.syncFmtOf (d : Dev) (s : Nat) (c : List Byte) : Nat :=
  if C.syncFmt.of c = 0 then (d.sourceFmt s).getD 0 else C.syncFmt.of c

/-- SYNC_OPEN (R330, R331). -/
def Dev.syncOpening (d : Dev) (p : Port) (r : Nat) (it : Item) (k : Nat) (b : List Byte) : Opening :=
  let s := D.sSrc.of b
  if D.cPlanes.of b = 0 ∨ !d.slotExists s then .bad stInvalid
  else
    match d.cctFor p r it k s with
    | none => .miss s
    | some c =>
      let u := cctStatus s 0 c
      if u ≠ 0 then .bad u
      else d.syncAllocs k s (D.cPlanes.of b) (D.sMin.of b) (D.sMax.of b) (D.sTokens.of b) (d.syncFmtOf s c) c

/-- A conversion channel as CONV_OPEN opens it with its CCT entry `c` (R350-R353). -/
def Dev.convOwner (d : Dev) (s pr mn mx tk : Nat) (c : List Byte) : Owner :=
  let asrc := baseOf pr == pxAsrc
  let fin := if asrc || C.inFmt.of c == 0 then (d.sourceFmt s).getD 0 else C.inFmt.of c
  let fout := if asrc then fin else C.outFmt.of c
  let nd := d.convNeed pr fin fout (C.ancConv.of c) 0
  { fmtIn := fin, fmtOut := fout, src := s, profile := pr, cct := c
    depth := ((d.profileOf (baseOf pr)).getD {}).depth, need := nd, owned := nd
    reserved := Nat.max mn nd - nd, minPages := mn, maxPages := mx, tokens := tk, ctx := true
    cost := d.costOf pr fin fout, lutDue := colourOf pr }

/-- A conversion channel's opening with its CCT entry `c` (R350-R353, R355). -/
def Dev.convAllocs (d : Dev) (k id s pr : Nat) (mirrored : Bool) (mn mx tk : Nat) (c : List Byte) : Opening :=
  let asrc := baseOf pr == pxAsrc
  let o := d.convOwner s pr mn mx tk c
  let (fin, fout, nd) := (o.fmtIn, o.fmtOut, o.need)
  let own : Plane := if id < 2400 then .a else .b
  let named := if mirrored then [(Plane.a, id), (Plane.b, id + 96)] else [(own, id)]
  let targets := named.filter fun x => d.inService x.1
  let known := (d.profileOf (baseOf pr)).isSome && decide (pr < 512) && pr != 0 && !(asrc && colourOf pr)
  if !known || !fmtOk fin || (!asrc && !formatsOk pr fin fout) || !d.groupExists s (fmtG fin)
      || !paramsOk asrc fin c || !d.lutOk (targets.map (·.1)) pr fout c || !boundsOk nd mn mx tk
      || targets.any (fun x => d.isOpen x.1 x.2) then .bad stInvalid
  else
    .allocs (targets.map fun x =>
      { plane := x.1, id := x.2, entry := k, amount := ⟨Nat.max mn nd, tk, o.cost⟩, ctx := 1, owner := { o with pair := x.2 != id } })

/-- CONV_OPEN (R350-R353, R355). -/
def Dev.convOpening (d : Dev) (p : Port) (r : Nat) (it : Item) (k : Nat) (b : List Byte) : Opening :=
  let id := D.cChan.of b
  let s := D.cSrc.of b
  let pr := D.profile.of b
  if !isConv id || (D.mirrored.on b && decide (2400 ≤ id)) || !d.slotExists s then .bad stInvalid
  else
    match d.cctFor p r it k id with
    | none => .miss id
    | some c =>
      let u := cctStatus id (if baseOf pr == pxAsrc then 2 else 1) c
      if u ≠ 0 then .bad u
      else d.convAllocs k id s pr (D.mirrored.on b) (D.cMin.of b) (D.cMax.of b) (D.cTokens.of b) c

/-! ### Takes, where they stand -/

/-- TAKE_VIDEO's own fields (R193, Table 7-6; a src or chan that its kind does not use is 0). -/
def Dev.videoStatus (d : Dev) (b : List Byte) : Nat :=
  let o := D.out.of b
  let g := Nat.max 1 (fmtG (d.out o).fmt)
  let (kind, src, chan) := (D.kind.of b, D.src.of b, D.chan.of b)
  need (d.groupExists o (if (d.out o).raster.isSome then g else 1)
    && (if kind = 2 then d.groupExists src g else src == 0) && (if kind = 3 then isSync chan || isConv chan else chan == 0))

/-- TAKE_AUDIO's own fields (R193, R388); `seen`: destinations named before in the salvo. -/
def Dev.audioStatus (d : Dev) (seen : List Nat) (b : List Byte) : Nat :=
  let es := aEntries b
  let ok (e : Nat × AEntry) : Bool :=
    decide (e.1 < 18432) && d.slotExists (e.1 / 16)
      && (decide (e.2.src < 18432) && d.slotExists (e.2.src / 16) || decide (18432 ≤ e.2.src ∧ e.2.src ≤ 19967) || e.2.src == 0x7FFF)
      && decide (e.2.gain < 0x8000) && decide (e.2.xfade ≤ 1024)
  let names := seen ++ es.map (·.1)
  need (D.aCount.of b != 7 && es.all ok && names.all fun a => names.count a == 1)

/-- TAKE_FORMAT's own fields (R193, R216); every member's lane carries the format (R140). -/
def Dev.formatStatus (d : Dev) (b : List Byte) : Nat :=
  let o := D.out.of b
  if fmtDeclass b then need (d.slotExists o)
  else need (d.groupExists o (fmtG (D.fmt.of b)) && (group o (fmtG (D.fmt.of b))).all (fun m => fmtAtRate (D.fmt.of b) (d.laneRate (m / 3))) && d.clsOn (fmtCls b) && d.fmtFits (D.fmt.of b) (fmtCls b))

/-- The bytes of an overlay row. -/
def rowBytes (v : Overlay) : Nat := ceilDiv (v.width * 2 ^ v.bpp) 8

/-- The window's rows lie within the set's pages (R338). -/
def rowsIn (v : Overlay) (bytes : Nat) : Bool :=
  v.height == 0 || v.width == 0 || decide (v.addr + (v.height - 1) * v.stride + rowBytes v ≤ bytes)

/-- TAKE_OVERLAY on the state the salvo leaves (R245, R249, R338, R566). -/
def Dev.overlayStatus (d : Dev) (b : List Byte) : Nat :=
  let o := D.out.of b
  let pal := D.palOnly.on b
  let set := D.set.of b
  let openUp := d.planesUp.filter fun p => d.isOpen p set
  let palOk (ps : List Plane) : Bool :=
    isSet set && D.palAddr.of b % 16 == 0 && ps.all fun p => d.isOpen p set && decide (D.palAddr.of b + 2048 ≤ (d.owner p set).owned * 8192)
  if pal then need (!D.load.on b || (palOk openUp && !openUp.isEmpty))
  else
    let v := overlayOf b
    let (w, h) := fmtPicture (d.out o).fmt
    need (d.groupExists o (Nat.max 1 (fmtG (d.out o).fmt)) && (!D.load.on b || palOk (d.planesOf o))
      && (!v.enable || (isSet set && v.stride % 16 == 0 && decide (rowBytes v ≤ v.stride) && v.addr % 16 == 0
        && decide (v.x0 + v.width ≤ w) && decide (v.y0 + v.height ≤ h)
        && (d.planesOf o).all fun p => d.isOpen p set && rowsIn v ((d.owner p set).owned * 8192))))

/-- CONV_CLOSE's own fields (R327, Table 7-15). -/
def Dev.closeStatus (d : Dev) (b : List Byte) : Nat :=
  need (D.cPlanes.of b != 0 && (closings b).all fun c => !d.inService c.1 || (!(cctType c.2 == 2) && d.isOpen c.1 c.2))

/-! ### A salvo's entries in order -/

/-- How far the entries have been checked: the state they leave, the first failure, CCT reads needed, openings. -/
structure Check where
  dev : Dev
  status : Nat := 0
  entry : Nat := 0
  reads : List Nat := []
  allocs : List Alloc := []
  seen : List Nat := []

/-- One entry checked on the state left by those before it (R268, R327). -/
def Check.step (c : Check) (p : Port) (r : Nat) (it : Item) (k : Nat) (b : List Byte) : Check :=
  if c.status ≠ 0 then c
  else
    let bad (s : Nat) : Check := { c with status := s, entry := k }
    let go (c : Check) : Check := { c with dev := c.dev.project c.allocs k b }
    let judged (s : Nat) : Check := if s = 0 then go c else bad s
    match descOp b with
    | 0x10 => judged (c.dev.videoStatus b)
    | 0x11 =>
      let s := c.dev.audioStatus c.seen b
      if s = 0 then go { c with seen := c.seen ++ (aEntries b).map (·.1) } else bad s
    | 0x12 => judged (c.dev.formatStatus b)
    | 0x13 => go c
    | 0x15 => judged (c.dev.closeStatus b)
    | 0x20 =>
      if 4096 < D.first.of b + D.entries.of b then bad stInvalid
      else
        let missing := (syncIds b).filter fun id => (it.cctOf id).isNone
        if !missing.isEmpty then { c with reads := c.reads ++ missing }
        else judged (firstBad ((syncIds b).map fun id => c.dev.syncStatus id ((it.cctOf id).getD [])))
    | 0x21 => judged (need (D.result.of b % 64 == 0))
    | 0x22 => judged (need (D.result.of b % 64 == 0))
    | 0x14 =>
      match c.dev.convOpening p r it k b with
      | .bad s => bad s
      | .miss id => { c with reads := setInsert id c.reads }
      | .allocs l => go { c with allocs := c.allocs ++ l }
    | 0x16 =>
      match c.dev.syncOpening p r it k b with
      | .bad s => bad s
      | .miss id => { c with reads := setInsert id c.reads }
      | .allocs l => go { c with allocs := c.allocs ++ l }
    | _ => c

/-- The first `n` entries of a salvo checked in order. -/
def Dev.checkEntries (d : Dev) (p : Port) (r : Nat) (it : Item) (n : Nat) : Check :=
  (it.numbered.take n).foldl (fun c e => c.step p r it e.1 e.2) { dev := d.base it.seq }

/-! ### On the state after all entries -/

/-- A channel's format is that of an output on a plane, and the channel is open there (R270, R330). -/
def Dev.scanOk (d : Dev) (p : Plane) (o : Nat) : Bool :=
  let r := (d.op o p).active
  let w := d.owner p r.chan
  w.isOpen && baseOf w.profile != pxAsrc && ((d.out o).raster.isNone || w.fmtOut == (d.out o).fmt)
    && decide (d.demand p r.chan ≤ w.tokens)

/-- The offset an output is left with fits its route (R217). -/
def Dev.offsetOk (d : Dev) (o : Nat) : Bool :=
  match (d.out o).raster with
  | none => true
  | some r =>
    let rate := fmtRate r.fmt
    let timed := (d.planesOf o).any fun p => (d.op o p).active.kind == 2
    let limit := if timed then rateDen rate * 1000000000 / (rateNum rate * fmtL r.fmt) else rateDen rate * 1000000000 / rateNum rate
    decide (r.off.natAbs ≤ limit)

/-- A closed id is no longer scanned, overlaid, or read by an output of its plane (R327). -/
def Dev.closeLeaves (d : Dev) (p : Plane) (id : Nat) : Bool :=
  d.isOpen p id || ((d.scanners p id).isEmpty
    && !(isSet id && d.outs.any fun x => d.computes x.1 p && (x.2.pl.pl p).ovl.enable && (x.2.pl.pl p).ovl.set == id))

/-- An entry on the state the whole salvo leaves (R217, R270, R321, R322, R327, R352, R388, R393). -/
def Dev.afterStatus (d : Dev) (allocs : List Alloc) (k : Nat) (b : List Byte) : Nat :=
  match descOp b with
  | 0x10 =>
    let o := D.out.of b
    need (d.offsetOk o && (d.planesOf o).all fun p => (d.op o p).active.kind != 3 || d.scanOk p o)
  | 0x11 => need ((aEntries b).all fun e => (d.out (d.headOf (e.1 / 16))).raster.isSome
      && (d.planesOf (e.1 / 16)).all fun p => match d.pathOf p (e.1 / 16) e.2.src with
        | .frame id => decide (d.demand p id ≤ (d.owner p id).tokens)
        | _ => true)
  | 0x12 =>
    let o := D.out.of b
    need (d.offsetOk o && (!fmtDeclass b || d.unrouted o))
  | 0x13 => d.overlayStatus b
  | 0x15 => need ((closings b).all fun c => !d.inService c.1 || d.closeLeaves c.1 c.2)
  | _ => need ((allocs.filter fun a => a.entry == k).all fun a => decide (d.demand a.plane a.id ≤ a.amount.tokens))

/-! ### Securing (R325, R349, R353, R393) -/

/-- The running totals of one plane. -/
structure Run where
  pool : Amount := {}
  ctx : Nat := 0
  hold : Amount := {}
  credit : Amount := {}
  ctxCredit : Nat := 0
  spots : Nat := 0                  -- free places in shared half units (R349)
  deriving DecidableEq, Repr

/-- Free places for PX_ASRC channels on a plane: engines whose shared half unit carries one, and those that secured
openings are to take, less the openings that will join one. -/
def Dev.asrcSpots (d : Dev) (p : Plane) : Nat :=
  let open' := ((List.range 48).filter fun i => d.engShared p i).length
  let all := d.svr.foldl (fun l x => l ++ x.2.items.foldl (fun l it => l ++ it.allocs) []) []
  let mine := all.filter fun a => a.plane == p && baseOf a.owner.profile == pxAsrc && !d.isOpen p a.id
  open' + (mine.filter fun a => a.amount.units == 1).length - (mine.filter fun a => a.amount.units == 0).length

/-- The totals as validation begins. -/
def Dev.run0 (d : Dev) (pt : Port) (r : Nat) (p : Plane) : Run :=
  { pool := d.pool p, ctx := d.rd F.GE_STATUS_ctx_free p.id, hold := d.holdOf pt r p, spots := d.asrcSpots p }

/-- An opening draws on the credit of the salvo's closings, then the ring's holdings, then the pool (R325); 0 or the
status of the first short kind. -/
def Run.take (x : Run) (a : Alloc) : Nat × Run × Alloc :=
  let asrc := baseOf a.owner.profile == pxAsrc
  let units := if asrc then b2n (x.spots == 0) else a.amount.units
  let want : Amount := { a.amount with units := units }
  let c := want.least x.credit
  let h := (want.sub c).least x.hold
  let rest := (want.sub c).sub h
  let short := rest.short x.pool
  let cc := Nat.min a.ctx x.ctxCredit
  let status := if short ≠ 0 then short else if x.ctx < a.ctx - cc then 0x17 else 0
  let spots := if !asrc then x.spots else if x.spots = 0 then 1 else x.spots - 1
  (status, { pool := x.pool.sub rest, ctx := x.ctx - (a.ctx - cc), hold := x.hold.sub h, credit := x.credit.sub c
             ctxCredit := x.ctxCredit - cc, spots := spots },
   { a with amount := want, fromHold := h, fromCredit := c, ctxCredit := cc
            owner := if asrc then { a.owner with cost := 0 } else a.owner })

/-- Securing under way: totals per plane, the first shortage, openings and closings so far, holdings results. -/
structure Secure where
  runs : Duo Run
  status : Nat := 0
  entry : Nat := 0
  allocs : List Alloc := []
  closes : List Alloc := []
  results : List (Nat × List Byte) := []

/-- The 32-byte holdings result (R271). -/
def holdingsBytes (h : Duo Amount) : List Byte :=
  let one (a : Amount) : List Byte := le 4 a.pages ++ le 2 a.tokens ++ le 1 a.units ++ zeros 9
  one h.a ++ one h.b

/-- One entry of a salvo takes part in the running totals (R325). -/
def Secure.step (d : Dev) (allocs : List Alloc) (x : Secure) (k : Nat) (b : List Byte) : Secure :=
  if x.status ≠ 0 then x
  else
    match descOp b with
    | 0x14 | 0x16 =>
      (allocs.filter fun a => a.entry == k).foldl (fun x a =>
        if x.status ≠ 0 then x
        else
          let (s, y, a') := (x.runs.pl a.plane).take a
          if s ≠ 0 then { x with status := s, entry := k }
          else { x with runs := x.runs.modPl a.plane fun _ => y, allocs := x.allocs ++ [a'] }) x
    | 0x15 =>
      (closings b).foldl (fun x c =>
        if !d.inService c.1 then x
        else
          let o := match x.allocs.find? fun a => a.plane == c.1 && a.id == c.2 with
            | some a => a.owner
            | none => d.owner c.1 c.2
          let am : Amount := ⟨o.owned + o.reserved, o.tokens, if baseOf o.profile = pxAsrc then 0 else o.cost⟩
          { x with runs := x.runs.modPl c.1 fun y => { y with credit := y.credit.add am, ctxCredit := y.ctxCredit + b2n o.ctx }
                   closes := x.closes ++ [{ plane := c.1, id := c.2, entry := k, amount := am, ctx := b2n o.ctx }] }) x
    | 0x21 =>
      let ps := maskPlanes (D.planes.of b)
      let am := resAmount b
      let s := firstBad ((List.range 3).map fun j => firstBad (ps.map fun p =>
        let av := (x.runs.pl p).pool
        if j = 0 ∧ av.pages < am.pages then 0x15 else if j = 1 ∧ av.tokens < am.tokens then 0x16
        else if j = 2 ∧ av.units < am.units then 0x17 else 0))
      if s ≠ 0 then { x with status := s, entry := k }
      else
        let runs := ps.foldl (fun rs p => rs.modPl p fun y => { y with pool := y.pool.sub am, hold := y.hold.add am }) x.runs
        { x with runs := runs, results := x.results ++ [(k, holdingsBytes ⟨runs.a.hold, runs.b.hold⟩)] }
    | 0x22 =>
      let ps := maskPlanes (D.planes.of b)
      let am := resAmount b
      if ps.any fun p => am.short (x.runs.pl p).hold != 0 then { x with status := stInvalid, entry := k }
      else
        let runs := ps.foldl (fun rs p => rs.modPl p fun y => { y with pool := y.pool.add am, hold := y.hold.sub am }) x.runs
        { x with runs := runs, results := x.results ++ [(k, holdingsBytes ⟨runs.a.hold, runs.b.hold⟩)] }
    | _ => x

/-- The credit each closing passes on: the openings' draws, from the first closing onwards (R326). -/
def shareCredit (used : Amount) (ctx : Nat) (p : Plane) : List Alloc → List Alloc
  | [] => []
  | c :: r =>
    if c.plane == p then
      let u := used.least c.amount
      let n := Nat.min ctx c.ctx
      { c with fromCredit := u, ctxCredit := n } :: shareCredit (used.sub u) (ctx - n) p r
    else c :: shareCredit used ctx p r

/-- Amounts summed. -/
def sumCredit (p : Plane) (l : List Alloc) : Amount × Nat :=
  (l.filter fun a => a.plane == p).foldl (fun (s : Amount × Nat) (a : Alloc) => (s.1.add a.fromCredit, s.2 + a.ctxCredit)) ({}, 0)

/-- New audio reader contexts that the state after the salvo needs on a plane, beyond those free (R393). -/
def Dev.audioShort (d after : Dev) (p : Plane) : Bool :=
  decide (512 < after.audioContexts p ∧ d.audioContexts p < after.audioContexts p)

/-! ### Items -/

/-- The item of a ring to be validated next (R286): delivered, everything before it validated, and a standalone item
only once it is the first of its ring. -/
def Dev.nextToValidate (d : Dev) (p : Port) (r : Nat) : Option Item :=
  let items := (d.ring p r).items
  match items.find? fun it => it.phase == .fetched || it.phase == .delivered || it.phase == .waiting with
  | none => none
  | some it =>
    let first := match items with
      | x :: _ => x.idx == it.idx
      | [] => false
    if it.phase == .fetched || (!it.isSalvo && !first) then none else some it

/-- The port's address of a CCT entry (R309, R314). -/
def Dev.cctAddr (d : Dev) (p : Port) (id : Nat) : Nat :=
  d.rd F.HIF_CCT_BASE_LO_addr p.id * 4096 + d.rd F.HIF_CCT_BASE_HI_addr p.id * 2 ^ 32 + 256 * id

/-- The item waits for CCT entries: reads are issued for those not yet outstanding, 16 at most per port (R314). -/
def Dev.askCct (d : Dev) (p : Port) : Dev :=
  let wanted := (List.range 16).foldl (fun l r => (d.ring p r).items.foldl (fun l it =>
    if it.phase == .waiting then it.need.foldl (fun l id => if l.contains id then l else l ++ [id]) l else l) l) []
  let out := (d.port p).cctReads
  let new := (wanted.filter fun id => !out.contains id).take (16 - out.length)
  let d := d.modPort p fun x => { x with cctReads := x.cctReads ++ new }
  d.each new fun d id => d.emit (.hostRead p (d.cctAddr p id) 256)

/-- A salvo validated and secured, all or nothing (R268, R292, R293, R325). -/
def Dev.validateSalvo (d : Dev) (p : Port) (r : Nat) (it : Item) : Dev :=
  let v := d.headVerdict p r it
  if v.1 ≠ 0 then d.failItem p r it.idx v.1 v.2.1 v.2.2
  else
    let c := d.checkEntries p r it it.entries.length
    if c.status ≠ 0 then d.failItem p r it.idx c.status c.entry
    else if !c.reads.isEmpty then (d.modItem p r it.idx fun x => { x with phase := .waiting, need := c.reads }).askCct p
    else
      match it.numbered.find? fun e => c.dev.afterStatus c.allocs e.1 e.2 != 0 with
      | some e => d.failItem p r it.idx (c.dev.afterStatus c.allocs e.1 e.2) e.1
      | none =>
        let s := it.numbered.foldl (fun x e => Secure.step (d.base it.seq) c.allocs x e.1 e.2)
          { runs := ⟨d.run0 p r .a, d.run0 p r .b⟩ }
        if s.status ≠ 0 then d.failItem p r it.idx s.status s.entry
        else
          match it.numbered.find? fun e => descOp e.2 == 0x11 && d.planesUp.any (d.audioShort c.dev) with
          | some e => d.failItem p r it.idx 0x17 e.1
          | none =>
            let put (d : Dev) (q : Plane) : Dev :=
              let y := s.runs.pl q
              ((d.setPool q y.pool).wr F.GE_STATUS_ctx_free y.ctx q.id).modHold p r q fun _ => y.hold
            let d := put (put d .a) .b
            let closes := [Plane.a, Plane.b].foldl (fun cs q => shareCredit (sumCredit q s.allocs).1 (sumCredit q s.allocs).2 q cs) s.closes
            d.modItem p r it.idx fun x =>
              { x with phase := .secured, cur := 0, need := [], secAt := d.epoch, allocs := s.allocs, closes := closes
                       results := s.results, authOk := it.auth }

/-! ### Standalone items (R265, R272) -/

/-- The Larder region of an address (Table 15-2): 0 Board Table, 1 Route Journal, 2 Counters, 3 Fault Log, 4 Key Slots,
5 Profile patches, 6 Host area. -/
def ldrRegion (a : Nat) : Nat :=
  if a < 0x8000 then 0 else if a < 0x108000 then 1 else if a < 0x118000 then 2 else if a < 0x158000 then 3
  else if a < 0x168000 then 4 else if a < 0x268000 then 5 else 6

/-- An NVM range that lies in one region which the item may reach (R474, R479); an empty one lies where it begins. -/
def Dev.nvmOk (d : Dev) (write : Bool) (a n : Nat) : Bool :=
  let r := ldrRegion a
  decide (n ≤ 4096 ∧ a + n ≤ 0x400000) && r == ldrRegion (Nat.max a (a + n - 1))
    && (if write then r == 6 || (r == 0 && d.flag F.LDR_CTRL_bt_wen) || (r == 5 && d.flag F.LDR_CTRL_patch_wen) else r != 4)

/-- The owner holds a page at frame slot `f`, line block `l` (R318; conversion channels as log 18 lays them out). -/
def Dev.holdsPage (d : Dev) (p : Plane) (id f l : Nat) : Bool :=
  let o := d.owner p id
  let pr := (d.profileOf (baseOf o.profile)).getD {}
  if !o.isOpen && !o.closing then false
  else if isSet id then decide (f * 16384 + l < o.owned)
  else if f = 15 then decide (l < o.reserved)
  else if isSync id then decide (f < o.depth ∧ l < framePages o.fmtIn (o.anc id))
  else if baseOf o.profile = pxAsrc then f == 0 && decide (l < 16)
  else if f < pr.depth then decide (l < framePages o.fmtIn (o.anc id))
  else if f < pr.depth + 3 + spreadFrames o.fmtOut (d.spread p id) then decide (l < framePages o.fmtOut (o.anc id))
  else f == 14 && decide (l < pr.w * Nat.max (fmtG o.fmtIn) (fmtG o.fmtOut))

/-- Every page of a range of an owner's offsets is held by it (R340). -/
def Dev.holdsRange (d : Dev) (p : Plane) (id a n : Nat) : Bool :=
  ((d.owner p id).isOpen || (d.owner p id).closing) && (span (a / 8192) (ceilDiv (a + n) 8192 - a / 8192)).all fun k => d.holdsPage p id (k / 16384) (k % 16384)


/-- Content of a standalone descriptor (Tables 7-11 to 7-14, 16-4, R306, R324, R338, R340, R505). -/
def Dev.standaloneStatus (d : Dev) (p : Port) (r : Nat) (b : List Byte) : Nat :=
  let host16 := D.host.of b % 16 == 0
  let planes := maskPlanes (D.planes.of b)
  match descOp b with
  | 0x20 => need (decide (D.first.of b + D.entries.of b ≤ 4096))
  | 0x21 =>
    if D.result.of b % 64 ≠ 0 then stInvalid
    else firstBad ((List.range 3).map fun j => firstBad (planes.map fun q =>
      let av := d.pool q
      if j = 0 ∧ av.pages < D.pages.of b then 0x15 else if j = 1 ∧ av.tokens < D.tokens.of b then 0x16
      else if j = 2 ∧ av.units < D.units.of b then 0x17 else 0))
  | 0x22 => need (D.result.of b % 64 == 0 && planes.all fun q => (resAmount b).short (d.holdOf p r q) == 0)
  | 0x30 => need (D.subop.of b != 0 || decide (D.ns.of b < 1000000000))
  | 0x31 => need (host16 && !planes.isEmpty && isSet (D.owner.of b) && D.hOffset.of b % 16 == 0 && D.hLength.of b % 16 == 0
      && decide (D.hLength.of b ≤ 16777216))
  | 0x32 => need (host16 && planes.length == 1 && D.hOffset.of b % 16 == 0 && D.hLength.of b % 16 == 0
      && decide (D.hLength.of b ≤ 16777216) && planes.all fun q => d.holdsRange q (D.owner.of b) (D.hOffset.of b) (D.hLength.of b))
  | 0x40 => need (host16 && d.nvmOk true (D.nAddr.of b) (D.nLength.of b))
  | 0x41 => need (host16 && d.nvmOk false (D.nAddr.of b) (D.nLength.of b))
  | 0x50 | 0x54 => need host16
  | 0x51 => need (host16 && decide (4 ≤ D.bmr.of b))
  | 0x52 =>
    let (alg, use) := (D.alg.of b, D.usage.of b)
    need (host16 && ((alg == 1 && (use == 0 || use == 2)) || (alg == 2 && (use == 0 || use == 1))))
  | 0x53 | 0x55 => need host16
  | 0x57 | 0x58 | 0x59 => need (host16 && D.kData8.of b % 16 == 0)
  | 0x60 =>
    let q := Port.ofId (D.port.of b)
    need (q != p && (d.lost q || D.force.on b))
  | _ => 0

/-- A transfer of length 0, which completes when validated and touches nothing (Table 7-15). -/
def emptyTransfer (b : List Byte) : Bool :=
  match descOp b with
  | 0x31 | 0x32 => D.hLength.of b == 0
  | 0x40 | 0x41 => D.nLength.of b == 0
  | _ => false

/-- A standalone item validated; its action may then begin (R264, R265, R272, R286). -/
def Dev.validateStandalone (d : Dev) (p : Port) (r : Nat) (it : Item) : Dev :=
  let s := descStatus it.head headOp
  let s := if s ≠ 0 then s else d.standaloneStatus p r it.head
  if s ≠ 0 then d.failItem p r it.idx s 0
  else d.modItem p r it.idx fun x => { x with phase := if emptyTransfer it.head then .done else .acting }

/-- An item validated (R268). -/
def Dev.validate (d : Dev) (p : Port) (r : Nat) (it : Item) : Dev :=
  if it.isSalvo then d.validateSalvo p r it else d.validateStandalone p r it

/-- Uncorrectable errors met in Coolboxes as the port validates (R297, R313): an entry of the control-side Coolbox is
discarded, and the validation that needs it reads it from the CCT again (R314); one of a plane's Coolbox is read again
through the port. Neither the plane nor an item fails. -/
def Dev.coolErrors (d : Dev) (p : Port) (spoiled : List (Option Plane × Nat)) : Dev :=
  d.each spoiled fun d x =>
    match x.1 with
    | none => { d with coolCtl := d.coolCtl.filter (· != x.2) }
    | some q =>
      if (d.plane q).coolbox.contains x.2 && !(d.port p).cctReads.contains x.2 then
        (d.modPort p fun y => { y with cctReads := y.cctReads ++ [x.2] }).emit (.hostRead p (d.cctAddr p x.2) 256)
      else d

/-- ITEM_VALIDATE (R268). -/
def execItemValidate (t : Nat) (port : Port) (ring : Nat) (spoiled : List (Option Plane × Nat)) (s : State) :
    Host.Outcome State Fault Refusal :=
  onDev (ringOk ring && spoiled.all fun x => idOk x.2) t s fun d =>
    match (d.coolErrors port spoiled).nextToValidate port ring with
    | some it => (d.coolErrors port spoiled).validate port ring it
    | none => d.coolErrors port spoiled

/-! ### CCT reads (R311, R313, R314) -/

/-- An id becomes the most recently used of a Coolbox of `n` entries. -/
def touch (n id : Nat) (l : List Nat) : List Nat := (id :: l.filter (· != id)).take n

/-- Contents of an entry cached on the control side. -/
def Dev.cacheCtl (d : Dev) (id : Nat) (b : List Byte) : Dev :=
  { d with cctData := Tbl.set [] d.cctData id b, coolCtl := touch 128 id d.coolCtl }

/-- An item's outstanding reads are all back: it goes on. A standalone CCT_SYNC acts when its command comes. -/
def Dev.resume (d : Dev) (p : Port) (r idx : Nat) : Dev :=
  match (d.ring p r).items.find? fun it => it.idx == idx && it.phase == .waiting && it.need.isEmpty with
  | none => d
  | some it => if it.isSalvo then d.validateSalvo p r it else d.modItem p r idx fun x => { x with phase := .acting }

/-- The entry of an item that needs a CCT entry. -/
def Dev.needEntry (d : Dev) (p : Port) (r idx id : Nat) : Nat :=
  match (d.ring p r).items.find? fun it => it.idx == idx with
  | none => 0
  | some it =>
    let uses (b : List Byte) : Bool :=
      match descOp b with
      | 0x14 => D.cChan.of b == id
      | 0x16 => D.sSrc.of b == id
      | _ => namedBy [b] id
    ((it.numbered.find? fun e => uses e.2).map (·.1)).getD 0

/-- A CCT read of the port has ended with contents, or failed (R310, R314). -/
def Dev.cctDone (d : Dev) (p : Port) (id : Nat) (data : Option (List Byte)) : Dev :=
  if !(d.port p).cctReads.contains id then d
  else
    let d := d.modPort p fun x => { x with cctReads := x.cctReads.filter (· != id) }
    let waiters := (List.range 16).foldl (fun l r => (d.ring p r).items.foldl (fun l it =>
      if it.phase == .waiting && it.need.contains id then l ++ [(r, it.idx)] else l) l) []
    let d := match data with
      | none => d.each waiters fun d w => d.failItem p w.1 w.2 stFetch (d.needEntry p w.1 w.2 id)
      | some b =>
        let d := (d.bump F.HIF_CCT_CNT_reads p.id).when (cctStatus id 0 b != 0) fun d => d.bump F.HIF_CCT_CNT_bad p.id
        let plain := waiters.any fun w => (d.ring p w.1).items.any fun it => it.idx == w.2 &&
          (if it.isSalvo then !namedBy it.entries id else descOp it.head == 0x31)
        let d := d.when plain fun d => d.cacheCtl id b
        d.each waiters fun d w =>
          (d.modItem p w.1 w.2 fun it => { it with need := it.need.filter (· != id)
                                                   ccts := (it.ccts.filter fun (x : Nat × List Byte) => x.1 != id) ++ [(id, b)] }).resume p w.1 w.2
    d.askCct p

/-- CCT_READ_COMPLETE (R314). -/
def execCctReadComplete (t : Nat) (port : Port) (id : Nat) (data : Option (List Byte)) (s : State) :
    Host.Outcome State Fault Refusal :=
  onDev (idOk id) t s fun d => d.cctDone port id (data.map (fit 256))

/-- HOST_READ_TIMEOUT (R303, R305): the read is treated as failed. -/
def execHostReadTimeout (t : Nat) (port : Port) (what : HostRead) (s : State) : Host.Outcome State Fault Refusal :=
  onDev (readOk what) t s fun d =>
    match what with
    | .doorbell => if (d.port port).reading then d.doorbellFailed port else d
    | .descriptor r => d.arrive port r [] false
    | .cct id => d.cctDone port id none
    | .probe => d.modPort port fun x => { x with probing := false }

end Sys2Proof.Machine
end

