-- ==== Sys2Proof/Machine/Salvo.lean ====
section
/-! DEFINITION. Salvos at their latch and switch points (R192, R198, R240-R244, R273-R277, R284, R286, R291,
R301, R302, R312, R315, R334, R351, R391): latching, landing, completion; and the commands of a salvo's descriptors. -/

namespace Sys2Proof.Machine

/-! ### CCT contents taken into force (R312, R315) -/

/-- An id becomes the most recently used of a plane's Coolbox (R313). -/
def Dev.touchPlane (d : Dev) (p : Plane) (id : Nat) : Dev := d.modPlane p fun x => { x with coolbox := touch 512 id x.coolbox }

/-- Synchronised contents replace the copies in all three Coolboxes and take effect field by field (R312, R366). -/
def Dev.cctTake (d : Dev) (id : Nat) (b : List Byte) : Dev :=
  let d := ((d.cacheCtl id b).touchPlane .a id).touchPlane .b id
  let next (d : Dev) (p : Plane) (i : Nat) : Dev :=
    if d.isOpen p i then d.modOwner p i fun o => { o with cctNext := some b } else d
  match cctType id with
  | 1 =>
    let d := (d.modIn id fun x => { x with delayNext := some (C.delay.of b), cct := (b.drop 4).take 8 }).noteJournal 3 id
    let d := next (next d .a id) .b id
    let hold (x : PlaneSt) : PlaneSt := { x with owners := x.owners.map fun (y : Nat × Owner) =>
      (y.1, if isConv y.1 && y.2.isOpen && y.2.src == id then { y.2 with holdNext := some (C.hold.of b) } else y.2) }
    (d.modPlane .a hold).modPlane .b hold
  | 2 => (d.modOut (id - 1152) fun x => { x with cctNext := some (C.outByte.of b, C.matchLine.of b) }).noteJournal 1 (id - 1152)
  | 3 =>
    let d := next d .a id
    let d := if (d.owner .b id).pair then d else next d .b id
    if (d.owner .b (id + 96)).pair then next d .b (id + 96) else d
  | _ => d

/-! ### The outputs a salvo touches -/

/-- The outputs an entry touches (R291). -/
def entryOuts (b : List Byte) : List Nat :=
  match descOp b with
  | 0x10 => [D.out.of b]
  | 0x11 => (aEntries b).foldl (fun l e => setInsert (e.1 / 16) l) []
  | 0x12 => [D.out.of b]
  | 0x13 => if D.palOnly.on b then [] else [D.out.of b]
  | _ => []

/-- The outputs a salvo touches. -/
def Item.outs (it : Item) : List Nat := it.entries.foldl (fun l b => (entryOuts b).foldl (fun l o => setInsert o l) l) []

/-- The salvo's TAKE_FORMAT for an output. -/
def Item.formatFor (it : Item) (o : Nat) : Option (List Byte) :=
  it.entries.find? fun b => descOp b == 0x12 && D.out.of b == o

/-- The salvo's raster change for an output, or for the first slot of its group, is still to come (R240). -/
def Dev.tied (d : Dev) (it : Item) (o : Nat) : Bool := it.stamp != 0 && (d.changesOf o).any fun c => c.stamp == it.stamp

/-! ### Instants -/

/-- The line of an output's raster on which a switch line lands (R198, R199). -/
def Dev.landOn (d : Dev) (o line : Nat) : Nat := lineOn line (d.out (d.headOf o)).fmt

/-- The epoch instant at which a salvo lands on an output: the start of the switch line on the raster that runs in the
salvo's class, the present one or the one to which a waiting change leads. -/
def Dev.landAt (d : Dev) (o : Nat) (it : Item) : Nat :=
  let next := match (d.changesOf o).findSome? fun c => c.dst.filter fun r => r.cls == it.cls with
    | some r => r.lineAt it.frame (lineOn it.line r.fmt)
    | none => it.point
  match (d.out (d.headOf o)).raster with
  | some r => if r.cls = it.cls then (d.lineTime o it.frame (lineOn it.line r.fmt)).getD next else next
  | none => next

/-- The first output sample slot at or after the start of line `k` of frame `f` of an output (R383, R396, R562). -/
def Dev.slotAtLine (d : Dev) (o f k : Nat) : Int :=
  let c := (d.out (d.headOf o)).fmt
  let r := fmtRate c
  (ceilDiv (48000 * (f * fmtL c + (k - 1)) * rateDen r) (rateNum r * fmtL c) : Nat)

/-- The epoch instant at which an entry lands. -/
def Dev.dueAt (d : Dev) (it : Item) (b : List Byte) : Nat :=
  match entryOuts b with
  | [] => it.point
  | o :: os => os.foldl (fun m o => Nat.min m (d.landAt o it)) (d.landAt o it)

/-- Line period of an output's raster, of the class where it has none, in u. -/
def Dev.outLine (d : Dev) (o cls : Nat) : Nat :=
  match (d.out (d.headOf o)).raster with
  | some r => lineU (fmtRate r.fmt) (fmtL r.fmt)
  | none => lineU (d.clsRate cls) (d.clsL cls)

/-- The end of the line on which the salvo counts as applied, on the last output it touches (R277): the switch line, or
the first line of the new raster for the outputs whose takes came with a raster change (R240). -/
def Dev.appliedAt (d : Dev) (it : Item) : Nat :=
  (it.outs.filter fun o => !it.tiedOuts.contains o).foldl (fun m o => Nat.max m (d.landAt o it + d.outLine o it.cls))
    (Nat.max it.changeEnd (it.point + lineU (d.clsRate it.cls) (d.clsL it.cls)))

/-! ### Checks at the latch point -/

/-- A direct route is timed for its output, or its source absent (R192, R204). -/
def Dev.directOk (d : Dev) (o : Nat) (r : Route) : Bool :=
  let x := d.out o
  (group r.src (Nat.max 1 (fmtG x.fmt))).all fun i =>
    !d.flag F.LN_MON_STATE_present i || ((d.inp i).fmt == x.fmt && d.timedFor i x.off)

/-- A channel's depth or need allows its readers' spread (R334, R351). -/
def Dev.depthOk (d : Dev) (p : Plane) (id : Nat) : Bool :=
  let o := d.owner p id
  if isSync id then decide (3 + spreadFrames o.fmtIn (d.spread p id) ≤ o.depth)
  else if isConv id then decide (d.needNow p id ≤ o.maxPages) else true

/-- A destination left on the line path has a timed source of the output's rate and line count, or none (R391). -/
def Dev.lineOk (d : Dev) (p : Plane) (a src : Nat) : Bool :=
  let o := d.headOf (a / 16)
  if d.pathOf p o src != .line then true
  else
    let i := src / 16
    !d.flag F.LN_MON_STATE_present i ||
      (fmtRate (d.inp i).mon.fmt == fmtRate (d.out o).fmt && fmtL (d.inp i).mon.fmt == fmtL (d.out o).fmt && d.timedFor i (d.out o).off)

/-- The output runs in the salvo's class at the salvo's switch point: its raster, or, where a raster change of another salvo
waits, the raster to which that leads, already started (R244). An output of no class takes only what comes with a
TAKE_FORMAT. -/
def Dev.classOk (d : Dev) (it : Item) (o : Nat) : Bool :=
  let formed := [o, o / 2 * 2, o / 4 * 4].any fun h => (it.formatFor h).isSome
  match (d.changesOf o).getLast? with
  | some c => match c.dst with
    | some r => r.cls == it.cls && decide (c.startAt ≤ r.lineAt it.frame (lineOn it.line r.fmt))
    | none => formed && decide (c.startAt ≤ it.point)
  | none => match (d.out (d.headOf o)).raster with
    | some r => r.cls == it.cls
    | none => formed

/-- Status of an entry at the latch point; `q` is the state the salvo leaves. -/
def Dev.latchStatus (d q : Dev) (it : Item) (b : List Byte) : Nat :=
  let ok := (entryOuts b).all fun o => d.classOk it o
  let readers (o : Nat) : Bool := (q.planesOf o).all fun p => (q.op o p).active.kind != 3 || q.depthOk p (q.op o p).active.chan
  need (ok && match descOp b with
    | 0x10 =>
      let o := D.out.of b
      let planes := [Plane.a, Plane.b].filter fun p => q.computes o p
      planes.all (fun p => (q.op o p).active.kind != 2 || q.directOk o (q.op o p).active) && readers o
    | 0x11 => (aEntries b).all fun e =>
        (q.out (q.headOf (e.1 / 16))).raster.isSome && (q.planesOf (q.headOf (e.1 / 16))).all fun p => q.lineOk p e.1 e.2.src &&
          match q.pathOf p (e.1 / 16) e.2.src with
          | .frame id => q.depthOk p id
          | _ => true
    | 0x12 => fmtDeclass b || readers (D.out.of b)
    | _ => true)

/-! ### Raster changes (R218, R240-R243) -/

/-- The instant at which the raster after `old` starts, or the output leaves its class, and the last frame of the old raster:
after the frame that contains the salvo's switch line (R218, R241, R242). -/
def Dev.changeAt (d : Dev) (it : Item) (old dst : Option Raster) : Nat × Nat :=
  match old, dst with
  | some r, _ => changeFrom r dst it.frame none
  | none, none => (it.point, 0)
  | none, some n => (n.lineAt (({ n with off := 0 } : Raster).frameFrom (it.point + 1)) 1, 0)

/-- The salvo's raster change for an output, where its TAKE_FORMAT changes anything (Table 6-6), behind one that waits. -/
def Dev.addChange (d : Dev) (it : Item) (o : Nat) (b : List Byte) : Dev :=
  let x := d.out o
  let dst := rasterOf b
  let old := match x.change with
    | some c => c.dst
    | none => x.raster
  if dst == old then d
  else
    let g := Nat.max (old.elim 1 fun r => fmtG r.fmt) (dst.elim 1 fun r => fmtG r.fmt)
    let mine := it.entries.filter fun x => descOp x != 0x12 && (entryOuts x).any fun y => decide (o ≤ y ∧ y < o + g)
    let at' := d.changeAt it old dst
    let c : RasterChange := { dst := dst, frame := it.frame, startAt := at'.1, last := at'.2, takes := mine, stamp := it.stamp }
    d.modOut o fun x => if x.change.isNone then { x with change := some c } else { x with changeNext := some c }

/-! ### Landing -/

/-- Latched salvos in the order of their stamps (R291): port, ring and item. -/
def Dev.latched (d : Dev) : List (Port × Nat × Item) :=
  let ins (x : Port × Nat × Item) (l : List (Port × Nat × Item)) : List (Port × Nat × Item) :=
    (l.takeWhile fun y => decide (y.2.2.stamp < x.2.2.stamp)) ++ [x] ++ (l.dropWhile fun y => decide (y.2.2.stamp < x.2.2.stamp))
  d.svr.foldl (fun l s => s.2.items.foldl (fun l it =>
    if it.phase == .latched then ins (Port.ofId (s.1 / 16), s.1 % 16, it) l else l) l) []

/-- The output's raster, in a class, has reached a switch line of the class's frame `frame` by line `k` of frame `f`. -/
def Out.reached (x : Out) (cls frame line f k : Nat) : Bool :=
  x.raster.any (fun r => r.cls == cls) && (decide (frame < f) || frame == f && decide (lineOn line x.fmt ≤ k))

/-- A pending crosspoint entry becomes active by line `k` of frame `f` (R198), with the path changes of the output's audio
(R389); the one latched behind it becomes pending. -/
def Dev.activatePend (d : Dev) (o : Nat) (p : Plane) (f k : Nat) : Dev :=
  let was := (d.op o p).active
  match (d.op o p).pend with
  | some q =>
    if (d.out o).reached q.cls q.frame q.line f k then
      let next := (d.op o p).next
      let d := (d.landRoute o p q.route true).modOp o p fun x => { x with pend := next, next := none }
      if (d.op o p).active == was then d else d.repath p o (d.slotAtLine o q.frame (d.landOn o q.line))
    else d
  | none => d

/-- A route that waits to land uses channel `id` of plane `p`: pending, or with a raster change. -/
def Dev.chanWaits (d : Dev) (p : Plane) (id : Nat) (x : Nat × Out) : Bool :=
  let y := x.2.pl.pl p
  ((y.pend.toList ++ y.next.toList).any fun q => q.route.kind == 3 && q.route.chan == id)
    || x.2.changes.any fun c => c.takes.any fun b => descOp b == 0x10 && D.kind.of b == 3
        && (D.chan.of b == id || (isConv id && D.chan.of b + 96 == id))

/-- Once an output is single-plane on the other plane, its channel on plane `p` is released with its pages, tokens and
units (R26, R31). DESIGN CHOICE (log 54): a channel that another output of the plane scans, reads or waits for stays open,
and one that a latched salvo closes is left to that. -/
def Dev.releaseChan (d : Dev) (o : Nat) (p : Plane) : Dev :=
  let r := (d.op o p).active
  let id := r.chan
  let used := d.outs.any (fun x => x.1 != o && ((d.scanners p id).contains x.1 || d.chanWaits p id x))
    || (isSync id && (d.audioReaders p id).any fun y => d.headOf y != o)
  let closes := d.latched.any fun x => x.2.2.closes.any fun c => c.plane == p && c.id == id
  if r.kind != 3 || !d.isOpen p id || used || closes then d
  else
    let cid := if (d.owner p id).pair then id - 96 else id
    (d.noteJournal (if isSync id then 3 else 4) cid).returnOwner p id

/-- A TAKE_VIDEO's plane mode and preferred plane land (R29-R31, R229); a plane that no longer computes the output
releases what it holds for it. -/
def Dev.takeMode (d : Dev) (o : Nat) (b : List Byte) : Dev :=
  let was := (d.out o).mode
  let d := d.landMode o b (d.unrouted o && D.kind.of b != 0)
  let m := (d.out o).mode
  if m = was then d else if m = 1 then d.releaseChan o .b else if m = 2 then d.releaseChan o .a else d

/-- The plane modes that takes carry land on an output by line `k` of frame `f`, in the order of their stamps (R29, R291). -/
def Dev.landModePend (d : Dev) (o f k : Nat) : Dev :=
  let x := d.out o
  let due (q : ModeTake) : Bool := x.reached q.cls q.frame q.line f k
  (d.modOut o fun x => { x with modePend := x.modePend.filter fun q => !due q }).each (x.modePend.filter due) fun d q =>
    d.takeMode o q.desc

/-- A new pending entry, behind one that has still to land at an earlier switch point. -/
def Dev.addPend (d : Dev) (o : Nat) (p : Plane) (it : Item) (r : Route) : Dev :=
  d.modOp o p fun x =>
    let q : Pending := { route := r, frame := it.frame, cls := it.cls, line := it.line }
    match x.pend with
    | some y =>
      if d.tSAt y.cls y.frame y.line < it.point then { x with next := some q } else { x with pend := some q }
    | none => { x with pend := some q }

/-- An opening's own channel opens on its plane, its entry through the plane's Coolbox (R313, R353); where the salvo also
closed it, the outputs that scan it are realigned from the switch point on (R237). -/
def Dev.landOpening (d : Dev) (it : Item) (a : Alloc) : Dev :=
  let cid := if a.owner.pair then a.id - 96 else a.id
  let d := if (d.plane a.plane).coolbox.contains cid then d.bump F.HAM_CB_CNT_hits a.plane.id else d.bump F.HAM_CB_CNT_misses a.plane.id
  let at' := it.point
  let d := ((d.touchPlane a.plane cid).openOwner a).modOwner a.plane a.id fun o => { o with openAt := at' }
  let d := if it.closes.any fun c => c.plane == a.plane && c.id == a.id then
      d.each (d.scanners a.plane a.id) fun d o => d.modOp o a.plane fun x => { x with realign := some it.frame }
    else d
  if isSync a.id then (d.modIn a.id fun x => { x with cct := (a.owner.cct.drop 4).take 8 }).noteJournal 3 a.id
  else if isConv a.id then d.noteJournal 4 cid else d

/-- A closing lands: at once where the salvo reopens the id (R570), else its resources return at the end of the switch
line (R326). -/
def Dev.landClosing (d : Dev) (it : Item) (c : Alloc) : Dev :=
  let reopened := it.allocs.any fun a => a.plane == c.plane && a.id == c.id && decide (c.entry < a.entry)
  let at' := it.point + lineU (d.clsRate it.cls) (d.clsL it.cls)
  let d := d.modOwner c.plane c.id fun o =>
    { o with isOpen := false, closing := true, closeAt := at', credit := c.fromCredit, ctx := o.ctx && c.ctxCredit == 0 }
  let cid := if (d.owner c.plane c.id).pair then c.id - 96 else c.id
  let d := if isSync c.id then d.noteJournal 3 c.id else if isConv c.id then d.noteJournal 4 cid else d
  if reopened then d.returnOwner c.plane c.id else d

/-- The planes on which a salvo applies: in service at its switch point, a joining plane only for a salvo latched
after its join instant (R276, R568). -/
def Dev.appliesOn (d : Dev) (it : Item) (p : Plane) : Bool :=
  d.plState p == 0 || (d.plState p == 3 && decide ((d.plane p).joinAt < it.latchAt))

/-- A channel that an entry opens or closes is also opened or closed for a named plane that is out of service: what a return
of that plane reopens (R301, R329). -/
def Dev.noteAbsent (d : Dev) (q : Plane) (b : List Byte) : Dev :=
  let keep (id : Nat) (o : Owner) : Dev := d.modPlane q fun x => { x with was := Tbl.set {} x.was id o }
  let cct (id : Nat) : List Byte := (d.cached id).getD []
  if d.inService q && descOp b != 0x15 then d
  else match descOp b with
    | 0x14 =>
      let id := D.cChan.of b
      let mine := if D.mirrored.on b then true else if id < 2400 then q == .a else q == .b
      let o := d.convOwner (D.cSrc.of b) (D.profile.of b) (D.cMin.of b) (D.cMax.of b) (D.cTokens.of b) (cct id)
      if !mine then d
      else if D.mirrored.on b && q == .b then keep (id + 96) { o with isOpen := true, pair := true } else keep id { o with isOpen := true }
    | 0x16 =>
      let id := D.sSrc.of b
      let o := d.syncOwner id (D.sMin.of b) (D.sMax.of b) (D.sTokens.of b) (d.syncFmtOf id (cct id)) (cct id)
      if (maskPlanes (D.cPlanes.of b)).contains q then keep id { o with isOpen := true } else d
    | 0x15 => ((closings b).filter fun c => c.1 == q).foldl (fun d c =>
        d.modPlane q fun x => { x with was := Tbl.set {} x.was c.2 {} }) d
    | _ => d

/-- One entry of a latched salvo lands on the planes that apply it. -/
def Dev.landEntry (d : Dev) (p : Port) (r : Nat) (it : Item) (k : Nat) (b : List Byte) : Dev :=
  let planes := [Plane.a, Plane.b].filter fun q => it.applied.pl q
  let on (o : Nat) : List Plane := planes.filter fun q => !it.early.contains (k, o, q.id)
  let line (o : Nat) : Int := d.slotAtLine o it.frame (d.landOn o it.line)
  match descOp b with
  | 0x10 =>
    let o := D.out.of b
    if it.tiedOuts.contains o then d
    else
      let s := d.landOn o it.line
      d.landModePend o it.frame s |>.each planes fun d q => d.activatePend o q it.frame s
  | 0x11 => d.each (aEntries b) fun d e =>
      let o := e.1 / 16
      if it.tiedOuts.contains o then d else d.landAudio it.paths [e] (on o) (line o) false
  | 0x13 =>
    let o := D.out.of b
    if D.palOnly.on b || it.tiedOuts.contains o then d
    else d.each (on o) fun d q => d.modOp o q fun x => { x with ovl := overlayOf b }
  | 0x14 | 0x16 =>
    let d := d.each (it.allocs.filter fun a => a.entry == k && planes.contains a.plane) fun d a => d.landOpening it a
    (d.noteAbsent .a b).noteAbsent .b b
  | 0x15 =>
    let d := d.each (it.closes.filter fun c => c.entry == k && planes.contains c.plane) fun d c => d.landClosing it c
    (d.noteAbsent .a b).noteAbsent .b b
  | 0x21 | 0x22 =>
    let addr := D.result.of b
    let bytes := ((it.results.find? fun x => x.1 == k).map (·.2)).getD []
    if addr = 0 then d
    else if d.lost p then d.raise F.HIF_ERR_result_err p.id else d.hostWrite p addr bytes
  | _ => let _ := r; d

/-- The salvo's switch point has come: the planes that apply it are those then in service (R276, R297). -/
def Dev.begin (d : Dev) (p : Port) (r : Nat) (it : Item) : Dev :=
  d.modItem p r it.idx fun x =>
    if x.begun then x else { x with begun := true, applied := ⟨d.appliesOn it .a, d.appliesOn it .b⟩ }

/-- The entries of a latched salvo that are due land; `sel` picks among them. -/
def Dev.landItem (d : Dev) (p : Port) (r idx : Nat) (sel : List Byte → Bool) (num : Nat) : Dev :=
  match (d.ring p r).items.find? fun it => it.idx == idx with
  | none => d
  | some it =>
    let due := (it.numbered.filter fun e => !it.landed.contains e.1 && sel e.2 && decide (d.dueAt it e.2 ≤ d.epoch)).take num
    if due.isEmpty then d
    else
      let d := d.begin p r it
      let it := { it with begun := true, applied := if it.begun then it.applied else ⟨d.appliesOn it .a, d.appliesOn it .b⟩ }
      d.each due fun d e => (d.landEntry p r it e.1 e.2).modItem p r idx fun x => { x with landed := x.landed ++ [e.1] }

/-- Palette loads whose switch point has come apply on a plane (R249). -/
def Dev.landPals (d : Dev) (p : Plane) : Dev :=
  let due (w : PalLoad) : Bool := decide (w.at' ≤ d.epoch)
  if (d.plane p).palPend.any due then
    d.modPlane p fun x =>
      { x with pals := (x.palPend.filter due).foldl (fun t w => Tbl.set [] t w.ps w.bytes) x.pals
               palPend := x.palPend.filter fun w => !due w }
  else d

/-- FRAME_DONE of the outputs whose frame's last line has ended (R221). DESIGN CHOICE (log 53): the EOP of line L leaves at
the end of that line, the latest that R165 allows. -/
def Dev.noteDone (d : Dev) : Dev :=
  d.each d.outs fun d x =>
    match x.2.doneDue with
    | some (a, n) =>
      if a ≤ d.epoch then
        (d.modOut x.1 fun y => { y with doneDue := none }).rasterOccur x.1 2 0x03 0 n (some (a / nsU % 2 ^ 48))
      else d
    | none => d

/-- Every entry that is due by now lands, salvos in stamp order (R276, R287, R291), and palette loads with them. -/
def Dev.landDue (d : Dev) : Dev :=
  let d := d.each d.latched fun d x => d.landItem x.1 x.2.1 x.2.2.idx (fun _ => true) x.2.2.slots
  ((d.landPals .a).landPals .b).noteDone

/-! ### Latching (R273-R275, R284, R286, R291) -/

/-- The salvo may latch as far as order goes: no earlier item of its ring is still to apply after it (R286), and no
earlier-delivered unlatched salvo touches a common output, but for an explicit one whose switch point lies later (R291). -/
def Dev.orderOk (d : Dev) (p : Port) (r : Nat) (it : Item) (frame : Nat) : Bool :=
  let s := d.tS it.cls frame
  let before := (d.ring p r).items.takeWhile fun x => x.idx != it.idx
  let outs := it.outs
  before.all (fun x => x.phase == .done || (x.phase == .latched && decide (x.point ≤ s)))
    && !(d.svr.any fun y => y.2.items.any fun e =>
      e.isSalvo && e.unlatched && e.seq != 0 && decide (e.seq < it.seq) && e.outs.any (fun o => outs.contains o)
        && (e.asap || decide (d.tS e.cls e.target ≤ s)))

/-- A take that routes an output wakes the lanes that will carry it, at its latch point (R132). -/
def Dev.wakeFor (d : Dev) (o : Nat) (b : List Byte) : Dev :=
  let g := (d.changesOf o).foldl (fun g c => Nat.max g (c.dst.elim 1 fun r => fmtG r.fmt)) (Nat.max 1 (fmtG (d.out o).fmt))
  d.when (D.kind.of b != 0) fun d => d.each ((group o g).flatMap d.egressLanes) Dev.wakeLane

/-- What a latched salvo writes: its CCT contents (R315), pending entries (R198), plane modes, raster changes (R240)
and palette loads (R249; `mem` holds their sources). -/
def Dev.writePending (d : Dev) (mem : Mems) (it : Item) : Dev :=
  let d := d.each (it.entries.filter fun b => descOp b == 0x20) fun d b =>
    d.each (syncIds b) fun d id => d.cctTake id ((it.cctOf id).getD [])
  let d := d.each (it.entries.filter fun b => descOp b == 0x12) fun d b => d.addChange it (D.out.of b) b
  d.each it.entries fun d b =>
    match descOp b with
    | 0x10 =>
      let o := D.out.of b
      let d := d.wakeFor o b
      if d.tied it o then d
      else
        let m := newMode ((d.out o).modePend.foldl (fun m q => newMode m q.desc) (d.out o).mode) b
        let q : ModeTake := { frame := it.frame, cls := it.cls, line := it.line, desc := b }
        let d := d.modOut o fun x => { x with modePend := x.modePend ++ [q] }
        d.each d.planesUp fun d p => d.addPend o p it (routeFor m p b)
    | 0x13 =>
      if D.load.on b then
        d.each (d.planesUp.filter fun p => d.isOpen p (D.set.of b)) fun d p =>
          let bytes := Memory.readN 0#8 (mem.hamper.pl p) (D.set.of b * 2 ^ 36 + D.palAddr.of b) 2048
          let w : PalLoad := { at' := it.point, ps := D.ps.of b, bytes := bytes }
          d.modPlane p fun x => { x with palPend := x.palPend ++ [w] }
      else d
    | _ => d

/-- An explicit salvo not secured by the latch point of its frame is late, and dropped where it asks for that (R274). -/
def Dev.dropLate (d : Dev) (p : Port) (r : Nat) (it : Item) : Dev :=
  let d := if it.phase == .secured then d.undoItem p r it else d
  d.modItem p r it.idx fun x => { x with phase := .done, status := 1, late := true, need := [] }

/-- A salvo misses the switch point of frame `f` (R272-R274). -/
def Dev.missPoint (d : Dev) (p : Port) (r : Nat) (it : Item) (f : Nat) : Dev :=
  if it.asap then
    if 16 ≤ it.tries then d.failItem p r it.idx 0x18 0
    else d.modItem p r it.idx fun x =>
      { x with target := f + 1, frame := f + 1, tries := x.tries + 1, deferred := !x.entries.isEmpty }
  else if D.dropIfLate.on it.head then d.dropLate p r it
  else if it.late then d.failItem p r it.idx 0x18 0
  else d.modItem p r it.idx fun x => { x with target := f + 1, frame := f + 1, late := true }

/-- A salvo at the latch point of frame `f`, with the switch points it has missed since its target counted: those whose latch
points had passed when it came (R273, R274). -/
def Item.atFrame (it : Item) (f : Nat) : Item :=
  let n := f - it.target
  if n = 0 then it
  else { it with target := f, frame := f, tries := it.tries + n, late := it.late || !it.asap
                 deferred := it.deferred || (it.asap && !it.entries.isEmpty) }

/-- The paths of a salvo's audio entries on the state it leaves (R389). -/
def Dev.audioPaths (q : Dev) (it : Item) : List (Nat × Nat × APath) :=
  it.entries.flatMap fun b => if descOp b != 0x11 then [] else (aEntries b).flatMap fun e =>
    [Plane.a, Plane.b].map fun p => (e.1, p.id, q.pathOf p (e.1 / 16) e.2.src)

/-- A salvo that comes too late for every switch point it may apply at (R273, R274). -/
def Item.tooLate (it : Item) (f : Nat) : Bool :=
  if it.asap then decide (16 < it.tries + (f - it.target))
  else decide (it.target < f) && (D.dropIfLate.on it.head || it.late || decide (it.target + 1 < f))

/-- One salvo at a latch point of its class (R275, R284, R292). -/
def Dev.latchOne (d : Dev) (mem : Mems) (p : Port) (r idx f : Nat) : Dev :=
  match (d.ring p r).items.find? fun it => it.idx == idx && it.unlatched with
  | none => d
  | some it =>
    let it' := { it.atFrame f with line := d.switchLine it.cls, point := d.tS it.cls f }
    if it.tooLate f then d.missPoint p r { it with tries := 16, late := true } f
    else if it.phase == .secured && decide (it.secAt < d.tL it.cls f) && d.orderOk p r it f then
      let q := d.each it.numbered fun q e => q.project it.allocs e.1 e.2
      match it.numbered.find? fun e => d.latchStatus q it' e.2 != 0 with
      | some e => d.failItem p r idx (d.latchStatus q it' e.2) e.1
      | none =>
        let d := { d with stamp := d.stamp + 1 }
        let it := { it' with stamp := d.stamp, phase := .latched, frame := f, latchAt := d.now, paths := q.audioPaths it' }
        let d := (d.modItem p r idx fun _ => it).writePending mem it
        let ties := it.outs.filter fun o => d.tied it o
        d.modItem p r idx fun x => { x with standing := ties, tiedOuts := ties }
    else (d.modItem p r idx fun _ => it.atFrame f).missPoint p r (it.atFrame f) f

/-- Salvos of a class whose target is the frame or has passed, in delivery order, undelivered ones last. -/
def Dev.atPoint (d : Dev) (cls frame : Nat) : List (Port × Nat × Item) :=
  let key (it : Item) : Nat := if it.seq = 0 then d.seq + 1 else it.seq
  let ins (x : Port × Nat × Item) (l : List (Port × Nat × Item)) : List (Port × Nat × Item) :=
    (l.takeWhile fun y => decide (key y.2.2 ≤ key x.2.2)) ++ [x] ++ (l.dropWhile fun y => decide (key y.2.2 ≤ key x.2.2))
  d.svr.foldl (fun l s => s.2.items.foldl (fun l it =>
    if it.isSalvo && it.unlatched && it.cls == cls && decide (it.target ≤ frame) then ins (Port.ofId (s.1 / 16), s.1 % 16, it) l
    else l) l) []

/-- SALVO_LATCH (R275): at or after the latch point of the class's frame. -/
def execSalvoLatch (t cls frame : Nat) (s : State) : Host.Outcome State Fault Refusal :=
  onMem (classOk cls) t s fun m d =>
    if d.clsOn cls && decide (d.tL cls frame ≤ d.epoch) then
      (m, (d.landDue.each (d.landDue.atPoint cls frame) fun d x => d.latchOne m x.1 x.2.1 x.2.2.idx frame).deliverAll)
    else (m, d)

/-! ### Completion (R276, R277, R297) -/

/-- A latched salvo whose every entry has landed and whose line has ended is decided: OK, or PLANE_FAIL where no plane
was in service. -/
def Dev.decide' (d : Dev) (p : Port) (r : Nat) (it : Item) : Dev :=
  if it.phase == .latched && it.standing.isEmpty && decide (d.appliedAt it ≤ d.epoch) then
    let d := d.begin p r it
    let d := d.modItem p r it.idx fun x =>
      { x with phase := .done, status := if x.applied.a || x.applied.b then 0 else 0x1A }
    match (d.ring p r).items.find? fun x => x.idx == it.idx with
    | some x => d.stallBehind p r x
    | none => d
  else d

/-- A salvo's place in the order in which takes applied: the end of the line it counts as applied on, then its stamp. -/
def Dev.appliedKey (d : Dev) (it : Item) : Nat := d.appliedAt it * 2 ^ 64 + it.stamp

/-- The salvos of a port that have applied before `it` and whose take records are still to be written, with their keys
and rings. -/
def Dev.appliedFirst (d : Dev) (p : Port) (it : Item) : List (Nat × Nat × Item) :=
  (List.range 16).flatMap fun r => ((d.ring p r).items.filter fun x =>
      x.isSalvo && !x.recorded && decide (d.appliedKey x < d.appliedKey it)
        && ((x.phase == .latched && x.standing.isEmpty) || (x.phase == .done && x.status == 0))).map fun x => (d.appliedKey x, r, x)

/-- The least of the entries still to take, and so on: in order of their keys. -/
def inKeyOrder : List (Nat × Nat × Item) → List (Nat × Nat × Item)
  | [] => []
  | x :: rest =>
    let l := inKeyOrder rest
    (l.takeWhile fun y => decide (y.1 < x.1)) ++ [x] ++ l.dropWhile fun y => decide (y.1 < x.1)

/-- The take records of every salvo of the port that applied before an applied one come before its own (R515). -/
def Dev.recordEarlier (d : Dev) (p : Port) (r : Nat) : Dev :=
  match (d.ring p r).items with
  | [] => d
  | it :: _ =>
    if !it.isSalvo || it.recorded || it.phase != .done || it.status != 0 then d
    else d.each (inKeyOrder (d.appliedFirst p it)) fun d x =>
      let d := d.decide' p x.2.1 x.2.2
      match (d.ring p x.2.1).items.find? fun y => y.idx == x.2.2.idx with
      | some y => d.recordTakes p x.2.1 y
      | none => d

/-- A TAKEOVER whose rings are taken is done once every latched salvo of them has applied (R306). -/
def Dev.takeoverDone (d : Dev) (p : Port) (r : Nat) (it : Item) : Dev :=
  let taken (k : Nat) : Bool := bitOf (D.svrMask.of it.head) k && d.bitAt F.HIF_TAKEN_taken k p.other.id
  let latched := (List.range 16).any fun k => taken k && (d.ring p.other k).items.any fun x => x.phase == .latched
  if descOp it.head == 0x60 && it.phase == .acting && it.cur == 1 && !latched then
    d.modItem p r it.idx fun x => { x with phase := .done, status := 0 }
  else d

/-- An explicit salvo that no switch point is left for is dropped or fails when the latch point passes without it (R274,
R292). -/
def Dev.expire (d : Dev) (p : Port) (r : Nat) (it : Item) : Dev :=
  let missed (f : Nat) : Bool := decide (d.tL it.cls f ≤ d.epoch) && !(it.phase == .secured && decide (it.secAt < d.tL it.cls f))
  if !it.isSalvo || !it.unlatched || it.asap || !d.clsOn it.cls then d
  else
    let a := if it.late then it.target - 1 else it.target
    if D.dropIfLate.on it.head then (if missed a then d.dropLate p r it else d)
    else if missed (a + 1) then d.failItem p r it.idx 0x18 0 else d

/-- SALVO_COMPLETION_POST (R277): what remains of the ring's first item lands, and it completes once it is decided. -/
def execSalvoCompletionPost (t : Nat) (port : Port) (ring : Nat) (s : State) : Host.Outcome State Fault Refusal :=
  onDev (ringOk ring) t s fun d =>
    let d := d.landDue
    match (d.ring port ring).items with
    | [] => d
    | it :: _ => (((d.takeoverDone port ring it).expire port ring it).decide' port ring it).recordEarlier port ring
        |>.postFirst port ring

/-! ### The commands of a salvo's descriptors -/

/-- The salvo of a ring whose next descriptor is to be judged by its own command: the next item to be validated. -/
def Dev.judging (d : Dev) (p : Port) (r : Nat) : Option Item :=
  match d.nextToValidate p r with
  | some it => if it.isSalvo && it.phase == .delivered then some it else none
  | none => none

/-- The next entry of the salvo under validation is judged where it is of an opcode; CCT entries it misses are asked
for. -/
def Dev.judgeEntry (d : Dev) (p : Port) (r op : Nat) : Option Dev :=
  match d.judging p r with
  | none => none
  | some it =>
    if it.cur = 0 then none
    else
      match it.entries[it.cur - 1]? with
      | none => none
      | some b =>
        if descOp b ≠ op then none
        else
          let c := d.checkEntries p r it it.cur
          if c.status ≠ 0 then some (d.failItem p r it.idx c.status c.entry)
          else if !c.reads.isEmpty then some ((d.modItem p r it.idx fun x => { x with phase := .waiting, need := c.reads }).askCct p)
          else some (d.modItem p r it.idx fun x => { x with cur := x.cur + 1 })

/-- The first due entry of an opcode of the ring's latched salvos lands. -/
def Dev.landNext (d : Dev) (p : Port) (r op : Nat) : Dev :=
  match (d.ring p r).items.find? fun it => it.phase == .latched
      && it.numbered.any fun e => descOp e.2 == op && !it.landed.contains e.1 && decide (d.dueAt it e.2 ≤ d.epoch) with
  | some it => d.landItem p r it.idx (fun b => descOp b == op) 1
  | none => d

/-- The command of a salvo entry: the entry is judged while its salvo is validated, and lands once it is due. -/
def Dev.entryCmd (d : Dev) (p : Port) (r op : Nat) : Dev := (d.judgeEntry p r op).getD (d.landNext p r op)

/-- SALVO (R273): the header of the salvo to be validated next is judged: its descriptors, its authentication, its
class and its frame. -/
def execSalvo (t : Nat) (port : Port) (ring : Nat) (s : State) : Host.Outcome State Fault Refusal :=
  onDev (ringOk ring) t s fun d =>
    match d.judging port ring with
    | none => d
    | some it =>
      if it.cur ≠ 0 then d
      else
        let v := d.headVerdict port ring it
        if v.1 ≠ 0 then d.failItem port ring it.idx v.1 v.2.1 v.2.2
        else d.modItem port ring it.idx fun x => { x with cur := 1 }

/-- AUTH (R514): the tag and key_gen of the salvo to be validated next are verified. -/
def execAuth (t : Nat) (port : Port) (ring : Nat) (s : State) : Host.Outcome State Fault Refusal :=
  onDev (ringOk ring) t s fun d =>
    match d.judging port ring with
    | none => d
    | some it =>
      if !it.auth then d
      else
        let v := d.authVerdict port ring it
        if v.1 ≠ 0 then d.failItem port ring it.idx v.1 v.2.1 v.2.2
        else d.modItem port ring it.idx fun x => { x with authOk := true }

/-- TAKE_VIDEO (R270). -/
def execTakeVideo (t : Nat) (port : Port) (ring : Nat) (s : State) : Host.Outcome State Fault Refusal :=
  onDev (ringOk ring) t s fun d => d.entryCmd port ring 0x10

/-- TAKE_AUDIO (R388). -/
def execTakeAudio (t : Nat) (port : Port) (ring : Nat) (s : State) : Host.Outcome State Fault Refusal :=
  onDev (ringOk ring) t s fun d => d.entryCmd port ring 0x11

/-- TAKE_FORMAT (R216); its effect comes with the raster change. -/
def execTakeFormat (t : Nat) (port : Port) (ring : Nat) (s : State) : Host.Outcome State Fault Refusal :=
  onDev (ringOk ring) t s fun d => d.entryCmd port ring 0x12

/-- TAKE_OVERLAY (R566). -/
def execTakeOverlay (t : Nat) (port : Port) (ring : Nat) (s : State) : Host.Outcome State Fault Refusal :=
  onDev (ringOk ring) t s fun d => d.entryCmd port ring 0x13

/-- CONV_OPEN (R353). -/
def execConvOpen (t : Nat) (port : Port) (ring : Nat) (s : State) : Host.Outcome State Fault Refusal :=
  onDev (ringOk ring) t s fun d => d.entryCmd port ring 0x14

/-- CONV_CLOSE (R327). -/
def execConvClose (t : Nat) (port : Port) (ring : Nat) (s : State) : Host.Outcome State Fault Refusal :=
  onDev (ringOk ring) t s fun d => d.entryCmd port ring 0x15

/-- SYNC_OPEN (R330). -/
def execSyncOpen (t : Nat) (port : Port) (ring : Nat) (s : State) : Host.Outcome State Fault Refusal :=
  onDev (ringOk ring) t s fun d => d.entryCmd port ring 0x16

/-- RESOURCE_RETURN (R326, R355): the end of the switch line on which the channel or set closed. -/
def execResourceReturn (t : Nat) (plane : Plane) (id : Nat) (s : State) : Host.Outcome State Fault Refusal :=
  onDev (idOk id) t s fun d =>
    let d := d.landDue
    let o := d.owner plane id
    if o.closing && decide (o.closeAt ≤ d.epoch) then d.returnOwner plane id else d

end Sys2Proof.Machine
end

