-- ==== Sys2Proof/Machine/Frames.lean ====
section
/-! DEFINITION. The frame stores of Hamper channels (R318, R331, R332, R357-R359): what input stages write, what readers
select (R333, R336, R363), and pages that follow a channel's need (R328). -/

namespace Sys2Proof.Machine

/-! ### Layout of a stored frame -/

/-- The last line of field 1 (R358); 0 for a progressive format. -/
def fieldEnd (c : Nat) : Nat := if c = 1 then 263 else if c = 2 then 313 else if fmtInter c then 563 else 0

/-- The place of an active line among the frame's active lines, in line order. -/
def activeIdx (c k : Nat) : Nat :=
  if c = 1 then (if k ≤ 263 then k - 20 else 244 + (k - 283))
  else if c = 2 then (if k ≤ 310 then k - 23 else 288 + (k - 336))
  else if c < 0x20 then k - 26
  else if fmtInter c then (if k ≤ 560 then k - 21 else 540 + (k - 584))
  else k - 42

/-- Address in the plane's Hamper of line `k` of member `m` in frame buffer `f` of an owner (R318, R340; log 18). -/
def lineAddr (id c f m k : Nat) : Nat :=
  id * 2 ^ 36 + f * 2 ^ 27 + m * videoPages c * 8192 + activeIdx c k * fmtWords c * 4

/-- The mark of a stored line. -/
def lineMark (m : Nat) (u : Unit') : Nat := u.line + 4096 * m + 16384 * b2n (hBlack u.hdr) + 32768 * b2n (hAbort u.hdr)

/-- The stored mark of line `k` of member `m`. -/
def Buf.mark (b : Buf) (m k : Nat) : Option Nat := b.lines.find? fun x => x % 16384 == k + 4096 * m

/-- A frame buffer of an owner. -/
def Owner.buf (o : Owner) (i : Nat) : Buf := Tbl.get {} o.bufs i

/-- The records that fit a budget of words, in order, and how many do not. -/
def fitAnc : Nat → List (List Word) → List Word × Nat
  | _, [] => ([], 0)
  | n, r :: rest =>
    if r.length ≤ n then
      let x := fitAnc (n - r.length) rest
      (r ++ x.1, x.2)
    else
      let x := fitAnc n rest
      (x.1, x.2 + 1)

/-- The first records, at most `n` and together at most `room` words, that fit (R142, Table 4-3). -/
def fitRecords : Nat → Nat → List (List Word) → List (List Word)
  | 0, _, _ => []
  | _, _, [] => []
  | n + 1, room, r :: rest =>
    if r.length ≤ room then r :: fitRecords n (room - r.length) rest else fitRecords (n + 1) room rest

/-- Audio packets of ST 299-1 and ST 272, which the Audio Exchange takes out (R381, log 8). -/
def audioDid (did : Nat) : Bool := decide (0xE0 ≤ did ∧ did ≤ 0xE7) || decide (0xEC ≤ did ∧ did ≤ 0xEF) || decide (0xF8 ≤ did)

/-! ### Readers -/

/-- Line period of an output's raster times `num` x `L`, and that product: `H = hNum / hDen` u. -/
def hNum (c : Nat) : Nat := rateDen (fmtRate c) * secU
/-- The divisor of `hNum`. -/
def hDen (c : Nat) : Nat := rateNum (fmtRate c) * fmtL c

/-- `a` lies before the read instant of a line that starts at `to` (R183). -/
def beforeRead (c tOut a : Nat) : Bool := decide (2 * a * hDen c + hNum c < 2 * tOut * hDen c)

/-- `a` is the read instant of a line that starts at `to`, or later (R183). -/
def atRead (c tOut a : Nat) : Bool := !beforeRead c tOut a

/-- The readers of a channel on a plane: outputs that scan it and outputs that read it for audio alone. -/
def Dev.readersOf (d : Dev) (p : Plane) (id : Nat) : List Reader :=
  (d.scanners p id).map (fun o => (d.op o p).reader) ++
    (if isSync id then (d.audioReaders p id).map fun o => Tbl.get {} (d.op o p).aread id else [])

/-- The newest complete frame of a channel whose completion satisfies a condition. -/
def Owner.newestFrame (o : Owner) (ok : Nat → Bool) : Option (Nat × Buf × Nat) :=
  o.bufs.foldl (fun best x =>
    match x.2.complete with
    | none => best
    | some c =>
      if !ok c then best
      else match best with
        | some (_, _, c') => if c' < c then some (x.1, x.2, c) else best
        | none => some (x.1, x.2, c)) none

/-- Repeats shown before black (Table 9-2): 0 acts as 1, 255 sets no limit. -/
def holdOver' (hold reps : Nat) : Bool := hold != 255 && decide (Nat.max 1 hold < reps)

/-- A reader of a frame-sync channel selects for output frame `f` (R333, R336); the frames dropped and repeated. -/
def Reader.selectSync (r : Reader) (o : Owner) (ok : Nat → Bool) (f : Nat) : Reader × Nat × Nat :=
  let r := { r with at' := some f }
  match o.newestFrame ok with
  | none => ({ r with sel := none, black := true }, 0, 0)
  | some (i, b, c) =>
    if r.sel = some c then
      ({ r with reps := r.reps + 1, black := holdOver' (C.hold.of o.cct) (r.reps + 1) }, 0, 1)
    else
      let drops := if r.sel.isNone then 0 else b.n - (r.n + 1)
      ({ r with sel := some c, buf := i, reps := 0, black := false, n := b.n, field := 0 }, drops, 0)

/-- A reader of a conversion channel takes the newest channel frame that ended by the read instant (R363). -/
def Reader.selectConv (r : Reader) (o : Owner) (ended : Nat → Bool) (f : Nat) : Reader :=
  match o.frames.find? fun x => ended x.j with
  | none => { r with at' := some f, black := true }
  | some x => { r with at' := some f, sel := some x.j, black := x.state != .computed, n := x.unitN, field := x.unitField }

/-- A reader of channel `id` selects for output frame `f` of output `o`, whose line 1 starts at `to`; HAM_SYNC_STATE's
counts follow (R336, R343). -/
def Dev.selectFor (d : Dev) (p : Plane) (id : Nat) (r : Reader) (c f tOut : Nat) : Reader × Dev :=
  let o := d.owner p id
  if !o.isOpen || o.aborted && isSync id then ({ r with at' := some f, sel := none, black := true }, d)
  else if isSync id then
    let x := r.selectSync o (fun a => beforeRead c tOut a) f
    (x.1, d.modOwner p id fun o => { o with drops := satAdd 8 o.drops x.2.1, repeats := satAdd 8 o.repeats x.2.2 })
  else (r.selectConv o (fun j => atRead c tOut (frameStart (fmtRate o.fmtOut) (j + 1))) f, d)

/-- HAM_SYNC_STATE of a frame-sync channel updated (R343). -/
def Dev.pubSync (d : Dev) (p : Plane) (id : Nat) : Dev :=
  let o := d.owner p id
  if !isSync id || !o.isOpen then d
  else
    let black := (d.readersOf p id).any fun r => r.at'.isSome && r.black
    let w := 1 + 2 * o.depth + 32 * o.newest.getD 0 + 512 * b2n black + 65536 * o.drops + 16777216 * o.repeats
    d.modOwner p id fun o => { o with pub := BitVec.ofNat 32 w }

/-- An underrun of a plane for an output: the rest of the frame is built missed, or its overlay is transparent, and the
enabled event is raised, once a frame and kind (R238, R239, Table 6-1). -/
def Dev.underrun (d : Dev) (o : Nat) (p : Plane) (scan : Bool) : Dev :=
  let h := d.headOf o
  let x := d.op h p
  if (if scan then x.under else x.ovlUnder) then d
  else
    let d := d.modOp h p fun x => if scan then { x with under := true } else { x with ovlUnder := true }
    d.when (outEvEn (d.out h).cct 3) fun d => d.occur (evRaster h 3) 0x04 0 0 (p.id + 2 * b2n scan)

/-! ### Pages that follow the need (R328) -/

/-- An open conversion channel's pages at a frame start: growth from its reserved pages, then from the pool up to
max_pages, else a Hamper abort, and its readers' scan-out underruns; pages above max(min_pages, need) return. -/
def Dev.followNeed (d : Dev) (p : Plane) (id : Nat) : Dev :=
  let o := d.owner p id
  let n := d.needNow p id
  if !isConv id || !o.isOpen || o.aborted || n == o.owned then d
  else if n < o.owned then
    let keep := Nat.max o.minPages n
    let back := o.owned + o.reserved - keep
    (d.giveBack p ⟨back, 0, 0⟩ 0).modOwner p id fun o => { o with owned := n, reserved := keep - n, need := n }
  else
    let more := n - o.owned - Nat.min o.reserved (n - o.owned)
    if n ≤ o.maxPages ∧ more ≤ (d.pool p).pages then
      (d.setPool p ((d.pool p).sub ⟨more, 0, 0⟩)).modOwner p id fun o =>
        { o with owned := n, reserved := o.reserved - (n - o.owned), need := n }
    else (d.abortOwner p id false (frameAt (fmtRate o.fmtOut) d.epoch)).each (d.scanners p id) fun d o => d.underrun o p true

/-! ### The input stage (R182, R332, R357) -/

/-- A frame of a conversion channel holds a unit within the history of the channel frame being computed: the unit shown lies
Lp units before the anchor, and its history goes back from there (R357, R361). -/
def Dev.keeps (d : Dev) (p : Plane) (id n : Nat) : Bool :=
  let o := d.owner p id
  match o.anchor with
  | some (a, f, _, _) =>
    let pr := (d.profileOf (baseOf o.profile)).getD {}
    if fieldUnit o.profile o.fmtIn o.fmtOut then decide (2 * n ≤ 2 * a + f ∧ 2 * a + f ≤ 2 * n + 1 + pr.lp + pr.history)
    else decide (n ≤ a ∧ a ≤ n + pr.lp + pr.history)
  | none => false

/-- The oldest of some buffers. -/
def Owner.oldest (o : Owner) (l : List Nat) : Option Nat :=
  l.foldl (fun best i =>
    match best with
    | some j => if (o.buf i).begun < (o.buf j).begun then some i else some j
    | none => some i) none

/-- The buffer in which a new frame is written: the oldest that no reader holds, that is not the newest complete one,
and that is not kept. DEDUCED (log 60): where all of a conversion channel's are kept, the oldest but the newest complete one. -/
def Dev.chooseBuf (d : Dev) (p : Plane) (id : Nat) : Option Nat :=
  let o := d.owner p id
  let held := if isSync id then ((d.readersOf p id).filter fun r => r.sel.isSome).map (·.buf) else []
  let free := (List.range o.depth).filter fun i => !held.contains i && o.newest != some i
  let unit (b : Buf) : Bool := b.complete.isSome || b.field1.isSome
  (o.oldest (free.filter fun i => !(isConv id && unit (o.buf i) && d.keeps p id (o.buf i).n))).orElse fun _ =>
    if isConv id then o.oldest free else none

/-- A buffer takes one line of member `m`. -/
def Buf.store (b : Buf) (g c m budget : Nat) (u : Unit') : Buf × Nat :=
  let used := (b.anc.filter fun x => x.1 / 4096 == m).foldl (fun n x => n + x.2.length) 0
  let (anc, lost) := fitAnc (budget - used) (ancRecords 63 u.anc)
  let b := { b with lines := lineMark m u :: b.lines
                    anc := if anc.isEmpty then b.anc else (u.line + 4096 * m, anc) :: b.anc
                    aud := b.aud ++ u.aud.map fun s => (m, s.1, s.2.1, s.2.2) }
  let all (k : Nat) : Bool := (List.range g).all fun j => (b.mark j k).isSome
  let b := if u.line = fmtL c then { b with endAt := Nat.max b.endAt u.arrive } else b
  let b := if u.line = fieldEnd c then { b with fldAt := Nat.max b.fldAt u.arrive } else b
  let b := if b.field1.isNone && fieldEnd c != 0 && all (fieldEnd c) then { b with field1 := some b.fldAt } else b
  (if b.complete.isNone && all (fmtL c) then { b with complete := some b.endAt } else b, lost)

/-- A PX_ASRC channel takes the samples of a line that its mask names; it keeps what its delay can reach (R394). -/
def Owner.hear (o : Owner) (u : Unit') : Owner :=
  let new := (u.aud.filter fun s => bitOf (C.mask.of o.cct) s.1).map fun s => (s.1, s.2.1, s.2.2.toNat, u.arrive)
  let top := new.foldl (fun n s => Nat.max n s.2.1) 0
  { o with heard := (o.heard ++ new).filter fun s => decide (top ≤ s.2.1 + 9600) }

/-- The newest committed line of slot `i` passes into an open channel as member `m` of its source group. -/
def Dev.ingest (d : Dev) (mem : Memory) (p : Plane) (id m : Nat) (u : Unit') : Memory × Dev :=
  let o := d.owner p id
  let c := o.fmtIn
  if u.fmt ≠ c ∨ o.aborted = true ∨ Tbl.get 0 o.got m = u.arrive + 1 then (mem, d)
  else if baseOf o.profile = pxAsrc then (mem, d.modOwner p id fun o => { o.hear u with got := Tbl.set 0 o.got m (u.arrive + 1) })
  else
    let d := d.modOwner p id fun o => { o with got := Tbl.set 0 o.got m (u.arrive + 1) }
    let cnt := hFrame u.hdr
    let joins := match o.writing with
      | some w => (o.buf w).cnt == cnt && ((o.buf w).mark m 1).isNone
      | none => false
    let d :=
      if u.line = 1 ∧ !joins then
        let w := d.chooseBuf p id
        let n := frameFor (fmtRate c) (fmtL c) 1 u.arrive u.delay
        d.modOwner p id fun o =>
          { o with writing := w
                   bufs := match w with
                     | some w => Tbl.set {} o.bufs w { n := n, cnt := cnt, begun := u.arrive }
                     | none => o.bufs }
      else d
    match (d.owner p id).writing with
    | none => (mem, d)
    | some w =>
      let b := (d.owner p id).buf w
      if b.cnt ≠ cnt ∨ (b.mark m u.line).isSome then (mem, d)
      else
        let (b, lost) := b.store (fmtG c) c m (ancKib (o.anc id) * 256) u
        let done := b.complete.isSome
        let d := d.modOwner p id fun o =>
          { o with bufs := Tbl.set {} o.bufs w b, newest := if done then some w else o.newest
                   writing := if done then none else some w, ancOver := satAdd 16 o.ancOver lost }
        (if u.video.isEmpty then mem
          else Memory.writeN 0#8 mem (lineAddr id c w m u.line) (u.video.flatMap wordBytes), d)

/-- The open channels of a plane whose source group holds slot `i`, with the member that the slot is (R182). -/
def Dev.channelsOf (d : Dev) (p : Plane) (i : Nat) : List (Nat × Nat) :=
  ((d.plane p).owners.filter fun x => x.2.isOpen && !isSet x.1 && x.2.covers x.1 i (isSync x.1)).map fun x =>
    (x.1, i - if isSync x.1 then x.1 else x.2.src)

/-- HAMPER_INGEST (R182): within one line period of the commit. -/
def execHamperIngest (t : Nat) (plane : Plane) (slot : Nat) (s : State) : Host.Outcome State Fault Refusal :=
  onMem (slotOk slot) t s fun m d =>
    let d := d.landDue
    match (Tbl.get {} (d.plane plane).slots slot).units with
    | [] => (m, d)
    | u :: _ =>
      if !d.inService plane then (m, d)
      else
        let r := (d.channelsOf plane slot).foldl (fun (x : Memory × Dev) c => x.2.ingest x.1 plane c.1 c.2 u)
          (m.hamper.pl plane, d)
        ({ m with hamper := m.hamper.modPl plane fun _ => r.1 }, r.2)

end Sys2Proof.Machine
end

