-- ==== Sys2Proof/Machine/Picture.lean ====
section
/-! DEFINITION. Pictures: where a line's samples lie (R153, Table 4-6, R246), the overlay (R245-R248), black (R168), and the
colour stage of conversion channels (R367, R368). -/

namespace Sys2Proof.Machine

/-! ### Samples and overlays -/

/-- Row of the active picture of a sub-image that an active line carries (R246). -/
def pictureRow (c k : Nat) : Nat :=
  if c = 1 then (if k ≤ 263 then 2 * (k - 20) else 2 * (k - 283) + 1)
  else if c = 2 then (if k ≤ 310 then 2 * (k - 23) else 2 * (k - 336) + 1)
  else if c < 0x20 then k - 26
  else if fmtInter c then (if k ≤ 560 then 2 * (k - 21) else 2 * (k - 584) + 1)
  else k - 42

/-- Row of the full picture that line `k` of sub-image `sub` carries. -/
def fullRow (c sub k : Nat) : Nat :=
  let y := pictureRow c k
  if c < 0x50 then y else if c < 0x58 then y + 1080 * (sub / 2) else 2 * y + sub / 2

/-- Component and column of the full picture of sample `s` of a line (Table 4-6): 0 Y, G′; 1 Cb, B′; 2 Cr, R′; 3 A. -/
def samplePlace (c sub s : Nat) : Nat × Nat :=
  let q := s / 4
  let r := s % 4
  let x := if r = 3 then 2 * q + 1 else 2 * q
  let comp := if r = 0 then 1 else if r = 2 then 2 else 0
  if c < 0x40 then (comp, x)
  else if c < 0x50 then
    if sub = 0 then (comp, x) else (if r % 2 = 1 then 3 else comp, if r % 2 = 1 then x else 2 * q + 1)
  else if c < 0x58 then (comp, x + 1920 * (sub % 2))
  else (comp, 4 * (x / 2) + 2 * (sub % 2) + x % 2)

/-- The enabled window covers line `k` of a sub-image (R245, R246). -/
def Overlay.onLine (v : Overlay) (c sub k : Nat) : Bool :=
  v.enable && fmtActive c k && decide (v.y0 ≤ fullRow c sub k ∧ fullRow c sub k < v.y0 + v.height) && decide (0 < v.width)

/-- One component mixed with its palette entry (R247). -/
def mixSample (entry comp v : Nat) : Nat :=
  let a := bits entry 37 30
  let p := if comp = 0 then bits entry 9 0 else if comp = 1 then bits entry 19 10 else bits entry 29 20
  (a * p + (255 - a) * v + 127) / 255

/-- 10-bit samples of video words (R153). -/
def unpack10 (ws : List Word) : List Nat :=
  let v := ofLe (ws.flatMap wordBytes)
  (List.range (32 * ws.length / 10)).map fun s => (v >>> (10 * s)) % 1024

/-- A line's video words with the overlay mixed in (R246, R247). -/
def mixLine (mem : Memory) (pal : List Byte) (v : Overlay) (c sub k : Nat) (ws : List Word) : List Word :=
  let row := v.set * 2 ^ 36 + v.addr + (fullRow c sub k - v.y0) * v.stride
  let ss := unpack10 ws
  let mixed := (List.range ss.length).map fun s =>
    let x := ss.getD s 0
    let (comp, col) := samplePlace c sub s
    if comp = 3 ∨ col < v.x0 ∨ v.x0 + v.width ≤ col then x
    else
      let bit := (col - v.x0) * 2 ^ v.bpp
      let idx := ((Memory.read 0#8 mem (row + bit / 8)).toNat >>> (bit % 8)) % 2 ^ (2 ^ v.bpp)
      mixSample (fieldAt pal (8 * idx) 8) comp x
  pack10 ws.length mixed

/-- Video words of black (R168). -/
def blackWords (c sub : Nat) : List Word :=
  let n := fmtWords c
  pack10 n ((List.range (32 * n / 10)).map fun s =>
    let comp := (samplePlace c sub s).1
    if comp = 0 ∨ comp = 3 ∨ fmtRgb c then 0x040 else 0x200)

/-! ### The colour stage (R367, R368) -/

/-- Component `comp` (0 R', 1 G', 2 B') of LUT entry `at'`; i0 indexes R' (R368). -/
def lutEntry (lut : List Byte) (at' : Nat × Nat × Nat) (comp : Nat) : Nat :=
  fieldAt lut (6 * (at'.1 + 33 * at'.2.1 + 1089 * at'.2.2) + 2 * comp) 2

/-- The grid cell of a 10-bit code, which lies at x * 32 / 1,023, and its place in the cell in 1,023rds (R368). -/
def gridPlace (x : Nat) : Nat × Nat :=
  let i := Nat.min 31 (x * 32 / 1023)
  (i, x * 32 - 1023 * i)

/-- One grid step along an axis. -/
def gridStep (at' : Nat × Nat × Nat) (axis : Nat) : Nat × Nat × Nat :=
  if axis = 0 then (at'.1 + 1, at'.2.1, at'.2.2) else if axis = 1 then (at'.1, at'.2.1 + 1, at'.2.2) else (at'.1, at'.2.1, at'.2.2 + 1)

/-- An axis put in its place among axes ordered by falling place in the cell. -/
def insertAxis (x : Nat × Nat) : List (Nat × Nat) → List (Nat × Nat)
  | [] => [x]
  | y :: r => if y.1 < x.1 then x :: y :: r else y :: insertAxis x r

/-- 1,023 times the value of a component interpolated over the tetrahedron that holds the codes: from the cell's corner, one
step along each axis in the order of falling places (R368). -/
def tetra (lut : List Byte) (rgb : Nat × Nat × Nat) (comp : Nat) : Nat :=
  let (r, g, b) := (gridPlace rgb.1, gridPlace rgb.2.1, gridPlace rgb.2.2)
  let axes := insertAxis (r.2, 0) (insertAxis (g.2, 1) (insertAxis (b.2, 2) []))
  let x := axes.foldl (fun (x : Nat × Nat × (Nat × Nat × Nat)) a =>
    (x.1 + (x.2.1 - a.1) * lutEntry lut x.2.2 comp, a.1, gridStep x.2.2 a.2)) (0, 1023, (r.1, g.1, b.1))
  x.1 + x.2.1 * lutEntry lut x.2.2 comp

/-- What the stage returns for a component: (v + 32) >> 6 of the interpolated value (R368). DEDUCED (log 60): v is exact. -/
def lutCode (lut : List Byte) (rgb : Nat × Nat × Nat) (comp : Nat) : Nat :=
  let v := tetra lut rgb comp
  let x := (v + 32 * 1023) / (64 * 1023)
  if x < 1024 then x else Config.lutTop v % 1024

/-- Step 3: the LUT, or the identity where there is none (R367, R368). -/
def lutStage (lut : List Byte) (rgb : Nat × Nat × Nat) : Nat × Nat × Nat :=
  if lut.isEmpty then rgb else (lutCode lut rgb 0, lutCode lut rgb 1, lutCode lut rgb 2)

/-- R', G' and B' at column `x` of a line of an R'G'B' format, whose links share them out (Table 4-6); `base j s` is sample `s`
of member `j`. -/
def rgbAt (base : Nat → Nat → Nat) (x : Nat) : Nat × Nat × Nat :=
  let q := 4 * (x / 2)
  (base (x % 2) (q + 2), base 0 (q + 1 + 2 * (x % 2)), base (x % 2) q)

/-- A line of member `j` after the colour stage (R367): `base j s` is sample `s` of member `j` after the base profile, `up x` the
R', G' and B' codes of column `x` after steps 1 and 2, `down` steps 4 and 5; the A positions pass unaltered. -/
def colourLine (c j : Nat) (lut : List Byte) (base : Nat → Nat → Nat) (up : Nat → Nat × Nat × Nat)
    (down : List (Nat × Nat × Nat) → Nat → Nat) : List Nat :=
  let ss := List.range (32 * fmtWords c / 10)
  let cols := (ss.filter fun s => (samplePlace c j s).1 == 0).map fun s => (samplePlace c j s).2
  let row := cols.map fun x => lutStage lut (up x)
  ss.map fun s =>
    let (comp, x) := samplePlace c j s
    if comp = 3 then base j s
    else if fmtRgb c then
      let v := lutStage lut (rgbAt base x)
      if comp = 0 then v.2.1 else if comp = 1 then v.2.2 else v.1
    else down row s % 1024

/-- The video words of line `k` of member `j` of a computed frame (R344, R367). -/
def frameWords (profile : Nat) (f : Frame) (c j k : Nat) : List Word :=
  let line (j : Nat) : Nat := 4096 * j + k
  let base (j s : Nat) : Nat := Config.sample profile f.inputs (line j) s % 1024
  pack10 (fmtWords c) <|
    if colourOf profile then
      colourLine c j f.lut base (fun x => Config.toRgb (C.inMatrix.of f.cct) profile f.inputs (line j) x)
        (Config.fromRgb (C.outMatrix.of f.cct))
    else (List.range (32 * fmtWords c / 10)).map (base j)

end Sys2Proof.Machine
end

