-- ==== Sys2Proof/Machine/Sound.lean ====
section
/-! DEFINITION. The Audio Exchange at the outputs (R383, R389-R403): what a destination's contribution holds at an output
sample slot, crossfades, path shifts, and the audio that a parcel carries. -/

namespace Sys2Proof.Machine

/-! ### Contributions -/

/-- The reader of a destination's channel: the output's scan-out, or its audio reader (R392, R393). -/
def Dev.readerOf (d : Dev) (p : Plane) (o id : Nat) : Reader :=
  let x := d.op (d.headOf o) p
  if x.active.kind = 3 ∧ x.active.chan = id then x.reader else Tbl.get {} (d.op o p).aread id

/-- A stored sample of an owner: of member `m`, channel `ch`, sample index `k`. -/
def Owner.sample (o : Owner) (m ch : Nat) (k : Int) : Option Word :=
  o.bufs.findSome? fun x => (x.2.aud.find? fun s => s.1 == m && s.2.1 == ch && (s.2.2.1 : Int) == k).map fun s => s.2.2.2

/-- The source sample of a contribution at slot `k` (R383, R389, R390): none where the destination carries zero samples;
some none where the sample is missing. -/
def Dev.sourceAt (d : Dev) (p : Plane) (o : Nat) (c : Contrib) (k : Int) : Option (Option Word) :=
  let i := c.entry.src / 16
  let ch := c.entry.src % 16
  let stored (id : Nat) : Option (Option Word) :=
    match c.delta with
    | none => none
    | some z =>
      if (d.readerOf p o id).black then none
      else
        let w := d.owner p id
        some (w.sample (i - if isSync id then id else w.src) ch (k - z))
  match c.path with
  | .silent => none
  | .line => some (((Tbl.get {} (d.plane p).slots i).units.findSome? fun (u : Unit') =>
      (u.aud.find? fun s => s.1 == ch && (s.2.1 : Int) == k).map fun s => s.2.2))
  | .frame id => stored id
  | .chan id => stored id
  | .asrc j =>
    let id := 2304 + 96 * p.id + j
    let w := d.owner p id
    let cc := (c.entry.src - 18432) % 16
    if !w.isOpen || w.aborted || !bitOf (C.mask.of w.cct) cc then none
    else
      let delay := if C.asrcDelay.of w.cct = 0 then 480 else C.asrcDelay.of w.cct
      let ins := (w.heard.filter fun s => s.1 == cc).flatMap fun s => [s.2.1, s.2.2.1, s.2.2.2]
      some (some (BitVec.ofNat 32 ((Config.resampled ([w.src, cc, delay, w.e] ++ ins) k.toNat).toNat % 2 ^ 28 + 2 ^ 28)))

/-- A source sample is of class DATA (R384). -/
def isDataSample : Option (Option Word) → Bool
  | some (some w) => w.toNat / 2 ^ 28 == 2
  | _ => false

/-- The value of a contribution for a 24-bit source sample (R395); DATA passes bit-exact. -/
def contribValue (e : AEntry) (data : Bool) (x : Int) : Int :=
  if e.mute then 0
  else if data then x
  else
    let v := (x * (e.gain : Int) + 4096) / 8192
    let v := if e.invert then -v else v
    max (-8388608) (min 8388607 v)

/-- Sample `j` of a crossfade over `n` samples from `a` to `b` (R396). -/
def fadeAt (a b : Int) (n j : Nat) : Int :=
  (a * ((n - j : Nat) : Int) + b * ((j + 1 : Nat) : Int) + (((n + 1) / 2 : Nat) : Int)) / ((n + 1 : Nat) : Int)

/-- A contribution's value at slot `k`. -/
def Dev.valueAt (d : Dev) (p : Plane) (o : Nat) (c : Contrib) (k : Int) : Int :=
  let s := d.sourceAt p o c k
  let x : Int := match s with
    | some (some w) => toInt 24 w.toNat
    | _ => 0
  contribValue c.entry (isDataSample s) x

/-- The contributions in force at slot `k`: the present one, and with a crossfade the one it fades from, the crossfade's
length and the sample's place in it. -/
def Dest.inForce (x : Dest) (k : Int) : Contrib × Option (Contrib × Nat × Nat) :=
  let one (now : Contrib) (old : Option Contrib) (ksw : Int) (len : Nat) : Contrib × Option (Contrib × Nat × Nat) :=
    match old with
    | none => (now, none)
    | some a => if k < ksw then (a, none) else if k < ksw + (len : Int) then (now, some (a, len, (k - ksw).toNat)) else (now, none)
  if k < x.ksw then
    match x.prior with
    | some (now, old, ksw, len) => one now old ksw len
    | none => one x.now x.old x.ksw x.len
  else one x.now x.old x.ksw x.len

/-- What a destination carries at a slot: its sample word, whether its source sample is DATA, the slot at which its last
channel-status block began, and the sources whose samples are missing. -/
structure Carried where
  word : Word
  data : Bool
  block : Int
  missing : List Nat
  deriving DecidableEq, Repr

/-- What a destination carries at slot `k` (R390, R396, R403). -/
def Dev.destWord (d : Dev) (p : Plane) (a : Nat) (x : Dest) (k : Int) : Carried :=
  let o := a / 16
  let (c, fade) := x.inForce k
  let v := d.valueAt p o c k
  let v := match fade with
    | some (old, n, j) => fadeAt (d.valueAt p o old k) v n j
    | none => v
  let src := d.sourceAt p o c k
  let bits : Option Nat := match src with
    | some (some w) => some (w.toNat / 2 ^ 24 % 16)
    | _ => none
  let block := if bits.any fun n => bitOf n 3 then k else x.block
  let pos := ((k - block) % 192).toNat
  let high := match bits.filter fun _ => !c.entry.mute with
    | some n => n
    | none => b2n (csBit pos) * 4 + b2n (pos == 0) * 8
  let lost (c : Contrib) : List Nat := if d.sourceAt p o c k = some none then [c.entry.src] else []
  { word := BitVec.ofNat 32 (ofInt 24 v + high * 2 ^ 24), data := isDataSample src, block := block
    missing := lost c ++ fade.elim [] fun y => lost y.1 }

/-! ### Path shifts (R392, R399) -/

/-- The first sample index at or after the nominal start of a unit on the source's grid. -/
def unitStart (c n field : Nat) : Int :=
  (ceilDiv (48000 * (n * fmtL c + if field = 1 then fieldEnd c else 0) * rateDen (fmtRate c)) (rateNum (fmtRate c) * fmtL c) : Nat)

/-- The unit `k` units after one. -/
def unitAfter (fields : Bool) (n field k : Nat) : Nat × Nat :=
  if fields then ((2 * n + field + k) / 2, (2 * n + field + k) % 2) else (n + k, 0)

/-- Units of a channel's source that one frame of an output takes. -/
def unitsPer (fields : Bool) (fmtIn fmtOut : Nat) : Nat :=
  let n := rateNum (fmtRate fmtIn) * rateDen (fmtRate fmtOut) * (if fields then 2 else 1)
  Nat.max 1 (n / (rateDen (fmtRate fmtIn) * rateNum (fmtRate fmtOut)))

/-- A destination's path shift while its reader holds no frame: it is to be set anew (R392). -/
def Dev.unsetShift (d : Dev) (p : Plane) (a : Nat) : Dev := d.modDest p a fun x => { x with now := { x.now with delta := none } }

/-- A destination's path shift after its reader has gone from `old` to `new` at the start of output frame `f` (R392,
R399). -/
def Dev.shiftDest (d : Dev) (p : Plane) (a id f : Nat) (old new : Reader) : Dev :=
  let o := a / 16
  let w := d.owner p id
  let x := d.dest p a
  let fields := isConv id && fieldUnit w.profile w.fmtIn w.fmtOut
  let out := (d.out (d.headOf o)).fmt
  let us (u : Nat × Nat) : Int := unitStart w.fmtIn u.1 u.2
  if new.sel.isNone then d.unsetShift p a
  else match x.now.delta with
    | none => if new.black then d else
      let z : Int := (samplesAt (fmtRate out) f : Nat) - us (new.n, new.field)
      d.modDest p a fun x => { x with now := { x.now with delta := some z } }
    | some z =>
      if isConv id && isFrc w.profile then d
      else
        let due := unitAfter fields old.n old.field (if isConv id then unitsPer fields w.fmtIn out else 1)
        let step := us due - us (new.n, new.field)
        if step = 0 then d
        else
          let c := { x.now with delta := some (z + step) }
          let data := d.isData x.now.entry.src
          let ksw := if data then d.slotAtLine o f (d.landLine (d.out (d.headOf o)).cls out) else d.slotAtLine o f 1
          (d.modDest p a fun x =>
            { now := c, old := some x.now, ksw := ksw, len := if data then 0 else 64, begin := d.epoch
              prior := some (x.now, x.old, x.ksw, x.len), block := x.block }).bump F.AX_CNT_DISC_shifts p.id

/-! ### Samples of a line (R157, R383, R401, R402) -/

/-- The first output sample slot at or after the start of the line `k - 1` lines into frame `f`. -/
def slotFrom (c f k : Nat) : Nat :=
  ceilDiv (48000 * (f * fmtL c + (k - 1)) * rateDen (fmtRate c)) (rateNum (fmtRate c) * fmtL c)

/-- Sample slots whose instants lie in line `k` of frame `f`. -/
def slotsOf (c f k : Nat) : List Nat := span (slotFrom c f k) (slotFrom c f (k + 1) - slotFrom c f k)

/-- Sample slots that the parcel of a line carries: those of the line before on an SDI-form output (R402). -/
def slotsCarried (c f k : Nat) (packet : Bool) : List Nat :=
  if packet then slotsOf c f k else if k = 1 then slotsOf c (f - 1) (fmtL c) else slotsOf c f (k - 1)

/-- Phase of the first slot of a line, in 1/256 sample period (Table 4-8). -/
def phaseOf (c f k : Nat) : Nat :=
  let n := 48000 * (f * fmtL c + (k - 1)) * rateDen (fmtRate c)
  let m := rateNum (fmtRate c) * fmtL c
  256 * (slotFrom c f k * m - n) / m

/-- The destinations of an output that are live on a plane (R401). -/
def Dev.live (d : Dev) (p : Plane) (o : Nat) : List Nat :=
  (List.range 16).filter fun c => (d.dest p (16 * o + c)).now.entry.src != 0x7FFF

/-- A missing sample of a source counted, on the plane and, by the first plane that builds the output, for the source's
event (R390). -/
def Dev.missSample (d : Dev) (p : Plane) (o src : Nat) : Dev :=
  let d := d.bump F.AX_CNT_MISS_missed p.id
  if p == .a || !(d.inService .a && d.computes (d.headOf o) .a) then d.modIn (src / 16) fun s => { s with audMiss := s.audMiss + 1 }
  else d

/-- At a crossfade's first slot a contribution of class DATA makes it a cut (R398). -/
def Dev.cutFade (d : Dev) (p : Plane) (a : Nat) (x : Dest) (k : Int) : Dest :=
  let data (c : Contrib) : Bool := isDataSample (d.sourceAt p (a / 16) c k)
  if k = x.ksw ∧ (data x.now || x.old.any data) = true then { x with len := 0 } else x

/-- One destination's words over the slots a line carries, and whether each is DATA; its block start, and its missing
samples counted. -/
def Dev.destWords (d : Dev) (p : Plane) (a : Nat) : List Nat → List (Word × Bool) × Dev
  | [] => ([], d)
  | k :: ks =>
    let x := d.cutFade p a (d.dest p a) k
    let c := d.destWord p a x k
    let d := d.when (d.dest p a != { x with block := c.block }) fun d => d.modDest p a fun _ => { x with block := c.block }
    let d := d.each c.missing fun d src => d.missSample p (a / 16) src
    let r := Dev.destWords d p a ks
    ((c.word, c.data) :: r.1, r.2)

/-- PCM rounded to 20 bits with saturation, DATA truncated (R401). -/
def to20 (data : Bool) (w : Word) : Word :=
  let x := toInt 24 w.toNat
  let v := if data then x / 16 * 16 else min 8388592 ((x + 8) / 16 * 16)
  BitVec.ofNat 32 (w.toNat / 2 ^ 24 * 2 ^ 24 + ofInt 24 v)

/-- The audio of a line: ANC records for an SDI-form output, or the audio block and its times for a packet-form one; the
frame's first block bears a timestamp (R167). -/
def Dev.lineAudio (d : Dev) (p : Plane) (o c f k : Nat) (packet : Bool) : (List (List Word) × Nat × List Word) × Dev :=
  let slots := slotsCarried c f k packet
  let live := d.live p o
  let chans := if packet then live else (List.range 16).filter fun ch => live.any fun l => l / 4 == ch / 4
  let (cols, d) := chans.foldl (fun (x : List (Nat × List Word) × Dev) ch =>
    let r := x.2.destWords p (16 * o + ch) slots
    let ws := r.1.map fun w => if c < 0x10 ∧ !packet then to20 w.2 w.1 else w.1
    (x.1 ++ [(ch, ws)], r.2)) ([], d)
  if live.isEmpty then (([], 0, []), d)
  else if packet then
    if slots.isEmpty then (([], 0, []), d)
    else
      let mask := live.foldl (fun m ch => m + 2 ^ ch) 0
      let first := (d.op o p).tsFrame != some f
      let d := d.modOp o p fun x => { x with tsFrame := some f }
      let head := mask + phaseOf c f k * 2 ^ 16 + b2n first * 2 ^ 24
      let words := (List.range slots.length).flatMap fun j => cols.map fun x => x.2.getD j 0#32
      (([], slots.length, BitVec.ofNat 32 head :: (if first then [BitVec.ofNat 32 (slotFrom c f k)] else []) ++ words), d)
  else
    let from' := if k = 1 then (f - 1, fmtL c) else (f, k - 1)
    let groups := ((List.range 4).filter fun g => live.any fun ch => ch / 4 == g).map fun g =>
      (g, ((List.range 4).filter fun j => live.contains (4 * g + j)).foldl (fun m j => m + 2 ^ j) 0)
    let word (ch j : Nat) : Word := ((cols.find? fun x => x.1 == ch).bind fun x => x.2[j]?).getD 0#32
    ((embed c k (slots.map (clockPhase c from'.1 from'.2)) groups word, 0, []), d)

/-- A crossfade of an output's destinations that began before `u` still runs at slot `k` (R233). -/
def Dev.fading (d : Dev) (p : Plane) (o u : Nat) (k : Int) : Bool :=
  ((d.plane p).dests.filter fun x => d.headOf (x.1 / 16) == o).any fun x =>
    decide (0 < x.2.len) && decide (x.2.begin < u) && decide (k < x.2.ksw + (x.2.len : Int))

end Sys2Proof.Machine
end

