-- ==== Sys2Proof/Machine/Lines.lean ====
section
/-! DEFINITION. Output lines: the building of a line's parcel by a plane (R165-R168, R183-R185,
R204, R205, R212, R238, R239), frame starts (R312, R333, R363, R389), and a plane's copying-in (R301); LINE_READ and
OUTPUT_FRAME_START. -/

namespace Sys2Proof.Machine

/-! ### Control table errors (R212, R387, R563) -/

/-- The crosspoint map's check of an entry finds `e`. -/
def Dev.mapCheck (d : Dev) (p : Plane) (o : Nat) (pend : Bool) (e : Ecc) : Dev :=
  let i := p.id
  let capture (d : Dev) (unc : Bool) : Dev :=
    if d.flag F.LX_ECC_ADDR_valid i then d
    else
      let d := ((d.wr F.LX_ECC_ADDR_slot o i).put F.LX_ECC_ADDR_pending pend i).put F.LX_ECC_ADDR_uncorr unc i
      (d.draw.2.wr F.LX_ECC_ADDR_syndrome (Config.syndrome d.draw.1) i).raise F.LX_ECC_ADDR_valid i
  match e with
  | .clean => d
  | .corrected => (capture d false).bump F.LX_ECC_CNT_corrected i
  | .uncorrectable =>
    (((capture d true).bump F.LX_ECC_CNT_uncorrected i).raise F.LX_STATUS_map_fault i).planeFault p 1

/-- The Audio Map's check of an entry finds `e`. -/
def Dev.audioCheck (d : Dev) (p : Plane) (dst : Nat) (e : Ecc) : Dev :=
  let i := p.id
  let capture (d : Dev) (unc : Bool) : Dev :=
    if d.flag F.AX_ECC_ADDR_valid i then d
    else
      let d := (d.wr F.AX_ECC_ADDR_dst dst i).put F.AX_ECC_ADDR_uncorr unc i
      (d.draw.2.wr F.AX_ECC_ADDR_syndrome (Config.syndrome d.draw.1) i).raise F.AX_ECC_ADDR_valid i
  match e with
  | .clean => d
  | .corrected => ((capture d false).bump F.AX_ECC_CNT_corrected i).occur (evAx p) 0x5C
  | .uncorrectable =>
    (((capture d true).bump F.AX_ECC_CNT_uncorrected i).raise F.AX_STATUS_map_fault i).planeFault p 2

/-- The Page Map's check of an entry finds `e` (R319). -/
def Dev.pageCheck (d : Dev) (p : Plane) (page : Nat) (e : Ecc) : Dev :=
  let i := p.id
  let capture (d : Dev) (unc : Bool) : Dev :=
    if d.flag F.HAM_ECC_ADDR_valid i then d
    else
      let d := (d.wr F.HAM_ECC_ADDR_page page i).put F.HAM_ECC_ADDR_uncorr unc i
      (d.draw.2.wr F.HAM_ECC_ADDR_syndrome (Config.syndrome d.draw.1) i).raise F.HAM_ECC_ADDR_valid i
  match e with
  | .clean => d
  | .corrected =>
    let d := (capture d false).modPlane p fun x => { x with pmCorrected := satAdd 32 x.pmCorrected 1 }
    (d.bump F.HAM_ECC_CNT_corrected i).occur (evHam p) 0x5B
  | .uncorrectable => ((capture d true).bump F.HAM_ECC_CNT_uncorrected i).planeFault p 3

/-! ### Egress headers (Table 4-3, R166, R167) -/

/-- The header of an egress parcel. -/
def egressHeader (slot form sub c flags line plane hb frame tsw anc aud : Nat) : List Byte :=
  let h := le 2 (slot + form * 2048 + sub * 4096) ++ le 1 c ++ le 1 flags ++ le 2 (line + plane * 4096 + hb * 8192)
    ++ le 2 (frame % 65536) ++ le 4 tsw ++ le 2 (anc + aud * 64)
  h ++ le 2 (crc16 h)

/-- tsw of epoch frame `n` of a rate (R167). -/
def egressTsw (r n : Nat) : Nat := n * rateDen r * 90000 / rateNum r % 2 ^ 32

/-- Header flags: sw, fch, abort, black, rtp, vid. -/
def headerFlags (sw fch abort black rtp vid : Bool) : Nat :=
  b2n sw + 2 * b2n fch + 4 * b2n abort + 8 * b2n black + 16 * b2n rtp + 32 * b2n vid

/-! ### What a plane has for a line -/

/-- The picture of a line: black, abort, video words, ANC records. -/
structure Picture where
  black : Bool := false
  abort : Bool := false
  video : List Word := []
  anc : List (List Word) := []
  missed : Bool := false            -- missed on a timed route (R185)
  under : Bool := false             -- scan-out has not delivered the line (R238)
  deriving DecidableEq, Repr

/-- A line built as a missed line (R185, R150). -/
def missedLine (c k : Nat) : Picture := { black := fmtActive c k, abort := true }

/-- A committed unit is in window for a line that starts at `to` (R184). -/
def inWindow (u : Unit') (tOut : Nat) : Bool :=
  let a : Int := (u.arrive : Int) + (delayU u.delay (fmtRate u.fmt) (fmtL u.fmt) : Nat) - (tOut : Int)
  decide (-3 * (hNum u.fmt : Int) ≤ a * (hDen u.fmt : Int) ∧ a * (hDen u.fmt : Int) ≤ -(hNum u.fmt : Int))

/-- The unit of a slot that a timed route reads (R185). -/
def Dev.unitFor (d : Dev) (p : Plane) (i c k tOut : Nat) : Option Unit' :=
  (Tbl.get {} (d.plane p).slots i).units.find? fun u => u.line == k && u.fmt == c && inWindow u tOut

/-- DID of an ANC record. -/
def recordDid (r : List Word) : Nat := (r.getD 1 0#32).toNat % 256

/-- Records other than audio packets. -/
def dataRecords (ws : List Word) : List (List Word) := (ancRecords 63 ws).filter fun r => !audioDid (recordDid r)

/-- A timed route's line of member `j` (R163, R185, R204, R205). -/
def Dev.timedLine (d : Dev) (p : Plane) (src j c k tOut : Nat) : Picture :=
  let units := (group src (fmtG c)).map fun i => d.unitFor p i c k tOut
  if units.any (·.isNone) then { missedLine c k with missed := true }
  else match (units.getD j none) with
    | none => { missedLine c k with missed := true }
    | some u =>
      if hAbort u.hdr then missedLine c k
      else { black := hBlack u.hdr, video := u.video, anc := dataRecords u.anc }

/-- A frame-sync route's line of member `j` (R163, R332, R336). -/
def Dev.syncLine (d : Dev) (mem : Memory) (p : Plane) (id j k : Nat) (r : Reader) : Picture :=
  let o := d.owner p id
  let c := o.fmtIn
  if r.black then missedLine c k
  else
    let b := o.buf r.buf
    match b.mark j k with
    | none => missedLine c k
    | some x =>
      if 32768 ≤ x then missedLine c k
      else
        let black := decide (16384 ≤ x)
        let n := if fmtActive c k && !black then fmtWords c else 0
        { black := black, video := toWords n (Memory.readN 0#8 mem (lineAddr id c r.buf j k) (4 * n))
          anc := dataRecords (((b.anc.find? fun y => y.1 == k + 4096 * j).map (·.2)).getD []) }

/-- The packets that R371 builds anew for a channel frame: ATC, captions, AFD, payload ID. -/
def Frame.packets (f : Frame) (c : Nat) : List (List Nat) :=
  (f.atc.toList.map fun x => 1 :: b2n x.1 :: x.2) ++ (f.caption.toList.map fun x => 2 :: x)
    ++ (f.afd.toList.map fun x => [3, x.1, b2n x.2]) ++ [[4, c]]

/-- A conversion route's line of member `j` (R363, R371). -/
def Dev.convLine (d : Dev) (p : Plane) (id j k : Nat) (r : Reader) : Picture :=
  let o := d.owner p id
  let c := o.fmtOut
  if r.black then missedLine c k
  else match o.frames.find? fun f => r.sel == some f.j with
    | none => missedLine c k
    | some f =>
      { video := if fmtActive c k then frameWords o.profile f c j k else []
        anc := (f.anc.filter fun a => a.1 == 4096 * j + k).map (·.2) ++ Config.convAnc c (4096 * j + k) (f.packets c) }

/-! ### Frame starts -/

/-- A route's reader selects for output frame `f` where it has not yet done so (R333, R363), and the path shifts of the
destinations that follow it change (R392, R399). -/
def Dev.readFrame (d : Dev) (p : Plane) (o f tOut : Nat) : Dev :=
  let x := d.op o p
  let c := (d.out o).fmt
  if x.active.kind ≠ 3 ∨ x.reader.at' = some f then d
  else
    let id := x.active.chan
    let (r, d) := d.selectFor p id x.reader c f tOut
    let d := (d.modOp o p fun y => { y with reader := r }).pubSync p id
    let on (y : Nat × Dest) : Bool := d.headOf (y.1 / 16) == o && (y.2.now.path == .chan id || y.2.now.path == .frame id)
    d.each (((d.plane p).dests.filter on).map (·.1)) fun d a => d.shiftDest p a id f x.reader r

/-- An open channel's contents that take effect at its readers' frame starts (Table 9-3): hold_frames. -/
def Dev.takeHold (d : Dev) (p : Plane) (id : Nat) : Dev :=
  d.modOwner p id fun o =>
    match isSync id, o.cctNext with
    | true, some b => { o with cct := o.cct.set 11 (b.getD 11 0#8), cctNext := none }
    | _, _ => { o with hold := o.holdNext.getD o.hold, holdNext := none }

/-- The audio readers of an output select for frame `f` (R392). -/
def Dev.readAudio (d : Dev) (p : Plane) (o f tOut : Nat) : Dev :=
  let c := (d.out (d.headOf o)).fmt
  let ids := ((d.plane p).dests.filter fun x => x.1 / 16 == o).foldl (fun l x =>
    match x.2.now.path with
    | .frame id =>
      let y := d.op (d.headOf o) p
      if y.active.kind = 3 ∧ y.active.chan = id then l else setInsert id l
    | _ => l) []
  d.each ids fun d id =>
    let old := Tbl.get {} (d.op o p).aread id
    if old.at' = some f then d
    else
      let (r, d) := (d.takeHold p id).selectFor p id old c f tOut
      let d := (d.modOp o p fun y => { y with aread := Tbl.set {} y.aread id r }).pubSync p id
      d.each (((d.plane p).dests.filter fun y => y.1 / 16 == o && y.2.now.path == .frame id).map (·.1)) fun d a =>
        d.shiftDest p a id f old r

/-- Channel tags (R236, R360): frame count, field, cadence phase; none while no stored frame is shown. -/
def Dev.tagOf (d : Dev) (p : Plane) (id : Nat) (r : Reader) : Option (Nat × Nat × Nat) :=
  let o := d.owner p id
  if r.black || o.aborted then none
  else if isSync id then some ((o.buf r.buf).cnt, 0, 0)
  else (o.frames.find? fun f => r.sel == some f.j).map fun f => (f.tagCnt, f.tagField, f.tagPhase)

/-- Output frames of equal channel tags that convergence takes (Table 6-3); none: never. -/
def convFrames (profile : Nat) : Option (Nat × Nat) :=
  match baseOf profile with
  | 0x02 => some (2, 4)
  | 0x04 => some (2, 4)
  | b => if b = 5 ∨ 0x80 ≤ b then none else some (0, 2)

/-- The local contexts of the PX_ASRC channels that an output's audio reads on a plane. -/
def Dev.asrcOf (d : Dev) (p : Plane) (o : Nat) : List Nat :=
  ((d.plane p).dests.filter fun x => d.headOf (x.1 / 16) == o).foldl (fun l x => match x.2.now.path with
    | .asrc k => setInsert k l
    | _ => l) []

/-- The tag of a PX_ASRC channel, of its newest channel frame; none while it is aborted or has made none (R236). -/
def Dev.asrcTag (d : Dev) (p : Plane) (k : Nat) : Option (Nat × Nat × Nat) :=
  let w := d.owner p (2304 + 96 * p.id + k)
  if w.aborted then none else w.frames.head?.map fun f => (f.tagCnt, f.tagField, f.tagPhase)

/-- Frames in a row in which the PX_ASRC channels that the output's audio reads have equal tags on both planes (R236). -/
def Dev.judgeAsrc (d : Dev) (o : Nat) : Dev :=
  let ok := (d.asrcOf .a o ++ d.asrcOf .b o).all fun k => (d.asrcTag .a k).isSome && d.asrcTag .a k == d.asrcTag .b k
  let next (x : OutPlane) : OutPlane := { x with aconv := if ok then x.aconv + 1 else 0 }
  (d.modOp o .a next).modOp o .b next

/-- Convergence judged at an output frame end (R236, Table 6-3): frames since the fill is complete, and since the tags
are equal. -/
def Dev.judgeTags (d : Dev) (o : Nat) : Dev :=
  let d := d.judgeAsrc o
  let a := d.op o .a
  let b := d.op o .b
  if a.active.kind ≠ 3 ∨ b.active.kind ≠ 3 then d
  else
    let ta := d.tagOf .a a.active.chan a.reader
    let tb := d.tagOf .b b.active.chan b.reader
    let skip := ((convFrames (d.owner .a a.active.chan).profile).getD (0, 0)).1
    let next (n : Nat) : Nat :=
      if ta.isNone || tb.isNone then 0 else if n < skip then n + 1 else if ta == tb then n + 1 else skip
    (d.modOp o .a fun x => { x with conv := next x.conv }).modOp o .b fun x => { x with conv := next x.conv }

/-- The start of output frame `f` on a plane: what takes effect there (R238, R239, R312, R328, R333, R363, R389). -/
def Dev.beginFrame (d : Dev) (p : Plane) (o f tOut : Nat) : Dev :=
  if (d.op o p).frameNo = some f then d
  else
    let d := d.modOp o p fun x => { x with frameNo := some f, under := false, ovlUnder := false }
    let d := d.modOut o fun x => match x.cctNext with
      | some (c, k) => { x with cct := c, matchLine := k, cctNext := none }
      | none => x
    let r := (d.op o p).active
    let d := if r.kind = 3 then
      (d.takeHold p r.chan).followNeed p r.chan
    else d
    let d := d.readFrame p o f tOut
    let ms := group o (fmtG (d.out o).fmt)
    let d := d.each ms fun d m => d.modOut m fun x => match x.cctNext with
      | some (c, k) => { x with cct := c, matchLine := k, cctNext := none }
      | none => x
    let d := d.repath p o (d.slotAtLine o f 1)
    d.each ms fun d m => d.readAudio p m f tOut

/-! ### Copying in (R301, R302, R329, R568) -/

/-- A channel is reopened on a returning plane, on the pool alone (R329): as it stands on the other plane, or, for an output
that is single-plane on the returning plane, as it was opened there, with its CCT entry's present contents (R301). -/
def Dev.reopen (d : Dev) (p : Plane) (id : Nat) (mate : Owner) : Dev :=
  let own := Tbl.get {} (d.plane p).was id
  let cid := if own.pair then id - 96 else id
  let like := if mate.isOpen then mate else { own with cct := (d.cached cid).getD own.cct }
  if d.isOpen p id || !like.isOpen then d
  else
    d.openFromPool { plane := p, id := id, owner :=
      { fmtIn := like.fmtIn, fmtOut := like.fmtOut, src := like.src, profile := like.profile, cct := like.cct
        depth := like.depth, need := like.need, owned := like.need, reserved := Nat.max like.minPages like.need - like.need
        minPages := like.minPages, maxPages := like.maxPages, tokens := like.tokens, units := like.units
        ctx := isConv id, pair := like.pair || (isConv id && p == .b), cost := like.cost, rest := true } }

/-- An output's state is copied into a returning plane at its copy instant (R301). -/
def Dev.copyIn (d : Dev) (p : Plane) (o : Nat) : Dev :=
  let q := p.other
  let y := d.op o q
  let mir (id : Nat) : Nat := if isConv id then (if p == .b then id + 96 else id - 96) else id
  let chan (r : Route) : Route :=
    if r.kind = 3 ∧ isConv r.chan ∧ (d.out o).mode = 0 then { r with chan := mir r.chan } else r
  let pend (x : Option Pending) : Option Pending := x.map fun z => { z with route := chan z.route }
  let d := d.modOp o p fun x =>
    { x with active := chan y.active, pend := pend y.pend, next := pend y.next, ovl := y.ovl, reader := {}, aread := []
             waitCopy := false, frameNo := none, under := false, ovlUnder := false }
  let ms := group o (fmtG (d.out o).fmt)
  let ds := ((d.plane q).dests.filter fun x => ms.contains (x.1 / 16))
  let d := d.modPlane p fun x => { x with dests := x.dests.filter fun z => !ms.contains (z.1 / 16) }
  let d := d.each ds fun d z => d.modDest p z.1 fun _ => { now := { entry := z.2.now.entry } }
  let d := d.each (ds.map (·.1)) fun d a => d.modDest p a fun x =>
    { x with now := { x.now with path := d.pathOf p (a / 16) x.now.entry.src } }
  let r := (d.op o p).active
  let d := if r.kind = 3 ∧ d.computes o p = true then d.reopen p r.chan (d.owner q y.active.chan) else d
  d.each (ds.map (·.1)) fun d a => d.modDest p a fun x =>
    { x with now := { x.now with path := d.pathOf p (a / 16) x.now.entry.src } }

/-- JOINING ends once every output's copy is made (Table 8-3). -/
def Dev.joinDone (d : Dev) (p : Plane) : Dev :=
  if d.plState p == 3 && !d.outs.any fun x => (x.2.pl.pl p).waitCopy then
    ((d.put F.LX_STATUS_map_fault false p.id).put F.AX_STATUS_map_fault false p.id |>.setPlane p 0).endCause (evPl p)
  else d

/-- OUTPUT_FRAME_START's effect at a frame start whose line 1 starts at `to`. -/
def Dev.frameStartAt (d : Dev) (p : Plane) (o f tOut : Nat) : Dev :=
  let d := if d.plState p == 3 && (d.op o p).waitCopy && decide ((d.plane p).joinEp < tOut) then (d.copyIn p o).joinDone p else d
  if d.inService p && !(d.op o p).waitCopy && d.computes o p then d.beginFrame p o f tOut else d

/-- OUTPUT_FRAME_START (R333): at the read instant of the frame's line 1, or later. -/
def execOutputFrameStart (t : Nat) (plane : Plane) (out frame : Nat) (s : State) : Host.Outcome State Fault Refusal :=
  onDev (outOk out) t s fun d =>
    let d := d.landDue
    let o := d.headOf out
    match d.lineTime o frame 1 with
    | some tOut => if atRead (d.out o).fmt tOut d.epoch then d.frameStartAt plane o frame tOut else d
    | none => d

/-! ### LINE_READ -/

/-- An Audio Map entry or an overlay of a latched salvo lands on a plane as the plane reads the salvo's line of an output
(R198, R245, R389); it does not land there again. -/
def Dev.landRead (d : Dev) (o f k : Nat) (p : Plane) (x : Port × Nat × Item) (e : Nat × List Byte) : Dev :=
  let it := x.2.2
  let outs := (entryOuts e.2).filter fun y => d.headOf y == o && !it.tiedOuts.contains y && !it.early.contains (e.1, y, p.id)
  let applies := if it.begun then it.applied.pl p else d.appliesOn it p
  if outs.isEmpty || it.landed.contains e.1 || !applies || !(d.out o).reached it.cls it.frame it.line f k
      || (descOp e.2 != 0x11 && descOp e.2 != 0x13) then d
  else
    let d := d.each outs fun d y =>
      if descOp e.2 = 0x11 then
        d.landAudio it.paths ((aEntries e.2).filter fun a => a.1 / 16 == y) [p] (d.slotAtLine y it.frame (d.landOn y it.line)) false
      else d.modOp y p fun z => { z with ovl := overlayOf e.2 }
    d.modItem x.1 x.2.1 it.idx fun z => { z with early := z.early ++ outs.map fun y => (e.1, y, p.id) }

/-- What lands by line `k` of frame `f` on the planes that read it: plane modes, routes, Audio Map entries and overlays
(R198, R245). -/
def Dev.landLineNow (d : Dev) (o f k : Nat) (planes : List Plane) : Dev :=
  let d := d.landModePend o f k
  let d := d.each planes fun d p => d.activatePend o p f k
  d.each d.latched fun d x => d.each x.2.2.numbered fun d e => d.each planes fun d p => d.landRead o f k p x e

/-- The picture a plane has for a line of member `j` of output `o` (Table 5-3); none where it builds no copy. -/
def Dev.pictureFor (d : Dev) (mem : Memory) (p : Plane) (o j k tOut : Nat) (delivered : Bool) : Option Picture :=
  let x := d.op o p
  let c := (d.out o).fmt
  match x.active.kind with
  | 0 => none
  | 1 => some { black := fmtActive c k }
  | 2 => some (d.timedLine p x.active.src j c k tOut)
  | _ =>
    let id := x.active.chan
    let w := d.owner p id
    if !w.isOpen then (if w.closing then some (missedLine c k) else none)
    else if x.under then some (missedLine c k)
    else
      let pic := if isSync id then d.syncLine mem p id j k x.reader else d.convLine p id j k x.reader
      if !delivered && !x.reader.black then some { missedLine c k with under := true } else some pic

/-- A palette set as a line that starts at `tOut` shows it: loads apply from the switch point of their salvo's class (R249). -/
def Dev.palFor (d : Dev) (p : Plane) (ps tOut : Nat) : List Byte :=
  (d.plane p).palPend.foldl (fun b w => if w.ps = ps ∧ w.at' ≤ tOut then w.bytes else b)
    (Tbl.get (zeros 2048) (d.plane p).pals ps)

/-- The parcel of a line built and staged (R166, R167, R183, R222). DESIGN CHOICE (log 50): the ANC records of the source
stand before the audio packets, and where the header's count of 63 or the word limit W (R142) has no room for all of them,
the audio keeps its place and the source's records that fit go with it, in their order. -/
def Dev.stage (d : Dev) (mem : Memory) (p : Plane) (o m f k tOut : Nat) (pic : Picture) (fault : Bool) (ovl : Bool) : Dev :=
  let c := (d.out o).fmt
  let j := m - o
  let packet := outForm (d.out m).cct
  let v := (d.op o p).ovl
  let pic := if fault then missedLine c k else pic
  let mix := ovl && v.onLine c j k && !pic.abort
  let pal := d.palFor p v.ps tOut
  let pic :=
    if !mix then pic
    else if pic.black && (d.op o p).active.kind == 1 then
      { pic with black := false, video := mixLine mem pal v c j k (blackWords c j) }
    else if pic.video.isEmpty then pic
    else { pic with video := mixLine mem pal v c j k pic.video }
  let ((recs, times, block), d) := d.lineAudio p m c f k packet
  let room := wordLimit c (d.laneRate (m / 3)) - (6 + pic.video.length + block.length)
  let recs := fitRecords 63 room recs
  let anc := fitRecords (63 - recs.length) (room - recs.flatten.length) (if pic.abort then [] else pic.anc) ++ recs
  let x := d.op m p
  let hb := if x.started then (x.hb + 1) % 8 else 0
  let rtp := packet && k == 1
  let flags := headerFlags x.swNext ((d.out m).firstLine && k == 1) pic.abort pic.black rtp (!pic.video.isEmpty)
  let hdr := egressHeader m (b2n packet) j c flags k p.id hb f (if rtp then egressTsw (fmtRate c) f else 0) anc.length times
  d.modOp m p fun x =>
    { x with hb := hb, started := true, swNext := false
             staged := some { frame := f, line := k, hdr := hdr, body := pic.video ++ anc.flatten ++ block } }

/-- LINE_READ's effect on a plane that builds line `k` of frame `f`, which starts at `to`, for member `m` of output `o`. -/
def Dev.buildLine (d : Dev) (mem : Memory) (p : Plane) (o m f k tOut : Nat) (ecc audEcc : Ecc) (delivered ovlDelivered : Bool) : Dev :=
  let c := (d.out o).fmt
  let r := (d.op o p).active
  let x := d.draw
  let d := (d.mapCheck p m false ecc)
  let d := if audEcc = .clean then d else ({ d with free := x.2.free }).audioCheck p (16 * m + x.1 % 16) audEcc
  match d.pictureFor mem p o (m - o) k tOut delivered with
  | none => d
  | some pic =>
    let d := d.when pic.missed fun d =>
      (d.bump F.LX_CNT_MISS_missed p.id).modIn (r.src + (m - o)) fun s => { s with mon := { s.mon with missed := setInsert k s.mon.missed } }
    let d := d.when pic.under fun d => d.underrun o p true
    let covered := (d.op o p).ovl.onLine c (m - o) k
    let d := d.when (covered && !ovlDelivered) fun d => d.underrun o p false
    d.stage mem p o m f k tOut pic (ecc == .uncorrectable) (!(d.op o p).ovlUnder)

/-- LINE_READ (R185): between the read instant and the start of the line. -/
def execLineRead (t : Nat) (plane : Plane) (out frame line : Nat) (ecc audEcc : Ecc) (delivered ovlDelivered : Bool)
    (s : State) : Host.Outcome State Fault Refusal :=
  onMem (outOk out) t s fun m d =>
    let d := d.landDue
    let o := d.headOf out
    match d.lineTime o frame line, d.lineTime o frame 1 with
    | some tOut, some first =>
      if line = 0 || decide (fmtL (d.out o).fmt < line) || !atRead (d.out o).fmt tOut d.epoch || decide (tOut < d.epoch)
          || d.flag F.CLK_STATUS_safe then (m, d)
      else
        let up := [Plane.a, Plane.b].filter fun p => d.inService p && !(d.op o p).waitCopy
        let d := d.landLineNow o frame line (up.filter (· == plane))
        let d := d.frameStartAt plane o frame first
        if d.inService plane && !(d.op o plane).waitCopy && d.computes o plane then
          let d := ((d.readFrame plane o frame first).readAudio plane out frame first)
          (m, d.buildLine (m.hamper.pl plane) plane o out frame line tOut ecc audEcc delivered ovlDelivered)
        else (m, d)
    | _, _ => (m, d)

/-! ### Scrubs -/

/-- MAP_SCRUB (R213). -/
def execMapScrub (t : Nat) (plane : Plane) (out : Nat) (pend : Bool) (ecc : Ecc) (s : State) : Host.Outcome State Fault Refusal :=
  onDev (outOk out) t s fun d =>
    if d.flag F.LX_CTRL_scrub_en plane.id && d.inService plane then d.mapCheck plane out pend ecc else d

/-- AUDIO_MAP_SCRUB (R387). -/
def execAudioMapScrub (t : Nat) (plane : Plane) (dst : Nat) (ecc : Ecc) (s : State) : Host.Outcome State Fault Refusal :=
  onDev (dstOk dst) t s fun d =>
    if d.flag F.AX_CTRL_scrub_en plane.id && d.inService plane then d.audioCheck plane dst ecc else d

/-- PAGE_MAP_SCRUB (R319). -/
def execPageMapScrub (t : Nat) (plane : Plane) (page : Nat) (ecc : Ecc) (s : State) : Host.Outcome State Fault Refusal :=
  onDev (pageOk page) t s fun d =>
    if d.flag F.HAM_CTRL_scrub_en plane.id && d.inService plane then d.pageCheck plane page ecc else d

end Sys2Proof.Machine
end

