-- ==== Sys2Proof/Machine/Selector.lean ====
section
/-! DEFINITION. The plane selector (R220-R233, R565), raster events (R220, R221), egress (R164, R165, R200, R201), the
input tally (R176), and raster changes (R218, R240-R243). -/

namespace Sys2Proof.Machine

/-! ### Equivalence (R233) -/

/-- The timebase of a plane is lead or FOLLOWING (R233 condition 1). -/
def Dev.tbGood (d : Dev) (p : Plane) : Bool := p == d.lead || d.tbState p == 5

/-- Two planes hold the same state for an output (R233 condition 2); a palette set never loaded holds zeros. -/
def Dev.sameState (d : Dev) (o : Nat) (x : Plane) : Bool :=
  let y := x.other
  let a := d.op o x
  let b := d.op o y
  let ms := group o (fmtG (d.out o).fmt)
  let mirror (i : Nat) : Nat := if isConv i then (if x == .b then i - 96 else i + 96) else i
  let route := a.active.kind == b.active.kind && a.active.src == b.active.src
    && (if a.active.kind = 3 then mirror a.active.chan == b.active.chan else a.active.chan == b.active.chan)
  let audio := ms.all fun m => (List.range 16).all fun c =>
    (d.dest x (16 * m + c)).now.entry == (d.dest y (16 * m + c)).now.entry
  let pal (p : Plane) : List Byte := Tbl.get (zeros 2048) (d.plane p).pals a.ovl.ps
  let lut := if a.active.kind = 3 ∧ isConv a.active.chan then C.lutSet.of (d.owner x a.active.chan).cct else 0
  route && a.ovl == b.ovl && audio && (!a.ovl.enable || pal x == pal y)
    && !(a.ovl.enable && (d.owner x a.ovl.set).stale) && !(lut != 0 && (d.owner x lut).stale)

/-- The PX_ASRC channels that an output's audio reads on a plane have converged with the other plane's (Table 6-3). -/
def Dev.asrcConverged (d : Dev) (o : Nat) (x : Plane) : Bool :=
  let ks := d.asrcOf x o
  let own (p : Plane) (k : Nat) : Owner := d.owner p (2304 + 96 * p.id + k)
  ks.all (fun k => !(own x k).aborted) && (ks.all (fun k => !(own x k).rest && !(own x.other k).rest) || decide (2 ≤ (d.op o x).aconv))

/-- The channels of an output on a plane have converged with the other plane's (R233 condition 3, Table 6-3). -/
def Dev.converged (d : Dev) (o : Nat) (x : Plane) : Bool :=
  let a := d.op o x
  if !d.asrcConverged o x then false
  else if a.active.kind ≠ 3 then true
  else
    let w := d.owner x a.active.chan
    let y := d.op o x.other
    let v := d.owner x.other y.active.chan
    if w.aborted || !w.isOpen then false
    else if !w.rest && !v.rest then true
    else match convFrames w.profile with
      | some (_, n) => decide (n ≤ a.conv)
      | none => false

/-- Conditions 1 to 3 of R233 hold for a plane. -/
def Dev.alike (d : Dev) (o : Nat) (x : Plane) : Bool :=
  !d.plFaulted x && d.tbGood x && !(d.op o x).waitCopy && d.sameState o x && d.converged o x

/-- A plane's equivalence judged on a line of frame `f`, whose first line starts at `first` (R233 condition 4): it holds at
once after a realignment (R237). -/
def Dev.judgePlane (d : Dev) (o f first : Nat) (x : Plane) (k : Int) : Dev :=
  let y := d.op o x
  if !d.alike o x then d.modOp o x fun y => { y with eqv := false, eqFrom := none, eqStart := none }
  else if y.realign = some f then
    d.modOp o x fun y => { y with eqv := true, eqFrom := some f, eqStart := none, realign := none }
  else match y.eqFrom with
    | none => d.modOp o x fun y => { y with eqv := false, eqFrom := some f, eqStart := none }
    | some g =>
      if y.eqv || g == f then d
      else
        let from' := y.eqStart.getD first
        d.modOp o x fun y => { y with eqStart := some from', eqv := !(d.fading x o from' k || d.fading x.other o from' k) }

/-! ### Copies (R223, R225) -/

/-- What the selector finds of a plane's copy: good, clean, the copy. -/
structure Found where
  good : Bool := false
  clean : Bool := false
  copy : Option Copy := none
  deriving DecidableEq, Repr

/-- The plane builds no copy of the output, so a line without one is no break (R225). -/
def Dev.noCopy (d : Dev) (o : Nat) (p : Plane) : Bool := (d.op o p).active.kind == 0 || !d.computes o p

/-- A plane's copy of a line of member `m` judged (R223, R225); the sequence state follows. -/
def Dev.judgeCopy (d : Dev) (o m f k : Nat) (p : Plane) : Found × Dev :=
  let x := d.op m p
  let c := (d.out o).fmt
  match x.staged.filter fun y => y.frame == f && y.line == k with
  | none =>
    let d := d.modOp m p fun x =>
      { x with staged := none, good := false, clean := false, run := if d.noCopy o p then x.run else 0 }
    ({}, d)
  | some y =>
    let hb := fieldAt y.hdr 4 2 / 8192
    let inSeq := match x.lastHb with
      | none => true
      | some h => hb == (h + 1) % 8
    let fields := fieldAt y.hdr 14 2 == crc16 (y.hdr.take 14) && hSlot y.hdr == m && hSub y.hdr == m - o
      && hFmt y.hdr == c && hLine y.hdr == k && hFrame y.hdr == f % 65536
    let good := fields && inSeq && decide (8 ≤ x.run) && !d.plFaulted p
    let clean := good && !hAbort y.hdr
    let d := d.modOp m p fun x =>
      { x with staged := none, good := good, clean := clean, lastHb := some hb
               run := if inSeq then Nat.min 8 (x.run + 1) else 0, goodHb := if good then hb else x.goodHb }
    ({ good := good, clean := clean, copy := some y }, d)

/-! ### The decision (Table 6-2) -/

/-- What the selector sends. -/
inductive Choice where
  | copy (p : Plane)                -- the plane's copy
  | fill                            -- a fill parcel
  deriving DecidableEq, Repr

/-- Table 6-2 for a mirrored output: what is sent, and whether the serving plane changes. `s` and `o` are the findings
on the serving plane and the other, `eqv` that the other is equivalent, `force` row 5's conditions beside O good. -/
def selectorRow (sp : Plane) (s o : Found) (eqv force : Bool) : Choice × Bool :=
  if s.good && s.clean then (.copy sp, false)
  else if s.good && o.good && o.clean && eqv then (.copy sp.other, true)
  else if s.good then (.copy sp, false)
  else if o.good && eqv then (.copy sp.other, true)
  else if o.good && force then (.copy sp.other, true)
  else (.fill, false)

/-- A fill parcel (R228). -/
def Dev.fillParcel (d : Dev) (o m f k : Nat) : Copy :=
  let x := d.out o
  let flags := headerFlags false ((d.out m).firstLine && k == 1) true (fmtActive x.fmt k) false false
  { frame := f, line := k
    hdr := egressHeader m (b2n (outForm (d.out m).cct)) (m - o) x.fmt flags k x.serving.id (d.op m x.serving).goodHb f 0 0 0 }

/-! ### Egress (R164, R165, R200) -/

/-- An egress lane that sends parcels: ACTIVE, and awake. -/
def Dev.txOpen (d : Dev) (n : Nat) : Bool := d.lnState n == 6 && !d.flag F.LN_STATUS_tx_idle n

/-- The output's position is outside the partner's rx_slots on a lane that is up (R164), or its slot has ceased to exist
(R193). -/
def Dev.notReceived (d : Dev) (m : Nat) : Bool :=
  !d.slotExists m || (d.egressLanes m).any fun n => d.lnState n == 6 && !d.partnerRx n (m % 3)

/-- The lanes on which an output slot's parcels leave (R164). -/
def Dev.sendLanes (d : Dev) (m : Nat) : List Nat := (d.egressLanes m).filter fun n => d.txOpen n && d.partnerRx n (m % 3)

/-- A parcel leaves on every lane that carries the slot, after SWM where it bears sw = 1. -/
def Dev.sendParcel (d : Dev) (m : Nat) (c : Copy) : Dev :=
  d.each (d.sendLanes m) fun d n =>
    (d.when (hSw c.hdr) fun d => d.emit (.lane n (.swm (m % 3)))).emit (.parcel n (m % 3) c.hdr c.body)

/-- FCH for a slot position on every lane that carries the slot (R218, R243). -/
def Dev.sendFch (d : Dev) (m : Nat) : Dev := d.each (d.sendLanes m) fun d n => d.emit (.lane n (.fch (m % 3)))

/-! ### Raster events and tally -/

/-- The line at whose start SOB falls (Table 6-1). -/
def sobLine (c : Nat) : Nat := if c = 1 then 1 else fmtLastActive c + 1

/-- SOB and LINE_MATCH of line `k` (R220, R221). -/
def Dev.lineEvents (d : Dev) (o k : Nat) : Dev :=
  let x := d.out o
  let d := d.when (outEvEn x.cct 0 && k == sobLine x.fmt) fun d => d.occur (evRaster o 0) 0x01 0 0 0
  d.when (outEvEn x.cct 1 && x.matchLine != 0 && k == x.matchLine) fun d => d.occur (evRaster o 1) 0x02 0 0 0

/-- Input slots that an output's serving plane shows (R176). -/
def Dev.sourceOf (d : Dev) (o : Nat) : List Nat :=
  let x := d.out o
  let p := x.serving
  let r := (d.op o p).active
  let g := Nat.max 1 (fmtG x.fmt)
  match r.kind with
  | 2 => group r.src g
  | 3 => let w := d.owner p r.chan
         group (if isSync r.chan then r.chan else w.src) (Nat.max 1 (fmtG w.fmtIn))
  | _ => []

/-- The input tally re-evaluated at a switch line (R176). -/
def Dev.tally (d : Dev) : Dev :=
  let bits := d.outs.foldl (fun (t : Tbl Nat) x =>
    if outTally x.2.cct = 0 then t
    else (d.sourceOf x.1).foldl (fun t i => Tbl.mod 0 t i fun v => v ||| outTally x.2.cct) t) []
  let was := (d.ins.filter fun x => x.2.prog != 0).map (·.1)
  let d := d.each was fun d i => d.modIn i fun x => { x with prog := Tbl.get 0 bits i }
  d.each bits fun d x => d.modIn x.1 fun y => { y with prog := x.2 }

/-! ### SELECTOR_DECISION -/

/-- The preferred plane takes over at the switch line where it may (R230, R231). -/
def Dev.prefer (d : Dev) (o : Nat) (found : Plane → Found) : Dev :=
  let x := d.out o
  let q := x.preferred
  let ok := (found q).good && (found q).clean && (d.op o q).eqv
  let rev := d.flag F.SEL_CTRL_revertive && x.wtrOk && decide (Nat.max 1 (d.rd F.SEL_CTRL_wtr) ≤ x.wtrRun)
  if x.mode = 0 ∧ x.serving ≠ q ∧ ok = true ∧ (x.moveTo || rev) = true then
    d.modOut o fun x => { x with serving := q, moveTo := false }
  else if x.serving = q then d.modOut o fun x => { x with moveTo := false } else d

/-- A failover of an output (R232). -/
def Dev.selFailover (d : Dev) (o : Nat) : Dev :=
  (d.modOut o fun x => { x with serving := x.serving.other, failovers := satAdd 16 x.failovers 1 }).bump F.SEL_CNT_FAILOVER_failovers

/-- The output sends parcels (R164, R565): a plane that computes it holds a route of kind 1, 2 or 3; while that plane has a
fault declared, or has still to copy the output in, the other plane's table or shadow holds it (R299, R302). -/
def Dev.routed (d : Dev) (o : Nat) : Bool :=
  [Plane.a, Plane.b].any fun p =>
    let q := if d.plFaulted p || (d.op o p).waitCopy then p.other else p
    d.computes o p && (d.op o q).active.kind != 0

/-- Frames of good, clean, equivalent copies of the preferred plane (R231). -/
def Dev.noteWtr (d : Dev) (o k : Nat) (found : Plane → Found) : Dev :=
  d.modOut o fun x =>
    let q := x.preferred
    let ok := x.wtrOk && (found q).good && (found q).clean && (x.pl.pl q).eqv
    if k = fmtL x.fmt then { x with wtrRun := if ok then x.wtrRun + 1 else 0, wtrOk := true } else { x with wtrOk := ok }

/-- A raster that the start jump moves ends once every member's last line has passed: FCH, and its restart on the new grid
(R92). -/
def Dev.endJump (d : Dev) (o f : Nat) : Dev :=
  let x := d.out o
  let ms := group o (fmtG x.fmt)
  match x.jump, x.raster with
  | some (z, g), some r =>
    if g = f ∧ ms.all (fun y => (d.out y).frame == f && (d.out y).line == fmtL x.fmt) = true then
      let e := ((r.lineAt (g + 1) 1 : Int) + z).toNat
      let d := d.modOut o fun x => { x with jump := none, after := if x.change.isNone then e else x.after }
      if x.change.isNone then d.each ms fun d y => (d.sendFch y).modOut y fun x => { x with line := 0, firstLine := d.routed o }
      else d
    else d
  | _, _ => d

/-- The flywheel passes line `k` of frame `f`; with the frame's last line FRAME_DONE falls due (Table 6-1). -/
def Dev.passLine (d : Dev) (o m f k : Nat) (sent : Bool) : Dev :=
  let c := (d.out o).fmt
  let d := d.modOut m fun x => { x with frame := f, line := k, firstLine := x.firstLine && !sent }
  if k < fmtL c then d
  else
    let till := ((d.lineTime o f k).getD d.epoch) + lineU (fmtRate c) (fmtL c)
    let d := d.when (m == o && sent && !(d.sendLanes m).isEmpty) fun d =>
      d.modOut o fun x => { x with doneDue := some (till, x.abortsNow) }
    let d := d.modOut m fun x => { x with abortsLast := x.abortsNow, abortsNow := 0 }
    let d := d.when (m == o) fun d => d.judgeTags o
    d.endJump o f

/-- SEL_OUT_STATE of a member of an output updated (R250). -/
def Dev.pubOut (d : Dev) (o m : Nat) : Dev :=
  let x := d.out o
  let y := d.out m
  let at' (p : Plane) : Nat := b2n (x.serving == p || (x.pl.pl p).eqv)
  let w := x.serving.id + 2 * (if x.raster.isNone then 3 else x.mode) + 8 * x.preferred.id + 16 * at' .a + 32 * at' .b
    + 64 * b2n y.pl.a.good + 128 * b2n y.pl.b.good + 256 * b2n y.fillNow + 65536 * x.failovers
  d.modOut m fun z => { z with pub := BitVec.ofNat 32 w }

/-- One line of member `m` of output `o` decided (R226, R227, R565). -/
def Dev.decideLine (d : Dev) (o m f k first : Nat) : Dev :=
  let x := d.out o
  let s := d.landLine x.cls x.fmt
  let slot := d.slotAtLine o f k
  let d := if x.mode = 0 ∧ m = o then (d.judgePlane o f first .a slot).judgePlane o f first .b slot else d
  let (fa, d) := d.judgeCopy o m f k .a
  let (fb, d) := d.judgeCopy o m f k .b
  let found (p : Plane) : Found := match p with
    | .a => fa
    | .b => fb
  let d := if k = s ∧ m = o then (d.prefer o found).tally else d
  let d := d.when (decide (k = s) && d.routed o && d.notReceived m) fun d => d.rasterOccur o 3 0x05 (m % 3)
  let d := if m = o then d.lineEvents o k else d
  if !d.routed o then (d.modOut m fun x => { x with fillNow := false }).pubOut o m |>.passLine o m f k false
  else
    let x := d.out o
    let sp := x.serving
    let (choice, moves) :=
      if x.mode = 0 then
        selectorRow sp (found sp) (found sp.other) (d.op o sp.other).eqv (d.plFaulted sp && d.flag F.SEL_CTRL_force_on_fault)
      else (if (found sp).good then .copy sp else .fill, false)
    let d := if moves then d.selFailover o else d
    let copy := match choice with
      | .copy p => (found p).copy.getD (d.fillParcel o m f k)
      | .fill => d.fillParcel o m f k
    let d := d.modOut m fun x =>
      { x with fillNow := choice == .fill, fills := x.fills + b2n (choice == .fill)
               abortsNow := x.abortsNow + b2n (hAbort copy.hdr && !(d.sendLanes m).isEmpty) }
    let d := if choice = .fill then d.bump F.SEL_CNT_FILL_fill else d
    let d := if m = o then d.noteWtr o k found else d
    ((d.sendParcel m copy).pubOut o m).passLine o m f k true

/-- SELECTOR_DECISION (R226): at the start of the line. -/
def execSelectorDecision (t out frame line : Nat) (s : State) : Host.Outcome State Fault Refusal :=
  onDev (outOk out) t s fun d =>
    let d := d.landDue
    let o := d.headOf out
    match d.lineTime o frame line, d.lineTime o frame 1 with
    | some tOut, some first =>
      let x := d.out out
      let later := x.line == 0 || (x.frame, x.line) != (frame, line)
      let c := (d.out o).fmt
      if line = 0 || decide (fmtL c < line) || decide (d.epoch < tOut) || !later || d.flag F.CLK_STATUS_safe
          || decide (hNum c ≤ (d.epoch - tOut) * hDen c) then d
      else
        (d.landModePend o frame line).decideLine o out frame line first
    | _, _ => d

/-! ### RASTER_CHANGE -/

/-- The planes on which the salvo of a raster change applies. -/
def Dev.changePlanes (d : Dev) (stamp : Nat) : List Plane :=
  match d.latched.find? fun x => x.2.2.stamp == stamp with
  | some x =>
    let it := x.2.2
    [Plane.a, Plane.b].filter fun p => if it.begun then it.applied.pl p else d.appliesOn it p
  | none => d.planesUp

/-- A salvo's take for an output applies with its raster change (R240, R400). -/
def Dev.applyTake (d : Dev) (o : Nat) (planes : List Plane) (f : Nat) (b : List Byte) : Dev :=
  match descOp b with
  | 0x10 =>
    let y := D.out.of b
    let d := d.takeMode y b
    d.each planes fun d p => d.landRoute y p (routeFor (d.out y).mode p b) false
  | 0x11 =>
    d.each (aEntries b) fun d e =>
      if d.headOf (e.1 / 16) = o then d.landAudio [] [e] planes (d.slotAtLine o f 1) true else d
  | 0x13 =>
    if D.palOnly.on b then d else d.each planes fun d q => d.modOp (D.out.of b) q fun x => { x with ovl := overlayOf b }
  | _ => d

/-- An output that leaves its class is mirrored with preferred plane A again (R32), unrouted, and waits for no copy (R301). -/
def Dev.leaveClass (d : Dev) (o : Nat) : Dev :=
  let d := d.each [Plane.a, Plane.b] fun d p => (d.landRoute o p {} false).modOp o p fun y => { y with waitCopy := false, pend := none, next := none }
  let d := d.modOut o fun x => { x with mode := 0, preferred := .a, serving := .a, moveTo := false, modePend := [] }
  ((d.pubOut o o).joinDone .a).joinDone .b

/-- An output takes its class while a plane restarts, or by a salvo that a joining plane does not apply: that plane waits to
copy it in (R301). -/
def Dev.awaitCopy (d : Dev) (o : Nat) (planes : List Plane) : Dev :=
  d.each ([Plane.a, Plane.b].filter fun p => d.plState p == 2 || (d.plState p == 3 && !planes.contains p)) fun d p =>
    d.modOp o p fun y => { y with waitCopy := true }

/-- The salvo of a raster change counts as applied on the output's slots with the first line of the new raster (R240, R277). -/
def Dev.changeMade (d : Dev) (c : RasterChange) (slots : List Nat) : Dev :=
  let till := c.startAt + c.dst.elim 0 fun r => lineU (fmtRate r.fmt) (fmtL r.fmt)
  { d with svr := d.svr.map fun (x : Nat × SvRing) => (x.1, { x.2 with items := x.2.items.map fun it =>
      if it.stamp == c.stamp && c.stamp != 0 then
        { it with standing := it.standing.filter fun o => !slots.contains o, changeEnd := Nat.max it.changeEnd till }
      else it }) }

/-- The raster change of an output (R218, R240-R243); one latched behind it waits next. -/
def Dev.changeRaster (d : Dev) (o : Nat) (c : RasterChange) : Dev :=
  let old := d.out o
  let planes := d.changePlanes c.stamp
  let slots := d.changeSpan o c
  let oldMs := group o (fmtG old.fmt)
  let d := d.when (old.raster.isSome && d.routed o) fun d => d.each oldMs fun d m => d.sendFch m
  let d := d.noteRouted slots
  let d := d.modOut o fun x =>
    { x with raster := c.dst, change := x.changeNext, changeNext := none, jump := none, after := c.startAt, frame := 0, line := 0 }
  let d := d.each (group o (fmtG (d.out o).fmt)) fun d m =>
    d.modOut m fun x => { x with firstLine := old.raster.isSome && c.dst.isSome, frame := 0, line := 0 }
  let d := d.each [Plane.a, Plane.b] fun d p => d.modOp o p fun x => { x with frameNo := none, under := false, ovlUnder := false }
  let d := d.noteJournal 1 o
  let f := match c.dst with
    | some r => r.frameFrom c.startAt
    | none => 0
  let d := d.each c.takes fun d b => d.applyTake o planes f b
  let d := d.each planes fun d p => d.repath p o (d.slotAtLine o f 1)
  let d := if c.dst.isNone then d.leaveClass o else if old.raster.isNone then d.awaitCopy o planes else d
  d.changeMade c slots

/-- The raster change may be made: its instant has come, or the last line of every member of the old raster has been decided
and the read instant of the new raster's first line has come (R183, R243). -/
def Dev.changeDue (d : Dev) (o : Nat) (c : RasterChange) : Bool :=
  let x := d.out o
  let ended := x.raster.isNone
    || (group o (fmtG x.fmt)).all fun m => (d.out m).frame == c.last && (d.out m).line == fmtL x.fmt
  let read := match c.dst with
    | some r => ended && atRead r.fmt c.startAt d.epoch
    | none => false
  decide (c.startAt ≤ d.epoch) || read

/-- RASTER_CHANGE (R243): at the instant at which the new raster starts, or the output leaves its class. -/
def execRasterChange (t out : Nat) (s : State) : Host.Outcome State Fault Refusal :=
  onDev (outOk out) t s fun d =>
    let d := d.landDue
    match (d.out out).change with
    | some c => if d.changeDue out c && !d.flag F.CLK_STATUS_safe then d.changeRaster out c else d
    | none => d

end Sys2Proof.Machine
end

