-- ==== Sys2Proof/Machine/Timebase.lean ====
section
/-! DEFINITION. Timebases and reference changeover (chapter 2). -/

namespace Sys2Proof.Machine

/-! ### Inputs and the selection -/

/-- The input is qualified. -/
def Dev.qualified (d : Dev) (x : Nat) : Bool := d.bitAt F.TB_STATUS_qualified x
/-- The input is lost. -/
def Dev.refLost (d : Dev) (x : Nat) : Bool := d.bitAt F.TB_STATUS_lost x

/-- Eligible (R74). -/
def Dev.eligible (d : Dev) (x : Nat) : Bool :=
  decide (x < 5) && d.flag F.TB_PRIO_enable x && d.qualified x && !d.refLost x

/-- `x` ranks better than `y` (R74). -/
def Dev.better (d : Dev) (x y : Nat) : Bool :=
  let a := d.rd F.TB_PRIO_prio x
  let b := d.rd F.TB_PRIO_prio y
  decide (a < b ∨ (a = b ∧ x < y))

/-- The best of a list of inputs (R74); 7: none. -/
def Dev.best (d : Dev) (xs : List Nat) : Nat :=
  xs.foldl (fun b x => if b == 7 || d.better x b then x else b) 7

/-- A mean rounded down (log 15); `z` for an empty list. -/
def mean (z : Int) (xs : List Int) : Int := if xs.isEmpty then z else xs.sum / xs.length

/-- The running average of an input, 0.001 ppm (R67, log 15). -/
def RefIn.avg (r : RefIn) : Int := mean 0 r.samples

/-- The control value is frozen: the mean over hold_avg seconds that ended 1 s ago (R64); while the DPLL coasts already,
the value frozen at the loss stands (R82). DESIGN CHOICE (log 40): where no control value lies in those seconds the present
one stays, which R64 does not say. -/
def Dev.freeze (d : Dev) (p : Plane) : Dev :=
  let avg := min 64 (max 1 (d.rd F.TB_DPLL_CFG_hold_avg))
  let inWin (x : Nat × Int) : Bool := decide (x.1 + secU ≤ d.now ∧ d.now < x.1 + (avg + 1) * secU)
  let frozen := d.tbState p == 3 || d.tbState p == 4
  d.modTb p fun t =>
    let f := if frozen then t.ctl else mean t.ctl ((t.hist.filter inWin).map Prod.snd)
    { t with ctl := f, prev := none, critFrom := none, stepNext := false }

/-- An epoch instant after the epoch counters have moved by `z`. -/
def moved (z : Int) (a : Nat) : Nat := ((a : Int) + z).toNat

/-- A frame buffer after the start jump: its instants, and the frame number of its source's grid at them (R186). -/
def Buf.moved (z : Int) (r : Nat) (b : Buf) : Buf :=
  { b with n := b.n + frameAt r (Machine.moved z b.begun) - frameAt r b.begun
           complete := b.complete.map (Machine.moved z), field1 := b.field1.map (Machine.moved z)
           begun := Machine.moved z b.begun, endAt := Machine.moved z b.endAt, fldAt := Machine.moved z b.fldAt }

/-- A frame-sync reader after the start jump. -/
def Reader.moved (z : Int) (r : Nat) (x : Reader) : Reader :=
  match x.sel with
  | some a => { x with sel := some (Machine.moved z a), n := x.n + frameAt r (Machine.moved z a) - frameAt r a }
  | none => x

/-- An owner after the start jump: a frame-sync or conversion channel keeps what it has stored (R331, R357). -/
def Owner.moved (z : Int) (o : Owner) : Owner :=
  { o with closeAt := Machine.moved z o.closeAt, openAt := Machine.moved z o.openAt, motionFrom := Machine.moved z o.motionFrom
           bufs := o.bufs.map fun x => (x.1, x.2.moved z (fmtRate o.fmtIn))
           anchor := o.anchor.map fun (n, fl, c, a) =>
             (n + frameAt (fmtRate o.fmtIn) (Machine.moved z a) - frameAt (fmtRate o.fmtIn) a, fl, c, Machine.moved z a)
           got := o.got.map fun x => (x.1, Machine.moved z x.2) }

/-- A plane after the start jump: what it holds keeps its place beside the rasters that finish their frames (R92). -/
def PlaneSt.moved (z : Int) (p : PlaneSt) : PlaneSt :=
  { p with joinEp := Machine.moved z p.joinEp
           slots := p.slots.map fun x => (x.1, { x.2 with units := x.2.units.map fun u => { u with arrive := Machine.moved z u.arrive } })
           palPend := p.palPend.map fun w => { w with at' := Machine.moved z w.at' }
           dests := p.dests.map fun x => (x.1, { x.2 with begin := Machine.moved z x.2.begin })
           owners := p.owners.map fun x => (x.1, x.2.moved z) }

/-- An input slot after the start jump: DESIGN CHOICE (log 44), its monitor begins afresh on the new grid. -/
def InSlot.moved (epoch : Nat) (x : InSlot) : InSlot :=
  match x.mon.grid with
  | some (r, _) => { x with mon := { x.mon with frame := frameAt r epoch, accs := [] } }
  | none => x

/-- A salvo after the start jump: an ASAP salvo that has not latched is retargeted, its count of switch points started
afresh, and DEFERRED counts from there; an explicit one is held against the new grid (R95). -/
def Dev.itemMoved (d : Dev) (z : Int) (it : Item) : Item :=
  if it.phase == .latched then { it with point := moved z it.point, changeEnd := moved z it.changeEnd }
  else if !it.isSalvo || it.phase == .done then it
  else
    let it := { it with secAt := moved z it.secAt }
    if it.asap then
      let f := d.firstAfter Dev.tL it.cls d.epoch
      { it with target := f, frame := f, tries := 0, deferred := false }
    else it

/-- Every output raster ends its frame, which began on the grid as it stood `z` u back, and restarts on the new grid
(R92; a raster change that waits is worked from that end, Table 6-6); unlatched salvos are held against the new grid
(R95). -/
def Dev.regrid (d : Dev) (z : Int) : Dev :=
  let reader (p : Plane) (y : OutPlane) : OutPlane :=
    if cctType y.active.chan == 1 then { y with reader := y.reader.moved z (fmtRate (d.owner p y.active.chan).fmtIn) } else y
  let aread (p : Plane) (y : OutPlane) : OutPlane :=
    { y with aread := y.aread.map fun x => (x.1, x.2.moved z (fmtRate (d.owner p x.1).fmtIn)) }
  let move (x : Out) : Out :=
    let x := { x with pl := ⟨aread .a (reader .a x.pl.a), aread .b (reader .b x.pl.b)⟩ }
    match x.raster with
    | none => x
    | some r =>
      let g := r.frameFrom (moved (-z) d.epoch + 1) - 1
      let e := moved z (r.lineAt (g + 1) 1)
      let change := x.change.map fun c =>
        let at' := changeFrom r c.dst g (some e)
        { c with frame := g, startAt := at'.1, last := g }
      let after := fun (c : RasterChange) => match change.bind (·.dst) with
        | some r1 =>
          let f := r1.frameFrom ((change.map (·.startAt)).getD 0)
          let at' := changeFrom r1 c.dst f none
          { c with frame := f, startAt := at'.1, last := at'.2 }
        | none => c
      { x with jump := some (z, g), change := change, changeNext := x.changeNext.map after
               doneDue := x.doneDue.map fun a => (moved z a.1, a.2) }
  let outs := d.outs.map fun (x : Nat × Out) => (x.1, move x.2)
  let svr := d.svr.map fun (x : Nat × SvRing) => (x.1, { x.2 with items := x.2.items.map (d.itemMoved z) })
  let ins := d.ins.map fun (x : Nat × InSlot) => (x.1, x.2.moved d.epoch)
  { d with outs := outs, svr := svr, ins := ins, planes := ⟨d.planes.a.moved z, d.planes.b.moved z⟩ }

/-- The start jump (R91, R92): both epoch counters take the source's time. -/
def Dev.startJump (d : Dev) (u : Nat) : Dev :=
  let set (t : Timebase) : Timebase := { t with epoch := u }
  let z : Int := (u : Int) - (d.epoch : Int)
  let d := (d.modTb .a set).modTb .b set
  let d := (d.raise F.TB_STATUS_time_valid).occur (evTb d.lead) 0x4D
  { d with tim := { d.tim with jumpOpen := false, refvOff := d.tim.refvOff.map (· - z) } }.regrid z

/-- The lead enters BECALMED, or stays in FREERUN where no input has been selected since reset (R62, R86). -/
def Dev.holdOver (d : Dev) (parent : Nat := 0) : Dev :=
  let p := d.lead
  if d.tim.everSel then (d.freeze p).setTb p 4 parent else d.setTb p 0

/-- SWITCH: the selected input has changed (Table 12-4). -/
def Dev.noteSel (d : Dev) (x : Nat) : Dev :=
  let old := d.rd F.TB_STATUS_sel
  if old == x then d else (d.wr F.TB_STATUS_sel x).occur (evTb d.lead) 0x48 (old + 8 * x)

/-- The time of a time-bearing input, in epoch u: that of REFV is what its last accepted sample states (R58), that of
another input is what the command gives. -/
def Dev.timeOf (d : Dev) (x src : Nat) : Nat :=
  match d.tim.refvOff with
  | some z => if x = 4 then ((d.epoch : Int) + z).toNat else src
  | none => src

/-- The lead's DPLL takes input `x`, whose time is `src` (R81, R82): SWITCHING, and the start jump where it is
still open and the input bears time (R91). -/
def Dev.select (d : Dev) (x src : Nat) : Dev :=
  let p := d.lead
  let d := (d.noteSel x).freeze p
  let d := { d with tim := { d.tim with everSel := true } }
  let d := d.setTb p 3
  if d.tim.jumpOpen && d.timeBearing x then d.startJump (d.timeOf x src) else d

/-- The lead follows selections: it has not failed. -/
def Dev.leadUp (d : Dev) : Bool := d.tbState d.lead != 6

/-- An input index of TB_DPLL_SEL: 5 and 6 act as 7 (Table 2-13). -/
def selIndex (x : Nat) : Nat := if x < 5 then x else 7

/-- The DPLL's own action on the loss of its selected input: the fall-back of its own TB_DPLL_SEL, else holdover (R62).
The DPLL of a FAILED lead takes no action; its input is judged when a timebase leads again (R86, R87). -/
def Dev.selLost (d : Dev) (src : Nat) : Dev :=
  let f := selIndex (d.rd F.TB_DPLL_SEL_fallback d.lead.id)
  if !d.leadUp then d
  else if f < 5 && d.qualified f && !d.refLost f && f != d.rd F.TB_STATUS_sel then d.select f src
  else (d.noteSel 7).holdOver (d.causeOf (evRef (d.rd F.TB_STATUS_sel)))

/-- The input that TB_PM_FORCE forces; none while force is 0 or the index is 5 to 7 (R80, Table 2-12). -/
def Dev.forced (d : Dev) : Option Nat :=
  let x := d.rd F.TB_PM_FORCE_input
  if d.flag F.TB_PM_FORCE_force && decide (x < 5) then some x else none

/-- TB_STATUS.force_wait (R80). -/
def Dev.noteForce (d : Dev) : Dev :=
  match d.forced with
  | some x => d.put F.TB_STATUS_force_wait (!d.eligible x)
  | none => d.put F.TB_STATUS_force_wait false

/-- An input's state has changed: its hold-off begins anew (R75, R78), and TB_STATUS.force_wait follows (R80). -/
def Dev.stateChanged (d : Dev) (x : Nat) : Dev :=
  let d := d.modRef x fun r => { r with since := d.now }
  { d with tim := { d.tim with sees := d.tim.sees.filter (· != x) } }.noteForce

/-- An input is lost (R61, R60), and so disqualified (R70). -/
def Dev.loseInput (d : Dev) (x src : Nat) : Dev :=
  let was := d.qualified x
  let d := (d.setBit F.TB_STATUS_lost x true).setBit F.TB_STATUS_qualified x false
  let d := d.modRef x fun r => { r with qual := 3, run := 0, outRun := 0, avgs := [] }
  let d := { d with clk := { d.clk with refAtSafe := d.clk.refAtSafe.filter (· != x) } }
  let d := (d.setCause (evRef x) 0x40).when was fun d => d.occur (evRef x) 0x42 (ofInt 32 (d.ref x).avg)
  let d := d.stateChanged x
  if d.rd F.TB_STATUS_sel == x then d.selLost src else d

/-- A lost input's edges or samples are back (R61, R69). -/
def Dev.inputBack (d : Dev) (x : Nat) : Dev :=
  let d := (d.setBit F.TB_STATUS_lost x false).modRef x fun r => { r with qual := 1, run := 0, outRun := 0 }
  (d.endCause (evRef x)).stateChanged x

/-- REFIN_LOST (R61, R62). -/
def execRefinLost (t x src : Nat) (s : State) : Host.Outcome State Fault Refusal :=
  onDev (refinOk x) t s fun d => if d.refLost x then d else d.loseInput x src

/-- REFIN_EDGES_RETURN (R61, R69); for PPSIN the pairing lives again (R57). -/
def execRefinEdgesReturn (t x : Nat) (s : State) : Host.Outcome State Fault Refusal :=
  onDev (edgeInOk x) t s fun d =>
    if x = 5 then { d with tim := { d.tim with ppsLost := false } }
    else if d.refLost x || (d.ref x).qual == 0 then d.inputBack x else d

/-- PPSIN_LOST (R57): what depends on PPSIN stops, and the loss is reported. -/
def execPpsinLost (t : Nat) (s : State) : Host.Outcome State Fault Refusal :=
  onDev true t s fun d =>
    if d.tim.ppsLost || !(List.range 4).any d.ppsPairs then d
    else { d with tim := { d.tim with ppsLost := true } }.occur (evRef 5) 0x40

/-- REFV_LOST (R60): 3 s since the later of the enabling and the last accepted sample. -/
def execRefvLost (t src : Nat) (s : State) : Host.Outcome State Fault Refusal :=
  onDev true t s fun d =>
    if !d.flag F.TB_REFV_CFG_enable || d.refLost 4 || decide (d.now < d.tim.refvFrom + 3 * secU) then d
    else d.loseInput 4 src

/-- The effect of a write of TB_REFV_CFG.enable (R60). -/
def Dev.refvEnable (d : Dev) (en : Bool) (src : Nat) : Dev :=
  let was := d.flag F.TB_REFV_CFG_enable
  let d := d.put F.TB_REFV_CFG_enable en
  if en && !was then
    let d := { d with tim := { d.tim with refvFrom := d.now } }
    (d.modRef 4 fun r => { r with qual := 1, run := 0, outRun := 0, samples := [], avgs := [] }).stateChanged 4
  else if !en && was then
    let d := (d.setBit F.TB_STATUS_qualified 4 false).setBit F.TB_STATUS_lost 4 false
    let d := (d.modRef 4 fun r => { r with qual := 0, run := 0, outRun := 0, avgs := [] }).endCause (evRef 4)
    let d := { d with tim := { d.tim with refvOff := none } }.stateChanged 4
    if d.rd F.TB_STATUS_sel == 4 then d.selLost src else d
  else d

/-- REFV_ENABLE_WRITE (R60). -/
def execRefvEnableWrite (t : Nat) (en : Bool) (src : Nat) (s : State) : Host.Outcome State Fault Refusal :=
  onDev true t s fun d => (d.refvEnable en src).noteReg d .TB_REFV_CFG 0

/-! ### Qualification (R67-R72) -/

/-- The hard window in 0.001 ppm (R72). -/
def Dev.hardWin (d : Dev) : Int := 10 * (min 5000 (max 1 (d.rd F.TB_QUAL_hard)) : Nat)
/-- The soft window in 0.001 ppm (R72). -/
def Dev.softWin (d : Dev) : Int := min d.hardWin (10 * (min 5000 (max 1 (d.rd F.TB_QUAL_soft)) : Nat))

/-- The slope of the averages over the last 60 s, 0.001 ppm/min (R71, Table 7-21): the average less the oldest one that is
no more than 60 s old (log 41). -/
def RefIn.slope (r : RefIn) : Int := match r.avgs.getLast? with
  | some (_, old) => r.avg - old
  | none => 0

/-- The input stops being qualified (R68, R70). -/
def Dev.disqualify (d : Dev) (x : Nat) : Dev :=
  let was := d.qualified x
  let d := (d.setBit F.TB_STATUS_qualified x false).modRef x fun r => { r with qual := 3 }
  (d.when was fun d => d.occur (evRef x) 0x42 (ofInt 32 (d.ref x).avg)).stateChanged x

/-- The average lies outside the hard window (R69, R70). -/
def Dev.beyondHard (d : Dev) (r : RefIn) : Bool := decide (r.avg < -d.hardWin ∨ d.hardWin < r.avg)

/-- One accepted sample (R67, R69-R71): the average crosses the hard window where it lay inside before (R70), so that no
single sample disqualifies alone. -/
def Dev.acceptSample (d : Dev) (x : Nat) (off : Int) : Dev :=
  let inside := !(d.ref x).samples.isEmpty && !d.beyondHard (d.ref x)
  let d := d.modRef x fun r => { r with samples := (off :: r.samples).take 16, run := r.run + 1, outRun := 0 }
  let d := d.modRef x fun r => { r with avgs := ((d.now, r.avg) :: r.avgs).filter fun a => decide (d.now ≤ a.1 + 60 * secU) }
  let r := d.ref x
  let a := ofInt 32 r.avg
  let out := decide (r.avg < -d.softWin ∨ d.softWin < r.avg)
  let drift := decide (r.slope < -100 ∨ 100 < r.slope)
  let hard := d.beyondHard r
  let d := d.when (out && !r.softOut) fun d => d.occur (evRef x) 0x43 a
  let d := d.when (drift && !r.drifting) fun d => d.occur (evRef x) 0x44 a
  let d := d.modRef x fun r => { r with softOut := out, drifting := drift }
  if hard then d.when inside fun d => d.disqualify x
  else if !d.qualified x && decide (16 ≤ r.run) then
    (((d.setBit F.TB_STATUS_qualified x true).modRef x fun r => { r with qual := 2 }).occur (evRef x) 0x41 a).stateChanged x
  else d

/-- QUAL_SAMPLE (R67-R71). DESIGN CHOICE (log 42): while the running average is empty a sample is accepted whatever it
is, since R68 gives it nothing to differ from. -/
def execQualSample (t x : Nat) (offset : Int) (s : State) : Host.Outcome State Fault Refusal :=
  onDev (inputOk x) t s fun d =>
    let r := d.ref x
    if d.refLost x || (x == 4 && !d.flag F.TB_REFV_CFG_enable) then d
    else
      let d := d.when (r.qual == 0) fun d => d.modRef x fun r => { r with qual := 1 }
      if !r.samples.isEmpty && decide (offset - r.avg < -d.hardWin ∨ d.hardWin < offset - r.avg) then
        let d := d.modRef x fun r => { r with outRun := r.outRun + 1, outliers := satAdd 16 r.outliers 1, run := 0 }
        d.when (decide (3 ≤ (d.ref x).outRun)) fun d => d.disqualify x
      else d.acceptSample x offset

/-! ### The DPLL (R62-R66, R81-R84, R89) -/

/-- The phase-step threshold in u, 10 to 1,000 ns (Table 2-13). -/
def Dev.stepThr (d : Dev) : Int := (min 1000 (max 10 (d.rd F.TB_DPLL_CFG_step_thr)) * nsU : Nat)

/-- `ctl` held to a change of 0.05 ppm/s from the control value in force, in 10^-9 ppm (R66). -/
def limitCtl (t : Timebase) (now : Nat) (ctl : Int) : Int :=
  let m : Int := (50000000 * (now - t.ctlAt) / secU : Nat)
  max (t.ctl - m) (min (t.ctl + m) ctl)

/-- The control value noted, the last 66 s of them kept (R64). -/
def Dev.noteCtl (d : Dev) (p : Plane) (ctl : Int) : Dev :=
  d.modTb p fun t => { t with ctl := ctl, ctlAt := d.now, hist := ((d.now, ctl) :: t.hist).filter fun x => decide (d.now ≤ x.1 + 66 * secU) }

/-- Some input is eligible (R86). -/
def Dev.anyEligible (d : Dev) : Bool := (List.range 5).any d.eligible

/-- The lead's DPLL takes its selection and fall-back from the priority manager, or from its own TB_DPLL_SEL while pm_en
is 0 (R73, R79, Table 2-9). -/
def Dev.driveSel (d : Dev) : Dev :=
  let i := d.lead.id
  if d.flag F.TB_CTRL_pm_en then
    (d.wr F.TB_DPLL_SEL_manual (d.rd F.TB_STATUS_sel) i).wr F.TB_DPLL_SEL_fallback (d.rd F.TB_STATUS_fallback) i
  else d.wr F.TB_STATUS_fallback (selIndex (d.rd F.TB_DPLL_SEL_fallback i))

/-- Timebase `p` leads (R86, R87): it takes the selected input with build-out; with no input eligible it enters FREERUN or
BECALMED. A selected input that is lost is not taken. -/
def Dev.takeLead (d : Dev) (p : Plane) : Dev :=
  let d := if d.lead == p then d else (d.wr F.TB_STATUS_lead p.id).occur (evTb p) 0x4C
  let d := d.driveSel
  let x := d.rd F.TB_STATUS_sel
  if d.anyEligible && x < 5 && !d.refLost x then (d.freeze p).setTb p 3
  else (d.noteSel 7).holdOver (if x < 5 && d.refLost x then d.causeOf (evRef x) else d.causeOf (evPl p.other))

/-- The follower becomes lead after the lead's failure (R86). -/
def Dev.failover (d : Dev) : Dev :=
  let new := d.lead.other
  if d.tbState d.lead == 6 && d.tbState new == 5 then d.takeLead new else d

/-- A phase step (R63): coast, and measure the input's phase as for a switch. -/
def Dev.phaseStep (d : Dev) (p : Plane) : Dev := ((d.occur (evTb p) 0x4B).freeze p).setTb p 3

/-- The LOCKED criteria of Table 2-5, judged on one update. -/
def Dev.judgeLock (d : Dev) (p : Plane) (phase freq : Int) : Dev :=
  let good := decide (phase.natAbs ≤ 10 * nsU ∧ freq.natAbs ≤ 10)
  let d := d.modTb p fun t => { t with phase := phase, prev := some phase
                                       critFrom := if good then some (t.critFrom.getD d.now) else none }
  match (d.tb p).critFrom with
  | some c => if d.tbState p == 1 && decide (c + 2 * secU ≤ d.now) then d.setTb p 2 else d
  | none => d

/-- The follower's guard trips (R89). -/
def Dev.guardTrips (d : Dev) (depart leadFreq : Int) : Bool :=
  decide (d.stepThr < depart.natAbs ∨ 1000 < leadFreq.natAbs)

/-- The phase error of a timebase: against REFV it is what the last accepted sample states less the build-out (R58, R81),
against another input what the command gives. -/
def Dev.phaseOf (d : Dev) (p : Plane) (phase : Int) : Int :=
  match d.tim.refvOff with
  | some z => if p = d.lead ∧ d.rd F.TB_STATUS_sel = 4 then z - (d.tb p).buildout else phase
  | none => phase

/-- The phase error `phase` is a phase step (R63), or is treated as one (R448). -/
def Dev.steps (d : Dev) (p : Plane) (phase : Int) : Bool :=
  (d.tb p).stepNext || match (d.tb p).prev with
    | some old => decide (d.stepThr < (phase - old).natAbs)
    | none => false

/-- One DPLL phase update of a timebase (R63-R66, R89). -/
def Dev.phaseUpdate (d : Dev) (p : Plane) (phase freq ctl depart leadFreq : Int) : Dev :=
  let st := d.tbState p
  let t := d.tb p
  let phase := d.phaseOf p phase
  if st == 1 || st == 2 then
    if d.steps p phase then d.phaseStep p
    else
      let c := ctl * 1000000
      let d := d.noteCtl p (if st == 1 then limitCtl t d.now c else c)
      (d.judgeLock p phase freq).refreshPins
  else if st == 5 then
    if d.guardTrips depart leadFreq then (d.planeFault d.lead 6).failover
    else ((d.noteCtl p (ctl * 1000000)).modTb p fun t => { t with phase := phase }).refreshPins
  else d

/-- DPLL_PHASE_UPDATE (R63, R66, R89). -/
def execDpllPhaseUpdate (t : Nat) (tb : Plane) (phase freq ctl depart leadFreq : Int) (s : State) :
    Host.Outcome State Fault Refusal :=
  onDev true t s fun d => d.phaseUpdate tb phase freq ctl depart leadFreq

/-- SWITCHING_DONE (R81, R82): the measured difference becomes build-out; REFV's is what its last accepted sample states
(R58). -/
def execSwitchingDone (t : Nat) (tb : Plane) (diff : Int) (s : State) : Host.Outcome State Fault Refusal :=
  onDev true t s fun d =>
    if d.tbState tb == 3 then
      let z := if d.rd F.TB_STATUS_sel = 4 then d.tim.refvOff.getD diff else diff
      (d.modTb tb fun x => { x with buildout := z, prev := none, critFrom := none, ctlAt := d.now }).setTb tb 1
    else d

/-! ### The priority manager (R73-R80) -/

/-- The hold-off, in u: larger values act as 100 (Table 2-12). -/
def Dev.holdOff (d : Dev) : Nat := min 100 (d.rd F.TB_PM_CTRL_holdoff) * (secU / 10)

/-- The present state of an input has persisted for the hold-off (R75). -/
def Dev.persists (d : Dev) (x : Nat) : Bool := decide ((d.ref x).since + d.holdOff ≤ d.now)

/-- The designated fall-back, in TB_STATUS and in the lead's TB_DPLL_SEL (R79). -/
def Dev.designate (d : Dev) : Dev :=
  let x := d.rd F.TB_STATUS_sel
  let f := d.best (d.tim.sees.filter fun y => y != x && d.eligible y)
  (d.wr F.TB_STATUS_fallback f).wr F.TB_DPLL_SEL_fallback f d.lead.id

/-- The priority manager selects an input, at most once per hold-off interval (R75). -/
def Dev.pmSelect (d : Dev) (x src : Nat) : Dev :=
  let soon := match d.tim.pmAt with
    | some a => decide (d.now < a + d.holdOff)
    | none => false
  if soon || d.rd F.TB_STATUS_sel == x then d
  else
    let d := { d with tim := { d.tim with pmAt := some d.now } }
    (d.wr F.TB_DPLL_SEL_manual x d.lead.id).select x src

/-- The priority manager's choice after a state change that has lasted (R76, R77, R80). -/
def Dev.pmAct (d : Dev) (src : Nat) : Dev :=
  let x := d.rd F.TB_STATUS_sel
  let can := d.tim.sees.filter d.eligible
  match d.forced with
  | some f =>
    if can.contains f then d.pmSelect f src
    else if x == 7 && !can.isEmpty then d.pmSelect (d.best can) src
    else d
  | none =>
    if can.isEmpty then d
    else if x == 7 || ((!d.qualified x || d.refLost x) && d.persists x) then d.pmSelect (d.best can) src
    else d

/-- PM_HOLDOFF_EXPIRY (R75-R77, R79, R80): an input's state has persisted for the hold-off. -/
def execPmHoldoffExpiry (t x src : Nat) (s : State) : Host.Outcome State Fault Refusal :=
  onDev (inputOk x) t s fun d =>
    let sees := if d.eligible x && d.persists x then setInsert x d.tim.sees else d.tim.sees
    let d := { d with tim := { d.tim with sees := sees } }
    if d.flag F.TB_CTRL_pm_en && d.leadUp && d.taskRuns 0 then ((d.pmAct src).designate).noteForce else d.noteForce

/-- The wait-to-restore of an input, counted from the end of its hold-off, has passed without a break of its eligibility
(R78); larger values act as 3,600 (Table 2-12). -/
def Dev.restored (d : Dev) (x : Nat) : Bool :=
  decide ((d.ref x).since + d.holdOff + min 3600 (d.rd F.TB_PM_CTRL_wtr) * secU ≤ d.now)

/-- PM_WTR_EXPIRY (R78-R80). -/
def execPmWtrExpiry (t x src : Nat) (s : State) : Host.Outcome State Fault Refusal :=
  onDev (inputOk x) t s fun d =>
    let cur := d.rd F.TB_STATUS_sel
    if d.flag F.TB_CTRL_pm_en && d.leadUp && d.taskRuns 0 && d.flag F.TB_PM_CTRL_revertive && d.forced.isNone
        && d.tim.sees.contains x && d.eligible x && d.restored x && cur != 7 && d.better x cur
    then (d.pmSelect x src).designate else d

/-- A write to TB_PM_FORCE (R77, R80). -/
def Dev.pmForce (d : Dev) (val : Word) (src : Nat) : Dev :=
  let d := (d.wr F.TB_PM_FORCE_input (F.TB_PM_FORCE_input.get val)).wr F.TB_PM_FORCE_force (F.TB_PM_FORCE_force.get val)
  if d.flag F.TB_CTRL_pm_en && d.leadUp && d.taskRuns 0 then
    match d.forced with
    | some x => ((if d.eligible x then d.pmSelect x src else d).designate).noteForce
    | none => d.noteForce
  else d.noteForce

/-- TB_PM_FORCE_WRITE (R77, R80). -/
def execTbPmForceWrite (t : Nat) (val : Word) (src : Nat) (s : State) : Host.Outcome State Fault Refusal :=
  onDev true t s fun d => d.pmForce val src

/-- An input that cannot be followed: it is lost, or is REFV while REFV is disabled and so absent (R60). -/
def Dev.cannotFollow (d : Dev) (x : Nat) : Bool := d.refLost x || (x == 4 && !d.flag F.TB_REFV_CFG_enable)

/-- A write to TB_DPLL_SEL of a timebase (R73). -/
def Dev.dpllSel (d : Dev) (tb : Plane) (val : Word) (src : Nat) : Dev :=
  if d.flag F.TB_CTRL_pm_en then d
  else
    let m := F.TB_DPLL_SEL_manual.get val
    let f := F.TB_DPLL_SEL_fallback.get val
    let d := (d.wr F.TB_DPLL_SEL_manual m tb.id).wr F.TB_DPLL_SEL_fallback f tb.id
    if tb == d.lead && d.leadUp then
      let d := d.wr F.TB_STATUS_fallback (selIndex f)
      let x := selIndex m
      if x == d.rd F.TB_STATUS_sel then d
      else if x == 7 then (d.noteSel 7).holdOver
      else if d.cannotFollow x then (d.noteSel x).selLost src
      else d.select x src
    else d

/-- TB_DPLL_SEL_WRITE (R73). -/
def execTbDpllSelWrite (t : Nat) (tb : Plane) (val : Word) (src : Nat) (s : State) : Host.Outcome State Fault Refusal :=
  onDev true t s fun d => d.dpllSel tb val src

/-! ### Lead changes, classes, snapshots -/

/-- LEAD_FAILOVER (R86). -/
def execLeadFailover (t : Nat) (s : State) : Host.Outcome State Fault Refusal :=
  onDev true t s fun d => d.failover

/-- A write of TB_CTRL.lead_req (R88): the requested timebase leads; the other follows it. -/
def Dev.leadReq (d : Dev) (v : Nat) : Dev :=
  let old := d.lead
  let new := old.other
  if v == new.id + 1 && d.tbState new == 5 then
    let st := d.tbState old
    let d := (d.setTb old 5).wr F.TB_STATUS_lead new.id
    let d := (d.occur (evTb new) 0x4C).driveSel
    if d.rd F.TB_STATUS_sel < 5 then (d.freeze new).setTb new 3
    else if st == 4 then (d.freeze new).setTb new 4
    else d.setTb new 0
  else d

/-- LEAD_REQ (R88). -/
def execLeadReq (t v : Nat) (s : State) : Host.Outcome State Fault Refusal :=
  onDev true t s fun d => d.leadReq v

/-- A salvo that has been delivered and not completed names the class, or carries a TAKE_FORMAT into it, or
an output runs in it (R49). -/
def Dev.clsInUse (d : Dev) (n : Nat) : Bool :=
  (d.outs.any fun (_, x) => x.raster.any (fun r => r.cls == n) || x.change.any (fun c => c.dst.any fun r => r.cls == n))
    || (d.svr.any fun (_, r) => r.items.any fun it => it.isSalvo && it.seq != 0
          && (it.cls == n || it.entries.any fun b => descOp b == 0x12 && !fmtDeclass b && fmtCls b == n))

/-- A TB_CLASS word that R48 accepts. -/
def clsWordOk (val : Word) : Bool :=
  let g (f : Field) := f.get val
  let lead := g F.TB_CLASS_latch_lead
  classForm (g F.TB_CLASS_lines) (g F.TB_CLASS_scan) (g F.TB_CLASS_rate)
    && switchLineOk (g F.TB_CLASS_lines) (g F.TB_CLASS_scan) (g F.TB_CLASS_switch_line) (g F.TB_CLASS_switch_field)
    && (lead == 0 || decide (2 ≤ lead ∧ lead ≤ 32))

/-- The parameters of R50 that a TB_CLASS word holds. -/
def clsWordParams (w : Word) : Nat :=
  packParams (F.TB_CLASS_switch_line.get w) (F.TB_CLASS_switch_field.get w) (F.TB_CLASS_latch_lead.get w)

/-- A write to TB_CLASSn (R48-R50); the PULSE outputs of the class follow it (R443). -/
def Dev.writeClass (d : Dev) (n : Nat) (val : Word) : Dev :=
  let old := d.reg .TB_CLASS n
  let val := val &&& 0x7FFFFFF#32
  let g (f : Field) (w : Word) := f.get w
  let alters := (g F.TB_CLASS_enable old == 1 && g F.TB_CLASS_enable val == 0)
    || g F.TB_CLASS_rate old != g F.TB_CLASS_rate val || g F.TB_CLASS_scan old != g F.TB_CLASS_scan val
    || g F.TB_CLASS_lines old != g F.TB_CLASS_lines val
  if !clsWordOk val then d.raise F.TB_ERR_class_invalid
  else if alters && d.clsInUse n then d.raise F.TB_ERR_class_in_use
  else
    let d := (d.setReg .TB_CLASS n val).refreshPulses n
    if clsWordParams val == clsWordParams old then d
    else
      let r := d.clsRate n
      let first := ceilDiv ((d.epoch * rateNum r + rateDen r * secU)) (rateDen r * secU)
      let q := Tbl.get [] d.tim.clsPend n ++ [(frameStart r first, clsWordParams val)]
      { d with tim := { d.tim with clsPend := Tbl.set [] d.tim.clsPend n q } }

/-- TB_CLASS_WRITE (R47-R50, R197). -/
def execTbClassWrite (t n : Nat) (val : Word) (s : State) : Host.Outcome State Fault Refusal :=
  onDev (classOk n) t s fun d => (d.writeClass n val).noteReg d .TB_CLASS n

/-- The parameters of a class whose frame start has come take effect (R50): each write's at its own. -/
def Dev.classEffect (d : Dev) (n : Nat) : Dev :=
  let q := Tbl.get [] d.tim.clsPend n
  match (q.filter fun x => decide (x.1 ≤ d.epoch)).getLast? with
  | none => d
  | some x => { d with tim := { d.tim with clsPend := Tbl.set [] d.tim.clsPend n (q.filter fun y => decide (d.epoch < y.1))
                                           clsNow := Tbl.set 0 d.tim.clsNow n x.2 } }

/-- CLASS_PARAM_TAKE_EFFECT (R50): at the frame start noted by the write. -/
def execClassParamTakeEffect (t n : Nat) (s : State) : Host.Outcome State Fault Refusal :=
  onDev (classOk n) t s fun d => d.classEffect n

/-- An epoch counter captured into the snapshot registers (R97). -/
def Dev.snapshot (d : Dev) (p : Plane) : Dev :=
  let u := (d.tb p).epoch
  let sec := u / secU
  (((d.wr F.TB_SNAP_SEC_LO_sec_lo (sec % 2 ^ 32)).wr F.TB_SNAP_SEC_HI_sec_hi (sec / 2 ^ 32)).wr
    F.TB_SNAP_NS_ns (u / nsU % 1000000000)).wr F.TB_SNAP_FRAC_frac (u % nsU)

/-- TB_SNAP_A (R97). -/
def execTbSnapA (t : Nat) (s : State) : Host.Outcome State Fault Refusal :=
  onDev true t s fun d => d.snapshot .a

/-- TB_SNAP_B (R97): Timebase A where both bits are written. -/
def execTbSnapB (t : Nat) (both : Bool) (s : State) : Host.Outcome State Fault Refusal :=
  onDev true t s fun d => d.snapshot (if both then .a else .b)

/-! ### TIME_SET and TIME_ADJ (R58-R60, R91, R94) -/

/-- TIME_SET's time `u`: the start jump while it is open, later by slewing. -/
def Dev.timeSet (d : Dev) (u : Nat) : Dev :=
  if d.tim.jumpOpen then d.startJump u
  else
    let d := d.raise F.TB_ERR_time_set_slewed
    { d with tim := { d.tim with timeSlew := (u : Int) - d.epoch } }

/-- A REFV sample for epoch second `sec` with its offset in u (R58-R60): applied at once, it states REFV's phase, and
where the lead follows REFV its phase error. -/
def Dev.timeAdj (d : Dev) (sec : Nat) (off : Int) : Dev :=
  let late := min 2000 (max 100 (d.rd F.TB_REFV_CFG_late_ms)) * msU
  if !d.flag F.TB_REFV_CFG_enable then d.raise F.TB_ERR_refv_off
  else if sec * secU + late < d.epoch then (d.raise F.TB_ERR_refv_late).occur (evRef 4) 0x45
  else
    let d := { d with tim := { d.tim with refvFrom := d.now, refvOff := some off } }
    let d := if d.refLost 4 then d.inputBack 4 else d
    let p := d.lead
    let st := d.tbState p
    if d.rd F.TB_STATUS_sel = 4 ∧ (st = 1 ∨ st = 2) then
      let e := off - (d.tb p).buildout
      if d.steps p e then d.phaseStep p else (d.modTb p fun t => { t with phase := e, prev := some e }).refreshPins
    else d

end Sys2Proof.Machine
end

