-- ==== Sys2Proof/Machine/Planes.lean ====
section
/-! DEFINITION. Plane faults, restart and joining (R87, R296-R302, R320, R375, R379, R569, Table 8-3), and the training of
the Hamper stacks (R320). -/

namespace Sys2Proof.Machine

/-! ### Restart (R300) -/

/-- Automatic restarts of the last hour, in PL_STATUS (Table 8-6). -/
def Dev.noteAutos (d : Dev) (p : Plane) : Dev :=
  let n := ((d.plane p).autos.filter fun a => decide (d.now < a + 3600 * secU)).length
  (d.wr F.PL_STATUS_recent n p.id).put F.PL_STATUS_auto_blocked (decide (d.rd F.PL_CTRL_auto_max p.id ≤ n)) p.id

/-- The plane enters RESTARTING: its channels close, its overlay sets stay open and turn stale (R569), every engine is
tested again (R375), its Coolbox and slot buffers empty, its Hamper stack trains (R320), and its outputs wait for their
copies (R301). -/
def Dev.enterRestart (d : Dev) (p : Plane) : Dev :=
  let d := d.setPlane p 2
  let owners := ((d.plane p).owners.filter fun x => !isSet x.1).map (·.1)
  let d := d.each owners fun d id => d.returnOwner p id
  let out := ((d.plane p).engines.filter fun x => decide (2 ≤ x.2.state) && !d.engRemoved p x.1).length
  let d := (d.wr F.GE_STATUS_half_free (d.rd F.GE_STATUS_half_free p.id + 2 * out) p.id).wr F.GE_STATUS_disabled 0 p.id
  let d := d.modPlane p fun x =>
    { x with engines := x.engines.map fun (e : Nat × Engine) => (e.1, { e.2 with state := 0, loads := [], pub := 0#32 })
             owners := x.owners.map fun (o : Nat × Owner) => (o.1, { o.2 with stale := true })
             coolbox := [], slots := [], pals := [], palPend := [], training := true }
  let d := d.put F.HAM_STATUS_trained false p.id
  { d with outs := d.outs.map fun (x : Nat × Out) => (x.1, { x.2 with pl := x.2.pl.modPl p fun y =>
      { y with waitCopy := x.2.raster.isSome, started := false, staged := none, reader := {}, aread := [], swNext := false
               under := false, ovlUnder := false, frameNo := none, conv := 0, eqv := false, eqFrom := none
               eqStart := none, realign := none, aconv := 0, tsFrame := none } }) }

/-- RESTARTING with the plane's Hamper contents gone: sets read as zeros (R569). -/
def restartPlane (p : Plane) (m : Mems) (d : Dev) : Mems × Dev :=
  ({ m with hamper := m.hamper.modPl p fun _ => [] }, d.enterRestart p)

/-- PL_CTRL.fault_req written with 1 (R296). -/
def Dev.faultReq (d : Dev) (p : Plane) : Dev := d.planeFault p 8

/-- PL_FAULT_REQ (R296); a gated plane discards it (R464). -/
def execPlFaultReq (t : Nat) (plane : Plane) (s : State) : Host.Outcome State Fault Refusal :=
  onDev true t s fun d => if d.landDue.planeGated plane then d.landDue else d.landDue.faultReq plane

/-- PL_CTRL.restart_req written with 1: ignored outside FAULTED (Table 8-6) and while the plane is gated (R449). -/
def restartReq (p : Plane) (m : Mems) (d : Dev) : Mems × Dev := if d.plState p == 1 && !d.planeGated p then restartPlane p m d else (m, d)

/-- PL_RESTART_REQ (R300). -/
def execPlRestartReq (t : Nat) (plane : Plane) (s : State) : Host.Outcome State Fault Refusal :=
  onMem true t s fun m d => restartReq plane m d.landDue

/-- PLANE_AUTO_RESTART (R300, Table 8-3): 100 ms after the fault, while the causes and the hour's count allow it. -/
def execPlaneAutoRestart (t : Nat) (plane : Plane) (s : State) : Host.Outcome State Fault Refusal :=
  onMem true t s fun m d =>
    let d := d.landDue
    let x := d.plane plane
    let recent := x.autos.filter fun a => decide (d.now < a + 3600 * secU)
    if d.plState plane == 1 && x.autoOk && d.flag F.PL_CTRL_auto_restart plane.id && decide (x.faultAt + 100 * msU ≤ d.now)
        && decide (recent.length < d.rd F.PL_CTRL_auto_max plane.id) then
      restartPlane plane m ((d.modPlane plane fun x => { x with autos := d.now :: recent }).noteAutos plane)
    else (m, d.noteAutos plane)

/-- TAKE_SEQUENCER_WATCHDOG (R296): cause 7. -/
def execTakeSequencerWatchdog (t : Nat) (plane : Plane) (s : State) : Host.Outcome State Fault Refusal :=
  onDev true t s fun d => d.landDue.planeFault plane 7

/-! ### The Hamper stack (R320) -/

/-- A Hamper stack fault: its cause, and the plane fault of cause 5 that it brings about (R320, R414). -/
def Dev.stackFault (d : Dev) (p : Plane) : Dev :=
  let d := (d.put F.HAM_STATUS_trained false p.id).setCause (evHam p) 0x58
  let id := d.causeOf (evHam p)
  (d.modPlane p fun x => { x with stackCause := id }).planeFault p 5 id

/-- HAMPER_STACK_FAULT (R320). -/
def execHamperStackFault (t : Nat) (plane : Plane) (s : State) : Host.Outcome State Fault Refusal :=
  onDev true t s fun d => d.landDue.stackFault plane

/-- Pages and tokens of the plane's stack with `n` pseudo-channels quarantined. -/
def stackPages (n : Nat) : Nat := 2097152 - 65536 * n
/-- Tokens of the stack. -/
def stackTokens (n : Nat) : Nat := 51200 - 1600 * n

/-- The stack's training ends: failed pseudo-channels are quarantined, and the pool follows. -/
def Dev.trained (d : Dev) (p : Plane) (failed : Word) : Dev :=
  let qs := (List.range 32).filter fun q => bitOf failed.toNat q
  let old := d.rd F.HAM_QUAR_pc_mask p.id
  let oldN := ((List.range 32).filter fun q => bitOf old q).length
  let first := d.rd F.HAM_TOKENS_total p.id == 0
  let n := qs.length
  let pages := if first then stackPages n else d.rd F.HAM_POOL_pool p.id + stackPages n - stackPages oldN
  let toks := if first then stackTokens n else d.rd F.HAM_TOKENS_pool p.id + stackTokens n - stackTokens oldN
  let d := d.modPlane p fun x => { x with training := false }
  let d := ((d.wr F.HAM_QUAR_pc_mask failed.toNat p.id).wr F.HAM_STATUS_pc_quar n p.id).wr F.HAM_POOL_pool pages p.id
  let d := (d.wr F.HAM_TOKENS_pool toks p.id).wr F.HAM_TOKENS_total (stackTokens n) p.id
  let d := d.each (qs.filter fun q => !bitOf old q) fun d q => d.occur (evHam p) 0x59 q
  if 4 < n then d.stackFault p else (d.put F.HAM_STATUS_trained true p.id).endCause (evHam p)

/-- STACK_TRAIN_DONE (R320): at start-up or during a plane restart, while the stack trains. -/
def execStackTrainDone (t : Nat) (plane : Plane) (failed : Word) (s : State) : Host.Outcome State Fault Refusal :=
  onDev true t s fun d => if (d.plane plane).training then d.landDue.trained plane failed else d

/-! ### Joining (R87, R301) -/

/-- A recovering timebase steps to the lead, or becomes lead where there is none (R87). -/
def Dev.recoverTb (d : Dev) (p : Plane) : Dev :=
  let q := p.other
  if d.tbState q == 6 then
    (d.setTb p 1).takeLead p
  else
    let e := (d.tb q).epoch
    let b := (d.tb q).buildout
    let d := if d.lead == q then d else (d.wr F.TB_STATUS_lead q.id).occur (evTb q) 0x4C
    (d.modTb p fun x => { x with epoch := e, buildout := b, prev := none, critFrom := none }).setTb p 5

/-- The plane enters JOINING: the join instant J (R301). Outputs of no class have nothing to wait for. -/
def Dev.join (d : Dev) (p : Plane) : Dev :=
  let d := (d.recoverTb p).setPlane p 3
  let q := p.other
  let d := d.modPlane p fun x => { x with joinAt := d.now, joinEp := d.epoch, pals := (d.plane q).pals }
  let d := { d with outs := d.outs.map fun (x : Nat × Out) => (x.1,
    if x.2.raster.isSome then x.2
    else { x.2 with pl := x.2.pl.modPl p fun y => { y with active := (x.2.pl.pl q).active, ovl := (x.2.pl.pl q).ovl } }) }
  (d.bump F.PL_CNT_restarts p.id).joinDone p

/-- PLANE_RESTART_DONE (R301, R379): the restart is complete and the stack trained. -/
def execPlaneRestartDone (t : Nat) (plane : Plane) (s : State) : Host.Outcome State Fault Refusal :=
  onDev true t s fun d =>
    let d := d.landDue
    if d.plState plane == 2 && !(d.plane plane).training && d.flag F.HAM_STATUS_trained plane.id then d.join plane else d

end Sys2Proof.Machine
end

