-- ==== Sys2Proof/Machine/Ports.lean ====
section
/-! DEFINITION. Host port loss, probing and restoration, and PERST (R303-R305, R547). -/

namespace Sys2Proof.Machine

/-- With the port's link up or down. -/
def Dev.setLink (d : Dev) (p : Port) (up : Bool) : Dev :=
  (d.modPort p fun x => { x with linkUp := up }).put F.HIF_PORT_STATUS_link_up up p.id

/-- The port's PCI Express configuration space reset: Bus Master Enable 0, Function Mask 0 (R304, R547). -/
def Dev.resetConfig (d : Dev) (p : Port) : Dev := d.modPort p fun x => { x with bme := false, fnMask := false }

/-- The action of a standalone item needs the host: transfers, statements and results still to deliver, and an NVM_WRITE
whose data has not been read (R304). -/
def Dev.needsHost (d : Dev) (p : Port) (r : Nat) (it : Item) : Bool :=
  let op := descOp it.head
  op == 0x31 || op == 0x32 || op == 0x41 || (decide (0x50 ≤ op ∧ op ≤ 0x59) && op != 0x56)
    || (op == 0x40 && !(d.ldr.queue.any fun c => c.what == 0 && c.tag == 16 * p.id + r))

/-- Standalone items whose action has begun and needs the host end with ABANDONED (R304). -/
def Dev.abandon (d : Dev) (p : Port) (r : Nat) : Dev :=
  d.modRing p r fun x => { x with items := x.items.map fun it =>
    if it.phase == .acting && d.needsHost p r it then { it with phase := .done, status := 0x1E } else it }

/-- Records due to the lost port are discarded and counted (R304). -/
def Dev.discardHeld (d : Dev) (p : Port) : Dev :=
  let d := d.each (List.range 16) fun d c => d.flushHeld p c (d.rr p (.cpr c)).held
  let n := (d.rr p .asr).heldAsr.length + (d.ev.waits.po p).length
  let d := (d.modRec p .asr fun x => { x with heldAsr := [] }).put F.HIF_ASR_STATUS_full false p.id
  (d.modWaits p fun _ => []).drop p n

/-- A host port is lost (R303, R304). -/
def Dev.loseNow (d : Dev) (p : Port) : Dev :=
  if d.lost p then d
  else
    let d := ((d.put F.HIF_LOSS_lost true p.id).bump F.HIF_LOSS_losses p.id).refreshActive p
    let d := d.modPort p fun x => { x with reading := false, sweepDue := false, cctReads := [], probing := false }
    let d := d.each (List.range 16) fun d r => (d.withdrawUnlatched p r).abandon p r
    let d := d.each [4 + p.id, 6 + p.id, 8 + p.id] fun d m => d.masterReset m
    ((d.discardHeld p).occur (evPort p) 0x60).deliverAll

/-- The port's link goes down: it is lost, and its configuration space is reset (R303, R304). -/
def Dev.losePort (d : Dev) (p : Port) : Dev := ((d.setLink p false).resetConfig p).loseNow p

/-- PORT_LOST (R303, R304). -/
def execPortLost (t : Nat) (port : Port) (why : PortLoss) (s : State) : Host.Outcome State Fault Refusal :=
  onDev true t s fun d =>
    match why with
    | .linkDown => d.losePort port
    | .busMasterOff => (d.modPort port fun x => { x with bme := false }).loseNow port
    | .readsFailed => if 8 ≤ (d.port port).fails then d.loseNow port else d

/-- PORT_PROBE (R305): while the port is lost, its link up and Bus Master Enable 1, one probe at a time. -/
def execPortProbe (t : Nat) (port : Port) (linkUp bme : Bool) (s : State) : Host.Outcome State Fault Refusal :=
  onDev true t s fun d =>
    if !d.lost port then d
    else
      let up := linkUp && !(d.port port).perst
      let d := (d.setLink port up).modPort port fun x => { x with bme := bme }
      if up && bme && !(d.port port).probing then
        (d.modPort port fun x => { x with probing := true }).emit (.hostRead port (d.dbBase port) 0xD0)
      else d

/-- PORT_RESTORED (R305): a probe has completed without error. -/
def execPortRestored (t : Nat) (port : Port) (s : State) : Host.Outcome State Fault Refusal :=
  onDev true t s fun d =>
    if d.lost port && (d.port port).probing && (d.port port).linkUp && (d.port port).bme then
      let d := (d.put F.HIF_LOSS_lost false port.id).refreshActive port
      let d := d.modPort port fun x => { x with probing := false, fails := 0, dirty := true, resumed := true }
      (d.occur (evPort port) 0x61).deliverAll
    else d

/-- PERST_ASSERT (R547): the port's PCI Express core and configuration space reset, and the port is lost. -/
def execPerstAssert (t : Nat) (port : Port) (s : State) : Host.Outcome State Fault Refusal :=
  onDev true t s fun d => (d.modPort port fun x => { x with perst := true, answers := false }).losePort port

/-- PERST_RELEASE (R547): the port answers configuration requests once t0 has passed. -/
def execPerstRelease (t : Nat) (port : Port) (s : State) : Host.Outcome State Fault Refusal :=
  onDev true t s fun d =>
    if (d.port port).perst then d.modPort port fun x => { x with perst := false, answers := d.start.booted } else d

end Sys2Proof.Machine
end

