-- ==== Sys2Proof/Machine/Clock.lean ====
section
/-! DEFINITION. Oscillators, lane synthesizers, octet delay lines, fractional synthesizers, clock outputs and
clock safety (chapter 13). -/

namespace Sys2Proof.Machine

/-! ### State of the loops -/

/-- XA is usable (R429). -/
def Dev.xaOk (d : Dev) : Bool := d.flag F.CLK_STATUS_xa_usable
/-- XB is qualified (R431). -/
def Dev.xbOk (d : Dev) : Bool := d.flag F.CLK_STATUS_xb_qualified
/-- XB is lane-fit (R435). -/
def Dev.xbFit (d : Dev) : Bool := d.flag F.CLK_STATUS_xb_lane_fit

/-- A lane synthesizer runs on XB. -/
def Dev.lsOnXb (d : Dev) : Plane → Bool
  | .a => d.flag F.CLK_STATUS_ls_a_src
  | .b => d.flag F.CLK_STATUS_ls_b_src

/-- With a lane synthesizer's source written. -/
def Dev.setLsSrc (d : Dev) (p : Plane) (xb : Bool) : Dev :=
  match p with
  | .a => d.put F.CLK_STATUS_ls_a_src xb
  | .b => d.put F.CLK_STATUS_ls_b_src xb

/-- With a lane synthesizer's state written; DOM_CTL runs on FIO until LS-A locks and while it is failed
(Table 13-1), and OM, SYN4 and SYN5 take LS-B while LS-A is failed (R434, R436). -/
def Dev.setLs (d : Dev) (p : Plane) (v : Nat) : Dev :=
  let d := match p with
    | .a => d.wr F.CLK_STATUS_ls_a_state v
    | .b => d.wr F.CLK_STATUS_ls_b_state v
  let d := d.when (d.lsState .a == 1 && !d.flag F.CLK_STATUS_safe) fun d => d.put F.CLK_STATUS_ctl_on_fio false
  let d := d.when (d.lsState .a == 3) fun d => d.put F.CLK_STATUS_ctl_on_fio true
  { d with clk := { d.clk with omRef := if d.lsState .a == 3 then .b else .a } }.refreshCoast.refreshPins

/-- A locked lane synthesizer coasts (R435). -/
def Dev.coastLs (d : Dev) (p : Plane) : Dev :=
  if d.lsState p == 1 then
    let d := { d with clk := { d.clk with lsCoastAt := d.clk.lsCoastAt.modPl p fun _ => d.now } }
    ((d.raise F.CLK_ERR_ls_coast).occur (evLs p) 0x6A).setLs p 2
  else d

/-- A lane synthesizer has coasted for 50 ms (R435, R436). -/
def Dev.lsCoasted (d : Dev) (p : Plane) : Bool := d.lsState p == 2 && decide (d.clk.lsCoastAt.pl p + 50 * msU ≤ d.now)

/-- Some source is fit for the lane synthesizers. -/
def Dev.anyFit (d : Dev) : Bool := d.xaOk || d.xbFit

/-- The frequency a loop has reached; a first lock starts from 2,800 MHz (R442). -/
def Dev.loopHz (d : Dev) (l : Nat) : Nat := Tbl.get 2800000000 d.clk.ratio l

/-! ### DIAGCLK (R450) -/

/-- The frequency of a source of CLK_DIAG in Hz, FIO and SIO at the upper end of Table 13-1; none where the device has no
such source. DESIGN CHOICE (log 58): an idx past the last of its kind leaves DIAGCLK undriven; a recovered clock's frequency,
which the spec does not state, is free. -/
def Dev.diagHz (d : Dev) (src idx : Nat) : Option Nat :=
  match src with
  | 0 => some 440000000
  | 1 => some 1200000
  | 2 => some 50000000
  | 3 => some ([10000000, 20000000, 25000000, 50000000].getD (d.rd F.CLK_XB_CFG_freq) 50000000)
  | 4 | 5 => some 156250000
  | 6 => if idx < 48 then some 12500000000 else none
  | 7 => if idx < 384 then some (Config.rxClock (d.laneRate idx)) else none
  | 8 => if idx < 6 then some (ceilDiv (d.loopHz idx * (2 ^ 48 + Tbl.get 0 d.clk.eps idx).toNat) (2 ^ 48)) else none
  | 9 => some (if d.flag F.CLK_STATUS_ctl_on_fio then 440000000 else 500000000)
  | _ => none

/-- What DIAGCLK is driven from: the source and index of CLK_DIAG, divided by 2 to the smallest power from n on that keeps it
at or below 200 MHz; undriven while disabled, for sources 10-15, and in the safe state (R446, R450). -/
def Dev.diagDrive (d : Dev) : Option (Nat × Nat × Nat) :=
  let (src, idx, n) := (d.rd F.CLK_DIAG_src, d.rd F.CLK_DIAG_idx, d.rd F.CLK_DIAG_n)
  if !d.flag F.CLK_DIAG_enable || d.flag F.CLK_STATUS_safe then none
  else
    match d.diagHz src idx with
    | some hz => some (src, idx, ((List.range 64).find? fun m => decide (n ≤ m ∧ hz ≤ 200000000 * 2 ^ m)).getD 63)
    | none => none

/-- DIAGCLK follows its source (R450). -/
def Dev.refreshDiag (d : Dev) : Dev :=
  if d.diagDrive = d.clk.diag then d
  else { d with clk := { d.clk with diag := d.diagDrive } }.emit (.diagclk d.diagDrive)

/-! ### The safe state (R446-R448) -/

/-- A safe-state trigger (R446, R447); a further one during the safe state is counted. -/
def Dev.safeEnter (d : Dev) (code : Nat) : Dev :=
  let was := d.flag F.CLK_STATUS_safe
  let d := { d with clk := { d.clk with triggers := setInsert code d.clk.triggers } }
  let d := d.bump F.CLK_SAFE_count
  if was then d
  else
    let d := (((d.put F.CLK_STATUS_safe true).wr F.CLK_SAFE_trigger code).raise F.CLK_ERR_safe_entered).put
      F.CLK_STATUS_ctl_on_fio true
    let d := d.countUp 2
    let d := { d with clk := { d.clk with refAtSafe := (List.range 4).filter d.qualified, safeAt := d.now } }
    let d := d.each (List.range 384) fun d n => d.when (d.lnState n != 0) fun d => d.emit (.lane n .hiZ)
    let d := (d.emit (.lockPins true)).refreshPins.refreshDiag
    let d := d.occur evSafe 0x6D code
    d.when (d.flag F.GLB_START_laneref) fun d => (d.losePort .a).losePort .b

/-- Timers of lanes and slots stood still for `dt` u (R447). -/
def Dev.holdTimers (d : Dev) (dt : Nat) : Dev :=
  let lane (l : Lane) : Lane :=
    { l with since := l.since + dt, winAt := l.winAt + dt, recFrom := l.recFrom + dt, busyAt := l.busyAt + dt
             reqAt := l.reqAt + dt, skpFrom := l.skpFrom + dt }
  let slot (x : InSlot) : InSlot :=
    { x with lastCommit := x.lastCommit + dt, held := x.held.map fun c => { c with at' := c.at' + dt } }
  let d := { d with ins := d.ins.map fun (x : Nat × InSlot) => (x.1, slot x.2) }
  d.each (List.range 384) fun d n => d.when (d.lnState n != 0) fun d => d.modLane n lane

/-- The safe state ends (R448). -/
def Dev.safeLeave (d : Dev) : Dev :=
  let d := d.holdTimers (d.now - d.clk.safeAt)
  let d := { (d.put F.CLK_STATUS_safe false) with clk := { d.clk with triggers := [], lsReturn := ⟨false, false⟩, lsLockLost := ⟨false, false⟩ } }
  let d := d.each [Plane.a, Plane.b] fun d p =>
    d.when (d.lsState p != 0) fun d =>
      let was := d.lsState p
      let d := (d.setLsSrc p (!d.xaOk)).setLs p 1
      d.when (was != 1) fun d => d.occur (evLs p) 0x69
  let next (t : Timebase) : Timebase := { t with stepNext := true }
  let d := (d.modTb .a next).modTb .b next
  let d := d.each (List.range 384) fun d n =>
    let st := d.lnState n
    d.when (decide (2 ≤ st ∧ st ≤ 6) && !d.flag F.LN_STATUS_tx_idle n) fun d => d.zephyr n
  let d := d.each (List.range 384) fun d n =>
    if d.flag F.LN_CTRL_enable n then d.tryDetect n else if d.lnState n == 0 then d else d.setLane n 0
  ((d.emit (.lockPins false)).refreshCoast.refreshPins.refreshDiag).occur evSafe 0x6E

/-- Triggers stand no longer; the safe state ends when none does (R448, R533). -/
def Dev.clearTriggers (d : Dev) (cs : List Nat) : Dev :=
  let ts := d.clk.triggers.filter fun c => !cs.contains c
  let d := { d with clk := { d.clk with triggers := ts } }
  if d.flag F.CLK_STATUS_safe && ts.isEmpty then d.safeLeave else d

/-- The condition of a trigger of R446 stands. -/
def Dev.triggerStands (d : Dev) (code : Nat) : Bool :=
  match code with
  | 1 => !d.xaOk && d.clk.xaFailed && !d.xbFit && (d.lsState .a != 0 || d.lsState .b != 0)
  | 2 => !d.anyFit && (d.lsCoasted .a || d.lsCoasted .b)
  | 3 => d.lsState .a == 3 && d.lsState .b == 3
  | _ => true

/-- SAFE_STATE_TRIGGER (R446). -/
def execSafeStateTrigger (t code : Nat) (s : State) : Host.Outcome State Fault Refusal :=
  onDev (triggerOk code) t s fun d => if d.triggerStands code then d.safeEnter code else d

/-! ### XA (R429, R430) -/

/-- Start delay of XADLY in ms (Table 13-2). -/
def xaDelayMs (k : Nat) : Nat := [1, 2, 4, 8, 16, 32, 48, 64].getD k 64

/-- XA_START_DELAY_EXPIRY (R429, R41): the epoch counters run from 0, and the follower, whose state reads 0 at reset, follows
the lead (R85, log 21). -/
def execXaStartDelayExpiry (t : Nat) (s : State) : Host.Outcome State Fault Refusal :=
  onDev true t s fun d =>
    if d.start.booted && !d.clk.xaMon && decide (d.start.t0 + xaDelayMs (d.rd F.GLB_START_xadly) * msU ≤ d.now) then
      let zero (x : Timebase) : Timebase := { x with epoch := 0 }
      let d := (d.modTb .a zero).modTb .b zero
      let d := { d with clk := { d.clk with xaMon := true, xaFrom := d.now }, tim := { d.tim with running := true } }
      let q := d.lead.other
      if d.tbState q == 0 then d.setTb q 5 else d
    else d

/-- XA_USABLE (R429, R430, R448): the monitor has passed without a break for 1 ms, or after a failure for t_XA. -/
def execXaUsable (t : Nat) (s : State) : Host.Outcome State Fault Refusal :=
  onDev true t s fun d =>
    let wait := if d.clk.xaFailed then xaDelayMs (d.rd F.GLB_START_xadly) else 1
    if !d.clk.xaMon || d.xaOk || decide (d.now < d.clk.xaFrom + wait * msU) then d
    else
      let d := { (d.put F.CLK_STATUS_xa_usable true) with clk := { d.clk with xaFailed := false, xbWinAt := d.now } }
      let d := d.when (d.rd F.GLB_START_phase == 1) fun d => d.wr F.GLB_START_phase 2
      (d.occur evXa 0x6C).clearTriggers [1, 2, 3]

/-- XA has failed (R430, R435, R446). -/
def Dev.xaFail (d : Dev) : Dev :=
  let d := { d with clk := { d.clk with xaFrom := d.now } }
  if !d.clk.xaMon || d.clk.xaFailed then d
  else
    let was := d.xaOk
    let d := { ((d.put F.CLK_STATUS_xa_usable false).raise F.CLK_ERR_xa_fail) with clk := { d.clk with xaFailed := true } }
    let d := d.occur evXa 0x6B
    let d := d.each [Plane.a, Plane.b] fun d p => d.when (!d.lsOnXb p) fun d => d.coastLs p
    d.when (was && !d.xbFit) fun d => d.safeEnter 1

/-- XA_EDGE_TIMEOUT (R430). -/
def execXaEdgeTimeout (t : Nat) (s : State) : Host.Outcome State Fault Refusal :=
  onDev true t s fun d => d.xaFail

/-- XA_COUNT_CHECK (R430): 512 edges are nominal over 4,096 FIO cycles. -/
def execXaCountCheck (t count : Nat) (s : State) : Host.Outcome State Fault Refusal :=
  onDev true t s fun d => if 15 * 512 < 100 * ((count : Int) - 512).natAbs then d.xaFail else d

/-! ### XB (R431-R433) -/

/-- The basis of the window (R431) and its input: 0 none, 1 XA, 2 a reference input. -/
def Dev.xbBasis (d : Dev) : Nat × Nat :=
  if d.xaOk then (1, 0)
  else if d.flag F.CLK_STATUS_safe then
    let x := d.best d.clk.refAtSafe
    if x < 5 then (2, x) else (0, 0)
  else
    let x := d.rd F.TB_STATUS_sel
    if x < 5 ∧ d.qualified x ∧ !d.refLost x then (2, x) else (0, 0)

/-- The window tolerance in 0.001 ppm. -/
def Dev.xbTol (d : Dev) : Nat := 1000 * max 1 (d.rd F.CLK_XB_CFG_tol)

/-- Both timebases' control values follow a change of oscillator by `z` (R433). -/
def Dev.moveOsc (d : Dev) (z : Int) : Dev :=
  let f (t : Timebase) : Timebase :=
    { t with ctl := t.ctl + 1000000 * z, hist := t.hist.map fun x => (x.1, x.2 + 1000000 * z) }
  (d.modTb .a f).modTb .b f

/-- Lane synthesizers on XB lose it: they coast, to return to XA where it is usable (R435). -/
def Dev.xbUnfit (d : Dev) : Dev :=
  let d := { d with clk := { d.clk with lsReturn := ⟨d.xaOk && d.lsOnXb .a, d.xaOk && d.lsOnXb .b⟩ } }
  d.each [Plane.a, Plane.b] fun d p => d.when (d.lsOnXb p) fun d => d.coastLs p

/-- XB is disqualified (R432). -/
def Dev.xbDisqualify (d : Dev) : Dev :=
  if !d.xbOk then d
  else
    let d := ((d.put F.CLK_STATUS_xb_qualified false).put F.CLK_STATUS_xb_lane_fit false).raise F.CLK_ERR_xb_disq
    let d := (d.wr F.CLK_XB_STATUS_passed 0).moveOsc d.clk.xbOffset
    let d := { d with clk := { d.clk with xbOut := 0 } }
    (d.occur evXb 0x6B).xbUnfit.refreshPins

/-- XB is or ceases to be lane-fit after a passing window (R435); it ends a clock safe state (R448). -/
def Dev.noteFit (d : Dev) (offset : Int) : Dev :=
  let fit' := decide (offset.natAbs ≤ 30000)
  let was := d.xbFit
  let d := { (d.put F.CLK_STATUS_xb_lane_fit fit') with clk := { d.clk with xbOffset := offset, xbOut := 0 } }
  if fit' then d.clearTriggers [1, 2, 3] else if was then d.xbUnfit else d

/-- Two windows outside the tolerance (R432). -/
def Dev.xbBlame (d : Dev) (xaOff xbOff : Int) : Dev :=
  let d := { d with clk := { d.clk with xbOut := 0 } }
  if d.tbState d.lead == 2 && decide (d.rd F.TB_STATUS_sel < 5) && d.qualified (d.rd F.TB_STATUS_sel) then
    let d := d.when (decide (d.xbTol < xbOff.natAbs)) fun d => d.xbDisqualify
    d.when (decide (d.xbTol < xaOff.natAbs)) fun d => d.xaFail
  else d.xbDisqualify

/-- XB_WINDOW (R431, R432): the end of a window of 100 ms. -/
def execXbWindow (t : Nat) (offset : Int) (gap : Bool) (xaOff xbOff : Int) (s : State) :
    Host.Outcome State Fault Refusal :=
  onDev true t s fun d =>
    if d.now < d.clk.xbWinAt + 100 * msU then d else
    let b := d.xbBasis
    let d := { d with clk := { d.clk with xbWinAt := d.now } }
    let d := (d.wr F.CLK_XB_STATUS_basis b.1).wr F.CLK_XB_STATUS_input b.2
    if !d.flag F.CLK_XB_CFG_fitted || b.1 == 0 then d
    else
      let d := d.wr F.CLK_XB_STATUS_offset (ofInt 24 (max (-8388608) (min 8388607 offset)))
      let pass := decide (offset.natAbs ≤ d.xbTol) && !gap
      let k := if pass then min 4 (d.rd F.CLK_XB_STATUS_passed + 1) else 0
      let d := d.wr F.CLK_XB_STATUS_passed k
      if d.xbOk then
        if pass then d.noteFit offset
        else if gap then d.xbDisqualify
        else if 1 ≤ d.clk.xbOut then d.xbBlame xaOff xbOff
        else { d with clk := { d.clk with xbOut := 1 } }
      else if k = 4 then
        (((d.put F.CLK_STATUS_xb_qualified true).moveOsc (-offset)).occur evXb 0x6C).refreshPins.noteFit offset
      else d

/-- XB_EDGE_GAP (R432). -/
def execXbEdgeGap (t : Nat) (s : State) : Host.Outcome State Fault Refusal :=
  onDev true t s fun d => d.xbDisqualify

/-! ### Lane synthesizers (R434-R436) -/

/-- LS_COAST_EXPIRY (R435, R446): after 50 ms, no fit source within the coast is trigger 2. -/
def execLsCoastExpiry (t : Nat) (ls : Plane) (s : State) : Host.Outcome State Fault Refusal :=
  onDev true t s fun d => if d.lsCoasted ls && !d.anyFit then d.safeEnter 2 else d

/-- A coasting lane synthesizer relocks (R435, R436): to its own source after a loss of lock, back to XA where
the return is due or XB is not fit, else to XB. -/
def Dev.relockLs (d : Dev) (p : Plane) : Dev :=
  let own := d.clk.lsLockLost.pl p
  let toXb := if own then d.lsOnXb p else !(d.xaOk && (d.clk.lsReturn.pl p || !d.xbFit || !d.lsOnXb p))
  if d.lsState p == 2 && (if toXb then d.xbFit else d.xaOk) then
    let d := { (d.setLsSrc p toXb) with clk := { d.clk with lsReturn := d.clk.lsReturn.modPl p fun _ => false, lsLockLost := d.clk.lsLockLost.modPl p fun _ => false } }
    (d.setLs p 1).occur (evLs p) 0x69
  else d

/-- LS_RELOCK (R435). -/
def execLsRelock (t : Nat) (ls : Plane) (s : State) : Host.Outcome State Fault Refusal :=
  onDev true t s fun d => d.relockLs ls

/-- LS_LOCK_LOST (R436). -/
def execLsLockLost (t : Nat) (ls : Plane) (s : State) : Host.Outcome State Fault Refusal :=
  onDev true t s fun d =>
    if d.lsState ls == 1 then
      let d := { d with clk := { d.clk with lsLockLost := d.clk.lsLockLost.modPl ls fun _ => true } }
      (d.occur (evLs ls) 0x68).coastLs ls
    else d

/-- LS_RELOCK_TIMEOUT (R436): 50 ms after its lock was lost. -/
def execLsRelockTimeout (t : Nat) (ls : Plane) (s : State) : Host.Outcome State Fault Refusal :=
  onDev true t s fun d =>
    if d.lsCoasted ls && d.clk.lsLockLost.pl ls then
      let d := ((d.setLs ls 3).occur (evLs ls) 0x6B).planeFault ls 7
      let d := d.when (d.flag F.GLB_START_laneref) fun d => d.losePort (Port.ofId ls.id)
      d.when (d.lsState .a == 3 && d.lsState .b == 3) fun d => d.safeEnter 3
    else d

/-- A write of 1 to CLK_CTRL.ls_to_xa (R435). -/
def Dev.lsToXa (d : Dev) : Dev :=
  if !d.xaOk then d.raise F.CLK_ERR_ls_to_xa_ignored
  else
    d.each [Plane.a, Plane.b] fun d p =>
      if d.lsOnXb p && d.lsState p == 1 then
        { (d.coastLs p) with clk := { (d.coastLs p).clk with lsReturn := (d.coastLs p).clk.lsReturn.modPl p fun _ => true } }
      else d

/-- LS_TO_XA (R435). -/
def execLsToXa (t : Nat) (s : State) : Host.Outcome State Fault Refusal :=
  onDev true t s fun d => d.lsToXa

/-! ### Octet delay lines (R437) -/

/-- om_lock of an octet, in its octet block and in the CLK block. -/
def Dev.setOm (d : Dev) (k : Nat) (b : Bool) : Dev :=
  let d := d.put F.LN_OCT_STATUS_om_lock b k
  if k < 32 then d.setBit F.CLK_OM_LOCK_LO_om_lock k b else d.setBit F.CLK_OM_LOCK_HI_om_lock (k - 32) b

/-- OM_LOCK (R437, Table 3-5): its reference runs. -/
def execOmLock (t k : Nat) (s : State) : Host.Outcome State Fault Refusal :=
  onDev (octetOk k) t s fun d =>
    let ref := d.lsState d.clk.omRef
    if d.flag F.LN_OCT_STATUS_om_lock k || !d.octGateOpen k || d.flag F.CLK_STATUS_safe || ref == 0 || ref == 3 then d
    else
      let d := (d.setOm k true).occur (evOm k) 0x69
      d.each (span (8 * k) 8) fun d n =>
        let st := d.lnState n
        let d := d.when (decide (2 ≤ st ∧ st ≤ 6) && !d.flag F.LN_STATUS_tx_idle n) fun d => d.zephyr n
        d.tryDetect n

/-- OM_LOCK_LOST (R437). -/
def execOmLockLost (t k : Nat) (s : State) : Host.Outcome State Fault Refusal :=
  onDev (octetOk k) t s fun d =>
    if !d.flag F.LN_OCT_STATUS_om_lock k then d
    else
      let d := (d.setOm k false).occur (evOm k) 0x68
      d.each (span (8 * k) 8) fun d n =>
        (d.when (d.lnState n != 0) fun d => d.emit (.lane n .idle)).beginRecovery n

/-! ### Fractional synthesizers (R438-R442) -/

/-- N, F and M in force (Table 13-4). -/
def Dev.synRatio (d : Dev) (m : Nat) : Nat × Nat × Nat :=
  if m = 0 ∨ m = 2 then (19, 1, 125) else if m = 4 then (18, 13662, 15625) else if m < 4 then (18, 990, 1001) else d.clk.syn5

/-- VCO frequency of a ratio in Hz, rounded down (R438). -/
def vcoHz (r : Nat × Nat × Nat) : Nat := 156250000 * (r.1 * r.2.2 + r.2.1) / max 1 r.2.2

/-- Target of a ramped loop in Hz (R442). -/
def Dev.loopTarget (d : Dev) (l : Nat) : Nat := if l < 6 then vcoHz (d.synRatio l) else Config.lsVco

/-- The final ratio is locked: consumers are ungated (R442). -/
def Dev.endRamp (d : Dev) (l : Nat) : Dev :=
  if d.loopHz l = d.loopTarget l then { d with clk := { d.clk with ramping := d.clk.ramping.filter (· != l) } } else d

/-- SYN_LOCK (R440-R442). -/
def execSynLock (t m : Nat) (s : State) : Host.Outcome State Fault Refusal :=
  onDev (synOk m) t s fun d =>
    if d.bitAt F.CLK_STATUS_syn_lock m || !d.synRuns m then d
    else
      let d := ((d.setBit F.CLK_STATUS_syn_lock m true).setBit F.CLK_STATUS_syn_coast m false).setBit F.CLK_STATUS_syn_failed m false
      let d := { d with clk := { d.clk with lfsr := Tbl.set 0 d.clk.lfsr m (max 1 (d.rd F.CLK_SYN_DITHER_seed m)) } }
      ((d.occur (evSyn m) 0x69).endRamp m).refreshCoast.refreshPins

/-- SYN_LOCK_LOST (R441). -/
def execSynLockLost (t m : Nat) (s : State) : Host.Outcome State Fault Refusal :=
  onDev (synOk m) t s fun d =>
    if d.bitAt F.CLK_STATUS_syn_lock m then
      let d := (d.setBit F.CLK_STATUS_syn_lock m false).setBit F.CLK_STATUS_syn_coast m true
      let d := { d with clk := { d.clk with synLostAt := Tbl.set 0 d.clk.synLostAt m d.now } }
      (d.occur (evSyn m) 0x68).refreshPins
    else d

/-- SYN4 has failed: SYN5 takes over DOM_AUD with its ratio and steering (R441). -/
def Dev.syn4Over (d : Dev) : Dev :=
  let d := d.raise F.CLK_STATUS_syn4_on_syn5
  let eps := Tbl.get 0 d.clk.eps 4
  let d := { d with clk := { d.clk with syn5 := (18, 13662, 15625), eps := Tbl.set 0 d.clk.eps 5 eps
                                        ratio := Tbl.set 2800000000 d.clk.ratio 5 (vcoHz (18, 13662, 15625)) } }
  d.refreshDiag

/-- SYN_RELOCK_TIMEOUT (R441): 10 ms after its lock was lost. -/
def execSynRelockTimeout (t m : Nat) (s : State) : Host.Outcome State Fault Refusal :=
  onDev (synOk m) t s fun d =>
    if !d.bitAt F.CLK_STATUS_syn_lock m && d.bitAt F.CLK_STATUS_syn_coast m
        && decide (Tbl.get 0 d.clk.synLostAt m + 10 * msU ≤ d.now) then
      let d := (d.setBit F.CLK_STATUS_syn_coast m false).setBit F.CLK_STATUS_syn_failed m true
      let d := d.occur (evSyn m) 0x6B
      let d := if m < 4 then d.planeFault (Plane.ofId (m / 2)) 6 else if m = 4 then d.syn4Over else d
      d.refreshPins
    else d

/-- A steering value within +-200 ppm, in 2^-48 (R439). -/
def clampEps (z : Int) : Int := max (-56294995342) (min 56294995342 z)

/-- SYN_STEER_UPDATE (R439, R441). -/
def execSynSteerUpdate (t : Nat) (offA offB : Int) (s : State) : Host.Outcome State Fault Refusal :=
  onDev true t s fun d =>
    Dev.refreshDiag <| d.each (List.range 6) fun d m =>
      if d.bitAt F.CLK_STATUS_syn_coast m || d.bitAt F.CLK_STATUS_syn_failed m || d.synFrozen m then d
      else
        let off := match d.synRef m with
          | .a => offA
          | .b => offB
        let e := clampEps ((d.tb (d.synSteer m)).ctl * 2 ^ 48 / 1000000000000000 + off)
        { d with clk := { d.clk with eps := Tbl.set 0 d.clk.eps m e } }

/-- A step of no more than 0.5 % of the target, toward it (R442). -/
def rampStepOk (target cur next : Nat) : Bool :=
  let dist (x : Nat) : Nat := ((x : Int) - target).natAbs
  decide (200 * ((next : Int) - cur).natAbs ≤ target) && decide (dist next < dist cur)

/-- RATIO_RAMP_STEP (R442): after a lock, the next step, or the end of the ramp. -/
def execRatioRampStep (t loop ratio : Nat) (s : State) : Host.Outcome State Fault Refusal :=
  onDev (loopOk loop) t s fun d =>
    if !d.gated loop then d
    else if loop < 6 then
      if !d.synRuns loop || !d.bitAt F.CLK_STATUS_syn_lock loop then d
      else if d.loopHz loop = d.loopTarget loop then (d.endRamp loop).refreshPins
      else if rampStepOk (d.loopTarget loop) (d.loopHz loop) ratio then
        let d := { d with clk := { d.clk with ratio := Tbl.set 2800000000 d.clk.ratio loop ratio } }
        (d.setBit F.CLK_STATUS_syn_lock loop false).refreshPins.refreshDiag
      else d
    else
      let p := Plane.ofId (loop - 6)
      if !d.anyFit || d.lsState p != 0 then d
      else if d.loopHz loop = d.loopTarget loop then
        ((((d.endRamp loop).setLsSrc p (!d.xaOk)).setLs p 1).occur (evLs p) 0x69)
      else if rampStepOk (d.loopTarget loop) (d.loopHz loop) ratio then
        { d with clk := { d.clk with ratio := Tbl.set 2800000000 d.clk.ratio loop ratio } }
      else d

/-- A ratio that SYN5 accepts (R438). -/
def syn5Ok (r : Nat × Nat × Nat) : Bool :=
  decide (17 ≤ r.1 ∧ r.1 ≤ 20) && decide (r.2.2 ≠ 0) && decide (r.2.1 < r.2.2)
    && decide (2800000000 * r.2.2 ≤ 156250000 * (r.1 * r.2.2 + r.2.1))
    && decide (156250000 * (r.1 * r.2.2 + r.2.1) ≤ 3200000000 * r.2.2)

/-- A write to CLK_SYN_N of SYN5 (R438, R442). -/
def Dev.syn5Write (d : Dev) (val : Word) : Dev :=
  let r := (F.CLK_SYN_N_n.get val, d.rd F.CLK_SYN_FRAC_f 5, d.rd F.CLK_SYN_MOD_m 5)
  let on := F.CLK_SYN_N_enable.get val == 1
  let was := d.flag F.CLK_SYN_N_enable 5
  if d.flag F.CLK_CTRL_lock then d
  else if !syn5Ok r then d.raise F.CLK_ERR_syn5_invalid
  else
    let d := (d.wr F.CLK_SYN_N_n r.1 5).put F.CLK_SYN_N_enable on 5
    if d.flag F.CLK_STATUS_syn4_on_syn5 then d
    else
      let moved := r != d.clk.syn5
      let d := { d with clk := { d.clk with syn5 := r
                                            ratio := if on && !was then Tbl.set 2800000000 d.clk.ratio 5 2800000000 else d.clk.ratio
                                            ramping := if moved || (on && !was) then setInsert 5 d.clk.ramping else d.clk.ramping } }
      (d.when (!on) fun d => (d.setBit F.CLK_STATUS_syn_lock 5 false).setBit F.CLK_STATUS_syn_coast 5 false).refreshDiag.refreshPins

/-- SYN5_RATIO_WRITE (R438). -/
def execSyn5RatioWrite (t : Nat) (val : Word) (s : State) : Host.Outcome State Fault Refusal :=
  onDev true t s fun d => (d.syn5Write val).noteReg d .CLK_SYN_N 5

/-! ### Clock outputs and SYNCIN (R443, R444) -/

/-- The setting is one that R443 applies. -/
def Dev.ckoOkSet (d : Dev) (cfg div : Nat) : Bool :=
  let mode := cfg % 4
  let src := cfg / 4 % 16
  let limit := if mode = 3 then 250000000 else 750000000
  mode == 0 || (if src < 8 then
      let r := d.synRatio (d.ckoSyn src)
      decide (156250000 * (r.1 * r.2.2 + r.2.1) ≤ limit * max 2 div * r.2.2)
    else decide (src < 10))

/-- A write to CLK_CKO_CFG or CLK_CKO_DIV of an output (R443). -/
def Dev.ckoWrite (d : Dev) (c : Nat) (div : Bool) (val : Word) : Dev :=
  if d.flag F.CLK_CTRL_lock then d
  else
    let d := if div then d.setReg .CLK_CKO_DIV c (val &&& 0x1FFFFFF#32) else d.setReg .CLK_CKO_CFG c (val &&& 0xFFF#32)
    let cfg := (d.reg .CLK_CKO_CFG c).toNat
    let dv := (d.reg .CLK_CKO_DIV c).toNat
    let take (d : Dev) : Dev :=
      { d with clk := { d.clk with ckoCfg := Tbl.set 0 d.clk.ckoCfg c cfg, ckoDiv := Tbl.set 0 d.clk.ckoDiv c dv } }.refreshCko c
    if d.ckoOkSet cfg dv then take d
    else
      let d := d.raise F.CLK_ERR_cko_invalid
      if 10 ≤ cfg / 4 % 16 then take d else d

/-- CKO_CONFIG_WRITE (R443). -/
def execCkoConfigWrite (t c : Nat) (div : Bool) (val : Word) (s : State) : Host.Outcome State Fault Refusal :=
  onDev (ckoOk c) t s fun d => (d.ckoWrite c div val).noteReg d (if div then .CLK_CKO_DIV else .CLK_CKO_CFG) c

/-- SYNC_ARM (R444). -/
def execSyncArm (t : Nat) (s : State) : Host.Outcome State Fault Refusal :=
  onDev true t s fun d => d.put F.CLK_SYNC_CFG_arm true

/-- SYNCIN_EDGE (R444). -/
def execSyncinEdge (t : Nat) (s : State) : Host.Outcome State Fault Refusal :=
  onDev true t s fun d =>
    let src (c : Nat) : Nat := Tbl.get 0 d.clk.ckoCfg c / 4 % 16
    let named := (List.range 8).filter fun c => d.bitAt F.CLK_SYNC_CFG_mask c && decide (src c < 8)
    if !d.flag F.CLK_SYNC_CFG_arm || named.any (fun c => d.gated (d.ckoSyn (src c))) then d
    else
      let d := d.put F.CLK_SYNC_CFG_arm false
      let d := d.each named fun d c => { d with clk := { d.clk with ckoSync := Tbl.set 0 d.clk.ckoSync c d.now } }
      d.when (!named.isEmpty) fun d => d.occur evSync 0x47

/-! ### Clock gates (R449, R465) -/

/-- A write to GLB_CLKEN0 or GLB_CLKEN1 (R449). -/
def Dev.gateWrite (d : Dev) (hi : Bool) (val : Word) : Dev :=
  if !hi then
    let x := d.reg .GLB_CLKEN0 0 ^^^ val
    (d.setReg .GLB_CLKEN0 0 val).wr F.GLB_CLKPEND0_oct ((d.reg .GLB_CLKPEND0 0 ||| x).toNat)
  else
    let w := F.GLB_CLKEN1_oct.get val
    let x := d.rd F.GLB_CLKEN1_oct ^^^ w
    let d := (d.wr F.GLB_CLKEN1_oct w).wr F.GLB_CLKPEND1_oct (d.rd F.GLB_CLKPEND1_oct ||| x)
    let one (d : Dev) (p : Plane) (en pend : Field) : Dev :=
      if en.get val == d.rd en then d
      else if d.plState p == 1 then (d.wr en (en.get val)).raise pend
      else d.raise F.GLB_CLKPEND1_plane_ignored
    one (one d .a F.GLB_CLKEN1_plane_a F.GLB_CLKPEND1_plane_a) .b F.GLB_CLKEN1_plane_b F.GLB_CLKPEND1_plane_b

/-- CLOCK_GATE_WRITE (R449). -/
def execClockGateWrite (t : Nat) (hi : Bool) (val : Word) (s : State) : Host.Outcome State Fault Refusal :=
  onDev true t s fun d => d.gateWrite hi val

/-- CLOCK_GATE_DONE (R449, R465): an octet's gate closes only once its pairs are OFF, and its OM then stops. -/
def execClockGateDone (t block : Nat) (s : State) : Host.Outcome State Fault Refusal :=
  onDev (blockOk block) t s fun d =>
    if block = 48 then d.put F.GLB_CLKPEND1_plane_a false
    else if block = 49 then d.put F.GLB_CLKPEND1_plane_b false
    else
      let isOff := (List.range 8).all fun j => d.lnState (8 * block + j) == 0
      let opening := d.octGateOpen block
      if !opening && !isOff then d
      else
        let d := if block < 32 then d.setBit F.GLB_CLKPEND0_oct block false else d.setBit F.GLB_CLKPEND1_oct (block - 32) false
        d.when (!opening) fun d => d.setOm block false

end Sys2Proof.Machine
end

