-- ==== Sys2Proof/Machine/Engines.lean ====
section
/-! DEFINITION. Gust engines and channel frames (R344-R380): pacing instants, anchors, what a channel frame is computed
from, ANC through conversion, engine starts, engine faults and tests, the removal of engines. -/

namespace Sys2Proof.Machine

/-! ### Units and anchors (R358-R361) -/

/-- A complete unit of a conversion channel's source. -/
structure Shown where
  buf : Nat
  n : Nat
  field : Nat
  cnt : Nat
  done : Nat
  deriving DecidableEq, Repr

/-- A unit inserted in order of completion, newest first. -/
def insertUnit (u : Shown) : List Shown → List Shown
  | [] => [u]
  | x :: r => if x.done < u.done then u :: x :: r else x :: insertUnit u r

/-- The complete units that a channel stores, newest first (R358). -/
def Owner.stored (o : Owner) (fields : Bool) : List Shown :=
  o.bufs.foldl (fun l x =>
    let b := x.2
    let unit (field : Nat) (done : Option Nat) (l : List Shown) : List Shown :=
      match done with
      | some c => insertUnit { buf := x.1, n := b.n, field := field, cnt := b.cnt, done := c } l
      | none => l
    if fields then unit 1 b.complete (unit 0 b.field1 l) else unit 0 b.complete l) []

/-- The unit's place in the order of its source's units. -/
def Shown.index (u : Shown) (fields : Bool) : Nat := if fields then 2 * u.n + u.field else u.n

/-- The cadence phase of a channel frame that starts at `tj` (R360). -/
def cadence (profile fmtIn : Nat) (fields : Bool) (tj a : Nat) : Nat :=
  if isFrc profile then
    Nat.min 255 (256 * (tj - a) * rateNum (fmtRate fmtIn) * (if fields then 2 else 1) / (rateDen (fmtRate fmtIn) * secU))
  else 0

/-- The channel frame counts as a repeat toward hold_frames: the anchor stands, or for an FRC profile completed more
than 1.5 unit periods before (R359). -/
def isRepeat (profile fmtIn : Nat) (fields : Bool) (tj a : Nat) (prev : Option Nat) : Bool :=
  if isFrc profile then
    decide (3 * rateDen (fmtRate fmtIn) * secU < 2 * (tj - a) * rateNum (fmtRate fmtIn) * if fields then 2 else 1)
  else prev == some a

/-! ### What a channel frame is computed from (R361, R365) -/

/-- The line of a format belongs to a unit: to the field of it, where units are fields. -/
def inUnit (c : Nat) (fields : Bool) (field k : Nat) : Bool := !fields || (decide (k ≤ fieldEnd c) == (field == 0))

/-- A stored unit as the engines read it: its completion instant, and for each active line its mark and its bytes. -/
def Owner.unitData (o : Owner) (mem : Memory) (id : Nat) (fields : Bool) (u : Shown) : List Nat :=
  let c := o.fmtIn
  let b := o.buf u.buf
  let line (m k : Nat) : List Nat :=
    match b.mark m k with
    | some x => [x + 1, ofLe (Memory.readN 0#8 mem (lineAddr id c u.buf m k) (fmtWords c * 4))]
    | none => [0]
  [u.done, u.field] ++ (List.range (fmtG c)).flatMap fun m => ((fmtActives c).filter (inUnit c fields u.field)).flatMap (line m)

/-- The unit `back` places before an anchor; older than the first stored unit, that one (R361). -/
def unitBack (us : List Shown) (back : Nat) : Option Shown :=
  match us[back]? with
  | some u => some u
  | none => us.getLast?

/-- Everything that the computation of a channel frame reads (R365). `us` are the stored units from the anchor back; `cut`:
the input's AFD asks for a centre crop (Table 10-4). -/
def Dev.frameInputs (d : Dev) (mem : Memory) (p : Plane) (id : Nat) (fields : Bool) (us : List Shown) (phase : Nat) (cut : Bool) :
    List Nat :=
  let o := d.owner p id
  let pr := (d.profileOf (baseOf o.profile)).getD {}
  let shown := us.filter fun u => decide (o.motionFrom ≤ u.done)
  let units := (span pr.lp (pr.history + 1)).filterMap fun k =>
    if k = pr.lp then unitBack us k else unitBack (if shown.isEmpty then us else shown) k
  [o.profile, ofLe d.start.pack, o.fmtIn, o.fmtOut, o.e, ofLe ((o.cct.drop 8).take 244), ofLe o.lut, b2n o.stepped, phase, b2n cut]
    ++ units.flatMap (o.unitData mem id fields)

/-! ### ANC through conversion (R371, Table 10-5) -/

/-- DID and SDID (or DBN) of a record's packet. -/
def ancId (r : List Word) : Nat × Nat := (packetWord r 0 % 256, packetWord r 1 % 256)

/-- ST 334-1 captions. -/
def isCaption (x : Nat × Nat) : Bool := x.1 == 0x61 && (x.2 == 1 || x.2 == 2)

/-- Packets with a row of their own in Table 10-5: ATC, captions, AFD, payload ID, audio. -/
def ownRow (x : Nat × Nat) : Bool :=
  isCaption x || (x.1 == 0x60 && x.2 == 0x60) || (x.1 == 0x41 && (x.2 == 5 || x.2 == 1))
    || audioDid x.1

/-- The pass list of the parameters names the packet; SDID 0 matches packets of the first type. -/
def passes (cct : List Byte) (x : Nat × Nat) : Bool :=
  (List.range (Nat.min 64 (C.passCount.of cct))).any fun k =>
    let did := fieldAt cct (124 + 2 * k) 1
    let sdid := fieldAt cct (125 + 2 * k) 1
    did == x.1 && (if sdid = 0 then decide (0x80 ≤ x.1) else sdid == x.2 && decide (x.1 < 0x80))

/-- The line on which a passed packet goes: the same where it lies in the output's vertical ancillary space, else s + 2. -/
def ancLine (c k : Nat) : Nat :=
  if decide (1 ≤ k ∧ k ≤ fmtL c) && !fmtActive c k then k
  else (if c = 1 then 10 else if c = 2 then 6 else 7) + 2

/-- The records of a unit, with member and line, in line order of their storing. -/
def Owner.unitAnc (o : Owner) (fields : Bool) (u : Shown) : List (Nat × Nat × List Word) :=
  ((o.buf u.buf).anc.reverse.filter fun a => inUnit o.fmtIn fields u.field (a.1 % 4096)).flatMap fun a =>
    (ancRecords 63 a.2).map fun r => (a.1 / 4096, a.1 % 4096, r)

/-- The records that the pass list carries into a frame that shows unit `u`. -/
def Owner.passed (o : Owner) (fields : Bool) (u : Shown) : List (Nat × List Word) :=
  ((o.unitAnc fields u).filter fun a => !ownRow (ancId a.2.2) && passes o.cct (ancId a.2.2)).map fun a =>
    (4096 * (if a.1 < fmtG o.fmtOut then a.1 else 0) + ancLine o.fmtOut a.2.1, a.2.2)

/-- The caption packets of a unit. -/
def Owner.captionsOf (o : Owner) (fields : Bool) (u : Shown) : List (List Nat) :=
  ((o.unitAnc fields u).filter fun a => isCaption (ancId a.2.2)).map fun a => a.2.2.map (·.toNat)

/-- The first packet of a unit with an id. -/
def Owner.packetOf (o : Owner) (fields : Bool) (u : Shown) (ids : List (Nat × Nat)) : Option (List Word) :=
  ((o.unitAnc fields u).find? fun a => ids.contains (ancId a.2.2)).map (·.2.2)

/-- The AFD code of a unit (ST 2016-1, log 8). -/
def Owner.afdOf (o : Owner) (fields : Bool) (u : Shown) : Option Nat :=
  (o.packetOf fields u [(0x41, 5)]).map fun r => packetWord r 3 / 8 % 16

/-- The conversion of a unit crops to the centre: aspect 2, or aspect 3 with one of the AFD codes that ask for it (Table
10-4). -/
def Owner.cuts (o : Owner) (fields : Bool) (u : Shown) : Bool :=
  C.aspect.of o.cct == 2 || (C.aspect.of o.cct == 3 && match o.afdOf fields u with
    | some a => decide (13 ≤ a)
    | none => false)

/-- An SD format has a 4:3 picture, every other a 16:9 picture (Table 10-3). -/
def wide (c : Nat) : Bool := decide (0x10 ≤ c)

/-- The AFD that a frame which shows unit `u` sends: its code and the aspect bit of the output (Table 10-5). -/
def Owner.afdOut (o : Owner) (fields : Bool) (u : Shown) : Option (Nat × Bool) :=
  if C.dropAfd.on o.cct then none
  else
    (o.afdOf fields u).map fun _ =>
      let fit := C.aspect.of o.cct == 1 || (C.aspect.of o.cct == 3 && !o.cuts fields u)
      (if !fit || wide o.fmtIn == wide o.fmtOut then 8 else if wide o.fmtOut then 9 else 10, wide o.fmtOut)

/-- The ATC that a frame which shows unit `u` sends: the unit's packet, and the field identification flag of a frame computed
from field 2 at twice the input frame rate (Table 10-5). -/
def Owner.atcOut (o : Owner) (fields : Bool) (u : Shown) : Option (Bool × List Nat) :=
  if C.dropAtc.on o.cct then none
  else
    (o.packetOf fields u [(0x60, 0x60)]).map fun r =>
      (fields && u.field == 1 && rateTimes 2 o.fmtIn o.fmtOut, r.map (·.toNat))

/-- The caption packet that a frame sends: the next of the queue, or at a repeat and where none waits one with no new data;
none where the unit shown carries none and none waits (Table 10-5). -/
def Owner.captionOut (o : Owner) (fields : Bool) (u : Shown) (new : Bool) : Option (List Nat) :=
  if C.dropCaptions.on o.cct then none
  else if new && !o.captions.isEmpty then some (o.captions.headD [])
  else if o.captions.isEmpty && (o.captionsOf fields u).isEmpty then none else some []

/-- A caption packet queued: of 16, the oldest is dropped and counted. -/
def Owner.queueCaption (o : Owner) (x : List Nat) : Owner :=
  if o.captions.length < 16 then { o with captions := o.captions ++ [x] }
  else { o with captions := o.captions.drop 1 ++ [x], ancOver := satAdd 16 o.ancOver 1 }

/-! ### Pacing instants -/

/-- GE_CC_STATE and the states of the channel's engines updated (R380). -/
def Dev.pubChannel (d : Dev) (p : Plane) (id : Nat) : Dev :=
  let o := d.owner p id
  let f := o.frames.headD {}
  let w := b2n o.isOpen + 2 * b2n (f.state == .fill && !o.frames.isEmpty) + 4 * b2n o.stepped + 8 * b2n o.waiting + 65536 * (f.tagCnt % 65536)
  let d := d.modOwner p id fun o => { o with pub := BitVec.ofNat 32 w }
  d.each (o.engines ++ o.half.toList) fun d i => d.pubEngine p i

/-- The half units that a channel's re-establishment draws from the pool (R349, R374). -/
def Dev.redraw (d : Dev) (p : Plane) (id : Nat) : Nat :=
  let o := d.owner p id
  if baseOf o.profile = pxAsrc then b2n !((List.range 48).any fun i => d.engShared p i) else o.cost

/-- The pages that a channel needs can be held (R328). -/
def Dev.canHold (d : Dev) (p : Plane) (id : Nat) : Bool :=
  let o := d.owner p id
  let n := d.needNow p id
  decide (n ≤ Nat.max o.maxPages o.owned ∧ n - o.owned - o.reserved ≤ (d.pool p).pages)

/-- An aborted channel is re-established at a pacing instant, from channel frame `j` on, or waits (R328, R374). -/
def Dev.reestablish (d : Dev) (p : Plane) (id j : Nat) : Dev :=
  let o := d.owner p id
  let n := d.redraw p id
  let back :=
    if decide (n ≤ d.rd F.GE_STATUS_half_free p.id) && d.canHold p id then
      d.allocEngines p id o.cost (baseOf o.profile == pxAsrc)
    else none
  match back with
  | none => d.modOwner p id fun o => { o with waiting := true }
  | some d =>
    let d := (d.wr F.GE_STATUS_half_free (d.rd F.GE_STATUS_half_free p.id - n) p.id).bump F.GE_CNT_reestablished p.id
    (d.modOwner p id fun o =>
      { o with aborted := false, waiting := false, e := j, startDue := false, rest := true, reps := 0, anchor := none
               captions := [], lutDue := colourOf o.profile }).followNeed p id

/-- The aborted channels of a plane up to `id` that have a pacing instant at `tj` are re-established in ascending id
order (R374). -/
def Dev.reestablishAll (d : Dev) (p : Plane) (id tj : Nat) : Dev :=
  let due := (d.plane p).owners.filter fun x =>
    isConv x.1 && decide (x.1 ≤ id) && x.2.isOpen && x.2.aborted
  d.each due fun d x =>
    let r := fmtRate x.2.fmtOut
    match (span (frameAt r tj) 2).find? fun j => frameStart r j == tj with
    | some j => d.reestablish p x.1 j
    | none => d

/-- The parameters that take effect at a pacing instant: the entry's fields but in_format and out_format (R366, Table 9-3),
the thermal step (R377), the LUT (R369). -/
def Dev.paceParams (d : Dev) (mem : Memory) (p : Plane) (id : Nat) : Dev :=
  let o := d.owner p id
  let o := match o.cctNext with
    | some b =>
      let kept := if baseOf o.profile = pxAsrc then 4 else 5
      let c := b.take 4 ++ (o.cct.drop 4).take kept ++ b.drop (4 + kept)
      let lut := C.lutSet.of b != C.lutSet.of o.cct || C.lutAddr.of b != C.lutAddr.of o.cct
      { o with cct := c, cctNext := none, lutDue := o.lutDue || (colourOf o.profile && lut) }
    | none => o
  let step := d.flag F.GE_STATUS_stepped p.id && ((d.profileOf (baseOf o.profile)).getD {}).step != 0xFF
  let starts := if step == o.stepped then [] else (o.engines ++ o.half.toList).map fun i => (id, p, i)
  let o := if o.stepped && !step && baseOf o.profile == 5 then { o with motionFrom := (o.anchor.map fun a => a.2.2.2).getD 0 } else o
  let o := { o with stepped := step }
  let o :=
    if o.lutDue then
      { o with lutDue := false
               lut := if C.lutSet.of o.cct = 0 then [] else
                 Memory.readN 0#8 mem (C.lutSet.of o.cct * 2 ^ 36 + C.lutAddr.of o.cct) 215622 }
    else o
  { d with startQ := d.startQ ++ starts }.modOwner p id fun _ => o

/-- The bands of a channel's frames: the active lines of the output picture from the top, one band per engine in engine order,
a half engine's half as high; lines left over go one each to the first bands (R347). -/
def Dev.bandsOf (d : Dev) (p : Plane) (id : Nat) : List Band :=
  let o := d.owner p id
  let n := (fmtPicture o.fmtOut).2
  let overlap := ((d.profileOf (baseOf o.profile)).getD {}).overlap
  let parts := (o.engines.map fun i => (i, 2)) ++ o.half.toList.map fun i => (i, 1)
  let order := parts.foldl (fun l x => (l.takeWhile fun y => decide (y.1 < x.1)) ++ [x] ++ l.dropWhile fun y => decide (y.1 < x.1)) []
  let total := order.foldl (fun t x => t + x.2) 0
  let left := n - order.foldl (fun t x => t + n * x.2 / total) 0
  (order.foldl (fun (s : List Band × Nat × Nat) x =>
    let h := n * x.2 / total + b2n (decide (0 < s.2.2))
    (s.1 ++ [{ engine := x.1, first := s.2.1, lines := h, overlap := overlap }], s.2.1 + h, s.2.2 - 1)) ([], 0, left)).1

/-- Channel frame `j` starts at `tj`: the anchor is taken, repeats and drops are counted, captions queue, and the frame
is fill, missing or computed (R359-R361). -/
def Dev.startFrame (d : Dev) (mem : Memory) (p : Plane) (id j tj : Nat) : Dev :=
  let o := d.owner p id
  let o := if o.startDue then { o with e := j, startDue := false } else o
  let fields := fieldUnit o.profile o.fmtIn o.fmtOut
  let pr := (d.profileOf (baseOf o.profile)).getD {}
  let us := (o.stored fields).filter fun u => decide (u.done < tj)
  let prev := o.anchor.map fun a => a.2.2.2
  match us with
  | [] => d.modOwner p id fun _ =>
      { o with frames := ({ j := j, state := if j < o.e + 3 then .fill else .missing } :: o.frames).take 4 }
  | a :: _ =>
    let new := prev != some a.done
    let fresh := us.filter fun u => match prev with
      | some c => decide (c < u.done)
      | none => true
    let skipped := match o.anchor with
      | some (n, f, _, _) => if new then a.index fields - ((if fields then 2 * n + f else n) + 1) else 0
      | none => 0
    let rep := isRepeat o.profile o.fmtIn fields tj a.done prev
    let phase := cadence o.profile o.fmtIn fields tj a.done
    let o := { o with anchor := some (a.n, a.field, a.cnt, a.done), reps := if rep then o.reps + 1 else 0
                      drops := satAdd 16 o.drops skipped
                      repeats := if !new && !isFrc o.profile then satAdd 16 o.repeats 1 else o.repeats }
    let o := if C.dropCaptions.on o.cct then { o with captions := [] }
      else (fresh.reverse.flatMap fun u => o.captionsOf fields u).foldl Owner.queueCaption o
    let state : ChFrame := if j < o.e + 3 then .fill else if holdOver' o.hold o.reps then .missing else .computed
    let shown := (unitBack us pr.lp).getD a
    let d := d.modOwner p id fun _ => o
    let f : Frame := { j := j, state := state, tagCnt := a.cnt, tagField := if fields then a.field else 0, tagPhase := phase
                       unitN := shown.n, unitField := shown.field }
    if state != .computed || baseOf o.profile == pxAsrc then
      d.modOwner p id fun o => { o with frames := (f :: o.frames).take 4 }
    else
      let f := { f with inputs := d.frameInputs mem p id fields us phase (o.cuts fields shown), anc := o.passed fields shown
                        caption := o.captionOut fields shown new, atc := o.atcOut fields shown, afd := o.afdOut fields shown
                        cct := o.cct, lut := o.lut, bands := d.bandsOf p id }
      d.modOwner p id fun o =>
        { o with frames := (f :: o.frames).take 4, made := satAdd 32 o.made 1
                 captions := if new then o.captions.drop 1 else o.captions }

/-- The bands of the channel frame that ends are complete (Table 10-11). -/
def Dev.countBands (d : Dev) (p : Plane) (id : Nat) : Dev :=
  let o := d.owner p id
  d.each ((o.frames.headD {}).bands.filter fun b => (o.engines ++ o.half.toList).contains b.engine) fun d b =>
    d.modEngine p b.engine fun e => { e with bands := satAdd 32 e.bands 1 }

/-- The channel frame `j` of an open channel starts. -/
def Dev.pace (d : Dev) (mem : Memory) (p : Plane) (id j tj : Nat) : Dev :=
  let d := (d.countBands p id).reestablishAll p id tj
  let d := (d.paceParams mem p id).followNeed p id
  let o := d.owner p id
  let d :=
    if o.aborted then
      d.modOwner p id fun o => { o with frames := ({ j := j, state := .aborted } :: o.frames).take 4 }
    else d.startFrame mem p id j tj
  d.pubChannel p id

/-- PACING_INSTANT (R356, R359): channel frame `j` of the channel, at its instant. -/
def execPacingInstant (t : Nat) (plane : Plane) (id j : Nat) (s : State) : Host.Outcome State Fault Refusal :=
  onMem (idOk id) t s fun m d =>
    let d := d.landDue
    let o := d.owner plane id
    let r := fmtRate o.fmtOut
    let tj := frameStart r j
    let later := match o.frames with
      | [] => true
      | f :: _ => decide (f.j < j)
    if isConv id && o.isOpen && d.inService plane && d.tim.running && !d.flag F.CLK_STATUS_safe && later
        && decide (o.openAt ≤ tj ∧ tj ≤ d.epoch ∧ d.epoch < frameStart r (j + 1)) then
      (m, d.pace (m.hamper.pl plane) plane id j tj)
    else (m, d)

/-! ### Engine starts (R354) -/

/-- The queued start of the lowest CCT id. -/
def nextStart (q : List (Nat × Plane × Nat)) : Option (Nat × Plane × Nat) :=
  q.foldl (fun best x => match best with
    | some b => if x.1 < b.1 then some x else some b
    | none => some x) none

/-- Up to `n` queued starts are served in ascending CCT id order. -/
def Dev.serveStarts : Nat → Dev → Dev
  | 0, d => d
  | n + 1, d =>
    match nextStart d.startQ with
    | some x => Dev.serveStarts n { d with startQ := d.startQ.erase x }
    | none => d

/-- ENGINE_START (R354): up to 8 starts, once per microsecond. -/
def execEngineStart (t : Nat) (s : State) : Host.Outcome State Fault Refusal :=
  onDev true t s fun d =>
    let d := d.landDue
    let soon := match d.startAt with
      | some a => decide (d.now < a + usU)
      | none => false
    if soon || d.startQ.isEmpty then d else Dev.serveStarts 8 { d with startAt := some d.now }

/-! ### Engine faults and tests (R362, R372, R373, R375) -/

/-- Faults of an engine in the last hour. -/
def Dev.recentFaults (d : Dev) (p : Plane) (i : Nat) : List Nat :=
  (d.engine p i).faults.filter fun a => decide (d.now < a + 3600 * secU)

/-- An engine that carries a load suffers a fault: its channels abort on its plane, it is tested, and it leaves the pool
(R372, R373, R375). `kind` 0 watchdog, 1 control check; `first` names the channel frame that each channel aborts from. -/
def Dev.engineFault (d : Dev) (p : Plane) (i kind : Nat) (first : Nat → Nat) : Dev :=
  let e := d.engine p i
  let (a, b, _) := d.engLoads p i
  let d := d.modEngine p i fun e =>
    { e with state := 2, faults := d.now :: d.recentFaults p i
             watchdog := if kind = 0 then satAdd 16 e.watchdog 1 else e.watchdog
             ctrlErr := if kind = 1 then satAdd 16 e.ctrlErr 1 else e.ctrlErr }
  let d := d.each e.loads fun d id => (d.abortOwner p id true (first id)).pubChannel p id
  let d := d.wr F.GE_STATUS_half_free (d.rd F.GE_STATUS_half_free p.id - 2) p.id
  (d.pubEngine p i).occur (evGE (48 * p.id + i)) 0x30 kind (a + 65536 * b)

/-- The computed channel frame that a load of an engine has not finished by its end: the newest whose end has come. -/
def Dev.overdue (d : Dev) (p : Plane) (id : Nat) : Option Nat :=
  let o := d.owner p id
  (o.frames.find? fun f => f.state == .computed && decide (frameStart (fmtRate o.fmtOut) (f.j + 1) ≤ d.epoch)).map (·.j)

/-- ENGINE_WATCHDOG (R362): an engine has not finished a channel frame by its end. -/
def execEngineWatchdog (t g : Nat) (s : State) : Host.Outcome State Fault Refusal :=
  onDev (engineOk g) t s fun d =>
    let d := d.landDue
    let (p, i) := (Plane.ofId (g / 48), g % 48)
    let e := d.engine p i
    let now' (id : Nat) : Nat := frameAt (fmtRate (d.owner p id).fmtOut) d.epoch
    if d.inService p && e.state == 1 && e.loads.any fun id => (d.overdue p id).isSome then
      d.engineFault p i 0 fun id => (d.overdue p id).getD (now' id)
    else d

/-- ENGINE_CONTROL_CHECK_FAULT (R372): a corrected error is counted and raises
CORRECTED (Table 12-4), an uncorrectable error of the profile store is a
plane fault with cause 4 (Table 8-2); an idle engine checks nothing. -/
def execEngineControlCheckFault (t g : Nat) (err : EngErr) (s : State) : Host.Outcome State Fault Refusal :=
  onDev (engineOk g) t s fun d =>
    let d := d.landDue
    let (p, i) := (Plane.ofId (g / 48), g % 48)
    let e := d.engine p i
    if err == .profile then d.planeFault p 4
    else if d.inService p && e.state == 1 && !e.loads.isEmpty then
      match err with
      | .corrected =>
        (d.modEngine p i fun e => { e with ctrlErr := satAdd 16 e.ctrlErr 1 }).occur (evGE (48 * p.id + i)) 0x33
      | .profile => d
      | .uncorrectable | .badDma => d.engineFault p i 1 fun id => frameAt (fmtRate (d.owner p id).fmtOut) d.epoch
    else d

/-- An engine is disabled until the next plane restart (R375). -/
def Dev.disableEngine (d : Dev) (p : Plane) (i : Nat) : Dev :=
  let d := (d.modEngine p i fun e => { e with state := 3 }).pubEngine p i
  let d := d.when (!d.engRemoved p i) fun d => d.wr F.GE_STATUS_disabled (d.rd F.GE_STATUS_disabled p.id + 1) p.id
  d.occur (evGE (48 * p.id + i)) 0x31

/-- ENGINE_TEST_DONE (R375): of a faulted engine, or of an idle one while its plane restarts. -/
def execEngineTestDone (t g : Nat) (pass : Bool) (s : State) : Host.Outcome State Fault Refusal :=
  onDev (engineOk g) t s fun d =>
    let d := d.landDue
    let (p, i) := (Plane.ofId (g / 48), g % 48)
    let e := d.engine p i
    let max' := if d.rd F.GE_CTRL_fault_max p.id = 0 then 1 else d.rd F.GE_CTRL_fault_max p.id
    if e.state = 2 then
      if pass && decide ((d.recentFaults p i).length < max') then
        let d := (d.modEngine p i fun e => { e with state := 0 }).pubEngine p i
        let d := d.when (!d.engRemoved p i) fun d =>
          d.wr F.GE_STATUS_half_free (d.rd F.GE_STATUS_half_free p.id + 2) p.id
        d.occur (evGE g) 0x32
      else d.disableEngine p i
    else if e.state = 0 ∧ e.loads.isEmpty = true ∧ d.plState p = 2 ∧ pass = false then
      (d.when (!d.engRemoved p i) fun d => d.wr F.GE_STATUS_half_free (d.rd F.GE_STATUS_half_free p.id - 2) p.id).disableEngine p i
    else d

/-! ### Removal (R376) -/

/-- One bit of GE_ENG_DIS written: the engine leaves the pool, now or with its last load, or returns to it. -/
def Dev.removeEngine (d : Dev) (p : Plane) (i : Nat) (off : Bool) : Dev :=
  if d.engRemoved p i == off then d
  else
    let e := d.engine p i
    let idle := e.state == 0 && e.loads.isEmpty
    let free := d.rd F.GE_STATUS_half_free p.id
    let dis := d.rd F.GE_STATUS_disabled p.id
    let d := if i < 32 then d.setBit F.GE_ENG_DIS_LO_dis i off p.id else d.setBit F.GE_ENG_DIS_HI_dis (i - 32) off p.id
    let d := d.when idle fun d => d.wr F.GE_STATUS_half_free (if off then free - 2 else free + 2) p.id
    d.when (e.state == 3) fun d => d.wr F.GE_STATUS_disabled (if off then dis - 1 else dis + 1) p.id

/-- A write to GE_ENG_DIS_LO or GE_ENG_DIS_HI (R376); LX_CTRL.lock holds both (R560). -/
def Dev.engDisWrite (d : Dev) (p : Plane) (hi : Bool) (val : Word) : Dev :=
  if d.flag F.LX_CTRL_lock p.id then d
  else d.each (List.range (if hi then 16 else 32)) fun d k => d.removeEngine p (if hi then 32 + k else k) (bitOf val.toNat k)

/-- GE_ENG_DIS_WRITE (R376); a gated plane discards it (R464). -/
def execGeEngDisWrite (t : Nat) (plane : Plane) (hi : Bool) (val : Word) (s : State) : Host.Outcome State Fault Refusal :=
  onDev true t s fun d => if d.landDue.planeGated plane then d.landDue else d.landDue.engDisWrite plane hi val

end Sys2Proof.Machine
end

