-- ==== Sys2Proof/Machine/Aes.lean ====
section
/-! DEFINITION. AES-256 (FIPS 197) and AES-KW (SP 800-38F), which wraps the keys of the slots (R499, R501). A block is
16 bytes, column by column. -/

namespace Sys2Proof.Machine

namespace Aes

/-- Twice a byte in the field. -/
def twice (a : Byte) : Byte := (a <<< 1) ^^^ (if a.msb then 0x1B#8 else 0#8)

/-- The product of two bytes. -/
def times (a b : Byte) : Byte :=
  ((List.range 8).foldl (fun (s : Byte × Byte) i => (if b.getLsbD i then s.1 ^^^ s.2 else s.1, twice s.2)) (0#8, a)).1

/-- The inverse of a byte, 0 for 0: its 254th power. -/
def inverse (a : Byte) : Byte := (List.range 7).foldl (fun acc i => if i = 6 then times acc acc else times (times acc acc) a) a

/-- The substitution of a byte. -/
def subst (a : Byte) : Byte :=
  let x := inverse a
  x ^^^ x.rotateLeft 1 ^^^ x.rotateLeft 2 ^^^ x.rotateLeft 3 ^^^ x.rotateLeft 4 ^^^ 0x63#8

/-- The inverse substitution. -/
def unsubst (a : Byte) : Byte := inverse (a.rotateLeft 1 ^^^ a.rotateLeft 3 ^^^ a.rotateLeft 6 ^^^ 0x05#8)

/-- Two blocks or words combined. -/
def xor (a b : List Byte) : List Byte := List.zipWith (· ^^^ ·) a b

/-- A block with its rows moved: byte r + 4c comes from column c + k r. -/
def shiftRows (k : Nat) (b : List Byte) : List Byte :=
  (List.range 16).map fun i => b.getD (i % 4 + 4 * ((i / 4 + k * (i % 4)) % 4)) 0#8

/-- A block with each column multiplied by a row of coefficients that turns with the row. -/
def mixColumns (m : List Byte) (b : List Byte) : List Byte :=
  (List.range 16).map fun i =>
    (List.range 4).foldl (fun acc j => acc ^^^ times (m.getD ((j + 4 - i % 4) % 4) 0#8) (b.getD (i / 4 * 4 + j) 0#8)) 0#8

/-- `n` more words of the key schedule of a 256-bit key; the newest first. -/
def schedule : Nat → Nat → Byte → List (List Byte) → List (List Byte)
  | 0, _, _, ws => ws
  | n + 1, i, rc, ws =>
    let t := ws.headD []
    let t := if i % 8 = 0 then xor ((t.drop 1 ++ t.take 1).map subst) [rc, 0#8, 0#8, 0#8] else if i % 8 = 4 then t.map subst else t
    schedule n (i + 1) (if i % 8 = 0 then twice rc else rc) (xor (ws.getD 7 []) t :: ws)

/-- The 15 round keys. -/
def roundKeys (key : List Byte) : List (List Byte) :=
  let first := (List.range 8).map fun i => (key.drop (4 * i)).take 4
  let ws := (schedule 52 8 1#8 first.reverse).reverse.flatten
  (List.range 15).map fun i => (ws.drop (16 * i)).take 16

/-- A block enciphered. -/
def encrypt (key block : List Byte) : List Byte :=
  let ks := roundKeys key
  let body := ((ks.drop 1).take 13).foldl (fun b k => xor (mixColumns [2#8, 3#8, 1#8, 1#8] (shiftRows 1 (b.map subst))) k)
    (xor block (ks.getD 0 []))
  xor (shiftRows 1 (body.map subst)) (ks.getD 14 [])

/-- A block deciphered. -/
def decrypt (key block : List Byte) : List Byte :=
  let ks := roundKeys key
  let start := (shiftRows 3 (xor block (ks.getD 14 []))).map unsubst
  let body := ((ks.drop 1).take 13).reverse.foldl
    (fun b k => (shiftRows 3 (mixColumns [14#8, 11#8, 13#8, 9#8] (xor b k))).map unsubst) start
  xor body (ks.getD 0 [])

/-- The integrity check value of AES-KW. -/
def icv : List Byte := List.replicate 8 0xA6#8

/-- The semiblocks of a string. -/
def semiblocks (bs : List Byte) : List (List Byte) := (List.range (bs.length / 8)).map fun i => (bs.drop (8 * i)).take 8

end Aes

open Aes

/-- AES-KW of a key under a key-wrapping key (SP 800-38F, R501). -/
def aesWrap (kek key : List Byte) : List Byte :=
  let rs := semiblocks key
  let (a, rs) := (span 1 (6 * rs.length)).foldl (fun (s : List Byte × List (List Byte)) t =>
    let b := encrypt kek (s.1 ++ s.2.headD [])
    (Aes.xor (b.take 8) (be 8 t), s.2.drop 1 ++ [b.drop 8])) (icv, rs)
  a ++ rs.flatten

/-- AES-KW unwrap: none where the integrity check fails (R504). -/
def aesUnwrap (kek wrapped : List Byte) : Option (List Byte) :=
  let rs := semiblocks (wrapped.drop 8)
  let (a, rs) := (span 1 (6 * rs.length)).reverse.foldl (fun (s : List Byte × List (List Byte)) t =>
    let b := decrypt kek (Aes.xor s.1 (be 8 t) ++ s.2.getLastD [])
    (b.take 8, b.drop 8 :: s.2.dropLast)) (wrapped.take 8, rs)
  if a = icv then some rs.flatten else none

end Sys2Proof.Machine
end

