-- ==== Sys2Proof/Machine/Standalone.lean ====
section
/-! DEFINITION. Standalone items and the commands of descriptors that stand either alone or in a salvo: NOP, CCT_SYNC,
RESERVE, RELEASE, TIME_SET and TIME_ADJ (R256, R264, R265, R271, R277, R286, R315, R324). -/

namespace Sys2Proof.Machine

/-- The ring's standalone item of an opcode that is to act: validated first where it is next (R264, R286). -/
def Dev.acting (d : Dev) (p : Port) (r op : Nat) : Option Item × Dev :=
  let d := match d.nextToValidate p r with
    | some it => if !it.isSalvo && it.phase == .delivered && descOp it.head == op then d.validate p r it else d
    | none => d
  ((d.ring p r).items.find? fun it => it.phase == .acting && descOp it.head == op, d)

/-- A standalone item's outcome: OK, or a failure with its status. -/
def Dev.finish (d : Dev) (p : Port) (r idx status : Nat) : Dev :=
  if status < 0x10 then d.modItem p r idx fun x => { x with phase := .done, status := status }
  else d.failItem p r idx status 0

/-- The planes whose applied bits an item's completion carries. -/
def Dev.touched (d : Dev) (p : Port) (r idx : Nat) (planes : List Plane) : Dev :=
  d.modItem p r idx fun x => { x with applied := ⟨planes.contains .a, planes.contains .b⟩ }

/-- The acting item of an opcode, where there is one, acts by `f`. -/
def Dev.act (d : Dev) (p : Port) (r op : Nat) (f : Dev → Item → Dev) : Dev :=
  match d.landDue.acting p r op with
  | (some it, d) => f d it
  | (none, d) => d

/-- NOP (R265): alone it completes; in a salvo it is judged and does nothing. -/
def execNop (t : Nat) (port : Port) (ring : Nat) (s : State) : Host.Outcome State Fault Refusal :=
  onDev (ringOk ring) t s fun d =>
    match d.landDue.acting port ring 0x00 with
    | (some it, d) => d.finish port ring it.idx 0
    | (none, d) => d.entryCmd port ring 0x00

/-- A standalone CCT_SYNC (R310, R314-R316): its entries are read, judged one by one, and taken all or none. -/
def Dev.syncItem (d : Dev) (p : Port) (r : Nat) (it : Item) : Dev :=
  let ids := syncIds it.head
  let missing := ids.filter fun id => (it.cctOf id).isNone
  if !missing.isEmpty then (d.modItem p r it.idx fun x => { x with phase := .waiting, need := missing }).askCct p
  else
    let s := firstBad (ids.map fun id => d.syncStatus id ((it.cctOf id).getD []))
    if s ≠ 0 then d.failItem p r it.idx s 0
    else
      let d := d.each ids fun d id => d.cctTake id ((it.cctOf id).getD [])
      (d.touched p r it.idx (if ids.isEmpty then [] else d.planesUp)).finish p r it.idx 0

/-- CCT_SYNC (R315). -/
def execCctSync (t : Nat) (port : Port) (ring : Nat) (s : State) : Host.Outcome State Fault Refusal :=
  onDev (ringOk ring) t s fun d =>
    match d.landDue.acting port ring 0x20 with
    | (some it, d) => d.syncItem port ring it
    | (none, d) => d.entryCmd port ring 0x20

/-- The holdings result of a standalone RESERVE or RELEASE (R271, R324). -/
def Dev.holdResult (d : Dev) (p : Port) (r : Nat) (it : Item) (ok : Bool) : Dev :=
  let addr := D.result.of it.head
  let d := d.touched p r it.idx (maskPlanes (D.planes.of it.head))
  if addr = 0 then d.finish p r it.idx 0
  else if ok then (d.hostWrite p addr (holdingsBytes (d.ring p r).hold)).finish p r it.idx 0
  else d.finish p r it.idx stHostErr

/-- A latched salvo's RESERVE or RELEASE entry lands, and the write of its result fails: HIF_ERR.result_err is set in its
place (R567). -/
def Dev.holdFails (d : Dev) (p : Port) (r op : Nat) : Option Dev :=
  let e := d.landNext p r op
  if e.emitted.length == d.emitted.length then none else some ({ e with emitted := d.emitted }.raise F.HIF_ERR_result_err p.id)

/-- RESERVE (R324). -/
def execReserve (t : Nat) (port : Port) (ring : Nat) (resultOk : Bool) (s : State) : Host.Outcome State Fault Refusal :=
  onDev (ringOk ring) t s fun d =>
    match if resultOk then none else d.holdFails port ring 0x21 with
    | some d => d.landDue
    | none => match d.landDue.acting port ring 0x21 with
      | (some it, d) =>
        (d.toHold port ring (D.planes.of it.head) (resAmount it.head)).holdResult port ring it resultOk
      | (none, d) => d.entryCmd port ring 0x21

/-- RELEASE (R324). -/
def execRelease (t : Nat) (port : Port) (ring : Nat) (resultOk : Bool) (s : State) : Host.Outcome State Fault Refusal :=
  onDev (ringOk ring) t s fun d =>
    match if resultOk then none else d.holdFails port ring 0x22 with
    | some d => d.landDue
    | none => match d.landDue.acting port ring 0x22 with
      | (some it, d) =>
        (d.fromHold port ring (D.planes.of it.head) (resAmount it.head)).holdResult port ring it resultOk
      | (none, d) => d.entryCmd port ring 0x22

end Sys2Proof.Machine
end

