-- ==== Sys2Proof/Machine/Larder.lean ====
section
/-! DEFINITION. The Larder's array (R473-R481): reads, write commands, the page under write; NVM_WRITE and NVM_READ. -/

namespace Sys2Proof.Machine

/-- A free byte for each of `n` places, the first at draw `k` (log 5). -/
def freeBytes (k n : Nat) : List Byte := (List.range n).map fun i => BitVec.ofNat 8 (Config.free (k + i))

/-- Bytes of the array: a 0 bit of a torn byte reads 0 or 1 (Table 15-1). -/
def Dev.ldrRead (d : Dev) (m : Memory) (a n : Nat) : List Byte × Dev :=
  let bs := Memory.readN 0xFF#8 m a n
  let torn (x : Nat) : Bool := d.ldr.torn.any fun z => decide (z.1 ≤ x ∧ x < z.1 + z.2)
  if d.ldr.torn.any fun z => decide (a < z.1 + z.2 ∧ z.1 < a + n) then
    ((bs.zip ((List.range n).zip (freeBytes d.free n))).map fun x => if torn (a + x.2.1) then x.1 ||| x.2.2 else x.1,
      { d with free := d.free + n })
  else (bs, d)

/-- A range touches the page under write: its read is refused (R476), and every read while a reset lets that page
finish (R478). -/
def Dev.ldrBusy (d : Dev) (a n : Nat) : Bool :=
  match d.ldr.page with
  | some pg => d.ldr.ending || decide (a < 256 * (pg + 1) ∧ 256 * pg < a + n)
  | none => false

/-- The class served next (R475): round-robin over host, firmware and Keystore; the scrubber only while none waits. -/
def LarderUnit.nextCmd (l : LarderUnit) : Option LdrCmd :=
  ([l.lastCls + 1, l.lastCls + 2, l.lastCls + 3].map (· % 3) ++ [3]).findSome? fun c => l.queue.find? fun x => x.cls == c

/-- The next page write begins: the page is read and the new bytes are merged (R473, R474). -/
def Dev.larderServe (d : Dev) (m : Memory) : Dev :=
  if d.ldr.page.isSome || !d.start.railOut.isEmpty || d.ldr.ending then d
  else
    match d.ldr.nextCmd with
    | none => d
    | some c =>
      let pg := c.addr / 256
      let (old, d) := d.ldrRead m (256 * pg) 256
      let off := c.addr % 256
      let new := if c.what = 5 then old else old.take off ++ c.data.take (256 - off) ++ old.drop (off + Nat.min (256 - off) c.data.length)
      let d := { d with ldr := { d.ldr with page := some pg, cur := c.cls, image := new, lastCls := if c.cls = 3 then d.ldr.lastCls else c.cls } }
      ((d.put F.LDR_STATUS_busy true).wr F.LDR_STATUS_page pg).wr F.LDR_STATUS_class c.cls

/-- A write command joins the queue. -/
def Dev.larderAdd (d : Dev) (m : Memory) (c : LdrCmd) : Dev :=
  { d with ldr := { d.ldr with queue := d.ldr.queue ++ [c] } }.larderServe m

/-- With the Larder unit changed. -/
def Dev.modLdr (d : Dev) (f : LarderUnit → LarderUnit) : Dev := { d with ldr := f d.ldr }

/-- No host write delivered earlier, and validated, is still to join the queue (R475, R283). -/
def Dev.nvmTurn (d : Dev) (it : Item) : Bool :=
  !d.svr.any fun x => x.2.items.any fun e =>
    !e.isSalvo && descOp e.head == 0x40 && decide (0 < e.seq ∧ e.seq < it.seq) && e.phase == .acting
      && !d.ldr.queue.any fun c => c.what == 0 && c.tag == x.1

/-- NVM_WRITE (R479, R480): the command joins the queue, and the item completes with its last page. -/
def execNvmWrite (t : Nat) (port : Port) (ring : Nat) (data : List Byte) (ok : Bool) (s : State) : Host.Outcome State Fault Refusal :=
  onMem (ringOk ring) t s fun m d => (m, d.act port ring 0x40 fun d it =>
    if d.ldr.queue.any fun c => c.what == 0 && c.tag == 16 * port.id + ring || !d.nvmTurn it then d
    else if !ok then d.finish port ring it.idx stHostErr
    else d.larderAdd m.larder { cls := 0, what := 0, tag := 16 * port.id + ring, addr := D.nAddr.of it.head
                                data := fit (D.nLength.of it.head) data })

/-- NVM_READ (R476, R479): the bytes go to host memory, or the read of the page under write is refused. -/
def execNvmRead (t : Nat) (port : Port) (ring : Nat) (ok : Bool) (s : State) : Host.Outcome State Fault Refusal :=
  onMem (ringOk ring) t s fun m d => (m, d.act port ring 0x41 fun d it =>
    let (a, n) := (D.nAddr.of it.head, D.nLength.of it.head)
    if d.ldrBusy a n then ((d.bump F.LDR_CNT_busy_reads).raise F.LDR_ERR_busy_read).finish port ring it.idx 0x1C
    else if !ok then d.finish port ring it.idx stHostErr
    else
      let (bs, d) := d.ldrRead m.larder a n
      (d.hostWrite port (D.host.of it.head) bs).finish port ring it.idx 0)

/-! ### Records (R483, R484) -/

/-- A record: header of Table 15-3 and body. -/
structure LdrRec where
  seq : Nat := 0
  header : List Byte := []
  body : List Byte := []
  deriving DecidableEq, Repr

/-- The record in a copy's bytes, where it is valid (R483). -/
def recordOf (type : Nat) (copy : List Byte) : Option LdrRec :=
  let n := fieldAt copy 4 4
  let body := (copy.drop 16).take n
  if fieldAt copy 0 2 == type && fieldAt copy 2 2 == 1 && decide (16 + n ≤ copy.length)
      && fieldAt copy 12 4 == crc32c (copy.take 12 ++ body) then
    some { seq := fieldAt copy 8 4, header := copy.take 16, body := body }
  else none

/-- A record's bytes. -/
def recordBytes (type seq : Nat) (body : List Byte) : List Byte :=
  let h := le 2 type ++ le 2 1 ++ le 4 body.length ++ le 4 seq
  h ++ le 4 (crc32c (h ++ body)) ++ body

/-- Sequence `a` is newer than `b` (R484). -/
def newer (a b : Nat) : Bool :=
  let x := (a + 2 ^ 32 - b % 2 ^ 32) % 2 ^ 32
  decide (1 ≤ x ∧ x < 2 ^ 31)

/-- The copy used, and whether another valid copy of the same sequence has a different body (R484). -/
def chooseCopy (cs : List (Nat × LdrRec)) : Option (Nat × LdrRec) × Bool :=
  let best := cs.foldl (fun (b : Option (Nat × LdrRec)) c => match b with
    | some x => if newer c.2.seq x.2.seq then some c else b
    | none => some c) none
  match best with
  | some x => (some x, cs.any fun c => c.2.seq == x.2.seq && c.2.body != x.2.body)
  | none => (none, false)

end Sys2Proof.Machine
end

