-- ==== Sys2Proof/Machine/Keystore.lean ====
section
/-! DEFINITION. The Keystore (chapter 16): key slots, key days, the KEY_* items, entropy, the unwrapping of slots at
start-up. -/

namespace Sys2Proof.Machine

/-! ### Key slots (R501-R504) -/

/-! Fields of a key slot body (Table 16-3). -/

namespace K

abbrev slot : Fld := (0, 7)
abbrev cls : Fld := (8, 8)
abbrev alg : Fld := (16, 8)
abbrev bornInside : Fld := (24, 1)
abbrev wrap1Valid : Fld := (25, 1)
abbrev usage : Fld := (32, 2)
abbrev dayWrites : Fld := (48, 8)
abbrev day : Fld := (64, 32)
abbrev created : Fld := (96, 48)

end K

/-- A key slot. -/
def Dev.slot (d : Dev) (s : Nat) : KeySlot := Tbl.get {} d.key.slots s

/-- With a key slot changed; KEY_STATUS.slots_ready follows. -/
def Dev.modSlot (d : Dev) (s : Nat) (f : KeySlot → KeySlot) : Dev :=
  let d := { d with key := { d.key with slots := Tbl.mod {} d.key.slots s f } }
  d.wr F.KEY_STATUS_slots_ready (d.key.slots.filter fun (x : Nat × KeySlot) => x.2.state == 1).length

/-- The key-wrapping key of a class under the current measurements (R499). -/
def Dev.kek (d : Dev) (cls : Nat) : List Byte := kekOf (cls == 1) d.key.bmr

/-- The 56-byte wraps and the 96-byte public part of a body. -/
def wrap0 (b : List Byte) : List Byte := (b.drop 24).take 56
/-- wrap1. -/
def wrap1 (b : List Byte) : List Byte := (b.drop 80).take 56
/-- public. -/
def publicOf (b : List Byte) : List Byte := (b.drop 136).take 96

/-- A body of Table 16-3; reserved bits 0. -/
def keyBody (slot cls alg wrap1Valid usage dayWrites day created : Nat) (w0 w1 pub : List Byte) : List Byte :=
  le 1 slot ++ le 1 cls ++ le 1 alg ++ le 1 (1 + 2 * wrap1Valid) ++ le 1 usage ++ zeros 1 ++ le 1 dayWrites ++ zeros 1
    ++ le 4 day ++ le 6 created ++ zeros 6 ++ fit 56 w0 ++ fit 56 w1 ++ fit 96 pub

/-- The body of a deleted slot (R507). -/
def emptyBody (slot dayWrites day : Nat) : List Byte := le 1 slot ++ zeros 5 ++ le 1 dayWrites ++ zeros 1 ++ le 4 day ++ zeros 220

/-- The key of a ready slot, unwrapped (R504). -/
def Dev.slotKey (d : Dev) (s : Nat) : List Byte :=
  let x := d.slot s
  (aesUnwrap (d.kek (K.cls.of x.body)) (if x.wrap1 then wrap1 x.body else wrap0 x.body)).getD []

/-- The key day (R503). -/
def Dev.keyDay (d : Dev) : Nat := (d.key.hour0 + (d.now - d.start.t0) / (3600 * secU)) / 24

/-- Day and writes that a further write of a slot pair would carry; none beyond 12 writes of the day (R503). -/
def Dev.dayWrite (d : Dev) (s : Nat) : Option (Nat × Nat) :=
  let b := (d.slot s).body
  let today := d.keyDay
  if b.isEmpty || decide (K.day.of b < today) then some (today, 1)
  else if K.dayWrites.of b < 12 then some (K.day.of b, K.dayWrites.of b + 1) else none

/-- Larder address of copy `c` of slot `s`. -/
def slotAddr (s c : Nat) : Nat := 0x158000 + 512 * s + 256 * c

/-- The copy that the next write of a slot replaces, and its seq (R502). -/
def KeySlot.next (x : KeySlot) : Nat × Nat :=
  match x.copy with
  | some c => (1 - c, (x.seq + 1) % 2 ^ 32)
  | none => (0, 1)

/-- A slot write joins the Larder's queue (R502). -/
def Dev.slotWrite (d : Dev) (m : Memory) (s what tag : Nat) (body : List Byte) : Dev :=
  let (c, seq) := (d.slot s).next
  d.larderAdd m { cls := 2, what := what, tag := tag, addr := slotAddr s c, data := recordBytes 0x0D01 seq body }

/-! ### Service of items (R505, R509) -/

/-- A KEY item fails with KEY_ERR and a reason. -/
def Dev.keyErr (d : Dev) (p : Port) (r idx reason : Nat) : Dev :=
  (d.wr F.KEY_STATUS_last_err reason).finish p r idx 0x1D

/-- The Keystore serves the item now: it is ready, idle, and no KEY item delivered earlier is still to be served. -/
def Dev.keyTurn (d : Dev) (it : Item) : Bool :=
  d.flag F.KEY_STATUS_ready && !d.flag F.KEY_STATUS_busy &&
    !d.svr.any fun x => x.2.items.any fun e =>
      !e.isSalvo && decide (0x50 ≤ descOp e.head ∧ descOp e.head ≤ 0x59) && decide (0 < e.seq ∧ e.seq < it.seq)
        && e.phase == .acting

/-- The acting KEY item of an opcode is served by `f` on its turn. -/
def keyAct (port : Port) (ring op : Nat) (m : Mems) (d : Dev) (f : Dev → Item → Dev) : Mems × Dev :=
  (m, d.act port ring op fun d it => if d.keyTurn it then f d it else d)

/-- A result goes to its host address and the item completes. -/
def Dev.keyResult (d : Dev) (p : Port) (r : Nat) (it : Item) (bytes : List Byte) : Dev :=
  (d.hostWrite p (D.host.of it.head) bytes).finish p r it.idx 0

/-- The reason for which an item needs a ready slot and has none: 0 ready, 1 empty, 3 sealed. -/
def Dev.notReady (d : Dev) (s : Nat) : Nat :=
  match (d.slot s).state with
  | 0 => 1
  | 1 => 0
  | _ => 3

/-- The identity public key. -/
def Dev.dikPublic (d : Dev) : List Byte := p384Public d.dik

/-- The Provenance Statement of a slot (Table 16-6). -/
def Dev.provenance (d : Dev) (s : Nat) (nonce : List Byte) : List Byte × Dev :=
  let x := d.slot s
  let b := x.body
  let id := if K.alg.of b = 2 then sha384 (publicOf b) else (publicOf b).take 48
  let st := le 4 0x53564E50 ++ le 2 1 ++ le 2 512 ++ d.deviceId ++ le 2 s ++ le 1 (K.cls.of b) ++ le 1 (K.alg.of b)
    ++ le 2 (K.usage.of b) ++ le 2 (3 + 4 * K.wrap1Valid.of b) ++ le 4 x.seq ++ zeros 4 ++ le 6 (K.created.of b) ++ zeros 2
    ++ fit 32 nonce ++ fit 48 id ++ fit 192 (d.key.bmr.take 4).flatten ++ publicOf b
  let (sig, d) := d.sign d.dik (sha384 st)
  (st ++ fit 96 sig, d)

/-- Host addresses and nonce of a KEY item. -/
def nonceOf (b : List Byte) : List Byte := (b.drop 24).take 32

/-! ### The items -/

/-- A KEY item whose access to host memory fails ends with HOST_ERR (Table 7-18). KEY_INFO (R506). -/
def execKeyInfo (t : Nat) (port : Port) (ring : Nat) (ok : Bool) (s : State) : Host.Outcome State Fault Refusal :=
  onMem (ringOk ring) t s fun m d => keyAct port ring 0x50 m d fun d it =>
    if !ok then d.finish port ring it.idx stHostErr
    else d.keyResult port ring it (fit 640 (fit 96 d.dikPublic ++ fit 96 (p384Public d.asrunKey) ++ d.key.bmr.flatten
      ++ le 2 (d.rd F.CMX_RMB_STATUS_fw) ++ zeros 2 ++ le 4 (d.ldr.counts.getD 1 0)))

/-- KEY_EXTEND (R497). -/
def execKeyExtend (t : Nat) (port : Port) (ring : Nat) (data : List Byte) (ok : Bool) (s : State) : Host.Outcome State Fault Refusal :=
  onMem (ringOk ring) t s fun m d => keyAct port ring 0x51 m d fun d it =>
    if !ok then d.finish port ring it.idx stHostErr
    else (d.extend (D.bmr.of it.head) (fit 48 data)).finish port ring it.idx 0

/-- KEY_GENERATE (R507): the slot is written; the statement follows the write, unless its own write fails (`ok`), which the
command's tag keeps. -/
def execKeyGenerate (t : Nat) (port : Port) (ring : Nat) (ok : Bool) (s : State) : Host.Outcome State Fault Refusal :=
  onMem (ringOk ring) t s fun m d => keyAct port ring 0x52 m d fun d it =>
    let b := it.head
    let sl := D.slot.of b
    let err (k : Nat) : Dev := d.keyErr port ring it.idx k
    if !d.flag F.KEY_CTRL_gen_en then err 8
    else if (d.slot sl).state ≠ 0 then err 2
    else if !d.flag F.KEY_STATUS_drbg_ok then err 6
    else
      match d.dayWrite sl with
      | none => (d.raise F.KEY_FAULT_write_limited).keyErr port ring it.idx 5
      | some (day, n) =>
        let (r, d) := d.random
        let key := if D.alg.of b = 2 then scalarOf r else fit 48 r
        let pub := if D.alg.of b = 2 then p384Public key else hmac384 key (ascii "OLX1152 key check")
        let created := if d.flag F.TB_STATUS_time_valid then d.epoch / secU else 0
        let cls := D.kClass.of b
        let body := keyBody sl cls (D.alg.of b) 0 (D.usage.of b) n day created (aesWrap (d.kek cls) key) [] pub
        (d.put F.KEY_STATUS_busy true).slotWrite m.larder sl 4 (sl + 128 * (16 * port.id + ring) + 4096 * b2n (!ok)) body

/-- KEY_PROVENANCE (R510). -/
def execKeyProvenance (t : Nat) (port : Port) (ring : Nat) (ok : Bool) (s : State) : Host.Outcome State Fault Refusal :=
  onMem (ringOk ring) t s fun m d => keyAct port ring 0x53 m d fun d it =>
    let sl := D.slot.of it.head
    if d.notReady sl ≠ 0 then d.keyErr port ring it.idx (d.notReady sl)
    else if !ok then d.finish port ring it.idx stHostErr
    else
      let (st, d) := d.provenance sl (nonceOf it.head)
      d.keyResult port ring it st

/-- KEY_QUOTE (R511). -/
def execKeyQuote (t : Nat) (port : Port) (ring : Nat) (ok : Bool) (s : State) : Host.Outcome State Fault Refusal :=
  onMem (ringOk ring) t s fun m d => keyAct port ring 0x54 m d fun d it =>
    if !d.flag F.KEY_CTRL_quote_en then d.keyErr port ring it.idx 8
    else if !ok then d.finish port ring it.idx stHostErr
    else
      let q := le 4 0x54513536 ++ le 2 2 ++ le 2 8 ++ d.deviceId ++ nonceOf it.head ++ le 4 (d.ldr.counts.getD 1 0) ++ zeros 4
        ++ d.key.bmr.flatten
      let (sig, d) := d.sign d.dik (sha384 q)
      d.keyResult port ring it (q ++ fit 96 sig)

/-- KEY_RESEAL (R508). -/
def execKeyReseal (t : Nat) (port : Port) (ring : Nat) (data : List Byte) (ok : Bool) (s : State) : Host.Outcome State Fault Refusal :=
  onMem (ringOk ring) t s fun m d => keyAct port ring 0x55 m d fun d it =>
    let sl := D.slot.of it.head
    let x := d.slot sl
    let want := (List.range 4).map fun k => fit 48 ((data.drop (48 * k)).take 48)
    if d.notReady sl ≠ 0 then d.keyErr port ring it.idx (d.notReady sl)
    else if K.cls.of x.body = 0 then d.finish port ring it.idx stInvalid
    else if !ok then d.finish port ring it.idx stHostErr
    else if want.headD [] ≠ d.bmrOf 0 then d.keyErr port ring it.idx 3
    else
      match d.dayWrite sl with
      | none => (d.raise F.KEY_FAULT_write_limited).keyErr port ring it.idx 5
      | some (day, n) =>
        let b := x.body
        let key := d.slotKey sl
        let body := keyBody sl 1 (K.alg.of b) 1 (K.usage.of b) n day (K.created.of b) (aesWrap (d.kek 1) key)
          (aesWrap (kekOf true want) key) (publicOf b)
        (d.put F.KEY_STATUS_busy true).slotWrite m.larder sl 4 (sl + 128 * (16 * port.id + ring)) body

/-- KEY_DELETE (R507). -/
def execKeyDelete (t : Nat) (port : Port) (ring : Nat) (s : State) : Host.Outcome State Fault Refusal :=
  onMem (ringOk ring) t s fun m d => keyAct port ring 0x56 m d fun d it =>
    let sl := D.slot.of it.head
    if (d.slot sl).state = 0 then d.keyErr port ring it.idx 1
    else
      match d.dayWrite sl with
      | none => (d.raise F.KEY_FAULT_write_limited).keyErr port ring it.idx 5
      | some (day, n) => (d.put F.KEY_STATUS_busy true).slotWrite m.larder sl 4 (sl + 128 * (16 * port.id + ring)) (emptyBody sl n day)

/-- KEY_RING_AGREE (R512). -/
def execKeyRingAgree (t : Nat) (port : Port) (ring : Nat) (data : List Byte) (ok : Bool) (s : State) : Host.Outcome State Fault Refusal :=
  onMem (ringOk ring) t s fun m d => keyAct port ring 0x57 m d fun d it =>
    let peer := fit 96 data
    if !d.flag F.KEY_STATUS_drbg_ok then d.keyErr port ring it.idx 6
    else if !ok then d.finish port ring it.idx stHostErr
    else
      let (r, d) := d.random
      if !onCurve peer then d.finish port ring it.idx stInvalid
      else
        let c := scalarOf r
        let pub := fit 96 (p384Public c)
        let gen := (d.ring port ring).keyGens + 1
        let ctx := le 1 port.id ++ le 1 ring ++ zeros 2 ++ le 4 gen ++ peer ++ pub
        let key := kdf (ecdh c peer) "OLX1152 ring key" ctx 256
        let resp := pub ++ le 4 gen ++ le 1 port.id ++ le 1 ring ++ zeros 10
        let (sig, d) := d.sign d.dik (sha384 (resp ++ peer))
        let d := d.modRing port ring fun x => { x with key := some (gen, key), keyGens := gen, pos := -1 - (idxDiff (d.svrCi port ring) it.idx : Nat) }
        (d.bump F.KEY_CNT_agreements).keyResult port ring it (resp ++ fit 96 sig)

/-- KEY_SIGN (R505). -/
def execKeySign (t : Nat) (port : Port) (ring : Nat) (data : List Byte) (ok : Bool) (s : State) : Host.Outcome State Fault Refusal :=
  onMem (ringOk ring) t s fun m d => keyAct port ring 0x58 m d fun d it =>
    let sl := D.slot.of it.head
    if d.notReady sl ≠ 0 then d.keyErr port ring it.idx (d.notReady sl)
    else if K.usage.of (d.slot sl).body % 2 = 0 then d.keyErr port ring it.idx 4
    else if !ok then d.finish port ring it.idx stHostErr
    else
      let (sig, d) := d.sign (d.slotKey sl) (fit 48 data)
      d.keyResult port ring it (fit 96 sig)

/-- KEY_MAC (R505). -/
def execKeyMac (t : Nat) (port : Port) (ring : Nat) (data : List Byte) (ok : Bool) (s : State) : Host.Outcome State Fault Refusal :=
  onMem (ringOk ring) t s fun m d => keyAct port ring 0x59 m d fun d it =>
    let sl := D.slot.of it.head
    if d.notReady sl ≠ 0 then d.keyErr port ring it.idx (d.notReady sl)
    else if K.usage.of (d.slot sl).body / 2 = 0 then d.keyErr port ring it.idx 4
    else if !ok then d.finish port ring it.idx stHostErr
    else d.keyResult port ring it (hmac384 (d.slotKey sl) (fit (D.kLength.of it.head) data))

/-! ### The end of a slot write (R502, R504, R507) -/

/-- A KEY item's slot write has ended: the new copy is in use, or the item fails with reason 7. -/
def Dev.slotWritten (d : Dev) (c : LdrCmd) (page : List Byte) (ok : Bool) : Dev :=
  let sl := c.tag % 128
  let (p, r) := (Port.ofId (c.tag / 2048 % 2), c.tag / 128 % 16)
  let d := d.put F.KEY_STATUS_busy false
  match (d.ring p r).items.find? fun it => it.phase == .acting && decide (0x50 ≤ descOp it.head ∧ descOp it.head ≤ 0x59) with
  | none => d
  | some it =>
    if !ok then d.keyErr p r it.idx 7
    else
      let gone := descOp it.head == 0x56
      let body := (page.drop 16).take 232
      let d := d.modSlot sl fun x =>
        { x with state := if gone then 0 else 1, copy := some x.next.1, seq := x.next.2, body := body, wrap1 := false }
      if descOp it.head = 0x52 && 4096 ≤ c.tag then d.finish p r it.idx stHostErr
      else if descOp it.head = 0x52 then
        let (st, d) := d.provenance sl (nonceOf it.head)
        d.keyResult p r it st
      else d.finish p r it.idx 0

/-- A rewrite of R504 has ended. -/
def Dev.slotRewritten (d : Dev) (c : LdrCmd) (page : List Byte) (ok : Bool) : Dev :=
  let d := if ok then
      d.modSlot c.tag fun x => { x with state := 1, copy := some x.next.1, seq := x.next.2, body := (page.drop 16).take 232, wrap1 := false }
    else d
  if d.ldr.queue.any fun q => q.what == 6 then d else d.put F.KEY_STATUS_ready true

/-! ### Start-up (R503, R504) and entropy (R500) -/

/-- The copy of a slot chosen at start-up (R484). -/
def Dev.readSlot (d : Dev) (m : Memory) (s : Nat) : Dev :=
  let (a, d) := d.ldrRead m (slotAddr s 0) 256
  let (b, d) := d.ldrRead m (slotAddr s 1) 256
  let cs := [(0, a), (1, b)].filterMap fun (x : Nat × List Byte) => (recordOf 0x0D01 x.2).map fun r => (x.1, r)
  match chooseCopy cs with
  | (some (c, r), tie) =>
    let d := d.modSlot s fun _ => { copy := some c, seq := r.seq, body := fit 232 r.body }
    d.when tie fun d => (d.raise F.LDR_TIE_key_slots).occur evLdr 0x78 (slotAddr s c / 256)
  | (none, _) => d

/-- The rewrite of a slot that is ready from wrap1: wrap1 becomes wrap0, unless its writes of the key day are spent
(R503, R504). -/
def Dev.moveWrap (d : Dev) (m : Memory) (s : Nat) : Dev :=
  let b := (d.slot s).body
  match d.dayWrite s with
  | some (day, n) =>
    d.slotWrite m s 6 s (keyBody s (K.cls.of b) (K.alg.of b) 0 (K.usage.of b) n day (K.created.of b) (wrap1 b) [] (publicOf b))
  | none => d.raise F.KEY_FAULT_write_limited

/-- The rewrites of R504 that a spent key day left, made once a new key day has come (R503). -/
def Dev.laterWraps (d : Dev) (m : Memory) : Dev :=
  let busy (s : Nat) : Bool := d.ldr.queue.any fun q => decide (q.cls = 2 ∧ q.addr / 512 = slotAddr s 0 / 512)
  d.each ((d.key.slots.filter fun x => x.2.wrap1 && !busy x.1 && decide (K.day.of x.2.body < d.keyDay)).map (·.1)) fun d s =>
    d.moveWrap m s

/-- A slot unwrapped at start-up: ready, ready from wrap1 with a rewrite, or sealed (R504). -/
def Dev.unwrapSlot (d : Dev) (m : Memory) (s : Nat) : Dev :=
  let x := d.slot s
  if x.copy.isNone || K.alg.of x.body = 0 then d
  else
    let kek := d.kek (K.cls.of x.body)
    match aesUnwrap kek (wrap0 x.body) with
    | some _ => d.modSlot s fun x => { x with state := 1 }
    | none =>
      match if K.wrap1Valid.on x.body then aesUnwrap kek (wrap1 x.body) else none with
      | some _ =>
        (d.modSlot s fun x => { x with state := 1, wrap1 := true }).moveWrap m s
      | none => ((d.modSlot s fun x => { x with state := 2 }).raise F.KEY_FAULT_sealed).occur evKey 0x7D 2 s

/-- KEY_SLOT_UNWRAP (R504): every slot is read and unwrapped, once after the measurements of start-up; later the rewrites
left for a new key day are made (R503). -/
def execKeySlotUnwrap (t : Nat) (s : State) : Host.Outcome State Fault Refusal :=
  onMem true t s fun m d =>
    if d.rd F.GLB_START_phase == 0 then (m, d)
    else if d.key.unwrapped then (m, if d.flag F.KEY_STATUS_ready then d.laterWraps m.larder else d)
    else
      let d := { d with key := { d.key with unwrapped := true } }
      let d := d.each (List.range 128) fun d s => d.readSlot m.larder s
      let most := d.key.slots.foldl (fun n x => Nat.max n (K.day.of x.2.body)) 0
      let d := if d.ldr.cValid then d else { d with key := { d.key with hour0 := 24 * (most + 1) } }
      let d := d.each (d.key.slots.map (·.1)) fun d s => d.unwrapSlot m.larder s
      (m, if d.ldr.queue.any fun q => q.what == 6 then d else d.put F.KEY_STATUS_ready true)

/-- ENTROPY_FAIL (R500). -/
def execEntropyFail (t : Nat) (s : State) : Host.Outcome State Fault Refusal :=
  onDev true t s fun d => ((d.put F.KEY_STATUS_drbg_ok false).raise F.KEY_FAULT_entropy_fail).occur evKey 0x7D 1

end Sys2Proof.Machine
end

