-- ==== Sys2Proof/Machine/Views.lean ====
section
/-! DEFINITION. What a register reads as (R11, R557, R558): the registers that show an entry of a table or a figure the
device keeps elsewhere, and the place of a register in BAR0 (Tables 19-1 to 19-6). -/

namespace Sys2Proof.Machine

/-! ### Entries of the control tables -/

/-- A crosspoint map entry (Table 5-6). -/
def routeEntry (r : Route) (v : Bool) : Nat := r.src % 2048 + r.kind % 4 * 2048 + r.chan % 4096 * 8192 + b2n v * 2 ^ 25

/-- The route of a take that waits for an output's raster change (R211, R240). -/
def Dev.tiedRoute (d : Dev) (p : Plane) (o : Nat) : Option Route :=
  (d.changesOf o).findSome? fun c =>
    (c.takes.find? fun b => descOp b == 0x10 && D.out.of b == d.headOf o).map fun b => routeFor (newMode (d.out (d.headOf o)).mode b) p b

/-- The crosspoint map entry that LX_MAP_SEL selects: a group's members hold that of its first slot (R191); a pending entry
while no take waits is free but for its `v`. -/
def Dev.mapEntry (d : Dev) (p : Plane) : Nat :=
  let o := d.headOf (d.rd F.LX_MAP_SEL_slot p.id)
  let x := d.op o p
  if d.flag F.LX_MAP_SEL_pending p.id then
    match (x.pend.map (·.route)).orElse fun _ => d.tiedRoute p o with
    | some r => routeEntry r true
    | none => Config.idlePending p.id o % 2 ^ 25
  else routeEntry x.active false

/-- The check bits stored with an entry: those of an entry as reset leaves it read 0 (Tables 5-9, 9-9, 11-7). -/
def checkOf (table base entry : Nat) : Nat := if entry = base then 0 else Config.check table entry

/-- An Audio Map entry (Table 11-2). -/
def AEntry.word (e : AEntry) : Nat :=
  e.src % 32768 + b2n e.mute * 2 ^ 15 + b2n e.invert * 2 ^ 16 + e.gain % 65536 * 2 ^ 32 + e.xfade % 2048 * 2 ^ 48

/-- The Audio Map entry that AX_MAP_SEL selects. -/
def Dev.audioEntry (d : Dev) (p : Plane) : Nat := (d.dest p (d.rd F.AX_MAP_SEL_dst p.id)).now.entry.word

/-- The Page Map entry that HAM_PM_SEL selects (log 7); while nothing is owned or quarantined every page is free (R317). -/
def Dev.pageEntry (d : Dev) (p : Plane) : Nat :=
  if (d.plane p).owners.all (fun x => x.2.owned + x.2.reserved == 0) && d.rd F.HAM_QUAR_pc_mask p.id == 0 then 0
  else Config.pageMap p.id d.now (d.rd F.HAM_PM_SEL_page p.id) % 2 ^ 32

/-- Whole pages of journal credit now (R491): a page is 10 x secU, and 3 accrue each u. -/
def Dev.creditNow (d : Dev) : Nat :=
  Nat.min (25920 * (10 * secU)) (d.ldr.jCredit + 3 * (d.now - d.ldr.jCreditAt))

/-- Age of the oldest pending journal change, in s (R491). -/
def Dev.journalAge (d : Dev) : Nat :=
  match d.ldr.jSince with
  | some a => (d.now - a) / secU
  | none => 0

/-- KEY_SLOT_STATE of the selected slot. -/
def Dev.slotState (d : Dev) : Nat :=
  let x := d.slot (d.rd F.KEY_SLOT_SEL_slot)
  x.state + K.cls.of x.body % 2 * 4 + K.alg.of x.body % 4 * 8 + K.usage.of x.body * 32 + K.wrap1Valid.of x.body * 128
    + K.dayWrites.of x.body * 256

/-- Causes now active. -/
def Dev.activeCauses (d : Dev) : Nat := (d.ev.causes.filter fun k => k.active).length

/-- Delivered salvos of the ring wait for a later switch point. -/
def Dev.svrWaiting (d : Dev) (p : Port) (r : Nat) : Bool :=
  (d.ring p r).items.any fun it => it.isSalvo && it.seq != 0 && it.phase != .done && !it.begun

/-- The level that the device drives on a GPIO ball, push-pull or open-drain; none: the ball is not driven (R549). -/
def Dev.gpioDrive (d : Dev) (x : Nat) : Option Bool :=
  let out := d.bitAt F.GLB_GPIO_OUT_out x
  if d.bitAt F.GLB_GPIO_DIR_oe x && (!out || !d.bitAt F.GLB_GPIO_DIR_od x) then some out else none

/-- The level on each GPIO ball: an output's own level while it is driven, else what the board gives it, which is free
(log 19). -/
def Dev.gpioLevels (d : Dev) : Nat :=
  (List.range 16).foldl (fun a x => a + 2 ^ x * b2n ((d.gpioDrive x).getD (Config.gpioLevel d.now x))) 0

/-- Every GPIO ball is driven or pulled as its registers say, all at once (R549, R551, R555). -/
def Dev.refreshGpio (d : Dev) : Dev := d.emit (.gpio ((List.range 16).map d.gpioDrive) (d.reg .GLB_GPIO_PULL 0))

/-- What a register instance reads as. -/
def Dev.readReg (d : Dev) (r : RegName) (i : Nat) : Word :=
  let p := Plane.ofId i
  let w := d.reg r i
  let n (v : Nat) : Word := BitVec.ofNat 32 v
  match r with
  | .TB_STATUS => F.TB_STATUS_realigning.put w (b2n d.realigning)
  | .LX_MAP_DATA => n (d.mapEntry p)
  | .LX_MAP_CHK => n (checkOf 0 0 (d.mapEntry p) % 128)
  | .SEL_OUT_STATE =>
    let o := d.rd F.SEL_OUT_IDX_slot
    if (d.out (d.headOf o)).raster.isNone then F.SEL_OUT_STATE_mode.put (d.out o).pub 3 else (d.out o).pub
  | .HIF_SVR_STATUS => F.HIF_SVR_STATUS_waiting.put w (b2n (d.svrWaiting (Port.ofId (i / 16)) (i % 16)))
  | .HAM_PM_DATA => n (d.pageEntry p)
  | .HAM_PM_CHK => n (checkOf 2 0 (d.pageEntry p) % 128)
  | .HAM_SYNC_STATE =>
    let o := d.owner p (d.rd F.HAM_SYNC_IDX_slot p.id)
    if o.isOpen then o.pub else 0#32
  | .GE_ENG_STATE => (d.engine p (d.rd F.GE_ENG_IDX_engine p.id)).pub
  | .GE_ENG_CNT =>
    let e := d.engine p (d.rd F.GE_ENG_IDX_engine p.id)
    n (e.watchdog + e.ctrlErr * 65536)
  | .GE_CC_STATE => (d.owner p (2304 + 96 * p.id + d.rd F.GE_CC_IDX_ctx p.id)).pub
  | .AX_STATUS => F.AX_STATUS_rdr_free.put w (512 - d.audioContexts p)
  | .AX_MAP_LO => n (d.audioEntry p % 2 ^ 32)
  | .AX_MAP_HI => n (d.audioEntry p / 2 ^ 32)
  | .AX_MAP_CHK => n (checkOf 1 ({} : AEntry).word (d.audioEntry p) % 256)
  | .AX_SRC_STATE =>
    let a := d.rd F.AX_SRC_SEL_src p.id
    (Tbl.get {} (d.inp (a / 16)).aud (a % 16)).pub
  | .HIF_EV_CAUSES =>
    n (d.ev.lastId % 65536 + Nat.min 255 d.activeCauses * 65536 + Nat.min 255 (d.ev.waits.po (Port.ofId i)).length * 2 ^ 24)
  | .LDR_JRNL => n (d.creditNow / (10 * secU) + Nat.min 65535 d.journalAge * 65536)
  | .KEY_BMR_DATA => n (fieldAt (d.bmrOf (d.rd F.KEY_BMR_SEL_bmr)) (4 * d.rd F.KEY_BMR_SEL_word) 4)
  | .KEY_SLOT_STATE => n d.slotState
  | .GLB_GPIO_IN => n (d.gpioLevels)
  | .LN_MON_MEAN | .LN_MON_MIN | .LN_MON_MAX | .LN_MON_STATE =>
    if d.twinned (i / 3) && i / 3 % 2 == 1 then 0#32 else w
  | _ => w

/-! ### BAR0 (R556) -/

/-- The instance at an offset from instance 0, by the dimensions of `RegName.place`. -/
def placeIndex : List (Nat × Nat × Nat) → Nat → Option Nat
  | [], off => if off = 0 then some 0 else none
  | (count, stride, k) :: ds, off =>
    let q := off / stride
    if q < count then (placeIndex ds (off % stride)).map (q * k + ·)
    else none

/-- The register at a BAR0 offset. -/
def regAt (off : Nat) : Option (RegName × Nat) :=
  RegName.all.findSome? fun r =>
    let (base, ds) := r.place
    if off < base then none else (placeIndex ds (off - base)).map fun i => (r, i)

/-- The HIF block of an offset. -/
def hifPort (off : Nat) : Option Port :=
  if 0x10000 ≤ off ∧ off < 0x18000 then some .a else if 0x18000 ≤ off ∧ off < 0x20000 then some .b else none

/-- The plane block of an offset. -/
def planeAt (off : Nat) : Option Plane :=
  if 0x100000 ≤ off ∧ off < 0x500000 then some .a else if 0x500000 ≤ off ∧ off < 0x900000 then some .b else none

/-- The octet block of an offset. -/
def octetAt (off : Nat) : Option Nat := if 0x80000 ≤ off ∧ off < 0xB0000 then some ((off - 0x80000) / 0x1000) else none

/-- The lock bit that governs a block's RWL fields (Table 19-1). -/
def Dev.lockedAt (d : Dev) (off : Nat) : Bool :=
  match hifPort off, planeAt off, octetAt off with
  | some p, _, _ => d.flag F.HIF_PORT_CTRL_lock p.id
  | _, some p, _ => d.flag F.LX_CTRL_lock p.id
  | _, _, some k => d.flag F.LN_OCT_CTRL_lock k
  | _, _, _ =>
    match off / 0x10000 with
    | 2 => d.flag F.CLK_CTRL_lock
    | 3 => d.flag F.TB_CTRL_lock
    | 4 => d.flag F.KEY_CTRL_lock
    | 5 => d.flag F.LDR_CTRL_lock
    | 6 => d.flag F.CMX_CTRL_lock
    | 0x90 => d.flag F.SEL_CTRL_lock
    | _ => false

/-- The block answers as gated: its gate is closed, or closing or opening is under way (R464, R465). -/
def Dev.gatedAt (d : Dev) (off : Nat) : Bool :=
  match planeAt off, octetAt off with
  | some p, _ => d.planeGated p
  | none, some k => d.octetGated k
  | none, none => false

/-- The MSI-X table or pending-bit array of a port block: its word, 0-255 the table, 256 and 257 the array (Table 7-22). -/
def msixAt (off : Nat) : Option (Port × Nat) :=
  match hifPort off with
  | none => none
  | some p =>
    let k := off % 0x8000
    if 0x7000 ≤ k ∧ k < 0x7400 then some (p, (k - 0x7000) / 4)
    else if 0x7800 ≤ k ∧ k < 0x7808 then some (p, 256 + (k - 0x7800) / 4)
    else none

/-- A word of the MSI-X table or pending-bit array. -/
def Dev.msixRead (d : Dev) (p : Port) (k : Nat) : Word :=
  if k < 256 then BitVec.ofNat 32 (d.msixWord p k)
  else BitVec.ofNat 32 (((d.port p).pba.filter fun v => v / 32 == k - 256).foldl (fun a v => a + 2 ^ (v % 32)) 0)

/-- A read of an aligned word of BAR0 and its status: 0 OK, 1 MISS (R461, R464, R556). -/
def Dev.barRead (d : Dev) (off : Nat) : Nat × Word :=
  match msixAt off with
  | some (p, k) => (0, d.msixRead p k)
  | none =>
    match regAt off with
    | none => (1, 0#32)
    | some (r, i) => (0, if d.gatedAt off then 0#32 else d.readReg r i)

end Sys2Proof.Machine
end

