-- ==== Sys2Proof/Machine/Access.lean ====
section
/-! DEFINITION. Writes to registers by their access codes (R11-R13, R15, R560) and what a write to a register brings
about; the register target of the Control Matrix (R253, R456, R462, R464, R556). -/

namespace Sys2Proof.Machine

/-! ### Access codes -/

/-- A field's bits after a write of `v` over `o` (Table 0-4); `locked` is the block's lock before the write (R560). -/
def Access.write (a : Access) (locked : Bool) (o v : Nat) : Nat :=
  match a with
  | .rw => v
  | .rwl => if locked then o else v
  | .ro | .wo => o
  | .w1c => o - (o &&& v)
  | .w1s => o ||| v

/-- A register's word after a write of `val` over `old`; `new` are the bits set in the same DOM_CTL cycle, which a
write of 1 does not clear (R13). -/
def RegName.written (r : RegName) (locked : Bool) (old val : Word) (new : Word := 0#32) : Word :=
  r.rows.foldl (fun w (x : FieldRow) =>
    let f : Field := ⟨r, x.lo, x.width⟩
    let v := if x.access = .w1c then f.get (val &&& ~~~new) else f.get val
    f.put w (x.access.write locked (f.get old) v)) old

/-- A write to a register instance by its access codes alone. -/
def Dev.writeBits (d : Dev) (r : RegName) (i : Nat) (val : Word) : Dev :=
  d.setReg r i (r.written (d.lockedAt (regOff r i)) (d.reg r i) val (d.newBits r i))

/-! ### What a write brings about -/

/-- A write to LN_CTRL by host software or by Rambler firmware (Table 3-10): enable acts as LANE_ENABLE or LANE_DISABLE,
bit_slip and retrain as their commands. DESIGN CHOICE (log 48): a write that sets host_align and bit_slip at once is
judged by the host_align it writes; R115 does not say by which. -/
def Dev.lnCtrlWrite (d : Dev) (n : Nat) (host : Bool) (val : Word) : Dev :=
  let was := d.flag F.LN_CTRL_enable n
  let en := F.LN_CTRL_enable.get val == 1
  let d := d.writeBits .LN_CTRL n val
  let d := if en && !was then d.laneEnable n else if !en && was then d.laneDisable n else d
  if d.flag F.CLK_STATUS_safe then d
  else
    let d := d.when (F.LN_CTRL_bit_slip.get val == 1) fun d => d.bitSlip n host
    d.when (F.LN_CTRL_retrain.get val == 1) fun d => d.retrain n

/-- The lock bit that LX_CTRL and PL_CTRL share, set in both (Table 19-1). -/
def Dev.shareLock (d : Dev) (i : Nat) : Dev :=
  d.when (d.flag F.LX_CTRL_lock i || d.flag F.PL_CTRL_lock i) fun d => (d.raise F.LX_CTRL_lock i).raise F.PL_CTRL_lock i

/-- A write to a register instance by host software (`host`) or by firmware, with all it brings about, but for
PL_CTRL.restart_req. -/
def Dev.writeReg (d : Dev) (host : Bool) (r : RegName) (i : Nat) (val : Word) : Dev :=
  let d0 := d
  let bits := d.writeBits r i val
  let next := match r with
    | .TB_CTRL => bits.leadReq (F.TB_CTRL_lead_req.get val)
    | .TB_PM_FORCE => d.draw.2.pmForce val d.draw.1
    | .TB_DPLL_SEL => d.draw.2.dpllSel (Plane.ofId i) val d.draw.1
    | .TB_REFV_CFG =>
      let en := F.TB_REFV_CFG_enable.get val == 1
      ((bits.put F.TB_REFV_CFG_enable (d.flag F.TB_REFV_CFG_enable)).draw.2).refvEnable en bits.draw.1
    | .TB_CLASS => d.writeClass i val
    | .TB_PRIO =>
      bits.when (F.TB_PRIO_enable.get val != d.rd F.TB_PRIO_enable i) fun d => d.stateChanged i
    | .TB_SNAP_CTRL =>
      if F.TB_SNAP_CTRL_snap_a.get val == 1 then d.snapshot .a
      else if F.TB_SNAP_CTRL_snap_b.get val == 1 then d.snapshot .b
      else d
    | .LN_OCT_CTRL => d.octWrite i val
    | .LN_CTRL => d.lnCtrlWrite i host val
    | .LN_TX_CTRL => if bits.flag F.LN_TX_CTRL_auto_idle i then bits else bits.noteBusy i
    | .HIF_PORT_CTRL => bits.refreshActive (Port.ofId i)
    | .HIF_FOLD_BASE_LO => d.foldBaseWrite (Port.ofId i) false val
    | .HIF_FOLD_BASE_HI => d.foldBaseWrite (Port.ofId i) true val
    | .HIF_CCT_BASE_LO => bits.when (F.HIF_CCT_BASE_LO_flush.get val == 1) Dev.cctFlush
    | .LX_CTRL => bits.shareLock i
    | .PL_CTRL =>
      (bits.shareLock i).when (F.PL_CTRL_fault_req.get val == 1) fun d => d.landDue.faultReq (Plane.ofId i)
    | .GE_ENG_DIS_LO => d.landDue.engDisWrite (Plane.ofId i) false val
    | .GE_ENG_DIS_HI => d.landDue.engDisWrite (Plane.ofId i) true val
    | .CLK_CTRL => bits.when (F.CLK_CTRL_ls_to_xa.get val == 1) Dev.lsToXa
    | .CLK_SYN_N => if i = 5 then d.syn5Write val else d
    | .CLK_SYN_FRAC | .CLK_SYN_MOD => if i = 5 then bits else d
    | .CLK_DIAG => bits.refreshDiag
    | .CLK_LOCK_CFG => bits.refreshPins
    | .GLB_GPIO_DIR | .GLB_GPIO_OUT | .GLB_GPIO_PULL => bits.refreshGpio
    | .CLK_CKO_CFG => d.ckoWrite i false val
    | .CLK_CKO_DIV => d.ckoWrite i true val
    | .GLB_CLKEN0 => d.gateWrite false val
    | .GLB_CLKEN1 => d.gateWrite true val
    | .HIF_SVR_BASE_LO | .HIF_SVR_BASE_HI | .HIF_SVR_CFG =>
      d.ringCfgWrite (Port.ofId (i / 16)) (regOff r i % 0x8000) val
    | .HIF_CPR_BASE_LO | .HIF_CPR_BASE_HI | .HIF_CPR_CFG =>
      d.ringCfgWrite (Port.ofId (i / 16)) (regOff r i % 0x8000) val
    | .HIF_EVR_BASE_LO | .HIF_EVR_BASE_HI | .HIF_EVR_CFG =>
      d.ringCfgWrite (Port.ofId (i / 32)) (regOff r i % 0x8000) val
    | .HIF_ASR_BASE_LO | .HIF_ASR_BASE_HI | .HIF_ASR_CFG => d.ringCfgWrite (Port.ofId i) (regOff r i % 0x8000) val
    | _ => bits
  next.noteReg d0 r i

/-! ### The register target -/

/-- A transaction that the default target answers (R462): counted, the first unreported one captured, DECODE_ERR raised. -/
def Dev.cmxMiss (d : Dev) (master tag : Nat) (write : Bool) (space addr : Nat) : Dev :=
  let d := d.bump F.CMX_ERR_decode
  let d := if d.flag F.CMX_ERR_INFO_valid then d
    else
      let d := (d.wr F.CMX_ERR_ADDR_LO_addr (addr % 2 ^ 32)).wr F.CMX_ERR_ADDR_HI_addr (addr / 2 ^ 32)
      let d := (d.wr F.CMX_ERR_INFO_master master).wr F.CMX_ERR_INFO_id tag
      ((d.put F.CMX_ERR_INFO_write write).wr F.CMX_ERR_INFO_space space).raise F.CMX_ERR_INFO_valid
  d.occur evCmx 0x7C

/-- A write to a word of the MSI-X table; unmasking a vector whose pending bit is set sends its message (R251, R281). -/
def Dev.msixWrite (d : Dev) (p : Port) (k : Nat) (val : Word) : Dev :=
  if 256 ≤ k then d
  else
    let v := k / 4
    let w := if k % 4 = 3 then val.toNat % 2 else if k % 4 = 0 then val.toNat / 4 * 4 else val.toNat
    let d := d.modPort p fun x => { x with msix := Tbl.set (if k % 4 = 3 then 1 else 0) x.msix k w }
    if (d.port p).pba.contains v && !d.msixMasked p v then
      (d.modPort p fun x => { x with pba := x.pba.filter (· != v) }).raiseMsix p v
    else d

/-- A write of an aligned word of BAR0, through a host port or by firmware: the other port's HIF block and gated blocks
take it without effect (R253, R464). The answer's flag is false where the default target answers (R556). -/
def barWrite (via : Option Port) (off : Nat) (val : Word) (m : Mems) (d : Dev) : Bool × Mems × Dev :=
  let foreign := match via, hifPort off with
    | some p, some q => p != q
    | _, _ => false
  match msixAt off with
  | some (p, k) => (true, m, if foreign then d else d.msixWrite p k val)
  | none =>
    match regAt off with
    | none => (false, m, d)
    | some (r, i) =>
      if foreign || d.gatedAt off then (true, m, d)
      else
        let d := d.writeReg via.isSome r i val
        if r = .PL_CTRL ∧ F.PL_CTRL_restart_req.get val = 1 then (true, restartReq (Plane.ofId i) m d.landDue) else (true, m, d)

/-- A host's write into BAR0 (R253, R456, R462, R463): a write that covers parts of words takes none of them; one that
misses is captured with the port's inbound master. -/
def hostWriteBar (port : Port) (off : Nat) (val : Word) (m : Mems) (d : Dev) : Mems × Dev :=
  if d.start.resetLow then (m, d)
  else if off % 4 ≠ 0 then (m, d.bump F.CMX_ERR_partial 0 2)
  else
    let r := barWrite (some port) off val m d
    if r.1 then r.2
    else
      let x := r.2.2.draw
      (r.2.1, x.2.cmxMiss (4 + port.id) (x.1 % 16) true 0 (0x40000000 + off))

/-- REGISTER_WRITE (R11-R15, R253, R560). -/
def execRegisterWrite (t : Nat) (port : Port) (off : Nat) (val : Word) (s : State) : Host.Outcome State Fault Refusal :=
  onMem true t s fun m d => hostWriteBar port off val m d

end Sys2Proof.Machine
end

