-- ==== Sys2Proof/Machine/Journal.lean ====
section
/-! DEFINITION. The Route Journal (R488-R491): entries, commits, and the region as a ring of pages. -/

namespace Sys2Proof.Machine

/-! ### Entries (Table 15-4) -/

/-- A field of an entry. -/
abbrev jSrc : Fld := (32, 11)
abbrev jKind : Fld := (43, 2)
abbrev jMode : Fld := (45, 2)
abbrev jPref : Fld := (47, 1)
abbrev jChan : Fld := (48, 12)
abbrev jCls : Fld := (64, 4)
abbrev jFmt : Fld := (72, 8)
abbrev jOff : Fld := (96, 32)
abbrev jForm : Fld := (128, 8)
abbrev jMatch : Fld := (144, 12)
/-- AUDIO: entry j at 8 + 6j. -/
abbrev jASrc (j : Nat) : Fld := (64 + 48 * j, 15)
abbrev jAMute (j : Nat) : Fld := (79 + 48 * j, 1)
abbrev jAInvert (j : Nat) : Fld := (80 + 48 * j, 1)
abbrev jAGain (j : Nat) : Fld := (81 + 48 * j, 15)
abbrev jAXfade (j : Nat) : Fld := (96 + 48 * j, 11)
/-- INPUT and CONV. -/
abbrev jPlanes : Fld := (96, 2)
abbrev jIMin : Fld := (128, 32)
abbrev jIMax : Fld := (160, 32)
abbrev jITokens : Fld := (192, 16)
abbrev jOpen : Fld := (32, 1)
abbrev jMirrored : Fld := (33, 1)
abbrev jCSrc : Fld := (48, 11)
abbrev jProfile : Fld := (64, 16)
abbrev jCMin : Fld := (96, 32)
abbrev jCMax : Fld := (128, 32)
abbrev jCTokens : Fld := (160, 16)
/-- REG. -/
abbrev jRegOff : Fld := (32, 32)
abbrev jRegVal : Fld := (64, 32)

/-- An entry's head and contents. -/
def journalEntry (ty units key : Nat) (contents : List Byte) : List Byte :=
  le 1 ty ++ le 1 units ++ le 2 key ++ fit (32 * units - 4) contents

/-- The plane whose table holds an output's state: the one that computes it, or while that is out of service or has not
yet copied it in, the other, with its shadow (R299). -/
def Dev.holderOf (d : Dev) (o : Nat) : Plane :=
  let p : Plane := if (d.out o).mode = 2 then .b else .a
  if d.inService p && !(d.op o p).waitCopy then p else p.other

/-- The OUTPUT entry of an output slot; format 0 and mode 3 where it has no class (R32). -/
def Dev.outputEntry (d : Dev) (o : Nat) : List Byte :=
  let x := d.out o
  let p := d.holderOf o
  let mode := if x.raster.isNone then 3 else x.mode % 4
  let r := (d.op o p).active
  let chan := if p = .b ∧ x.mode = 0 ∧ r.kind = 3 ∧ isConv r.chan then r.chan - 96 else r.chan
  journalEntry 1 1 o (le 2 (r.src % 2048 + r.kind % 4 * 2048 + mode * 8192 + x.preferred.id * 32768) ++ le 2 (chan % 4096)
    ++ le 1 (x.cls % 16) ++ le 1 x.fmt ++ zeros 2 ++ le 4 (ofInt 32 x.off) ++ le 1 x.cct ++ zeros 1 ++ le 2 (x.matchLine % 4096))

/-- The AUDIO entry of four destinations. -/
def Dev.audioEntryOf (d : Dev) (key : Nat) : List Byte :=
  let p := d.holderOf (d.headOf (key / 4))
  journalEntry 2 1 key (zeros 4 ++ (List.range 4).flatMap fun j =>
    let e := (d.dest p (4 * key + j)).now.entry
    le 6 (e.src % 32768 + b2n e.mute * 2 ^ 15 + b2n e.invert * 2 ^ 16 + e.gain % 32768 * 2 ^ 17 + e.xfade % 2048 * 2 ^ 32))

/-- The INPUT entry of an input slot: its CCT bytes and its frame-sync channel. -/
def Dev.inputEntry (d : Dev) (i : Nat) : List Byte :=
  let a := d.owner .a i
  let b := d.owner .b i
  let o := if a.isOpen then a else b
  journalEntry 3 1 i (fit 8 (d.inp i).cct ++ le 4 (b2n a.isOpen + 2 * b2n b.isOpen)
    ++ (if o.isOpen then le 4 o.minPages ++ le 4 o.maxPages ++ le 2 o.tokens else []))

/-- The CONV entry of a conversion channel, or of a mirrored pair under its lower id. -/
def Dev.convEntry (d : Dev) (id : Nat) : List Byte :=
  let a := d.owner (if id < 2400 then .a else .b) id
  let b := if id < 2400 then d.owner .b (id + 96) else {}
  let o := if a.isOpen then a else b
  let isOpen := a.isOpen || (b.isOpen && b.pair)
  journalEntry 4 9 id (if isOpen then
      le 2 (1 + 2 * b2n (b.isOpen && b.pair)) ++ le 2 o.src ++ le 2 o.profile ++ zeros 2 ++ le 4 o.minPages ++ le 4 o.maxPages
        ++ le 2 o.tokens ++ zeros 10 ++ fit 256 o.opened
    else [])

/-- The entry of a type and key as the device stands; a REG entry's key is its offset. -/
def Dev.journalOf (d : Dev) (ty key : Nat) : List Byte :=
  match ty with
  | 1 => d.outputEntry key
  | 2 => d.audioEntryOf key
  | 3 => d.inputEntry key
  | 4 => d.convEntry key
  | _ =>
    let v := match regAt key with
      | some (r, i) => (d.reg r i).toNat
      | none => 0
    journalEntry 5 1 0 (le 4 key ++ le 4 v)

/-- The entries of a commit's body: type, key (the offset for REG) and bytes. -/
def journalEntries : Nat → List Byte → List (Nat × Nat × List Byte)
  | 0, _ => []
  | n + 1, bs =>
    let units := fieldAt bs 1 1
    if units = 0 ∨ bs.length < 32 * units then []
    else
      let e := bs.take (32 * units)
      let ty := fieldAt e 0 1
      (ty, if ty = 5 then jRegOff.of e else fieldAt e 2 2, e) :: journalEntries n (bs.drop (32 * units))

/-! ### The region: pages 0x80 to 0x107F of the array, a ring (R482) -/

/-- First page of the region. -/
abbrev jFirst : Nat := 0x80
/-- Pages of the region. -/
abbrev jPages : Nat := 4096

/-- The page `n` pages on. -/
def jPage (pg n : Nat) : Nat := jFirst + (pg - jFirst + n) % jPages

/-- Bytes read from a page on, around the ring. -/
def Dev.jRead (d : Dev) (m : Memory) (pg n : Nat) : List Byte × Dev :=
  let room := 256 * (jFirst + jPages - pg)
  if n ≤ room then d.ldrRead m (256 * pg) n
  else
    let (a, d) := d.ldrRead m (256 * pg) room
    let (b, d) := d.ldrRead m (256 * jFirst) (n - room)
    (a ++ b, d)

/-- A commit found in the region. -/
structure Commit where
  page : Nat := 0
  pages : Nat := 0
  seq : Nat := 0
  tail : Nat := 0                   -- first page of the oldest live commit
  entries : List (Nat × Nat × List Byte) := []
  deriving DecidableEq, Repr

/-- The commit that starts on a page, where it is valid (R488, R489). -/
def Dev.commitAt (d : Dev) (m : Memory) (pg : Nat) : Option Commit × Dev :=
  let (h, d1) := d.jRead m pg 32
  let len := fieldAt h 8 4
  if fieldAt h 0 4 = 0x4A435452 ∧ 32 ≤ len ∧ len ≤ 256 * jPages then
    let (bs, d2) := d1.jRead m pg len
    if fieldAt bs 28 4 = crc32c (bs.take 28 ++ bs.drop 32) then
      (some { page := pg, pages := ceilDiv len 256, seq := fieldAt bs 4 4, tail := fieldAt bs 16 4
              entries := journalEntries (len / 32) (bs.drop 32) }, d2)
    else (none, d2)
  else (none, d1)

/-- A commit's bytes. -/
def commitBytes (seq secs tail : Nat) (body : List Byte) : List Byte :=
  let h := le 4 0x4A435452 ++ le 4 seq ++ le 4 (32 + body.length) ++ le 4 secs ++ le 4 tail ++ zeros 8
  h ++ le 4 (crc32c (h ++ body)) ++ body

/-- Pages of a region of the array that hold a byte other than 0xFF. -/
def usedPages (m : Memory) (first pages : Nat) : List Nat :=
  (m.foldl (fun l c => if first ≤ c.1 / 256 ∧ c.1 / 256 < first + pages then setInsert (c.1 / 256) l else l) [])

/-- Commits in sequence order, oldest first. -/
def insertCommit (c : Commit) : List Commit → List Commit
  | [] => [c]
  | x :: rest => if newer x.seq c.seq then c :: x :: rest else x :: insertCommit c rest

/-- Every valid commit of the region, in sequence order. -/
def Dev.commits (d : Dev) (m : Memory) : List Commit × Dev :=
  (usedPages m jFirst jPages).foldl (fun (x : List Commit × Dev) pg =>
    let (c, d) := x.2.commitAt m pg
    match c with
    | some c => (insertCommit c x.1, d)
    | none => (x.1, d)) ([], d)

/-- A keyed list with one key's value replaced. -/
def putKey {α : Type} (ty key : Nat) (v : α) (l : List (Nat × Nat × α)) : List (Nat × Nat × α) :=
  (l.filter fun x => !(x.1 == ty && x.2.1 == key)) ++ [(ty, key, v)]

end Sys2Proof.Machine
end

