-- ==== Sys2Proof/Machine/Boot.lean ====
section
/-! DEFINITION. Supplies, reset, start-up, restore and readiness (chapters 17 and 18; R90, R125, R378, R470, R484-R489,
R497). -/

namespace Sys2Proof.Machine

/-! ### Start-up: steps 1 to 3 of Table 17-2 -/

/-- The straps captured (R542): the primary port follows HOSTPRI. -/
def Dev.straps (d : Dev) (v : Nat) : Dev :=
  let d := (d.wr F.GLB_START_xadly v).put F.GLB_START_hostpri (bitOf v 3)
  let d := (d.put F.GLB_START_boothold (bitOf v 4)).put F.GLB_START_laneref (bitOf v 5)
  (d.put F.HIF_PORT_STATUS_primary (!bitOf v 3) 0).put F.HIF_PORT_STATUS_primary (bitOf v 3) 1

/-- Rambler patches verified, measured and applied, and the remap (R470, R497). -/
def Dev.patchUp (d : Dev) (m : Memory) : Dev :=
  let cells := m.filter fun c => decide (0x168000 ≤ c.1 ∧ c.1 < 0x268000)
  let ps := if cells.isEmpty then [] else Config.patches cells
  let d := d.each ps fun d (x : Nat × List Byte) =>
    let core := x.1 % 4
    if vendorVerifies (x.2.take (x.2.length - 96)) (x.2.drop (x.2.length - 96)) then
      let level := d.draw.1 % 256
      let d := ((d.draw.2.extend 1 (sha384 x.2)).raise F.CMX_RMB_STATUS_patched core).wr F.CMX_RMB_STATUS_fw (1 + 256 * level) core
      { d with cmx := { d.cmx with patches := d.cmx.patches ++ [x] } }
    else d.occur (evRmb core) 0x7F
  (d.each (List.range 4) fun d c => d.wr F.CMX_RMB_STATUS_state 2 c).raise F.CMX_CTRL_remap

/-- The profile pack checked, measured and loaded, or rejected; erased bytes where its magic would stand are no pack
(R378, R497). -/
def Dev.packUp (d : Dev) (m : Memory) : Dev :=
  let (h, d) := d.ldrRead m 0x168000 32
  let n := fieldAt h 8 4
  let count := fieldAt h 6 1
  if fieldAt h 0 4 = 0xFFFFFFFF then d
  else
    let planes := [0, 1]
    let reject := d.each planes fun d i => d.raise F.GE_STATUS_pack_rejected i
    if fieldAt h 0 4 = 0x4B505447 ∧ 1 ≤ count ∧ count ≤ 64 ∧ 32 + 16 * count + 96 ≤ n ∧ n ≤ 1048576 then
      let (pk, d) := d.ldrRead m 0x168000 n
      if vendorVerifies (pk.take (n - 96)) (pk.drop (n - 96)) then
        let d := { d.extend 2 (sha384 pk) with start := { d.start with pack := pk.take (32 + 16 * count) } }
        d.each planes fun d i =>
          ((d.wr F.GE_PACK_version (fieldAt h 4 2) i).wr F.GE_PACK_profiles count i).raise F.GE_STATUS_pack_loaded i
      else d.each planes fun d i => d.raise F.GE_STATUS_pack_rejected i
    else reject

/-- Items of a Board Table body: type and data (R485). -/
def boardItems : Nat → List Byte → List (Nat × List Byte)
  | 0, _ => []
  | n + 1, bs =>
    let len := fieldAt bs 2 2
    if bs.length < 4 + len then []
    else (fieldAt bs 0 2, (bs.drop 4).take len) :: boardItems n (bs.drop (4 + (len + 3) / 4 * 4))

/-- Lane equalisation (R125, Table 3-6). -/
def Dev.equalise (d : Dev) (data : List Byte) : Dev :=
  if data.length ≠ 1536 then d
  else
    d.each (List.range 384) fun d n =>
      let v := fieldAt data (4 * n) 4
      let d := ((d.wr F.LN_TX_EQ_amp (bits v 3 0) n).wr F.LN_TX_EQ_pre (bits v 6 4) n).wr F.LN_TX_EQ_post (bits v 10 7) n
      ((d.wr F.LN_RX_EQ_ctle (bits v 14 11) n).wr F.LN_RX_EQ_gain (bits v 17 15) n).put F.LN_CTRL_enable (bitOf v 31) n

/-- A value written to the register of an offset where its Reset column reads hw (R485, R526). -/
def Dev.hwDefault (d : Dev) (off val : Nat) : Dev :=
  match regAt off with
  | some (r, i) => if r.hwReset then d.writeReg false r i (BitVec.ofNat 32 val) else d
  | none => d

/-- Register defaults: pairs of BAR0 offset and value (R485). -/
def Dev.defaults (d : Dev) (data : List Byte) : Dev :=
  d.each (List.range (data.length / 8)) fun d k => d.hwDefault (fieldAt data (8 * k) 4) (fieldAt data (8 * k + 4) 4)

/-- The Board Table chosen, measured and applied (R484, R485, R497). -/
def Dev.boardUp (d : Dev) (m : Memory) : Dev :=
  let (a, d) := d.ldrRead m 0 0x4000
  let (b, d) := d.ldrRead m 0x4000 0x4000
  let cs := [(0, a), (1, b)].filterMap fun (x : Nat × List Byte) => (recordOf 0x0B01 x.2).map fun r => (x.1, r)
  match chooseCopy cs with
  | (none, _) => d
  | (some (c, r), tie) =>
    let d := d.when tie fun d => (d.raise F.LDR_TIE_board_table).occur evLdr 0x78 (0x40 * c)
    let d := d.extend 3 (sha384 (r.header ++ r.body))
    d.each (boardItems (r.body.length / 4) r.body) fun d (x : Nat × List Byte) =>
      if x.1 = 1 then d.equalise x.2 else if x.1 = 2 then d.defaults x.2 else d

/-- The Counters record in use (R484, R486, R503); starts are counted. -/
def Dev.countersUp (d : Dev) (m : Memory) : Dev :=
  let slots := (usedPages m 0x1080 256).foldl (fun l pg => setInsert ((pg - 0x1080) / 2) l) []
  let (cs, d) := slots.foldl (fun (x : List (Nat × LdrRec) × Dev) k =>
    let (bs, d) := x.2.ldrRead m (0x108000 + 512 * k) 512
    match recordOf 0x0C01 bs with
    | some r => (x.1 ++ [(k, r)], d)
    | none => (x.1, d)) ([], d)
  let d := match chooseCopy cs with
    | (some (k, r), tie) =>
      let d := d.when tie fun d => (d.raise F.LDR_TIE_counters).occur evLdr 0x78 (0x1080 + 2 * k)
      d.modLdr fun l => { l with cSlot := (k + 1) % 128, cSeq := r.seq, cValid := true
                                 counts := (List.range 10).map fun i => fieldAt (fit 40 r.body) (4 * i) 4 }
    | (none, _) => d
  let d := d.countUp 1
  ({ d with key := { d.key with hour0 := d.ldr.counts.getD 0 0 } }).modLdr fun l => { l with cAt := d.now }

/-- The Fault Log's newest valid entry (R487). -/
def Dev.faultLogUp (d : Dev) (m : Memory) : Dev :=
  let (es, d) := (usedPages m 0x1180 1024).foldl (fun (x : List (Nat × Nat) × Dev) pg =>
    let (bs, d) := x.2.ldrRead m (256 * pg) 256
    (x.1 ++ (List.range 4).filterMap fun k =>
      let e := (bs.drop (64 * k)).take 64
      if fieldAt e 60 4 = crc32c (e.take 60) then some (4 * (pg - 0x1180) + k, fieldAt e 0 4) else none, d)) ([], d)
  match es.foldl (fun (b : Option (Nat × Nat)) e => match b with
      | some x => if newer e.2 x.2 then some e else b
      | none => some e) none with
  | some (k, q) => d.modLdr fun l => { l with fNext := (k + 1) % 4096, fSeq := q }
  | none => d

/-- The Route Journal read: the commits' entries into the control-side shadow, the newest of each key (R489), except
under BOOTHOLD (R528), and where the next commit goes (R488, R490). -/
def Dev.replay (d : Dev) (m : Memory) : Dev :=
  let (cs, d) := d.commits m
  match cs.getLast? with
  | none => d.modLdr fun l => { l with jNext := jFirst }
  | some z =>
    let live := if cs.any fun c => c.page == z.tail then cs.dropWhile fun c => c.page != z.tail else cs
    let new := cs.foldl (fun l c => c.entries.foldl (fun l (e : Nat × Nat × List Byte) => putKey e.1 e.2.1 c.page l) l) []
    let shadow := cs.foldl (fun l c => c.entries.foldl (fun l (e : Nat × Nat × List Byte) => putKey e.1 e.2.1 e.2.2 l) l) []
    let d := d.modLdr fun l => { l with jSeq := z.seq, jNext := jPage z.page z.pages, jNew := new
                                        jLive := live.map fun c => (c.page, c.pages) }
    if d.flag F.GLB_START_boothold then d
    else { (d.raise F.GLB_START_journal_valid) with start := { d.start with shadow := shadow } }

/-- The part of start-up that reads the Larder; a page that a reset lets finish delays it (R478). -/
def Dev.readUp (d : Dev) (m : Memory) : Dev :=
  let d := (((d.extend 0 Config.romDigest).patchUp m).packUp m).boardUp m
  let d := ((d.countersUp m).faultLogUp m).replay m
  let d := (d.modLdr fun l => { l with jPend := [], jSince := none, jCredit := 0, jCreditAt := d.now, fLast := some d.now, scrubAt := d.now }).put
    F.KEY_STATUS_drbg_ok true
  let train (x : PlaneSt) : PlaneSt := { x with training := true }
  let d := { ((d.modPlane .a train).modPlane .b train) with start := { d.start with bootDue := false } }
  d.wr F.GLB_START_phase (if d.xaOk then 2 else 1)

/-- Start-up begins (R521, R523): straps, and steps 1 to 3. -/
def Dev.boot (d : Dev) (m : Memory) (straps : Nat) : Dev :=
  let d := d.straps straps
  let d := { d with start := { d.start with t0 := d.now, booted := true, bootDue := true } }
  let answers (x : PortSt) : PortSt := { x with answers := !x.perst }
  let d := (d.modPort .a answers).modPort .b answers
  let d := d.each (List.range 4) fun d c => d.wr F.CMX_RMB_STATUS_state 1 c
  if d.ldr.ending then d else d.readUp m

/-- The memories as start-up begins: the ROM image takes the place of what the SRAM held there (R470). -/
def Mems.imaged (m : Mems) : Mems := { m with sram := m.sram.filter fun c => decide (0x40000 ≤ c.1) }

/-- SUPPLIES_VALID (R521): t0. -/
def execSuppliesValid (t straps : Nat) (s : State) : Host.Outcome State Fault Refusal :=
  onMem (strapsOk straps) t s fun m d =>
    if d.start.supplied then (m, d)
    else
      let d := { (d.wr F.GLB_SUPPLY_in_window 255) with start := { d.start with supplied := true, railOut := [] } }
      (m.imaged, if d.start.resetLow then d else d.boot m.larder straps)

/-! ### Reset (R522, R540, R546) -/

/-- What a reset releases (R540): lanes, clock outputs, DIAGCLK, lock pins, ALERT_N, GPIO balls. -/
def Dev.release (d : Dev) : Dev :=
  let d := d.each (List.range 384) fun d n => d.when (d.lnState n != 0) fun d => d.emit (.lane n .hiZ)
  let d := d.each (List.range 8) fun d c => d.when (Tbl.get none d.clk.cko c).isSome fun d => d.emit (.cko c none)
  let d := d.when d.clk.diag.isSome fun d => d.emit (.diagclk none)
  ((d.emit (.lockPins true)).emit (.alert false)).emit (.gpio (List.replicate 16 none) 0#32)

/-- A port at its reset state, its PERST pin as the board holds it (R547). -/
def portAfterReset (x : PortSt) : PortSt := if x.perst then { perst := true, linkUp := false, bme := false } else {}

/-- The whole device but the supply monitors at its reset state (R14, R546), the straps as last sampled (R542); the page
under write goes on to finish (R478), the Larder's torn bytes stay torn, and the TAP and the SMBus target go on (R548, R550). -/
def Dev.resetAll (d : Dev) : Dev :=
  let d := d.release
  let d0 : Dev :=
    { now := d.now, free := d.free, emitted := d.emitted
      start := { supplied := d.start.supplied, resetLow := d.start.resetLow, railOut := d.start.railOut
                 railAt := d.start.railAt
                 boundary := d.start.boundary, tap := d.start.tap, smbBytes := d.start.smbBytes }
      ports := ⟨portAfterReset d.ports.a, portAfterReset d.ports.b⟩
      ldr := { page := d.ldr.page, image := d.ldr.image, cur := d.ldr.cur, torn := d.ldr.torn, ending := d.ldr.page.isSome }
      key := { draws := d.key.draws } }
  let straps := d.rd F.GLB_START_xadly + 8 * b2n (d.flag F.GLB_START_hostpri) + 16 * b2n (d.flag F.GLB_START_boothold)
    + 32 * b2n (d.flag F.GLB_START_laneref)
  let d1 := ((d0.setReg .GLB_SUPPLY 0 (d.reg .GLB_SUPPLY 0)).straps straps).each [Port.a, Port.b] fun d p =>
    d.put F.HIF_PORT_STATUS_link_up (d.port p).linkUp p.id
  d1.when d.ldr.page.isSome fun x => x.setReg .LDR_STATUS 0 (d.reg .LDR_STATUS 0)

/-- The memories after a reset: the Larder stays; the Hamper stacks and the working SRAM hold nothing. -/
def Mems.afterReset (m : Mems) : Mems := { larder := m.larder }

/-- RESET_ASSERT (R546): a pulse of 1 us or longer resets, one shorter than 100 ns does not; between the two the spec
leaves it open. -/
def execResetAssert (t lowNs : Nat) (s : State) : Host.Outcome State Fault Refusal :=
  onMem true t s fun m d =>
    let (x, d) := if 100 ≤ lowNs ∧ lowNs < 1000 then d.draw else (0, d)
    if 1000 ≤ lowNs ∨ x % 2 = 1 then (m.afterReset, { d with start := { d.start with resetLow := true } }.resetAll) else (m, d)

/-- RESET_RELEASE (R542, R546): after t0 the straps are sampled again and start-up restarts. -/
def execResetRelease (t straps : Nat) (s : State) : Host.Outcome State Fault Refusal :=
  onMem (strapsOk straps) t s fun m d =>
    if !d.start.resetLow then (m, d)
    else
      let d := { d with start := { d.start with resetLow := false } }
      (m.imaged, if d.start.supplied then d.boot m.larder straps else d)

/-! ### Supplies (R478, R481, R522) -/

/-- RAIL_DEPARTURE (R522): after t0 a rail is outside its window for 2 us; no page write starts (R478). Before t0 the loss of
VDD_AON ends what a brown-out left in GLB_START. -/
def execRailDeparture (t rail : Nat) (s : State) : Host.Outcome State Fault Refusal :=
  onDev (railOk rail) t s fun d =>
    let d := (d.setBit F.GLB_SUPPLY_in_window rail false)
    let d := { d with start := { d.start with railOut := setInsert rail d.start.railOut, railAt := Tbl.set 0 d.start.railAt rail d.now } }
    if !d.start.supplied then d.when (rail == 2) fun d => d.put F.GLB_START_brownout false
    else
      let d := (d.raiseBit F.GLB_SUPPLY_left rail).bump F.GLB_SUPPLY_departures
      if d.start.resetLow then d else d.occur evRail 0x74 rail

/-- RAIL_RETURN (R478): the rail is back inside its window, and page writes may start again. -/
def execRailReturn (t rail : Nat) (s : State) : Host.Outcome State Fault Refusal :=
  onMem (railOk rail) t s fun m d =>
    let d := d.setBit F.GLB_SUPPLY_in_window rail true
    let d := { d with start := { d.start with railOut := d.start.railOut.filter (· != rail) } }
    (m, d.larderServe m.larder)

/-- Bytes that a power failure leaves on a page, and which of them hold bits that read 0 or 1 (Table 15-1). -/
def tornPage (stage : TornStage) (old new : List Byte) : List Byte × List Nat :=
  match stage with
  | .beforeErase => (old, [])
  | .duringErase => (old, List.range 256)
  | .programming w =>
    (new.take (8 * (w + 1)) ++ List.replicate (256 - 8 * (w + 1)) 0xFF#8, span (8 * w) 8)
  | .programmed => (new, [])

/-- Torn ranges with page `pg` covered anew: bytes `offs` of it are torn. -/
def retorn (torn : List (Nat × Nat)) (pg : Nat) (offs : List Nat) : List (Nat × Nat) :=
  let keep (a n : Nat) : List (Nat × Nat) := if n = 0 then [] else [(a, n)]
  let lo := 256 * pg
  let hi := lo + 256
  torn.flatMap (fun (x : Nat × Nat) => keep x.1 (Nat.min (x.1 + x.2) lo - x.1) ++ keep (Nat.max x.1 hi) (x.1 + x.2 - Nat.max x.1 hi))
    ++ offs.map fun o => (lo + o, 1)

/-- After t0 some rail has been outside its window for 50 us (R522). -/
def Dev.brownOutDue (d : Dev) : Bool :=
  d.start.supplied && d.start.railOut.any fun r => decide (Tbl.get 0 d.start.railAt r + 48 * usU ≤ d.now)

/-- A brown-out's reset: a page under write is torn, and GLB_START remembers the brown-out while VDD_AON holds (R481,
R522). -/
def Dev.brownOut (d : Dev) (m : Mems) (aonHeld : Bool) (stage : TornStage) : Mems × Dev :=
  let (m, d) := match d.ldr.page with
    | none => (m, d)
    | some pg =>
      let (old, d) := d.ldrRead m.larder (256 * pg) 256
      let (bs, offs) := tornPage stage old d.ldr.image
      let keep : Bool := stage == TornStage.beforeErase
      ({ m with larder := Memory.writeN 0xFF#8 m.larder (256 * pg) (if keep then Memory.readN 0xFF#8 m.larder (256 * pg) 256 else bs) },
        d.modLdr fun l => { l with page := none, torn := if keep then l.torn else retorn l.torn pg offs })
  let d := { d with start := { d.start with supplied := false } }.resetAll
  let held := aonHeld && !d.start.railOut.contains 2
  let d := if held then d.raise F.GLB_START_brownout else (d.wr F.GLB_SUPPLY_left 0).wr F.GLB_SUPPLY_departures 0
  (m.afterReset, d)

/-- BROWN_OUT (R522, R481): the device resets as by RESET_N, and the next t0 begins start-up anew. -/
def execBrownOut (t : Nat) (aonHeld : Bool) (stage : TornStage) (s : State) : Host.Outcome State Fault Refusal :=
  onMem (stageOk stage) t s fun m d => if d.brownOutDue then d.brownOut m aonHeld stage else (m, d)

/-! ### Restore (R525-R528) -/

/-- Entries of a type in the shadow: key and bytes. -/
def Dev.shadowOf (d : Dev) (ty : Nat) : List (Nat × List Byte) := (d.start.shadow.filter fun x => x.1 == ty).map (·.2)

/-- An OUTPUT entry (R525): raster, plane mode, routes and CCT fields; not where its class does not run its format. Of an
output recorded as single-plane the other plane holds the routes as its shadow alone (R299); a plane that is not in
service is not restored (R526). -/
def Dev.restoreOutput (d : Dev) (o : Nat) (e : List Byte) : Dev :=
  let f := jFmt.of e
  let n := jCls.of e
  if f ≠ 0 ∧ !(d.clsOn n && fmtOk f && d.fmtFits f n) then d
  else
    let r : Option Raster := if f = 0 then none else some { cls := n, fmt := f, off := toInt 32 (jOff.of e) }
    let after := match r with
      | some x => x.lineAt (({ x with off := 0 } : Raster).frameFrom (d.epoch + 1)) 1
      | none => 0
    let mode := if jMode.of e = 3 then 0 else jMode.of e      -- mode 3 is that of no class (R32)
    let pref := Plane.ofId (jPref.of e)
    let d := d.modOut o fun x => { x with raster := r, after := after, mode := mode, preferred := pref, moveTo := false
                                          serving := if mode = 1 then .a else if mode = 2 then .b else pref
                                          cct := jForm.of e, matchLine := jMatch.of e }
    let d := d.each d.planesUp fun d p => d.modOp o p fun y =>
      { y with active := { kind := jKind.of e, src := jSrc.of e
                           chan := if jKind.of e = 3 ∧ mode = 0 ∧ p = .b ∧ isConv (jChan.of e) then jChan.of e + 96 else jChan.of e } }
    if r.isSome then d.wr F.GLB_READY_restored (d.rd F.GLB_READY_restored + 1) else d

/-- An AUDIO entry (R525). -/
def Dev.restoreAudio (d : Dev) (key : Nat) (e : List Byte) : Dev :=
  d.each d.planesUp fun d p => d.each (List.range 4) fun d j =>
    d.modDest p (4 * key + j) fun x => { x with now := { x.now with entry :=
      { src := (jASrc j).of e, mute := (jAMute j).on e, invert := (jAInvert j).on e, gain := (jAGain j).of e, xfade := (jAXfade j).of e } } }

/-- An INPUT entry's CCT bytes (R525). -/
def Dev.restoreInput (d : Dev) (i : Nat) (e : List Byte) : Dev :=
  d.modIn i fun x => { x with cct := (e.drop 4).take 8, delay := fieldAt e 4 4 }

/-- The format of an output that scans a channel: what a restored frame-sync channel takes where its entry leaves the
format to a source that is absent. -/
def Dev.scannedFmt (d : Dev) (id : Nat) : Nat :=
  match d.outs.find? fun x => [Plane.a, Plane.b].any fun p => (x.2.pl.pl p).active.kind == 3 && (x.2.pl.pl p).active.chan == id with
  | some x => x.2.fmt
  | none => 0

/-- A channel that a plane out of service opens when it returns (R301, R526). -/
def Dev.keepFor (d : Dev) (p : Plane) (id : Nat) (pair : Bool) (o : Owner) : Dev :=
  d.modPlane p fun x => { x with was := Tbl.set {} x.was (if pair then id + 96 else id) { o with isOpen := true, pair := pair } }

/-- The channel that an INPUT or CONV entry records as open, on the planes it names (R525, R526). -/
def Dev.restoreChannel (d : Dev) (id : Nat) (e : List Byte) : Dev :=
  let orig := if isSync id then le 1 1 ++ le 1 1 ++ zeros 2 ++ (e.drop 4).take 8 ++ zeros 244 else (e.drop 32).take 256
  let cct := if isSync id then orig
    else orig.take 22 ++ [0#8, BitVec.ofNat 8 (fieldAt orig 23 1 / 16 * 16)] ++ orig.drop 24
  let op := if isSync id then
      let f := d.syncFmtOf id cct
      d.syncAllocs 0 id (jPlanes.of e) (jIMin.of e) (jIMax.of e) (jITokens.of e) (if f = 0 then d.scannedFmt id else f) cct
    else if jOpen.on e then
      d.convAllocs 0 id (jCSrc.of e) (jProfile.of e) (jMirrored.on e) (jCMin.of e) (jCMax.of e) (jCTokens.of e) cct
    else .allocs []
  let named : List Plane := if isSync id then maskPlanes (jPlanes.of e)
    else if !jOpen.on e then [] else [Plane.a, Plane.b].filter fun p => jMirrored.on e || decide (p = Plane.ofId ((id - 2304) / 96))
  let d := d.each (named.filter fun p => !d.inService p) fun d p => d.keepFor p id (jMirrored.on e && p == .b && isConv id)
    (if isSync id then
      let f := d.syncFmtOf id cct
      d.syncOwner id (jIMin.of e) (jIMax.of e) (jITokens.of e) (if f = 0 then d.scannedFmt id else f) cct
    else d.convOwner (jCSrc.of e) (jProfile.of e) (jCMin.of e) (jCMax.of e) (jCTokens.of e) cct)
  match op with
  | .allocs l => d.each l fun d a =>
      (d.openFromPool a).modOwner a.plane a.id fun o => if o.isOpen then { o with opened := orig } else o
  | _ => d.each (named.filter d.inService) fun d p => d.occur (evPl p) 0x52 id

/-- The paths of every destination as the restored routes and channels give them (R389). -/
def Dev.pathsAnew (d : Dev) : Dev :=
  d.each [Plane.a, Plane.b] fun d p => d.each ((d.plane p).dests.map (·.1)) fun d a =>
    d.modDest p a fun x => { x with now := { x.now with path := d.pathOf p (a / 16) x.now.entry.src } }

/-- The replayed journal applied (R525, R526). -/
def Dev.restoreAll (d : Dev) : Dev :=
  let (jp, js) := (d.ldr.jPend, d.ldr.jSince)
  let d := d.each (d.shadowOf 5) fun d x => d.hwDefault x.1 (jRegVal.of x.2)
  let d := d.each (d.shadowOf 1) fun d x => d.restoreOutput x.1 x.2
  let d := d.each (d.shadowOf 2) fun d x => d.restoreAudio x.1 x.2
  let d := d.each (d.shadowOf 3) fun d x => d.restoreInput x.1 x.2
  let chans := ((d.shadowOf 3 ++ d.shadowOf 4).foldl (fun l x => setInsert x.1 l) [])
  let entry (id : Nat) : List Byte := (((d.shadowOf (if isSync id then 3 else 4)).find? fun x => x.1 == id).map (·.2)).getD []
  let d := d.each chans fun d id => d.restoreChannel id (entry id)
  { d.pathsAnew with ldr := { d.ldr with jPend := jp, jSince := js } }

/-- RESTORE (R525-R528): step 9, once both stacks are trained or quarantined. -/
def execRestore (t : Nat) (s : State) : Host.Outcome State Fault Refusal :=
  onDev true t s fun d =>
    if d.rd F.GLB_START_phase != 2 || (d.plane .a).training || (d.plane .b).training then d
    else
      let d := if d.flag F.GLB_START_boothold then d else d.restoreAll
      { (d.wr F.GLB_START_phase 3) with start := { d.start with shadow := [] } }

/-- READY (R524, R528, R90): the last restored raster has started; HELD under BOOTHOLD. -/
def execReady (t : Nat) (s : State) : Host.Outcome State Fault Refusal :=
  onDev true t s fun d =>
    if d.rd F.GLB_START_phase != 3 || d.outs.any (fun x => x.2.raster.isSome && decide (d.epoch < x.2.after)) then d
    else
      let held := d.flag F.GLB_START_boothold
      let n := d.rd F.GLB_READY_restored
      let d := (d.wr F.GLB_READY_ms ((d.now - d.start.t0) / msU)).wr F.GLB_START_phase (if held then 5 else 4)
      let d := { (d.raise F.TB_STATUS_grace_open) with start := { d.start with readyAt := d.now } }
      (if held then d.occur evStart 0x85 else d.occur evStart 0x84 n).deliverAll

/-- GRACE_CLOSED (R90, R94): 30 s after t_READY. -/
def execGraceClosed (t : Nat) (s : State) : Host.Outcome State Fault Refusal :=
  onDev true t s fun d =>
    if d.flag F.TB_STATUS_grace_open && decide (d.start.readyAt + 30 * secU ≤ d.now) then
      { (d.put F.TB_STATUS_grace_open false).occur evStart 0x86 with tim := { d.tim with jumpOpen := false } }
    else d

end Sys2Proof.Machine
end

