-- ==== Sys2Proof/Machine/Flash.lean ====
section
/-! DEFINITION. The Larder's page writes and the device's own commits (R473-R478, R486-R492): page write done, Route
Journal, Counters, Fault Log, scrubber. -/

namespace Sys2Proof.Machine

/-! ### The end of a command -/

/-- An NVM_WRITE ends (R480). -/
def Dev.nvmDone (d : Dev) (tag : Nat) (ok : Bool) : Dev :=
  let (p, r) := (Port.ofId (tag / 16), tag % 16)
  match (d.ring p r).items.find? fun it => it.phase == .acting && descOp it.head == 0x40 with
  | some it => d.finish p r it.idx (if ok then 0 else 0x1C)
  | none => d

/-- A Route Journal commit ends: it is live and holds the newest entries of its keys, or its keys wait again (R490). -/
def Dev.journalDone (d : Dev) (ok : Bool) : Dev :=
  let l := d.ldr
  match l.jWrite with
  | none => d
  | some (pg, n) =>
    if ok then
      d.modLdr fun l => { l with jLive := l.jLive ++ [(pg, n)], jWrite := none, jFly := []
                                 jNew := l.jFly.foldl (fun t k => putKey k.1 k.2 pg t) l.jNew }
    else
      d.modLdr fun l => { l with jPend := l.jFly ++ l.jPend.filter fun k => !l.jFly.contains k
                                 jSince := l.jWas.orElse fun _ => l.jSince, jWrite := none, jFly := [] }

/-- What the end of a write command brings about. -/
def Dev.cmdDone (d : Dev) (c : LdrCmd) (pg : Nat) (ok : Bool) : Dev :=
  match c.what with
  | 0 => d.nvmDone c.tag ok
  | 1 => d.journalDone ok
  | 4 => d.slotWritten c d.ldr.image ok
  | 5 => if ok then ((d.countUp 9).bump F.LDR_CNT_refreshes).occur evLdr 0x79 pg else d
  | 6 => d.slotRewritten c d.ldr.image ok
  | _ => d

/-- The count of R486 that a page write raises. -/
def Dev.countPage (d : Dev) (c : LdrCmd) : Dev :=
  if c.what = 0 then d.countUp 7 else if c.what = 1 then d.countUp 6 else d

/-- With the command in service changed or, for none, ended. -/
def LarderUnit.service (l : LarderUnit) (next : Option LdrCmd) : LarderUnit :=
  match next with
  | some c => { l with queue := modFirst (fun q => q.cls == l.cur) (fun _ => c) l.queue }
  | none => { l with queue := l.queue.eraseP fun q => q.cls == l.cur }

/-- Every command that has written a page and not its last is interrupted by a rail outside its window (R478). -/
def Dev.railEnds (d : Dev) : Dev :=
  let cut := d.ldr.queue.filter (·.begun)
  let d := d.modLdr fun l => { l with queue := l.queue.filter fun c => !c.begun }
  d.each cut fun d c => (d.raise F.LDR_ERR_rail_abort).cmdDone c (c.addr / 256) false

/-- No page is under write. -/
def Dev.pageOver (d : Dev) : Dev := (d.modLdr fun l => { l with page := none, ending := false }).put F.LDR_STATUS_busy false

/-- A page holds its new bytes (R473). -/
def writtenPage (m : Memory) (pg : Nat) (image : List Byte) : Memory := Memory.writeN 0xFF#8 m (256 * pg) (fit 256 image)

/-- A page that failed twice: its bytes read 0 or 1 in every bit. -/
def failedPage (m : Memory) (pg : Nat) : Memory := Memory.writeN 0xFF#8 m (256 * pg) (zeros 256)

/-- The array after a page write that did or did not verify. -/
def Dev.pageLands (d : Dev) (m : Memory) (pg : Nat) (ok : Bool) : Memory × Dev :=
  if ok then (writtenPage m pg d.ldr.image, d.modLdr fun l => { l with torn := retorn l.torn pg [] })
  else (failedPage m pg, d.modLdr fun l => { l with torn := retorn l.torn pg (List.range 256) })

/-- A page write finishes for a command in service (R473-R478). -/
def Dev.pageDone (d : Dev) (m : Memory) (pg : Nat) (c : LdrCmd) (verify : Bool) : Memory × Dev :=
  let d := d.countPage c
  let out := !d.start.railOut.isEmpty
  if verify then
    let (m, d) := d.pageLands m pg true
    let rest := c.data.drop (256 - c.addr % 256)
    if rest.isEmpty then
      let d := (d.modLdr fun l => l.service none).pageOver
      let d := d.cmdDone c pg true
      (m, if out then d.railEnds else d.larderServe m)
    else
      let next := if c.what = 1 then jPage pg 1 else pg + 1
      let d := (d.modLdr fun l =>
        l.service (some { c with addr := 256 * next, data := rest, retried := false, begun := true })).pageOver
      (m, if out then d.railEnds else d.larderServe m)
  else if !c.retried && !out then
    (m, d.modLdr fun l => l.service (some { c with retried := true }))
  else
    let (m, d) := d.pageLands m pg false
    let d := (d.modLdr fun l => l.service none).pageOver
    let d := if c.retried then (d.raise F.LDR_ERR_verify_fail).occur evLdr 0x7B pg else d.raise F.LDR_ERR_rail_abort
    let d := d.cmdDone c pg false
    (m, if out then d.railEnds else d.larderServe m)

/-- LARDER_PAGE_WRITE_DONE (R473-R478): for a page that a reset let finish, start-up may then read the Larder. -/
def execLarderPageWriteDone (t : Nat) (verify : Bool) (s : State) : Host.Outcome State Fault Refusal :=
  onMem true t s fun m d =>
    match d.ldr.page with
    | none => (m, d)
    | some pg =>
      if d.ldr.ending then
        let (x, d) := d.pageLands m.larder pg verify
        let d := d.pageOver
        (if d.start.bootDue then { m.imaged with larder := x } else { m with larder := x }, if d.start.bootDue then d.readUp x else d)
      else
        match d.ldr.queue.find? fun q => q.cls == d.ldr.cur with
        | none => (m, d.pageOver)
        | some c =>
          let (x, d) := d.pageDone m.larder pg c verify
          ({ m with larder := x }, d)

/-! ### Route Journal commits (R489-R491) -/

/-- Bytes and keys of a commit that starts on a page, with the live commits it leaves (R490): every entry of a commit it
would overwrite that is still the newest for its key is copied in. -/
def Dev.reclaim (d : Dev) (m : Memory) (first : Nat) : List (Nat × Nat) → List (Nat × Nat) → List Byte →
    (List (Nat × Nat) × List (Nat × Nat) × List Byte) × Dev
  | [], keys, body => (([], keys, body), d)
  | (pg, n) :: rest, keys, body =>
    let pages := ceilDiv (32 + body.length) 256
    if (pg + jPages - first) % jPages < pages ∨ (first + jPages - pg) % jPages < n then
      let (c, d) := d.commitAt m pg
      let es := ((c.map (·.entries)).getD []).filter fun e =>
        !keys.contains (e.1, e.2.1) && d.ldr.jNew.any fun x => x.1 == e.1 && x.2.1 == e.2.1 && x.2.2 == pg
      Dev.reclaim d m first rest (keys ++ es.map fun e => (e.1, e.2.1)) (body ++ es.flatMap fun e => e.2.2)
    else (((pg, n) :: rest, keys, body), d)

/-- JOURNAL_COMMIT (R489-R491): with changes pending, 1 s past the last commit, and credit for its pages. -/
def execJournalCommit (t : Nat) (s : State) : Host.Outcome State Fault Refusal :=
  onMem true t s fun m d =>
    let d := d.landDue
    let l := d.ldr
    if l.jPend.isEmpty || l.jWrite.isSome || !d.taskRuns 2 || decide (d.now < l.jLast + secU) || d.rd F.GLB_START_phase == 0 then (m, d)
    else
      let body := l.jPend.flatMap fun k => d.journalOf k.1 k.2
      let ((live, keys, body), d1) := d.reclaim m.larder l.jNext l.jLive l.jPend body
      let pages := ceilDiv (32 + body.length) 256
      let credit := d.creditNow
      if credit < pages * (10 * secU) then (m, d)
      else
        let seq := (l.jSeq + 1) % 2 ^ 32
        let tail := match live with
          | x :: _ => x.1
          | [] => l.jNext
        let bytes := commitBytes seq (d.epoch / secU % 2 ^ 32) tail body
        let d := d1.modLdr fun l =>
          { l with jSeq := seq, jWrite := some (l.jNext, pages), jNext := jPage l.jNext pages, jLive := live, jFly := keys
                   jPend := [], jSince := none, jWas := l.jSince, jStretch := 0, jLast := d.now
                   jCredit := credit - pages * (10 * secU), jCreditAt := d.now }
        (m, d.larderAdd m.larder { cls := 1, what := 1, addr := 256 * l.jNext, data := bytes })

/-- JOURNAL_STRETCH (R491): the oldest change is older than 10 s, and every hour after that. -/
def execJournalStretch (t : Nat) (s : State) : Host.Outcome State Fault Refusal :=
  onDev true t s fun d =>
    match d.ldr.jSince with
    | some a =>
      if a + 10 * secU + 3600 * secU * d.ldr.jStretch < d.now then
        (d.modLdr fun l => { l with jStretch := l.jStretch + 1 }).occur evLdr 0x7A
      else d
    | none => d

/-! ### Counters and Fault Log (R486, R487) -/

/-- COUNTERS_COMMIT (R486): once per powered hour, to the slot after the previous one. -/
def execCountersCommit (t : Nat) (s : State) : Host.Outcome State Fault Refusal :=
  onMem true t s fun m d =>
    if d.rd F.GLB_START_phase = 0 ∨ d.taskRuns 2 = false ∨ d.now < d.ldr.cAt + 3600 * secU then (m, d)
    else
      let d := d.countUp 0
      let l := d.ldr
      let seq := if l.cValid || l.cSeq != 0 then (l.cSeq + 1) % 2 ^ 32 else 1
      let bs := recordBytes 0x0C01 seq (l.counts.flatMap (le 4 ·))
      let pad := 512 - bs.length
      let data := bs ++ freeBytes d.free pad
      let d := { (d.modLdr fun l => { l with cSlot := (l.cSlot + 1) % 128, cSeq := seq, cAt := d.now }) with free := d.free + pad }
      (m, d.larderAdd m.larder { cls := 1, what := 2, addr := 0x108000 + 512 * l.cSlot, data := data })

/-- A Fault Log entry with its seq and check (R487). -/
def faultEntry (seq : Nat) (body : List Byte) : List Byte :=
  let b := le 4 seq ++ fit 56 body
  b ++ le 4 (crc32c b)

/-- FAULT_LOG_COMMIT (R487): at most one page per 60 s. -/
def execFaultLogCommit (t : Nat) (s : State) : Host.Outcome State Fault Refusal :=
  onMem true t s fun m d =>
    let l := d.ldr
    let soon := match l.fLast with
      | some a => decide (d.now < a + 60 * secU)
      | none => false
    if l.fBuf.isEmpty || soon || !d.taskRuns 2 || d.rd F.GLB_START_phase == 0 then (m, d)
    else
      let n := Nat.min (4 - l.fNext % 4) l.fBuf.length
      let es := (l.fBuf.take n).zip (span (l.fSeq + 1) n)
      let data := es.flatMap fun e => faultEntry (e.2 % 2 ^ 32) e.1
      let d := d.modLdr fun l =>
        { l with fBuf := l.fBuf.drop n, fSeq := (l.fSeq + n) % 2 ^ 32, fNext := (l.fNext + n) % 4096, fLast := some d.now }
      (m, d.larderAdd m.larder { cls := 1, what := 3, addr := 0x118000 + 64 * l.fNext, data := data })

/-! ### The scrubber (R492) -/

/-- Time from one scrubbed page to the next. -/
def Dev.scrubPeriod (d : Dev) : Nat :=
  let k := d.rd F.LDR_SCRUB_days
  (if k = 0 then 7 else Nat.min k 28) * (86400 * secU) / 16384

/-- LARDER_SCRUB (R492): the page of this turn is read at both margins, and refreshed where the reads differ; a page
under write is retried on the next turn. -/
def execLarderScrub (t : Nat) (differ : Bool) (s : State) : Host.Outcome State Fault Refusal :=
  onMem true t s fun m d =>
    if !d.flag F.LDR_CTRL_scrub_en || !d.taskRuns 2 || d.rd F.GLB_START_phase == 0 || decide (d.now < d.ldr.scrubAt + d.scrubPeriod) then (m, d)
    else
      let pg := d.rd F.LDR_SCRUB_next
      let d := d.modLdr fun l => { l with scrubAt := d.now }
      if d.ldr.page = some pg then (m, d.bump F.LDR_CNT_busy_reads)
      else
        let d := d.wr F.LDR_SCRUB_next (pg + 1)
        (m, if differ then d.larderAdd m.larder { cls := 3, what := 5, addr := 256 * pg } else d)

end Sys2Proof.Machine
end

