-- ==== Sys2Proof/Machine/HostItems.lean ====
section
/-! DEFINITION. HAMPER_WRITE, HAMPER_READ and their transfers (R337-R341, R569), and TAKEOVER (R306, R307). -/

namespace Sys2Proof.Machine

/-! ### HAMPER_WRITE (R337, R338) -/

/-- Status of a write for the pages a set holds, or will hold: its range lies within them (R338). -/
def rangeStatus (pages off n : Nat) : Nat := need (decide (off + n ≤ pages * 8192))

/-- What a new set draws on a plane: the issuing ring's holdings first, then the pool (R337). -/
def Dev.drawSet (d : Dev) (p : Port) (r : Nat) (q : Plane) (a : Amount) : Dev :=
  let h := a.least (d.holdOf p r q)
  (d.modHold p r q (·.sub h)).setPool q ((d.pool q).sub (a.sub h))

/-- The overlay set of an entry opens on a plane (R337). -/
def Dev.openSet (d : Dev) (p : Port) (r : Nat) (q : Plane) (id : Nat) (b : List Byte) : Dev :=
  let a : Amount := ⟨C.pages.of b, C.tokens.of b, 0⟩
  (d.drawSet p r q a).openOwner { plane := q, id := id, amount := a
                                  owner := { owned := a.pages, need := a.pages, tokens := a.tokens, maxPages := a.pages, cct := b } }

/-- Status of opening the set on planes `qs`: the entry usable, its pages within a stack, the range within its pages,
and pages and tokens enough on every plane (R310, R337, R338). -/
def Dev.openSetStatus (d : Dev) (p : Port) (r id : Nat) (b : List Byte) (off n : Nat) (qs : List Plane) : Nat :=
  let a : Amount := ⟨C.pages.of b, C.tokens.of b, 0⟩
  let kinds := qs.map fun q => a.short ((d.holdOf p r q).add (d.pool q))
  firstBad ([cctStatus id 0 b, need (decide (1 ≤ a.pages ∧ a.pages ≤ 262144)), rangeStatus a.pages off n]
    ++ [if kinds.contains 0x15 then 0x15 else 0] ++ kinds)

/-- The planes of a HAMPER_WRITE that take its bytes: the named planes in service (R298, R568). -/
def Dev.writePlanes (d : Dev) (b : List Byte) : List Plane := (maskPlanes (D.planes.of b)).filter fun q => d.inService q

/-- The bytes of a HAMPER_WRITE written into its set on every plane that takes them; a set that opens is filled with
zeros first (R337, R338). -/
def hamperStore (b : List Byte) (data : List Byte) (open' qs : List Plane) (m : Mems) (pages : Nat) : Mems :=
  let base := D.owner.of b * 2 ^ 36
  let bytes := data.take (D.hLength.of b)
  let clear (m : Mems) (q : Plane) : Mems := { m with hamper := m.hamper.modPl q (Memory.clear base (pages * 8192)) }
  let put (m : Mems) (q : Plane) : Mems :=
    { m with hamper := m.hamper.modPl q fun x => Memory.writeN 0#8 x (base + D.hOffset.of b) bytes }
  qs.foldl put (open'.foldl clear m)

/-- A HAMPER_WRITE with its host bytes at hand (R337, R338): a set that is not open on a plane opens there, all or
nothing; then the bytes are stored. -/
def hamperWrite (p : Port) (r : Nat) (data : List Byte) (it : Item) (m : Mems) (d : Dev) : Mems × Dev :=
  let b := it.head
  let id := D.owner.of b
  let (off, n) := (D.hOffset.of b, D.hLength.of b)
  let qs := d.writePlanes b
  let (opened, new) := (qs.filter fun q => d.isOpen q id, qs.filter fun q => !d.isOpen q id)
  let within := firstBad (opened.map fun q => rangeStatus (d.owner q id).owned off n)
  let write (d : Dev) (pages : Nat) : Mems × Dev :=
    (hamperStore b data new qs m pages, (d.touched p r it.idx qs).modItem p r it.idx fun x => { x with cur := 1 })
  if it.cur ≠ 0 then (m, d)
  else if qs.isEmpty then (m, d.finish p r it.idx 0x1A)
  else if within ≠ 0 then (m, d.finish p r it.idx within)
  else if new.isEmpty then write d 0
  else
    match (it.cctOf id).orElse fun _ => d.cached id with
    | none => (m, (d.modItem p r it.idx fun x => { x with phase := .waiting, need := [id] }).askCct p)
    | some e =>
      let s := d.openSetStatus p r id e off n new
      if s ≠ 0 then (m, d.finish p r it.idx s)
      else write (new.foldl (fun d q => d.openSet p r q id e) (d.cacheCtl id e)) (C.pages.of e)

/-- HAMPER_WRITE (R338). -/
def execHamperWrite (t : Nat) (port : Port) (ring : Nat) (data : List Byte) (s : State) :
    Host.Outcome State Fault Refusal :=
  onMem (ringOk ring) t s fun m d =>
    match d.landDue.acting port ring 0x31 with
    | (some it, d) => hamperWrite port ring data it m d
    | (none, d) => (m, d)

/-! ### HAMPER_READ (R340) -/

/-- Bytes of an owner's pages that the model's stack memory holds: a set's, and the video pages of the input frame
buffers (R318, R331; log 18). -/
def Dev.storedAt (d : Dev) (p : Plane) (id a : Nat) : Bool :=
  let o := d.owner p id
  isSet id || (decide (a / 134217728 < o.depth) && baseOf o.profile != pxAsrc
    && decide (a % 134217728 < 8192 * fmtG o.fmtIn * videoPages o.fmtIn))

/-- `n` stored bytes of an owner from an offset; what reserved, side and work pages hold is free (R340). -/
def Dev.hamperBytes (d : Dev) (mem : Memory) (p : Plane) (id off n : Nat) : List Byte × Dev :=
  let bs := (span off n).map fun a =>
    if d.storedAt p id a then Memory.read 0#8 mem (id * 2 ^ 36 + a) else BitVec.ofNat 8 (Config.free (d.free + (a - off)))
  (bs, { d with free := d.free + n })

/-- A HAMPER_READ returns the stored bytes to host memory. -/
def Dev.hamperRead (d : Dev) (m : Mems) (p : Port) (r : Nat) (it : Item) : Dev :=
  let b := it.head
  match d.writePlanes b with
  | [] => d.finish p r it.idx 0x1A
  | q :: _ =>
    if it.cur ≠ 0 then d
    else
      let (bs, d) := d.hamperBytes (m.hamper.pl q) q (D.owner.of b) (D.hOffset.of b) (D.hLength.of b)
      ((d.hostWrite p (D.host.of b) bs).touched p r it.idx [q]).modItem p r it.idx fun x => { x with cur := 1 }

/-- HAMPER_READ (R340). -/
def execHamperRead (t : Nat) (port : Port) (ring : Nat) (s : State) : Host.Outcome State Fault Refusal :=
  onMem (ringOk ring) t s fun m d => (m, d.act port ring 0x32 fun d it => d.hamperRead m port ring it)

/-! ### The end of a transfer (R341, R569) -/

/-- The engines of the colour channels whose LUT lies in a set reload it at their next pacing instant (R369). -/
def Dev.reloadLut (d : Dev) (q : Plane) (set : Nat) : Dev :=
  d.modPlane q fun x => { x with owners := x.owners.map fun (y : Nat × Owner) =>
    (y.1, if isConv y.1 && y.2.isOpen && colourOf y.2.profile && C.lutSet.of y.2.cct == set then { y.2 with lutDue := true } else y.2) }

/-- A transfer of an acting HAMPER item has ended; a write with restored = 1 ends its set's staleness, and a write's set is
loaded anew where it holds a LUT (R369, R569). -/
def Dev.transferEnd (d : Dev) (p : Port) (r : Nat) (ok : Bool) (it : Item) : Dev :=
  let b := it.head
  let d := d.when (it.cur != 0 && descOp b == 0x31) fun d => d.each (d.writePlanes b) fun d q => d.reloadLut q (D.owner.of b)
  if it.cur = 0 then d
  else if !ok then d.finish p r it.idx stHostErr
  else
    let d := d.when (descOp b == 0x31 && D.restored.on b) fun d =>
      d.each (d.writePlanes b) fun d q => d.modOwner q (D.owner.of b) fun o => { o with stale := false }
    d.finish p r it.idx 0

/-- HAMPER_TRANSFER_DONE (R341). -/
def execHamperTransferDone (t : Nat) (port : Port) (ring : Nat) (ok : Bool) (s : State) :
    Host.Outcome State Fault Refusal :=
  onDev (ringOk ring) t s fun d =>
    let d := d.landDue
    match (d.ring port ring).items.find? fun it => it.phase == .acting && (descOp it.head == 0x31 || descOp it.head == 0x32) with
    | some it => d.transferEnd port ring ok it
    | none => d

/-! ### TAKEOVER (R306, R307) -/

/-- Completions of a ring that wait for space are not posted on any port: its consumer index moves past their items
(R306, R307). -/
def Dev.unhold (d : Dev) (q : Port) (k : Nat) : Dev :=
  d.each (List.range 16) fun d c =>
    let h := (d.rr q (.cpr c)).held
    let d := (h.filter fun x => x.svr == k).foldl (fun d x => d.setCi q k x.newCi)
      (d.modRec q (.cpr c) fun x => { x with held := h.filter fun x => x.svr != k })
    if h.isEmpty then d else d.flushHeld q c (d.rr q (.cpr c)).held

/-- One ring of port `q` taken over by ring r of port p: its unlatched items are withdrawn, begun items that need the
host end, its enable bit clears, and its holdings move. -/
def Dev.takeRing (d : Dev) (p : Port) (r : Nat) (q : Port) (k : Nat) : Dev :=
  let d := (((d.withdrawUnlatched q k).abandon q k).unhold q k).put F.HIF_SVR_CFG_enable false (svrI q k)
  let d := (d.setBit F.HIF_TAKEN_taken k true q.id).put F.HIF_SVR_STATUS_draining true (svrI q k)
  let h := (d.ring q k).hold
  let d := d.modRing q k fun x => { x with key := none, hold := ⟨{}, {}⟩ }
  let d := (d.modHold p r .a (·.add h.a)).modHold p r .b (·.add h.b)
  d.refreshDrain q k

/-- A TAKEOVER acts on the enabled rings it names (R306, R307). -/
def Dev.takeOver (d : Dev) (p : Port) (r : Nat) (it : Item) : Dev :=
  let q := p.other
  let mask := D.svrMask.of it.head
  let rings := (List.range 16).filter fun k => bitOf mask k && d.svrOn q k
  if it.cur ≠ 0 then d.takeoverDone p r it
  else if rings.isEmpty then d.finish p r it.idx 0
  else
    let d := ((d.masterReset (6 + q.id)).each rings fun d k => d.takeRing p r q k).occur (evPort q) 0x62 mask
    let d := (d.modItem p r it.idx fun x => { x with cur := 1 }).deliverAll
    d.takeoverDone p r { it with cur := 1 }

/-- TAKEOVER (R306). -/
def execTakeover (t : Nat) (port : Port) (ring : Nat) (s : State) : Host.Outcome State Fault Refusal :=
  onDev (ringOk ring) t s fun d => d.act port ring 0x60 fun d it => d.takeOver port ring it

end Sys2Proof.Machine
end

