-- ==== Sys2Proof/Machine/Matrix.lean ====
section
/-! DEFINITION. The Control Matrix and the Rambler cores (chapter 14): requests, segments, master reset, remap, watchdogs. -/

namespace Sys2Proof.Machine

/-! ### Masters and targets (Tables 14-1, 14-2) -/

/-- Bytes of a beat of a master (Table 14-1). -/
def beatBytes (master : Nat) : Nat := if master < 6 then 8 else if master < 8 then 32 else 16

/-- A master's connection to a target with an access (Table 14-2). -/
def reaches (master target : Nat) (write : Bool) : Bool :=
  if master < 4 then decide (1 ≤ target ∧ target < 8 ∧ target ≠ 5) || (!write && (target == 0 || target == 5))
  else if master < 6 then target == 2
  else if master < 8 then target == 3 || target == 5 || target == 6 || target == 7 || target == master + 2
  else if master < 10 then write && target == master
  else target == 3 || target == 4 || target == 8 || target == 9

/-- Target, first address and size of each local range (Table 14-1); address 0 is the ROM until the remap (R469). -/
def Dev.ranges (d : Dev) : List (Nat × Nat × Nat) :=
  [if d.flag F.CMX_CTRL_remap then (1, 0, 0x200000) else (0, 0, 0x40000), (0, 0x20000000, 0x40000), (1, 0x21000000, 0x200000),
    (2, 0x40000000, 0x4000000), (3, 0x48000000, 0x400000), (4, 0x4C000000, 0x10000), (5, 0x4D000000, 0x8000),
    (6, 0x50000000, 0x2000000), (7, 0x52000000, 0x2000000)]

/-- Target, offset in it and size of it for an address in a space (R454); none: no target lies there. -/
def Dev.cmxDecode (d : Dev) (space addr : Nat) : Option (Nat × Nat × Nat) :=
  if space = 1 then some (8, addr, 2 ^ 64)
  else if space = 2 then some (9, addr, 2 ^ 64)
  else (d.ranges.find? fun x => decide (x.2.1 ≤ addr ∧ addr < x.2.1 + x.2.2)).map fun x => (x.1, addr - x.2.1, x.2.2)

/-- A span of a target (R455). -/
def spanOf (target : Nat) : Nat :=
  match target with
  | 0 | 1 | 4 => 1024
  | 2 | 3 | 5 => 256
  | 6 | 7 => 8192
  | _ => 4096

/-! ### Requests (R453-R455, R459) -/

/-- A master may issue a request with a tag (R459, R467): a Rambler only while it runs. -/
def Dev.mayIssue (d : Dev) (master tag : Nat) : Bool :=
  let own := d.txnsOf master
  let state := d.rd F.CMX_RMB_STATUS_state master
  !d.start.resetLow && !d.bitAt F.CMX_MRST_releasing master && decide (own.length < 16) && !own.any (fun x => x.tag == tag)
    && (decide (4 ≤ master) || state == 1 || state == 2)

/-- CMX_REQUEST (R453-R455, R459). -/
def Dev.cmxIssue (d : Dev) (x : Txn) (after : Option Nat) : Dev :=
  if !d.mayIssue x.master x.tag then d
  else
    let wait := after.filter fun a => (d.txnsOf x.master).any fun y => y.tag == a
    let n := x.beats * beatBytes x.master
    let default : Txn := { x with target := 15, after := wait }
    match d.cmxDecode x.space x.addr with
    | none => d.modTxns fun l => l ++ [default]
    | some (t, off, size) =>
      if !reaches x.master t x.write then d.modTxns fun l => l ++ [default]
      else if size < off + n then (d.bump F.CMX_ERR_leave).modTxns fun l => l ++ [default]
      else d.modTxns fun l => l ++ [{ x with target := t, addr := off, after := wait }]

/-- CMX_REQUEST (R453). -/
def execCmxRequest (t master tag : Nat) (write : Bool) (space addr beats : Nat) (after : Option Nat) (data : List Byte)
    (strobes : List Bool) (s : State) : Host.Outcome State Fault Refusal :=
  onDev (masterOk master && tagOk tag && spaceOk space && beatsOk beats) t s fun d =>
    d.cmxIssue { master := master, tag := tag, write := write, space := space, addr := addr % 2 ^ 64, beats := beats, data := data
                 strobes := strobes } after

/-! ### What the targets do with a segment (R455, R456, R461-R464, R476) -/

/-- The pieces of `n` bytes from an address, cut at each span boundary (R455). -/
def pieces (span addr n : Nat) : List (Nat × Nat) :=
  ((List.range (n / span + 2)).map fun k =>
    let a := Nat.max addr ((addr / span + k) * span)
    (a, Nat.min (addr + n) ((addr / span + k + 1) * span) - a)).filter fun x => x.2 != 0

/-- Contiguous runs of written bytes. -/
def runs : List (Nat × Byte) → List (Nat × List Byte)
  | [] => []
  | (a, b) :: rest =>
    match runs rest with
    | (c, bs) :: more => if c = a + 1 then (a, b :: bs) :: more else (a, [b]) :: (c, bs) :: more
    | [] => [(a, [b])]

/-- The worse of two statuses, 0 OK, 1 FAULT, 2 MISS (R455). -/
def worse (x y : Nat) : Nat := Nat.max x y

/-- The port whose inbound master this is. -/
def inboundPort (master : Nat) : Option Port := if master = 4 then some .a else if master = 5 then some .b else none

/-- Address, as `Mems.hamper` numbers bytes, of a byte of a Hamper control window (log 20). -/
def Dev.windowAt (d : Dev) (p : Plane) (a : Nat) : Nat := Config.window p.id d.now (a / 8192) * 8192 + a % 8192

/-- `n` free bytes. -/
def Dev.drawBytes (d : Dev) (n : Nat) : List Byte × Dev :=
  ((List.range n).map fun i => BitVec.ofNat 8 (Config.free (d.free + i)), { d with free := d.free + n })

/-- A read of the register target: whole words (R456). -/
def Dev.regRead (d : Dev) (addr n : Nat) : Nat × List Byte :=
  let words := span (addr / 4) (ceilDiv (addr % 4 + n) 4)
  let rs := words.map fun w => d.barRead (4 * w)
  (rs.foldl (fun s r => worse s (if r.1 = 0 then 0 else 2)) 0, ((rs.flatMap fun r => wordBytes r.2).drop (addr % 4)).take n)

/-- A read of the Larder: a piece that touches the page under write is refused (R476). -/
def Dev.larderPieces (d : Dev) (m : Memory) : List (Nat × Nat) → (Nat × List Byte) × Dev
  | [] => ((0, []), d)
  | (a, n) :: rest =>
    if d.ldrBusy a n then
      let (bs, d) := (d.bump F.LDR_CNT_busy_reads).drawBytes n
      let ((s, more), d) := Dev.larderPieces d m rest
      ((worse 1 s, bs ++ more), d)
    else
      let (bs, d) := d.ldrRead m a n
      let ((s, more), d) := Dev.larderPieces d m rest
      ((s, bs ++ more), d)

/-- The image that start-up has copied into the low part of the working SRAM: the ROM's, with the patches applied; 0
before start-up has copied it, and above it (R470). -/
def Dev.imageByte (d : Dev) (a : Nat) : Byte :=
  if !d.start.booted || d.start.bootDue || decide (0x40000 ≤ a) then 0#8
  else if d.cmx.patches.isEmpty then Config.rom a
  else Config.patchedRom d.cmx.patches a

/-- A byte of the working SRAM. -/
def Dev.sramByte (d : Dev) (m : Memory) (a : Nat) : Byte := Memory.read 0#8 m a ^^^ d.imageByte a

/-- The working SRAM with a byte written. -/
def Dev.sramWrite (d : Dev) (m : Memory) (a : Nat) (b : Byte) : Memory := Memory.write 0#8 m a (b ^^^ d.imageByte a)

/-- A read of the control-side Coolbox: the entry that the line holds, where it is cached (log 20). -/
def Dev.coolRead (d : Dev) (addr n : Nat) : List Byte × Dev :=
  let (fill, d) := d.drawBytes n
  (((span addr n).zip fill).map fun x =>
    match d.cached (Config.coolLine d.now (x.1 / 256)) with
    | some b => b.getD (x.1 % 256) 0#8
    | none => x.2, d)

/-- A read segment: status and data. -/
def Dev.segRead (d : Dev) (m : Mems) (x : Txn) (n : Nat) : (Nat × List Byte) × Dev :=
  match x.target with
  | 0 => ((0, (span x.addr n).map Config.rom), d)
  | 1 => ((0, (span x.addr n).map (d.sramByte m.sram)), d)
  | 2 => (d.regRead x.addr n, d)
  | 3 => d.larderPieces m.larder (pieces 256 x.addr n)
  | 4 => let r := d.drawBytes n; ((0, r.1), r.2)
  | 5 => let r := d.coolRead x.addr n; ((0, r.1), r.2)
  | 6 => ((0, (span x.addr n).map fun a => Memory.read 0#8 m.hamper.a (d.windowAt .a a)), d)
  | 7 => ((0, (span x.addr n).map fun a => Memory.read 0#8 m.hamper.b (d.windowAt .b a)), d)
  | 8 | 9 =>
    let p := Port.ofId (x.target - 8)
    if d.lost p then ((1, zeros n), d)
    else
      let r := ((pieces (spanOf x.target) x.addr n).foldl (fun d y => d.emit (.hostRead p y.1 y.2)) d).drawBytes n
      ((0, r.1), r.2)
  | _ => ((2, zeros n), d)

/-- One word of a write to the register target (R456): `bs` are its strobed bytes. -/
def regWord (via : Option Port) (w : Nat) (bs : List (Nat × Byte)) (x : Nat × Mems × Dev) : Nat × Mems × Dev :=
  if bs.isEmpty then x
  else if bs.length < 4 then (worse 1 x.1, x.2.1, x.2.2.bump F.CMX_ERR_partial)
  else
    let r := barWrite via (4 * w) (BitVec.ofNat 32 (ofLe (bs.map (·.2)))) x.2.1 x.2.2
    (if r.1 then x.1 else worse 2 x.1, r.2)

/-- The class of writer that a master of the Larder belongs to (R475). -/
def larderClass (master : Nat) : Nat := if master < 4 then 1 else if master = 10 then 2 else 0

/-- A write into the control-side Coolbox: the entry that the line holds, where it is cached (log 20). -/
def Dev.coolWrite (d : Dev) (a : Nat) (b : Byte) : Dev :=
  let id := Config.coolLine d.now (a / 256)
  match d.cached id with
  | some e => { d with cctData := Tbl.set [] d.cctData id (e.set (a % 256) b) }
  | none => d

/-- A write segment: the strobed bytes `bs` of its beats; its status. -/
def segWrite (x : Txn) (n : Nat) (bs : List (Nat × Byte)) (m : Mems) (d : Dev) : Nat × Mems × Dev :=
  match x.target with
  | 1 => (0, { m with sram := bs.foldl (fun s y => d.sramWrite s y.1 y.2) m.sram }, d)
  | 2 =>
    (span (x.addr / 4) (ceilDiv (x.addr % 4 + n) 4)).foldl (fun r w =>
      regWord (inboundPort x.master) w (bs.filter fun y => y.1 / 4 == w) r) (0, m, d)
  | 3 =>
    (0, m, (runs bs).foldl (fun d y =>
      d.larderAdd m.larder { cls := larderClass x.master, what := 7, addr := y.1, data := y.2 }) d)
  | 5 => (0, m, bs.foldl (fun d y => d.coolWrite y.1 y.2) d)
  | 6 => (0, { m with hamper := m.hamper.modPl .a fun h => bs.foldl (fun h y => Memory.write 0#8 h (d.windowAt .a y.1) y.2) h }, d)
  | 7 => (0, { m with hamper := m.hamper.modPl .b fun h => bs.foldl (fun h y => Memory.write 0#8 h (d.windowAt .b y.1) y.2) h }, d)
  | 8 | 9 =>
    let p := Port.ofId (x.target - 8)
    if d.lost p then (1, m, d) else (0, m, (runs bs).foldl (fun d y => d.hostWrite p y.1 y.2) d)
  | 15 => (2, m, d)
  | _ => (0, m, d)

/-! ### Arbitration and responses (R457, R459, R461-R463) -/

/-- The transaction whose segment a target serves next: round-robin over the masters that wait, in ascending number after
the master just served; a master's own in the order of issue. -/
def Dev.cmxNext (d : Dev) (target : Nat) : Option Txn :=
  let ready := d.cmx.txns.filter fun x => x.target == target && x.after.isNone
  let last := Tbl.get 0 d.cmx.last target
  ((List.range 11).map fun k => (last + k) % 11).findSome? fun m => ready.find? fun x => x.master == m

/-- The strobed bytes of the first `n` bytes of a write. -/
def Txn.strobed (x : Txn) (n : Nat) : List (Nat × Byte) :=
  (List.range n).filterMap fun i => if x.strobes.getD i false then some (x.addr + i, x.data.getD i 0#8) else none

/-- The status code of a segment response (R461): 0 OK, 1 MISS, 2 FAULT. -/
def respCode (s : Nat) : Nat := if s = 0 then 0 else if s = 1 then 2 else 1

/-- The BAR0 or CMX address that the capture of R462 holds. -/
def Txn.missAddr (x : Txn) : Nat := if x.target = 2 then 0x40000000 + x.addr else x.addr

/-- A segment has been served: its response, its count as a miss, and the end of its transaction, which lets the one
chained to it go on and completes an inbound host read (R459, R461-R463). -/
def Dev.segDone (d : Dev) (x : Txn) (n status : Nat) (data : List Byte) : Dev :=
  let beats := Nat.min 16 x.beats
  let d := if x.dead then d else d.emit (.cmxResp x.master x.tag x.seg (respCode status) data)
  let miss := status == 2 && !x.counted
  let d := if miss then d.cmxMiss x.master x.tag x.write x.space x.missAddr else d
  let worst := worse x.worst status
  let mine (y : Txn) : Bool := y.master == x.master && y.tag == x.tag
  if beats < x.beats then
    d.modTxns (modFirst (fun y => y == x) fun y =>
      { y with beats := x.beats - beats, addr := x.addr + n, seg := x.seg + 1, data := x.data.drop n, strobes := x.strobes.drop n
               counted := x.counted || miss, worst := worst })
  else
    let d := d.modTxns fun l => (l.filter fun y => !mine y).map fun y =>
      if y.master == x.master && y.after == some x.tag then { y with after := none } else y
    match inboundPort x.master with
    | some p =>
      if x.write || x.dead then d else d.emit (.hostCompletion p x.tag (if worst = 0 then 0 else if worst = 1 then 4 else 1))
    | none => d

/-- A target serves one segment of 16 beats, or what is left (R457). -/
def serveSegment (target : Nat) (m : Mems) (d : Dev) : Mems × Dev :=
  match d.cmxNext target with
  | none => (m, d)
  | some x =>
    let d := { d with cmx := { d.cmx with last := Tbl.set 0 d.cmx.last target ((x.master + 1) % 11) } }
    let n := Nat.min 16 x.beats * beatBytes x.master
    if x.write then
      let (s, m, d) := segWrite x n (x.strobed n) m d
      (m, d.segDone x n s [])
    else
      let ((s, data), d) := d.segRead m x n
      (m, d.segDone x n s data)

/-- CMX_SEGMENT (R457, R461, R462). -/
def execCmxSegment (t target : Nat) (s : State) : Host.Outcome State Fault Refusal :=
  onMem (targetOk target) t s fun m d => serveSegment target m d

/-! ### Master reset (R467, R468) -/

/-- CMX_MASTER_RESET (R467). -/
def execCmxMasterReset (t master : Nat) (s : State) : Host.Outcome State Fault Refusal :=
  onDev (masterOk master) t s fun d => d.masterReset master

/-- CMX_MASTER_RELEASED (R467): once the last transaction of the reset master has ended. -/
def execCmxMasterReleased (t master : Nat) (s : State) : Host.Outcome State Fault Refusal :=
  onDev (masterOk master) t s fun d => if (d.txnsOf master).isEmpty then d.setBit F.CMX_MRST_releasing master false else d

/-! ### Rambler cores (R469, R472) -/

/-- CMX_REMAP (R469): a write of 1 to CMX_CTRL.remap. -/
def execCmxRemap (t : Nat) (s : State) : Host.Outcome State Fault Refusal :=
  onDev true t s fun d => if d.start.resetLow then d else d.raise F.CMX_CTRL_remap

/-- The core to which the tasks of a held core pass: the next that is not held, or none (R472). -/
def Dev.nextCore (d : Dev) (c : Nat) : Option Nat :=
  [(c + 1) % 4, (c + 2) % 4, (c + 3) % 4].find? fun k => d.rd F.CMX_RMB_STATUS_state k != 3

/-- A core is held in reset, and its tasks pass on. -/
def Dev.holdCore (d : Dev) (c : Nat) : Dev :=
  let d := d.wr F.CMX_RMB_STATUS_state 3 c
  match d.nextCore c with
  | some k => { d with cmx := { d.cmx with tasks := d.cmx.tasks.map fun x => if x = c then k else x } }
  | none => d

/-- The lane alignment searches of firmware begin anew after their core's restart, from 0 slips (Table 14-4). -/
def Dev.restartSearches (d : Dev) (c : Nat) : Dev :=
  if d.cmx.tasks.getD 1 1 ≠ c then d
  else d.each (List.range 384) fun d n =>
    d.when (d.searching n && !d.flag F.LN_CTRL_host_align n) fun d => d.wr F.LN_STATUS_slips 0 n

/-- RAMBLER_WATCHDOG (R472): of a core that runs; the third expiry within one hour holds it in reset. -/
def execRamblerWatchdog (t c : Nat) (s : State) : Host.Outcome State Fault Refusal :=
  onDev (coreOk c) t s fun d =>
    let state := d.rd F.CMX_RMB_STATUS_state c
    if state = 0 ∨ state = 3 then d
    else
      let recent := d.now :: (Tbl.get [] d.cmx.wdog c).filter fun a => decide (d.now < a + 3600 * secU)
      let d := { d with cmx := { d.cmx with wdog := Tbl.set [] d.cmx.wdog c recent, restart := Tbl.set none d.cmx.restart c (some d.now) } }
      let d := d.restartSearches c
      let d := ((d.masterReset c).bump F.CMX_RMB_STATUS_watchdogs c).occur (evRmb c) 0x7E
      if 3 ≤ recent.length then d.holdCore c else d

end Sys2Proof.Machine
end

