-- ==== Sys2Proof/Machine/Pins.lean ====
section
/-! DEFINITION. The SMBus target (R548, Table 18-4) and the TAP (R550). -/

namespace Sys2Proof.Machine

/-! ### SMBus -/

/-- The 7-bit address of the SMBus target. -/
abbrev smbAddr : Nat := 0x5A

/-- The value of a command code (Table 18-4); none for the others. -/
def Dev.smbValue (d : Dev) (code : Nat) : Option Word :=
  match code with
  | 0x00 => some 0x4F4C1152#32
  | 0x01 => some (d.readReg .GLB_START 0)
  | 0x02 => some (d.readReg .GLB_READY 0)
  | 0x03 => some (d.readReg .GLB_SUPPLY 0)
  | 0x04 => some (d.readReg .GLB_THERM 0)
  | 0x05 => some (d.readReg .GLB_THERM_CNT 0)
  | 0x06 => some (d.readReg .CLK_STATUS 0)
  | 0x07 => some (d.readReg .PL_STATUS 0)
  | 0x08 => some (d.readReg .PL_STATUS 1)
  | 0x09 => some (d.readReg .SEL_STATUS 0)
  | _ => none

/-- The bytes of a Block Read: the count 4, the value, and the PEC where the master clocks one further byte. The PEC runs
over both address bytes, the command code, the count and the value (SMBus 2.0). -/
def smbBlock (code : Nat) (w : Word) (pec : Bool) : List Byte :=
  let bs := le 1 4 ++ wordBytes w
  bs ++ if pec then le 1 (crc8 (le 1 (2 * smbAddr) ++ le 1 code ++ le 1 (2 * smbAddr + 1) ++ bs)) else []

/-- SMBUS_BLOCK_READ (R548): answered from t0, whether or not RESET_N is asserted. -/
def execSmbusBlockRead (t code : Nat) (pec : Bool) (s : State) : Host.Outcome State Fault Refusal :=
  onDev true t s fun d =>
    match d.smbValue code with
    | some w =>
      if d.start.supplied then
        { d.emit (.smbus (smbBlock code w pec)) with start := { d.start with smbBytes := smbBlock code w pec } }
      else d
    | none => d

/-- SMBUS_TIMEOUT (R548): the bus interface is reset. -/
def execSmbusTimeout (t : Nat) (s : State) : Host.Outcome State Fault Refusal :=
  onDev true t s fun d => { d with start := { d.start with smbBytes := [] } }

/-! ### JTAG -/

/-- With a TAP instruction in force: 0 EXTEST, 1 IDCODE, 2 SAMPLE/PRELOAD, 3 BYPASS. -/
def Dev.setTap (d : Dev) (n : Nat) : Dev := { d with start := { d.start with tap := n } }

/-- The 32 bits of the IDCODE register, least significant first. -/
def idcodeBits : List Bool := (List.range 32).map fun k => bitOf 0x111520F3 k

/-- BYPASS (R550). -/
def execBypass (t : Nat) (s : State) : Host.Outcome State Fault Refusal :=
  onDev true t s fun d => d.setTap 3

/-- IDCODE (R550). -/
def execIdcode (t : Nat) (s : State) : Host.Outcome State Fault Refusal :=
  onDev true t s fun d => (d.setTap 1).emit (.jtag idcodeBits)

/-- SAMPLE_PRELOAD (R550): the boundary register captures the balls and is shifted through. -/
def execSamplePreload (t : Nat) (pins load : List Bool) (s : State) : Host.Outcome State Fault Refusal :=
  onDev true t s fun d =>
    let d := (d.setTap 2).emit (.jtag ((pins ++ load).take load.length))
    { d with start := { d.start with boundary := (pins ++ load).drop load.length } }

/-- EXTEST (R550): the covered balls are driven from the boundary register. -/
def execExtest (t : Nat) (s : State) : Host.Outcome State Fault Refusal :=
  onDev true t s fun d => (d.setTap 0).emit (.pins d.start.boundary)

end Sys2Proof.Machine
end

