-- ==== Sys2Proof/Machine/Thermal.lean ====
section
/-! DEFINITION. Heat (R377, R531-R533, R537, Table 17-5). -/

namespace Sys2Proof.Machine

/-- With the thermal monitor changed. -/
def Dev.modTherm (d : Dev) (f : Therm → Therm) : Dev := { d with start := { d.start with therm := f d.start.therm } }

/-- Since when a condition on Tj has held. -/
def sinceWhen (holds : Bool) (was : Option Nat) (now : Nat) : Option Nat := if holds then some (was.getD now) else none

/-- Profiles stepped down, or back, on both planes (R377). -/
def Dev.stepPlanes (d : Dev) (b : Bool) : Dev := (d.put F.GE_STATUS_stepped b 0).put F.GE_STATUS_stepped b 1

/-- The time that Tj has spent above 100 C since the last reading counts towards the Counters record (R486, R535). -/
def Dev.countHot (d : Dev) : Dev :=
  let dt := d.now - d.start.therm.at'
  let hot := d.ldr.hot + if 100 < d.rd F.GLB_THERM_tj then dt else 0
  let d := { d with ldr := { d.ldr with hot := hot % (3600 * secU) } }
  if 3600 * secU ≤ hot then d.countUp 5 (hot / (3600 * secU)) else d

/-- ALERT_N is driven low at 100 C. -/
def Dev.alertOn (d : Dev) (tj : Nat) : Dev :=
  (((d.modTherm fun x => { x with alert := true }).bump F.GLB_THERM_CNT_alerts).emit (.alert true)).occur evTherm 0x70 tj

/-- Profiles are stepped down at 110 C. -/
def Dev.stepOn (d : Dev) (tj : Nat) : Dev :=
  (((d.modTherm fun x => { x with step := true }).bump F.GLB_THERM_CNT_steps).stepPlanes true).occur evTherm 0x71 tj

/-- The safe state is triggered at 120 C (R446, trigger 4). -/
def Dev.thermSafe (d : Dev) (tj : Nat) : Dev :=
  if d.start.therm.safe then d
  else
    let d := (d.modTherm fun x => { x with safe := true, below105 := none }).bump F.GLB_THERM_CNT_steps
    (d.occur evTherm 0x73 tj).safeEnter 4

/-- GLB_THERM.step. -/
def Therm.code (x : Therm) : Nat := if x.safe then 3 else if x.step then 2 else if x.alert then 1 else 0

/-- One reading of the sensors: the actions that Tj reaches, and GLB_THERM whole (R531, R532, R537). -/
def Dev.thermRead (d : Dev) (tj : Nat) : Dev :=
  let d := d.countHot
  let d := d.modTherm fun x =>
    { x with below95 := sinceWhen (decide (tj < 95)) x.below95 d.now, below105 := sinceWhen (decide (tj < 105)) x.below105 d.now
             at' := d.now }
  let d := d.when (decide (100 ≤ tj) && !d.start.therm.alert) fun d => d.alertOn tj
  let d := d.when (decide (110 ≤ tj) && !d.start.therm.step) fun d => d.stepOn tj
  let d := d.when (decide (120 ≤ tj)) fun d => d.thermSafe tj
  let v := Nat.min 255 tj
  ((d.wr F.GLB_THERM_tj v).wr F.GLB_THERM_tj_max (Nat.max v (d.rd F.GLB_THERM_tj_max))).wr F.GLB_THERM_step d.start.therm.code

/-- THERMAL_SAMPLE (R531): from start-up on. -/
def execThermalSample (t tj : Nat) (s : State) : Host.Outcome State Fault Refusal :=
  onDev true t s fun d => if d.start.booted then d.thermRead tj else d

/-- THERMAL_TRIP_120 (R531, R532): the comparator's trip; the event holds the last reading of Tj. -/
def execThermalTrip120 (t : Nat) (s : State) : Host.Outcome State Fault Refusal :=
  onDev true t s fun d => if d.start.booted then d.thermSafe (d.rd F.GLB_THERM_tj) else d

/-- An instant lies at least `n` back. -/
def heldFor (since : Option Nat) (n now : Nat) : Bool := since.any fun a => decide (a + n ≤ now)

/-- THERMAL_STEP_LEAVE (R532, R533): ALERT_N after 1 s below 95 C; the step and trigger 4 after 10 s below 105 C. -/
def execThermalStepLeave (t : Nat) (s : State) : Host.Outcome State Fault Refusal :=
  onDev true t s fun d =>
    let x := d.start.therm
    let d := d.when (x.alert && heldFor x.below95 secU d.now) fun d =>
      (d.modTherm fun y => { y with alert := false }).emit (.alert false)
    if !heldFor x.below105 (10 * secU) d.now then d
    else
      let d := d.when x.step fun d =>
        ((d.modTherm fun y => { y with step := false }).stepPlanes false).occur evTherm 0x72 (d.rd F.GLB_THERM_tj)
      (d.modTherm fun y => { y with safe := false }).clearTriggers [4]

end Sys2Proof.Machine
end

