-- ==== Sys2Proof/Machine/TimeItems.lean ====
section
/-! DEFINITION. TIME_SET and TIME_ADJ as items (Table 7-12, R58-R60, R91, R94). -/

namespace Sys2Proof.Machine

/-- TIME_SET (R91, R94): the time of Table 7-12 is given to the epoch counters. -/
def execTimeSet (t : Nat) (port : Port) (ring : Nat) (s : State) : Host.Outcome State Fault Refusal :=
  onDev (ringOk ring) t s fun d => d.act port ring 0x30 fun d it =>
    if D.subop.of it.head ≠ 0 then d
    else (d.timeSet (D.sec.of it.head * secU + D.ns.of it.head * nsU + D.frac.of it.head)).finish port ring it.idx 0

/-- TIME_ADJ (R58-R60): a REFV sample. -/
def execTimeAdj (t : Nat) (port : Port) (ring : Nat) (s : State) : Host.Outcome State Fault Refusal :=
  onDev (ringOk ring) t s fun d => d.act port ring 0x30 fun d it =>
    if D.subop.of it.head ≠ 1 then d
    else (d.timeAdj (D.sec.of it.head) (toInt 32 (D.offNs.of it.head) * (nsU : Int) + (D.frac.of it.head : Int))).finish port ring it.idx 0

end Sys2Proof.Machine
end

