-- ==== Sys2Proof/Machine/Weathervane.lean ====
section
/-! DEFINITION. The Weathervane (R96, R282, Tables 7-20, 7-21, 9-9, 10-10, 10-11, 12-10). -/

namespace Sys2Proof.Machine

/-! ### Entries -/

/-- A section: entries of `size` bytes, the rest of each 0. -/
def wvSection (n size : Nat) (entry : Nat → List Byte) : List Byte := (List.range n).flatMap fun i => fit size (entry i)

/-- Header after gen_begin (Table 7-20). -/
def Dev.wvHeader (d : Dev) (p : Port) : List Byte :=
  let period := Nat.min 100 (Nat.max 1 (d.rd F.HIF_WV_CFG_period p.id))
  le 4 1 ++ le 6 (d.epoch / secU) ++ zeros 2 ++ le 4 (d.epoch % secU / nsU) ++ le 2 (10 * period)

/-- Timebase entry (Table 7-21): what realignment has still to slew lies within half a period of the selected input (R83). -/
def Dev.wvTimebase (d : Dev) (p : Plane) : List Byte :=
  let b := (d.tb p).buildout
  let left := if !d.realigning then 0 else match d.refPeriod (d.rd F.TB_STATUS_sel) with
    | some m => wrapTo b m
    | none => b
  le 4 (d.tbState p + 8 * b2n (d.lead == p) + 16 * d.rd F.TB_STATUS_sel + 128 * d.rd F.TB_STATUS_fallback)
    ++ le 4 (ofInt 32 (b / nsU)) ++ le 4 (b % nsU).toNat ++ le 4 (ofInt 32 (left / nsU))

/-- Timing input entry (Table 7-21). -/
def Dev.wvInput (d : Dev) (x : Nat) : List Byte :=
  let r := d.ref x
  le 4 (r.qual + 4 * b2n (d.refLost x)) ++ le 4 (ofInt 32 r.avg) ++ le 4 (ofInt 32 r.slope) ++ le 4 r.outliers

/-- Lane pair entry (Table 7-21): the named registers as they stand. -/
def Dev.wvLane (d : Dev) (n : Nat) : List Byte :=
  let l := d.lane n
  ([RegName.LN_STATUS, .LN_CNT_CODE, .LN_CNT_HDR, .LN_CNT_PCL, .LN_BRZ_CNT, .LN_TWIN_CNT].flatMap fun r => wordBytes (d.readReg r n))
    ++ zeros 8 ++ fit 16 l.ident ++ fit 25 l.pstatLast ++ zeros 3 ++ fit 3 l.twinLast
    ++ le 1 (b2n (!l.ident.isEmpty) + 2 * b2n (!l.pstatLast.isEmpty) + 4 * b2n (!l.twinLast.isEmpty))

/-- Input slot entry (Table 7-21); those of a twin set's odd member hold 0. -/
def Dev.wvSlot (d : Dev) (i : Nat) : List Byte :=
  if d.twinned (i / 3) && i / 3 % 2 == 1 then []
  else ([RegName.LN_MON_MEAN, .LN_MON_MIN, .LN_MON_MAX, .LN_MON_STATE].flatMap fun r => wordBytes (d.readReg r i)) ++ le 1 (d.inp i).fmt

/-- Output entry (Table 7-21). -/
def Dev.wvOutput (d : Dev) (o : Nat) : List Byte :=
  let x := d.out o
  wordBytes x.pub ++ le 4 (Nat.min (2 ^ 32 - 1) x.fills) ++ le 2 x.abortsLast

/-- The id of the active or last cause of a source; 0: none. -/
def Dev.causeId (d : Dev) (src : Nat) : Nat := ((d.ev.causes.find? fun k => k.src == src).map (·.id)).getD 0

/-- Outputs of a class that satisfy a test. -/
def Dev.countOuts (d : Dev) (f : Out → Bool) : Nat := (d.outs.filter fun (x : Nat × Out) => x.2.raster.isSome && f x.2).length

/-- Plane entry (Table 12-10). -/
def Dev.wvPlane (d : Dev) (p : Plane) : List Byte :=
  ([RegName.PL_STATUS, .PL_CNT, .LX_CNT_MISS, .LX_ECC_CNT, .AX_STATUS, .AX_ECC_CNT, .AX_CNT_MISS, .AX_CNT_DISC, .HAM_STATUS,
      .HAM_ECC_CNT, .GE_STATUS, .GE_CNT].flatMap fun r => wordBytes (d.readReg r p.id))
    ++ le 2 (d.causeId (evPl p)) ++ le 2 (d.plane p).stackCause
    ++ le 4 (d.countOuts fun x => x.serving == p)
    ++ le 4 (d.countOuts fun x => x.mode == 0 && (x.serving == p || (x.pl.pl p).eqv))
    ++ le 4 (d.countOuts fun x => x.mode == 0 && !(x.serving == p || (x.pl.pl p).eqv))
    ++ le 4 (d.countOuts fun x => (x.pl.pl p).waitCopy)

/-- Conversion channel entry (Table 10-10): CC000-CC095 lie on Plane A, the others on Plane B. -/
def Dev.wvChannel (d : Dev) (cc : Nat) : List Byte :=
  let o := d.owner (Plane.ofId (cc / 96)) (2304 + cc)
  let f := o.frames.headD {}
  let on := o.engines ++ o.half.toList
  let units := if on.isEmpty then 0 else if baseOf o.profile = pxAsrc then 1 else o.cost
  let engines := on.foldl (fun m i => m ||| 2 ^ i) 0
  le 2 (b2n o.isOpen + 2 * b2n (f.state == .fill && !o.frames.isEmpty) + 4 * b2n o.stepped + 8 * b2n o.waiting)
    ++ le 2 o.profile ++ le 2 o.src ++ le 1 o.fmtIn ++ le 1 o.fmtOut ++ le 2 f.tagCnt ++ le 1 f.tagField ++ le 1 f.tagPhase
    ++ le 1 units ++ zeros 3 ++ le 6 engines ++ zeros 2 ++ le 4 (o.owned + o.reserved) ++ le 2 o.tokens ++ zeros 2
    ++ le 4 o.made ++ le 2 o.drops ++ le 2 o.repeats ++ le 2 o.aborts ++ le 2 o.ancOver

/-- Gust engine entry (Table 10-11); the cycles used are free once it has completed a band (log 5). -/
def Dev.wvEngine (d : Dev) (g : Nat) : List Byte :=
  let p := Plane.ofId (g / 48)
  let i := g % 48
  let e := d.engine p i
  let (a, b, c) := d.engLoads p i
  le 2 (d.engState p i + 4 * b2n (e.loads.any fun id => (d.owner p id).stepped)) ++ le 2 a ++ le 2 b ++ le 2 c ++ le 4 e.bands
    ++ le 2 e.watchdog ++ le 2 e.ctrlErr ++ le 2 (if e.bands = 0 then 0 else Config.free (d.free + g) % 1001)

/-- Ring holdings on a plane, over all rings of both ports. -/
def Dev.ringHeld (d : Dev) (p : Plane) : Amount := d.svr.foldl (fun a (x : Nat × SvRing) => a.add (x.2.hold.pl p)) {}

/-- Owners on a plane that satisfy a test. -/
def Dev.ownersOf (d : Dev) (p : Plane) (f : Nat → Bool) : List Owner :=
  ((d.plane p).owners.filter fun (x : Nat × Owner) => f x.1).map (·.2)

/-- Hamper pool entry (Table 9-9). -/
def Dev.wvPool (d : Dev) (p : Plane) : List Byte :=
  let all := d.ownersOf p fun _ => true
  let sum (f : Owner → Nat) : Nat := (all.map f).sum
  let open' (f : Nat → Bool) : Nat := ((d.ownersOf p f).filter fun o => o.isOpen).length
  let h := d.ringHeld p
  let quar := d.rd F.HAM_QUAR_pc_mask p.id
  le 4 (d.pool p).pages ++ le 4 (sum (·.owned)) ++ le 4 (sum (·.reserved)) ++ le 4 (65536 * d.rd F.HAM_STATUS_pc_quar p.id)
    ++ le 4 h.pages ++ le 2 (d.pool p).tokens ++ le 2 (sum (·.tokens)) ++ le 2 h.tokens ++ le 2 (d.rd F.HAM_TOKENS_total p.id)
    ++ le 2 (open' isSync) ++ le 2 (open' isConv) ++ le 2 (open' isSet) ++ zeros 2 ++ le 4 (d.plane p).hamAborts ++ le 4 quar
    ++ le 4 (d.plane p).pmCorrected

/-! ### The writing -/

/-- The Weathervane between gen_begin and gen_end (Table 7-20). -/
def Dev.wvBody (d : Dev) (p : Port) : List Byte :=
  let size1 := d.flag F.HIF_WV_CFG_size p.id
  let low := fit 60 (d.wvHeader p) ++ wvSection 2 32 (fun i => d.wvTimebase (Plane.ofId i)) ++ wvSection 5 16 d.wvInput
    ++ zeros (0x1000 - 0xD0) ++ wvSection 384 128 d.wvLane ++ wvSection 1152 32 d.wvSlot ++ wvSection 1152 16 d.wvOutput
    ++ zeros 0x800 ++ wvSection 2 256 fun i => d.wvPlane (Plane.ofId i)
  if size1 then
    let high := wvSection 192 64 d.wvChannel ++ wvSection 96 32 d.wvEngine ++ zeros 0x400 ++ wvSection 2 64 fun i => d.wvPool (Plane.ofId i)
    fit 0x1FFFC low ++ fit 0x1FFF8 high
  else fit 0x1FFF4 low

/-- One writing of the Weathervane, its three steps in order (R282). -/
def Dev.weathervane (d : Dev) (p : Port) : Dev :=
  let base := d.rd F.HIF_WV_BASE_LO_addr p.id * 4096 + d.rd F.HIF_WV_BASE_HI_addr p.id * 2 ^ 32
  let gen := ((d.port p).wvGen + 1) % 2 ^ 32
  let body := d.wvBody p
  let d := { d.modPort p fun x => { x with wvGen := gen } with free := d.free + 96 }
  ((d.hostWrite p base (le 4 gen)).hostWrite p (base + 4) body).hostWrite p (base + 4 + body.length) (le 8 gen)

/-- WEATHERVANE_WRITE (R282): while HIF_WV_CFG.enable is 1 and the port is not lost. -/
def execWeathervaneWrite (t : Nat) (port : Port) (s : State) : Host.Outcome State Fault Refusal :=
  onDev true t s fun d => if d.flag F.HIF_WV_CFG_enable port.id && !d.lost port then d.landDue.weathervane port else d

end Sys2Proof.Machine
end

