-- ==== Sys2Proof/Machine/Dispatch.lean ====
section
/-! DEFINITION. The meaning of every command, one arm per row of spec/opcode_table.json. -/

namespace Sys2Proof.Machine

def exec (i : Instr) (s : State) : Host.Outcome State Fault Refusal :=
  match i with
  | .registerWrite t port off val => Sys2Proof.Machine.execRegisterWrite t port off val s
  | .suppliesValid t straps => Sys2Proof.Machine.execSuppliesValid t straps s
  | .resetAssert t lowNs => Sys2Proof.Machine.execResetAssert t lowNs s
  | .resetRelease t straps => Sys2Proof.Machine.execResetRelease t straps s
  | .railDeparture t rail => Sys2Proof.Machine.execRailDeparture t rail s
  | .brownOut t aonHeld stage => Sys2Proof.Machine.execBrownOut t aonHeld stage s
  | .xaStartDelayExpiry t => Sys2Proof.Machine.execXaStartDelayExpiry t s
  | .xaUsable t => Sys2Proof.Machine.execXaUsable t s
  | .xaEdgeTimeout t => Sys2Proof.Machine.execXaEdgeTimeout t s
  | .xaCountCheck t count => Sys2Proof.Machine.execXaCountCheck t count s
  | .xbWindow t offset gap xaOff xbOff => Sys2Proof.Machine.execXbWindow t offset gap xaOff xbOff s
  | .xbEdgeGap t => Sys2Proof.Machine.execXbEdgeGap t s
  | .lsCoastExpiry t ls => Sys2Proof.Machine.execLsCoastExpiry t ls s
  | .lsRelock t ls => Sys2Proof.Machine.execLsRelock t ls s
  | .lsLockLost t ls => Sys2Proof.Machine.execLsLockLost t ls s
  | .lsRelockTimeout t ls => Sys2Proof.Machine.execLsRelockTimeout t ls s
  | .lsToXa t => Sys2Proof.Machine.execLsToXa t s
  | .omLock t k => Sys2Proof.Machine.execOmLock t k s
  | .omLockLost t k => Sys2Proof.Machine.execOmLockLost t k s
  | .synLock t m => Sys2Proof.Machine.execSynLock t m s
  | .synLockLost t m => Sys2Proof.Machine.execSynLockLost t m s
  | .synRelockTimeout t m => Sys2Proof.Machine.execSynRelockTimeout t m s
  | .synSteerUpdate t offA offB => Sys2Proof.Machine.execSynSteerUpdate t offA offB s
  | .ratioRampStep t loop ratio => Sys2Proof.Machine.execRatioRampStep t loop ratio s
  | .syn5RatioWrite t val => Sys2Proof.Machine.execSyn5RatioWrite t val s
  | .syncArm t => Sys2Proof.Machine.execSyncArm t s
  | .syncinEdge t => Sys2Proof.Machine.execSyncinEdge t s
  | .safeStateTrigger t code => Sys2Proof.Machine.execSafeStateTrigger t code s
  | .clockGateWrite t hi val => Sys2Proof.Machine.execClockGateWrite t hi val s
  | .clockGateDone t block => Sys2Proof.Machine.execClockGateDone t block s
  | .stackTrainDone t plane failed => Sys2Proof.Machine.execStackTrainDone t plane failed s
  | .keySlotUnwrap t => Sys2Proof.Machine.execKeySlotUnwrap t s
  | .restore t => Sys2Proof.Machine.execRestore t s
  | .ready t => Sys2Proof.Machine.execReady t s
  | .graceClosed t => Sys2Proof.Machine.execGraceClosed t s
  | .refinLost t x src => Sys2Proof.Machine.execRefinLost t x src s
  | .ppsinLost t => Sys2Proof.Machine.execPpsinLost t s
  | .refvLost t src => Sys2Proof.Machine.execRefvLost t src s
  | .refvEnableWrite t en src => Sys2Proof.Machine.execRefvEnableWrite t en src s
  | .qualSample t x offset => Sys2Proof.Machine.execQualSample t x offset s
  | .dpllPhaseUpdate t tb phase freq ctl depart leadFreq => Sys2Proof.Machine.execDpllPhaseUpdate t tb phase freq ctl depart leadFreq s
  | .switchingDone t tb diff => Sys2Proof.Machine.execSwitchingDone t tb diff s
  | .pmHoldoffExpiry t x src => Sys2Proof.Machine.execPmHoldoffExpiry t x src s
  | .pmWtrExpiry t x src => Sys2Proof.Machine.execPmWtrExpiry t x src s
  | .tbPmForceWrite t val src => Sys2Proof.Machine.execTbPmForceWrite t val src s
  | .leadFailover t => Sys2Proof.Machine.execLeadFailover t s
  | .leadReq t v => Sys2Proof.Machine.execLeadReq t v s
  | .tbClassWrite t n val => Sys2Proof.Machine.execTbClassWrite t n val s
  | .classParamTakeEffect t n => Sys2Proof.Machine.execClassParamTakeEffect t n s
  | .tbSnapA t => Sys2Proof.Machine.execTbSnapA t s
  | .tbSnapB t both => Sys2Proof.Machine.execTbSnapB t both s
  | .laneEnable t n => Sys2Proof.Machine.execLaneEnable t n s
  | .laneDisable t n => Sys2Proof.Machine.execLaneDisable t n s
  | .lnRetrain t n => Sys2Proof.Machine.execLnRetrain t n s
  | .lnBitSlip t n host => Sys2Proof.Machine.execLnBitSlip t n host s
  | .lnOctCtrlWrite t k val => Sys2Proof.Machine.execLnOctCtrlWrite t k val s
  | .detectPulse t n found => Sys2Proof.Machine.execDetectPulse t n found s
  | .rxBitLock t n => Sys2Proof.Machine.execRxBitLock t n s
  | .alignWindowEnd t n atBoundary anywhere code disp pos => Sys2Proof.Machine.execAlignWindowEnd t n atBoundary anywhere code disp pos s
  | .wt2Received t n status inParcel => Sys2Proof.Machine.execWt2Received t n status inParcel s
  | .capReceived t n cap => Sys2Proof.Machine.execCapReceived t n cap s
  | .capSend t n => Sys2Proof.Machine.execCapSend t n s
  | .laneStateTimeout t n => Sys2Proof.Machine.execLaneStateTimeout t n s
  | .rxSquelch t n => Sys2Proof.Machine.execRxSquelch t n s
  | .rxBitLockLost t n => Sys2Proof.Machine.execRxBitLockLost t n s
  | .errorWindowEnd t n code disp => Sys2Proof.Machine.execErrorWindowEnd t n code disp s
  | .skpTimeout t n => Sys2Proof.Machine.execSkpTimeout t n s
  | .recoveryRequestSend t n => Sys2Proof.Machine.execRecoveryRequestSend t n s
  | .idlRunSend t n => Sys2Proof.Machine.execIdlRunSend t n s
  | .ingressRecoveryTimeout t n => Sys2Proof.Machine.execIngressRecoveryTimeout t n s
  | .skpReceived t n => Sys2Proof.Machine.execSkpReceived t n s
  | .lullReceived t n words inParcel => Sys2Proof.Machine.execLullReceived t n words inParcel s
  | .zephyrBurstReceived t n comma wt1 => Sys2Proof.Machine.execZephyrBurstReceived t n comma wt1 s
  | .egressIdleEnter t n => Sys2Proof.Machine.execEgressIdleEnter t n s
  | .egressWake t n => Sys2Proof.Machine.execEgressWake t n s
  | .parcelReceived t n pos hdr body complete => Sys2Proof.Machine.execParcelReceived t n pos hdr body complete s
  | .twinHoldExpiry t slot => Sys2Proof.Machine.execTwinHoldExpiry t slot s
  | .swmReceived t n pos => Sys2Proof.Machine.execSwmReceived t n pos s
  | .fchReceived t n pos => Sys2Proof.Machine.execFchReceived t n pos s
  | .slotBufferGate t slot => Sys2Proof.Machine.execSlotBufferGate t slot s
  | .hamperIngest t plane slot => Sys2Proof.Machine.execHamperIngest t plane slot s
  | .monitorPublish t slot => Sys2Proof.Machine.execMonitorPublish t slot s
  | .breezeMsgInvalid t n words => Sys2Proof.Machine.execBreezeMsgInvalid t n words s
  | .creditReceived t n release seq => Sys2Proof.Machine.execCreditReceived t n release seq s
  | .identReceived t n release seq payload => Sys2Proof.Machine.execIdentReceived t n release seq payload s
  | .pstatReceived t n release seq payload => Sys2Proof.Machine.execPstatReceived t n release seq payload s
  | .twinReceived t n release seq payload => Sys2Proof.Machine.execTwinReceived t n release seq payload s
  | .breezeBufferRelease t n => Sys2Proof.Machine.execBreezeBufferRelease t n s
  | .creditSend t n => Sys2Proof.Machine.execCreditSend t n s
  | .tallySend t n => Sys2Proof.Machine.execTallySend t n s
  | .twinSend t n => Sys2Proof.Machine.execTwinSend t n s
  | .timingSend t n => Sys2Proof.Machine.execTimingSend t n s
  | .lineRead t plane out frame line ecc audEcc delivered ovlDelivered => Sys2Proof.Machine.execLineRead t plane out frame line ecc audEcc delivered ovlDelivered s
  | .selectorDecision t out frame line => Sys2Proof.Machine.execSelectorDecision t out frame line s
  | .outputFrameStart t plane out frame => Sys2Proof.Machine.execOutputFrameStart t plane out frame s
  | .rasterChange t out => Sys2Proof.Machine.execRasterChange t out s
  | .mapScrub t plane out pend ecc => Sys2Proof.Machine.execMapScrub t plane out pend ecc s
  | .audioMapScrub t plane dst ecc => Sys2Proof.Machine.execAudioMapScrub t plane dst ecc s
  | .pageMapScrub t plane page ecc => Sys2Proof.Machine.execPageMapScrub t plane page ecc s
  | .doorbellPoll t port => Sys2Proof.Machine.execDoorbellPoll t port s
  | .latchSweep t port sinceUs => Sys2Proof.Machine.execLatchSweep t port sinceUs s
  | .doorbellReadComplete t port data => Sys2Proof.Machine.execDoorbellReadComplete t port data s
  | .doorbellWriteback t port => Sys2Proof.Machine.execDoorbellWriteback t port s
  | .itemArrival t port ring descs ok => Sys2Proof.Machine.execItemArrival t port ring descs ok s
  | .itemValidate t port ring spoiled => Sys2Proof.Machine.execItemValidate t port ring spoiled s
  | .cctReadComplete t port id data => Sys2Proof.Machine.execCctReadComplete t port id data s
  | .nop t port ring => Sys2Proof.Machine.execNop t port ring s
  | .salvo t port ring => Sys2Proof.Machine.execSalvo t port ring s
  | .auth t port ring => Sys2Proof.Machine.execAuth t port ring s
  | .takeVideo t port ring => Sys2Proof.Machine.execTakeVideo t port ring s
  | .takeAudio t port ring => Sys2Proof.Machine.execTakeAudio t port ring s
  | .takeFormat t port ring => Sys2Proof.Machine.execTakeFormat t port ring s
  | .takeOverlay t port ring => Sys2Proof.Machine.execTakeOverlay t port ring s
  | .convOpen t port ring => Sys2Proof.Machine.execConvOpen t port ring s
  | .convClose t port ring => Sys2Proof.Machine.execConvClose t port ring s
  | .syncOpen t port ring => Sys2Proof.Machine.execSyncOpen t port ring s
  | .cctSync t port ring => Sys2Proof.Machine.execCctSync t port ring s
  | .reserve t port ring resultOk => Sys2Proof.Machine.execReserve t port ring resultOk s
  | .release t port ring resultOk => Sys2Proof.Machine.execRelease t port ring resultOk s
  | .timeSet t port ring => Sys2Proof.Machine.execTimeSet t port ring s
  | .timeAdj t port ring => Sys2Proof.Machine.execTimeAdj t port ring s
  | .hamperWrite t port ring data => Sys2Proof.Machine.execHamperWrite t port ring data s
  | .hamperRead t port ring => Sys2Proof.Machine.execHamperRead t port ring s
  | .hamperTransferDone t port ring ok => Sys2Proof.Machine.execHamperTransferDone t port ring ok s
  | .nvmWrite t port ring data ok => Sys2Proof.Machine.execNvmWrite t port ring data ok s
  | .nvmRead t port ring ok => Sys2Proof.Machine.execNvmRead t port ring ok s
  | .keyInfo t port ring ok => Sys2Proof.Machine.execKeyInfo t port ring ok s
  | .keyExtend t port ring data ok => Sys2Proof.Machine.execKeyExtend t port ring data ok s
  | .keyGenerate t port ring ok => Sys2Proof.Machine.execKeyGenerate t port ring ok s
  | .keyProvenance t port ring ok => Sys2Proof.Machine.execKeyProvenance t port ring ok s
  | .keyQuote t port ring ok => Sys2Proof.Machine.execKeyQuote t port ring ok s
  | .keyReseal t port ring data ok => Sys2Proof.Machine.execKeyReseal t port ring data ok s
  | .keyDelete t port ring => Sys2Proof.Machine.execKeyDelete t port ring s
  | .keyRingAgree t port ring data ok => Sys2Proof.Machine.execKeyRingAgree t port ring data ok s
  | .keySign t port ring data ok => Sys2Proof.Machine.execKeySign t port ring data ok s
  | .keyMac t port ring data ok => Sys2Proof.Machine.execKeyMac t port ring data ok s
  | .takeover t port ring => Sys2Proof.Machine.execTakeover t port ring s
  | .salvoLatch t cls frame => Sys2Proof.Machine.execSalvoLatch t cls frame s
  | .salvoCompletionPost t port ring => Sys2Proof.Machine.execSalvoCompletionPost t port ring s
  | .asrunCheckpoint t port reason => Sys2Proof.Machine.execAsrunCheckpoint t port reason s
  | .msixModerationExpiry t port ring => Sys2Proof.Machine.execMsixModerationExpiry t port ring s
  | .weathervaneWrite t port => Sys2Proof.Machine.execWeathervaneWrite t port s
  | .ringConfigWrite t port off val => Sys2Proof.Machine.execRingConfigWrite t port off val s
  | .svrEnable t port ring pi => Sys2Proof.Machine.execSvrEnable t port ring pi s
  | .svrDisable t port ring => Sys2Proof.Machine.execSvrDisable t port ring s
  | .recordRingEnable t port ring => Sys2Proof.Machine.execRecordRingEnable t port ring s
  | .recordRingDisable t port ring => Sys2Proof.Machine.execRecordRingDisable t port ring s
  | .foldBaseWrite t port hi val => Sys2Proof.Machine.execFoldBaseWrite t port hi val s
  | .cctFlush t port => Sys2Proof.Machine.execCctFlush t port s
  | .hostReadTimeout t port what => Sys2Proof.Machine.execHostReadTimeout t port what s
  | .portLost t port why => Sys2Proof.Machine.execPortLost t port why s
  | .portProbe t port linkUp bme => Sys2Proof.Machine.execPortProbe t port linkUp bme s
  | .portRestored t port => Sys2Proof.Machine.execPortRestored t port s
  | .perstAssert t port => Sys2Proof.Machine.execPerstAssert t port s
  | .plFaultReq t plane => Sys2Proof.Machine.execPlFaultReq t plane s
  | .plRestartReq t plane => Sys2Proof.Machine.execPlRestartReq t plane s
  | .planeAutoRestart t plane => Sys2Proof.Machine.execPlaneAutoRestart t plane s
  | .planeRestartDone t plane => Sys2Proof.Machine.execPlaneRestartDone t plane s
  | .takeSequencerWatchdog t plane => Sys2Proof.Machine.execTakeSequencerWatchdog t plane s
  | .hamperStackFault t plane => Sys2Proof.Machine.execHamperStackFault t plane s
  | .resourceReturn t plane id => Sys2Proof.Machine.execResourceReturn t plane id s
  | .pacingInstant t plane id j => Sys2Proof.Machine.execPacingInstant t plane id j s
  | .engineStart t => Sys2Proof.Machine.execEngineStart t s
  | .engineWatchdog t g => Sys2Proof.Machine.execEngineWatchdog t g s
  | .engineControlCheckFault t g err => Sys2Proof.Machine.execEngineControlCheckFault t g err s
  | .engineTestDone t g pass => Sys2Proof.Machine.execEngineTestDone t g pass s
  | .geEngDisWrite t plane hi val => Sys2Proof.Machine.execGeEngDisWrite t plane hi val s
  | .gatherExpiry t src => Sys2Proof.Machine.execGatherExpiry t src s
  | .rateLimitExpiry t src => Sys2Proof.Machine.execRateLimitExpiry t src s
  | .squallEnd t => Sys2Proof.Machine.execSquallEnd t s
  | .causeSettleExpiry t src => Sys2Proof.Machine.execCauseSettleExpiry t src s
  | .foldSlotRewrite t port slot ok => Sys2Proof.Machine.execFoldSlotRewrite t port slot ok s
  | .cmxRequest t master tag write space addr beats after data strobes => Sys2Proof.Machine.execCmxRequest t master tag write space addr beats after data strobes s
  | .cmxSegment t target => Sys2Proof.Machine.execCmxSegment t target s
  | .cmxMasterReset t master => Sys2Proof.Machine.execCmxMasterReset t master s
  | .cmxMasterReleased t master => Sys2Proof.Machine.execCmxMasterReleased t master s
  | .cmxRemap t => Sys2Proof.Machine.execCmxRemap t s
  | .ramblerWatchdog t c => Sys2Proof.Machine.execRamblerWatchdog t c s
  | .larderPageWriteDone t verify => Sys2Proof.Machine.execLarderPageWriteDone t verify s
  | .journalCommit t => Sys2Proof.Machine.execJournalCommit t s
  | .journalStretch t => Sys2Proof.Machine.execJournalStretch t s
  | .countersCommit t => Sys2Proof.Machine.execCountersCommit t s
  | .faultLogCommit t => Sys2Proof.Machine.execFaultLogCommit t s
  | .larderScrub t differ => Sys2Proof.Machine.execLarderScrub t differ s
  | .entropyFail t => Sys2Proof.Machine.execEntropyFail t s
  | .thermalSample t tj => Sys2Proof.Machine.execThermalSample t tj s
  | .thermalTrip120 t => Sys2Proof.Machine.execThermalTrip120 t s
  | .thermalStepLeave t => Sys2Proof.Machine.execThermalStepLeave t s
  | .smbusBlockRead t code pec => Sys2Proof.Machine.execSmbusBlockRead t code pec s
  | .smbusTimeout t => Sys2Proof.Machine.execSmbusTimeout t s
  | .bypass t => Sys2Proof.Machine.execBypass t s
  | .idcode t => Sys2Proof.Machine.execIdcode t s
  | .samplePreload t pins load => Sys2Proof.Machine.execSamplePreload t pins load s
  | .extest t => Sys2Proof.Machine.execExtest t s
  | .refinEdgesReturn t x => Sys2Proof.Machine.execRefinEdgesReturn t x s
  | .tbDpllSelWrite t tb val src => Sys2Proof.Machine.execTbDpllSelWrite t tb val src s
  | .ckoConfigWrite t c div val => Sys2Proof.Machine.execCkoConfigWrite t c div val s
  | .perstRelease t port => Sys2Proof.Machine.execPerstRelease t port s
  | .railReturn t rail => Sys2Proof.Machine.execRailReturn t rail s

end Sys2Proof.Machine
end

