-- ==== Sys2Proof/Safety.lean ====
section
/-! DEFINITION. What counts as a safe run (the memories keep their canonical form and no step stops), and the words
in which claims say what a command does: it runs, what it leaves, and what it leaves unchanged. -/

namespace Sys2Proof.Machine

/-- The addressed memories are in canonical form: the Larder over 0xFF, the Hamper stacks and the working
SRAM over 0. -/
def Mems.wf (m : Mems) : Bool :=
  Memory.wf 0xFF#8 m.larder && Memory.wf 0#8 m.hamper.a && Memory.wf 0#8 m.hamper.b && Memory.wf 0#8 m.sram

/-- The machine's invariant: the memories are canonical. -/
def State.Inv (s : State) : Prop := s.mem.wf = true

/-- Every waiting command names elements the device has. -/
def State.queueWf (s : State) : Bool := s.pending.all Instr.wf

/-- The device as time has brought it to instant `t`, before a command at `t` acts (R39, R41). -/
def State.on (s : State) (t : Nat) : Dev := s.dev.advance t

/-- Command `c` runs from `s`: `exec` answers a next state, with the queue and the memories of `s`, and its device is
one that `P` describes. -/
def Runs (c : Instr) (s : State) (P : Dev → Prop) : Prop :=
  ∃ d' : Dev, exec c s = .next { s with dev := d' } ∧ P d'

/-- Command `c` runs from `s` with the queue kept; `P` describes the memories and the device after it. -/
def RunsMem (c : Instr) (s : State) (P : Mems → Dev → Prop) : Prop :=
  ∃ (m : Mems) (d' : Dev), exec c s = .next { s with mem := m, dev := d' } ∧ P m d'

/-- Command `c` runs from `s` and changes nothing but time. -/
def OnlyTime (c : Instr) (s : State) (t : Nat) : Prop := exec c s = .next { s with dev := s.on t }

/-- The parts of the device beside its registers. -/
inductive Area where
  | emitted | free | ev | clk | tim | start | ports | svr | recs | order | cct | planes | outs | startQ | ins | lanes
  | ldr | key | cmx
  deriving DecidableEq, Repr

/-- A part is the same in two devices. -/
def Area.same (d d' : Dev) : Area → Prop
  | .emitted => d'.emitted = d.emitted
  | .free => d'.free = d.free
  | .ev => d'.ev = d.ev
  | .clk => d'.clk = d.clk
  | .tim => d'.tim = d.tim
  | .start => d'.start = d.start
  | .ports => d'.ports = d.ports
  | .svr => d'.svr = d.svr
  | .recs => d'.recs = d.recs
  | .order => d'.seq = d.seq ∧ d'.stamp = d.stamp
  | .cct => d'.cctData = d.cctData ∧ d'.coolCtl = d.coolCtl
  | .planes => d'.planes = d.planes
  | .outs => d'.outs = d.outs
  | .startQ => d'.startQ = d.startQ ∧ d'.startAt = d.startAt
  | .ins => d'.ins = d.ins
  | .lanes => d'.lanes = d.lanes
  | .ldr => d'.ldr = d.ldr
  | .key => d'.key = d.key
  | .cmx => d'.cmx = d.cmx

/-- Between `d` and `d'` no time passes, no part of the device but `areas` changes, and no register but `regs`. (`Dev.sets`,
which only remembers the status bits set in the present clock cycle, is no part of the claim.) -/
def Keeps (areas : List Area) (regs : List RegName) (d d' : Dev) : Prop :=
  d'.now = d.now ∧ (∀ a : Area, a ∉ areas → a.same d d') ∧ (∀ (r : RegName) (i : Nat), r ∉ regs → d'.reg r i = d.reg r i)

/-- Every instance of register `r` but `n` is the same. -/
def KeepsOthers (r : RegName) (n : Nat) (d d' : Dev) : Prop :=
  ∀ i : Nat, i < 65536 → i ≠ n → d'.reg r i = d.reg r i

/-- Every lane pair but `n` is the same, with its status register. -/
def OtherLanes (n : Nat) (d d' : Dev) : Prop :=
  ∀ m : Nat, m < 384 → m ≠ n → d'.lane m = d.lane m ∧ d'.reg .LN_STATUS m = d.reg .LN_STATUS m

/-- What raising an event or a cause may change beside its own command's effect (chapter 12): the event unit, the record
rings and what is put out, a port's MSI-X pending bits and slot generations, and the Fault Log's buffer. -/
def evAreas : List Area := [.ev, .emitted, .recs, .ports, .ldr]

/-- The registers that raising an event or a cause may change (chapter 12). -/
def evRegs : List RegName := [.HIF_EVR_STATUS, .HIF_EV_WRITTEN, .HIF_EV_FOLDED, .HIF_EV_LOST, .HIF_LOSS]

/-- Line `k` of frame `f` of output `o`, which heads its group, starts at `to`, and the frame's line 1 at `first`; the
clocks run, and neither a plane mode nor the start jump waits at the output. -/
structure LineAt (d : Dev) (o f k tOut first : Nat) : Prop where
  out : o < 1152
  head : d.headOf o = o
  start : d.lineTime o f k = some tOut
  frame : d.lineTime o f 1 = some first
  low : 1 ≤ k
  high : k ≤ fmtL (d.out o).fmt
  clocks : d.flag F.CLK_STATUS_safe = false
  mode : (d.out o).modePend = []
  jump : (d.out o).jump = none

/-- Plane `p` is IN_SERVICE and computes output `o`; it has taken frame `f`'s start, nothing waits to land on it, the
output's overlay is off, and no destination channel of the plane has an entry. -/
structure Builds (d : Dev) (p : Plane) (o f : Nat) : Prop where
  service : d.plState p = 0
  computes : d.computes o p = true
  copied : (d.op o p).waitCopy = false
  frame : (d.op o p).frameNo = some f
  pend : (d.op o p).pend = none
  latched : d.latched = []
  overlay : (d.op o p).ovl.enable = false
  dests : (d.plane p).dests = []

/-- The selector may decide line `k` of frame `f` of output `o` now: its start, `to`, has come, less than one line period
has passed since, and the line is not the one it decided last. -/
structure Decides (d : Dev) (o f k tOut first : Nat) : Prop extends LineAt d o f k tOut first where
  come : tOut ≤ d.epoch
  soon : (d.epoch - tOut) * hDen (d.out o).fmt < hNum (d.out o).fmt
  later : (d.out o).line = 0 ∨ ((d.out o).frame, (d.out o).line) ≠ (f, k)

/-- Plane `p` may build line `k` of frame `f` of output `o` now: its read instant has come, and it has not started. -/
structure Reads (d : Dev) (p : Plane) (o f k tOut first : Nat) : Prop where
  line : LineAt d o f k tOut first
  plane : Builds d p o f
  read : atRead (d.out o).fmt tOut d.epoch = true
  before : d.epoch ≤ tOut

/-- The plane has copy `y` of line `k` of frame `f` of output `o` staged, built as a missed line is (R150, R185). -/
abbrev StagesMissed (d : Dev) (p : Plane) (o f k : Nat) : Prop :=
  ∃ y, (d.op o p).staged = some y ∧ y.frame = f ∧ y.line = k ∧ y.body = [] ∧ hAbort y.hdr = true
    ∧ hBlack y.hdr = fmtActive (d.out o).fmt k

/-- A plane fault of cause `k` has been declared on plane `p`, and nothing of the other plane's service changes (R296). -/
def Faulted (d d' : Dev) (p : Plane) (k : Nat) : Prop :=
  d'.plState p = 1 ∧ d'.rd F.PL_STATUS_cause p.id = k ∧ d'.plState p.other = d.plState p.other
  ∧ (d'.plane p).faultAt = d.now ∧ d'.tbState p = 6 ∧ d'.tbState p.other = d.tbState p.other

/-- The parts that declaring a plane fault may change, beside what it reports: the plane, the salvos that it no longer applies,
and the lock pins and clock outputs that follow its timebase. -/
def faultAreas : List Area := .planes :: .svr :: .clk :: evAreas

/-- The registers that declaring a plane fault may change. -/
def faultRegs : List RegName := .PL_STATUS :: .PL_CNT :: .SEL_STATUS :: .TB_STATUS :: .CLK_STATUS :: evRegs

/-- The pools of what salvos secure, as registers. -/
def poolRegs : List RegName := [.HAM_POOL, .HAM_TOKENS, .GE_STATUS]

/-- A fault of cause `k` is declared on plane `p` (R296 to R298): its instant, its count and what its causes allow are kept, the
plane applies no part of a latched salvo, every other item stays, and the other plane is the same. -/
def DeclaresFault (d d' : Dev) (p : Plane) (k : Nat) : Prop :=
  Faulted d d' p k ∧ (d'.plane p).autoOk = autoAllowed k ∧ d'.plane p.other = d.plane p.other
  ∧ d'.rd F.PL_CNT_faults p.id = min (d.rd F.PL_CNT_faults p.id + 1) 65535
  ∧ (∀ (q : Port) (r : Nat) (it : Item), it ∈ (d'.ring q r).items → it.phase = .latched → it.applied.pl p = false)
  ∧ ∀ (q : Port) (r : Nat) (it : Item), it ∈ (d.ring q r).items → it.phase ≠ .latched → it ∈ (d'.ring q r).items

/-- The plane's automatic restarts of the last hour (R300). -/
def Dev.recentAutos (d : Dev) (p : Plane) : List Nat := (d.plane p).autos.filter fun a => decide (d.now < a + 3600 * secU)

/-- Plane `p` restarts (R300, R301, R320, R375, R569): what its stack holds is gone, its channels are closed, its sets
stay open but stale, its engines are free, and its outputs wait for their copies; nothing else of any memory or of the other
plane changes. -/
def Restarts (m m' : Mems) (d d' : Dev) (p : Plane) : Prop :=
  m'.hamper.pl p = [] ∧ m'.hamper.pl p.other = m.hamper.pl p.other ∧ m'.larder = m.larder ∧ m'.sram = m.sram
  ∧ d'.plState p = 2 ∧ (d'.plane p).training = true ∧ d'.flag F.HAM_STATUS_trained p.id = false ∧ (d'.plane p).slots = []
  ∧ (d'.plane p).pals = [] ∧ (d'.plane p).palPend = [] ∧ (d'.plane p).coolbox = []
  ∧ (∀ id, isSet id = false → d'.owner p id = {})
  ∧ (∀ id, isSet id = true → (d.owner p id).isOpen = true → d'.owner p id = { d.owner p id with stale := true })
  ∧ (∀ i, (d'.engine p i).state = 0 ∧ (d'.engine p i).loads = [])
  ∧ (∀ o, (d.out o).raster.isSome = true → (d'.op o p).waitCopy = true ∧ (d'.op o p).staged = none)
  ∧ (∀ o, d'.op o p.other = d.op o p.other) ∧ d'.plane p.other = d.plane p.other ∧ d'.plState p.other = d.plState p.other

/-- The parts and the registers that a plane restart may change, beside what it reports. -/
def restartAreas : List Area := .planes :: .outs :: .startQ :: evAreas
def restartRegs : List RegName := [.PL_STATUS, .SEL_STATUS, .HAM_STATUS] ++ poolRegs ++ evRegs

/-- Engine `g`, engine `i` of plane `p`, runs and carries channel `id` alone, which is open and not aborted (R346, R372). -/
abbrev Carries (d : Dev) (g : Nat) (p : Plane) (i id : Nat) : Prop :=
  g < 96 ∧ p = Plane.ofId (g / 48) ∧ i = g % 48 ∧ d.inService p = true ∧ (d.engine p i).state = 1 ∧ (d.engine p i).loads = [id]
  ∧ isConv id = true ∧ d.isOpen p id = true ∧ (d.owner p id).aborted = false

/-- Engine `i` of plane `p` suffers a fault: it is under test, and its channel `id` aborts on its plane and leaves
its engines (R372, R373, R375). -/
def EngineFaults (d d' : Dev) (p : Plane) (i id : Nat) : Prop :=
  (d'.engine p i).state = 2 ∧ d.now ∈ (d'.engine p i).faults ∧ (d'.owner p id).aborted = true
  ∧ (d'.owner p id).aborts = satAdd 16 (d.owner p id).aborts 1 ∧ (d'.owner p id).engines = [] ∧ (d'.owner p id).half = none
  ∧ d'.rd F.GE_CNT_aborts p.id = satAdd F.GE_CNT_aborts.width (d.rd F.GE_CNT_aborts p.id) 1
  ∧ (∀ k, k ≠ id → d'.owner p k = d.owner p k) ∧ d'.plane p.other = d.plane p.other
  ∧ KeepsOthers .GE_STATUS p.id d d' ∧ KeepsOthers .GE_CNT p.id d d'
  ∧ Keeps (.planes :: .startQ :: evAreas) (.GE_STATUS :: .GE_CNT :: evRegs) d d'

/-- Copy `y` that plane `p` holds for line `k` of frame `f` of output `o` is good and clean (R223, R225): its header is
intact and names the line, its heartbeat follows the last, eight copies before it were in sequence, the plane has no fault
and the copy does not abort. -/
structure GoodCopy (d : Dev) (o f k : Nat) (p : Plane) (y : Copy) (h : Nat) : Prop where
  held : (d.op o p).staged = some y
  frame : y.frame = f
  line : y.line = k
  crc : fieldAt y.hdr 14 2 = crc16 (y.hdr.take 14)
  slot : hSlot y.hdr = o
  sub : hSub y.hdr = 0
  format : hFmt y.hdr = (d.out o).fmt
  hline : hLine y.hdr = k
  hframe : hFrame y.hdr = f % 65536
  last : (d.op o p).lastHb = some h
  beat : fieldAt y.hdr 4 2 / 8192 = (h + 1) % 8
  run : 8 ≤ (d.op o p).run
  sound : d.plFaulted p = false
  clean : hAbort y.hdr = false

/-- Plane `q` has equivalent state for output `o`, and has had since a frame before this one (R233). -/
abbrev StaysLike (d : Dev) (o : Nat) (q : Plane) : Prop :=
  d.alike o q = true ∧ (d.op o q).eqv = true ∧ (d.op o q).eqFrom.isSome = true

/-- Copy `y` leaves on every lane that carries output `o` and sends parcels at its position. -/
def Sent (d d' : Dev) (o : Nat) (y : Copy) : Prop :=
  ∀ n : Nat, n ∈ d.egressLanes o → d.txOpen n = true → d.partnerRx n (o % 3) = true →
    Emission.parcel n (o % 3) y.hdr y.body ∈ d'.emitted

/-- Every output but `o` is the same. -/
def OtherOuts (o : Nat) (d d' : Dev) : Prop := ∀ m : Nat, m ≠ o → d'.out m = d.out m

/-- Every Salvo Ring but `r` of port `p` is the same. -/
def OtherRings (p : Port) (r : Nat) (d d' : Dev) : Prop :=
  ∀ k : Nat, k ≠ 16 * p.id + r → Tbl.get {} d'.svr k = Tbl.get {} d.svr k

/-- Every record ring but `r` of port `p` is the same, beside its registers. -/
def OtherRecs (p : Port) (r : RecRing) (d d' : Dev) : Prop :=
  ∀ k : Nat, k ≠ 64 * p.id + recCode r → Tbl.get {} d'.recs k = Tbl.get {} d.recs k

/-- Item `it` is the only item of ring `r` of port `p`, stands alone, has opcode `op`, is valid, and acts at instant `t`;
`d` is the device then, before it acts (R265, R286). -/
structure Acting (s : State) (t : Nat) (p : Port) (r op : Nat) (it : Item) (d : Dev) : Prop where
  ring : r < 16
  act : (s.on t).landDue.acting p r op = (some it, d)
  only : (d.ring p r).items = [it]

/-- Salvo `it` is the only item of ring `r` of port `p`, has latched and its switch point has come; `b` is its one
entry, of opcode `op`, and is due but has not landed (R276). -/
structure Lands (d : Dev) (p : Port) (r op : Nat) (it : Item) (b : List Byte) : Prop where
  ring : r < 16
  only : (d.ring p r).items = [it]
  latched : it.phase = .latched
  begun : it.begun = true
  entry : it.numbered = [(1, b)]
  opcode : descOp b = op
  landed : it.landed = []
  due : d.dueAt it b ≤ d.epoch

/-- The only item of the ring, `it`, has ended with status `k`, and every other Salvo Ring is the same. -/
def Ends (d d' : Dev) (p : Port) (r : Nat) (it : Item) (k : Nat) : Prop :=
  (∃ x, (d'.ring p r).items = [x] ∧ x.idx = it.idx ∧ x.phase = .done ∧ x.status = k) ∧ OtherRings p r d d'

/-- Item `it` is the only item of ring `r` of port `p`, a KEY item of opcode `op`, and the Keystore serves it now (R505). -/
def Served (s : State) (t : Nat) (p : Port) (r op : Nat) (it : Item) (d : Dev) : Prop :=
  Acting s t p r op it d ∧ d.keyTurn it = true ∧ it.ccts = []

/-- A KEY item leaves its result `bytes` in host memory and is done; nothing else changes, but for what it drew (R505). -/
def Answers (d d' : Dev) (p : Port) (r : Nat) (it : Item) (bytes : List Byte) : Prop :=
  d'.emitted = Emission.hostWrite p (D.host.of it.head) bytes :: d.emitted
  ∧ d'.key = { d.key with draws := d'.key.draws }
  ∧ (d'.ring p r).items = [{ it with phase := .done, status := 0 }] ∧ OtherRings p r d d' ∧ Keeps [.svr, .emitted, .key] [] d d'

/-- A KEY item's new body joins the Larder's queue as the next copy of its slot, and the Keystore is busy until it is written
(R502, R505). -/
def QueuesBody (d d' : Dev) (p : Port) (r : Nat) (it : Item) (sl tag : Nat) (body : List Byte) : Prop :=
  d'.flag F.KEY_STATUS_busy = true
  ∧ d'.ldr.queue = d.ldr.queue ++ [{ cls := 2, what := 4, tag := tag, addr := slotAddr sl (d.slot sl).next.1
                                     data := recordBytes 0x0D01 (d.slot sl).next.2 body }]
  ∧ (d'.ring p r).items = [it] ∧ d'.key = { d.key with draws := d'.key.draws }
  ∧ Keeps [.ldr, .key, .free] [.KEY_STATUS, .LDR_STATUS] d d'

/-- Entry `b`, of opcode `op`, of salvo `it`, alone in ring `r` of port `p`, is to be judged next, the header and the entries
before it having passed; what the judging finds is `c` (R268). -/
abbrev Judges (d : Dev) (p : Port) (r op : Nat) (it : Item) (b : List Byte) : Prop :=
  r < 16 ∧ (d.ring p r).items = [it] ∧ d.judging p r = some it ∧ 1 ≤ it.cur ∧ it.entries[it.cur - 1]? = some b ∧ descOp b = op

/-- Salvo `it`, alone at the latch point of its class's frame `f` and in its ring, is secured in time, keeps its order, and
every entry of it may still be applied (R192, R244, R275, R286, R291). -/
structure Latches (d : Dev) (p : Port) (r : Nat) (it : Item) (f : Nat) : Prop where
  ring : r < 16
  only : (d.ring p r).items = [it]
  there : d.atPoint it.cls f = [(p, r, it)]
  phase : it.phase = .secured
  delivered : it.seq ≠ 0
  time : it.secAt < d.tL it.cls f
  soon : it.tooLate f = false
  order : d.orderOk p r it f = true
  entries : ∀ e, e ∈ it.numbered → d.latchStatus (d.each it.numbered fun q e => q.project it.allocs e.1 e.2)
    { it.atFrame f with line := d.switchLine it.cls, point := d.tS it.cls f } e.2 = 0

/-- The ring's first and only item, `it`, completes: its record goes to the Completion Ring that its ring names, which has
space, and the ring's consumer index moves past it (R262, R263, R277 to R280). -/
def Completes (d d' : Dev) (p : Port) (r : Nat) (it : Item) : Prop :=
  let c := d.svrCpr p r
  (d'.ring p r).items = [] ∧ d'.svrCi p r = (it.idx + it.slots) % 65536
  ∧ Emission.hostWrite p (d.recBase p (.cpr c) + d.rd F.HIF_CPR_STATUS_pi (16 * p.id + c) % d.recSize p (.cpr c) * 16)
      (withPhase (.cpr c) (d.rd F.HIF_CPR_STATUS_phase (16 * p.id + c)) (d.completionOf p r it)) ∈ d'.emitted
  ∧ d'.rd F.HIF_CPR_STATUS_pi (16 * p.id + c) = (d.rd F.HIF_CPR_STATUS_pi (16 * p.id + c) + 1) % 65536
  ∧ d'.svrStalled p r = (d.svrStalled p r || d.stalling p r it) ∧ KeepsOthers .HIF_SVR_STATUS (svrI p r) d d'

/-- Port `p` may take a completion of ring `r` now: it is not lost, and the ring's Completion Ring has space (R280). -/
abbrev TakesRecords (d : Dev) (p : Port) (r : Nat) : Prop :=
  r < 16 ∧ d.lost p = false ∧ d.ringOn p (.cpr (d.svrCpr p r)) = true ∧ d.recRoom p (.cpr (d.svrCpr p r)) = true
  ∧ (d.rr p (.cpr (d.svrCpr p r))).held = [] ∧ (d.rr p .asr).heldAsr = []

/-- The ring's only item is now `it`, and every other Salvo Ring is the same. -/
def Becomes (p : Port) (r : Nat) (it : Item) (d d' : Dev) : Prop := (d'.ring p r).items = [it] ∧ OtherRings p r d d'

/-- The descriptors that an arrival brings: a header read before stands where the read of the rest failed (R266). -/
def Dev.brought (d : Dev) (p : Port) (r : Nat) (descs : List (List Byte)) : List (List Byte) :=
  if descs.isEmpty && !(d.ring p r).head.isEmpty then [(d.ring p r).head] else descs.map (fit 64)

/-- Port `p` fetches from ring `r`, which has descriptors left: polling runs, and the ring is enabled, has started, and neither
stalls nor is to stall (R255, R265, R294). -/
abbrev Fetches (d : Dev) (p : Port) (r : Nat) : Prop :=
  r < 16 ∧ d.polling p = true ∧ d.svrOn p r = true ∧ d.svrStalled p r = false ∧ (d.ring p r).blocked = false
  ∧ (d.ring p r).starting = false ∧ (d.ring p r).fetch ≠ (d.ring p r).pi

/-- Item `it` alone is in ring `r` of port `p`, and comes next to be validated (R268). -/
abbrev Validates (d : Dev) (p : Port) (r : Nat) (it : Item) : Prop :=
  r < 16 ∧ d.nextToValidate p r = some it ∧ (d.ring p r).items = [it]

/-- What securing a salvo's entries in order comes to: their channels, and what they draw (R325). -/
def Dev.secures (d : Dev) (p : Port) (r : Nat) (it : Item) : Secure :=
  it.numbered.foldl (fun x e => Secure.step (d.base it.seq) (d.checkEntries p r it it.entries.length).allocs x e.1 e.2)
    { runs := ⟨d.run0 p r .a, d.run0 p r .b⟩ }

/-- Event source `src` may write its waiting record `w` now, and port `p` alone routes it, to its Event Ring `e` (R406, R410). -/
abbrev Writes (d : Dev) (p : Port) (src e : Nat) (w : EvWait) (rest : List EvWait) : Prop :=
  src < 6711 ∧ (d.evSrc src).wait = w :: rest ∧ w.gatherEnd = none ∧ (∀ l, (d.evSrc src).last = some l → l + msU ≤ d.now)
  ∧ d.routes p src = true ∧ d.routes p.other src = false ∧ w.due.po p = true ∧ evReaches p src w.code = true ∧ d.lost p = false
  ∧ d.evRing p src = .evr e ∧ d.ringOn p (.evr e) = true ∧ (d.ev.waits.po p).all (fun c => c.src != src) = true

/-- No record waits for the port's Completion Rings. -/
abbrev NoneHeld (d : Dev) (p : Port) : Prop := ∀ c, c < 16 → (d.rr p (.cpr c)).held = []

/-- The ring's register instance, and that it may be configured: it is disabled, and does not drain (R254). -/
def RingReg.inst (p : Port) : RingReg → Nat
  | .svr r => svrI p r
  | .recRing r => (recRegs p r).i

/-- The ring may be configured: it is disabled, and does not drain (R254). -/
def RingReg.idle (d : Dev) (p : Port) : RingReg → Bool
  | .svr r => !d.svrOn p r && !d.svrDraining p r
  | .recRing r => !d.ringOn p r

/-- The configuration of port `p`'s rings is refused, and nothing else changes (R254). -/
def CfgInvalid (d d' : Dev) (p : Port) : Prop :=
  d'.flag F.HIF_ERR_cfg_invalid p.id = true ∧ KeepsOthers .HIF_ERR p.id d d' ∧ Keeps [] [.HIF_ERR] d d'

/-- What the loss of a port may change. -/
def lossRegs : List RegName :=
  .HIF_PORT_STATUS :: .HIF_CPR_STATUS :: .HIF_SVR_STATUS :: .HIF_ASR_STATUS :: .CMX_MRST :: evRegs ++ poolRegs

/-- Port `p` has been lost (R303, R304): it polls no more, no read of it is outstanding, its items that have not latched are
withdrawn, an action that needs the host is abandoned, and nothing waits for it. -/
def PortGone (d d' : Dev) (p : Port) : Prop :=
  d'.lost p = true ∧ d'.rd F.HIF_LOSS_losses p.id = min (d.rd F.HIF_LOSS_losses p.id + 1) 255
  ∧ d'.flag F.HIF_PORT_STATUS_active p.id = false ∧ (d'.port p).reading = false ∧ (d'.port p).sweepDue = false
  ∧ (d'.port p).probing = false ∧ (d'.port p).cctReads = []
  ∧ (∀ r, r < 16 → ∀ it, it ∈ (d'.ring p r).items → it.unlatched = false ∧ (it.phase = .acting → d.needsHost p r it = false))
  ∧ NoneHeld d' p ∧ (d'.rr p .asr).heldAsr = []
  ∧ Keeps (.svr :: .order :: .cmx :: evAreas) lossRegs d d'

/-- The parts and the registers that entering the clock safe state may change where the ports have a common reference clock. -/
def safeAreas : List Area := .clk :: evAreas
def safeRegs : List RegName := .CLK_STATUS :: .CLK_SAFE :: .CLK_ERR :: evRegs

/-- The clock safe state is entered on trigger `code` (R446, R447): the lanes are high-impedance, the clock outputs and DIAGCLK
undriven, the lock pins released, the safety logic runs on FIO, and ports in separate-reference-clock operation are lost. Beside it
`as` and `rs` may change. -/
def EntersSafe (d d' : Dev) (code : Nat) (as : List Area := []) (rs : List RegName := []) : Prop :=
  d'.flag F.CLK_STATUS_safe = true ∧ d'.rd F.CLK_SAFE_trigger = code ∧ d'.flag F.CLK_ERR_safe_entered = true
  ∧ d'.rd F.CLK_SAFE_count = satAdd F.CLK_SAFE_count.width (d.rd F.CLK_SAFE_count) 1
  ∧ d'.flag F.CLK_STATUS_ctl_on_fio = true ∧ d'.clk.triggers.contains code = true ∧ d'.clk.safeAt = d.now
  ∧ (∀ n, n < 384 → d.lnState n ≠ 0 → Emission.lane n .hiZ ∈ d'.emitted) ∧ d'.lanes = d.lanes
  ∧ (∀ c, c < 8 → Tbl.get none d'.clk.cko c = none) ∧ d'.clk.diag = none
  ∧ (∀ p : Plane, d'.clk.pins.pl p = none) ∧ Emission.lockPins true ∈ d'.emitted
  ∧ (d.flag F.GLB_START_laneref = true → ∀ p : Port, d'.lost p = true ∧ d'.flag F.HIF_PORT_STATUS_link_up p.id = false)
  ∧ (d.flag F.GLB_START_laneref = true →
      Keeps (as ++ .clk :: .svr :: .order :: .cmx :: evAreas) (rs ++ .CLK_STATUS :: .CLK_SAFE :: .CLK_ERR :: lossRegs) d d')
  ∧ (d.flag F.GLB_START_laneref = false → Keeps (as ++ safeAreas) (rs ++ safeRegs) d d')

/-- A trigger in the safe state is counted and noted, and changes nothing else (R447). -/
def CountsTrigger (d d' : Dev) (code : Nat) (as : List Area := []) (rs : List RegName := []) : Prop :=
  d'.rd F.CLK_SAFE_count = satAdd F.CLK_SAFE_count.width (d.rd F.CLK_SAFE_count) 1
  ∧ d'.rd F.CLK_SAFE_trigger = d.rd F.CLK_SAFE_trigger ∧ d'.clk = { d.clk with triggers := setInsert code d.clk.triggers }
  ∧ Keeps (as ++ [.clk]) (rs ++ [.CLK_SAFE]) d d'

/-- XA fails (R430, R435, R446): the locked lane synthesizers that run on it coast; without a lane-fit XB it is trigger 1. -/
def XaFails (d d' : Dev) : Prop :=
  d'.xaOk = false ∧ d'.clk.xaFailed = true ∧ d'.flag F.CLK_ERR_xa_fail = true ∧ d'.clk.xaFrom = d.now
  ∧ (∀ p, d'.lsState p = if d.lsOnXb p = false ∧ d.lsState p = 1 then 2 else d.lsState p)
  ∧ (d.xbFit = true ∨ d.xaOk = false → d'.flag F.CLK_STATUS_safe = d.flag F.CLK_STATUS_safe
      ∧ Keeps (.clk :: evAreas) (.CLK_STATUS :: .CLK_ERR :: evRegs) d d')
  ∧ (d.xbFit = false → d.xaOk = true → d.flag F.CLK_STATUS_safe = false → EntersSafe d d' 1)

/-- XB is disqualified (R432, R433, R435): it is neither qualified nor lane-fit, both control values return by its offset,
and the locked lane synthesizers that run on it coast. -/
def XbOut (d d' : Dev) : Prop :=
  d'.xbOk = false ∧ d'.xbFit = false ∧ d'.flag F.CLK_ERR_xb_disq = true ∧ d'.rd F.CLK_XB_STATUS_passed = 0
  ∧ (∀ p, (d'.tb p).ctl = (d.tb p).ctl + 1000000 * d.clk.xbOffset ∧ (d'.tb p).epoch = (d.tb p).epoch)
  ∧ (∀ p, d'.lsState p = if d.lsOnXb p = true ∧ d.lsState p = 1 then 2 else d.lsState p)
  ∧ Keeps (.clk :: .tim :: evAreas) (.CLK_STATUS :: .CLK_ERR :: .CLK_XB_STATUS :: evRegs) d d'

/-- It is the turn of transaction `x` at a target, with a segment of `n` bytes, 16 beats or what is left (R457). -/
abbrev Turn (d : Dev) (target : Nat) (x : Txn) (n : Nat) : Prop :=
  d.cmxNext target = some x ∧ n = min 16 x.beats * beatBytes x.master

/-- A segment response of the Control Matrix. -/
def Emission.isResp : Emission → Bool
  | .cmxResp .. => true
  | _ => false

/-- A target has served a segment of `n` bytes of transaction `x` with status `st` (R457, R459, R461, R463, R467): the response
goes out, unless the master has been reset; the last segment ends the transaction, lets the one chained to it go on, and completes
a host's read; what is left of a longer one waits for its next turn; no other transaction changes. -/
def Responds (d d' : Dev) (target : Nat) (x : Txn) (n st : Nat) (data : List Byte) : Prop :=
  (x.dead = false → Emission.cmxResp x.master x.tag x.seg (respCode st) data ∈ d'.emitted)
  ∧ (x.dead = true → ∀ e, e ∈ d'.emitted → e.isResp = true → e ∈ d.emitted)
  ∧ (x.beats ≤ 16 → d'.cmx.txns =
      (d.cmx.txns.filter (fun y => !(y.master == x.master && y.tag == x.tag))).map (fun y =>
        if y.master = x.master ∧ y.after = some x.tag then { y with after := none } else y))
  ∧ (16 < x.beats →
      { x with beats := x.beats - 16, addr := x.addr + n, seg := x.seg + 1, data := x.data.drop n, strobes := x.strobes.drop n
               counted := x.counted || st == 2, worst := max x.worst st } ∈ d'.cmx.txns
      ∧ ∀ y, y ∈ d.cmx.txns → y ≠ x → y ∈ d'.cmx.txns)
  ∧ (x.beats ≤ 16 → x.dead = false → x.write = false → ∀ p, inboundPort x.master = some p →
      Emission.hostCompletion p x.tag ([0, 4, 1].getD (max x.worst st) 1) ∈ d'.emitted)
  ∧ d'.cmx = { d.cmx with txns := d'.cmx.txns, last := d'.cmx.last } ∧ Tbl.get 0 d'.cmx.last target = (x.master + 1) % 11

/-- The page of a command with the old bytes `old`, its new bytes merged in; a refresh writes the old ones again (R473, R474,
R492). -/
def LdrCmd.merged (c : LdrCmd) (old : List Byte) : List Byte :=
  let off := c.addr % 256
  if c.what = 5 then old else old.take off ++ c.data.take (256 - off) ++ old.drop (off + min (256 - off) c.data.length)

/-- After a page write commands `q` wait: the array, which holds `m`, rests where there is none, else the next page write begins for
the class whose turn it is (R473, R475). -/
def ServesNext (d d' : Dev) (m : Memory) (q : List LdrCmd) : Prop :=
  d'.ldr.queue = q
  ∧ (({ d.ldr with queue := q } : LarderUnit).nextCmd = none → d'.ldr.page = none ∧ d'.flag F.LDR_STATUS_busy = false)
  ∧ (∀ c, ({ d.ldr with queue := q } : LarderUnit).nextCmd = some c →
      d'.ldr.page = some (c.addr / 256) ∧ d'.ldr.cur = c.cls ∧ d'.flag F.LDR_STATUS_busy = true
      ∧ d'.ldr.lastCls = (if c.cls = 3 then d.ldr.lastCls else c.cls) ∧ d'.rd F.LDR_STATUS_page = c.addr / 256 % 16384
      ∧ d'.rd F.LDR_STATUS_class = c.cls % 4
      ∧ (d'.ldr.torn = [] → d'.ldr.image = c.merged (Memory.readN 0xFF#8 m (256 * (c.addr / 256)) 256)))

/-- The page under write, `pg`, belongs to command `c`, the first of its class; no reset lets it finish (R475). -/
abbrev Writing (d : Dev) (pg : Nat) (c : LdrCmd) : Prop :=
  d.ldr.page = some pg ∧ d.ldr.ending = false ∧ d.ldr.queue.find? (fun q => q.cls == d.ldr.cur) = some c

/-- The array holds the page under write as programmed, and every other page as before (R473). -/
def Programmed (d : Dev) (m m' : Mems) (pg : Nat) : Prop :=
  (∀ a, Memory.read 0xFF#8 m'.larder a
    = if a / 256 = pg then (fit 256 d.ldr.image).getD (a % 256) 0#8 else Memory.read 0xFF#8 m.larder a)
  ∧ m'.hamper = m.hamper ∧ m'.sram = m.sram

/-- The queue without the command in service. -/
def Dev.ldrRest (d : Dev) : List LdrCmd := d.ldr.queue.eraseP fun q => q.cls == d.ldr.cur

/-- Start-up has begun at this instant with straps `v` and has read the Larder, as far as no Larder content bears on it (R470, R500,
R521, R523, R542). -/
def Boots (d d' : Dev) (v : Nat) : Prop :=
  d'.start.booted = true ∧ d'.start.bootDue = false ∧ d'.start.t0 = d.now ∧ d'.now = d.now
  ∧ d'.rd F.GLB_START_xadly = v % 8 ∧ d'.flag F.GLB_START_hostpri = bitOf v 3 ∧ d'.flag F.GLB_START_boothold = bitOf v 4
  ∧ d'.flag F.GLB_START_laneref = bitOf v 5 ∧ d'.rd F.GLB_START_phase = (if d.xaOk then 2 else 1)
  ∧ (d'.plane .a).training = true ∧ (d'.plane .b).training = true ∧ d'.flag F.KEY_STATUS_drbg_ok = true
  ∧ d'.flag F.CMX_CTRL_remap = true ∧ (∀ c, c < 4 → d'.rd F.CMX_RMB_STATUS_state c = 2)

/-- The parts that start-up from an erased Larder changes, and the registers. -/
def bootAreas : List Area := [.start, .ports, .key, .ldr, .planes]
def bootRegs : List RegName := [.GLB_SUPPLY, .GLB_START, .HIF_PORT_STATUS, .CMX_RMB_STATUS, .CMX_CTRL, .KEY_STATUS]

/-- The device has been reset, its memories with it: the Larder stays, and so do the supply monitors, the straps as last sampled, the
state of the ports' pins, and what the TAP and the SMBus target hold (R14, R542, R546 to R550). -/
def IsReset (m m' : Mems) (d d' : Dev) : Prop :=
  m'.larder = m.larder ∧ m'.hamper = ⟨[], []⟩ ∧ m'.sram = [] ∧ d'.now = d.now ∧ d'.start.booted = false
  ∧ d'.rd F.GLB_START_xadly = d.rd F.GLB_START_xadly ∧ d'.flag F.GLB_START_boothold = d.flag F.GLB_START_boothold
  ∧ d'.flag F.GLB_START_hostpri = d.flag F.GLB_START_hostpri ∧ d'.flag F.GLB_START_laneref = d.flag F.GLB_START_laneref
  ∧ (∀ (r : RegName) (i : Nat), r ∉ [RegName.GLB_SUPPLY, .LDR_STATUS, .HIF_PORT_STATUS, .GLB_START] → d'.reg r i = r.reset i)
  ∧ d'.rd F.GLB_START_phase = 0 ∧ d'.lanes = [] ∧ d'.outs = [] ∧ d'.ins = [] ∧ d'.svr = [] ∧ d'.recs = [] ∧ d'.ev = {}
  ∧ d'.clk = {} ∧ d'.tim = {} ∧ d'.planes = ⟨{}, {}⟩ ∧ d'.cmx = {} ∧ d'.start.railOut = d.start.railOut
  ∧ d'.start.tap = d.start.tap ∧ d'.start.boundary = d.start.boundary ∧ d'.start.smbBytes = d.start.smbBytes
  ∧ (∀ n, n < 384 → d.lnState n ≠ 0 → Emission.lane n .hiZ ∈ d'.emitted)
  ∧ (∀ c, c < 8 → (Tbl.get none d.clk.cko c).isSome = true → Emission.cko c none ∈ d'.emitted)
  ∧ (d.clk.diag.isSome = true → Emission.diagclk none ∈ d'.emitted)
  ∧ Emission.lockPins true ∈ d'.emitted ∧ Emission.alert false ∈ d'.emitted
  ∧ Emission.gpio (List.replicate 16 none) 0#32 ∈ d'.emitted

/-- A rail has been outside its window for the 48 us after the 2 us at which its departure counts: a brown-out (R522, log 31). -/
abbrev BrownsOut (d : Dev) (rail : Nat) : Prop :=
  d.start.supplied = true ∧ rail ∈ d.start.railOut ∧ Tbl.get 0 d.start.railAt rail + 48 * usU ≤ d.now

/-- Step 9 applies the shadow of the journal now (R523, R525). -/
abbrev Restores (d : Dev) : Prop :=
  d.rd F.GLB_START_phase = 2 ∧ (d.plane .a).training = false ∧ (d.plane .b).training = false
  ∧ d.flag F.GLB_START_boothold = false

/-- A reading of `tj` shows in GLB_THERM whole, and counts how long Tj stays below 95 and 105 degrees, and above 100 (R486, R531,
R537): with actions `al`, `st` and `sf` of Table 17-5 in force after it. -/
def Heated (d d' : Dev) (tj : Nat) (al st sf : Bool) : Prop :=
  d'.rd F.GLB_THERM_tj = min 255 tj ∧ d'.rd F.GLB_THERM_tj_max = max (min 255 tj) (d.rd F.GLB_THERM_tj_max)
  ∧ d'.rd F.GLB_THERM_step = (if sf then 3 else if st then 2 else if al then 1 else 0)
  ∧ d'.start.therm.alert = al ∧ d'.start.therm.step = st ∧ d'.start.therm.safe = sf ∧ d'.start.therm.at' = d.now
  ∧ d'.start.therm.below95 = (if tj < 95 then some (d.start.therm.below95.getD d.now) else none)
  ∧ d'.start.therm.below105 = (if tj < 105 then some (d.start.therm.below105.getD d.now) else none)
  ∧ d'.start = { d.start with therm := d'.start.therm }
  ∧ d'.ldr.hot = (d.ldr.hot + if 100 < d.rd F.GLB_THERM_tj then d.now - d.start.therm.at' else 0) % (3600 * secU)

/-- Since `a` the monitored condition has held for `n` u. -/
abbrev HeldFor (d : Dev) (n : Nat) (a : Option Nat) : Prop := ∃ x, a = some x ∧ x + n ≤ d.now

/-- The monitor of XB measures now: a window of 100 ms is over, XB is fitted, and `b`, input `x` where it is a reference, is the
basis (R431). -/
abbrev Measures (d : Dev) (b x : Nat) : Prop :=
  d.clk.xbWinAt + 100 * msU ≤ d.now ∧ d.flag F.CLK_XB_CFG_fitted = true ∧ d.xbBasis = (b, x) ∧ b ≠ 0

/-- What a window of XB shows in CLK_XB_STATUS: its basis, its offset, and the windows passed in a row (R431). -/
def Shows (d d' : Dev) (b x : Nat) (off : Int) (k : Nat) : Prop :=
  d'.rd F.CLK_XB_STATUS_basis = b % 4 ∧ d'.rd F.CLK_XB_STATUS_input = x % 8 ∧ d'.rd F.CLK_XB_STATUS_passed = k
  ∧ d'.rd F.CLK_XB_STATUS_offset = ofInt 24 (max (-8388608) (min 8388607 off)) ∧ d'.clk.xbWinAt = d.now

/-- The width in u of a PULSE output whose period is den / num seconds (R443): div x 100 ns, or half the period where that is not
shorter than the period. -/
abbrev pulseWidth (num den div : Nat) : Nat := if den * secU ≤ div * 100 * nsU * num then den * secU / (2 * num) else div * 100 * nsU

/-- Clock output `c` is driven as `cfg` and `div` say (R443): its mode, its source, a synthesizer of the lead's plane for sources
6 and 7, and its divider of 2 or more, each cycle high for half of it rounded up; as a PULSE output with an edge at each epoch
second or frame start of a class; undriven with mode 0 and in the safe state; at its idle level for a source that it lacks, for
XB while it is not qualified, and for a class that is not enabled (log 72). -/
def Drives (d d' : Dev) (c cfg div : Nat) : Prop :=
  let src := cfg / 4 % 16
  let z := Tbl.get none d'.clk.cko c
  (cfg % 4 = 0 ∨ d.flag F.CLK_STATUS_safe = true → z = none)
  ∧ (cfg % 4 ≠ 0 → d.flag F.CLK_STATUS_safe = false →
      (src < 8 → ∃ i, z = some { mode := cfg % 4, idle := i, src := if src < 6 then src else 2 * d.lead.id + (src - 6)
                                 div := max 2 div, high := (max 2 div + 1) / 2 })
      ∧ (src = 8 → z = some { mode := cfg % 4, idle := !d.xbOk, src := 8, div := 0 })
      ∧ (src = 9 → bitOf cfg 6 = false →
          z = some { mode := cfg % 4, src := 9, pulse := some { cls := none, falling := bitOf cfg 11, width := pulseWidth 1 1 div } })
      ∧ (src = 9 → bitOf cfg 6 = true →
          let n := bits cfg 10 7
          z = some { mode := cfg % 4, idle := !d.clsOn n, src := 9
                     pulse := some { cls := some n, falling := bitOf cfg 11
                                     width := pulseWidth (rateNum (d.clsRate n)) (rateDen (d.clsRate n)) div } })
      ∧ (10 ≤ src → z = some { mode := cfg % 4, idle := true, src := src, div := 0 }))
  ∧ ∀ k, k ≠ c → Tbl.get none d'.clk.cko k = Tbl.get none d.clk.cko k ∧ Tbl.get 0 d'.clk.ckoCfg k = Tbl.get 0 d.clk.ckoCfg k

/-- Input `f` may be followed in place of `x`: it is qualified and not lost (R62). -/
abbrev Usable (d : Dev) (x f : Nat) : Prop := f < 5 ∧ d.qualified f = true ∧ d.refLost f = false ∧ f ≠ x

/-- What the lead's DPLL has done in `d'` about the loss of input `x` (R62, R86): nothing where it does not follow `x` or has
failed; else it follows its usable fall-back by SWITCHING, or none, and then coasts in BECALMED, or runs free where no
input has been selected since reset. -/
def FallsBack (d d' : Dev) (x : Nat) : Prop :=
  let f := selIndex (d.rd F.TB_DPLL_SEL_fallback d.lead.id)
  d'.lead = d.lead ∧ d'.tbState d.lead.other = d.tbState d.lead.other
  ∧ (d.rd F.TB_STATUS_sel ≠ x ∨ d.leadUp = false →
      d'.rd F.TB_STATUS_sel = d.rd F.TB_STATUS_sel ∧ d'.tbState d.lead = d.tbState d.lead ∧ d'.tim.tb = d.tim.tb)
  ∧ (d.rd F.TB_STATUS_sel = x → d.leadUp = true → Usable d x f →
      d'.rd F.TB_STATUS_sel = f ∧ d'.tbState d.lead = 3 ∧ d'.tim.everSel = true)
  ∧ (d.rd F.TB_STATUS_sel = x → d.leadUp = true → ¬Usable d x f →
      d'.rd F.TB_STATUS_sel = 7 ∧ d'.tbState d.lead = (if d.tim.everSel then 4 else 0)
      ∧ (d'.tb .a).epoch = (d.tb .a).epoch ∧ (d'.tb .b).epoch = (d.tb .b).epoch)

/-- The parts that selecting an input may change: the timebases, the lock pins and clock outputs, what raises events, and,
by the start jump (R91, R92), rasters, salvos, inputs and channels. -/
def selAreas : List Area := .tim :: .clk :: .outs :: .svr :: .ins :: .planes :: evAreas

/-- The registers that selecting an input may change. -/
def selRegs : List RegName := .TB_STATUS :: .CLK_STATUS :: evRegs

/-- The priority manager may change the selection now: its last change lies a hold-off back (R75). -/
abbrev MaySelect (d : Dev) : Prop := d.tim.pmAt.all (fun a => decide (a + d.holdOff ≤ d.now)) = true

/-- The lead's DPLL follows input `x` in `d'`, the priority manager's choice: by SWITCHING (R81), with the best eligible input
but `x` that the manager sees designated as fall-back (R79). -/
def Chosen (d d' : Dev) (x : Nat) : Prop :=
  d'.rd F.TB_STATUS_sel = x ∧ d'.rd F.TB_DPLL_SEL_manual d.lead.id = x ∧ d'.tbState d.lead = 3 ∧ d'.lead = d.lead
  ∧ d'.tbState d.lead.other = d.tbState d.lead.other ∧ d'.tim.pmAt = some d.now
  ∧ d'.rd F.TB_STATUS_fallback = d.best (d'.tim.sees.filter fun y => y != x && d.eligible y)
  ∧ d'.rd F.TB_DPLL_SEL_fallback d.lead.id = d'.rd F.TB_STATUS_fallback
  ∧ (∀ y, d'.ref y = d.ref y)

/-- Words that arrive on pair `n` are taken: the clocks run, and the pair is neither OFF nor idle (R111, R129, R447). -/
abbrev Hears (d : Dev) (n : Nat) : Prop :=
  n < 384 ∧ d.flag F.CLK_STATUS_safe = false ∧ d.lnState n ≠ 0 ∧ d.flag F.LN_STATUS_rx_idle n = false

/-- Pair `n` is ACTIVE and receives: it is neither idle nor in ingress recovery (R120, R123). -/
abbrev Receiving (d : Dev) (n : Nat) : Prop :=
  n < 384 ∧ d.flag F.CLK_STATUS_safe = false ∧ d.lnState n = 6 ∧ d.flag F.LN_STATUS_rx_idle n = false
    ∧ d.flag F.LN_STATUS_rx_recover n = false

/-- Pair `n` has entered ingress recovery (R120). -/
def Recovers (d d' : Dev) (n : Nat) : Prop :=
  d'.lnState n = 6 ∧ d'.flag F.LN_STATUS_rx_recover n = true ∧ d'.flag F.LN_STATUS_rx_aligned n = false
  ∧ d'.flag F.LN_ERR_rx_lost n = true ∧ d'.rd F.LN_STATUS_slips n = 0 ∧ d'.flag F.LN_COMMA_window_valid n = false
  ∧ (d'.lane n).recFrom = d.now ∧ OtherLanes n d d'

/-- The pair has failed with a cause code of Table 3-5 (R111). -/
def Fails (d d' : Dev) (n cause : Nat) : Prop :=
  d'.lnState n = 7 ∧ d'.rd F.LN_STATUS_fail_cause n = cause ∧ d'.flag F.LN_ERR_bringup_fail n = true
  ∧ d'.rd F.LN_STATUS_fail_count n = min (d.rd F.LN_STATUS_fail_count n + 1) 255
  ∧ d'.flag F.LN_STATUS_rx_recover n = false ∧ d'.flag F.LN_STATUS_rx_aligned n = false ∧ OtherLanes n d d'
  ∧ Keeps (.lanes :: evAreas) (.LN_STATUS :: .LN_ERR :: .LN_BRZ_STATUS :: .LN_CNT_CODE :: .LN_COMMA :: evRegs) d d'

/-- Pair `n` takes Breeze messages: its ingress is open, and Breeze runs on it (R169, R171). -/
abbrev TakesBreeze (d : Dev) (n : Nat) : Prop :=
  n < 384 ∧ d.flag F.CLK_STATUS_safe = false ∧ d.rxOpen n = true ∧ d.brzOn n = true

/-- Pair `n` may send Breeze messages: Breeze runs on it, and its egress is awake (R169, R174). -/
abbrev SendsBreeze (d : Dev) (n : Nat) : Prop :=
  n < 384 ∧ d.flag F.CLK_STATUS_safe = false ∧ d.brzOn n = true ∧ d.flag F.LN_STATUS_tx_idle n = false

/-- A parcel of words `hdr` and `body` that names position `p` arrives on pair `n`, whose ingress is open; `h` is its header
(R106, R144). -/
abbrev ParcelIn (d : Dev) (n p : Nat) (pos : List Nat) (hdr h : List Byte) : Prop :=
  n < 384 ∧ d.flag F.CLK_STATUS_safe = false ∧ d.rxOpen n = true ∧ posOf pos = some p ∧ h = fit 16 hdr

/-- Words on pair `n` that are no WT2 and no SKP change no more of it than this; no other pair changes. -/
def HeardSet (d d' : Dev) (n : Nat) : Prop :=
  d'.lane n = { d.lane n with noSignal := false, run21 := 0, restartRun := 0, seqPrev := (d'.lane n).seqPrev
                              winErr := (d'.lane n).winErr }
  ∧ OtherLanes n d d'

/-- What every message that is received with number `seq` and release count `release` does (R172, R173): the missing numbers
before it and `k` more are released, and it releases the device's own; queued messages may then leave. -/
def Numbered (d d' : Dev) (n release seq k : Nat) : Prop :=
  (d'.lane n).release = ((d.lane n).release + d.brzGap n seq + k) % 256 ∧ d'.rd F.LN_BRZ_STATUS_tx_release n = release % 256
  ∧ OtherLanes n d d' ∧ KeepsOthers .LN_BRZ_STATUS n d d' ∧ KeepsOthers .LN_BRZ_CNT n d d'
  ∧ ((d.lane n).queue = [] → d'.rd F.LN_BRZ_STATUS_tx_seq n = d.rd F.LN_BRZ_STATUS_tx_seq n)

/-- Message `(ty, payload)` has left on Breeze with the next number and a credit, and carries every release so far (R170 to
R172, R174). -/
def SentBreeze (d d' : Dev) (n ty : Nat) (payload : List Byte) : Prop :=
  d'.emitted = Emission.breeze n (brzMsg ty (d.rd F.LN_BRZ_STATUS_tx_seq n) (d.lane n).release payload) :: d.emitted
  ∧ d'.rd F.LN_BRZ_STATUS_tx_seq n = (d.rd F.LN_BRZ_STATUS_tx_seq n + 1) % 256 ∧ d'.brzLeft n + 1 = d.brzLeft n
  ∧ d'.lane n = { d.lane n with relDue := false, busyAt := d.now } ∧ OtherLanes n d d' ∧ KeepsOthers .LN_BRZ_STATUS n d d'
  ∧ Keeps [.lanes, .emitted] [.LN_BRZ_STATUS] d d'

/-- The registers that entering a lane state may change. -/
def laneRegs : List RegName := .LN_STATUS :: .LN_BRZ_STATUS :: evRegs

/-- The registers a write to which brings about more than its access codes say: each has a command of its own
(REGISTER_WRITE's summary), or is part of another command's register. -/
def commandRegs : List RegName :=
  [.TB_CTRL, .TB_PM_FORCE, .TB_DPLL_SEL, .TB_REFV_CFG, .TB_CLASS, .TB_SNAP_CTRL, .LN_OCT_CTRL, .LN_CTRL, .HIF_PORT_CTRL,
    .HIF_FOLD_BASE_LO, .HIF_FOLD_BASE_HI, .HIF_CCT_BASE_LO, .LX_CTRL, .PL_CTRL, .GE_ENG_DIS_LO, .GE_ENG_DIS_HI, .CLK_CTRL,
    .CLK_SYN_N, .CLK_SYN_FRAC, .CLK_SYN_MOD, .CLK_CKO_CFG, .CLK_CKO_DIV, .GLB_CLKEN0, .GLB_CLKEN1, .HIF_SVR_BASE_LO,
    .HIF_SVR_BASE_HI, .HIF_SVR_CFG, .HIF_CPR_BASE_LO, .HIF_CPR_BASE_HI, .HIF_CPR_CFG, .HIF_EVR_BASE_LO, .HIF_EVR_BASE_HI,
    .HIF_EVR_CFG, .HIF_ASR_BASE_LO, .HIF_ASR_BASE_HI, .HIF_ASR_CFG, .TB_PRIO, .LN_TX_CTRL, .CLK_DIAG, .CLK_LOCK_CFG,
    .GLB_GPIO_DIR, .GLB_GPIO_OUT, .GLB_GPIO_PULL]

end Sys2Proof.Machine
end

