-- ==== Sys2Proof/Certificates/Slice0/Obligations.lean ====
section
/-! DEFINITION. The statements for the provers: what the machine and each command do, by the spec's rules. In every clause
`d` is the device as time has brought it to the command's instant (`State.on`), or after the salvo entries due by then have
landed (`Dev.landDue`); `Runs` says that the command answers a next state, which keeps the queue and the memories, and
whose device the clause describes; `Keeps` says what it leaves unchanged. That a command whose occasion does not stand
changes nothing but time (`OnlyTime`) is the model's choice (log 3), and so is the instant that a command carries (log 2). -/

open Sys2Proof Sys2Proof.Machine

/-! ### The machine -/

/-- A step runs the command at the front of the queue with the queue's rest, and an empty queue idles (log 1). -/
def Obligations.StepTakesFront : Prop :=
  (∀ (c : Instr) (rest : List Instr) (s : State), step { s with pending := c :: rest } = exec c { s with pending := rest })
  ∧ (∀ s : State, s.pending = [] → step s = .next s)

/-- What reset leaves (R14): every register at the reset value of its table, no lane, output or ring with any
content, nothing listed in any memory, no command waiting; the Larder reads erased. The reset values the spec does
not state, and what an unlisted byte reads as, are the model's (log 4). -/
def Obligations.ResetState : Prop :=
  State.reset.pending = [] ∧ (∀ (r : RegName) (i : Nat), State.reset.dev.reg r i = r.reset i)
  ∧ (∀ a, Memory.read 0xFF#8 State.reset.mem.larder a = 0xFF#8)
  ∧ (∀ n, State.reset.dev.lane n = {} ∧ State.reset.dev.out n = {} ∧ State.reset.dev.inp n = {})
  ∧ (∀ (p : Port) (r : Nat), State.reset.dev.ring p r = {}) ∧ State.reset.dev.emitted = []
  ∧ (∀ p : Plane, State.reset.dev.plState p = 0 ∧ State.reset.dev.tbState p = 0)

/-- The memories are canonical at reset. -/
def Obligations.ResetInv : Prop := State.reset.Inv ∧ State.reset.queueWf = true

/-- Every step keeps the canonical form of the four addressed memories, from every state that has it. -/
def Obligations.StepKeepsMemories : Prop :=
  ∀ s s' : State, s.Inv → step s = .next s' → s'.Inv

/-- A command stops exactly where it names an element that the device does not have (R2 to R6, R253, R254); every
other command runs from every state.

A step never puts a command into the queue, and never runs one past the front: the queue after it is the queue's
rest. That a command carries its instant, and the queue, are the model's choice (log 1 and 2). -/
def Obligations.Outcomes : Prop :=
  (∀ (c : Instr) (s : State), c.wf = false → exec c s = .fault .noSuchElement)
  ∧ (∀ (c : Instr) (s : State), c.wf = true → ∃ s', exec c s = .next s' ∧ s'.pending = s.pending)
  ∧ ∀ s s' : State, step s = .next s' → s'.pending = s.pending.drop 1

/-- Time passes by a command's instant and never goes back; the device clock, the epoch counters and the slews move with it,
and the SKP words that have fallen due leave (R39, R41, R87, R108, R447). A counter stands before it has been set running, in the
safe state, and while its plane has no clocks. That a command carries its instant, how slews are apportioned, and when an
SKP leaves within R108's bounds are the model's choices (log 2, 12 and 43). -/
def Obligations.TimePasses : Prop :=
  (∀ (s : State) (t : Nat), (s.on t).now = max s.dev.now t
    ∧ Keeps [.tim, .lanes, .emitted] [] { s.dev with now := max s.dev.now t } (s.on t)
    ∧ (∀ n, (s.on t).lane n = { s.dev.lane n with skps := ((s.on t).lane n).skps })
    ∧ ∃ l, (s.on t).emitted = l ++ s.dev.emitted ∧ ∀ e ∈ l, ∃ n k, e = Emission.lane n (.skp k))
  ∧ (∀ (s : State) (t : Nat), s.dev.tim.running = false ∨ s.dev.flag F.CLK_STATUS_safe = true → (s.on t).tim = s.dev.tim)
  ∧ (∀ (s : State) (t : Nat) (p : Plane), s.dev.tim.running = true → s.dev.flag F.CLK_STATUS_safe = false →
      s.dev.tim.timeSlew = 0 → s.dev.realigning = false →
      ((s.on t).tb p).epoch = (s.dev.tb p).epoch + (if s.dev.clocksStopped p then 0 else t - s.dev.now)
      ∧ ((s.on t).tb p).buildout = (s.dev.tb p).buildout)

/-- Who changes the addressed memories: only a finished page write and a brown-out change the Larder (R473, R481);
only a stored line, HAMPER_WRITE, a plane's restart, a write by the Control Matrix and a reset change a plane's
stack (R331, R337, R300, R454, R546); only the Control Matrix, a reset, and start-up's copying of the ROM image change the
working SRAM (R454, R470, R546): start-up begins at the supplies, a reset's release, or the page write it waits for. -/
def Obligations.MemoriesHeld : Prop :=
  ∀ (c : Instr) (s s' : State), exec c s = .next s' → (∀ t held stage, c ≠ .brownOut t held stage) →
    ((∀ t verify, c ≠ .larderPageWriteDone t verify) → s'.mem.larder = s.mem.larder)
    ∧ ((∀ t target, c ≠ .cmxSegment t target) → (∀ t low, c ≠ .resetAssert t low) →
        (∀ t straps, c ≠ .suppliesValid t straps) → (∀ t straps, c ≠ .resetRelease t straps) →
        (∀ t verify, c ≠ .larderPageWriteDone t verify) → s'.mem.sram = s.mem.sram)
    ∧ ((∀ t target, c ≠ .cmxSegment t target) → (∀ t low, c ≠ .resetAssert t low) →
        (∀ t p slot, c ≠ .hamperIngest t p slot) →
        (∀ t p r data, c ≠ .hamperWrite t p r data) → (∀ t p off val, c ≠ .registerWrite t p off val) →
        (∀ t p, c ≠ .plRestartReq t p) → (∀ t p, c ≠ .planeAutoRestart t p) → s'.mem.hamper = s.mem.hamper)
/-! ### Timebases and references (chapter 2) -/

/-- Losing an input (R57, R60, R61, R62, R70): a lost REFIN or REFV is lost, no longer qualified, and disqualified; where
the lead follows it, it takes its usable fall-back by SWITCHING, else it goes BECALMED; clearing REFV's enable makes it
absent and acts on the lead as its loss; a lost PPSIN is noted, and the REFIN it lends phase to bears time no longer.

Where the loss's start jump is open and the fall-back bears time, the jump follows (R91). -/
def Obligations.InputLosses : Prop :=
  (∀ (s : State) (t x src : Nat) (d : Dev), d = s.on t → x < 4 → d.refLost x = false →
    Runs (.refinLost t x src) s fun d' =>
      d'.refLost x = true ∧ d'.qualified x = false
      ∧ d'.ref x = { d.ref x with qual := 3, run := 0, outRun := 0, avgs := [], since := d.now }
      ∧ (∀ y, y ≠ x → d'.ref y = d.ref y ∧ d'.refLost y = d.refLost y ∧ d'.qualified y = d.qualified y)
      ∧ FallsBack d d' x ∧ d'.clk.refAtSafe = d.clk.refAtSafe.filter (· != x)
      ∧ (d.rd F.TB_STATUS_sel ≠ x ∨ d.leadUp = false → Keeps (.tim :: .clk :: evAreas) (.TB_STATUS :: evRegs) d d')
      ∧ Keeps selAreas selRegs d d')
  ∧ (∀ (s : State) (t src : Nat) (d : Dev), d = s.on t → d.flag F.TB_REFV_CFG_enable = true → d.refLost 4 = false →
      d.tim.refvFrom + 3 * secU ≤ d.now →
      Runs (.refvLost t src) s fun d' =>
        d'.refLost 4 = true ∧ d'.qualified 4 = false
        ∧ d'.ref 4 = { d.ref 4 with qual := 3, run := 0, outRun := 0, avgs := [], since := d.now }
        ∧ (∀ y, y ≠ 4 → d'.ref y = d.ref y ∧ d'.refLost y = d.refLost y ∧ d'.qualified y = d.qualified y)
        ∧ FallsBack d d' 4
        ∧ (d.rd F.TB_STATUS_sel ≠ 4 ∨ d.leadUp = false → Keeps (.tim :: .clk :: evAreas) (.TB_STATUS :: evRegs) d d')
        ∧ Keeps selAreas selRegs d d')
  ∧ (∀ (s : State) (t src : Nat) (d : Dev), d = s.on t → d.flag F.TB_REFV_CFG_enable = true →
      Runs (.refvEnableWrite t false src) s fun d' =>
        d'.flag F.TB_REFV_CFG_enable = false ∧ d'.qualified 4 = false ∧ d'.refLost 4 = false
        ∧ d'.ref 4 = { d.ref 4 with qual := 0, run := 0, outRun := 0, avgs := [], since := d.now }
        ∧ (∀ y, y ≠ 4 → d'.ref y = d.ref y ∧ d'.refLost y = d.refLost y ∧ d'.qualified y = d.qualified y)
        ∧ FallsBack d d' 4
        ∧ (d.rd F.TB_STATUS_sel ≠ 4 ∨ d.leadUp = false →
            d'.tim.refvOff = none ∧ Keeps [.tim, .ev, .ldr] [.TB_REFV_CFG, .TB_STATUS] d d')
        ∧ Keeps selAreas (.TB_REFV_CFG :: selRegs) d d')
  ∧ (∀ (s : State) (t x : Nat) (d : Dev), d = s.on t → d.tim.ppsLost = false → x < 4 → d.ppsPairs x = true →
      Runs (.ppsinLost t) s fun d' =>
        d'.tim = { d.tim with ppsLost := true } ∧ d'.timeBearing x = false ∧ d'.qualified x = d.qualified x
        ∧ d'.refLost x = d.refLost x ∧ Keeps (.tim :: evAreas) evRegs d d')

/-- An input comes back and qualifies (R60, R61, R67, R68, R69, R70): returned edges make a lost input qualifying; a
write enables REFV; a sample beyond the hard window of the average is an outlier, three in a row disqualify, and any
other sample joins the last 16, whose mean decides: sixteen in a row within the window qualify, and a mean that leaves
the window disqualifies.

That a sample is accepted while the average is empty, and that a mean is rounded down, are the model's choices (log 42
and 15). -/
def Obligations.InputReturns : Prop :=
  (∀ (s : State) (t x : Nat) (d : Dev), d = s.on t → x < 4 → d.refLost x = true ∨ (d.ref x).qual = 0 →
    Runs (.refinEdgesReturn t x) s fun d' =>
      d'.refLost x = false ∧ d'.qualified x = d.qualified x
      ∧ d'.ref x = { d.ref x with qual := 1, run := 0, outRun := 0, since := d.now }
      ∧ (∀ y, y ≠ x → d'.ref y = d.ref y ∧ d'.refLost y = d.refLost y ∧ d'.qualified y = d.qualified y)
      ∧ d'.rd F.TB_STATUS_sel = d.rd F.TB_STATUS_sel ∧ Keeps [.tim, .ev] [.TB_STATUS] d d')
  ∧ (∀ (s : State) (t : Nat) (d : Dev), d = s.on t →
      Runs (.refinEdgesReturn t 5) s fun d' => d'.tim = { d.tim with ppsLost := false } ∧ Keeps [.tim] [] d d')
  ∧ (∀ (s : State) (t src : Nat) (d : Dev), d = s.on t → d.flag F.TB_REFV_CFG_enable = false →
      Runs (.refvEnableWrite t true src) s fun d' =>
        d'.flag F.TB_REFV_CFG_enable = true ∧ d'.tim.refvFrom = d.now
        ∧ d'.ref 4 = { d.ref 4 with qual := 1, run := 0, outRun := 0, samples := [], avgs := [], since := d.now }
        ∧ (∀ y, y ≠ 4 → d'.ref y = d.ref y) ∧ (∀ y, d'.refLost y = d.refLost y ∧ d'.qualified y = d.qualified y)
        ∧ d'.rd F.TB_STATUS_sel = d.rd F.TB_STATUS_sel ∧ Keeps [.tim, .ldr] [.TB_REFV_CFG, .TB_STATUS] d d')
  ∧ (∀ (s : State) (t x : Nat) (off : Int) (d : Dev), d = s.on t → x < 5 → d.refLost x = false →
      (x = 4 → d.flag F.TB_REFV_CFG_enable = true) → (d.ref x).samples ≠ [] →
      (off - (d.ref x).avg < -d.hardWin ∨ d.hardWin < off - (d.ref x).avg) →
      Runs (.qualSample t x off) s fun d' =>
        (d'.ref x).samples = (d.ref x).samples ∧ (d'.ref x).run = 0 ∧ (d'.ref x).outRun = (d.ref x).outRun + 1
        ∧ (d'.ref x).outliers = min ((d.ref x).outliers + 1) 65535
        ∧ d'.qualified x = (d.qualified x && decide ((d.ref x).outRun < 2)) ∧ (∀ y, y ≠ x → d'.ref y = d.ref y)
        ∧ d'.rd F.TB_STATUS_sel = d.rd F.TB_STATUS_sel ∧ Keeps (.tim :: evAreas) (.TB_STATUS :: evRegs) d d')
  ∧ (∀ (s : State) (t x : Nat) (off r : Int) (inside was : Bool) (d : Dev), d = s.on t → x < 5 → d.refLost x = false →
      (x = 4 → d.flag F.TB_REFV_CFG_enable = true) →
      (d.ref x).samples = [] ∨ (-d.hardWin ≤ off - (d.ref x).avg ∧ off - (d.ref x).avg ≤ d.hardWin) →
      r = mean 0 ((off :: (d.ref x).samples).take 16) → inside = decide (-d.hardWin ≤ r ∧ r ≤ d.hardWin) →
      was = decide ((d.ref x).samples ≠ [] ∧ -d.hardWin ≤ (d.ref x).avg ∧ (d.ref x).avg ≤ d.hardWin) →
      Runs (.qualSample t x off) s fun d' =>
        (d'.ref x).samples = (off :: (d.ref x).samples).take 16 ∧ (d'.ref x).run = (d.ref x).run + 1
        ∧ (d'.ref x).outRun = 0
        ∧ d'.qualified x = (if inside then d.qualified x || decide (16 ≤ (d.ref x).run + 1) else d.qualified x && !was)
        ∧ (∀ y, y ≠ x → d'.ref y = d.ref y) ∧ d'.rd F.TB_STATUS_sel = d.rd F.TB_STATUS_sel
        ∧ Keeps (.tim :: evAreas) (.TB_STATUS :: evRegs) d d')

/-- The DPLL (R58, R63, R64, R66, R81, R82, R89): a locked timebase takes the control value of its update, and an acquiring one
moves towards it by no more than 0.05 ppm/s and locks once the criteria have held for 2 s; a change of phase beyond the
threshold is a phase step, answered by coasting in SWITCHING; a follower's guard that trips faults the lead's plane and
the follower leads; SWITCHING ends with the measured difference as build-out.

Changes of lead (R86, R88): after the lead fails its follower leads, and measures the selected input in SWITCHING
where one is eligible and the selected one is not lost, else holds over or runs free; a request that names the follower makes
it lead, and the old lead follows. `Dev.phaseOf` is the phase error: the update's, or REFV's by its last sample. -/
def Obligations.DpllAndLead : Prop :=
  (∀ (s : State) (t : Nat) (tb : Plane) (phase freq ctl depart leadFreq φ : Int) (d : Dev), d = s.on t →
    φ = d.phaseOf tb phase → d.tbState tb = 2 → (d.tb tb).stepNext = false →
    (d.tb tb).prev.all (fun old => decide ((φ - old).natAbs ≤ d.stepThr)) = true →
    Runs (.dpllPhaseUpdate t tb phase freq ctl depart leadFreq) s fun d' =>
      (d'.tb tb).ctl = ctl * 1000000 ∧ (d'.tb tb).ctlAt = d.now ∧ (d'.tb tb).phase = φ ∧ (d'.tb tb).prev = some φ
      ∧ (d'.tb tb).epoch = (d.tb tb).epoch ∧ (d'.tb tb).buildout = (d.tb tb).buildout
      ∧ d'.tb tb.other = d.tb tb.other ∧ Keeps [.tim, .clk, .emitted] [] d d')
  ∧ (∀ (s : State) (t : Nat) (tb : Plane) (phase freq ctl depart leadFreq φ : Int) (d : Dev), d = s.on t →
      φ = d.phaseOf tb phase → d.tbState tb = 1 → (d.tb tb).stepNext = false →
      (d.tb tb).prev.all (fun old => decide ((φ - old).natAbs ≤ d.stepThr)) = true →
      Runs (.dpllPhaseUpdate t tb phase freq ctl depart leadFreq) s fun d' =>
        let m : Int := (50000000 * (d.now - (d.tb tb).ctlAt) / secU : Nat)
        let good := φ.natAbs ≤ 10 * nsU ∧ freq.natAbs ≤ 10
        (d'.tb tb).ctl = max ((d.tb tb).ctl - m) (min ((d.tb tb).ctl + m) (ctl * 1000000)) ∧ (d'.tb tb).ctlAt = d.now
        ∧ (d'.tb tb).phase = φ ∧ (d'.tb tb).prev = some φ
        ∧ d'.tbState tb = (if good ∧ (d.tb tb).critFrom.getD d.now + 2 * secU ≤ d.now then 2 else 1)
        ∧ (d'.tb tb).critFrom = (if good then some ((d.tb tb).critFrom.getD d.now) else none)
        ∧ (d'.tb tb).epoch = (d.tb tb).epoch ∧ (d'.tb tb).buildout = (d.tb tb).buildout
        ∧ d'.tb tb.other = d.tb tb.other ∧ Keeps (.tim :: .clk :: evAreas) selRegs d d')
  ∧ (∀ (s : State) (t : Nat) (tb : Plane) (phase freq ctl depart leadFreq φ : Int) (d : Dev), d = s.on t →
      φ = d.phaseOf tb phase → d.tbState tb = 1 ∨ d.tbState tb = 2 →
      (d.tb tb).stepNext = true ∨ (d.tb tb).prev.any (fun old => decide (d.stepThr < (φ - old).natAbs)) = true →
      Runs (.dpllPhaseUpdate t tb phase freq ctl depart leadFreq) s fun d' =>
        d'.tbState tb = 3 ∧ (d'.tb tb).prev = none ∧ (d'.tb tb).stepNext = false ∧ (d'.tb tb).epoch = (d.tb tb).epoch
        ∧ (d'.tb tb).buildout = (d.tb tb).buildout ∧ d'.tb tb.other = d.tb tb.other
        ∧ Keeps (.tim :: .clk :: evAreas) selRegs d d')
  ∧ (∀ (s : State) (t : Nat) (tb : Plane) (phase freq ctl depart leadFreq : Int) (d : Dev), d = s.on t →
      d.tbState tb = 5 → d.lead = tb.other → d.plState d.lead = 0 ∨ d.plState d.lead = 3 →
      (d.stepThr < depart.natAbs ∨ 1000 < leadFreq.natAbs) →
      Runs (.dpllPhaseUpdate t tb phase freq ctl depart leadFreq) s fun d' =>
        d'.lead = tb ∧ d'.tbState tb.other = 6 ∧ d'.plState tb.other = 1 ∧ d'.rd F.PL_STATUS_cause tb.other.id = 6
        ∧ (d'.tb tb).epoch = (d.tb tb).epoch ∧ (d'.tb tb.other).epoch = (d.tb tb.other).epoch
        ∧ Keeps (.tim :: .clk :: .planes :: .svr :: evAreas)
            (.TB_DPLL_SEL :: .PL_STATUS :: .PL_CNT :: .SEL_STATUS :: selRegs) d d')
  ∧ (∀ (s : State) (t : Nat) (tb : Plane) (phase freq ctl depart leadFreq : Int) (d : Dev), d = s.on t →
      d.tbState tb = 5 → depart.natAbs ≤ d.stepThr → leadFreq.natAbs ≤ 1000 →
      Runs (.dpllPhaseUpdate t tb phase freq ctl depart leadFreq) s fun d' =>
        (d'.tb tb).ctl = ctl * 1000000 ∧ (d'.tb tb).phase = d.phaseOf tb phase ∧ (d'.tb tb).epoch = (d.tb tb).epoch
        ∧ (d'.tb tb).buildout = (d.tb tb).buildout
        ∧ d'.tb tb.other = d.tb tb.other ∧ Keeps [.tim, .clk, .emitted] [] d d')
  ∧ (∀ (s : State) (t : Nat) (tb : Plane) (diff : Int) (d : Dev), d = s.on t → d.tbState tb = 3 →
      Runs (.switchingDone t tb diff) s fun d' =>
        d'.tbState tb = 1 ∧ (d'.tb tb).buildout = (if d.rd F.TB_STATUS_sel = 4 then d.tim.refvOff.getD diff else diff)
        ∧ (d'.tb tb).prev = none ∧ (d'.tb tb).epoch = (d.tb tb).epoch ∧ (d'.tb tb).ctl = (d.tb tb).ctl
        ∧ d'.tb tb.other = d.tb tb.other ∧ d'.tbState tb.other = d.tbState tb.other
        ∧ Keeps (.tim :: .clk :: evAreas) selRegs d d')
  ∧ (∀ (s : State) (t : Nat) (d : Dev), d = s.on t → d.tbState d.lead = 6 → d.tbState d.lead.other = 5 →
      Runs (.leadFailover t) s fun d' =>
        let x := d.rd F.TB_STATUS_sel
        let takes := d.anyEligible = true ∧ x < 5 ∧ d.refLost x = false
        d'.lead = d.lead.other ∧ d'.tbState d.lead = 6 ∧ d'.rd F.TB_STATUS_sel = (if takes then x else 7)
        ∧ d'.tbState d.lead.other = (if takes then 3 else if d.tim.everSel then 4 else 0)
        ∧ (d'.tb .a).epoch = (d.tb .a).epoch ∧ (d'.tb .b).epoch = (d.tb .b).epoch
        ∧ Keeps (.tim :: .clk :: evAreas) (.TB_DPLL_SEL :: selRegs) d d')
  ∧ (∀ (s : State) (t v : Nat) (d : Dev), d = s.on t → v = d.lead.other.id + 1 → d.tbState d.lead.other = 5 →
      Runs (.leadReq t v) s fun d' =>
        d'.lead = d.lead.other ∧ d'.tbState d.lead = 5
        ∧ d'.tbState d.lead.other = (if d.rd F.TB_STATUS_sel < 5 then 3 else if d.tbState d.lead = 4 then 4 else 0)
        ∧ d'.rd F.TB_STATUS_sel = d.rd F.TB_STATUS_sel
        ∧ (d'.tb .a).epoch = (d.tb .a).epoch ∧ (d'.tb .b).epoch = (d.tb .b).epoch
        ∧ Keeps (.tim :: .clk :: evAreas) (.TB_DPLL_SEL :: selRegs) d d')
  ∧ (∀ (s : State) (t v : Nat), ¬(v = (s.on t).lead.other.id + 1 ∧ (s.on t).tbState (s.on t).lead.other = 5) →
      OnlyTime (.leadReq t v) s t)

/-- The priority manager and manual selection (R73, R75 to R80): the manager acts on a state that has persisted for the
hold-off; it takes the best eligible input where none is selected or the selected one is out, the better one in revertive mode after
wait-to-restore, and a forced one at once; TB_DPLL_SEL selects only while the manager is off and only on the lead. -/
def Obligations.Selections : Prop :=
  (∀ (s : State) (t x src : Nat) (d : Dev), d = s.on t → x < 5 → d.flag F.TB_CTRL_pm_en = false →
    Runs (.pmHoldoffExpiry t x src) s fun d' =>
      d'.tim = { d.tim with sees := if d.eligible x && d.persists x then setInsert x d.tim.sees else d.tim.sees }
      ∧ d'.rd F.TB_STATUS_sel = d.rd F.TB_STATUS_sel ∧ Keeps [.tim] [.TB_STATUS] d d')
  ∧ (∀ (s : State) (t x src y : Nat) (d : Dev), d = s.on t → x < 5 → d.flag F.TB_CTRL_pm_en = true → d.leadUp = true →
      d.taskRuns 0 = true → d.forced = none → d.eligible x = true → d.persists x = true → MaySelect d →
      (let z := d.rd F.TB_STATUS_sel; z = 7 ∨ (z < 5 ∧ (d.qualified z = false ∨ d.refLost z = true) ∧ d.persists z = true)) →
      y = d.best ((setInsert x d.tim.sees).filter d.eligible) →
      Runs (.pmHoldoffExpiry t x src) s fun d' =>
        d'.tim.sees = setInsert x d.tim.sees ∧ Chosen d d' y ∧ Keeps selAreas (.TB_DPLL_SEL :: selRegs) d d')
  ∧ (∀ (s : State) (t x src : Nat) (d : Dev), d = s.on t → x < 5 → d.flag F.TB_CTRL_pm_en = true → d.leadUp = true →
      d.taskRuns 0 = true → d.flag F.TB_PM_CTRL_revertive = true → d.forced = none → d.eligible x = true →
      x ∈ d.tim.sees → d.restored x = true → MaySelect d → d.rd F.TB_STATUS_sel < 5 →
      d.better x (d.rd F.TB_STATUS_sel) = true →
      Runs (.pmWtrExpiry t x src) s fun d' => Chosen d d' x ∧ Keeps selAreas (.TB_DPLL_SEL :: selRegs) d d')
  ∧ (∀ (s : State) (t src : Nat) (val : Word) (d : Dev), d = s.on t → d.flag F.TB_CTRL_pm_en = false →
      Runs (.tbPmForceWrite t val src) s fun d' =>
        d'.rd F.TB_PM_FORCE_input = F.TB_PM_FORCE_input.get val ∧ d'.rd F.TB_PM_FORCE_force = F.TB_PM_FORCE_force.get val
        ∧ d'.rd F.TB_STATUS_sel = d.rd F.TB_STATUS_sel ∧ Keeps [] [.TB_PM_FORCE, .TB_STATUS] d d')
  ∧ (∀ (s : State) (t src x : Nat) (val : Word) (d : Dev), d = s.on t → d.flag F.TB_CTRL_pm_en = true → d.leadUp = true →
      d.taskRuns 0 = true → F.TB_PM_FORCE_force.get val = 1 → F.TB_PM_FORCE_input.get val = x → x < 5 →
      d.eligible x = true → MaySelect d → d.rd F.TB_STATUS_sel ≠ x →
      Runs (.tbPmForceWrite t val src) s fun d' =>
        Chosen d d' x ∧ d'.rd F.TB_STATUS_force_wait = 0 ∧ d'.rd F.TB_PM_FORCE_input = x ∧ d'.rd F.TB_PM_FORCE_force = 1
        ∧ Keeps selAreas (.TB_PM_FORCE :: .TB_DPLL_SEL :: selRegs) d d')
  ∧ (∀ (s : State) (t src x : Nat) (val : Word) (d : Dev), d = s.on t → F.TB_PM_FORCE_force.get val = 1 →
      F.TB_PM_FORCE_input.get val = x → x < 5 → d.eligible x = false →
      Runs (.tbPmForceWrite t val src) s fun d' =>
        d'.rd F.TB_STATUS_force_wait = 1 ∧ d'.rd F.TB_STATUS_sel = d.rd F.TB_STATUS_sel
        ∧ Keeps [] [.TB_PM_FORCE, .TB_STATUS, .TB_DPLL_SEL] d d')
  ∧ (∀ (s : State) (t src : Nat) (tb : Plane) (val : Word), (s.on t).flag F.TB_CTRL_pm_en = true →
      OnlyTime (.tbDpllSelWrite t tb val src) s t)
  ∧ (∀ (s : State) (t src : Nat) (tb : Plane) (val : Word) (d : Dev), d = s.on t → d.flag F.TB_CTRL_pm_en = false →
      tb ≠ d.lead ∨ d.leadUp = false →
      Runs (.tbDpllSelWrite t tb val src) s fun d' =>
        d'.rd F.TB_DPLL_SEL_manual tb.id = F.TB_DPLL_SEL_manual.get val
        ∧ d'.rd F.TB_DPLL_SEL_fallback tb.id = F.TB_DPLL_SEL_fallback.get val
        ∧ KeepsOthers .TB_DPLL_SEL tb.id d d' ∧ Keeps [] [.TB_DPLL_SEL] d d')
  ∧ (∀ (s : State) (t src x : Nat) (val : Word) (d : Dev), d = s.on t → d.flag F.TB_CTRL_pm_en = false → d.leadUp = true →
      F.TB_DPLL_SEL_manual.get val = x → x < 5 → d.cannotFollow x = false → d.rd F.TB_STATUS_sel ≠ x →
      Runs (.tbDpllSelWrite t d.lead val src) s fun d' =>
        d'.rd F.TB_STATUS_sel = x ∧ d'.tbState d.lead = 3 ∧ d'.lead = d.lead
        ∧ d'.rd F.TB_DPLL_SEL_manual d.lead.id = x
        ∧ d'.rd F.TB_DPLL_SEL_fallback d.lead.id = F.TB_DPLL_SEL_fallback.get val
        ∧ Keeps selAreas (.TB_DPLL_SEL :: selRegs) d d')
  ∧ (∀ (s : State) (t src : Nat) (val : Word) (d : Dev), d = s.on t → d.flag F.TB_CTRL_pm_en = false → d.leadUp = true →
      5 ≤ F.TB_DPLL_SEL_manual.get val → d.rd F.TB_STATUS_sel ≠ 7 →
      Runs (.tbDpllSelWrite t d.lead val src) s fun d' =>
        d'.rd F.TB_STATUS_sel = 7 ∧ d'.tbState d.lead = (if d.tim.everSel then 4 else 0) ∧ d'.lead = d.lead
        ∧ (d'.tb .a).epoch = (d.tb .a).epoch ∧ (d'.tb .b).epoch = (d.tb .b).epoch
        ∧ Keeps selAreas (.TB_DPLL_SEL :: selRegs) d d')

/-- Timing classes (R48, R49, R50): an invalid word leaves the class and sets class_invalid; a change of a class in
use leaves it and sets class_in_use; any other word is taken, its switch line, field and lead to take effect at the
first frame start that lies a full frame period after the write, which CLASS_PARAM_TAKE_EFFECT brings; the PULSE outputs of
the class follow it (R443).

Snapshots (R97): TB_SNAP_A, and TB_SNAP_B with snap_a also written, capture Timebase A's seconds, nanoseconds and
fraction; TB_SNAP_B alone captures Timebase B's; nothing else changes. -/
def Obligations.ClassesAndSnapshots : Prop :=
  (∀ (s : State) (t n : Nat) (val : Word) (d : Dev), d = s.on t → n < 16 → clsWordOk (val &&& 0x7FFFFFF#32) = false →
    Runs (.tbClassWrite t n val) s fun d' =>
      d'.flag F.TB_ERR_class_invalid = true ∧ d'.flag F.TB_ERR_class_in_use = d.flag F.TB_ERR_class_in_use
      ∧ d'.reg .TB_CLASS n = d.reg .TB_CLASS n ∧ Keeps [] [.TB_ERR] d d')
  ∧ (∀ (s : State) (t n : Nat) (val w : Word) (d : Dev), d = s.on t → n < 16 → w = val &&& 0x7FFFFFF#32 →
      clsWordOk w = true → d.clsInUse n = true →
      F.TB_CLASS_rate.get (d.reg .TB_CLASS n) ≠ F.TB_CLASS_rate.get w
        ∨ F.TB_CLASS_scan.get (d.reg .TB_CLASS n) ≠ F.TB_CLASS_scan.get w
        ∨ F.TB_CLASS_lines.get (d.reg .TB_CLASS n) ≠ F.TB_CLASS_lines.get w
        ∨ (F.TB_CLASS_enable.get (d.reg .TB_CLASS n) = 1 ∧ F.TB_CLASS_enable.get w = 0) →
      Runs (.tbClassWrite t n val) s fun d' =>
        d'.flag F.TB_ERR_class_in_use = true ∧ d'.reg .TB_CLASS n = d.reg .TB_CLASS n ∧ Keeps [] [.TB_ERR] d d')
  ∧ (∀ (s : State) (t n : Nat) (val w : Word) (d : Dev), d = s.on t → n < 16 → w = val &&& 0x7FFFFFF#32 →
      clsWordOk w = true →
      d.clsInUse n = false ∨ (F.TB_CLASS_rate.get (d.reg .TB_CLASS n) = F.TB_CLASS_rate.get w
        ∧ F.TB_CLASS_scan.get (d.reg .TB_CLASS n) = F.TB_CLASS_scan.get w
        ∧ F.TB_CLASS_lines.get (d.reg .TB_CLASS n) = F.TB_CLASS_lines.get w
        ∧ (F.TB_CLASS_enable.get (d.reg .TB_CLASS n) = 0 ∨ F.TB_CLASS_enable.get w = 1)) →
      Runs (.tbClassWrite t n val) s fun d' =>
        d'.reg .TB_CLASS n = w ∧ KeepsOthers .TB_CLASS n d d' ∧ d'.tim.clsNow = d.tim.clsNow
        ∧ (∀ m, m ≠ n → Tbl.get [] d'.tim.clsPend m = Tbl.get [] d.tim.clsPend m)
        ∧ (clsWordParams w ≠ clsWordParams (d.reg .TB_CLASS n) →
            ∃ k, Tbl.get [] d'.tim.clsPend n = Tbl.get [] d.tim.clsPend n ++ [(frameStart (d'.clsRate n) k, clsWordParams w)]
              ∧ d.epoch * rateNum (d'.clsRate n) + rateDen (d'.clsRate n) * secU ≤ k * (rateDen (d'.clsRate n) * secU)
              ∧ k * (rateDen (d'.clsRate n) * secU) < d.epoch * rateNum (d'.clsRate n) + 2 * (rateDen (d'.clsRate n) * secU))
        ∧ (∀ c, c < 8 → Tbl.get 0 d.clk.ckoCfg c / 4 % 16 = 9 ∧ bitOf (Tbl.get 0 d.clk.ckoCfg c) 6 = true
              ∧ bits (Tbl.get 0 d.clk.ckoCfg c) 10 7 = n → Tbl.get none d'.clk.cko c = d'.ckoDrive c)
        ∧ ((∀ c, c < 8 → Tbl.get 0 d.clk.ckoCfg c / 4 % 16 ≠ 9 ∨ bitOf (Tbl.get 0 d.clk.ckoCfg c) 6 = false
              ∨ bits (Tbl.get 0 d.clk.ckoCfg c) 10 7 ≠ n) → d'.clk = d.clk ∧ d'.emitted = d.emitted)
        ∧ Keeps [.tim, .ldr, .clk, .emitted] [.TB_CLASS] d d')
  ∧ (∀ (s : State) (t n a v : Nat) (l : List (Nat × Nat)) (d : Dev), d = s.on t → n < 16 →
      Tbl.get [] d.tim.clsPend n = (a, v) :: l → a ≤ d.epoch → l.all (fun x => decide (d.epoch < x.1)) = true →
      Runs (.classParamTakeEffect t n) s fun d' =>
        Tbl.get 0 d'.tim.clsNow n = v ∧ Tbl.get [] d'.tim.clsPend n = l
        ∧ (∀ m, m ≠ n → Tbl.get 0 d'.tim.clsNow m = Tbl.get 0 d.tim.clsNow m
            ∧ Tbl.get [] d'.tim.clsPend m = Tbl.get [] d.tim.clsPend m) ∧ Keeps [.tim] [] d d')
  ∧ (∀ (s : State) (t : Nat) (d : Dev), d = s.on t →
    Runs (.tbSnapA t) s fun d' =>
      let u := (d.tb .a).epoch
      d'.rd F.TB_SNAP_SEC_LO_sec_lo = u / secU % 2 ^ 32 ∧ d'.rd F.TB_SNAP_SEC_HI_sec_hi = u / secU / 2 ^ 32 % 2 ^ 16
      ∧ d'.rd F.TB_SNAP_NS_ns = u / nsU % 1000000000 ∧ d'.rd F.TB_SNAP_FRAC_frac = u % 65536
      ∧ Keeps [] [.TB_SNAP_SEC_LO, .TB_SNAP_SEC_HI, .TB_SNAP_NS, .TB_SNAP_FRAC] d d')
  ∧ (∀ (s : State) (t : Nat) (both : Bool) (d : Dev), d = s.on t →
      Runs (.tbSnapB t both) s fun d' =>
        let u := (d.tb (if both then .a else .b)).epoch
        d'.rd F.TB_SNAP_SEC_LO_sec_lo = u / secU % 2 ^ 32 ∧ d'.rd F.TB_SNAP_SEC_HI_sec_hi = u / secU / 2 ^ 32 % 2 ^ 16
        ∧ d'.rd F.TB_SNAP_NS_ns = u / nsU % 1000000000 ∧ d'.rd F.TB_SNAP_FRAC_frac = u % 65536
        ∧ Keeps [] [.TB_SNAP_SEC_LO, .TB_SNAP_SEC_HI, .TB_SNAP_NS, .TB_SNAP_FRAC] d d')
/-! ### Waftlink lanes (chapter 3) -/

/-- Enabling, disabling and retraining a pair (R111, R112, Table 3-5, Table 3-10): an OFF pair whose octet's delay line is
locked goes to DETECT as it is enabled, and terminates its ingress legs; a disabled pair goes OFF, after LULL where it was ACTIVE
and awake, and ends the termination; a retrained one goes back to DETECT; no other pair changes.

From DETECT to HANDSHAKE (R111, R114, R120, Table 3-5): a pulse that finds a receiver starts TRAIN and clears the pair's
counters; bit lock with 4,096 words sent starts ALIGN; 16 commas at the boundary of a clean window align the pair, and end an
ingress recovery. -/
def Obligations.LaneBringUp : Prop :=
  (∀ (s : State) (t n : Nat) (d : Dev), d = s.on t → n < 384 → d.octetGated (n / 8) = false →
      d.flag F.CLK_STATUS_safe = false → d.lnState n = 0 →
    d.flag F.LN_OCT_STATUS_om_lock (n / 8) = true →
    Runs (.laneEnable t n) s fun d' =>
      d'.reg .LN_CTRL n = F.LN_CTRL_enable.put (d.reg .LN_CTRL n) 1 ∧ d'.lnState n = 1 ∧ (d'.lane n).since = d.now
      ∧ (d'.lane n).term = true ∧ KeepsOthers .LN_CTRL n d d' ∧ OtherLanes n d d'
      ∧ Keeps (.lanes :: evAreas) (.LN_CTRL :: laneRegs) d d')
  ∧ (∀ (s : State) (t n : Nat) (d : Dev), d = s.on t → n < 384 → d.octetGated (n / 8) = false →
      d.flag F.CLK_STATUS_safe = true ∨ d.lnState n ≠ 0 ∨ d.flag F.LN_OCT_STATUS_om_lock (n / 8) = false →
      Runs (.laneEnable t n) s fun d' =>
        d'.reg .LN_CTRL n = F.LN_CTRL_enable.put (d.reg .LN_CTRL n) 1 ∧ KeepsOthers .LN_CTRL n d d'
        ∧ Keeps [.ldr] [.LN_CTRL] d d')
  ∧ (∀ (s : State) (t n : Nat) (d : Dev), d = s.on t → n < 384 → d.octetGated (n / 8) = false →
      d.flag F.CLK_STATUS_safe = false → d.lnState n ≠ 0 →
      Runs (.laneDisable t n) s fun d' =>
        d'.reg .LN_CTRL n = F.LN_CTRL_enable.put (d.reg .LN_CTRL n) 0 ∧ d'.lnState n = 0
        ∧ d'.flag F.LN_STATUS_rx_bitlock n = false ∧ d'.flag F.LN_STATUS_rx_aligned n = false
        ∧ (d'.lane n).term = false ∧ Emission.lane n .hiZ ∈ d'.emitted
        ∧ (d.lnState n = 6 → d.laneRate n ≠ 1 → d.flag F.LN_STATUS_tx_idle n = false → Emission.lane n (.lull 4) ∈ d'.emitted)
        ∧ KeepsOthers .LN_CTRL n d d' ∧ OtherLanes n d d' ∧ Keeps (.lanes :: evAreas) (.LN_CTRL :: laneRegs) d d')
  ∧ (∀ (s : State) (t n : Nat) (d : Dev), d = s.on t → n < 384 → d.octetGated (n / 8) = false →
      d.flag F.CLK_STATUS_safe = true ∨ d.lnState n = 0 →
      Runs (.laneDisable t n) s fun d' =>
        d'.reg .LN_CTRL n = F.LN_CTRL_enable.put (d.reg .LN_CTRL n) 0 ∧ KeepsOthers .LN_CTRL n d d'
        ∧ Keeps [.ldr] [.LN_CTRL] d d')
  ∧ (∀ (s : State) (t n : Nat) (d : Dev), d = s.on t → n < 384 → d.octetGated (n / 8) = false →
      d.flag F.CLK_STATUS_safe = false → d.lnState n ≠ 0 →
      Runs (.lnRetrain t n) s fun d' =>
        d'.lnState n = 1 ∧ d'.flag F.LN_STATUS_rx_aligned n = false ∧ (d'.lane n).since = d.now
        ∧ (d'.lane n).term = true ∧ OtherLanes n d d' ∧ Keeps (.lanes :: evAreas) laneRegs d d')
  ∧ (∀ (s : State) (t n : Nat), n < 384 → (s.on t).lnState n = 0 → OnlyTime (.lnRetrain t n) s t)
  ∧ (∀ (s : State) (t n : Nat) (d : Dev), d = s.on t → n < 384 → d.flag F.CLK_STATUS_safe = false → d.lnState n = 1 →
    Runs (.detectPulse t n true) s fun d' =>
      d'.lnState n = 2 ∧ d'.reg .LN_CNT_CODE n = 0#32 ∧ d'.reg .LN_CNT_HDR n = 0#32 ∧ d'.reg .LN_CNT_PCL n = 0#32
      ∧ d'.reg .LN_BRZ_CNT n = 0#32 ∧ d'.reg .LN_TWIN_CNT n = 0#32
      ∧ Emission.lane n .detect ∈ d'.emitted ∧ Emission.lane n (.wt1 4096) ∈ d'.emitted ∧ OtherLanes n d d'
      ∧ Keeps (.lanes :: evAreas) (.LN_CNT_CODE :: .LN_CNT_HDR :: .LN_CNT_PCL :: .LN_BRZ_CNT :: .LN_TWIN_CNT :: laneRegs) d d')
  ∧ (∀ (s : State) (t n : Nat) (d : Dev), d = s.on t → n < 384 → d.flag F.CLK_STATUS_safe = false → d.lnState n = 1 →
      Runs (.detectPulse t n false) s fun d' =>
        d'.emitted = Emission.lane n .detect :: d.emitted ∧ Keeps [.emitted] [] d d')
  ∧ (∀ (s : State) (t n : Nat) (d : Dev), d = s.on t → n < 384 → d.flag F.CLK_STATUS_safe = false → d.lnState n = 2 →
      4096 ≤ d.wordsIn n →
      Runs (.rxBitLock t n) s fun d' =>
        d'.lnState n = 3 ∧ d'.flag F.LN_STATUS_rx_bitlock n = true ∧ d'.rd F.LN_STATUS_slips n = 0
        ∧ d'.flag F.LN_COMMA_window_valid n = false ∧ (d'.lane n).noSignal = false ∧ Emission.lane n (.wt2 0) ∈ d'.emitted
        ∧ OtherLanes n d d' ∧ Keeps (.lanes :: evAreas) (.LN_COMMA :: laneRegs) d d')
  ∧ (∀ (s : State) (t n : Nat) (d : Dev), d = s.on t → n < 384 → d.flag F.CLK_STATUS_safe = false → d.lnState n ≠ 0 →
      d.lnState n ≠ 2 ∨ d.wordsIn n < 4096 →
      Runs (.rxBitLock t n) s fun d' =>
        d'.reg .LN_STATUS n = F.LN_STATUS_rx_bitlock.put (d.reg .LN_STATUS n) 1
        ∧ d'.lane n = { d.lane n with noSignal := false } ∧ OtherLanes n d d' ∧ Keeps [.lanes] [.LN_STATUS] d d')
  ∧ (∀ (s : State) (t n atb anywhere pos : Nat) (d : Dev), d = s.on t → Hears d n → d.lnState n = 3 →
      d.flag F.LN_STATUS_rx_aligned n = false → d.windowOver n = true → 16 ≤ atb → (d.lane n).winErr = 0 →
      Runs (.alignWindowEnd t n atb anywhere 0 0 pos) s fun d' =>
        d'.lnState n = 4 ∧ d'.flag F.LN_STATUS_rx_aligned n = true ∧ d'.rd F.LN_COMMA_at_boundary n = min 2047 atb
        ∧ d'.rd F.LN_COMMA_anywhere n = min 2047 anywhere ∧ d'.flag F.LN_COMMA_clean n = true
        ∧ (d'.lane n).wordPos = pos % 4 ∧ Emission.lane n (.wt2 1) ∈ d'.emitted ∧ OtherLanes n d d'
        ∧ Keeps (.lanes :: evAreas) (.LN_COMMA :: .LN_CNT_CODE :: laneRegs) d d')
  ∧ (∀ (s : State) (t n atb anywhere pos : Nat) (d : Dev), d = s.on t → Hears d n → d.lnState n = 6 →
      d.flag F.LN_STATUS_rx_recover n = true → d.flag F.LN_STATUS_rx_aligned n = false → d.windowOver n = true → 16 ≤ atb →
      (d.lane n).winErr = 0 →
      Runs (.alignWindowEnd t n atb anywhere 0 0 pos) s fun d' =>
        d'.lnState n = 6 ∧ d'.flag F.LN_STATUS_rx_aligned n = true ∧ d'.flag F.LN_STATUS_rx_recover n = false
        ∧ (d'.lane n).wordPos = pos % 4 ∧ (d'.lane n).seqPrev = [] ∧ OtherLanes n d d'
        ∧ Keeps (.lanes :: evAreas) (.LN_COMMA :: .LN_CNT_CODE :: laneRegs) d d')
  ∧ (∀ (s : State) (t n atb anywhere code disp pos errs : Nat) (d : Dev), d = s.on t → Hears d n → d.windowOver n = true →
      errs = code + disp + (d.lane n).winErr → errs < 16 → d.searching n = false ∨ atb < 16 ∨ 0 < errs →
      d.searching n = false ∨ d.flag F.LN_CTRL_host_align n = true ∨ d.taskRuns 1 = false ∨ anywhere < 16 →
      Runs (.alignWindowEnd t n atb anywhere code disp pos) s fun d' =>
        d'.rd F.LN_COMMA_at_boundary n = min 2047 atb ∧ d'.rd F.LN_COMMA_anywhere n = min 2047 anywhere
        ∧ d'.flag F.LN_COMMA_window_valid n = true ∧ d'.flag F.LN_COMMA_clean n = decide (errs = 0)
        ∧ d'.rd F.LN_CNT_CODE_code_err n = min (d.rd F.LN_CNT_CODE_code_err n + code) 65535
        ∧ d'.rd F.LN_CNT_CODE_disp_err n = min (d.rd F.LN_CNT_CODE_disp_err n + disp) 65535
        ∧ (d'.lane n).winAt = d.now ∧ (d'.lane n).winErr = 0 ∧ OtherLanes n d d'
        ∧ KeepsOthers .LN_COMMA n d d' ∧ KeepsOthers .LN_CNT_CODE n d d' ∧ Keeps [.lanes] [.LN_COMMA, .LN_CNT_CODE] d d')

/-- Bit slips (R114, R115): a slip moves the receive boundary by one symbol position, starts the window again and is
counted; the eleventh of an alignment fails the pair; it is taken from host software while host_align is 1 and from firmware
while it is 0, and firmware takes one after a window with commas elsewhere.

Octet set-up (R99, R133, R560): an octet's rate and twin bits are taken while its pairs are disabled; a change of either with
a pair enabled, rate 3, and a twin set at rate 1 are refused and flagged; a locked octet keeps both. A gated octet discards every write (R464). -/
def Obligations.SlipsAndOctets : Prop :=
  (∀ (s : State) (t n : Nat) (host : Bool) (d : Dev), d = s.on t → n < 384 → d.octetGated (n / 8) = false →
      d.flag F.CLK_STATUS_safe = false →
    d.searching n = true → d.flag F.LN_CTRL_host_align n = host → d.lnState n ≠ 3 ∨ d.rd F.LN_STATUS_slips n < 10 →
    Runs (.lnBitSlip t n host) s fun d' =>
      d'.rd F.LN_STATUS_slips n = (if d.rd F.LN_STATUS_slips n < 10 then d.rd F.LN_STATUS_slips n + 1 else 0)
      ∧ d'.lnState n = d.lnState n ∧ (d'.lane n).boundary = ((d.lane n).boundary + 1) % 10
      ∧ (d'.lane n).winAt = d.now ∧ (d'.lane n).winErr = 0 ∧ d'.flag F.LN_COMMA_window_valid n = false
      ∧ OtherLanes n d d' ∧ KeepsOthers .LN_COMMA n d d' ∧ Keeps [.lanes] [.LN_STATUS, .LN_COMMA] d d')
  ∧ (∀ (s : State) (t n : Nat) (host : Bool) (d : Dev), d = s.on t → n < 384 → d.octetGated (n / 8) = false →
      d.flag F.CLK_STATUS_safe = false →
      d.lnState n = 3 → d.flag F.LN_STATUS_rx_aligned n = false → d.flag F.LN_CTRL_host_align n = host →
      10 ≤ d.rd F.LN_STATUS_slips n →
      Runs (.lnBitSlip t n host) s fun d' => Fails d d' n 2)
  ∧ (∀ (s : State) (t n : Nat) (host : Bool), n < 384 →
      (s.on t).searching n = false ∨ (s.on t).flag F.LN_CTRL_host_align n ≠ host → OnlyTime (.lnBitSlip t n host) s t)
  ∧ (∀ (s : State) (t n atb anywhere code disp pos errs : Nat) (d : Dev), d = s.on t → Hears d n → d.windowOver n = true →
      errs = code + disp + (d.lane n).winErr → d.searching n = true → atb < 16 ∨ 0 < errs →
      d.flag F.LN_CTRL_host_align n = false → d.taskRuns 1 = true → 16 ≤ anywhere → d.rd F.LN_STATUS_slips n < 10 →
      Runs (.alignWindowEnd t n atb anywhere code disp pos) s fun d' =>
        d'.rd F.LN_STATUS_slips n = d.rd F.LN_STATUS_slips n + 1 ∧ (d'.lane n).boundary = ((d.lane n).boundary + 1) % 10
        ∧ d'.flag F.LN_COMMA_window_valid n = false ∧ d'.lnState n = d.lnState n ∧ OtherLanes n d d'
        ∧ Keeps [.lanes] [.LN_STATUS, .LN_COMMA, .LN_CNT_CODE] d d')
  ∧ (∀ (s : State) (t k : Nat) (val : Word) (d : Dev), d = s.on t → k < 48 → d.octetGated k = false →
      d.flag F.LN_OCT_CTRL_lock k = false →
      (∀ j, j < 8 → d.flag F.LN_CTRL_enable (8 * k + j) = false) → d.rd F.LN_OCT_CTRL_rate k ≠ 1 →
      F.LN_OCT_CTRL_rate.get val ≠ 1 → F.LN_OCT_CTRL_rate.get val ≠ 3 →
      Runs (.lnOctCtrlWrite t k val) s fun d' =>
        d'.rd F.LN_OCT_CTRL_rate k = F.LN_OCT_CTRL_rate.get val ∧ d'.rd F.LN_OCT_CTRL_twin k = F.LN_OCT_CTRL_twin.get val
        ∧ d'.rd F.LN_OCT_CTRL_lock k = F.LN_OCT_CTRL_lock.get val ∧ KeepsOthers .LN_OCT_CTRL k d d'
        ∧ Keeps [.ldr] [.LN_OCT_CTRL] d d')
  ∧ (∀ (s : State) (t k : Nat) (val : Word) (d : Dev), d = s.on t → k < 48 → d.octetGated k = false →
      d.flag F.LN_OCT_CTRL_lock k = false →
      (List.range 8).any (fun j => d.flag F.LN_CTRL_enable (8 * k + j)) = true ∨ F.LN_OCT_CTRL_rate.get val = 3 →
      F.LN_OCT_CTRL_rate.get val ≠ d.rd F.LN_OCT_CTRL_rate k →
      Runs (.lnOctCtrlWrite t k val) s fun d' =>
        d'.flag F.LN_OCT_STATUS_rate_ignored k = true ∧ d'.rd F.LN_OCT_CTRL_rate k = d.rd F.LN_OCT_CTRL_rate k
        ∧ KeepsOthers .LN_OCT_CTRL k d d' ∧ KeepsOthers .LN_OCT_STATUS k d d' ∧ Keeps [.ldr] [.LN_OCT_CTRL, .LN_OCT_STATUS] d d')
  ∧ (∀ (s : State) (t k : Nat) (val : Word) (d : Dev), d = s.on t → k < 48 → d.octetGated k = false →
      d.flag F.LN_OCT_CTRL_lock k = false →
      (List.range 8).any (fun j => d.flag F.LN_CTRL_enable (8 * k + j)) = true →
      F.LN_OCT_CTRL_twin.get val ≠ d.rd F.LN_OCT_CTRL_twin k →
      Runs (.lnOctCtrlWrite t k val) s fun d' =>
        d'.flag F.LN_OCT_STATUS_twin_ignored k = true ∧ d'.rd F.LN_OCT_CTRL_twin k = d.rd F.LN_OCT_CTRL_twin k
        ∧ KeepsOthers .LN_OCT_CTRL k d d' ∧ KeepsOthers .LN_OCT_STATUS k d d' ∧ Keeps [.ldr] [.LN_OCT_CTRL, .LN_OCT_STATUS] d d')
  ∧ (∀ (s : State) (t k j : Nat) (val : Word) (d : Dev), d = s.on t → k < 48 → d.octetGated k = false →
      d.flag F.LN_OCT_CTRL_lock k = false →
      d.rd F.LN_OCT_CTRL_rate k = 1 → j < 4 → bitOf (F.LN_OCT_CTRL_twin.get val) j = true →
      bitOf (d.rd F.LN_OCT_CTRL_twin k) j = false →
      Runs (.lnOctCtrlWrite t k val) s fun d' =>
        d'.flag F.LN_OCT_STATUS_twin_ignored k = true ∧ d'.rd F.LN_OCT_CTRL_twin k = d.rd F.LN_OCT_CTRL_twin k
        ∧ Keeps [.ldr] [.LN_OCT_CTRL, .LN_OCT_STATUS] d d')
  ∧ (∀ (s : State) (t k : Nat) (val : Word) (d : Dev), d = s.on t → k < 48 → d.octetGated k = false →
      d.flag F.LN_OCT_CTRL_lock k = true →
      Runs (.lnOctCtrlWrite t k val) s fun d' => Keeps [] [] d d')
  ∧ (∀ (s : State) (t n : Nat) (host : Bool) (val : Word) (c : Instr), n < 384 → (s.on t).octetGated (n / 8) = true →
      c ∈ [Instr.laneEnable t n, .laneDisable t n, .lnRetrain t n, .lnBitSlip t n host, .lnOctCtrlWrite t (n / 8) val] →
      OnlyTime c s t)

/-- From HANDSHAKE to ACTIVE, and timeouts (R107, R111, R117, R118, Table 3-5): WT2 with D21.2 is counted, and the eighth
in a row with 16 words sent starts CAP; copies of a CAP that agree but for reserved bits are counted, the third compatible
one is accepted, an incompatible one fails the pair with cause 6; CAP sets go out, and the third with the partner's
acceptance seen makes the pair ACTIVE; a CAP in ACTIVE is flagged; a state that lasts too long fails with its cause, and a
failed pair tries again after 100 ms.

That LN_CAP_RX shows the last of three copies that differ in reserved bits alone is the model's choice (log 45). -/
def Obligations.LaneHandshake : Prop :=
  (∀ (s : State) (t n : Nat) (inP : Bool) (d : Dev), d = s.on t → Hears d n → d.lnState n = 4 →
    7 ≤ (d.lane n).run21 ∨ (d.lane n).capSeen = true → 16 ≤ d.wordsIn n →
    Runs (.wt2Received t n .ready inP) s fun d' =>
      d'.lnState n = 5 ∧ (d'.lane n).run21 = (d.lane n).run21 + 1 ∧ (d'.lane n).since = d.now ∧ OtherLanes n d d'
      ∧ Keeps (.lanes :: evAreas) laneRegs d d')
  ∧ (∀ (s : State) (t n : Nat) (st : Wt2Status) (inP : Bool) (d : Dev), d = s.on t → Hears d n → d.lnState n = 4 →
      st ≠ .other → (d.lane n).capSeen = false → (d.lane n).run21 < 7 ∨ d.wordsIn n < 16 →
      Runs (.wt2Received t n st inP) s fun d' =>
        d'.lane n = { d.lane n with noSignal := false, run21 := if st = .ready then (d.lane n).run21 + 1 else 0 }
        ∧ OtherLanes n d d' ∧ Keeps [.lanes] [] d d')
  ∧ (∀ (s : State) (t n : Nat) (inP : Bool) (d : Dev), d = s.on t → Hears d n →
      Runs (.wt2Received t n .other inP) s fun d' =>
        d'.rd F.LN_CNT_CODE_code_err n = min (d.rd F.LN_CNT_CODE_code_err n + 1) 65535
        ∧ d'.lane n = { d.lane n with noSignal := false, run21 := 0, restartRun := 0, winErr := (d.lane n).winErr + 1 }
        ∧ OtherLanes n d d' ∧ KeepsOthers .LN_CNT_CODE n d d' ∧ Keeps [.lanes] [.LN_CNT_CODE] d d')
  ∧ (∀ (s : State) (t n : Nat) (cap : List Byte) (d : Dev), d = s.on t → Hears d n → d.lnState n = 4 ∨ d.lnState n = 5 →
      d.lnState n = 5 ∨ d.wordsIn n < 16 → (d.lane n).capLast ≠ capMasked (fit 15 cap) ∨ (d.lane n).capRun < 2 →
      Runs (.capReceived t n cap) s fun d' =>
        d'.lane n = { d.lane n with noSignal := false, run21 := 0, restartRun := 0, capSeen := true
                                    capLast := capMasked (fit 15 cap)
                                    capRun := if (d.lane n).capLast = capMasked (fit 15 cap) then (d.lane n).capRun + 1 else 1 }
        ∧ OtherLanes n d d' ∧ Keeps [.lanes] [] d d')
  ∧ (∀ (s : State) (t n : Nat) (cap : List Byte) (d : Dev), d = s.on t → Hears d n → d.lnState n = 5 →
      (d.lane n).capLast = capMasked (fit 15 cap) → 2 ≤ (d.lane n).capRun → d.capFits n (fit 15 cap) = true →
      bitOf (fieldAt (fit 15 cap) 2 1) 0 = false ∨ (d.lane n).capSent < 3 →
      Runs (.capReceived t n cap) s fun d' =>
        d'.lnState n = 5 ∧ (d'.lane n).capOk = true ∧ (d'.lane n).capPeer = bitOf (fieldAt (fit 15 cap) 2 1) 0
        ∧ d'.rd F.LN_CAP_RX0_cap n = fieldAt (fit 15 cap) 0 4 ∧ d'.rd F.LN_CAP_RX1_cap n = fieldAt (fit 15 cap) 4 4
        ∧ d'.rd F.LN_CAP_RX2_cap n = fieldAt (fit 15 cap) 8 4 ∧ d'.rd F.LN_CAP_RX3_cap n = fieldAt (fit 15 cap) 12 3
        ∧ OtherLanes n d d'
        ∧ Keeps (.lanes :: evAreas)
            (.LN_STATUS :: .LN_CAP_RX0 :: .LN_CAP_RX1 :: .LN_CAP_RX2 :: .LN_CAP_RX3 :: evRegs) d d')
  ∧ (∀ (s : State) (t n : Nat) (cap : List Byte) (d : Dev), d = s.on t → Hears d n → d.lnState n = 5 →
      (d.lane n).capLast = capMasked (fit 15 cap) → 2 ≤ (d.lane n).capRun → d.capFits n (fit 15 cap) = false →
      Runs (.capReceived t n cap) s fun d' => Fails d d' n 6)
  ∧ (∀ (s : State) (t n : Nat) (cap : List Byte) (d : Dev), d = s.on t → Hears d n → d.lnState n = 6 →
      Runs (.capReceived t n cap) s fun d' =>
        d'.flag F.LN_ERR_cap_active n = true
        ∧ d'.lane n = { d.lane n with noSignal := false, run21 := 0, restartRun := 0 } ∧ OtherLanes n d d'
        ∧ Keeps (.lanes :: evAreas) (.LN_ERR :: evRegs) d d')
  ∧ (∀ (s : State) (t n : Nat) (d : Dev), d = s.on t → n < 384 → d.flag F.CLK_STATUS_safe = false → d.lnState n = 5 →
      (d.lane n).capOk = false ∨ (d.lane n).capPeer = false ∨ (d.lane n).capSent < 2 →
      Runs (.capSend t n) s fun d' =>
        d'.emitted = Emission.lane n (.cap (d.ownCap n)) :: d.emitted
        ∧ d'.lane n = { d.lane n with capSent := if (d.lane n).capOk then (d.lane n).capSent + 1 else 0 }
        ∧ OtherLanes n d d' ∧ Keeps [.lanes, .emitted] [] d d')
  ∧ (∀ (s : State) (t n : Nat) (d : Dev), d = s.on t → n < 384 → d.flag F.CLK_STATUS_safe = false → d.lnState n = 5 →
      (d.lane n).capOk = true → (d.lane n).capPeer = true → 2 ≤ (d.lane n).capSent →
      Runs (.capSend t n) s fun d' =>
        d'.lnState n = 6 ∧ Emission.lane n (.cap (d.ownCap n)) ∈ d'.emitted
        ∧ d'.flag F.LN_BRZ_STATUS_active n = bitOf (d.capByte n 2) 3 ∧ OtherLanes n d d'
        ∧ Keeps (.lanes :: evAreas) laneRegs d d')
  ∧ (∀ (s : State) (t n ms cause : Nat) (d : Dev), d = s.on t → n < 384 → d.flag F.CLK_STATUS_safe = false →
      (d.lnState n, ms, cause) ∈ [(2, 20, 1), (3, 20, 3), (4, 10, 4), (5, 10, 5)] → (d.lane n).since + ms * msU ≤ d.now →
      Runs (.laneStateTimeout t n) s fun d' => Fails d d' n cause)
  ∧ (∀ (s : State) (t n : Nat) (d : Dev), d = s.on t → n < 384 → d.flag F.CLK_STATUS_safe = false → d.lnState n = 7 →
      (d.lane n).since + 100 * msU ≤ d.now →
      Runs (.laneStateTimeout t n) s fun d' =>
        d'.lnState n = 1 ∧ OtherLanes n d d' ∧ Keeps (.lanes :: evAreas) laneRegs d d')

/-- Ingress recovery (R104, R109, R120, R121, R122, R123): squelch, a lost bit lock, 16 errors in a window and a
missing SKP send an ACTIVE pair that is not idle into ingress recovery, in which it sends recovery requests; errors of a
window below that are counted; a pair that owes IDL runs sends them, until 4,096 words have passed without a further request;
a recovery of 100 ms fails the pair where LN_CTRL.los_teardown says so; a SKP word is discarded.

That an idle egress lane sends no request is the model's choice (log 47). -/
def Obligations.IngressRecovery : Prop :=
  (∀ (s : State) (t n : Nat) (d : Dev), d = s.on t → Receiving d n →
    Runs (.rxSquelch t n) s fun d' =>
      Recovers d d' n ∧ (d'.lane n).noSignal = true
      ∧ Keeps (.lanes :: evAreas) (.LN_STATUS :: .LN_ERR :: .LN_COMMA :: evRegs) d d')
  ∧ (∀ (s : State) (t n : Nat) (d : Dev), d = s.on t → Receiving d n →
      Runs (.rxBitLockLost t n) s fun d' =>
        Recovers d d' n ∧ d'.flag F.LN_STATUS_rx_bitlock n = false
        ∧ Keeps (.lanes :: evAreas) (.LN_STATUS :: .LN_ERR :: .LN_COMMA :: evRegs) d d')
  ∧ (∀ (s : State) (t n : Nat) (d : Dev), d = s.on t → Receiving d n →
      Runs (.skpTimeout t n) s fun d' =>
        Recovers d d' n ∧ Keeps (.lanes :: evAreas) (.LN_STATUS :: .LN_ERR :: .LN_COMMA :: evRegs) d d')
  ∧ (∀ (s : State) (t n code disp : Nat) (d : Dev), d = s.on t → Receiving d n → d.windowOver n = true →
      16 ≤ code + disp + (d.lane n).winErr →
      Runs (.errorWindowEnd t n code disp) s fun d' =>
        Recovers d d' n ∧ d'.rd F.LN_CNT_CODE_code_err n = min (d.rd F.LN_CNT_CODE_code_err n + code) 65535
        ∧ d'.rd F.LN_CNT_CODE_disp_err n = min (d.rd F.LN_CNT_CODE_disp_err n + disp) 65535
        ∧ Keeps (.lanes :: evAreas) (.LN_STATUS :: .LN_ERR :: .LN_COMMA :: .LN_CNT_CODE :: evRegs) d d')
  ∧ (∀ (s : State) (t n code disp : Nat) (d : Dev), d = s.on t → Hears d n → d.windowOver n = true →
      code + disp + (d.lane n).winErr < 16 →
      Runs (.errorWindowEnd t n code disp) s fun d' =>
        d'.rd F.LN_CNT_CODE_code_err n = min (d.rd F.LN_CNT_CODE_code_err n + code) 65535
        ∧ d'.rd F.LN_CNT_CODE_disp_err n = min (d.rd F.LN_CNT_CODE_disp_err n + disp) 65535
        ∧ d'.lane n = { d.lane n with winAt := d.now, winErr := 0 } ∧ OtherLanes n d d'
        ∧ KeepsOthers .LN_CNT_CODE n d d' ∧ Keeps [.lanes] [.LN_CNT_CODE] d d')
  ∧ (∀ (s : State) (t n : Nat) (d : Dev), d = s.on t → n < 384 → d.flag F.CLK_STATUS_safe = false →
      d.flag F.LN_STATUS_rx_recover n = true → d.flag F.LN_STATUS_tx_idle n = false →
      Runs (.recoveryRequestSend t n) s fun d' =>
        d'.emitted = Emission.lane n (.wt2 2) :: d.emitted ∧ Keeps [.emitted] [] d d')
  ∧ (∀ (s : State) (t n : Nat) (d : Dev), d = s.on t → n < 384 → d.flag F.CLK_STATUS_safe = false →
      (d.lane n).owed = true → (d.lane n).ran = false ∨ d.requestOver n = false → d.lnState n = 6 →
      Runs (.idlRunSend t n) s fun d' =>
        d'.emitted = Emission.lane n (.idl 64) :: d.emitted
        ∧ d'.lane n = { d.lane n with owed := !d.requestOver n, ran := true, busyAt := d.now } ∧ OtherLanes n d d'
        ∧ Keeps [.lanes, .emitted] [] d d')
  ∧ (∀ (s : State) (t n : Nat) (d : Dev), d = s.on t → n < 384 → d.flag F.CLK_STATUS_safe = false →
      d.flag F.LN_STATUS_rx_recover n = true → d.flag F.LN_CTRL_los_teardown n = true →
      (d.lane n).recFrom + 100 * msU ≤ d.now →
      Runs (.ingressRecoveryTimeout t n) s fun d' => Fails d d' n (if (d.lane n).noSignal then 7 else 8))
  ∧ (∀ (s : State) (t n : Nat), n < 384 → (s.on t).flag F.LN_CTRL_los_teardown n = false →
      OnlyTime (.ingressRecoveryTimeout t n) s t)
  ∧ (∀ (s : State) (t n : Nat) (d : Dev), d = s.on t → Hears d n →
      Runs (.skpReceived t n) s fun d' =>
        d'.lane n = { d.lane n with noSignal := false } ∧ OtherLanes n d d' ∧ Keeps [.lanes] [] d d')

/-- Electrical idle (R124, R127 to R132, R135, R144): LULL words idle the ingress where idle is in use, and are code
errors where it is not; one in a parcel cuts it short; an idle pair takes no other words; a Zephyr burst wakes it, one without
its comma starts recovery, one with more than 64 WT1 restarts the pair; members that R127 lets idle go idle together
(`Dev.mayIdle`), and a routed lane wakes them.

Nothing moves on the lanes during the clock safe state (R447): a lane's command then changes nothing but time. -/
def Obligations.ElectricalIdle : Prop :=
  (∀ (s : State) (t n words : Nat) (inP : Bool) (d : Dev), d = s.on t → Hears d n → d.idleUsed n = true →
      2 ≤ words → d.flag F.LN_STATUS_rx_recover n = false →
      Runs (.lullReceived t n words inP) s fun d' =>
        d'.reg .LN_STATUS n = F.LN_STATUS_rx_idle.put (d.reg .LN_STATUS n) 1 ∧ KeepsOthers .LN_STATUS n d d'
        ∧ d'.rd F.LN_CNT_PCL_len_err n = min (d.rd F.LN_CNT_PCL_len_err n + b2n inP) 65535
        ∧ d'.lane n = { d.lane n with noSignal := false, run21 := 0, restartRun := 0 } ∧ OtherLanes n d (d'.setReg .LN_STATUS n 0#32)
        ∧ Keeps (.lanes :: (if inP then evAreas else [])) (.LN_STATUS :: .LN_CNT_PCL :: (if inP then evRegs else [])) d d')
  ∧ (∀ (s : State) (t n words : Nat) (d : Dev), d = s.on t → Hears d n → d.idleUsed n = false →
      Runs (.lullReceived t n words false) s fun d' =>
        d'.rd F.LN_CNT_CODE_code_err n = min (d.rd F.LN_CNT_CODE_code_err n + words) 65535
        ∧ d'.lane n = { d.lane n with noSignal := false, run21 := 0, restartRun := 0, winErr := (d.lane n).winErr + words }
        ∧ OtherLanes n d d' ∧ KeepsOthers .LN_CNT_CODE n d d' ∧ Keeps [.lanes] [.LN_CNT_CODE] d d')
  ∧ (∀ (s : State) (t n k l m : Nat) (b : Bool) (w : Wt2Status) (cap : List Byte) (c : Instr), n < 384 →
      (s.on t).flag F.LN_STATUS_rx_idle n = true →
      c ∈ [Instr.alignWindowEnd t n k l m k l, .wt2Received t n w b, .capReceived t n cap, .errorWindowEnd t n k l,
        .skpReceived t n, .lullReceived t n k b, .rxSquelch t n, .rxBitLockLost t n, .skpTimeout t n] → OnlyTime c s t)
  ∧ (∀ (s : State) (t n wt1 : Nat) (d : Dev), d = s.on t → n < 384 → d.flag F.CLK_STATUS_safe = false → d.lnState n = 6 →
      wt1 ≤ 64 →
      Runs (.zephyrBurstReceived t n true wt1) s fun d' =>
        d'.reg .LN_STATUS n = F.LN_STATUS_rx_idle.put (d.reg .LN_STATUS n) 0 ∧ KeepsOthers .LN_STATUS n d d'
        ∧ d'.lane n = { d.lane n with noSignal := false, run21 := 0, restartRun := 0 }
        ∧ (∀ m, m ≠ n → d'.lane m = d.lane m) ∧ Keeps [.lanes] [.LN_STATUS] d d')
  ∧ (∀ (s : State) (t n wt1 : Nat) (d : Dev), d = s.on t → n < 384 → d.flag F.CLK_STATUS_safe = false → d.lnState n = 6 →
      d.flag F.LN_STATUS_rx_recover n = false → wt1 ≤ 64 →
      Runs (.zephyrBurstReceived t n false wt1) s fun d' =>
        d'.flag F.LN_ERR_zephyr_fail n = true ∧ d'.flag F.LN_STATUS_rx_idle n = false ∧ Recovers d d' n
        ∧ Keeps (.lanes :: evAreas) (.LN_STATUS :: .LN_ERR :: .LN_COMMA :: evRegs) d d')
  ∧ (∀ (s : State) (t n wt1 : Nat) (comma : Bool) (d : Dev), d = s.on t → n < 384 → d.flag F.CLK_STATUS_safe = false →
      d.lnState n = 6 → 64 < wt1 →
      Runs (.zephyrBurstReceived t n comma wt1) s fun d' =>
        d'.lnState n = 2 ∧ Emission.lane n (.wt1 4096) ∈ d'.emitted ∧ OtherLanes n d d'
        ∧ Keeps (.lanes :: evAreas) (.LN_CNT_CODE :: .LN_CNT_HDR :: .LN_CNT_PCL :: .LN_BRZ_CNT :: .LN_TWIN_CNT :: laneRegs) d d')
  ∧ (∀ (s : State) (t n : Nat) (d : Dev), d = s.on t → n < 384 → d.flag F.CLK_STATUS_safe = false →
      (d.members n).all d.mayIdle = true →
      Runs (.egressIdleEnter t n) s fun d' =>
        (∀ m, m ∈ d.members n → d'.reg .LN_STATUS m = F.LN_STATUS_tx_idle.put (d.reg .LN_STATUS m) 1
          ∧ (d.flag F.LN_STATUS_tx_idle m = false → Emission.lane m (.lull 4) ∈ d'.emitted))
        ∧ (∀ m, m < 384 → m ∉ d.members n → d'.reg .LN_STATUS m = d.reg .LN_STATUS m)
        ∧ Keeps [.emitted] [.LN_STATUS] d d')
  ∧ (∀ (s : State) (t n : Nat), n < 384 → ((s.on t).members n).all (s.on t).mayIdle = false →
      OnlyTime (.egressIdleEnter t n) s t)
  ∧ (∀ (s : State) (t n : Nat) (d : Dev), d = s.on t → n < 384 → d.flag F.CLK_STATUS_safe = false → d.laneRouted n = true →
      d.flag F.LN_STATUS_tx_idle n = true →
      Runs (.egressWake t n) s fun d' =>
        (∀ m, m ∈ d.members n → d'.flag F.LN_STATUS_tx_idle m = false
          ∧ (d.flag F.LN_STATUS_tx_idle m = true → Emission.lane m .zephyr ∈ d'.emitted))
        ∧ (∀ m, m < 384 → m ∉ d.members n → d'.lane m = d.lane m ∧ d'.reg .LN_STATUS m = d.reg .LN_STATUS m)
        ∧ Keeps [.lanes, .emitted] [.LN_STATUS, .LN_BRZ_STATUS] d d')
  ∧ (∀ (s : State) (t n k l m : Nat) (b : Bool) (w : Wt2Status) (cap : List Byte) (c : Instr), n < 384 →
      (s.on t).flag F.CLK_STATUS_safe = true →
      c ∈ [Instr.lnRetrain t n, .lnBitSlip t n b, .detectPulse t n b, .rxBitLock t n, .alignWindowEnd t n k l m k l,
        .wt2Received t n w b, .capReceived t n cap, .capSend t n, .laneStateTimeout t n, .rxSquelch t n, .rxBitLockLost t n,
        .errorWindowEnd t n k l, .skpTimeout t n, .recoveryRequestSend t n, .idlRunSend t n, .ingressRecoveryTimeout t n,
        .skpReceived t n, .lullReceived t n k b, .zephyrBurstReceived t n b k, .egressIdleEnter t n, .egressWake t n,
        .creditSend t n, .tallySend t n, .twinSend t n, .timingSend t n, .breezeBufferRelease t n] → OnlyTime c s t)

/-- The coding of a lane (R103, R104, R105, R107, R143, R170, R171): a code group at a running disparity is received as the
symbol that it stands for, one of the other disparity as that symbol with a disparity error, any other as a code error;
every ordered set and a parcel are words of four symbols, a CAP with its 15 bytes in order; a Breeze message's words are put
together again to the message, and what is put together is as long as it states.

The code groups of the data characters are those of 8b/10b, which the spec names without listing them (log 46). -/
def Obligations.LaneCoding : Prop :=
  (∀ (rd : Bool) (x : Sym) (g : Nat), x.group rd = some g → receive rd g = .ok x)
  ∧ (∀ (rd : Bool) (x : Sym) (g : Nat), x.group (!rd) = some g → x.group rd ≠ some g → receive rd g = .disparity x)
  ∧ (∀ (rd : Bool) (g : Nat), (∀ (r : Bool) (x : Sym), x.group r ≠ some g) → receive rd g = .code)
  ∧ (∀ (rd : Bool) (x : Sym) (g : Nat), x.group rd = some g →
      g < 1024 ∧ (ones 10 g = 5 ∨ (ones 10 g = 6 ∧ rd = false) ∨ (ones 10 g = 4 ∧ rd = true)))
  ∧ (∀ (rd : Bool) (xs : List Sym), (lineBits rd xs).length = 10 * xs.length)
  ∧ (∀ (x : LaneSet) (w : List Sym), w ∈ x.words → w.length = 4)
  ∧ (∀ bytes : List Byte, bytes.length = 15 → (LaneSet.cap bytes).words.flatten = .k 0x5C#8 :: bytes.map .d)
  ∧ (∀ (pos : Nat) (hdr : List Byte) (body : List Word), hdr.length = 16 →
      (parcelWords pos hdr body).length = 6 + body.length ∧ ∀ w ∈ parcelWords pos hdr body, w.length = 4)
  ∧ (∀ (ty seq release : Nat) (payload : List Byte), payload.length ≤ 120 →
      brzCheck (brzMsg ty seq release payload) = some (brzHead ty seq release payload)
      ∧ (brzMsg ty seq release payload).length = brzLen payload.length ∧ ∀ w ∈ brzMsg ty seq release payload, w.length = 3)
  ∧ (∀ (ws : List (List Byte)) (b : List Byte), brzCheck ws = some b →
      ws.length = brzLen (fieldAt b 1 1) ∧ fieldAt b 1 1 ≤ 120 ∧ b.length = 4 + fieldAt b 1 1)
/-! ### The Breeze channel (R169 to R177) -/

/-- What a pair receives on Breeze (R171, R173, R177, Tables 4-12 to 4-14): a credited message takes a buffer and its
number, releases the missing ones, carries the partner's release count, and leaves its contents; with no free buffer
it is discarded, counted and released; CREDIT takes no number; TWIN outside a twin set and a message of unknown type
are discarded, counted and released; a message that fails R171's checks is counted, and every word while Breeze does not run;
no other pair changes.

That a number lies beyond the expected one where it is fewer than 128 steps ahead is deduced (log 49, `Dev.brzGap`). -/
def Obligations.BreezeReceived : Prop :=
  (∀ (s : State) (t n release seq : Nat) (payload : List Byte) (d : Dev), d = s.on t → TakesBreeze d n → (d.lane n).used < 8 →
    Runs (.identReceived t n release seq payload) s fun d' =>
      (d'.lane n).ident = fit 16 payload ∧ (d'.lane n).used = (d.lane n).used + 1
      ∧ d'.rd F.LN_BRZ_STATUS_rx_expected n = (seq + 1) % 256 ∧ Numbered d d' n release seq 0
      ∧ Keeps [.lanes, .emitted] [.LN_BRZ_STATUS] d d')
  ∧ (∀ (s : State) (t n release seq : Nat) (payload : List Byte) (c : Instr) (d : Dev), d = s.on t → TakesBreeze d n →
      8 ≤ (d.lane n).used →
      (c = .identReceived t n release seq payload ∨ c = .pstatReceived t n release seq payload
        ∨ (c = .twinReceived t n release seq payload ∧ d.twinned n = true)) →
      Runs c s fun d' =>
        d'.rd F.LN_BRZ_CNT_credit_viol n = min (d.rd F.LN_BRZ_CNT_credit_viol n + 1) 1023
        ∧ (d'.lane n).ident = (d.lane n).ident ∧ (d'.lane n).pstat = (d.lane n).pstat ∧ (d'.lane n).upOk = (d.lane n).upOk
        ∧ (d'.lane n).used = (d.lane n).used ∧ d'.rd F.LN_BRZ_STATUS_rx_expected n = (seq + 1) % 256
        ∧ Numbered d d' n release seq 1 ∧ Keeps (.lanes :: evAreas) (.LN_BRZ_STATUS :: .LN_BRZ_CNT :: evRegs) d d')
  ∧ (∀ (s : State) (t n release seq : Nat) (d : Dev), d = s.on t → TakesBreeze d n →
      Runs (.creditReceived t n release seq) s fun d' =>
        d'.rd F.LN_BRZ_STATUS_rx_expected n =
            (if d.brzGap n seq = 0 then d.rd F.LN_BRZ_STATUS_rx_expected n else seq % 256)
        ∧ (d'.lane n).used = (d.lane n).used ∧ Numbered d d' n release seq 0 ∧ Keeps [.lanes, .emitted] [.LN_BRZ_STATUS] d d')
  ∧ (∀ (s : State) (t n release seq p side : Nat) (b0 flags det errs : Byte) (d : Dev), d = s.on t → TakesBreeze d n →
      (d.lane n).used < 8 → p = b0.toNat % 4 → side = b0.toNat / 4 % 2 → p < 3 →
      (if side = 0 then d.partnerTx n p else d.partnerRx n p) = true →
      Runs (.pstatReceived t n release seq [1#8, b0, flags, det, errs]) s fun d' =>
        Tbl.get {} (d'.lane n).pstat (2 * p + side) = { flags := flags.toNat % 8, detected := det.toNat, errors := errs.toNat }
        ∧ (∀ k, k ≠ 2 * p + side → Tbl.get {} (d'.lane n).pstat k = Tbl.get {} (d.lane n).pstat k)
        ∧ (d'.lane n).pstatLast = fit 25 [1#8, b0, flags, det, errs] ∧ (d'.lane n).used = (d.lane n).used + 1
        ∧ d'.rd F.LN_BRZ_STATUS_rx_expected n = (seq + 1) % 256 ∧ Numbered d d' n release seq 0
        ∧ Keeps (.lanes :: evAreas) (.LN_BRZ_STATUS :: evRegs) d d')
  ∧ (∀ (s : State) (t n release seq : Nat) (b0 b1 b2 : Byte) (d : Dev), d = s.on t → TakesBreeze d n → (d.lane n).used < 8 →
      d.twinned n = true →
      Runs (.twinReceived t n release seq [b0, b1, b2]) s fun d' =>
        (d'.lane n).twinLast = [b0, b1, b2] ∧ (0 ∈ (d'.lane n).upOk ↔ b0.toNat % 2 = 1)
        ∧ (1 ∈ (d'.lane n).upOk ↔ b1.toNat % 2 = 1) ∧ (2 ∈ (d'.lane n).upOk ↔ b2.toNat % 2 = 1)
        ∧ (d'.lane n).used = (d.lane n).used + 1 ∧ d'.rd F.LN_BRZ_STATUS_rx_expected n = (seq + 1) % 256
        ∧ Numbered d d' n release seq 0 ∧ Keeps [.lanes, .emitted] [.LN_BRZ_STATUS] d d')
  ∧ (∀ (s : State) (t n release seq : Nat) (payload : List Byte) (d : Dev), d = s.on t → TakesBreeze d n → d.twinned n = false →
      Runs (.twinReceived t n release seq payload) s fun d' =>
        d'.rd F.LN_BRZ_CNT_unknown n = min (d.rd F.LN_BRZ_CNT_unknown n + 1) 1023
        ∧ (d'.lane n).used = (d.lane n).used ∧ (d'.lane n).twinLast = (d.lane n).twinLast
        ∧ d'.rd F.LN_BRZ_STATUS_rx_expected n = (seq + 1) % 256 ∧ Numbered d d' n release seq 1
        ∧ Keeps (.lanes :: evAreas) (.LN_BRZ_STATUS :: .LN_BRZ_CNT :: evRegs) d d')
  ∧ (∀ (s : State) (t n : Nat) (words : List (List Byte)) (d : Dev), d = s.on t → TakesBreeze d n → brzCheck words = none →
      Runs (.breezeMsgInvalid t n words) s fun d' =>
        d'.rd F.LN_BRZ_CNT_msg_err n = min (d.rd F.LN_BRZ_CNT_msg_err n + 1) 4095 ∧ KeepsOthers .LN_BRZ_CNT n d d'
        ∧ OtherLanes n d d' ∧ Keeps (.lanes :: evAreas) (.LN_BRZ_CNT :: evRegs) d d')
  ∧ (∀ (s : State) (t n : Nat) (words : List (List Byte)) (m : List Byte) (d : Dev), d = s.on t → TakesBreeze d n →
      brzCheck words = some m → fieldAt m 0 1 ∉ [0, 1, 2, 4] →
      Runs (.breezeMsgInvalid t n words) s fun d' =>
        d'.rd F.LN_BRZ_CNT_unknown n = min (d.rd F.LN_BRZ_CNT_unknown n + 1) 1023
        ∧ (d'.lane n).used = (d.lane n).used ∧ d'.rd F.LN_BRZ_STATUS_rx_expected n = (fieldAt m 3 1 + 1) % 256
        ∧ Numbered d d' n (fieldAt m 2 1) (fieldAt m 3 1) 1
        ∧ Keeps (.lanes :: evAreas) (.LN_BRZ_STATUS :: .LN_BRZ_CNT :: evRegs) d d')
  ∧ (∀ (s : State) (t n : Nat) (words : List (List Byte)) (d : Dev), d = s.on t → n < 384 → d.flag F.CLK_STATUS_safe = false →
      d.rxOpen n = true → d.brzOn n = false →
      Runs (.breezeMsgInvalid t n words) s fun d' =>
        d'.rd F.LN_BRZ_CNT_msg_err n = min (d.rd F.LN_BRZ_CNT_msg_err n + words.length) 4095
        ∧ OtherLanes n d d' ∧ Keeps (.lanes :: evAreas) (.LN_BRZ_CNT :: evRegs) d d')

/-- What a pair sends on Breeze (R170, R172 to R174, R176, R189, R210): a freed buffer raises the cumulative release
count and makes a release due; CREDIT carries it without a number of its own; TALLY, TWIN and TIMING take the next
number and a credit, and carry their payloads; without a credit, or with the egress idle, they wait in order. -/
def Obligations.BreezeSent : Prop :=
  (∀ (s : State) (t n : Nat) (d : Dev), d = s.on t → n < 384 → d.flag F.CLK_STATUS_safe = false → 0 < (d.lane n).used →
    Runs (.breezeBufferRelease t n) s fun d' =>
      d'.lane n = { d.lane n with used := (d.lane n).used - 1, release := ((d.lane n).release + 1) % 256, relDue := true }
      ∧ OtherLanes n d d' ∧ Keeps [.lanes] [] d d')
  ∧ (∀ (s : State) (t n : Nat) (d : Dev), d = s.on t → SendsBreeze d n →
      Runs (.creditSend t n) s fun d' =>
        d'.emitted = Emission.breeze n (brzMsg 0 (d.rd F.LN_BRZ_STATUS_tx_seq n) (d.lane n).release []) :: d.emitted
        ∧ d'.lane n = { d.lane n with relDue := false } ∧ OtherLanes n d d' ∧ Keeps [.lanes, .emitted] [] d d')
  ∧ (∀ (s : State) (t n : Nat) (d : Dev), d = s.on t → SendsBreeze d n → (d.lane n).queue = [] → 0 < d.brzLeft n →
      Runs (.tallySend t n) s fun d' => SentBreeze d d' n 3 (d.tallyPayload n))
  ∧ (∀ (s : State) (t n : Nat) (d : Dev), d = s.on t → SendsBreeze d n → (d.lane n).queue = [] → 0 < d.brzLeft n →
      d.twinned n = true →
      Runs (.twinSend t n) s fun d' => SentBreeze d d' n 4 (d.twinPayload n))
  ∧ (∀ (s : State) (t n : Nat) (d : Dev), d = s.on t → SendsBreeze d n → (d.lane n).queue = [] → 0 < d.brzLeft n →
      Runs (.timingSend t n) s fun d' => SentBreeze d d' n 5 (d.timingPayload n))
  ∧ (∀ (s : State) (t n ty : Nat) (c : Instr) (payload : List Byte) (d : Dev), d = s.on t → n < 384 →
      d.flag F.CLK_STATUS_safe = false → d.brzOn n = true → d.flag F.LN_STATUS_tx_idle n = true ∨ d.brzLeft n = 0 →
      (c = .tallySend t n ∧ ty = 3 ∧ payload = d.tallyPayload n
        ∨ c = .twinSend t n ∧ d.twinned n = true ∧ ty = 4 ∧ payload = d.twinPayload n
        ∨ c = .timingSend t n ∧ ty = 5 ∧ payload = d.timingPayload n) →
      Runs c s fun d' =>
        d'.lane n = { d.lane n with queue := (d.lane n).queue ++ [(ty, payload)], busyAt := d.now }
        ∧ OtherLanes n d d' ∧ Keeps [.lanes] [] d d')
  ∧ (∀ (s : State) (t n : Nat) (c : Instr), n < 384 → (s.on t).brzOn n = false →
      c ∈ [Instr.tallySend t n, .twinSend t n, .timingSend t n, .creditSend t n] → OnlyTime c s t)
/-! ### Parcels and input slots (chapters 4 and 5) -/

/-- What arrives for a slot (R106, R144 to R152, R162, R179 to R182, R202, Table 4-5): a valid parcel outside a twin
set is committed into the slot buffers of both planes, with its tag, arrival instant, video and ANC records, and sets the
slot's format; a parcel that fails a check is counted by that check and discarded; one cut short is a length error, and
so is each data word outside a parcel; one whose position bytes do not agree is a code error of an aligned receiver; a marker
changes nothing, and a format change set makes the next parcel uncounted. -/
def Obligations.ParcelsReceived : Prop :=
  (∀ (s : State) (t n p : Nat) (pos : List Nat) (hdr h : List Byte) (body : List Word) (d : Dev), d = s.on t →
    ParcelIn d n p pos hdr h → d.twinned n = false → d.parcelCheck n p h body = none →
    Runs (.parcelReceived t n pos hdr body true) s fun d' =>
      let sec := (sections h body).getD ([], [], [])
      (d'.inp (3 * n + p)).fmt = hFmt h ∧ (d'.inp (3 * n + p)).lastCommit = d.now
      ∧ (∀ j, j ≠ 3 * n + p → d'.inp j = d.inp j)
      ∧ (∀ q : Plane, d'.plane q = { d.plane q with slots := (d'.plane q).slots }
          ∧ (∀ j, j ≠ 3 * n + p → Tbl.get {} (d'.plane q).slots j = Tbl.get {} (d.plane q).slots j)
          ∧ (Tbl.get {} (d'.plane q).slots (3 * n + p)).gated = false
          ∧ ∃ u, (Tbl.get {} (d'.plane q).slots (3 * n + p)).units
                  = (u :: (Tbl.get {} (d.plane q).slots (3 * n + p)).units).take 4
              ∧ u.line = hLine h ∧ u.fmt = hFmt h ∧ u.hdr = h ∧ u.arrive = d.epoch
              ∧ u.delay = (d.inp (3 * n + p)).delayNext.getD (d.inp (3 * n + p)).delay
              ∧ (hAbort h = false → u.video = sec.1 ∧ u.anc = sec.2.1)
              ∧ (hAbort h = true → u.video = [] ∧ u.anc = [] ∧ u.aud = []))
      ∧ Tbl.get (0, 0, 0) (d'.lane n).seqPrev p = (hLine h, hFrame h, hFmt h) ∧ HeardSet d d' n
      ∧ KeepsOthers .LN_CNT_PCL n d d'
      ∧ Keeps (.lanes :: .ins :: .planes :: evAreas) (.LN_CNT_PCL :: .AX_CNT_DISC :: evRegs) d d')
  ∧ (∀ (s : State) (t n p : Nat) (pos : List Nat) (hdr h : List Byte) (body : List Word) (f : Field) (d : Dev), d = s.on t →
      ParcelIn d n p pos hdr h → d.parcelCheck n p h body = some f →
      Runs (.parcelReceived t n pos hdr body true) s fun d' =>
        d'.rd f n = satAdd f.width (d.rd f n) 1 ∧ KeepsOthers f.reg n d d'
        ∧ (d'.lane n).seqPrev = (d.lane n).seqPrev ∧ HeardSet d d' n ∧ Keeps (.lanes :: evAreas) (f.reg :: evRegs) d d')
  ∧ (∀ (s : State) (t n p : Nat) (pos : List Nat) (hdr h : List Byte) (body : List Word) (d : Dev), d = s.on t →
      ParcelIn d n p pos hdr h →
      Runs (.parcelReceived t n pos hdr body false) s fun d' =>
        d'.rd F.LN_CNT_PCL_len_err n = min (d.rd F.LN_CNT_PCL_len_err n + 1) 65535 ∧ KeepsOthers .LN_CNT_PCL n d d'
        ∧ HeardSet d d' n ∧ Keeps (.lanes :: evAreas) (.LN_CNT_PCL :: evRegs) d d')
  ∧ (∀ (s : State) (t n : Nat) (hdr : List Byte) (body : List Word) (whole : Bool) (d : Dev), d = s.on t → n < 384 →
      d.flag F.CLK_STATUS_safe = false → d.rxOpen n = true → body ≠ [] →
      Runs (.parcelReceived t n [] hdr body whole) s fun d' =>
        d'.rd F.LN_CNT_PCL_len_err n = min (d.rd F.LN_CNT_PCL_len_err n + body.length) 65535 ∧ KeepsOthers .LN_CNT_PCL n d d'
        ∧ HeardSet d d' n ∧ Keeps (.lanes :: evAreas) (.LN_CNT_PCL :: evRegs) d d')
  ∧ (∀ (s : State) (t n : Nat) (pos : List Nat) (c : Instr) (hdr : List Byte) (body : List Word) (whole : Bool) (d : Dev),
      d = s.on t → Hears d n → posOf pos = none → pos ≠ [] →
      (c = .parcelReceived t n pos hdr body whole ∨ c = .swmReceived t n pos ∨ c = .fchReceived t n pos) →
      Runs c s fun d' =>
        let k := b2n (d.flag F.LN_STATUS_rx_aligned n)
        d'.rd F.LN_CNT_CODE_code_err n = min (d.rd F.LN_CNT_CODE_code_err n + k) 65535
        ∧ (d'.lane n).winErr = (d.lane n).winErr + k ∧ (d'.lane n).seqPrev = (d.lane n).seqPrev
        ∧ HeardSet d d' n ∧ KeepsOthers .LN_CNT_CODE n d d' ∧ Keeps [.lanes] [.LN_CNT_CODE] d d')
  ∧ (∀ (s : State) (t n p : Nat) (pos : List Nat) (d : Dev), d = s.on t → Hears d n → posOf pos = some p →
      Runs (.swmReceived t n pos) s fun d' =>
        d'.lane n = { d.lane n with noSignal := false, run21 := 0, restartRun := 0 } ∧ OtherLanes n d d'
        ∧ Keeps [.lanes] [] d d')
  ∧ (∀ (s : State) (t n p : Nat) (pos : List Nat) (d : Dev), d = s.on t → n < 384 → d.flag F.CLK_STATUS_safe = false →
      d.rxOpen n = true → posOf pos = some p →
      Runs (.fchReceived t n pos) s fun d' =>
        Tbl.get (0, 0, 0) (d'.lane n).seqPrev p = (0, 0, 0)
        ∧ (∀ q, q ≠ p → Tbl.get (0, 0, 0) (d'.lane n).seqPrev q = Tbl.get (0, 0, 0) (d.lane n).seqPrev q)
        ∧ (d'.lane n).winErr = (d.lane n).winErr ∧ HeardSet d d' n ∧ Keeps [.lanes] [] d d')

/-- Twin sets (R206 to R208): the first copy of a line from an eligible member is taken and counted, a later one of either
member is a duplicate; an abort copy is held a quarter line for the mate's, whose good copy is taken in its place; a later
line ends a hold, and the held copy is taken when that time is over.

Slot buffers and monitors (R36, R186, R187, R189): a buffer that no parcel can reach is gated four line periods
after the last commit; at the end of a frame of the slot's grid the mean, smallest and largest offset, presence and
the rest are published and the publication count rises. That the figures are shown rounded down, and
which copies of a held line count as dup, are the model's choices (log 15 and 52). -/
def Obligations.TwinsAndMonitors : Prop :=
  (∀ (s : State) (t n p i : Nat) (pos : List Nat) (hdr h : List Byte) (body : List Word) (d : Dev), d = s.on t →
    ParcelIn d n p pos hdr h → d.twinned n = true → d.parcelCheck n p h body = none → d.memberEligible n p = true →
    i = d.slot0 n + p → hLine h ∉ (d.inp i).taken → (d.inp i).held = none →
    hAbort h = false ∨ d.memberEligible (mate n) p = false →
    Runs (.parcelReceived t n pos hdr body true) s fun d' =>
      d'.rd F.LN_TWIN_CNT_taken n = min (d.rd F.LN_TWIN_CNT_taken n + 1) 65535
      ∧ (d'.inp i).taken = (hLine h :: (d.inp i).taken).take 2 ∧ (d'.inp i).held = none
      ∧ (d'.inp i).lastFrom = n % 2 + 1 ∧ (d'.inp i).lastCommit = d.now ∧ (d'.inp i).fmt = hFmt h
      ∧ (∀ j, j ≠ i → d'.inp j = d.inp j) ∧ KeepsOthers .LN_TWIN_CNT n d d' ∧ HeardSet d d' n
      ∧ Keeps (.lanes :: .ins :: .planes :: evAreas) (.LN_CNT_PCL :: .LN_TWIN_CNT :: .AX_CNT_DISC :: evRegs) d d')
  ∧ (∀ (s : State) (t n p i : Nat) (pos : List Nat) (hdr h : List Byte) (body : List Word) (d : Dev), d = s.on t →
      ParcelIn d n p pos hdr h → d.twinned n = true → d.parcelCheck n p h body = none → i = d.slot0 n + p →
      hLine h ∈ (d.inp i).taken →
      Runs (.parcelReceived t n pos hdr body true) s fun d' =>
        d'.rd F.LN_TWIN_CNT_dup n = min (d.rd F.LN_TWIN_CNT_dup n + 1) 65535
        ∧ d'.rd F.LN_TWIN_CNT_taken n = d.rd F.LN_TWIN_CNT_taken n ∧ KeepsOthers .LN_TWIN_CNT n d d'
        ∧ HeardSet d d' n ∧ Keeps [.lanes] [.LN_CNT_PCL, .LN_TWIN_CNT] d d')
  ∧ (∀ (s : State) (t n p i : Nat) (pos : List Nat) (hdr h : List Byte) (body : List Word) (d : Dev), d = s.on t →
      ParcelIn d n p pos hdr h → d.twinned n = true → d.parcelCheck n p h body = none → d.memberEligible n p = true →
      d.memberEligible (mate n) p = true → i = d.slot0 n + p → hLine h ∉ (d.inp i).taken → (d.inp i).held = none →
      hAbort h = true →
      Runs (.parcelReceived t n pos hdr body true) s fun d' =>
        d'.inp i = { d.inp i with held := some { n := n, at' := d.now, hdr := h, body := body } }
        ∧ (∀ j, j ≠ i → d'.inp j = d.inp j) ∧ HeardSet d d' n ∧ Keeps [.lanes, .ins] [.LN_CNT_PCL] d d')
  ∧ (∀ (s : State) (t n p i : Nat) (pos : List Nat) (hdr h : List Byte) (body : List Word) (c : Held') (d : Dev), d = s.on t →
      ParcelIn d n p pos hdr h → d.twinned n = true → d.parcelCheck n p h body = none → d.memberEligible n p = true →
      i = d.slot0 n + p → hLine h ∉ (d.inp i).taken → (d.inp i).held = some c → c.n = mate n → hLine c.hdr = hLine h →
      hAbort h = false →
      Runs (.parcelReceived t n pos hdr body true) s fun d' =>
        d'.rd F.LN_TWIN_CNT_taken n = min (d.rd F.LN_TWIN_CNT_taken n + 1) 65535 ∧ (d'.inp i).held = none
        ∧ (d'.inp i).taken = (hLine h :: (d.inp i).taken).take 2 ∧ (d'.inp i).lastFrom = n % 2 + 1
        ∧ (∀ j, j ≠ i → d'.inp j = d.inp j) ∧ KeepsOthers .LN_TWIN_CNT n d d' ∧ HeardSet d d' n
        ∧ Keeps (.lanes :: .ins :: .planes :: evAreas) (.LN_CNT_PCL :: .LN_TWIN_CNT :: .AX_CNT_DISC :: evRegs) d d')
  ∧ (∀ (s : State) (t n p i : Nat) (pos : List Nat) (hdr h : List Byte) (body : List Word) (c : Held') (d : Dev), d = s.on t →
      ParcelIn d n p pos hdr h → d.twinned n = true → d.parcelCheck n p h body = none → d.memberEligible n p = true →
      i = d.slot0 n + p → hLine h ∉ (d.inp i).taken → (d.inp i).held = some c → hLine c.hdr ≠ hLine h → hAbort h = false →
      Runs (.parcelReceived t n pos hdr body true) s fun d' =>
        (d'.inp i).held = none ∧ (d'.inp i).taken = (hLine h :: hLine c.hdr :: (d.inp i).taken).take 2
        ∧ (∀ j, j ≠ i → d'.inp j = d.inp j) ∧ HeardSet d d' n
        ∧ Keeps (.lanes :: .ins :: .planes :: evAreas) (.LN_CNT_PCL :: .LN_TWIN_CNT :: .AX_CNT_DISC :: evRegs) d d')
  ∧ (∀ (s : State) (t i : Nat) (c : Held') (d : Dev), d = s.on t → i < 1152 → (d.inp i).held = some c → c.n < 384 →
      c.at' + lineU (fmtRate (hFmt c.hdr)) (fmtL (hFmt c.hdr)) / 4 ≤ d.now →
      Runs (.twinHoldExpiry t i) s fun d' =>
        (d'.inp i).held = none ∧ (d'.inp i).lastCommit = d.now ∧ (d'.inp i).lastFrom = c.n % 2 + 1
        ∧ (d'.inp i).taken = (hLine c.hdr :: (d.inp i).taken).take 2
        ∧ d'.rd F.LN_TWIN_CNT_taken c.n = min (d.rd F.LN_TWIN_CNT_taken c.n + 1) 65535
        ∧ (∀ j, j ≠ i → d'.inp j = d.inp j) ∧ KeepsOthers .LN_TWIN_CNT c.n d d'
        ∧ Keeps (.ins :: .planes :: evAreas) (.LN_TWIN_CNT :: .AX_CNT_DISC :: evRegs) d d')
  ∧ (∀ (s : State) (t i : Nat), i < 1152 → ((s.on t).inp i).held = none → OnlyTime (.twinHoldExpiry t i) s t)
  ∧ (∀ (s : State) (t i : Nat) (d : Dev), d = s.on t → i < 1152 → d.noParcels i = true →
    (d.inp i).lastCommit + 4 * lineU (fmtRate (d.inp i).fmt) (fmtL (d.inp i).fmt) ≤ d.now →
    Runs (.slotBufferGate t i) s fun d' =>
      (∀ q : Plane, d'.plane q = { d.plane q with slots := (d'.plane q).slots } ∧ Tbl.get {} (d'.plane q).slots i = {}
        ∧ ∀ j, j ≠ i → Tbl.get {} (d'.plane q).slots j = Tbl.get {} (d.plane q).slots j)
      ∧ Keeps [.planes] [] d d')
  ∧ (∀ (s : State) (t i : Nat), i < 1152 → (s.on t).noParcels i = false → OnlyTime (.slotBufferGate t i) s t)
  ∧ (∀ (s : State) (t i r L f : Nat) (a : Acc) (d : Dev), d = s.on t → i < 1152 → (d.inp i).mon.grid = some (r, L) →
      f = frameAt r d.epoch → (d.inp i).mon.frame < f → a = Tbl.get {} (d.inp i).mon.accs (f - 1) →
      Runs (.monitorPublish t i) s fun d' =>
        d'.rd F.LN_MON_STATE_seq i = (d.rd F.LN_MON_STATE_seq i + 1) % 256
        ∧ d'.flag F.LN_MON_STATE_present i = decide (0 < a.count)
        ∧ d'.flag F.LN_MON_STATE_timed i
            = decide (0 < a.count ∧ -(lineU r L : Int) ≤ a.min ∧ a.max ≤ (lineU r L : Int))
        ∧ d'.flag F.LN_MON_STATE_class_match i = d.classMatch (d.inp i).fmt
        ∧ d'.flag F.LN_MON_STATE_rtp_valid i = a.rtp.isSome ∧ d'.rd F.LN_MON_STATE_rtp_delta i = ofInt 16 (a.rtp.getD 0)
        ∧ d'.rd F.LN_MON_MEAN_mean i = ofInt 32 (a.sum / ((max 1 a.count : Nat) : Int) / (nsU : Int))
        ∧ d'.rd F.LN_MON_MIN_min i = ofInt 32 (a.min / (nsU : Int)) ∧ d'.rd F.LN_MON_MAX_max i = ofInt 32 (a.max / (nsU : Int))
        ∧ (d'.inp i).mon.frame = f ∧ (d'.inp i).mon.missed = []
        ∧ (∀ j, j ≠ i → d'.inp j = d.inp j) ∧ KeepsOthers .LN_MON_STATE i d d' ∧ KeepsOthers .LN_MON_MEAN i d d'
        ∧ KeepsOthers .LN_MON_MIN i d d' ∧ KeepsOthers .LN_MON_MAX i d d'
        ∧ Keeps (.ins :: evAreas) (.LN_MON_MEAN :: .LN_MON_MIN :: .LN_MON_MAX :: .LN_MON_STATE :: evRegs) d d')
/-! ### Outputs: frames, lines, the selector, raster changes, table scrubs (chapters 5 and 6) -/

/-- Frame starts (R301, R312, R333, R336, R363): a plane in service takes the start of an output's frame once, ends the frame's
underrun state, and the output's CCT fields that wait take effect; its reader of a frame-sync channel selects the newest frame
that was complete before the read instant, and shows black where there is none, and its reader of a conversion channel the newest
channel frame that has ended by then; a joining plane copies the output's route and overlay from the other plane at the output's
first frame start after its join instant.

A line is stored for frame-sync and conversion channels (R182, R331): a channel that takes it writes the line's
video words at the line's place in the frame buffer being written, and nothing else of the stack. The place of a
line in its frame buffer and the buffer a header's frame count names are the model's reading (log 18 and 26). -/
def Obligations.FramesAndStores : Prop :=
  (∀ (s : State) (t o f tOut c k : Nat) (p : Plane) (d : Dev), d = (s.on t).landDue → o < 1152 → d.headOf o = o →
    d.lineTime o f 1 = some tOut → atRead (d.out o).fmt tOut d.epoch = true → d.plState p = 0 → d.computes o p = true →
    (d.op o p).waitCopy = false → (d.op o p).frameNo ≠ some f → (d.op o p).active.kind ≠ 3 → (d.plane p).dests = [] →
    (d.out o).cctNext = some (c, k) →
    Runs (.outputFrameStart t p o f) s fun d' =>
      (d'.op o p).frameNo = some f ∧ (d'.op o p).under = false ∧ (d'.op o p).ovlUnder = false
      ∧ (d'.op o p).active = (d.op o p).active
      ∧ (d'.out o).cct = c ∧ (d'.out o).matchLine = k ∧ (d'.out o).cctNext = none ∧ (d'.out o).raster = (d.out o).raster
      ∧ (∀ m, m ∉ group o (fmtG (d.out o).fmt) → d'.out m = d.out m) ∧ Keeps [.outs] [] d d')
  ∧ (∀ (s : State) (t o f tOut : Nat) (p : Plane) (d : Dev), d = (s.on t).landDue → o < 1152 → d.headOf o = o →
      d.lineTime o f 1 = some tOut → atRead (d.out o).fmt tOut d.epoch = true → d.plState p = 0 → (d.op o p).waitCopy = false →
      (d.op o p).frameNo = some f → Runs (.outputFrameStart t p o f) s fun d' => d' = d)
  ∧ (∀ (s : State) (t o f tOut : Nat) (p : Plane) (d : Dev), d = (s.on t).landDue → o < 1152 → d.headOf o = o →
      d.lineTime o f 1 = some tOut → atRead (d.out o).fmt tOut d.epoch = true → d.plState p = 3 → (d.op o p).waitCopy = true →
      (d.plane p).joinEp < tOut → (d.op o p.other).active.kind < 3 → (d.plane p).dests = [] → (d.plane p.other).dests = [] →
      Runs (.outputFrameStart t p o f) s fun d' =>
        (d'.op o p).waitCopy = false ∧ (d'.op o p).active = (d.op o p.other).active ∧ (d'.op o p).ovl = (d.op o p.other).ovl
        ∧ (d'.plState p = 0 ∨ d'.plState p = 3)
        ∧ Keeps (.outs :: .planes :: evAreas) (.PL_STATUS :: .SEL_STATUS :: .LX_STATUS :: .AX_STATUS :: evRegs) d d')
  ∧ (∀ (s : State) (t o f tOut id : Nat) (p : Plane) (d : Dev), d = (s.on t).landDue → o < 1152 → d.headOf o = o →
      d.lineTime o f 1 = some tOut → atRead (d.out o).fmt tOut d.epoch = true → d.plState p = 0 → d.computes o p = true →
      (d.op o p).waitCopy = false → (d.op o p).frameNo ≠ some f → (d.op o p).reader.at' ≠ some f → (d.op o p).active.kind = 3 →
      (d.op o p).active.chan = id → (d.owner p id).isOpen = true → (d.owner p id).aborted = false →
      isConv id = false ∨ d.needNow p id = (d.owner p id).owned → (d.plane p).dests = [] →
      Runs (.outputFrameStart t p o f) s fun d' =>
        (d'.op o p).frameNo = some f ∧ (d'.op o p).reader.at' = some f
        ∧ (isSync id = true →
            ∀ i b c, (d.owner p id).newestFrame (fun a => beforeRead (d.out o).fmt tOut a) = some (i, b, c) →
              (d'.op o p).reader.sel = some c
              ∧ ((d.op o p).reader.sel ≠ some c → (d'.op o p).reader.buf = i ∧ (d'.op o p).reader.black = false))
        ∧ (isSync id = true → (d.owner p id).newestFrame (fun a => beforeRead (d.out o).fmt tOut a) = none →
            (d'.op o p).reader.black = true)
        ∧ (isSync id = false →
            ∀ x, (d.owner p id).frames.find? (fun x =>
                atRead (d.out o).fmt tOut (frameStart (fmtRate (d.owner p id).fmtOut) (x.j + 1))) = some x →
              (d'.op o p).reader.sel = some x.j ∧ (d'.op o p).reader.black = (x.state != .computed))
        ∧ d'.plane p.other = d.plane p.other ∧ (∀ m, m ∉ group o (fmtG (d.out o).fmt) → d'.out m = d.out m)
        ∧ Keeps [.outs, .planes] [] d d')
  ∧ (∀ (s : State) (t i id m w : Nat) (p : Plane) (u : Unit') (rest : List Unit') (o : Owner) (d : Dev),
    d = (s.on t).landDue → i < 1152 → (Tbl.get {} (d.plane p).slots i).units = u :: rest → d.inService p = true →
    d.channelsOf p i = [(id, m)] → o = d.owner p id → o.fmtIn = u.fmt → o.aborted = false → baseOf o.profile ≠ pxAsrc →
    Tbl.get 0 o.got m ≠ u.arrive + 1 → u.line ≠ 1 → o.writing = some w → (o.buf w).cnt = hFrame u.hdr →
    (o.buf w).mark m u.line = none →
    RunsMem (.hamperIngest t p i) s fun mem d' =>
      (∀ k, k < (u.video.flatMap wordBytes).length →
        Memory.read 0#8 (mem.hamper.pl p) (lineAddr id u.fmt w m u.line + k) = (u.video.flatMap wordBytes).getD k 0#8)
      ∧ (∀ a, (a < lineAddr id u.fmt w m u.line ∨ lineAddr id u.fmt w m u.line + (u.video.flatMap wordBytes).length ≤ a) →
          Memory.read 0#8 (mem.hamper.pl p) a = Memory.read 0#8 (s.mem.hamper.pl p) a)
      ∧ mem.hamper.pl p.other = s.mem.hamper.pl p.other ∧ mem.larder = s.mem.larder ∧ mem.sram = s.mem.sram
      ∧ ((d'.owner p id).buf w).lines = lineMark m u :: (o.buf w).lines
      ∧ Tbl.get 0 (d'.owner p id).got m = u.arrive + 1
      ∧ (∀ x, x ≠ id → d'.owner p x = d.owner p x) ∧ d'.plane p.other = d.plane p.other ∧ Keeps [.planes] [] d d')
  ∧ (∀ (s : State) (t i : Nat) (p : Plane) (d : Dev), d = (s.on t).landDue → i < 1152 → d.channelsOf p i = [] →
      Runs (.hamperIngest t p i) s fun d' => d' = d)

/-- Building a line (R165 to R168, R183 to R185, R212, R222, R223, R238, R296): a plane stages a copy of the line, with the
next heartbeat, its source's ANC records as far as the header's count and the word limit let them, and the picture of its
route: black, the timed source's own line, or the line that its channel's reader shows. A timed source with no unit in window
and a line that scan-out does not deliver in time give a line built as missed; the one is counted and noted for its monitor, and
by the other the rest of the frame is built so. An entry that the read finds corrected is counted, an uncorrectable one
is a plane fault, and the line that it would have routed is built as missed. Which records give way is the model's choice, and
slot groups rest on its reading (log 22 and 50). -/
def Obligations.LinesRead : Prop :=
  (∀ (s : State) (t o f k tOut first c : Nat) (p : Plane) (pic : Picture) (d : Dev), d = (s.on t).landDue →
    Reads d p o f k tOut first → c = (d.out o).fmt →
    ((d.op o p).active.kind = 1 ∧ pic = { black := fmtActive c k }
      ∨ (d.op o p).active.kind = 2 ∧ pic = d.timedLine p (d.op o p).active.src 0 c k tOut ∧ pic.missed = false
      ∨ (d.op o p).active.kind = 3 ∧ (d.owner p (d.op o p).active.chan).isOpen = true ∧ (d.op o p).under = false
        ∧ (d.op o p).reader.at' = some f
        ∧ pic = if isSync (d.op o p).active.chan then
            d.syncLine (s.mem.hamper.pl p) p (d.op o p).active.chan 0 k (d.op o p).reader
          else d.convLine p (d.op o p).active.chan 0 k (d.op o p).reader) →
    Runs (.lineRead t p o f k .clean .clean true true) s fun d' =>
      let anc := fitRecords 63 (wordLimit c (d.laneRate (o / 3)) - (6 + pic.video.length)) (if pic.abort then [] else pic.anc)
      let hb := if (d.op o p).started then ((d.op o p).hb + 1) % 8 else 0
      let rtp := outForm (d.out o).cct && k == 1
      d'.op o p = { d.op o p with
        hb := hb, started := true, swNext := false
        staged := some
          { frame := f, line := k, body := pic.video ++ anc.flatten
            hdr := egressHeader o (b2n (outForm (d.out o).cct)) 0 c
              (headerFlags (d.op o p).swNext ((d.out o).firstLine && k == 1) pic.abort pic.black rtp (!pic.video.isEmpty))
              k p.id hb f (if rtp then egressTsw (fmtRate c) f else 0) anc.length 0 } }
      ∧ d'.op o p.other = d.op o p.other ∧ (d'.out o).raster = (d.out o).raster ∧ OtherOuts o d d' ∧ Keeps [.outs] [] d d')
  ∧ (∀ (s : State) (t o f k tOut first : Nat) (p : Plane) (d : Dev), d = (s.on t).landDue → Reads d p o f k tOut first →
      (d.op o p).active.kind = 2 → (d.timedLine p (d.op o p).active.src 0 (d.out o).fmt k tOut).missed = true →
      Runs (.lineRead t p o f k .clean .clean true true) s fun d' =>
        StagesMissed d' p o f k
        ∧ d'.rd F.LX_CNT_MISS_missed p.id = satAdd F.LX_CNT_MISS_missed.width (d.rd F.LX_CNT_MISS_missed p.id) 1
        ∧ (d'.inp (d.op o p).active.src).mon.missed = setInsert k (d.inp (d.op o p).active.src).mon.missed
        ∧ (∀ j, j ≠ (d.op o p).active.src → d'.inp j = d.inp j) ∧ OtherOuts o d d' ∧ KeepsOthers .LX_CNT_MISS p.id d d'
        ∧ Keeps [.outs, .ins] [.LX_CNT_MISS] d d')
  ∧ (∀ (s : State) (t o f k tOut first : Nat) (p : Plane) (ovl : Bool) (d : Dev), d = (s.on t).landDue →
      Reads d p o f k tOut first → (d.op o p).active.kind = 3 → (d.owner p (d.op o p).active.chan).isOpen = true →
      (d.op o p).under = false → (d.op o p).reader.at' = some f → (d.op o p).reader.black = false →
      Runs (.lineRead t p o f k .clean .clean false ovl) s fun d' =>
        StagesMissed d' p o f k ∧ (d'.op o p).under = true ∧ d'.op o p.other = d.op o p.other
        ∧ (outEvEn (d.out o).cct 3 = false → d'.ev = d.ev) ∧ OtherOuts o d d' ∧ Keeps (.outs :: evAreas) evRegs d d')
  ∧ (∀ (s : State) (t o f k tOut first : Nat) (p : Plane) (dl ovl : Bool) (d : Dev), d = (s.on t).landDue →
      Reads d p o f k tOut first → (d.op o p).active.kind = 1 →
      Runs (.lineRead t p o f k .corrected .clean dl ovl) s fun d' =>
        d'.rd F.LX_ECC_CNT_corrected p.id = satAdd F.LX_ECC_CNT_corrected.width (d.rd F.LX_ECC_CNT_corrected p.id) 1
        ∧ (∃ y, (d'.op o p).staged = some y ∧ y.frame = f ∧ y.line = k ∧ y.body = [] ∧ hAbort y.hdr = false)
        ∧ OtherOuts o d d' ∧ KeepsOthers .LX_ECC_CNT p.id d d' ∧ Keeps [.outs, .free] [.LX_ECC_CNT, .LX_ECC_ADDR] d d')
  ∧ (∀ (s : State) (t o f k tOut first : Nat) (p : Plane) (dl ovl : Bool) (aud : Ecc) (d : Dev), d = (s.on t).landDue →
      Reads d p o f k tOut first → (d.op o p).active.kind = 1 → aud = .clean ∨ aud = .corrected →
      Runs (.lineRead t p o f k .uncorrectable aud dl ovl) s fun d' =>
        StagesMissed d' p o f k ∧ Faulted d d' p 1 ∧ d'.flag F.LX_STATUS_map_fault p.id = true
        ∧ d'.rd F.LX_ECC_CNT_uncorrected p.id = satAdd F.LX_ECC_CNT_uncorrected.width (d.rd F.LX_ECC_CNT_uncorrected p.id) 1
        ∧ OtherOuts o d d'
        ∧ Keeps (.outs :: .free :: .ldr :: faultAreas)
            (.LX_ECC_CNT :: .LX_ECC_ADDR :: .LX_STATUS :: .AX_ECC_CNT :: .AX_ECC_ADDR :: faultRegs) d d')
  ∧ (∀ (s : State) (t o f k tOut first : Nat) (p : Plane) (dl ovl : Bool) (d : Dev), d = (s.on t).landDue →
      Reads d p o f k tOut first → (d.op o p).active.kind = 1 →
      Runs (.lineRead t p o f k .clean .uncorrectable dl ovl) s fun d' =>
        Faulted d d' p 2 ∧ d'.flag F.AX_STATUS_map_fault p.id = true
        ∧ d'.rd F.AX_ECC_CNT_uncorrected p.id = satAdd F.AX_ECC_CNT_uncorrected.width (d.rd F.AX_ECC_CNT_uncorrected p.id) 1
        ∧ OtherOuts o d d'
        ∧ Keeps (.outs :: .free :: .ldr :: faultAreas) (.AX_ECC_CNT :: .AX_ECC_ADDR :: .AX_STATUS :: faultRegs) d d')
  ∧ (∀ (s : State) (t o f k tOut first : Nat) (p : Plane) (ecc aud : Ecc) (dl ovl : Bool) (d : Dev), d = (s.on t).landDue →
      LineAt d o f k tOut first → d.plFaulted p = true → atRead (d.out o).fmt tOut d.epoch = true →
      d.epoch ≤ tOut → Runs (.lineRead t p o f k ecc aud dl ovl) s fun d' => d' = d)

/-- The selector (R164, R223 to R230, R232, R565, Table 6-2): off the switch line a good and clean copy of the serving
plane is sent; where the serving plane has failed and the other's copy is good, that is sent and the output fails
over; with no copy a fill parcel is sent and counted; an output of no route sends nothing; in each case the flywheel
moves to the line. At the switch line a move to the preferred plane that was asked for is made once that plane's copy is good
and clean and its state equivalent, and is no failover.

Raster changes (R32, R218, R240, R243): at its instant the output takes the new class, format and offset, starts with
line 1 of the new raster, sends FCH where it sent parcels, and the change is noted for the journal; an output that leaves its
class keeps no route and is mirrored again, with preferred plane A. Slot groups and
the instant of a raster change rest on the model's reading (log 22 and 28). -/
def Obligations.SelectorsAndRasters : Prop :=
  (∀ (s : State) (t o f k tOut first h : Nat) (y : Copy) (d : Dev), d = (s.on t).landDue → Decides d o f k tOut first →
    d.routed o = true → GoodCopy d o f k (d.out o).serving y h → ((d.out o).mode ≠ 0 ∨ k ≠ d.landLine (d.out o).cls (d.out o).fmt) →
    Runs (.selectorDecision t o f k) s fun d' =>
      Sent d d' o y ∧ (d'.out o).frame = f ∧ (d'.out o).line = k ∧ (d'.out o).fillNow = false
      ∧ (d'.out o).serving = (d.out o).serving ∧ (d'.out o).failovers = (d.out o).failovers
      ∧ (d'.op o (d.out o).serving).lastHb = some (fieldAt y.hdr 4 2 / 8192)
      ∧ (d'.out o).raster = (d.out o).raster ∧ OtherOuts o d d' ∧ Keeps (.outs :: .ins :: evAreas) evRegs d d')
  ∧ (∀ (s : State) (t o f k tOut first h : Nat) (y : Copy) (d : Dev), d = (s.on t).landDue → Decides d o f k tOut first →
      d.routed o = true → (d.out o).mode = 0 → k ≠ d.landLine (d.out o).cls (d.out o).fmt → d.plFaulted (d.out o).serving = true →
      d.flag F.SEL_CTRL_force_on_fault = true → GoodCopy d o f k (d.out o).serving.other y h →
      Runs (.selectorDecision t o f k) s fun d' =>
        Sent d d' o y ∧ (d'.out o).serving = (d.out o).serving.other ∧ (d'.out o).failovers = satAdd 16 (d.out o).failovers 1
        ∧ d'.rd F.SEL_CNT_FAILOVER_failovers
            = satAdd F.SEL_CNT_FAILOVER_failovers.width (d.rd F.SEL_CNT_FAILOVER_failovers) 1
        ∧ (d'.out o).frame = f ∧ (d'.out o).line = k ∧ OtherOuts o d d'
        ∧ Keeps (.outs :: .ins :: evAreas) (.SEL_CNT_FAILOVER :: evRegs) d d')
  ∧ (∀ (s : State) (t o f k tOut first h : Nat) (y : Copy) (q : Plane) (d : Dev), d = (s.on t).landDue →
      Decides d o f k tOut first → d.routed o = true → (d.out o).mode = 0 → k = d.landLine (d.out o).cls (d.out o).fmt →
      q = (d.out o).preferred → q ≠ (d.out o).serving → (d.out o).moveTo = true → StaysLike d o q → GoodCopy d o f k q y h →
      Runs (.selectorDecision t o f k) s fun d' =>
        Sent d d' o y ∧ (d'.out o).serving = q ∧ (d'.out o).moveTo = false ∧ (d'.out o).failovers = (d.out o).failovers
        ∧ (d'.out o).frame = f ∧ (d'.out o).line = k ∧ (d'.out o).fillNow = false ∧ OtherOuts o d d'
        ∧ Keeps (.outs :: .ins :: evAreas) evRegs d d')
  ∧ (∀ (s : State) (t o f k tOut first : Nat) (d : Dev), d = (s.on t).landDue → Decides d o f k tOut first →
      d.routed o = true → (d.op o .a).staged = none → (d.op o .b).staged = none →
      Runs (.selectorDecision t o f k) s fun d' =>
        Sent d d' o (d.fillParcel o o f k) ∧ (d'.out o).fillNow = true ∧ (d'.out o).fills = (d.out o).fills + 1
        ∧ d'.rd F.SEL_CNT_FILL_fill = satAdd F.SEL_CNT_FILL_fill.width (d.rd F.SEL_CNT_FILL_fill) 1
        ∧ (d'.out o).frame = f ∧ (d'.out o).line = k ∧ OtherOuts o d d'
        ∧ Keeps (.outs :: .ins :: evAreas) (.SEL_CNT_FILL :: evRegs) d d')
  ∧ (∀ (s : State) (t o f k tOut first : Nat) (d : Dev), d = (s.on t).landDue → Decides d o f k tOut first →
      d.routed o = false →
      Runs (.selectorDecision t o f k) s fun d' =>
        (∀ n q hd b, Emission.parcel n q hd b ∈ d'.emitted → Emission.parcel n q hd b ∈ d.emitted)
        ∧ (d'.out o).frame = f ∧ (d'.out o).line = k ∧ (d'.out o).fillNow = false ∧ OtherOuts o d d'
        ∧ Keeps (.outs :: .ins :: evAreas) evRegs d d')
  ∧ (∀ (s : State) (t o f k : Nat) (d : Dev), d = (s.on t).landDue → o < 1152 → d.lineTime o f k = none →
      Runs (.selectorDecision t o f k) s fun d' => d' = d)
  ∧ (∀ (s : State) (t o : Nat) (c : RasterChange) (r : Raster) (d : Dev), d = (s.on t).landDue → o < 1152 →
    (d.out o).change = some c → c.dst = some r → c.takes = [] → c.startAt ≤ d.epoch → d.flag F.CLK_STATUS_safe = false →
    (d.plane .a).dests = [] → (d.plane .b).dests = [] →
    Runs (.rasterChange t o) s fun d' =>
      (d'.out o).raster = some r ∧ (d'.out o).change = (d.out o).changeNext ∧ (d'.out o).after = c.startAt ∧ (d'.out o).frame = 0
      ∧ (d'.out o).line = 0 ∧ (d'.out o).firstLine = (d.out o).raster.isSome ∧ (d'.out o).mode = (d.out o).mode
      ∧ (∀ p : Plane, (d'.op o p).frameNo = none ∧ (d'.op o p).active = (d.op o p).active)
      ∧ ((d.out o).raster.isSome = true → d.routed o = true →
          ∀ n, n ∈ d.egressLanes o → d.txOpen n = true → d.partnerRx n (o % 3) = true → Emission.lane n (.fch (o % 3)) ∈ d'.emitted)
      ∧ (1, o) ∈ d'.ldr.jPend ∧ Keeps [.outs, .emitted, .ldr, .svr, .lanes] [] d d')
  ∧ (∀ (s : State) (t o : Nat) (c : RasterChange) (d : Dev), d = (s.on t).landDue → o < 1152 →
    (d.out o).change = some c → c.dst = none → c.takes = [] → c.startAt ≤ d.epoch → d.flag F.CLK_STATUS_safe = false →
    (d.plane .a).dests = [] → (d.plane .b).dests = [] →
    Runs (.rasterChange t o) s fun d' =>
      (d'.out o).raster = none ∧ (d'.out o).change = (d.out o).changeNext ∧ (d'.out o).mode = 0 ∧ (d'.out o).preferred = .a
      ∧ (d'.out o).firstLine = false ∧ (∀ p : Plane, (d'.op o p).active.kind = 0 ∧ (d'.op o p).waitCopy = false)
      ∧ ((d.out o).raster.isSome = true → d.routed o = true →
          ∀ n, n ∈ d.egressLanes o → d.txOpen n = true → d.partnerRx n (o % 3) = true → Emission.lane n (.fch (o % 3)) ∈ d'.emitted)
      ∧ (1, o) ∈ d'.ldr.jPend
      ∧ Keeps (.outs :: .svr :: .lanes :: evAreas) (.PL_STATUS :: .SEL_STATUS :: .LX_STATUS :: .AX_STATUS :: evRegs) d d')
  ∧ (∀ (s : State) (t o : Nat) (d : Dev), d = (s.on t).landDue → o < 1152 → (d.out o).change = none →
      Runs (.rasterChange t o) s fun d' => d' = d)

/-- Errors found in the crosspoint map, the Audio Map and the Page Map (R212, R213, R296, R319, R387, R563, Table
8-2): a clean entry changes nothing, and neither does a scrub that is off or whose plane is not in service; a corrected error is
counted and its entry captured until software clears the capture; an uncorrectable one is counted too, sets the table's fault
bit and is a plane fault of cause 1, 2 or 3. -/
def Obligations.TableScrubs : Prop :=
  (∀ (s : State) (t x : Nat) (p : Plane) (pend : Bool) (e : Ecc), x < 1152 →
    (e = .clean ∨ (s.on t).flag F.LX_CTRL_scrub_en p.id = false ∨ (s.on t).inService p = false) →
    OnlyTime (.mapScrub t p x pend e) s t)
  ∧ (∀ (s : State) (t x : Nat) (p : Plane) (e : Ecc), x < 18432 →
      (e = .clean ∨ (s.on t).flag F.AX_CTRL_scrub_en p.id = false ∨ (s.on t).inService p = false) →
      OnlyTime (.audioMapScrub t p x e) s t)
  ∧ (∀ (s : State) (t x : Nat) (p : Plane) (e : Ecc), x < 2097152 →
      (e = .clean ∨ (s.on t).flag F.HAM_CTRL_scrub_en p.id = false ∨ (s.on t).inService p = false) →
      OnlyTime (.pageMapScrub t p x e) s t)
  ∧ (∀ (s : State) (t x : Nat) (p : Plane) (pend : Bool) (d : Dev), d = s.on t → x < 1152 →
      d.flag F.LX_CTRL_scrub_en p.id = true → d.inService p = true →
      Runs (.mapScrub t p x pend .corrected) s fun d' =>
        d'.rd F.LX_ECC_CNT_corrected p.id = satAdd F.LX_ECC_CNT_corrected.width (d.rd F.LX_ECC_CNT_corrected p.id) 1
        ∧ (d.flag F.LX_ECC_ADDR_valid p.id = true → d'.reg .LX_ECC_ADDR p.id = d.reg .LX_ECC_ADDR p.id)
        ∧ (d.flag F.LX_ECC_ADDR_valid p.id = false →
            d'.rd F.LX_ECC_ADDR_slot p.id = x ∧ d'.flag F.LX_ECC_ADDR_pending p.id = pend
            ∧ d'.flag F.LX_ECC_ADDR_uncorr p.id = false ∧ d'.flag F.LX_ECC_ADDR_valid p.id = true)
        ∧ KeepsOthers .LX_ECC_CNT p.id d d' ∧ KeepsOthers .LX_ECC_ADDR p.id d d'
        ∧ Keeps [.free] [.LX_ECC_CNT, .LX_ECC_ADDR] d d')
  ∧ (∀ (s : State) (t x : Nat) (p : Plane) (d : Dev), d = s.on t → x < 18432 → d.flag F.AX_CTRL_scrub_en p.id = true →
      d.inService p = true →
      Runs (.audioMapScrub t p x .corrected) s fun d' =>
        d'.rd F.AX_ECC_CNT_corrected p.id = satAdd F.AX_ECC_CNT_corrected.width (d.rd F.AX_ECC_CNT_corrected p.id) 1
        ∧ (d.flag F.AX_ECC_ADDR_valid p.id = true → d'.reg .AX_ECC_ADDR p.id = d.reg .AX_ECC_ADDR p.id)
        ∧ (d.flag F.AX_ECC_ADDR_valid p.id = false →
            d'.rd F.AX_ECC_ADDR_dst p.id = x ∧ d'.flag F.AX_ECC_ADDR_uncorr p.id = false
            ∧ d'.flag F.AX_ECC_ADDR_valid p.id = true)
        ∧ KeepsOthers .AX_ECC_CNT p.id d d' ∧ KeepsOthers .AX_ECC_ADDR p.id d d'
        ∧ Keeps (.free :: evAreas) (.AX_ECC_CNT :: .AX_ECC_ADDR :: evRegs) d d')
  ∧ (∀ (s : State) (t x : Nat) (p : Plane) (d : Dev), d = s.on t → x < 2097152 → d.flag F.HAM_CTRL_scrub_en p.id = true →
      d.inService p = true →
      Runs (.pageMapScrub t p x .corrected) s fun d' =>
        d'.rd F.HAM_ECC_CNT_corrected p.id = satAdd F.HAM_ECC_CNT_corrected.width (d.rd F.HAM_ECC_CNT_corrected p.id) 1
        ∧ (d.flag F.HAM_ECC_ADDR_valid p.id = true → d'.reg .HAM_ECC_ADDR p.id = d.reg .HAM_ECC_ADDR p.id)
        ∧ (d.flag F.HAM_ECC_ADDR_valid p.id = false →
            d'.rd F.HAM_ECC_ADDR_page p.id = x ∧ d'.flag F.HAM_ECC_ADDR_uncorr p.id = false
            ∧ d'.flag F.HAM_ECC_ADDR_valid p.id = true)
        ∧ (d'.plane p).pmCorrected = satAdd 32 (d.plane p).pmCorrected 1 ∧ d'.plane p.other = d.plane p.other
        ∧ KeepsOthers .HAM_ECC_CNT p.id d d' ∧ KeepsOthers .HAM_ECC_ADDR p.id d d'
        ∧ Keeps (.free :: .planes :: evAreas) (.HAM_ECC_CNT :: .HAM_ECC_ADDR :: evRegs) d d')
  ∧ (∀ (s : State) (t x : Nat) (p : Plane) (pend : Bool) (d : Dev), d = s.on t → x < 1152 →
      d.flag F.LX_CTRL_scrub_en p.id = true → d.inService p = true →
      Runs (.mapScrub t p x pend .uncorrectable) s fun d' =>
        Faulted d d' p 1 ∧ d'.flag F.LX_STATUS_map_fault p.id = true
        ∧ d'.rd F.LX_ECC_CNT_uncorrected p.id = satAdd F.LX_ECC_CNT_uncorrected.width (d.rd F.LX_ECC_CNT_uncorrected p.id) 1
        ∧ (d.flag F.LX_ECC_ADDR_valid p.id = false →
            d'.rd F.LX_ECC_ADDR_slot p.id = x ∧ d'.flag F.LX_ECC_ADDR_pending p.id = pend
            ∧ d'.flag F.LX_ECC_ADDR_uncorr p.id = true ∧ d'.flag F.LX_ECC_ADDR_valid p.id = true)
        ∧ KeepsOthers .LX_ECC_CNT p.id d d' ∧ KeepsOthers .LX_STATUS p.id d d'
        ∧ Keeps (.free :: .ldr :: faultAreas) (.LX_ECC_CNT :: .LX_ECC_ADDR :: .LX_STATUS :: faultRegs) d d')
  ∧ (∀ (s : State) (t x : Nat) (p : Plane) (d : Dev), d = s.on t → x < 18432 → d.flag F.AX_CTRL_scrub_en p.id = true →
      d.inService p = true →
      Runs (.audioMapScrub t p x .uncorrectable) s fun d' =>
        Faulted d d' p 2 ∧ d'.flag F.AX_STATUS_map_fault p.id = true
        ∧ d'.rd F.AX_ECC_CNT_uncorrected p.id = satAdd F.AX_ECC_CNT_uncorrected.width (d.rd F.AX_ECC_CNT_uncorrected p.id) 1
        ∧ (d.flag F.AX_ECC_ADDR_valid p.id = false →
            d'.rd F.AX_ECC_ADDR_dst p.id = x ∧ d'.flag F.AX_ECC_ADDR_uncorr p.id = true
            ∧ d'.flag F.AX_ECC_ADDR_valid p.id = true)
        ∧ KeepsOthers .AX_ECC_CNT p.id d d' ∧ KeepsOthers .AX_STATUS p.id d d'
        ∧ Keeps (.free :: .ldr :: faultAreas) (.AX_ECC_CNT :: .AX_ECC_ADDR :: .AX_STATUS :: faultRegs) d d')
  ∧ (∀ (s : State) (t x : Nat) (p : Plane) (d : Dev), d = s.on t → x < 2097152 → d.flag F.HAM_CTRL_scrub_en p.id = true →
      d.inService p = true →
      Runs (.pageMapScrub t p x .uncorrectable) s fun d' =>
        Faulted d d' p 3
        ∧ d'.rd F.HAM_ECC_CNT_uncorrected p.id = satAdd F.HAM_ECC_CNT_uncorrected.width (d.rd F.HAM_ECC_CNT_uncorrected p.id) 1
        ∧ (d.flag F.HAM_ECC_ADDR_valid p.id = false →
            d'.rd F.HAM_ECC_ADDR_page p.id = x ∧ d'.flag F.HAM_ECC_ADDR_uncorr p.id = true
            ∧ d'.flag F.HAM_ECC_ADDR_valid p.id = true)
        ∧ KeepsOthers .HAM_ECC_CNT p.id d d'
        ∧ Keeps (.free :: .ldr :: faultAreas) (.HAM_ECC_CNT :: .HAM_ECC_ADDR :: faultRegs) d d')
/-! ### Host ports and rings (chapters 7 and 8) -/

/-- The Doorbell Block (R257 to R263, R303, R517): a poll reads its first 208 bytes unless a read is outstanding, which is
counted; a sweep more than 1 us from a poll reads it too, or waits; a failed read is flagged and counted toward
loss; a completed one gives every ring its new indices and resumes a stalled ring whose resume generation has changed; the
device writes its own part where it has changed. -/
def Obligations.DoorbellReads : Prop :=
  (∀ (s : State) (t : Nat) (p : Port) (d : Dev), d = s.on t → d.polling p = true → (d.port p).reading = false →
    (d.port p).resumed = false →
    Runs (.doorbellPoll t p) s fun d' =>
      d'.emitted = Emission.hostRead p (d.dbBase p) 208 :: d.emitted
      ∧ d'.port p = { d.port p with reading := true, sweepDue := false } ∧ d'.port p.other = d.port p.other
      ∧ Keeps [.emitted, .ports] [] d d')
  ∧ (∀ (s : State) (t : Nat) (p : Port) (d : Dev), d = s.on t → d.polling p = true → (d.port p).reading = false →
      (d.port p).resumed = true →
      Runs (.doorbellPoll t p) s fun d' =>
        Emission.hostRead p (d.dbBase p) 208 ∈ d'.emitted ∧ (d'.port p).reading = true ∧ (d'.port p).resumed = false
        ∧ (d.ringOn p .asr = true → (d'.port p).asrSince = 0 ∧ (d'.port p).asrAt = d.now)
        ∧ Keeps [.emitted, .ports, .recs, .key] [.HIF_ASR_STATUS] d d')
  ∧ (∀ (s : State) (t : Nat) (p : Port) (d : Dev), d = s.on t → d.polling p = true → (d.port p).reading = true →
      Runs (.doorbellPoll t p) s fun d' =>
        d'.rd F.HIF_POLL_SKIP_skipped p.id = min (d.rd F.HIF_POLL_SKIP_skipped p.id + 1) (2 ^ 32 - 1)
        ∧ KeepsOthers .HIF_POLL_SKIP p.id d d' ∧ Keeps [] [.HIF_POLL_SKIP] d d')
  ∧ (∀ (s : State) (t us : Nat) (p : Port) (d : Dev), d = s.on t → d.polling p = true →
      d.flag F.HIF_DB_CFG_sweep p.id = true → 1 < us →
      Runs (.latchSweep t p us) s fun d' =>
        ((d.port p).reading = true →
          d'.port p = { d.port p with sweepDue := true } ∧ d'.emitted = d.emitted)
        ∧ ((d.port p).reading = false →
          d'.port p = { d.port p with reading := true, sweepDue := false }
          ∧ d'.emitted = Emission.hostRead p (d.dbBase p) 208 :: d.emitted)
        ∧ d'.port p.other = d.port p.other ∧ Keeps [.emitted, .ports] [] d d')
  ∧ (∀ (s : State) (t us : Nat) (p : Port),
      us ≤ 1 ∨ (s.on t).flag F.HIF_DB_CFG_sweep p.id = false ∨ (s.on t).polling p = false → OnlyTime (.latchSweep t p us) s t)
  ∧ (∀ (s : State) (t : Nat) (p : Port) (d : Dev), d = s.on t → d.polling p = true → (d.port p).reading = true →
      Runs (.doorbellReadComplete t p none) s fun d' =>
        d'.flag F.HIF_ERR_db_fetch_err p.id = true
        ∧ d'.port p = { d.port p with reading := (d.port p).sweepDue, sweepDue := false, fails := (d.port p).fails + 1 }
        ∧ d'.emitted = (if (d.port p).sweepDue then Emission.hostRead p (d.dbBase p) 208 :: d.emitted else d.emitted)
        ∧ d'.port p.other = d.port p.other ∧ KeepsOthers .HIF_ERR p.id d d' ∧ Keeps [.ports, .emitted] [.HIF_ERR] d d')
  ∧ (∀ (s : State) (t : Nat) (p : Port) (b : List Byte) (d : Dev), d = s.on t → d.polling p = true →
      (d.port p).reading = true →
      Runs (.doorbellReadComplete t p (some b)) s fun d' =>
        (d'.port p).reading = (d.port p).sweepDue ∧ (d'.port p).sweepDue = false ∧ (d'.port p).fails = 0
        ∧ (d'.port p).polls = ((d.port p).polls + 1) % 2 ^ 32
        ∧ (∀ r, r < 16 → d.svrOn p r = true → (d'.ring p r).pi = fieldAt b (2 * r) 2
            ∧ (d'.ring p r).resumeIdx = fieldAt b (32 + 4 * r) 2 ∧ (d'.ring p r).resumeGen = fieldAt b (34 + 4 * r) 2)
        ∧ (∀ r, r < 16 → d.svrOn p r = true → (d.ring p r).starting = true →
            (d'.ring p r).fetch = fieldAt b (2 * r) 2 ∧ (d'.ring p r).starting = false)
        ∧ (NoneHeld d p → ∀ r, r < 16 → d.svrOn p r = true → d.svrStalled p r = true → (d.ring p r).starting = false →
            fieldAt b (34 + 4 * r) 2 ≠ (d.ring p r).stallGen →
            idxDiff (d.svrCi p r) (fieldAt b (32 + 4 * r) 2) ≤ idxDiff (d.svrCi p r) (fieldAt b (2 * r) 2) →
            d'.svrStalled p r = false ∧ (d'.ring p r).fetch = fieldAt b (32 + 4 * r) 2 ∧ (d'.ring p r).items = []
            ∧ d'.svrCi p r = fieldAt b (32 + 4 * r) 2)
        ∧ (∀ c, c < 16 → (d'.rr p (.cpr c)).ci = fieldAt b (96 + 2 * c) 2)
        ∧ (∀ e, e < 32 → (d'.rr p (.evr e)).ci = fieldAt b (128 + 2 * e) 2) ∧ (d'.rr p .asr).ci = fieldAt b 192 2
        ∧ Keeps (.svr :: .order :: evAreas)
            (.HIF_ERR :: .HIF_CPR_STATUS :: .HIF_SVR_STATUS :: .HIF_ASR_STATUS :: evRegs ++ poolRegs) d d')
  ∧ (∀ (s : State) (t : Nat) (p : Port) (b : Option (List Byte)), (s.on t).polling p = false ∨ ((s.on t).port p).reading = false →
      OnlyTime (.doorbellReadComplete t p b) s t)
  ∧ (∀ (s : State) (t : Nat) (p : Port) (d : Dev), d = s.on t → d.polling p = true → (d.port p).dirty = true →
      Runs (.doorbellWriteback t p) s fun d' =>
        d'.emitted = Emission.hostWrite p (d.dbBase p + 208) (d.doorbellOut p) :: d.emitted
        ∧ d'.port p = { d.port p with dirty := false } ∧ d'.port p.other = d.port p.other ∧ Keeps [.emitted, .ports] [] d d')

/-- Items (R258, R265, R266, R269, R273, R274): an item that arrives whole enters its ring behind the others, with its
arrival instant and its first target switch point, and fetching moves past it; one whose descriptors fail a check
has its status at once and stalls the ring where nothing says to go on; of one whose other slots the producer index does not
cover yet the header is kept. The reads of its slots are issued with the command that completes them (log 56).

Validation (R264 to R268, R272, R292, R294, R297, R313, R314, R325): a standalone item that passes begins its action, one of
length 0 is done; one that fails is decided with its status and, where nothing says to go on, stalls its ring; a salvo that
passes is secured with what its entries draw, one of whose entries fails is decided with that entry's status and number,
and one that lacks CCT entries waits while they are read, 16 at a time; an entry that a Coolbox has lost is discarded, or read
again. -/
def Obligations.ItemsArriveAndStart : Prop :=
  (∀ (s : State) (t r n : Nat) (p : Port) (descs l : List (List Byte)) (d : Dev), d = s.on t → Fetches d p r →
    l = d.brought p r descs → d.arrival p r l true = some (0, n) →
    Runs (.itemArrival t p r descs true) s fun d' =>
      (d'.ring p r).fetch = ((d.ring p r).fetch + n) % 65536 ∧ (d'.ring p r).head = []
      ∧ (d'.ring p r).items.length = (d.ring p r).items.length + 1
      ∧ (∃ it, it ∈ (d'.ring p r).items ∧ it.idx = (d.ring p r).fetch ∧ it.slots = n ∧ it.descs = l
          ∧ it.arrive = d.now ∧ it.target = (if D.asap.on (l.headD []) then
              d.firstAfter Dev.tS (D.cls.of (l.headD [])) d.epoch else D.atFrame.of (l.headD [])))
      ∧ ((d.ring p r).head = [] → Emission.hostRead p (d.svrSlot p r (d.ring p r).fetch) 64 ∈ d'.emitted)
      ∧ (2 ≤ n → ((d.ring p r).fetch + 1) % d.svrSize p r + (n - 1) ≤ d.svrSize p r →
          Emission.hostRead p (d.svrSlot p r ((d.ring p r).fetch + 1)) (64 * (n - 1)) ∈ d'.emitted)
      ∧ Keeps [.svr, .order, .ports, .emitted] [] d d')
  ∧ (∀ (s : State) (t r n st : Nat) (p : Port) (descs l : List (List Byte)) (ok : Bool) (d : Dev), d = s.on t → Fetches d p r →
      (∀ x, x ∈ (d.ring p r).items → 32768 ≤ idxDiff (d.ring p r).fetch x.idx) → l = d.brought p r descs →
      d.arrival p r l ok = some (st, n) → st ≠ 0 →
      Runs (.itemArrival t p r descs ok) s fun d' =>
        (∃ it, (d'.ring p r).items = (d.ring p r).items ++ [it] ∧ it.idx = (d.ring p r).fetch ∧ it.phase = .done ∧ it.status = st
          ∧ (d'.ring p r).blocked = (!d.flag F.HIF_SVR_CFG_coe (svrI p r) && !it.coe))
        ∧ (ok = false → d'.flag F.HIF_ERR_desc_fetch_err p.id = true) ∧ OtherRings p r d d'
        ∧ Keeps [.svr, .emitted] [.HIF_ERR] d d')
  ∧ (∀ (s : State) (t r : Nat) (p : Port) (descs l : List (List Byte)) (d : Dev), d = s.on t → Fetches d p r →
      l = d.brought p r descs → l ≠ [] → d.arrival p r l true = none →
      Runs (.itemArrival t p r descs true) s fun d' =>
        d'.ring p r = { d.ring p r with head := l.headD [] } ∧ OtherRings p r d d' ∧ Keeps [.svr, .emitted] [] d d')
  ∧ (∀ (s : State) (t r : Nat) (p : Port) (it : Item) (d : Dev), d = s.on t → Validates d p r it →
    it.isSalvo = false → descStatus it.head headOp = 0 → d.standaloneStatus p r it.head = 0 →
    Runs (.itemValidate t p r []) s fun d' =>
      Becomes p r { it with phase := if emptyTransfer it.head then .done else .acting } d d' ∧ Keeps [.svr] [] d d')
  ∧ (∀ (s : State) (t r k : Nat) (p : Port) (it : Item) (d : Dev), d = s.on t → Validates d p r it →
      it.isSalvo = false → it.phase = .delivered → descStatus it.head headOp = 0 →
      k = d.standaloneStatus p r it.head → k ≠ 0 → it.ccts = [] →
      Runs (.itemValidate t p r []) s fun d' =>
        (d'.ring p r).items = [{ it with phase := .done, status := k, entry := 0, authDesc := false, need := [], stamp := 0 }]
        ∧ (d'.ring p r).blocked = ((d.ring p r).blocked || !d.flag F.HIF_SVR_CFG_coe (svrI p r)) ∧ OtherRings p r d d'
        ∧ Keeps [.svr] [.KEY_CNT] d d')
  ∧ (∀ (s : State) (t r : Nat) (p : Port) (it : Item) (d : Dev), d = s.on t → Validates d p r it →
      it.isSalvo = true → (d.headVerdict p r it).1 = 0 → (d.checkEntries p r it it.entries.length).status = 0 →
      (d.checkEntries p r it it.entries.length).reads = [] →
      (∀ e, e ∈ it.numbered → (d.checkEntries p r it it.entries.length).dev.afterStatus
        (d.checkEntries p r it it.entries.length).allocs e.1 e.2 = 0) →
      (d.secures p r it).status = 0 →
      (∀ e, e ∈ it.numbered → descOp e.2 = 0x11 →
        d.planesUp.any (d.audioShort (d.checkEntries p r it it.entries.length).dev) = false) →
      Runs (.itemValidate t p r []) s fun d' =>
        (∃ x, (d'.ring p r).items = [x] ∧ x.idx = it.idx ∧ x.phase = .secured ∧ x.secAt = d.epoch ∧ x.authOk = it.auth
          ∧ x.allocs = (d.secures p r it).allocs ∧ x.closes.length = (d.secures p r it).closes.length)
        ∧ (∀ q : Plane, d'.holdOf p r q = ((d.secures p r it).runs.pl q).hold)
        ∧ (it.entries = [] → ∀ q : Plane, d'.pool q = d.pool q) ∧ OtherRings p r d d' ∧ Keeps [.svr] poolRegs d d')
  ∧ (∀ (s : State) (t r : Nat) (p : Port) (it : Item) (d : Dev), d = s.on t → Validates d p r it →
      it.isSalvo = true → it.phase = .delivered → it.ccts = [] → (d.headVerdict p r it).1 = 0 →
      (d.checkEntries p r it it.entries.length).status ≠ 0 →
      Runs (.itemValidate t p r []) s fun d' =>
        (∃ x, (d'.ring p r).items = [x] ∧ x.idx = it.idx ∧ x.phase = .done
          ∧ x.status = (d.checkEntries p r it it.entries.length).status ∧ x.entry = (d.checkEntries p r it it.entries.length).entry)
        ∧ OtherRings p r d d' ∧ Keeps [.svr] [.KEY_CNT] d d')
  ∧ (∀ (s : State) (t r : Nat) (p : Port) (it : Item) (d : Dev), d = s.on t → Validates d p r it →
      it.isSalvo = true → (d.headVerdict p r it).1 = 0 → (d.checkEntries p r it it.entries.length).status = 0 →
      (d.checkEntries p r it it.entries.length).reads ≠ [] →
      Runs (.itemValidate t p r []) s fun d' =>
        Becomes p r { it with phase := .waiting, need := (d.checkEntries p r it it.entries.length).reads } d d'
        ∧ (∀ id, id ∈ (d.checkEntries p r it it.entries.length).reads →
            id ∈ (d'.port p).cctReads ∨ 16 ≤ (d'.port p).cctReads.length)
        ∧ (∀ id, id ∈ (d'.port p).cctReads → id ∈ (d.port p).cctReads ∨ Emission.hostRead p (d.cctAddr p id) 256 ∈ d'.emitted)
        ∧ Keeps [.svr, .ports, .emitted] [] d d')
  ∧ (∀ (s : State) (t r id : Nat) (p : Port) (d : Dev), d = s.on t → r < 16 → id < 4096 → d.nextToValidate p r = none →
      Runs (.itemValidate t p r [(none, id)]) s fun d' =>
        d'.coolCtl = d.coolCtl.filter (· != id) ∧ d'.cctData = d.cctData ∧ Keeps [.cct] [] d d')
  ∧ (∀ (s : State) (t r id : Nat) (p : Port) (q : Plane) (d : Dev), d = s.on t → r < 16 → id < 4096 →
      d.nextToValidate p r = none → id ∈ (d.plane q).coolbox → id ∉ (d.port p).cctReads →
      Runs (.itemValidate t p r [(some q, id)]) s fun d' =>
        d'.emitted = Emission.hostRead p (d.cctAddr p id) 256 :: d.emitted
        ∧ d'.port p = { d.port p with cctReads := (d.port p).cctReads ++ [id] } ∧ d'.port p.other = d.port p.other
        ∧ Keeps [.ports, .emitted] [] d d')
  ∧ (∀ (s : State) (t r : Nat) (p : Port), r < 16 → (s.on t).nextToValidate p r = none → OnlyTime (.itemValidate t p r []) s t)

/-- Setting rings up (R254 to R256, R313, R419, R513, R517, R518): a ring enabled starts empty at its producer index, as read
from the Doorbell Block then, and one disabled drops what it has not latched, and drains; record rings start at index 0 with
phase 1, and the As-Run Ring with a checkpoint; a ring's configuration is written only while it is disabled; a flush empties all
three Coolboxes. -/
def Obligations.RingSwitching : Prop :=
  (∀ (s : State) (t r pi : Nat) (p : Port) (d : Dev), d = s.on t → r < 16 → d.svrOn p r = false → d.svrDraining p r = false →
    Runs (.svrEnable t p r pi) s fun d' =>
      d'.svrOn p r = true ∧ d'.svrStalled p r = false ∧ d'.svrCi p r = pi % 65536
      ∧ d'.ring p r = { d.ring p r with
          pi := pi % 65536, fetch := pi % 65536, items := [], head := [], blocked := false, key := none, pos := 0
          starting := false }
      ∧ ((d.port p).reading = false → d'.emitted = Emission.hostRead p (d.dbBase p) 208 :: d.emitted)
      ∧ ((d.port p).reading = true → d'.emitted = d.emitted) ∧ d'.bitAt F.HIF_TAKEN_taken r p.id = false
      ∧ OtherRings p r d d' ∧ KeepsOthers .HIF_SVR_CFG (svrI p r) d d' ∧ KeepsOthers .HIF_SVR_STATUS (svrI p r) d d'
      ∧ Keeps [.svr, .ports, .emitted] [.HIF_SVR_CFG, .HIF_SVR_STATUS, .HIF_TAKEN] d d')
  ∧ (∀ (s : State) (t r pi : Nat) (p : Port) (d : Dev), d = s.on t → r < 16 → d.svrOn p r = false → d.svrDraining p r = true →
      Runs (.svrEnable t p r pi) s fun d' => CfgInvalid d d' p)
  ∧ (∀ (s : State) (t r pi : Nat) (p : Port), r < 16 → (s.on t).svrOn p r = true → OnlyTime (.svrEnable t p r pi) s t)
  ∧ (∀ (s : State) (t r : Nat) (p : Port) (d : Dev), d = s.on t → r < 16 → d.svrOn p r = true →
      Runs (.svrDisable t p r) s fun d' =>
        d'.svrOn p r = false ∧ (d'.ring p r).key = none ∧ (d'.ring p r).blocked = false
        ∧ (∀ it, it ∈ (d'.ring p r).items → it.unlatched = false ∧ it.undone = false)
        ∧ ((∀ it, it ∈ (d.ring p r).items → it.unlatched = false ∧ it.undone = false) →
            (d'.ring p r).items = (d.ring p r).items
            ∧ (NoneHeld d p → d'.svrDraining p r = !(d.ring p r).items.isEmpty))
        ∧ KeepsOthers .HIF_SVR_CFG (svrI p r) d d' ∧ KeepsOthers .HIF_SVR_STATUS (svrI p r) d d'
        ∧ Keeps [.svr, .ports, .order] (.HIF_SVR_CFG :: .HIF_SVR_STATUS :: poolRegs) d d')
  ∧ (∀ (s : State) (t r : Nat) (p : Port), r < 16 → (s.on t).svrOn p r = false → OnlyTime (.svrDisable t p r) s t)
  ∧ (∀ (s : State) (t e : Nat) (p : Port) (d : Dev), d = s.on t → e < 32 → d.ringOn p (.evr e) = false → d.foldBase p ≠ 0 →
      Runs (.recordRingEnable t p (.evr e)) s fun d' =>
        d'.ringOn p (.evr e) = true ∧ d'.rd F.HIF_EVR_STATUS_pi (32 * p.id + e) = 0
        ∧ d'.rd F.HIF_EVR_STATUS_phase (32 * p.id + e) = 1 ∧ (d'.rr p (.evr e)).ci = 0 ∧ OtherRecs p (.evr e) d d'
        ∧ KeepsOthers .HIF_EVR_CFG (32 * p.id + e) d d' ∧ Keeps [.recs] [.HIF_EVR_CFG, .HIF_EVR_STATUS] d d')
  ∧ (∀ (s : State) (t e : Nat) (p : Port) (d : Dev), d = s.on t → e < 32 → d.ringOn p (.evr e) = false → d.foldBase p = 0 →
      Runs (.recordRingEnable t p (.evr e)) s fun d' => CfgInvalid d d' p)
  ∧ (∀ (s : State) (t c : Nat) (p : Port) (d : Dev), d = s.on t → c < 16 → d.ringOn p (.cpr c) = false →
      (d.rr p (.cpr c)).held = [] →
      Runs (.recordRingEnable t p (.cpr c)) s fun d' =>
        d'.ringOn p (.cpr c) = true ∧ d'.rd F.HIF_CPR_STATUS_pi (16 * p.id + c) = 0
        ∧ d'.rd F.HIF_CPR_STATUS_phase (16 * p.id + c) = 1 ∧ (d'.rr p (.cpr c)).ci = 0 ∧ OtherRecs p (.cpr c) d d'
        ∧ Keeps [.recs, .svr, .ports, .order] [.HIF_CPR_CFG, .HIF_CPR_STATUS] d d')
  ∧ (∀ (s : State) (t : Nat) (p : Port) (d : Dev), d = s.on t → d.ringOn p .asr = false → d.lost p = false →
      (d.rr p .asr).heldAsr = [] →
      Runs (.recordRingEnable t p .asr) s fun d' =>
        d'.ringOn p .asr = true ∧ d'.rd F.HIF_ASR_STATUS_pi p.id = 4 ∧ (d'.rr p .asr).ci = 0
        ∧ (d'.port p).asrSeq = 0 ∧ (d'.port p).asrSince = 0 ∧ (d'.port p).asrAt = d.now ∧ OtherRecs p .asr d d'
        ∧ Keeps [.recs, .ports, .emitted, .key] [.HIF_ASR_CFG, .HIF_ASR_STATUS] d d')
  ∧ (∀ (s : State) (t : Nat) (p : Port) (r : RecRing), recRingOk r = true → (s.on t).ringOn p r = true →
      OnlyTime (.recordRingEnable t p r) s t)
  ∧ (∀ (s : State) (t e : Nat) (p : Port) (d : Dev), d = s.on t → e < 32 → d.ringOn p (.evr e) = true →
      Runs (.recordRingDisable t p (.evr e)) s fun d' =>
        d'.ringOn p (.evr e) = false ∧ KeepsOthers .HIF_EVR_CFG (32 * p.id + e) d d' ∧ Keeps [] [.HIF_EVR_CFG] d d')
  ∧ (∀ (s : State) (t c : Nat) (p : Port) (d : Dev), d = s.on t → c < 16 → d.ringOn p (.cpr c) = true →
      Runs (.recordRingDisable t p (.cpr c)) s fun d' =>
        d'.ringOn p (.cpr c) = false ∧ KeepsOthers .HIF_CPR_CFG (16 * p.id + c) d d' ∧ Keeps [] [.HIF_CPR_CFG] d d')
  ∧ (∀ (s : State) (t : Nat) (p : Port) (d : Dev), d = s.on t → d.ringOn p .asr = true →
      Runs (.recordRingDisable t p .asr) s fun d' =>
        d'.ringOn p .asr = false ∧ (d'.rr p .asr).heldAsr = []
        ∧ Keeps [.recs, .svr, .ports, .order] [.HIF_ASR_CFG, .HIF_ASR_STATUS] d d')
  ∧ (∀ (s : State) (t : Nat) (p : Port) (r : RecRing), recRingOk r = true → (s.on t).ringOn p r = false →
      OnlyTime (.recordRingDisable t p r) s t)
  ∧ (∀ (s : State) (t off k : Nat) (p : Port) (val : Word) (g : RingReg) (d : Dev), d = s.on t → ringReg off = some (g, k) →
      g.idle d p = true → k < 2 →
      Runs (.ringConfigWrite t p off val) s fun d' =>
        (k = 0 → d'.reg (ringNames g).1 (g.inst p) = val &&& 0xFFFFF000#32 ∧ KeepsOthers (ringNames g).1 (g.inst p) d d'
          ∧ Keeps [] [(ringNames g).1] d d')
        ∧ (k = 1 → d'.reg (ringNames g).2.1 (g.inst p) = val ∧ KeepsOthers (ringNames g).2.1 (g.inst p) d d'
          ∧ Keeps [] [(ringNames g).2.1] d d'))
  ∧ (∀ (s : State) (t off k : Nat) (p : Port) (val : Word) (g : RingReg) (d : Dev), d = s.on t → ringReg off = some (g, k) →
      k < 2 ∧ g.idle d p = false ∨ k = 2 ∧ 10 < val.toNat / 2 % 16 ∧ val.toNat / 2 % 16 ≠ (d.reg (ringNames g).2.2 (g.inst p)).toNat / 2 % 16 →
      Runs (.ringConfigWrite t p off val) s fun d' => CfgInvalid d d' p)
  ∧ (∀ (s : State) (t r off : Nat) (p : Port) (val : Word) (d : Dev), d = s.on t → ringReg off = some (.svr r, 2) →
      d.svrOn p r = false → d.svrDraining p r = false → d.flag F.HIF_PORT_CTRL_lock p.id = false → val.toNat % 2 = 0 →
      val.toNat / 2 % 16 ≤ 10 →
      Runs (.ringConfigWrite t p off val) s fun d' =>
        (d'.reg .HIF_SVR_CFG (svrI p r)).toNat = val.toNat &&& 0x7FE ∧ KeepsOthers .HIF_SVR_CFG (svrI p r) d d'
        ∧ Keeps [] [.HIF_SVR_CFG] d d')
  ∧ (∀ (s : State) (t r off : Nat) (p : Port) (val : Word) (d : Dev), d = s.on t → ringReg off = some (.svr r, 2) →
      d.svrOn p r = false → d.svrDraining p r = false → d.polling p = true → (d.port p).reading = false →
      val.toNat = (d.reg .HIF_SVR_CFG (svrI p r)).toNat % 2048 + 1 →
      Runs (.ringConfigWrite t p off val) s fun d' =>
        d'.svrOn p r = true ∧ (d'.ring p r).starting = true ∧ (d'.ring p r).items = [] ∧ (d'.ring p r).key = none
        ∧ d'.emitted = Emission.hostRead p (d.dbBase p) 208 :: d.emitted ∧ (d'.port p).reading = true ∧ OtherRings p r d d'
        ∧ Keeps [.svr, .ports, .emitted] [.HIF_SVR_CFG, .HIF_SVR_STATUS, .HIF_TAKEN] d d')
  ∧ (∀ (s : State) (t off : Nat) (p : Port) (val : Word), ringReg off = none → OnlyTime (.ringConfigWrite t p off val) s t)
  ∧ (∀ (s : State) (t : Nat) (p : Port) (hi : Bool) (val : Word) (d : Dev), d = s.on t →
      Runs (.foldBaseWrite t p hi val) s fun d' =>
        (d.anyEvr p = true → CfgInvalid d d' p)
        ∧ (d.anyEvr p = false → d.flag F.HIF_PORT_CTRL_lock p.id = true → d' = d)
        ∧ (d.anyEvr p = false → d.flag F.HIF_PORT_CTRL_lock p.id = false → hi = true →
          d'.reg .HIF_FOLD_BASE_HI p.id = val ∧ KeepsOthers .HIF_FOLD_BASE_HI p.id d d' ∧ Keeps [] [.HIF_FOLD_BASE_HI] d d')
        ∧ (d.anyEvr p = false → d.flag F.HIF_PORT_CTRL_lock p.id = false → hi = false →
          d'.reg .HIF_FOLD_BASE_LO p.id = val &&& 0xFFFFF000#32 ∧ KeepsOthers .HIF_FOLD_BASE_LO p.id d d'
          ∧ Keeps [] [.HIF_FOLD_BASE_LO] d d'))
  ∧ (∀ (s : State) (t : Nat) (p : Port) (d : Dev), d = s.on t →
      Runs (.cctFlush t p) s fun d' =>
        d'.cctData = [] ∧ d'.coolCtl = [] ∧ (∀ q : Plane, d'.plane q = { d.plane q with coolbox := [] })
        ∧ Keeps [.cct, .planes] [] d d')

/-- What the device writes for the host beside items (R278, R281, R282, R517): a vector whose moderation ends is
sent, or its pending bit set while it is masked; the Weathervane is written between its two generations; a
checkpoint of the As-Run chain takes four records and starts the count again. Points of the Weathervane are the
model's reading, and the MSI-X table at reset is presumed (log 35 and 13). -/
def Obligations.HostRecords : Prop :=
  (∀ (s : State) (t : Nat) (p : Port) (r : RecRing) (v : Nat) (d : Dev), d = s.on t → recRingOk r = true →
    (d.rr p r).modPend = true → v = d.rd (recRegs p r).msix (recRegs p r).i →
    Runs (.msixModerationExpiry t p r) s fun d' =>
      (d'.rr p r).modPend = false ∧ OtherRecs p r d d'
      ∧ (d.msixMasked p v = true →
          d'.port p = { d.port p with pba := setInsert v (d.port p).pba } ∧ d'.emitted = d.emitted)
      ∧ (d.msixMasked p v = false → d'.port p = d.port p ∧
          d'.emitted = Emission.msix p v (d.msixWord p (4 * v) + d.msixWord p (4 * v + 1) * 2 ^ 32) (d.msixWord p (4 * v + 2))
            :: d.emitted)
      ∧ d'.port p.other = d.port p.other ∧ Keeps [.recs, .ports, .emitted] [] d d')
  ∧ (∀ (s : State) (t : Nat) (r : RecRing) (p : Port), recRingOk r = true → ((s.on t).rr p r).modPend = false →
      OnlyTime (.msixModerationExpiry t p r) s t)
  ∧ (∀ (s : State) (t base gen : Nat) (p : Port) (d : Dev), d = (s.on t).landDue → (s.on t).flag F.HIF_WV_CFG_enable p.id = true →
      (s.on t).lost p = false →
      base = d.rd F.HIF_WV_BASE_LO_addr p.id * 4096 + d.rd F.HIF_WV_BASE_HI_addr p.id * 2 ^ 32 →
      gen = ((d.port p).wvGen + 1) % 2 ^ 32 →
      Runs (.weathervaneWrite t p) s fun d' =>
        d'.port p = { d.port p with wvGen := gen } ∧ d'.port p.other = d.port p.other
        ∧ d'.emitted = Emission.hostWrite p (base + 4 + (d.wvBody p).length) (le 8 gen)
            :: Emission.hostWrite p (base + 4) (d.wvBody p) :: Emission.hostWrite p base (le 4 gen) :: d.emitted
        ∧ Keeps [.ports, .emitted, .free] [] d d')
  ∧ (∀ (s : State) (t : Nat) (p : Port), (s.on t).flag F.HIF_WV_CFG_enable p.id = false ∨ (s.on t).lost p = true →
      OnlyTime (.weathervaneWrite t p) s t)
  ∧ (∀ (s : State) (t k : Nat) (p : Port) (d : Dev), d = s.on t →
      k = 1 ∧ 256 ≤ (d.port p).asrSince ∨ k = 2 ∧ 0 < (d.port p).asrSince ∧ (d.port p).asrAt + secU ≤ d.now →
      d.ringOn p .asr = true → d.lost p = false → (d.rr p .asr).heldAsr = [] → d.recUsed p .asr + 4 ≤ d.recSize p .asr →
      d.recSize p .asr < 65536 →
      Runs (.asrunCheckpoint t p k) s fun d' =>
        (d'.port p).asrSince = 0 ∧ (d'.port p).asrAt = d.now ∧ (d'.port p).asrHash = (d.port p).asrHash
        ∧ d'.rd F.HIF_ASR_STATUS_pi p.id = (d.rd F.HIF_ASR_STATUS_pi p.id + 4) % 65536
        ∧ d'.port p.other = d.port p.other ∧ OtherRecs p .asr d d'
        ∧ Keeps [.emitted, .ports, .recs, .key] [.HIF_ASR_STATUS] d d')
  ∧ (∀ (s : State) (t : Nat) (p : Port), ((s.on t).port p).asrSince < 256 → OnlyTime (.asrunCheckpoint t p 1) s t)

/-- Loss and return of a host port (R303 to R305, R547): a lost port polls no more, its items that have not latched
are withdrawn, an action that needs it is abandoned, and the loss is counted; probes go out while its link is up; a probe that
completes restores it; PERST resets the port's configuration space and loses it. -/
def Obligations.PortsLost : Prop :=
  (∀ (s : State) (t : Nat) (p : Port) (d : Dev), d = s.on t → d.lost p = false →
    Runs (.portLost t p .linkDown) s fun d' =>
      PortGone d d' p ∧ d'.flag F.HIF_PORT_STATUS_link_up p.id = false ∧ (d'.port p).linkUp = false ∧ (d'.port p).bme = false
      ∧ (d'.port p).fnMask = false)
  ∧ (∀ (s : State) (t : Nat) (p : Port) (d : Dev), d = s.on t → d.lost p = false →
      Runs (.portLost t p .busMasterOff) s fun d' =>
        PortGone d d' p ∧ (d'.port p).bme = false ∧ (d'.port p).linkUp = (d.port p).linkUp)
  ∧ (∀ (s : State) (t : Nat) (p : Port) (d : Dev), d = s.on t → d.lost p = false → 8 ≤ (d.port p).fails →
      Runs (.portLost t p .readsFailed) s fun d' => PortGone d d' p ∧ (d'.port p).linkUp = (d.port p).linkUp)
  ∧ (∀ (s : State) (t : Nat) (p : Port) (d : Dev), d = s.on t → d.lost p = false →
      Runs (.perstAssert t p) s fun d' =>
        PortGone d d' p ∧ d'.flag F.HIF_PORT_STATUS_link_up p.id = false ∧ (d'.port p).linkUp = false ∧ (d'.port p).bme = false
        ∧ (d'.port p).fnMask = false ∧ (d'.port p).perst = true ∧ (d'.port p).answers = false)
  ∧ (∀ (s : State) (t : Nat) (p : Port) (d : Dev), d = s.on t → d.lost p = true →
      Runs (.perstAssert t p) s fun d' =>
        d'.port p = { d.port p with perst := true, answers := false, linkUp := false, bme := false, fnMask := false }
        ∧ d'.port p.other = d.port p.other ∧ d'.flag F.HIF_PORT_STATUS_link_up p.id = false
        ∧ Keeps [.ports] [.HIF_PORT_STATUS] d d')
  ∧ (∀ (s : State) (t : Nat) (p : Port) (d : Dev), d = s.on t → (d.port p).fails < 8 →
      OnlyTime (.portLost t p .readsFailed) s t)
  ∧ (∀ (s : State) (t : Nat) (p : Port) (d : Dev), d = s.on t → d.lost p = true → (d.port p).perst = false →
      (d.port p).probing = false →
      Runs (.portProbe t p true true) s fun d' =>
        d'.emitted = Emission.hostRead p (d.dbBase p) 208 :: d.emitted
        ∧ d'.port p = { d.port p with linkUp := true, bme := true, probing := true } ∧ d'.port p.other = d.port p.other
        ∧ d'.flag F.HIF_PORT_STATUS_link_up p.id = true ∧ d'.lost p = true
        ∧ Keeps [.emitted, .ports] [.HIF_PORT_STATUS] d d')
  ∧ (∀ (s : State) (t : Nat) (p : Port) (up bme : Bool) (d : Dev), d = s.on t → d.lost p = true →
      up = false ∨ bme = false ∨ (d.port p).perst = true ∨ (d.port p).probing = true →
      Runs (.portProbe t p up bme) s fun d' =>
        d'.port p = { d.port p with linkUp := up && !(d.port p).perst, bme := bme } ∧ d'.port p.other = d.port p.other
        ∧ d'.flag F.HIF_PORT_STATUS_link_up p.id = (up && !(d.port p).perst) ∧ d'.lost p = true
        ∧ Keeps [.ports] [.HIF_PORT_STATUS] d d')
  ∧ (∀ (s : State) (t : Nat) (p : Port) (up bme : Bool), (s.on t).lost p = false → OnlyTime (.portProbe t p up bme) s t)
  ∧ (∀ (s : State) (t : Nat) (p : Port) (d : Dev), d = s.on t → d.lost p = true → (d.port p).probing = true →
      (d.port p).linkUp = true → (d.port p).bme = true →
      Runs (.portRestored t p) s fun d' =>
        d'.lost p = false ∧ d'.flag F.HIF_PORT_STATUS_active p.id = d.flag F.HIF_PORT_CTRL_enable p.id
        ∧ (d'.port p).probing = false ∧ (d'.port p).fails = 0 ∧ (d'.port p).dirty = true ∧ (d'.port p).resumed = true
        ∧ Keeps (.svr :: .order :: evAreas) (.HIF_PORT_STATUS :: evRegs) d d')
  ∧ (∀ (s : State) (t : Nat) (p : Port), (s.on t).lost p = false ∨ ((s.on t).port p).probing = false →
      OnlyTime (.portRestored t p) s t)
  ∧ (∀ (s : State) (t : Nat) (p : Port) (d : Dev), d = s.on t → (d.port p).perst = true →
      Runs (.perstRelease t p) s fun d' =>
        d'.port p = { d.port p with perst := false, answers := d.start.booted } ∧ d'.port p.other = d.port p.other
        ∧ Keeps [.ports] [] d d')
/-! ### Items and salvos (chapters 7, 8, 9) -/

/-- Reads of CCT entries (R310, R311, R313, R314, R303, R305): a read that ends is no longer outstanding and is
counted; the standalone CCT_SYNC that waited for it alone goes on with the contents; a probe, a descriptor read, a Doorbell read
or a CCT read that fails or times out has failed, with what waited for it. -/
def Obligations.HostReadsEnd : Prop :=
  (∀ (s : State) (t r id : Nat) (p : Port) (it : Item) (data b : List Byte) (d : Dev), d = s.on t → r < 16 → id < 4096 →
    b = fit 256 data → id ∈ (d.port p).cctReads → (d.ring p r).items = [it] →
    (∀ k, k < 16 → k ≠ r → (d.ring p k).items = []) → it.phase = .waiting → it.need = [id] → descOp it.head = 0x20 →
    Runs (.cctReadComplete t p id (some data)) s fun d' =>
      Becomes p r { it with
        phase := .acting, need := [], ccts := (it.ccts.filter fun (x : Nat × List Byte) => x.1 != id) ++ [(id, b)] } d d'
      ∧ d'.port p = { d.port p with cctReads := (d.port p).cctReads.filter (· != id) }
      ∧ d'.rd F.HIF_CCT_CNT_reads p.id = satAdd F.HIF_CCT_CNT_reads.width (d.rd F.HIF_CCT_CNT_reads p.id) 1
      ∧ d'.rd F.HIF_CCT_CNT_bad p.id
          = (if cctStatus id 0 b = 0 then d.rd F.HIF_CCT_CNT_bad p.id
            else satAdd F.HIF_CCT_CNT_bad.width (d.rd F.HIF_CCT_CNT_bad p.id) 1)
      ∧ d'.port p.other = d.port p.other ∧ KeepsOthers .HIF_CCT_CNT p.id d d' ∧ Keeps [.svr, .ports] [.HIF_CCT_CNT] d d')
  ∧ (∀ (s : State) (t r id : Nat) (p : Port) (it : Item) (d : Dev), d = s.on t → r < 16 → id < 4096 →
      id ∈ (d.port p).cctReads → (d.ring p r).items = [it] → (∀ k, k < 16 → k ≠ r → (d.ring p k).items = []) →
      it.phase = .waiting → it.need = [id] → it.isSalvo = false →
      Runs (.cctReadComplete t p id none) s fun d' =>
        Ends d d' p r it 0x10 ∧ id ∉ (d'.port p).cctReads ∧ Keeps [.svr, .ports] [] d d')
  ∧ (∀ (s : State) (t id : Nat) (p : Port) (data : Option (List Byte)) (d : Dev), d = s.on t → id < 4096 →
      id ∉ (d.port p).cctReads → OnlyTime (.cctReadComplete t p id data) s t)
  ∧ (∀ (s : State) (t : Nat) (p : Port) (d : Dev), d = s.on t →
      Runs (.hostReadTimeout t p .probe) s fun d' =>
        d'.port p = { d.port p with probing := false } ∧ d'.port p.other = d.port p.other ∧ Keeps [.ports] [] d d')
  ∧ (∀ (s : State) (t : Nat) (p : Port) (d : Dev), d = s.on t → (d.port p).reading = true →
      Runs (.hostReadTimeout t p .doorbell) s fun d' =>
        d'.flag F.HIF_ERR_db_fetch_err p.id = true
        ∧ d'.port p = { d.port p with reading := (d.port p).sweepDue, sweepDue := false, fails := (d.port p).fails + 1 }
        ∧ d'.port p.other = d.port p.other ∧ KeepsOthers .HIF_ERR p.id d d' ∧ Keeps [.ports, .emitted] [.HIF_ERR] d d')
  ∧ (∀ (s : State) (t r n st : Nat) (p : Port) (d : Dev), d = s.on t → Fetches d p r → (d.ring p r).items = [] →
      d.arrival p r (d.brought p r []) false = some (st, n) → st ≠ 0 →
      Runs (.hostReadTimeout t p (.descriptor r)) s fun d' =>
        (∃ it, (d'.ring p r).items = [it] ∧ it.idx = (d.ring p r).fetch ∧ it.slots = n ∧ it.phase = .done ∧ it.status = st)
        ∧ d'.flag F.HIF_ERR_desc_fetch_err p.id = true ∧ OtherRings p r d d' ∧ Keeps [.svr, .emitted] [.HIF_ERR] d d')
  ∧ (∀ (s : State) (t r id : Nat) (p : Port) (it : Item) (d : Dev), d = s.on t → r < 16 → id < 4096 →
      id ∈ (d.port p).cctReads → (d.ring p r).items = [it] → (∀ k, k < 16 → k ≠ r → (d.ring p k).items = []) →
      it.phase = .waiting → it.need = [id] → it.isSalvo = false →
      Runs (.hostReadTimeout t p (.cct id)) s fun d' =>
        Ends d d' p r it 0x10 ∧ id ∉ (d'.port p).cctReads ∧ Keeps [.svr, .ports] [] d d')

/-- Standalone NOP, CCT_SYNC, RESERVE and RELEASE (R265, R271, R310 to R316, R324, R567): NOP completes and does nothing
else; CCT_SYNC takes its entry into force in the Coolboxes, at its input slot or its output, or where the entry cannot be used
ends with its status and takes none, and waits for entries that it lacks; RESERVE moves the amounts from the
pools of the named planes to the ring's holdings, RELEASE moves what the ring holds of them back; either writes the holdings to
host memory where that is asked for, and ends with HOST_ERR where that write fails. -/
def Obligations.PlainItems : Prop :=
  (∀ (s : State) (t r : Nat) (p : Port) (it : Item) (d : Dev), Acting s t p r 0x00 it d →
    Runs (.nop t p r) s fun d' => Becomes p r { it with phase := .done, status := 0 } d d' ∧ Keeps [.svr] [] d d')
  ∧ (∀ (s : State) (t r id : Nat) (p : Port) (it : Item) (e : List Byte) (d : Dev), Acting s t p r 0x20 it d →
      syncIds it.head = [id] → id < 4096 → it.cctOf id = some e → d.syncStatus id e = 0 →
      Runs (.cctSync t p r) s fun d' =>
        Becomes p r { it with
          applied := ⟨d.inService .a, d.inService .b⟩, phase := .done, status := 0 } d d'
        ∧ Tbl.get [] d'.cctData id = e ∧ (∀ k, k ≠ id → Tbl.get [] d'.cctData k = Tbl.get [] d.cctData k)
        ∧ d'.coolCtl = touch 128 id d.coolCtl ∧ (∀ q : Plane, (d'.plane q).coolbox = touch 512 id (d.plane q).coolbox)
        ∧ (id < 1152 → (d'.inp id).delayNext = some (C.delay.of e) ∧ (3, id) ∈ d'.ldr.jPend)
        ∧ (1152 ≤ id → id < 2304 → (d'.out (id - 1152)).cctNext = some (C.outByte.of e, C.matchLine.of e)
            ∧ (1, id - 1152) ∈ d'.ldr.jPend)
        ∧ (∀ k, k ≠ id → d'.inp k = d.inp k) ∧ (∀ k, k + 1152 ≠ id → d'.out k = d.out k)
        ∧ Keeps [.svr, .cct, .planes, .ins, .outs, .ldr] [] d d')
  ∧ (∀ (s : State) (t r id k : Nat) (p : Port) (it : Item) (e : List Byte) (d : Dev), Acting s t p r 0x20 it d →
      syncIds it.head = [id] → it.cctOf id = some e → k = d.syncStatus id e → 0x10 ≤ k → k ≠ 0x14 →
      Runs (.cctSync t p r) s fun d' => Ends d d' p r it k ∧ Keeps [.svr] [] d d')
  ∧ (∀ (s : State) (t r id : Nat) (p : Port) (it : Item) (d : Dev), Acting s t p r 0x20 it d →
      syncIds it.head = [id] → it.cctOf id = none →
      Runs (.cctSync t p r) s fun d' =>
        Becomes p r { it with phase := .waiting, need := [id] } d d'
        ∧ (id ∈ (d'.port p).cctReads ∨ 16 ≤ (d'.port p).cctReads.length) ∧ Keeps [.svr, .ports, .emitted] [] d d')
  ∧ (∀ (s : State) (t r : Nat) (p : Port) (it : Item) (ok : Bool) (d : Dev), Acting s t p r 0x21 it d →
      D.result.of it.head = 0 ∨ ok = true →
      Runs (.reserve t p r ok) s fun d' =>
        Becomes p r { it with
          applied := ⟨bitOf (D.planes.of it.head) 0, bitOf (D.planes.of it.head) 1⟩, phase := .done, status := 0 } d d'
        ∧ (∀ q : Plane, bitOf (D.planes.of it.head) q.id = true →
            d'.pool q = (d.pool q).sub (resAmount it.head) ∧ d'.holdOf p r q = (d.holdOf p r q).add (resAmount it.head))
        ∧ (∀ q : Plane, bitOf (D.planes.of it.head) q.id = false → d'.pool q = d.pool q ∧ d'.holdOf p r q = d.holdOf p r q)
        ∧ (D.result.of it.head = 0 → d'.emitted = d.emitted)
        ∧ (D.result.of it.head ≠ 0 →
            d'.emitted = Emission.hostWrite p (D.result.of it.head) (holdingsBytes (d'.ring p r).hold) :: d.emitted)
        ∧ Keeps [.svr, .emitted] poolRegs d d')
  ∧ (∀ (s : State) (t r : Nat) (p : Port) (it : Item) (ok : Bool) (d : Dev), Acting s t p r 0x22 it d →
      D.result.of it.head = 0 ∨ ok = true →
      (∀ q : Plane, (d.pool q).pages + (d.holdOf p r q).pages < 2 ^ 32 ∧ (d.pool q).tokens + (d.holdOf p r q).tokens < 2 ^ 16
        ∧ (d.pool q).units + (d.holdOf p r q).units < 128) →
      Runs (.release t p r ok) s fun d' =>
        Becomes p r { it with
          applied := ⟨bitOf (D.planes.of it.head) 0, bitOf (D.planes.of it.head) 1⟩, phase := .done, status := 0 } d d'
        ∧ (∀ q : Plane, bitOf (D.planes.of it.head) q.id = true →
            d'.pool q = (d.pool q).add ((resAmount it.head).least (d.holdOf p r q))
            ∧ d'.holdOf p r q = (d.holdOf p r q).sub ((resAmount it.head).least (d.holdOf p r q)))
        ∧ (∀ q : Plane, bitOf (D.planes.of it.head) q.id = false → d'.pool q = d.pool q ∧ d'.holdOf p r q = d.holdOf p r q)
        ∧ (D.result.of it.head = 0 → d'.emitted = d.emitted)
        ∧ (D.result.of it.head ≠ 0 →
            d'.emitted = Emission.hostWrite p (D.result.of it.head) (holdingsBytes (d'.ring p r).hold) :: d.emitted)
        ∧ Keeps [.svr, .emitted] poolRegs d d')
  ∧ (∀ (s : State) (t r op : Nat) (p : Port) (it : Item) (c : Instr) (d : Dev), Acting s t p r op it d →
      D.result.of it.head ≠ 0 → it.ccts = [] → c = .reserve t p r false ∧ op = 0x21 ∨ c = .release t p r false ∧ op = 0x22 →
      Runs c s fun d' => Ends d d' p r it 0x1B ∧ Keeps [.svr] poolRegs d d')

/-- Standalone TIME_SET, TIME_ADJ and TAKEOVER (R58 to R60, R91, R94, R306, R307): a TIME_SET before the start jump makes it,
one after it is slewed and flagged; a TIME_ADJ gives the REFV input its sample, from which a lead that follows it takes its
phase error, or is discarded where REFV is off or it comes too late; a TAKEOVER disables the other port's named rings, marks them
taken, and is done once none of them has a latched salvo. -/
def Obligations.TimeItems : Prop :=
  (∀ (s : State) (t r : Nat) (p : Port) (it : Item) (d : Dev), Acting s t p r 0x30 it d → D.subop.of it.head = 0 →
    d.tim.jumpOpen = false →
    Runs (.timeSet t p r) s fun d' =>
      Becomes p r { it with phase := .done, status := 0 } d d' ∧ d'.flag F.TB_ERR_time_set_slewed = true
      ∧ d'.tim = { d.tim with
          timeSlew := ((D.sec.of it.head * secU + D.ns.of it.head * nsU + D.frac.of it.head : Nat) : Int) - d.epoch }
      ∧ Keeps [.svr, .tim] [.TB_ERR] d d')
  ∧ (∀ (s : State) (t r : Nat) (p : Port) (it : Item) (d : Dev), Acting s t p r 0x30 it d → D.subop.of it.head = 0 →
      d.tim.jumpOpen = true →
      Runs (.timeSet t p r) s fun d' =>
        (∃ x, (d'.ring p r).items = [x] ∧ x.phase = .done ∧ x.status = 0)
        ∧ (∀ q : Plane, (d'.tb q).epoch = D.sec.of it.head * secU + D.ns.of it.head * nsU + D.frac.of it.head)
        ∧ d'.flag F.TB_STATUS_time_valid = true ∧ d'.tim.jumpOpen = false
        ∧ Keeps (.svr :: .tim :: .outs :: .ins :: .planes :: evAreas) (.TB_STATUS :: evRegs) d d')
  ∧ (∀ (s : State) (t r : Nat) (p : Port) (it : Item) (d : Dev), Acting s t p r 0x30 it d → D.subop.of it.head = 1 →
      d.flag F.TB_REFV_CFG_enable = true → d.refLost 4 = false →
      d.epoch ≤ D.sec.of it.head * secU + min 2000 (max 100 (d.rd F.TB_REFV_CFG_late_ms)) * msU →
      Runs (.timeAdj t p r) s fun d' =>
        let off := toInt 32 (D.offNs.of it.head) * (nsU : Int) + (D.frac.of it.head : Int)
        let tracks := d.rd F.TB_STATUS_sel = 4 ∧ (d.tbState d.lead = 1 ∨ d.tbState d.lead = 2)
        (∃ x, (d'.ring p r).items = [x] ∧ x.phase = .done ∧ x.status = 0)
        ∧ d'.tim.refvFrom = d.now ∧ d'.tim.refvOff = some off
        ∧ (¬tracks → d'.tim = { d.tim with refvFrom := d.now, refvOff := some off } ∧ Keeps [.svr, .tim] [] d d')
        ∧ (tracks → d.steps d.lead (off - (d.tb d.lead).buildout) = false →
            (d'.tb d.lead).phase = off - (d.tb d.lead).buildout)
        ∧ Keeps (.svr :: .tim :: .clk :: .planes :: evAreas) (.TB_STATUS :: .CLK_STATUS :: evRegs) d d')
  ∧ (∀ (s : State) (t r : Nat) (p : Port) (it : Item) (d : Dev), Acting s t p r 0x30 it d → D.subop.of it.head = 1 →
      d.flag F.TB_REFV_CFG_enable = true → d.refLost 4 = true →
      d.epoch ≤ D.sec.of it.head * secU + min 2000 (max 100 (d.rd F.TB_REFV_CFG_late_ms)) * msU →
      Runs (.timeAdj t p r) s fun d' =>
        (∃ x, (d'.ring p r).items = [x] ∧ x.phase = .done ∧ x.status = 0)
        ∧ d'.tim.refvOff = some (toInt 32 (D.offNs.of it.head) * (nsU : Int) + (D.frac.of it.head : Int))
        ∧ d'.refLost 4 = false ∧ (d'.ref 4).qual = 1 ∧ (d'.ref 4).run = 0
        ∧ Keeps (.svr :: .tim :: .clk :: .planes :: evAreas) (.TB_STATUS :: .CLK_STATUS :: evRegs) d d')
  ∧ (∀ (s : State) (t r : Nat) (p : Port) (it : Item) (d : Dev), Acting s t p r 0x30 it d → D.subop.of it.head = 1 →
      d.flag F.TB_REFV_CFG_enable = false →
      Runs (.timeAdj t p r) s fun d' =>
        Becomes p r { it with phase := .done, status := 0 } d d' ∧ d'.flag F.TB_ERR_refv_off = true
        ∧ Keeps [.svr] [.TB_ERR] d d')
  ∧ (∀ (s : State) (t r : Nat) (p : Port) (it : Item) (d : Dev), Acting s t p r 0x60 it d → it.cur = 0 → it.seq ≠ 0 →
      (∃ k, k < 16 ∧ bitOf (D.svrMask.of it.head) k = true ∧ d.svrOn p.other k = true) →
      Runs (.takeover t p r) s fun d' =>
        ((∀ k, k < 16 → ∀ x, x ∈ (d.ring p.other k).items → x.phase ≠ .latched) →
          (d'.ring p r).items = [{ it with cur := 1, phase := .done, status := 0 }])
        ∧ ((∃ k, k < 16 ∧ bitOf (D.svrMask.of it.head) k = true ∧ d.svrOn p.other k = true
              ∧ ∃ x, x ∈ (d.ring p.other k).items ∧ x.phase = .latched) →
            (d'.ring p r).items = [{ it with cur := 1 }])
        ∧ (∀ k, k < 16 → bitOf (D.svrMask.of it.head) k = true → d.svrOn p.other k = true →
            d'.svrOn p.other k = false ∧ d'.bitAt F.HIF_TAKEN_taken k p.other.id = true
            ∧ (d'.ring p.other k).hold = ⟨{}, {}⟩ ∧ (d'.ring p.other k).key = none
            ∧ ∀ x, x ∈ (d'.ring p.other k).items → x.unlatched = false)
        ∧ (∀ k, k < 16 → bitOf (D.svrMask.of it.head) k = false → d'.svrOn p.other k = d.svrOn p.other k)
        ∧ Keeps (.svr :: .order :: .cmx :: evAreas)
            (.HIF_SVR_CFG :: .HIF_SVR_STATUS :: .HIF_CPR_STATUS :: .HIF_TAKEN :: .CMX_MRST :: evRegs ++ poolRegs) d d')
  ∧ (∀ (s : State) (t r : Nat) (p : Port) (it : Item) (d : Dev), Acting s t p r 0x60 it d → it.cur = 0 →
      (∀ k, k < 16 → bitOf (D.svrMask.of it.head) k = true → d.svrOn p.other k = false) →
      Runs (.takeover t p r) s fun d' => Becomes p r { it with phase := .done, status := 0 } d d' ∧ Keeps [.svr] [] d d')
  ∧ (∀ (s : State) (t r : Nat) (p : Port) (it : Item) (d : Dev), Acting s t p r 0x30 it d → D.subop.of it.head = 1 →
      d.flag F.TB_REFV_CFG_enable = true →
      D.sec.of it.head * secU + min 2000 (max 100 (d.rd F.TB_REFV_CFG_late_ms)) * msU < d.epoch →
      Runs (.timeAdj t p r) s fun d' =>
        Becomes p r { it with phase := .done, status := 0 } d d' ∧ d'.flag F.TB_ERR_refv_late = true ∧ d'.tim = d.tim
        ∧ Keeps (.svr :: evAreas) (.TB_ERR :: evRegs) d d')

/-- Items that move bytes (R318, R337 to R341, R369, R476, R479, R480, R569): HAMPER_WRITE stores its bytes in the
set on every named plane in service and nowhere else, opening the set, filled with zeros, where it is not open; HAMPER_READ writes
the stored bytes to host memory; the end of the transfer completes either, with 0x1B where it failed; NVM_WRITE queues its bytes
for the Larder and NVM_READ writes the Larder's bytes to host memory, or is refused while its page is
being written; a failed host access ends either with HOST_ERR. Points of pools and sets
are the model's reading (log 33). -/
def Obligations.TransferItems : Prop :=
  (∀ (s : State) (t r : Nat) (p : Port) (data : List Byte) (it : Item) (d : Dev) (base : Nat) (bytes : List Byte)
      (qs : List Plane), Acting s t p r 0x31 it d → it.cur = 0 → qs = d.writePlanes it.head → qs ≠ [] →
    (∀ q, q ∈ qs → d.isOpen q (D.owner.of it.head) = true
      ∧ D.hOffset.of it.head + D.hLength.of it.head ≤ (d.owner q (D.owner.of it.head)).owned * 8192) →
    base = D.owner.of it.head * 2 ^ 36 + D.hOffset.of it.head → bytes = data.take (D.hLength.of it.head) →
    RunsMem (.hamperWrite t p r data) s fun mem d' =>
      (∀ q, q ∈ qs → (∀ k, k < bytes.length → Memory.read 0#8 (mem.hamper.pl q) (base + k) = bytes.getD k 0#8)
        ∧ ∀ a, (a < base ∨ base + bytes.length ≤ a) →
            Memory.read 0#8 (mem.hamper.pl q) a = Memory.read 0#8 (s.mem.hamper.pl q) a)
      ∧ (∀ q, q ∉ qs → mem.hamper.pl q = s.mem.hamper.pl q) ∧ mem.larder = s.mem.larder ∧ mem.sram = s.mem.sram
      ∧ Becomes p r { it with applied := ⟨qs.contains .a, qs.contains .b⟩, cur := 1 } d d' ∧ Keeps [.svr] [] d d')
  ∧ (∀ (s : State) (t r base : Nat) (p : Port) (q : Plane) (data e bytes : List Byte) (it : Item) (d : Dev),
      Acting s t p r 0x31 it d → it.cur = 0 → d.writePlanes it.head = [q] → d.isOpen q (D.owner.of it.head) = false →
      (d.owner q (D.owner.of it.head)).closing = false → it.cctOf (D.owner.of it.head) = some e →
      d.openSetStatus p r (D.owner.of it.head) e (D.hOffset.of it.head) (D.hLength.of it.head) [q] = 0 →
      isSet (D.owner.of it.head) = true → base = D.owner.of it.head * 2 ^ 36 → bytes = data.take (D.hLength.of it.head) →
      RunsMem (.hamperWrite t p r data) s fun mem d' =>
        (∀ k, k < bytes.length →
          Memory.read 0#8 (mem.hamper.pl q) (base + D.hOffset.of it.head + k) = bytes.getD k 0#8)
        ∧ (∀ a, base ≤ a → a < base + C.pages.of e * 8192 →
            (a < base + D.hOffset.of it.head ∨ base + D.hOffset.of it.head + bytes.length ≤ a) →
            Memory.read 0#8 (mem.hamper.pl q) a = 0#8)
        ∧ (∀ a, (a < base ∨ base + C.pages.of e * 8192 ≤ a) →
            Memory.read 0#8 (mem.hamper.pl q) a = Memory.read 0#8 (s.mem.hamper.pl q) a)
        ∧ mem.hamper.pl q.other = s.mem.hamper.pl q.other ∧ mem.larder = s.mem.larder ∧ mem.sram = s.mem.sram
        ∧ d'.isOpen q (D.owner.of it.head) = true ∧ (d'.owner q (D.owner.of it.head)).owned = C.pages.of e
        ∧ (∀ k, k ≠ D.owner.of it.head → d'.owner q k = d.owner q k) ∧ d'.plane q.other = d.plane q.other
        ∧ (d'.ring p r).items = [{ it with applied := ⟨q == .a, q == .b⟩, cur := 1 }]
        ∧ Keeps [.svr, .planes, .cct] poolRegs d d')
  ∧ (∀ (s : State) (t r : Nat) (p : Port) (data : List Byte) (it : Item) (d : Dev), Acting s t p r 0x31 it d → it.cur = 0 →
      it.ccts = [] → d.writePlanes it.head = [] →
      Runs (.hamperWrite t p r data) s fun d' => Ends d d' p r it 0x1A ∧ Keeps [.svr] [] d d')
  ∧ (∀ (s : State) (t r : Nat) (p : Port) (q : Plane) (it : Item) (d : Dev), Acting s t p r 0x32 it d → it.cur = 0 →
      d.writePlanes it.head = [q] →
      Runs (.hamperRead t p r) s fun d' =>
        (∃ bytes, d'.emitted = Emission.hostWrite p (D.host.of it.head) bytes :: d.emitted
          ∧ bytes.length = D.hLength.of it.head
          ∧ ∀ k, k < bytes.length → d.storedAt q (D.owner.of it.head) (D.hOffset.of it.head + k) = true →
              bytes.getD k 0#8
                = Memory.read 0#8 (s.mem.hamper.pl q) (D.owner.of it.head * 2 ^ 36 + (D.hOffset.of it.head + k)))
        ∧ Becomes p r { it with applied := ⟨q == .a, q == .b⟩, cur := 1 } d d' ∧ Keeps [.svr, .emitted, .free] [] d d')
  ∧ (∀ (s : State) (t r : Nat) (p : Port) (it : Item) (d : Dev), d = (s.on t).landDue → r < 16 →
      (d.ring p r).items = [it] → it.phase = .acting → descOp it.head = 0x32 → it.cur = 1 →
      Runs (.hamperTransferDone t p r true) s fun d' =>
        Becomes p r { it with phase := .done, status := 0 } d d' ∧ Keeps [.svr] [] d d')
  ∧ (∀ (s : State) (t r : Nat) (p : Port) (it : Item) (d : Dev), d = (s.on t).landDue → r < 16 →
      (d.ring p r).items = [it] → it.phase = .acting → descOp it.head = 0x31 → it.cur = 1 →
      Runs (.hamperTransferDone t p r true) s fun d' =>
        Becomes p r { it with phase := .done, status := 0 } d d'
        ∧ (∀ q, q ∈ d.writePlanes it.head → isSet (D.owner.of it.head) = true →
            d'.owner q (D.owner.of it.head)
              = { d.owner q (D.owner.of it.head) with stale := (d.owner q (D.owner.of it.head)).stale && !D.restored.on it.head })
        ∧ (∀ (q : Plane) (x : Nat), x ≠ D.owner.of it.head →
            d'.owner q x = { d.owner q x with lutDue := (d'.owner q x).lutDue })
        ∧ (∀ q, q ∈ d.writePlanes it.head → ∀ x, x ≠ D.owner.of it.head → isConv x = true → d.isOpen q x = true →
            colourOf (d.owner q x).profile = true → C.lutSet.of (d.owner q x).cct = D.owner.of it.head →
            (d'.owner q x).lutDue = true)
        ∧ Keeps [.svr, .planes] [] d d')
  ∧ (∀ (s : State) (t r op : Nat) (p : Port) (it : Item) (d : Dev), d = (s.on t).landDue → r < 16 →
      (d.ring p r).items = [it] → it.phase = .acting → op = 0x31 ∨ op = 0x32 → descOp it.head = op → it.cur = 1 → it.ccts = [] →
      Runs (.hamperTransferDone t p r false) s fun d' => Ends d d' p r it 0x1B ∧ Keeps [.svr, .planes] [] d d')
  ∧ (∀ (s : State) (t r : Nat) (p : Port) (data : List Byte) (it : Item) (d : Dev), Acting s t p r 0x40 it d →
      d.nvmTurn it = true → (∀ c, c ∈ d.ldr.queue → ¬(c.what = 0 ∧ c.tag = 16 * p.id + r)) →
      Runs (.nvmWrite t p r data true) s fun d' =>
        d'.ldr.queue = d.ldr.queue ++ [{ cls := 0, what := 0, tag := 16 * p.id + r
                                         addr := D.nAddr.of it.head, data := fit (D.nLength.of it.head) data }]
        ∧ (d.ldr.page.isSome = true → d'.ldr.page = d.ldr.page)
        ∧ (d.ldr.page = none → d.start.railOut = [] → d.ldr.ending = false → d.ldr.queue = [] →
            d'.ldr.page = some (D.nAddr.of it.head / 256) ∧ d'.flag F.LDR_STATUS_busy = true)
        ∧ (d'.ring p r).items = [it] ∧ Keeps [.ldr, .free] [.LDR_STATUS] d d')
  ∧ (∀ (s : State) (t r : Nat) (p : Port) (it : Item) (d : Dev), Acting s t p r 0x41 it d →
      d.ldrBusy (D.nAddr.of it.head) (D.nLength.of it.head) = false →
      Runs (.nvmRead t p r true) s fun d' =>
        (∃ bytes, d'.emitted = Emission.hostWrite p (D.host.of it.head) bytes :: d.emitted
          ∧ bytes.length = D.nLength.of it.head
          ∧ ∀ k, k < bytes.length → (∀ z, z ∈ d.ldr.torn → ¬(z.1 ≤ D.nAddr.of it.head + k ∧ D.nAddr.of it.head + k < z.1 + z.2)) →
              bytes.getD k 0#8 = Memory.read 0xFF#8 s.mem.larder (D.nAddr.of it.head + k))
        ∧ Becomes p r { it with phase := .done, status := 0 } d d' ∧ Keeps [.svr, .emitted, .free] [] d d')
  ∧ (∀ (s : State) (t r : Nat) (p : Port) (ok : Bool) (it : Item) (d : Dev), Acting s t p r 0x41 it d →
      d.ldrBusy (D.nAddr.of it.head) (D.nLength.of it.head) = true → it.ccts = [] →
      Runs (.nvmRead t p r ok) s fun d' =>
        Ends d d' p r it 0x1C ∧ d'.flag F.LDR_ERR_busy_read = true
        ∧ d'.rd F.LDR_CNT_busy_reads = satAdd F.LDR_CNT_busy_reads.width (d.rd F.LDR_CNT_busy_reads) 1
        ∧ Keeps [.svr] [.LDR_CNT, .LDR_ERR] d d')
  ∧ (∀ (s : State) (t r : Nat) (p : Port) (data : List Byte) (it : Item) (c : Instr) (op : Nat) (d : Dev),
      Acting s t p r op it d → it.ccts = [] →
      (c = .nvmWrite t p r data false ∧ op = 0x40 ∧ d.nvmTurn it = true
          ∧ (∀ x, x ∈ d.ldr.queue → ¬(x.what = 0 ∧ x.tag = 16 * p.id + r))
        ∨ c = .nvmRead t p r false ∧ op = 0x41 ∧ d.ldrBusy (D.nAddr.of it.head) (D.nLength.of it.head) = false) →
      Runs c s fun d' => Ends d d' p r it 0x1B ∧ Keeps [.svr] [] d d')

/-- KEY items, on their turn (R495, R497, R499, R501 to R514): KEY_EXTEND extends a measurement register; the items
that answer with a result write it to host memory and are done; KEY_GENERATE, KEY_RESEAL and KEY_DELETE queue the
new body of their slot for the Larder and keep the Keystore busy; one that may not be done ends with its reason, and a failed host
access ends one with HOST_ERR; KEY_RING_AGREE gives the ring its key where the peer's key is one, else fails.

The Keystore itself (R500, R503, R504): every slot is read and unwrapped once after the measurements, and the second time only
rewrites that a key day left are made; an entropy failure ends random draws and is reported. The order of the checks of a KEY item
is the model's reading, the device's secrets are opaque (log 32 and 9). -/
def Obligations.KeyItemsAndKeystore : Prop :=
  (∀ (s : State) (t r : Nat) (p : Port) (it : Item) (data : List Byte) (d : Dev), Served s t p r 0x51 it d →
    D.bmr.of it.head < d.key.bmr.length →
    Runs (.keyExtend t p r data true) s fun d' =>
      d'.key = { d.key with
        bmr := d.key.bmr.set (D.bmr.of it.head) (sha384 (d.key.bmr.getD (D.bmr.of it.head) [] ++ fit 48 data)) }
      ∧ Becomes p r { it with phase := .done, status := 0 } d d' ∧ Keeps [.svr, .key] [] d d')
  ∧ (∀ (s : State) (t r : Nat) (p : Port) (it : Item) (d : Dev), Served s t p r 0x50 it d →
      Runs (.keyInfo t p r true) s fun d' =>
        Answers d d' p r it (fit 640 (fit 96 d.dikPublic ++ fit 96 (p384Public d.asrunKey) ++ d.key.bmr.flatten
          ++ le 2 (d.rd F.CMX_RMB_STATUS_fw) ++ zeros 2 ++ le 4 (d.ldr.counts.getD 1 0))))
  ∧ (∀ (s : State) (t r : Nat) (p : Port) (it : Item) (d : Dev), Served s t p r 0x53 it d →
      (d.slot (D.slot.of it.head)).state = 1 →
      Runs (.keyProvenance t p r true) s fun d' =>
        Answers d d' p r it (d.provenance (D.slot.of it.head) (nonceOf it.head)).1)
  ∧ (∀ (s : State) (t r : Nat) (p : Port) (it : Item) (q : List Byte) (d : Dev), Served s t p r 0x54 it d →
      d.flag F.KEY_CTRL_quote_en = true →
      q = le 4 0x54513536 ++ le 2 2 ++ le 2 8 ++ d.deviceId ++ nonceOf it.head ++ le 4 (d.ldr.counts.getD 1 0) ++ zeros 4
        ++ d.key.bmr.flatten →
      Runs (.keyQuote t p r true) s fun d' => Answers d d' p r it (q ++ fit 96 (d.sign d.dik (sha384 q)).1))
  ∧ (∀ (s : State) (t r : Nat) (p : Port) (it : Item) (data : List Byte) (d : Dev), Served s t p r 0x58 it d →
      (d.slot (D.slot.of it.head)).state = 1 → K.usage.of (d.slot (D.slot.of it.head)).body % 2 = 1 →
      Runs (.keySign t p r data true) s fun d' =>
        Answers d d' p r it (fit 96 (d.sign (d.slotKey (D.slot.of it.head)) (fit 48 data)).1))
  ∧ (∀ (s : State) (t r : Nat) (p : Port) (it : Item) (data : List Byte) (d : Dev), Served s t p r 0x59 it d →
      (d.slot (D.slot.of it.head)).state = 1 → 2 ≤ K.usage.of (d.slot (D.slot.of it.head)).body →
      Runs (.keyMac t p r data true) s fun d' =>
        Answers d d' p r it (hmac384 (d.slotKey (D.slot.of it.head)) (fit (D.kLength.of it.head) data)))
  ∧ (∀ (s : State) (t r sl day n : Nat) (p : Port) (it : Item) (ok : Bool) (key pub : List Byte) (d : Dev),
      Served s t p r 0x52 it d → d.flag F.KEY_CTRL_gen_en = true → sl = D.slot.of it.head → (d.slot sl).state = 0 →
      d.flag F.KEY_STATUS_drbg_ok = true → d.dayWrite sl = some (day, n) →
      key = (if D.alg.of it.head = 2 then scalarOf d.random.1 else fit 48 d.random.1) →
      pub = (if D.alg.of it.head = 2 then p384Public key else hmac384 key (ascii "OLX1152 key check")) →
      Runs (.keyGenerate t p r ok) s fun d' =>
        QueuesBody d d' p r it sl (sl + 128 * (16 * p.id + r) + 4096 * b2n (!ok))
          (keyBody sl (D.kClass.of it.head) (D.alg.of it.head) 0 (D.usage.of it.head) n day
            (if d.flag F.TB_STATUS_time_valid then d.epoch / secU else 0) (aesWrap (d.kek (D.kClass.of it.head)) key) [] pub))
  ∧ (∀ (s : State) (t r sl day n : Nat) (p : Port) (it : Item) (data : List Byte) (d : Dev), Served s t p r 0x55 it d →
      sl = D.slot.of it.head → (d.slot sl).state = 1 → K.cls.of (d.slot sl).body ≠ 0 → fit 48 (data.take 48) = d.bmrOf 0 →
      d.dayWrite sl = some (day, n) →
      Runs (.keyReseal t p r data true) s fun d' =>
        let b := (d.slot sl).body
        QueuesBody d d' p r it sl (sl + 128 * (16 * p.id + r))
          (keyBody sl 1 (K.alg.of b) 1 (K.usage.of b) n day (K.created.of b) (aesWrap (d.kek 1) (d.slotKey sl))
            (aesWrap (kekOf true ((List.range 4).map fun k => fit 48 ((data.drop (48 * k)).take 48))) (d.slotKey sl)) (publicOf b)))
  ∧ (∀ (s : State) (t r sl day n : Nat) (p : Port) (it : Item) (d : Dev), Served s t p r 0x56 it d →
      sl = D.slot.of it.head → (d.slot sl).state ≠ 0 → d.dayWrite sl = some (day, n) →
      Runs (.keyDelete t p r) s fun d' =>
        QueuesBody d d' p r it sl (sl + 128 * (16 * p.id + r)) (emptyBody sl n day) ∧ d'.key = d.key)
  ∧ (∀ (s : State) (t r op k sl : Nat) (p : Port) (it : Item) (ok : Bool) (c : Instr) (data : List Byte) (d : Dev),
      Served s t p r op it d → sl = D.slot.of it.head →
      (c = .keyGenerate t p r ok ∧ op = 0x52 ∧ d.flag F.KEY_CTRL_gen_en = true ∧ (d.slot sl).state ≠ 0 ∧ k = 2
        ∨ c = .keyGenerate t p r ok ∧ op = 0x52 ∧ d.flag F.KEY_CTRL_gen_en = false ∧ k = 8
        ∨ c = .keyGenerate t p r ok ∧ op = 0x52 ∧ d.flag F.KEY_CTRL_gen_en = true ∧ (d.slot sl).state = 0
            ∧ d.flag F.KEY_STATUS_drbg_ok = false ∧ k = 6
        ∨ c = .keyProvenance t p r ok ∧ op = 0x53 ∧ (d.slot sl).state ≠ 1 ∧ k = d.notReady sl
        ∨ c = .keyQuote t p r ok ∧ op = 0x54 ∧ d.flag F.KEY_CTRL_quote_en = false ∧ k = 8
        ∨ c = .keyReseal t p r data ok ∧ op = 0x55 ∧ (d.slot sl).state ≠ 1 ∧ k = d.notReady sl
        ∨ c = .keyReseal t p r data true ∧ op = 0x55 ∧ (d.slot sl).state = 1 ∧ K.cls.of (d.slot sl).body ≠ 0
            ∧ fit 48 (data.take 48) ≠ d.bmrOf 0 ∧ k = 3
        ∨ c = .keyDelete t p r ∧ op = 0x56 ∧ (d.slot sl).state = 0 ∧ k = 1
        ∨ c = .keyRingAgree t p r data ok ∧ op = 0x57 ∧ d.flag F.KEY_STATUS_drbg_ok = false ∧ k = 6
        ∨ c = .keySign t p r data ok ∧ op = 0x58 ∧ (d.slot sl).state ≠ 1 ∧ k = d.notReady sl
        ∨ c = .keySign t p r data ok ∧ op = 0x58 ∧ (d.slot sl).state = 1 ∧ K.usage.of (d.slot sl).body % 2 = 0 ∧ k = 4
        ∨ c = .keyMac t p r data ok ∧ op = 0x59 ∧ (d.slot sl).state ≠ 1 ∧ k = d.notReady sl
        ∨ c = .keyMac t p r data ok ∧ op = 0x59 ∧ (d.slot sl).state = 1 ∧ K.usage.of (d.slot sl).body < 2 ∧ k = 4) →
      Runs c s fun d' =>
        d'.rd F.KEY_STATUS_last_err = k ∧ Ends d d' p r it 0x1D ∧ Keeps [.svr] [.KEY_STATUS] d d')
  ∧ (∀ (s : State) (t r op sl : Nat) (p : Port) (it : Item) (c : Instr) (data : List Byte) (d : Dev), Served s t p r op it d →
      sl = D.slot.of it.head → d.dayWrite sl = none →
      (c = .keyGenerate t p r true ∧ op = 0x52 ∧ d.flag F.KEY_CTRL_gen_en = true ∧ (d.slot sl).state = 0
          ∧ d.flag F.KEY_STATUS_drbg_ok = true
        ∨ c = .keyReseal t p r data true ∧ op = 0x55 ∧ (d.slot sl).state = 1 ∧ K.cls.of (d.slot sl).body ≠ 0
          ∧ fit 48 (data.take 48) = d.bmrOf 0
        ∨ c = .keyDelete t p r ∧ op = 0x56 ∧ (d.slot sl).state ≠ 0) →
      Runs c s fun d' =>
        d'.rd F.KEY_STATUS_last_err = 5 ∧ d'.flag F.KEY_FAULT_write_limited = true ∧ Ends d d' p r it 0x1D
        ∧ Keeps [.svr] [.KEY_STATUS, .KEY_FAULT] d d')
  ∧ (∀ (s : State) (t r op sl : Nat) (p : Port) (it : Item) (c : Instr) (data : List Byte) (d : Dev), Served s t p r op it d →
      sl = D.slot.of it.head →
      (c = .keyInfo t p r false ∧ op = 0x50 ∨ c = .keyExtend t p r data false ∧ op = 0x51
        ∨ c = .keyProvenance t p r false ∧ op = 0x53 ∧ (d.slot sl).state = 1
        ∨ c = .keyQuote t p r false ∧ op = 0x54 ∧ d.flag F.KEY_CTRL_quote_en = true
        ∨ c = .keyReseal t p r data false ∧ op = 0x55 ∧ (d.slot sl).state = 1 ∧ K.cls.of (d.slot sl).body ≠ 0
        ∨ c = .keyRingAgree t p r data false ∧ op = 0x57 ∧ d.flag F.KEY_STATUS_drbg_ok = true
        ∨ c = .keySign t p r data false ∧ op = 0x58 ∧ (d.slot sl).state = 1 ∧ K.usage.of (d.slot sl).body % 2 = 1
        ∨ c = .keyMac t p r data false ∧ op = 0x59 ∧ (d.slot sl).state = 1 ∧ 2 ≤ K.usage.of (d.slot sl).body) →
      Runs c s fun d' => Ends d d' p r it 0x1B ∧ Keeps [.svr] [] d d')
  ∧ (∀ (s : State) (t r : Nat) (p : Port) (it : Item) (data peer pub resp : List Byte) (d : Dev), Served s t p r 0x57 it d →
      d.flag F.KEY_STATUS_drbg_ok = true → peer = fit 96 data → onCurve peer = true →
      pub = fit 96 (p384Public (scalarOf d.random.1)) →
      resp = pub ++ le 4 ((d.ring p r).keyGens + 1) ++ le 1 p.id ++ le 1 r ++ zeros 10 →
      Runs (.keyRingAgree t p r data true) s fun d' =>
        (d'.ring p r).key = some ((d.ring p r).keyGens + 1, kdf (ecdh (scalarOf d.random.1) peer) "OLX1152 ring key"
          (le 1 p.id ++ le 1 r ++ zeros 2 ++ le 4 ((d.ring p r).keyGens + 1) ++ peer ++ pub) 256)
        ∧ (d'.ring p r).keyGens = (d.ring p r).keyGens + 1 ∧ (d'.ring p r).pos = -1 - (idxDiff (d.svrCi p r) it.idx : Nat)
        ∧ d'.emitted = Emission.hostWrite p (D.host.of it.head)
            (resp ++ fit 96 (d.random.2.sign d.dik (sha384 (resp ++ peer))).1) :: d.emitted
        ∧ d'.rd F.KEY_CNT_agreements = satAdd F.KEY_CNT_agreements.width (d.rd F.KEY_CNT_agreements) 1
        ∧ Becomes p r { it with phase := .done, status := 0 } d d' ∧ Keeps [.svr, .emitted, .key] [.KEY_CNT] d d')
  ∧ (∀ (s : State) (t r : Nat) (p : Port) (it : Item) (data : List Byte) (d : Dev), Served s t p r 0x57 it d →
      d.flag F.KEY_STATUS_drbg_ok = true → onCurve (fit 96 data) = false →
      Runs (.keyRingAgree t p r data true) s fun d' =>
        Ends d d' p r it 0x12 ∧ (d'.ring p r).key = (d.ring p r).key ∧ (d'.ring p r).keyGens = (d.ring p r).keyGens
        ∧ Keeps [.svr, .key] [] d d')
  ∧ (∀ (s : State) (t : Nat) (d : Dev), d = s.on t → d.key.unwrapped = false → d.rd F.GLB_START_phase ≠ 0 →
    Runs (.keySlotUnwrap t) s fun d' =>
      d'.key.unwrapped = true ∧ (d'.flag F.KEY_STATUS_ready = true ∨ ∃ c, c ∈ d'.ldr.queue ∧ c.what = 6)
      ∧ d'.key.bmr = d.key.bmr
      ∧ Keeps (.key :: .free :: evAreas) (.KEY_STATUS :: .KEY_FAULT :: .LDR_TIE :: .LDR_STATUS :: evRegs) d d')
  ∧ (∀ (s : State) (t : Nat), (s.on t).rd F.GLB_START_phase = 0
        ∨ (s.on t).key.unwrapped = true ∧ (∀ x, x ∈ (s.on t).key.slots → x.2.wrap1 = false) →
      OnlyTime (.keySlotUnwrap t) s t)
  ∧ (∀ (s : State) (t : Nat) (d : Dev), d = s.on t →
      Runs (.entropyFail t) s fun d' =>
        d'.flag F.KEY_STATUS_drbg_ok = false ∧ d'.flag F.KEY_FAULT_entropy_fail = true
        ∧ d'.flag F.KEY_STATUS_ready = d.flag F.KEY_STATUS_ready
        ∧ Keeps evAreas (.KEY_STATUS :: .KEY_FAULT :: evRegs) d d')

/-- A salvo from its validation to its completion (R240, R249, R268 to R277, R284, R288, R291, R513 to R515): its header and its
authentication are judged, each entry passes once those before it have, fails with its own status, or waits for a CCT entry; at
its latch point it latches with the next sequence stamp, its takes pending, or moves to the next switch point, or where it may move
no more is dropped or fails; once every entry has landed and its line has ended it is decided; a decided item completes in its
Completion Ring and leaves its ring, its take records written before. What a failed salvo releases is the model's reading
(log 17). -/
def Obligations.SalvoLife : Prop :=
  (∀ (s : State) (t r : Nat) (p : Port) (it : Item) (d : Dev), d = s.on t → r < 16 → d.judging p r = some it → it.cur = 0 →
    (d.ring p r).items = [it] → (d.headVerdict p r it).1 = 0 →
    Runs (.salvo t p r) s fun d' => Becomes p r { it with cur := 1 } d d' ∧ Keeps [.svr] [] d d')
  ∧ (∀ (s : State) (t r : Nat) (p : Port) (it : Item) (d : Dev), d = s.on t → r < 16 → d.judging p r = some it → it.cur = 0 →
      (d.ring p r).items = [it] → it.ccts = [] → 0x10 ≤ (d.headVerdict p r it).1 →
      Runs (.salvo t p r) s fun d' => Ends d d' p r it (d.headVerdict p r it).1 ∧ Keeps [.svr] [.KEY_CNT] d d')
  ∧ (∀ (s : State) (t r : Nat) (p : Port) (it : Item) (d : Dev), d = s.on t → r < 16 → d.judging p r = some it →
      it.auth = true → (d.ring p r).items = [it] → d.authVerifies p r it = some true →
      Runs (.auth t p r) s fun d' => Becomes p r { it with authOk := true } d d' ∧ Keeps [.svr] [] d d')
  ∧ (∀ (s : State) (t r : Nat) (p : Port) (it : Item) (d : Dev), d = s.on t → r < 16 → d.judging p r = some it →
      it.auth = true → (d.ring p r).items = [it] → it.ccts = [] → d.authVerdict p r it = (0x14, 0, true) →
      Runs (.auth t p r) s fun d' =>
        Ends d d' p r it 0x14 ∧ d'.rd F.KEY_CNT_auth_fail = satAdd F.KEY_CNT_auth_fail.width (d.rd F.KEY_CNT_auth_fail) 1
        ∧ Keeps [.svr] [.KEY_CNT] d d')
  ∧ (∀ (s : State) (t r op : Nat) (p : Port) (it : Item) (b : List Byte) (c : Instr) (ch : Check) (d : Dev), d = s.on t →
      Judges d p r op it b → it.ccts = [] → ch = d.checkEntries p r it it.cur →
      (c = .takeVideo t p r ∧ op = 0x10 ∨ c = .takeAudio t p r ∧ op = 0x11 ∨ c = .takeFormat t p r ∧ op = 0x12
        ∨ c = .takeOverlay t p r ∧ op = 0x13 ∨ c = .convOpen t p r ∧ op = 0x14 ∨ c = .convClose t p r ∧ op = 0x15
        ∨ c = .syncOpen t p r ∧ op = 0x16) →
      Runs c s fun d' =>
        (ch.status = 0 → ch.reads = [] → Becomes p r { it with cur := it.cur + 1 } d d' ∧ Keeps [.svr] [] d d')
        ∧ (ch.status = 0 → ch.reads ≠ [] →
            Becomes p r { it with phase := .waiting, need := ch.reads } d d' ∧ Keeps [.svr, .ports, .emitted] [] d d')
        ∧ (0x10 ≤ ch.status → (∃ x, (d'.ring p r).items = [x] ∧ x.phase = .done ∧ x.status = ch.status ∧ x.entry = ch.entry)
            ∧ OtherRings p r d d' ∧ Keeps [.svr] [.KEY_CNT] d d'))
  ∧ (∀ (s : State) (t r frame : Nat) (p : Port) (it : Item) (d : Dev), d = (s.on t).landDue → it.cls < 16 →
      (s.on t).clsOn it.cls = true → (s.on t).tL it.cls frame ≤ (s.on t).epoch → Latches d p r it frame →
      Runs (.salvoLatch t it.cls frame) s fun d' =>
        (∃ x, (d'.ring p r).items = [x] ∧ x.idx = it.idx ∧ x.descs = it.descs ∧ x.phase = .latched ∧ x.stamp = d.stamp + 1
          ∧ x.frame = frame ∧ x.latchAt = d.now ∧ x.line = d.switchLine it.cls ∧ x.point = d.tS it.cls frame
          ∧ x.allocs = it.allocs ∧ x.landed = it.landed)
        ∧ d'.stamp = d.stamp + 1
        ∧ (∀ b, it.entries = [b] → descOp b = 0x10 → (∀ h, (d.out h).changes = []) →
            (d'.out (D.out.of b)).modePend
              = (d.out (D.out.of b)).modePend ++ [{ frame := frame, cls := it.cls, line := d.switchLine it.cls, desc := b }]
            ∧ ((d.out (D.out.of b)).modePend = [] → ∀ q, q ∈ d.planesUp → (d.op (D.out.of b) q).pend = none →
              (d'.op (D.out.of b) q).pend
                = some { route := routeFor (newMode (d.out (D.out.of b)).mode b) q b, frame := frame, cls := it.cls,
                         line := d.switchLine it.cls }))
        ∧ (∀ b, it.entries = [b] → descOp b = 0x12 → (d.out (D.out.of b)).change = none →
            rasterOf b ≠ (d.out (D.out.of b)).raster →
            ∃ c, (d'.out (D.out.of b)).change = some c ∧ c.dst = rasterOf b ∧ c.stamp = d.stamp + 1 ∧ c.frame = frame)
        ∧ (∀ b, it.entries = [b] → descOp b = 0x13 → D.load.on b = true → ∀ q, q ∈ d.planesUp → d.isOpen q (D.set.of b) = true →
            (d'.plane q).palPend = (d.plane q).palPend ++ [{
              at' := d.tS it.cls frame, ps := D.ps.of b
              bytes := Memory.readN 0#8 (s.mem.hamper.pl q) (D.set.of b * 2 ^ 36 + D.palAddr.of b) 2048 }])
        ∧ Keeps [.svr, .order, .ports, .outs, .planes, .cct, .ins, .ldr, .lanes, .emitted] [.LN_STATUS, .LN_BRZ_STATUS] d d')
  ∧ (∀ (s : State) (t r cls frame : Nat) (p : Port) (it x : Item) (d : Dev), d = (s.on t).landDue → cls < 16 → r < 16 →
      (s.on t).clsOn cls = true → (s.on t).tL cls frame ≤ (s.on t).epoch → d.atPoint cls frame = [(p, r, it)] →
      (d.ring p r).items = [it] → it.unlatched = true → it.seq ≠ 0 → it.phase ≠ .secured → it.tooLate frame = false →
      x = it.atFrame frame →
      Runs (.salvoLatch t cls frame) s fun d' =>
        (it.asap = true → x.tries < 16 →
          (d'.ring p r).items = [{ x with target := frame + 1, frame := frame + 1, tries := x.tries + 1,
                                          deferred := !it.entries.isEmpty }])
        ∧ (it.asap = false → D.dropIfLate.on it.head = false → x.late = false →
            (d'.ring p r).items = [{ x with target := frame + 1, frame := frame + 1, late := true }])
        ∧ (it.asap = false → D.dropIfLate.on it.head = true →
            (d'.ring p r).items = [{ x with phase := .done, status := 1, late := true, need := [] }])
        ∧ d'.stamp = d.stamp ∧ (it.ccts = [] → Keeps [.svr, .order, .ports] [.KEY_CNT] d d'))
  ∧ (∀ (s : State) (t r cls frame : Nat) (p : Port) (it : Item) (d : Dev), d = (s.on t).landDue → cls < 16 → r < 16 →
      (s.on t).clsOn cls = true → (s.on t).tL cls frame ≤ (s.on t).epoch → d.atPoint cls frame = [(p, r, it)] →
      (d.ring p r).items = [it] → it.unlatched = true → it.phase ≠ .secured → it.ccts = [] → D.dropIfLate.on it.head = false →
      it.tooLate frame = true →
      Runs (.salvoLatch t cls frame) s fun d' => Ends d d' p r it 0x18 ∧ d'.stamp = d.stamp ∧ Keeps [.svr, .order, .ports] [] d d')
  ∧ (∀ (s : State) (t cls frame : Nat), cls < 16 →
      (s.on t).clsOn cls = false ∨ (s.on t).epoch < (s.on t).tL cls frame → OnlyTime (.salvoLatch t cls frame) s t)
  ∧ (∀ (s : State) (t r : Nat) (p : Port) (it : Item) (d : Dev), d = (s.on t).landDue →
      (d.ring p r).items = [it] → it.phase = .done → it.status ≠ 0 ∨ it.isSalvo = false → TakesRecords d p r →
      Runs (.salvoCompletionPost t p r) s fun d' =>
        Completes d d' p r it ∧ Keeps [.svr, .order, .ports, .recs, .emitted] [.HIF_CPR_STATUS, .HIF_SVR_STATUS] d d')
  ∧ (∀ (s : State) (t r : Nat) (p : Port) (it : Item) (d : Dev), d = (s.on t).landDue →
      (d.ring p r).items = [it] → (∀ k, k < 16 → k ≠ r → (d.ring p k).items = []) → it.isSalvo = true → it.phase = .latched →
      it.begun = true → it.applied.a = true ∨ it.applied.b = true → it.status = 0 → it.standing = [] → d.appliedAt it ≤ d.epoch →
      d.ringOn p .asr = false → TakesRecords d p r →
      Runs (.salvoCompletionPost t p r) s fun d' =>
        Completes d d' p r { it with phase := .done }
        ∧ Keeps [.svr, .order, .ports, .recs, .emitted] [.HIF_CPR_STATUS, .HIF_SVR_STATUS] d d')
  ∧ (∀ (s : State) (t r : Nat) (p : Port) (it : Item) (b : List Byte) (d : Dev), d = (s.on t).landDue →
      (d.ring p r).items = [it] → (∀ k, k < 16 → k ≠ r → (d.ring p k).items = []) → it.isSalvo = true → it.phase = .done →
      it.status = 0 → it.applied.a = true ∨ it.applied.b = true → it.recorded = false → it.entries = [b] → 0x10 ≤ descOp b →
      descOp b ≤ 0x16 → d.ringOn p .asr = true → d.recRoom p .asr = true → (d.port p).asrSince < 256 → TakesRecords d p r →
      Runs (.salvoCompletionPost t p r) s fun d' =>
        Completes d d' p r it ∧ (d'.port p).asrSeq = (d.port p).asrSeq + 1
        ∧ (d'.port p).asrHash = sha384 ((d.port p).asrHash ++ takeRecord it r 1 b ((d.port p).asrSeq + 1))
        ∧ Emission.hostWrite p (d.recBase p .asr + d.rd F.HIF_ASR_STATUS_pi p.id % d.recSize p .asr * 64)
            (withPhase .asr (d.rd F.HIF_ASR_STATUS_phase p.id) (takeRecord it r 1 b ((d.port p).asrSeq + 1))) ∈ d'.emitted
        ∧ Keeps [.svr, .order, .ports, .recs, .emitted] [.HIF_CPR_STATUS, .HIF_SVR_STATUS, .HIF_ASR_STATUS] d d')

/-- The entries of a latched salvo land (R29, R198, R216, R245, R276, R301, R313, R326, R353, R385): a take's pending route
becomes active with its plane mode, a destination takes its new entry, an overlay its new state, a channel opens or
closes, on each plane that applies the salvo and on no other; a TAKE_FORMAT's own effect comes with its raster
change, and a TAKE_OVERLAY that only loads a palette changes no overlay. A take that lands inside a frame, and the unused fields of
a take, are the model's reading (log 23 and 29). -/
def Obligations.SalvoLands : Prop :=
  (∀ (s : State) (t r o : Nat) (p : Port) (it : Item) (b : List Byte) (q : ModeTake) (d : Dev), d = s.on t →
    Lands d p r 0x10 it b → o = D.out.of b → o ∉ it.tiedOuts → (d.out o).modePend = [q] →
    (d.out o).reached q.cls q.frame q.line it.frame (d.landOn o it.line) = true → (∀ q : Plane, (d.plane q).dests = []) →
    (∀ q : Plane, it.applied.pl q = true →
      ∃ x, (d.op o q).pend = some x ∧ (d.out o).reached x.cls x.frame x.line it.frame (d.landOn o it.line) = true) →
    Runs (.takeVideo t p r) s fun d' =>
      (d'.ring p r).items = [{ it with landed := [1] }] ∧ OtherRings p r d d' ∧ (d'.out o).modePend = []
      ∧ (d'.out o).mode = newMode (d.out o).mode q.desc
      ∧ (∀ q : Plane, it.applied.pl q = true →
          (d.op o q).pend.map (·.route) = some (d'.op o q).active ∧ (d'.op o q).pend = (d.op o q).next)
      ∧ (∀ q : Plane, it.applied.pl q = false → (d'.op o q).active = (d.op o q).active ∧ (d'.op o q).pend = (d.op o q).pend)
      ∧ Keeps [.svr, .outs, .ldr, .lanes, .planes, .ev, .startQ] poolRegs d d')
  ∧ (∀ (s : State) (t r a : Nat) (p : Port) (it : Item) (b : List Byte) (e : AEntry) (d : Dev), d = s.on t →
      Lands d p r 0x11 it b → aEntries b = [(a, e)] → a / 16 ∉ it.tiedOuts → it.early = [] →
      Runs (.takeAudio t p r) s fun d' =>
        Becomes p r { it with landed := [1] } d d'
        ∧ (∀ q : Plane, it.applied.pl q = true → (d'.dest q a).now.entry = e ∧ ∀ x, x ≠ a → d'.dest q x = d.dest q x)
        ∧ (∀ q : Plane, it.applied.pl q = false → d'.plane q = d.plane q) ∧ Keeps [.svr, .planes, .ldr] [] d d')
  ∧ (∀ (s : State) (t r : Nat) (p : Port) (it : Item) (b : List Byte) (d : Dev), d = s.on t → Lands d p r 0x12 it b →
      Runs (.takeFormat t p r) s fun d' => Becomes p r { it with landed := [1] } d d' ∧ Keeps [.svr] [] d d')
  ∧ (∀ (s : State) (t r : Nat) (p : Port) (it : Item) (b : List Byte) (d : Dev), d = s.on t → Lands d p r 0x13 it b →
      D.palOnly.on b = false → D.out.of b ∉ it.tiedOuts → it.early = [] →
      Runs (.takeOverlay t p r) s fun d' =>
        Becomes p r { it with landed := [1] } d d'
        ∧ (∀ q : Plane, it.applied.pl q = true → d'.op (D.out.of b) q = { d.op (D.out.of b) q with ovl := overlayOf b })
        ∧ (∀ q : Plane, it.applied.pl q = false → d'.op (D.out.of b) q = d.op (D.out.of b) q)
        ∧ OtherOuts (D.out.of b) d d' ∧ Keeps [.svr, .outs] [] d d')
  ∧ (∀ (s : State) (t r : Nat) (p : Port) (it : Item) (b : List Byte) (d : Dev), d = s.on t → Lands d p r 0x13 it b →
      D.palOnly.on b = true →
      Runs (.takeOverlay t p r) s fun d' => Becomes p r { it with landed := [1] } d d' ∧ Keeps [.svr] [] d d')
  ∧ (∀ (s : State) (t r : Nat) (p : Port) (it : Item) (b : List Byte) (a : Alloc) (d : Dev), d = s.on t →
      Lands d p r 0x14 it b → isConv a.id = true → it.allocs = [a] → it.closes = [] → a.entry = 1 →
      it.applied.pl a.plane = true → (d.owner a.plane a.id).closing = false →
      Runs (.convOpen t p r) s fun d' =>
        (d'.owner a.plane a.id).isOpen = true ∧ (d'.owner a.plane a.id).openAt = it.point
        ∧ (d'.owner a.plane a.id).src = a.owner.src ∧ (d'.owner a.plane a.id).profile = a.owner.profile
        ∧ d'.plane a.plane.other = { d.plane a.plane.other with was := (d'.plane a.plane.other).was }
        ∧ Becomes p r { it with landed := [1] } d d' ∧ KeepsOthers .HAM_CB_CNT a.plane.id d d'
        ∧ Keeps [.svr, .planes, .startQ, .ldr] [.HAM_CB_CNT] d d')
  ∧ (∀ (s : State) (t r : Nat) (p : Port) (it : Item) (b : List Byte) (a : Alloc) (d : Dev), d = s.on t →
      Lands d p r 0x16 it b → isSync a.id = true → it.allocs = [a] → it.closes = [] → a.entry = 1 →
      it.applied.pl a.plane = true → (d.owner a.plane a.id).closing = false →
      Runs (.syncOpen t p r) s fun d' =>
        d'.owner a.plane a.id = { a.owner with
          isOpen := true, openAt := it.point, opened := a.owner.cct, startDue := false, hold := 0
          pub := BitVec.ofNat 32 (1 + 2 * a.owner.depth) }
        ∧ (∀ k, k ≠ a.id → d'.owner a.plane k = d.owner a.plane k)
        ∧ d'.plane a.plane.other = { d.plane a.plane.other with was := (d'.plane a.plane.other).was }
        ∧ (d'.inp a.id).cct = (a.owner.cct.drop 4).take 8 ∧ (3, a.id) ∈ d'.ldr.jPend ∧ (∀ k, k ≠ a.id → d'.inp k = d.inp k)
        ∧ Becomes p r { it with landed := [1] } d d' ∧ KeepsOthers .HAM_CB_CNT a.plane.id d d'
        ∧ Keeps [.svr, .planes, .ins, .ldr] [.HAM_CB_CNT] d d')
  ∧ (∀ (s : State) (t r : Nat) (p : Port) (it : Item) (b : List Byte) (x : Alloc) (d : Dev), d = s.on t →
      Lands d p r 0x15 it b → it.closes = [x] → x.entry = 1 → it.applied.pl x.plane = true → it.allocs = [] →
      Runs (.convClose t p r) s fun d' =>
        (d'.owner x.plane x.id).isOpen = false ∧ (d'.owner x.plane x.id).closing = true
        ∧ (d'.owner x.plane x.id).closeAt = it.point + lineU (d.clsRate it.cls) (d.clsL it.cls)
        ∧ (∀ k, k ≠ x.id → d'.owner x.plane k = d.owner x.plane k)
        ∧ d'.plane x.plane.other = { d.plane x.plane.other with was := (d'.plane x.plane.other).was }
        ∧ Becomes p r { it with landed := [1] } d d' ∧ Keeps [.svr, .planes, .ldr] [] d d')
/-! ### Planes and engines (chapters 8, 9, 10) -/

/-- Plane faults (R296 to R298, R320, R372, R414, R568): a cause of Table 8-2 outside FAULTED declares the
fault, with its instant and its count, takes the plane's timebase out of service and its part out of every latched salvo; a cause
in FAULTED is only noted; the other plane and the other items stay as they are. -/
def Obligations.PlaneFaults : Prop :=
  (∀ (s : State) (t : Nat) (p : Plane) (d : Dev), d = (s.on t).landDue → d.planeGated p = false → d.plState p ≠ 1 →
    Runs (.plFaultReq t p) s fun d' => DeclaresFault d d' p 8 ∧ Keeps faultAreas faultRegs d d')
  ∧ (∀ (s : State) (t : Nat) (p : Plane) (d : Dev), d = (s.on t).landDue → d.plState p ≠ 1 →
      Runs (.takeSequencerWatchdog t p) s fun d' => DeclaresFault d d' p 7 ∧ Keeps faultAreas faultRegs d d')
  ∧ (∀ (s : State) (t : Nat) (p : Plane) (d : Dev), d = (s.on t).landDue → d.plState p ≠ 1 →
      Runs (.hamperStackFault t p) s fun d' =>
        DeclaresFault d d' p 5 ∧ d'.flag F.HAM_STATUS_trained p.id = false ∧ KeepsOthers .HAM_STATUS p.id d d'
        ∧ Keeps faultAreas (.HAM_STATUS :: faultRegs) d d')
  ∧ (∀ (s : State) (t g : Nat) (p : Plane) (d : Dev), d = (s.on t).landDue → g < 96 → p = Plane.ofId (g / 48) →
      d.plState p ≠ 1 →
      Runs (.engineControlCheckFault t g .profile) s fun d' =>
        DeclaresFault d d' p 4 ∧ (∀ i, d'.engine p i = d.engine p i) ∧ Keeps faultAreas faultRegs d d')
  ∧ (∀ (s : State) (t g k : Nat) (p : Plane) (c : Instr) (d : Dev), d = (s.on t).landDue → g < 96 → d.plState p = 1 →
      (c = .plFaultReq t p ∧ d.planeGated p = false ∧ k = 8 ∨ c = .takeSequencerWatchdog t p ∧ k = 7
        ∨ c = .engineControlCheckFault t g .profile ∧ p = Plane.ofId (g / 48) ∧ k = 4) →
      Runs c s fun d' =>
        d'.plState p = 1 ∧ d'.rd F.PL_STATUS_cause p.id = k
        ∧ d'.plane p = { d.plane p with autoOk := (d.plane p).autoOk && autoAllowed k }
        ∧ d'.plane p.other = d.plane p.other ∧ KeepsOthers .PL_STATUS p.id d d' ∧ Keeps [.planes] [.PL_STATUS] d d')
  ∧ (∀ (s : State) (t : Nat) (p : Plane) (d : Dev), d = (s.on t).landDue → d.planeGated p = true →
      Runs (.plFaultReq t p) s fun d' => d' = d)
  ∧ (∀ (s : State) (t : Nat) (p : Plane) (d : Dev), d = (s.on t).landDue → d.plState p = 1 →
      Runs (.hamperStackFault t p) s fun d' =>
        d'.plState p = 1 ∧ d'.rd F.PL_STATUS_cause p.id = 5 ∧ d'.flag F.HAM_STATUS_trained p.id = false
        ∧ d'.plane p = { d.plane p with autoOk := false, stackCause := (d'.plane p).stackCause }
        ∧ d'.plane p.other = d.plane p.other ∧ KeepsOthers .PL_STATUS p.id d d' ∧ KeepsOthers .HAM_STATUS p.id d d'
        ∧ Keeps (.planes :: evAreas) (.PL_STATUS :: .HAM_STATUS :: evRegs) d d')

/-- Restart and joining (R300, R301, R320, R375, R569, Table 8-3): a restart in FAULTED of a plane that is not
gated (R449) empties the plane's Hamper contents,
slot buffers and palettes, closes its channels, keeps its sets but stale, returns its engines and lets its stack train, and every
output of a class waits for its copy; automatic restart comes 100 ms after the fault where the causes and the hour's count allow
it, and else does nothing; a restarted plane whose stack is trained joins, on the lead's time. What a restart leaves readable, and
engine tests of a restart, are the model's reading (log 27). -/
def Obligations.PlaneRestarts : Prop :=
  (∀ (s : State) (t : Nat) (p : Plane) (d : Dev), d = (s.on t).landDue → d.planeGated p = false → d.plState p = 1 →
    RunsMem (.plRestartReq t p) s fun mem d' =>
      Restarts s.mem mem d d' p ∧ (d'.plane p).autos = (d.plane p).autos ∧ Keeps restartAreas restartRegs d d')
  ∧ (∀ (s : State) (t : Nat) (p : Plane) (d : Dev), d = (s.on t).landDue → d.plState p = 1 → (d.plane p).autoOk = true →
      d.flag F.PL_CTRL_auto_restart p.id = true → (d.plane p).faultAt + 100 * msU ≤ d.now →
      (d.recentAutos p).length < d.rd F.PL_CTRL_auto_max p.id →
      RunsMem (.planeAutoRestart t p) s fun mem d' =>
        Restarts s.mem mem d d' p ∧ (d'.plane p).autos = d.now :: d.recentAutos p
        ∧ d'.rd F.PL_STATUS_recent p.id = ((d.recentAutos p).length + 1) % 4 ∧ Keeps restartAreas restartRegs d d')
  ∧ (∀ (s : State) (t : Nat) (p : Plane) (d : Dev), d = (s.on t).landDue →
      d.plState p ≠ 1 ∨ d.planeGated p = true →
      Runs (.plRestartReq t p) s fun d' => d' = d)
  ∧ (∀ (s : State) (t : Nat) (p : Plane) (d : Dev), d = (s.on t).landDue →
      (d.plState p ≠ 1 ∨ (d.plane p).autoOk = false ∨ d.flag F.PL_CTRL_auto_restart p.id = false
        ∨ d.now < (d.plane p).faultAt + 100 * msU ∨ d.rd F.PL_CTRL_auto_max p.id ≤ (d.recentAutos p).length) →
      Runs (.planeAutoRestart t p) s fun d' => d' = d.noteAutos p ∧ d'.plState p = d.plState p ∧ Keeps [] [.PL_STATUS] d d')
  ∧ (∀ (s : State) (t : Nat) (p : Plane) (d : Dev), d = (s.on t).landDue → d.plState p = 2 → (d.plane p).training = false →
      d.flag F.HAM_STATUS_trained p.id = true → d.tbState p.other ≠ 6 →
      Runs (.planeRestartDone t p) s fun d' =>
        (d'.plState p = 3 ∨ d'.plState p = 0 ∧ ∀ o, o < 1152 → (d'.op o p).waitCopy = false)
        ∧ (d'.plane p).joinAt = d.now ∧ (d'.plane p).pals = (d.plane p.other).pals
        ∧ d'.tbState p = 5 ∧ (d'.tb p).epoch = (d.tb p.other).epoch ∧ (d'.tb p).buildout = (d.tb p.other).buildout
        ∧ d'.lead = p.other ∧ (∀ q : Plane, d'.plState q.other = d.plState q.other ∨ q.other = p)
        ∧ d'.rd F.PL_CNT_restarts p.id = min (d.rd F.PL_CNT_restarts p.id + 1) 65535
        ∧ Keeps (.planes :: .outs :: .tim :: .clk :: evAreas)
            (.PL_STATUS :: .PL_CNT :: .SEL_STATUS :: .TB_STATUS :: .CLK_STATUS :: .LX_STATUS :: .AX_STATUS :: evRegs) d d')
  ∧ (∀ (s : State) (t : Nat) (p : Plane) (d : Dev), d = (s.on t).landDue → d.plState p = 2 → (d.plane p).training = false →
      d.flag F.HAM_STATUS_trained p.id = true → d.tbState p.other = 6 →
      Runs (.planeRestartDone t p) s fun d' =>
        (d'.plState p = 3 ∨ d'.plState p = 0) ∧ (d'.plane p).joinAt = d.now ∧ d'.lead = p ∧ d'.tbState p ≠ 6
        ∧ d'.tbState p.other = 6)
  ∧ (∀ (s : State) (t : Nat) (p : Plane) (d : Dev), d = (s.on t).landDue →
      d.plState p ≠ 2 ∨ (d.plane p).training = true ∨ d.flag F.HAM_STATUS_trained p.id = false →
      Runs (.planeRestartDone t p) s fun d' => d' = d)

/-- Engines (R346, R354, R362, R372, R373, R375, R376): up to eight queued starts are served in a microsecond, those of
the lowest ids; an engine that misses its frame's end or fails its control check is under test and the channel it carries aborts on its
plane, leaving its engines; a corrected error is counted; an idle engine checks nothing; a passed test returns an engine to
the pool, a failed one, or one too many faults in the hour, disables it; GE_ENG_DIS removes the engines it names, but not while it
is locked or its plane is gated. Points of engines are the model's reading (log 33). -/
def Obligations.EnginesServe : Prop :=
  (∀ (s : State) (t : Nat) (d : Dev), d = (s.on t).landDue → d.startQ ≠ [] →
    (∀ a, d.startAt = some a → a + usU ≤ d.now) →
    Runs (.engineStart t) s fun d' =>
      d'.startQ.length = d.startQ.length - 8 ∧ (∀ x, x ∈ d'.startQ → x ∈ d.startQ)
      ∧ (∀ x, x ∈ d'.startQ → ∀ y, y ∈ d.startQ → y.1 < x.1 → d'.startQ.count y < d.startQ.count y)
      ∧ d'.startAt = some d.now ∧ Keeps [.startQ] [] d d')
  ∧ (∀ (s : State) (t : Nat) (d : Dev), d = (s.on t).landDue →
      (d.startQ = [] ∨ ∃ a, d.startAt = some a ∧ d.now < a + usU) → Runs (.engineStart t) s fun d' => d' = d)
  ∧ (∀ (s : State) (t g id : Nat) (p : Plane) (i : Nat) (d : Dev), d = (s.on t).landDue → Carries d g p i id →
      (d.overdue p id).isSome = true →
      Runs (.engineWatchdog t g) s fun d' =>
        (d'.engine p i).watchdog = satAdd 16 (d.engine p i).watchdog 1 ∧ (d'.engine p i).ctrlErr = (d.engine p i).ctrlErr
        ∧ EngineFaults d d' p i id)
  ∧ (∀ (s : State) (t g id : Nat) (p : Plane) (i : Nat) (e : EngErr) (d : Dev), d = (s.on t).landDue → Carries d g p i id →
      e = .uncorrectable ∨ e = .badDma →
      Runs (.engineControlCheckFault t g e) s fun d' =>
        (d'.engine p i).ctrlErr = satAdd 16 (d.engine p i).ctrlErr 1 ∧ (d'.engine p i).watchdog = (d.engine p i).watchdog
        ∧ EngineFaults d d' p i id)
  ∧ (∀ (s : State) (t g : Nat) (p : Plane) (i : Nat) (d : Dev), d = (s.on t).landDue → g < 96 → p = Plane.ofId (g / 48) →
      i = g % 48 → d.inService p = true → (d.engine p i).state = 1 → (d.engine p i).loads ≠ [] →
      Runs (.engineControlCheckFault t g .corrected) s fun d' =>
        d'.engine p i = { d.engine p i with ctrlErr := satAdd 16 (d.engine p i).ctrlErr 1 }
        ∧ (∀ k, k ≠ i → d'.engine p k = d.engine p k) ∧ (∀ id, d'.owner p id = d.owner p id)
        ∧ d'.plane p.other = d.plane p.other ∧ Keeps (.planes :: evAreas) evRegs d d')
  ∧ (∀ (s : State) (t g : Nat) (p : Plane) (i : Nat) (e : EngErr) (c : Instr) (d : Dev), d = (s.on t).landDue → g < 96 →
      p = Plane.ofId (g / 48) → i = g % 48 →
      (c = .engineControlCheckFault t g e ∧ e ≠ .profile
          ∧ (d.inService p = false ∨ (d.engine p i).state ≠ 1 ∨ (d.engine p i).loads = [])
        ∨ c = .engineWatchdog t g ∧ (d.inService p = false ∨ (d.engine p i).state ≠ 1
            ∨ ∀ id, id ∈ (d.engine p i).loads → d.overdue p id = none)) →
      Runs c s fun d' => d' = d)
  ∧ (∀ (s : State) (t g : Nat) (p : Plane) (i : Nat) (pass : Bool) (d : Dev), d = (s.on t).landDue → g < 96 →
      p = Plane.ofId (g / 48) → i = g % 48 → (d.engine p i).state = 2 →
      Runs (.engineTestDone t g pass) s fun d' =>
        (pass = true → (d.recentFaults p i).length < max 1 (d.rd F.GE_CTRL_fault_max p.id) →
          (d'.engine p i).state = 0
          ∧ (d.engRemoved p i = false → d'.rd F.GE_STATUS_half_free p.id = (d.rd F.GE_STATUS_half_free p.id + 2) % 128))
        ∧ (pass = false ∨ max 1 (d.rd F.GE_CTRL_fault_max p.id) ≤ (d.recentFaults p i).length →
            (d'.engine p i).state = 3 ∧ d'.rd F.GE_STATUS_half_free p.id = d.rd F.GE_STATUS_half_free p.id
            ∧ (d.engRemoved p i = false → d'.rd F.GE_STATUS_disabled p.id = (d.rd F.GE_STATUS_disabled p.id + 1) % 64))
        ∧ (∀ k, k ≠ i → d'.engine p k = d.engine p k) ∧ d'.plane p.other = d.plane p.other
        ∧ KeepsOthers .GE_STATUS p.id d d' ∧ Keeps (.planes :: evAreas) (.GE_STATUS :: evRegs) d d')
  ∧ (∀ (s : State) (t g : Nat) (p : Plane) (i : Nat) (d : Dev), d = (s.on t).landDue → g < 96 →
      p = Plane.ofId (g / 48) → i = g % 48 → (d.engine p i).state = 0 → (d.engine p i).loads = [] → d.plState p = 2 →
      Runs (.engineTestDone t g false) s fun d' =>
        (d'.engine p i).state = 3
        ∧ (d.engRemoved p i = false → d'.rd F.GE_STATUS_half_free p.id = d.rd F.GE_STATUS_half_free p.id - 2)
        ∧ (∀ k, k ≠ i → d'.engine p k = d.engine p k) ∧ d'.plane p.other = d.plane p.other
        ∧ KeepsOthers .GE_STATUS p.id d d' ∧ Keeps (.planes :: evAreas) (.GE_STATUS :: evRegs) d d')
  ∧ (∀ (s : State) (t : Nat) (p : Plane) (val : Word) (d : Dev), d = (s.on t).landDue → d.planeGated p = false →
      d.flag F.LX_CTRL_lock p.id = false →
      Runs (.geEngDisWrite t p false val) s fun d' =>
        (∀ k, k < 32 → d'.engRemoved p k = bitOf val.toNat k) ∧ (∀ k, 32 ≤ k → d'.engRemoved p k = d.engRemoved p k)
        ∧ KeepsOthers .GE_ENG_DIS_LO p.id d d' ∧ KeepsOthers .GE_STATUS p.id d d'
        ∧ Keeps [] [.GE_ENG_DIS_LO, .GE_STATUS] d d')
  ∧ (∀ (s : State) (t : Nat) (p : Plane) (val : Word) (d : Dev), d = (s.on t).landDue → d.planeGated p = false →
      d.flag F.LX_CTRL_lock p.id = false →
      Runs (.geEngDisWrite t p true val) s fun d' =>
        (∀ k, k < 16 → d'.engRemoved p (32 + k) = bitOf val.toNat k) ∧ (∀ k, k < 32 → d'.engRemoved p k = d.engRemoved p k)
        ∧ KeepsOthers .GE_ENG_DIS_HI p.id d d' ∧ KeepsOthers .GE_STATUS p.id d d'
        ∧ Keeps [] [.GE_ENG_DIS_HI, .GE_STATUS] d d')
  ∧ (∀ (s : State) (t : Nat) (p : Plane) (hi : Bool) (val : Word) (d : Dev), d = (s.on t).landDue →
      d.flag F.LX_CTRL_lock p.id = true ∨ d.planeGated p = true → Runs (.geEngDisWrite t p hi val) s fun d' => d' = d)

/-- Channel frames and returned resources (R326, R355, R356, R359, R361): at a pacing instant the newest unit that
completed before it is the anchor, and the frame is fill for the channel's first three frames, missing where no unit
has completed, computed where one has and it has not repeated for longer than hold_frames; outside a channel's pacing instants
nothing is paced; the resources of a closed channel or set return at the end of its switch line, and not before. The buffer a frame
is read from rests on the model's reading (log 26). -/
def Obligations.ChannelFrames : Prop :=
  (∀ (s : State) (t id j tj r e : Nat) (p : Plane) (o : Owner) (d : Dev), d = (s.on t).landDue → id < 4096 → isConv id = true →
    o = d.owner p id → r = fmtRate o.fmtOut → tj = frameStart r j → o.isOpen = true → d.inService p = true →
    d.tim.running = true → d.flag F.CLK_STATUS_safe = false → (∀ f, f ∈ o.frames → f.j < j) → o.openAt ≤ tj → tj ≤ d.epoch →
    d.epoch < frameStart r (j + 1) → o.aborted = false → (∀ x, x ∈ (d.plane p).owners → x.2.aborted = false) →
    o.cctNext = none → o.holdNext = none → o.lutDue = false → d.needNow p id = o.owned →
    e = (if o.startDue then j else o.e) →
    Runs (.pacingInstant t p id j) s fun d' =>
      (∃ f rest, (d'.owner p id).frames = f :: rest ∧ f.j = j
        ∧ (j < e + 3 → f.state = .fill)
        ∧ ((o.stored (fieldUnit o.profile o.fmtIn o.fmtOut)).filter (fun u => decide (u.done < tj)) = [] →
            (d'.owner p id).anchor = o.anchor ∧ f.state = (if j < e + 3 then .fill else .missing))
        ∧ (∀ a us, (o.stored (fieldUnit o.profile o.fmtIn o.fmtOut)).filter (fun u => decide (u.done < tj)) = a :: us →
            (d'.owner p id).anchor = some (a.n, a.field, a.cnt, a.done)
            ∧ (e + 3 ≤ j → holdOver' o.hold (d'.owner p id).reps = false → f.state = .computed)
            ∧ (e + 3 ≤ j → holdOver' o.hold (d'.owner p id).reps = true → f.state = .missing)))
      ∧ (d'.owner p id).startDue = false ∧ (d'.owner p id).e = e ∧ (∀ k, k ≠ id → d'.owner p k = d.owner p k)
      ∧ d'.plane p.other = d.plane p.other ∧ Keeps [.planes, .startQ] [] d d')
  ∧ (∀ (s : State) (t id j : Nat) (p : Plane) (d : Dev), d = (s.on t).landDue → id < 4096 →
      (isConv id = false ∨ (d.owner p id).isOpen = false ∨ d.inService p = false ∨ d.tim.running = false
        ∨ d.epoch < frameStart (fmtRate (d.owner p id).fmtOut) j
        ∨ frameStart (fmtRate (d.owner p id).fmtOut) j < (d.owner p id).openAt
        ∨ frameStart (fmtRate (d.owner p id).fmtOut) (j + 1) ≤ d.epoch) →
      Runs (.pacingInstant t p id j) s fun d' => d' = d)
  ∧ (∀ (s : State) (t id : Nat) (p : Plane) (o : Owner) (d : Dev), d = (s.on t).landDue → id < 4096 → isConv id = false →
      o = d.owner p id → o.closing = true → o.closeAt ≤ d.epoch →
      (d.pool p).pages + (o.owned + o.reserved - o.credit.pages) < 2 ^ 32 →
      (d.pool p).tokens + (o.tokens - o.credit.tokens) < 2 ^ 16 →
      Runs (.resourceReturn t p id) s fun d' =>
        d'.owner p id = {} ∧ (d'.pool p).pages = (d.pool p).pages + (o.owned + o.reserved - o.credit.pages)
        ∧ (d'.pool p).tokens = (d.pool p).tokens + (o.tokens - o.credit.tokens) ∧ (d'.pool p).units = (d.pool p).units
        ∧ (∀ k, k ≠ id → d'.owner p k = d.owner p k) ∧ d'.plane p.other = d.plane p.other
        ∧ Keeps [.planes] poolRegs d d')
  ∧ (∀ (s : State) (t id : Nat) (p : Plane) (o : Owner) (d : Dev), d = (s.on t).landDue → id < 4096 → isConv id = true →
      o = d.owner p id → o.closing = true → o.closeAt ≤ d.epoch →
      (d.pool p).pages + (o.owned + o.reserved - o.credit.pages) < 2 ^ 32 →
      (d.pool p).tokens + (o.tokens - o.credit.tokens) < 2 ^ 16 →
      (d.pool p).units + (d.unitsOf p id - o.credit.units) < 128 →
      Runs (.resourceReturn t p id) s fun d' =>
        d'.owner p id = {} ∧ (d'.pool p).pages = (d.pool p).pages + (o.owned + o.reserved - o.credit.pages)
        ∧ (d'.pool p).tokens = (d.pool p).tokens + (o.tokens - o.credit.tokens)
        ∧ (d'.pool p).units = (d.pool p).units + (d.unitsOf p id - o.credit.units)
        ∧ (∀ i, i ∈ o.engines → id ∉ (d'.engine p i).loads)
        ∧ (∀ k, k ≠ id → d'.owner p k = d.owner p k) ∧ d'.plane p.other = d.plane p.other
        ∧ Keeps [.planes, .startQ] poolRegs d d')
  ∧ (∀ (s : State) (t id : Nat) (p : Plane) (d : Dev), d = (s.on t).landDue → id < 4096 →
      (d.owner p id).closing = false ∨ d.epoch < (d.owner p id).closeAt →
      Runs (.resourceReturn t p id) s fun d' => d' = d)
/-! ### Events, causes and folds (chapter 12) -/

/-- Events (R406, R410 to R412, R416, R421, R423): a source's waiting record is written to the ring its group is routed
to, once 1 ms has passed since its last, and not before; one that finds no room there leaves its source's pending bit and is
counted; the end of a gather folds the record under the cause that
covered it, on both ports, or leaves it due to both. What a Squall covers is the model's reading (log 14). -/
def Obligations.EventRecords : Prop :=
  (∀ (s : State) (t src e : Nat) (p : Port) (w : EvWait) (rest : List EvWait) (d : Dev), d = s.on t →
    Writes d p src e w rest → d.evRoom p (.evr e) = true → (d.rr p (.evr e)).lost = 0 → (d.rr p (.evr e)).pend = [] →
    Runs (.rateLimitExpiry t src) s fun d' =>
      d'.evSrc src = { last := some d.now, wait := rest }
      ∧ Emission.hostWrite p (d.recBase p (.evr e) + d.rd F.HIF_EVR_STATUS_pi (32 * p.id + e) % d.recSize p (.evr e) * 32)
          (withPhase (.evr e) (d.rd F.HIF_EVR_STATUS_phase (32 * p.id + e))
            (evRecord src w.code (if w.merged then 4 else 0) w.time (d.recordId p src) w.cnt w.a0 w.a1)) ∈ d'.emitted
      ∧ d'.rd F.HIF_EVR_STATUS_pi (32 * p.id + e) = (d.rd F.HIF_EVR_STATUS_pi (32 * p.id + e) + 1) % 65536
      ∧ d'.rd F.HIF_EV_WRITTEN_written p.id = satAdd F.HIF_EV_WRITTEN_written.width (d.rd F.HIF_EV_WRITTEN_written p.id) 1
      ∧ (∀ k, k ≠ src → d'.evSrc k = d.evSrc k) ∧ d'.ev.causes = d.ev.causes
      ∧ KeepsOthers .HIF_EVR_STATUS (32 * p.id + e) d d' ∧ KeepsOthers .HIF_EV_WRITTEN p.id d d'
      ∧ Keeps evAreas [.HIF_EVR_STATUS, .HIF_EV_WRITTEN] d d')
  ∧ (∀ (s : State) (t src e : Nat) (p : Port) (w : EvWait) (rest : List EvWait) (d : Dev), d = s.on t →
      Writes d p src e w rest → d.evRoom p (.evr e) = false →
      Runs (.rateLimitExpiry t src) s fun d' =>
        d'.evSrc src = { last := some d.now, wait := rest }
        ∧ d'.rr p (.evr e) = { d.rr p (.evr e) with
            lost := (d.rr p (.evr e)).lost + 1, pend := setInsert src (d.rr p (.evr e)).pend }
        ∧ d'.rd F.HIF_EV_LOST_lost p.id = satAdd F.HIF_EV_LOST_lost.width (d.rd F.HIF_EV_LOST_lost p.id) 1
        ∧ d'.emitted = d.emitted ∧ OtherRecs p (.evr e) d d' ∧ KeepsOthers .HIF_EV_LOST p.id d d'
        ∧ Keeps [.ev, .recs, .ldr] [.HIF_EV_LOST] d d')
  ∧ (∀ (s : State) (t src l : Nat), src < 6711 → ((s.on t).evSrc src).last = some l → (s.on t).now < l + msU →
      OnlyTime (.rateLimitExpiry t src) s t)
  ∧ (∀ (s : State) (t src e : Nat) (w : EvWait) (k : Cause) (d : Dev), d = s.on t → src < 6711 → (d.evSrc src).wait = [w] →
      w.gatherEnd = some e → e ≤ d.now → d.ev.causes = [k] → k.src ∈ w.covers →
      (∀ p : Port, d.routes p k.src = true ∧ d.flag F.HIF_EV_CTRL_fold_en p.id = true) →
      Runs (.gatherExpiry t src) s fun d' =>
        d'.evSrc src = { d.evSrc src with wait := [] }
        ∧ d'.ev.causes = [{ k with
            maps := ⟨setInsert src k.maps.a, setInsert src k.maps.b⟩
            folded := ⟨k.folded.a + w.occ, k.folded.b + w.occ⟩
            dirty := ⟨k.dirty.a || !k.maps.a.contains src, k.dirty.b || !k.maps.b.contains src⟩ }]
        ∧ (∀ p : Port, d'.rd F.HIF_EV_FOLDED_folded p.id
            = satAdd F.HIF_EV_FOLDED_folded.width (d.rd F.HIF_EV_FOLDED_folded p.id) w.occ)
        ∧ (∀ j, j ≠ src → d'.evSrc j = d.evSrc j) ∧ Keeps [.ev] [.HIF_EV_FOLDED] d d')
  ∧ (∀ (s : State) (t src e l : Nat) (w : EvWait) (d : Dev), d = s.on t → src < 6711 → (d.evSrc src).wait = [w] →
      w.gatherEnd = some e → e ≤ d.now → w.covers = [] → (d.evSrc src).last = some l → d.now < l + msU →
      Runs (.gatherExpiry t src) s fun d' =>
        d'.evSrc src = { d.evSrc src with wait := [{ w with gatherEnd := none, due := ⟨true, true⟩ }] }
        ∧ d'.ev.causes = d.ev.causes ∧ (∀ j, j ≠ src → d'.evSrc j = d.evSrc j) ∧ Keeps [.ev] [] d d')

/-- Causes (R413, R415, R417, R419, R420): two seconds after its condition ended a cause is cleared, the Squall one second
after its last uncovered occurrence, and not before; the other causes stay; a changed fold slot is written whole
with the next generation, and again at its next rewrite where the write fails (R419). What a Squall covers is the model's reading (log 14). -/
def Obligations.CausesEnd : Prop :=
  (∀ (s : State) (t src : Nat) (k : Cause) (d : Dev), d = s.on t → src < 6711 → src ≠ evSquall → k ∈ d.ev.causes → k.src = src →
    k.active = true → k.cond = false → k.endAt + 2 * secU ≤ d.now →
    Runs (.causeSettleExpiry t src) s fun d' =>
      (∀ x, x ∈ d'.ev.causes → x.src = src → x.active = false)
      ∧ (∀ x, x ∈ d.ev.causes → x.src ≠ src → x ∈ d'.ev.causes)
      ∧ d'.ev.causes.map (·.id) = d.ev.causes.map (·.id) ∧ Keeps evAreas evRegs d d')
  ∧ (∀ (s : State) (t src : Nat) (d : Dev), d = s.on t → src < 6711 →
      (∀ k, k ∈ d.ev.causes → k.src = src → k.active = true → k.cond = false → d.now < k.endAt + 2 * secU) →
      OnlyTime (.causeSettleExpiry t src) s t)
  ∧ (∀ (s : State) (t : Nat) (k : Cause) (d : Dev), d = s.on t → k ∈ d.ev.causes → k.src = evSquall → k.active = true →
      d.ev.squallLast + secU ≤ d.now →
      Runs (.squallEnd t) s fun d' =>
        (∀ x, x ∈ d'.ev.causes → x.src = evSquall → x.active = false)
        ∧ (∀ x, x ∈ d.ev.causes → x.src ≠ evSquall → x ∈ d'.ev.causes) ∧ Keeps evAreas evRegs d d')
  ∧ (∀ (s : State) (t : Nat), (s.on t).now < (s.on t).ev.squallLast + secU → OnlyTime (.squallEnd t) s t)
  ∧ (∀ (s : State) (t q gen : Nat) (p : Port) (k : Cause) (d : Dev), d = s.on t → foldSlotOk q = true →
      (d.ev.causes.find? fun x => x.active && mapSlot x.src == some q && x.dirty.po p) = some k →
      k.slotAt.po p + 10 * msU ≤ d.now → d.taskRuns 3 = true → d.routes p k.src = true → d.foldBase p ≠ 0 → d.lost p = false →
      gen = (Tbl.get 0 (d.port p).slotGen q + 1) % 2 ^ 32 →
      Runs (.foldSlotRewrite t p q true) s fun d' =>
        d'.emitted = Emission.hostWrite p (d.foldBase p + 1024 * q)
            (foldSlot gen k.id (b2n k.active + 4 * b2n (decide (8 < k.codes.length))) (k.folded.po p) (k.codes.take 8)
              (k.maps.po p)) :: d.emitted
        ∧ Tbl.get 0 (d'.port p).slotGen q = gen ∧ d'.port p.other = d.port p.other
        ∧ (∀ x, x ∈ d'.ev.causes → x.src = k.src → x.dirty.po p = false ∧ x.slotAt.po p = d.now)
        ∧ Keeps [.ev, .ports, .emitted] [] d d')
  ∧ (∀ (s : State) (t q : Nat) (p : Port) (k : Cause) (d : Dev), d = s.on t → foldSlotOk q = true →
      (d.ev.causes.find? fun x => x.active && mapSlot x.src == some q && x.dirty.po p) = some k →
      k.slotAt.po p + 10 * msU ≤ d.now → d.taskRuns 3 = true → d.routes p k.src = true → d.foldBase p ≠ 0 → d.lost p = false →
      Runs (.foldSlotRewrite t p q false) s fun d' =>
        d'.flag F.HIF_ERR_fold_err p.id = true ∧ d'.ev.causes.map (·.id) = d.ev.causes.map (·.id)
        ∧ (∀ x, x ∈ d'.ev.causes → x.src = k.src → x.dirty.po p = true ∧ x.slotAt.po p = d.now)
        ∧ d'.port p.other = d.port p.other ∧ KeepsOthers .HIF_ERR p.id d d' ∧ Keeps [.ev, .ports] [.HIF_ERR] d d')
/-! ### Clocks (chapter 13) -/

/-- The XA monitor (R41, R429, R430, R435): the start delay's end starts the monitor and both epoch counters from 0,
and the follower follows (R85, log 21); a monitor that has passed for 1 ms, or after a failure for the start delay, makes XA usable
and moves start-up on; a missing edge or a count more than 15 % off fails XA: the locked lane synthesizers that run on XA coast, and
without a lane-fit XB the safe state is entered.

XB (R431, R432, R433, R435): a passing window counts towards four, the fourth qualifies XB, makes it lane-fit within 30 ppm
and moves both control values by its offset; one outside the tolerance starts again. Of a qualified XB an edge gap, or two windows
outside the tolerance, disqualify it, or show XA to be at fault where a locked reference says so. -/
def Obligations.CrystalMonitors : Prop :=
  (∀ (s : State) (t : Nat) (d : Dev), d = s.on t → d.start.booted = true → d.clk.xaMon = false →
    d.start.t0 + xaDelayMs (d.rd F.GLB_START_xadly) * msU ≤ d.now →
    Runs (.xaStartDelayExpiry t) s fun d' =>
      d'.clk.xaMon = true ∧ d'.clk.xaFrom = d.now ∧ d'.tim.running = true ∧ (d'.tb .a).epoch = 0 ∧ (d'.tb .b).epoch = 0
      ∧ d'.lead = d.lead ∧ d'.tbState d.lead = d.tbState d.lead
      ∧ d'.tbState d.lead.other = (if d.tbState d.lead.other = 0 then 5 else d.tbState d.lead.other)
      ∧ Keeps (.clk :: .tim :: evAreas) (.TB_STATUS :: .CLK_STATUS :: evRegs) d d')
  ∧ (∀ (s : State) (t : Nat) (d : Dev), d = s.on t → d.start.booted = false ∨ d.clk.xaMon = true
        ∨ d.now < d.start.t0 + xaDelayMs (d.rd F.GLB_START_xadly) * msU →
      OnlyTime (.xaStartDelayExpiry t) s t)
  ∧ (∀ (s : State) (t : Nat) (d : Dev), d = s.on t → d.clk.xaMon = true → d.xaOk = false → d.flag F.CLK_STATUS_safe = false →
      d.clk.xaFrom + (if d.clk.xaFailed then xaDelayMs (d.rd F.GLB_START_xadly) else 1) * msU ≤ d.now →
      Runs (.xaUsable t) s fun d' =>
        d'.reg .CLK_STATUS 0 = F.CLK_STATUS_xa_usable.put (d.reg .CLK_STATUS 0) 1 ∧ d'.xaOk = true
        ∧ d'.rd F.GLB_START_phase = (if d.rd F.GLB_START_phase = 1 then 2 else d.rd F.GLB_START_phase)
        ∧ d'.clk.xaFailed = false ∧ d'.clk.xbWinAt = d.now ∧ Keeps (.clk :: evAreas) (.CLK_STATUS :: .GLB_START :: evRegs) d d')
  ∧ (∀ (s : State) (t : Nat) (d : Dev), d = s.on t → d.clk.xaMon = false ∨ d.xaOk = true
        ∨ d.now < d.clk.xaFrom + (if d.clk.xaFailed then xaDelayMs (d.rd F.GLB_START_xadly) else 1) * msU →
      OnlyTime (.xaUsable t) s t)
  ∧ (∀ (s : State) (t : Nat) (d : Dev), d = s.on t → d.clk.xaMon = true → d.clk.xaFailed = false →
      Runs (.xaEdgeTimeout t) s fun d' => XaFails d d')
  ∧ (∀ (s : State) (t count : Nat) (d : Dev), d = s.on t → d.clk.xaMon = true → d.clk.xaFailed = false →
      15 * 512 < 100 * ((count : Int) - 512).natAbs →
      Runs (.xaCountCheck t count) s fun d' => XaFails d d')
  ∧ (∀ (s : State) (t : Nat) (d : Dev), d = s.on t → d.clk.xaMon = false ∨ d.clk.xaFailed = true →
      Runs (.xaEdgeTimeout t) s fun d' => d'.clk = { d.clk with xaFrom := d.now } ∧ Keeps [.clk] [] d d')
  ∧ (∀ (s : State) (t count : Nat), 100 * ((count : Int) - 512).natAbs ≤ 15 * 512 → OnlyTime (.xaCountCheck t count) s t)
  ∧ (∀ (s : State) (t b x : Nat) (off xaOff xbOff : Int) (d : Dev), d = s.on t → Measures d b x → d.xbOk = false →
      off.natAbs ≤ d.xbTol → d.rd F.CLK_XB_STATUS_passed < 3 →
      Runs (.xbWindow t off false xaOff xbOff) s fun d' =>
        Shows d d' b x off (d.rd F.CLK_XB_STATUS_passed + 1) ∧ Keeps [.clk] [.CLK_XB_STATUS] d d')
  ∧ (∀ (s : State) (t b x : Nat) (off xaOff xbOff : Int) (d : Dev), d = s.on t → Measures d b x → d.xbOk = false →
      off.natAbs ≤ d.xbTol → 3 ≤ d.rd F.CLK_XB_STATUS_passed → d.flag F.CLK_STATUS_safe = false → d.xbFit = false →
      Runs (.xbWindow t off false xaOff xbOff) s fun d' =>
        Shows d d' b x off 4 ∧ d'.xbOk = true ∧ d'.xbFit = decide (off.natAbs ≤ 30000) ∧ d'.clk.xbOffset = off
        ∧ (∀ p, (d'.tb p).ctl = (d.tb p).ctl - 1000000 * off ∧ (d'.tb p).epoch = (d.tb p).epoch)
        ∧ Keeps (.clk :: .tim :: evAreas) (.CLK_XB_STATUS :: .CLK_STATUS :: evRegs) d d')
  ∧ (∀ (s : State) (t b x : Nat) (off xaOff xbOff : Int) (gap : Bool) (d : Dev), d = s.on t → Measures d b x →
      d.xbOk = false → gap = true ∨ d.xbTol < off.natAbs →
      Runs (.xbWindow t off gap xaOff xbOff) s fun d' =>
        Shows d d' b x off 0 ∧ d'.xbOk = false ∧ Keeps [.clk] [.CLK_XB_STATUS] d d')
  ∧ (∀ (s : State) (t : Nat) (off xaOff xbOff : Int) (gap : Bool) (d : Dev), d = s.on t →
      d.clk.xbWinAt + 100 * msU ≤ d.now → d.flag F.CLK_XB_CFG_fitted = false ∨ d.xbBasis.1 = 0 →
      Runs (.xbWindow t off gap xaOff xbOff) s fun d' =>
        d'.rd F.CLK_XB_STATUS_passed = d.rd F.CLK_XB_STATUS_passed ∧ d'.rd F.CLK_XB_STATUS_basis = d.xbBasis.1
        ∧ d'.clk = { d.clk with xbWinAt := d.now } ∧ Keeps [.clk] [.CLK_XB_STATUS] d d')
  ∧ (∀ (s : State) (t b x : Nat) (off xaOff xbOff : Int) (d : Dev), d = s.on t → Measures d b x → d.xbOk = true →
      d.flag F.CLK_STATUS_safe = false → off.natAbs ≤ d.xbTol → off.natAbs ≤ 30000 ∨ d.xbFit = false →
      Runs (.xbWindow t off false xaOff xbOff) s fun d' =>
        d'.xbOk = true ∧ d'.xbFit = decide (off.natAbs ≤ 30000) ∧ d'.clk.xbOffset = off ∧ d'.clk.xbOut = 0
        ∧ (∀ p, d'.tb p = d.tb p) ∧ Keeps [.clk] [.CLK_XB_STATUS, .CLK_STATUS] d d')
  ∧ (∀ (s : State) (t b x : Nat) (off xaOff xbOff : Int) (d : Dev), d = s.on t → Measures d b x → d.xbOk = true →
      d.xbTol < off.natAbs → d.clk.xbOut = 0 →
      Runs (.xbWindow t off false xaOff xbOff) s fun d' =>
        Shows d d' b x off 0 ∧ d'.xbOk = true ∧ d'.clk.xbOut = 1 ∧ Keeps [.clk] [.CLK_XB_STATUS] d d')
  ∧ (∀ (s : State) (t b x : Nat) (off xaOff xbOff : Int) (gap judged : Bool) (d : Dev), d = s.on t → Measures d b x →
      d.xbOk = true →
      judged = (d.tbState d.lead == 2 && decide (d.rd F.TB_STATUS_sel < 5) && d.qualified (d.rd F.TB_STATUS_sel)) →
      gap = true ∨ d.xbTol < off.natAbs ∧ 1 ≤ d.clk.xbOut →
      Runs (.xbWindow t off gap xaOff xbOff) s fun d' =>
        (gap = true ∨ judged = false ∨ d.xbTol < xbOff.natAbs → d'.xbOk = false ∧ d'.flag F.CLK_ERR_xb_disq = true)
        ∧ (gap = true ∨ judged = false → XbOut d d')
        ∧ (gap = false → judged = true → d.xbTol < xaOff.natAbs → d.clk.xaMon = true → d.clk.xaFailed = false →
            d'.xaOk = false ∧ d'.clk.xaFailed = true ∧ d'.flag F.CLK_ERR_xa_fail = true)
        ∧ (gap = false → judged = true → xaOff.natAbs ≤ d.xbTol → xbOff.natAbs ≤ d.xbTol →
            d'.xbOk = true ∧ d'.xaOk = d.xaOk ∧ Keeps [.clk] [.CLK_XB_STATUS] d d'))
  ∧ (∀ (s : State) (t : Nat) (off xaOff xbOff : Int) (gap : Bool), (s.on t).now < (s.on t).clk.xbWinAt + 100 * msU →
      OnlyTime (.xbWindow t off gap xaOff xbOff) s t)
  ∧ (∀ (s : State) (t : Nat) (d : Dev), d = s.on t → d.xbOk = true → Runs (.xbEdgeGap t) s fun d' => XbOut d d')
  ∧ (∀ (s : State) (t : Nat), (s.on t).xbOk = false → OnlyTime (.xbEdgeGap t) s t)

/-- Lane synthesizers (R296, R303, R434, R435, R436, R446): a coasting one relocks, to its own source after a loss of lock, to
XA where the return to it is due or XB is not fit, else to XB; a lost lock coasts; a relock that does not come in 50 ms
fails the synthesizer, faults its plane, moves OM, SYN4 and SYN5 off LS-A, loses a port that needs it, and with the other failed too
is trigger 3; the return to XA is taken while XA is usable, else ignored and flagged. -/
def Obligations.LaneSynthesizers : Prop :=
  (∀ (s : State) (t : Nat) (ls : Plane) (xb : Bool) (d : Dev), d = s.on t → d.lsState ls = 2 →
    (if xb then d.xbFit else d.xaOk) = true →
    (d.clk.lsLockLost.pl ls = true ∧ xb = d.lsOnXb ls
      ∨ d.clk.lsLockLost.pl ls = false ∧ xb = false ∧ (d.clk.lsReturn.pl ls = true ∨ d.xbFit = false ∨ d.lsOnXb ls = false)
      ∨ d.clk.lsLockLost.pl ls = false ∧ xb = true
        ∧ (d.xaOk = false ∨ d.clk.lsReturn.pl ls = false ∧ d.lsOnXb ls = true)) →
    Runs (.lsRelock t ls) s fun d' =>
      d'.lsState ls = 1 ∧ d'.lsOnXb ls = xb ∧ d'.clk.lsReturn.pl ls = false ∧ d'.clk.lsLockLost.pl ls = false
      ∧ d'.lsState ls.other = d.lsState ls.other ∧ d'.lsOnXb ls.other = d.lsOnXb ls.other
      ∧ Keeps (.clk :: evAreas) (.CLK_STATUS :: evRegs) d d')
  ∧ (∀ (s : State) (t : Nat) (ls : Plane) (d : Dev), d = s.on t → d.lsState ls ≠ 2 ∨ d.anyFit = false →
      OnlyTime (.lsRelock t ls) s t)
  ∧ (∀ (s : State) (t : Nat) (ls : Plane) (d : Dev), d = s.on t → d.lsState ls = 1 →
      Runs (.lsLockLost t ls) s fun d' =>
        d'.lsState ls = 2 ∧ d'.clk.lsLockLost.pl ls = true ∧ d'.clk.lsCoastAt.pl ls = d.now ∧ d'.flag F.CLK_ERR_ls_coast = true
        ∧ d'.lsState ls.other = d.lsState ls.other ∧ Keeps (.clk :: evAreas) (.CLK_STATUS :: .CLK_ERR :: evRegs) d d')
  ∧ (∀ (s : State) (t : Nat) (ls : Plane), (s.on t).lsState ls ≠ 1 → OnlyTime (.lsLockLost t ls) s t)
  ∧ (∀ (s : State) (t : Nat) (ls : Plane) (d : Dev), d = s.on t → d.lsCoasted ls = true → d.clk.lsLockLost.pl ls = true →
      Runs (.lsRelockTimeout t ls) s fun d' =>
        d'.lsState ls = 3 ∧ d'.plState ls = 1 ∧ d'.rd F.PL_STATUS_cause ls.id = 7
        ∧ d'.clk.omRef = (if ls = .a ∨ d.lsState .a = 3 then .b else .a) ∧ d'.plState ls.other = d.plState ls.other
        ∧ d'.lsState ls.other = d.lsState ls.other
        ∧ (d.flag F.GLB_START_laneref = true → d'.lost (Port.ofId ls.id) = true)
        ∧ (d.lsState ls.other = 3 → d'.flag F.CLK_STATUS_safe = true ∧ d'.clk.triggers.contains 3 = true)
        ∧ (d.flag F.GLB_START_laneref = false → d.lsState ls.other ≠ 3 →
            Keeps (.tim :: faultAreas) faultRegs d d' ∧ d'.flag F.CLK_STATUS_safe = d.flag F.CLK_STATUS_safe))
  ∧ (∀ (s : State) (t : Nat) (ls : Plane), (s.on t).lsCoasted ls = false ∨ (s.on t).clk.lsLockLost.pl ls = false →
      OnlyTime (.lsRelockTimeout t ls) s t)
  ∧ (∀ (s : State) (t : Nat) (d : Dev), d = s.on t → d.xaOk = true →
      Runs (.lsToXa t) s fun d' =>
        (∀ p, d'.lsState p = if d.lsOnXb p = true ∧ d.lsState p = 1 then 2 else d.lsState p)
        ∧ (∀ p, d'.clk.lsReturn.pl p = (d.clk.lsReturn.pl p || (d.lsOnXb p && decide (d.lsState p = 1))))
        ∧ Keeps (.clk :: evAreas) (.CLK_STATUS :: .CLK_ERR :: evRegs) d d')
  ∧ (∀ (s : State) (t : Nat) (d : Dev), d = s.on t → d.xaOk = false →
      Runs (.lsToXa t) s fun d' =>
        d'.reg .CLK_ERR 0 = F.CLK_ERR_ls_to_xa_ignored.put (d.reg .CLK_ERR 0) 1 ∧ Keeps [] [.CLK_ERR] d d')

/-- The clock safe state (R446, R447, R448): a trigger whose condition stands enters it; a further trigger is only counted; a
lane synthesizer that has coasted for 50 ms with no fit source is trigger 2; XA becoming usable ends it unless another trigger
stands: the lane synthesizers relock to XA, both timebases take their next update as a phase step, the lanes' timers have stood
still, and the lock pins are driven again. -/
def Obligations.SafeState : Prop :=
  (∀ (s : State) (t code : Nat) (d : Dev), d = s.on t → 1 ≤ code → code ≤ 4 → d.triggerStands code = true →
    d.flag F.CLK_STATUS_safe = false →
    Runs (.safeStateTrigger t code) s fun d' => EntersSafe d d' code)
  ∧ (∀ (s : State) (t code : Nat) (d : Dev), d = s.on t → 1 ≤ code → code ≤ 4 → d.triggerStands code = true →
      d.flag F.CLK_STATUS_safe = true →
      Runs (.safeStateTrigger t code) s fun d' => CountsTrigger d d' code)
  ∧ (∀ (s : State) (t code : Nat), 1 ≤ code → code ≤ 4 → (s.on t).triggerStands code = false →
      OnlyTime (.safeStateTrigger t code) s t)
  ∧ (∀ (s : State) (t : Nat) (ls : Plane) (d : Dev), d = s.on t → d.lsState ls = 2 →
      d.clk.lsCoastAt.pl ls + 50 * msU ≤ d.now → d.anyFit = false → d.flag F.CLK_STATUS_safe = false →
      Runs (.lsCoastExpiry t ls) s fun d' => EntersSafe d d' 2 ∧ d'.lsState ls = 2)
  ∧ (∀ (s : State) (t : Nat) (ls : Plane) (d : Dev), d = s.on t → d.lsCoasted ls = true → d.anyFit = false →
      d.flag F.CLK_STATUS_safe = true →
      Runs (.lsCoastExpiry t ls) s fun d' => CountsTrigger d d' 2)
  ∧ (∀ (s : State) (t : Nat) (ls : Plane), (s.on t).anyFit = true ∨ (s.on t).lsCoasted ls = false →
      OnlyTime (.lsCoastExpiry t ls) s t)
  ∧ (∀ (s : State) (t : Nat) (d : Dev), d = s.on t → d.clk.xaMon = true → d.xaOk = false → d.flag F.CLK_STATUS_safe = true →
      d.clk.xaFrom + (if d.clk.xaFailed then xaDelayMs (d.rd F.GLB_START_xadly) else 1) * msU ≤ d.now →
      (∀ c, c ∈ d.clk.triggers → 1 ≤ c ∧ c ≤ 3) →
      Runs (.xaUsable t) s fun d' =>
        d'.flag F.CLK_STATUS_safe = false ∧ d'.xaOk = true ∧ d'.clk.triggers = []
        ∧ (∀ p, d.lsState p ≠ 0 → d'.lsState p = 1 ∧ d'.lsOnXb p = false)
        ∧ (∀ p, (d'.tb p).stepNext = true ∧ (d'.tb p).epoch = (d.tb p).epoch)
        ∧ (∀ n, n < 384 → 2 ≤ d.lnState n → d.lnState n ≤ 6 → d.flag F.LN_CTRL_enable n = true →
            d'.lnState n = d.lnState n ∧ (d'.lane n).since = (d.lane n).since + (d.now - d.clk.safeAt)
            ∧ (d.flag F.LN_STATUS_tx_idle n = false → Emission.lane n .zephyr ∈ d'.emitted))
        ∧ Emission.lockPins false ∈ d'.emitted
        ∧ Keeps (.clk :: .tim :: .lanes :: .ins :: evAreas)
            (.CLK_STATUS :: .GLB_START :: .LN_STATUS :: .LN_BRZ_STATUS :: evRegs) d d')
  ∧ (∀ (s : State) (t : Nat) (d : Dev), d = s.on t → d.clk.xaMon = true → d.xaOk = false → d.flag F.CLK_STATUS_safe = true →
      d.clk.xaFrom + (if d.clk.xaFailed then xaDelayMs (d.rd F.GLB_START_xadly) else 1) * msU ≤ d.now →
      4 ∈ d.clk.triggers →
      Runs (.xaUsable t) s fun d' =>
        d'.flag F.CLK_STATUS_safe = true ∧ d'.xaOk = true ∧ 4 ∈ d'.clk.triggers ∧ (∀ p, d'.lsState p = d.lsState p)
        ∧ Keeps (.clk :: evAreas) (.CLK_STATUS :: .GLB_START :: evRegs) d d')

/-- Octet delay lines (R437, Table 3-5): a lock, with the octet's gate open and its reference running, shows in the octet and
in the CLK block and lets enabled OFF pairs go to DETECT, and awake pairs send a Zephyr burst; a lost lock clears both and sends the
octet's ACTIVE pairs into ingress recovery, their egress idle.

Synthesizer lock (R440, R441, R296): a lock restarts the dither from its seed; a lost lock coasts; a relock that
does not come in 10 ms fails the synthesizer, faults the plane of SYN0 to SYN3, and lets SYN5 stand in for SYN4. -/
def Obligations.LocksOfDelayLinesAndSynthesizers : Prop :=
  (∀ (s : State) (t k : Nat) (d : Dev), d = s.on t → k < 48 → d.flag F.LN_OCT_STATUS_om_lock k = false →
    d.octGateOpen k = true → d.flag F.CLK_STATUS_safe = false → d.lsState d.clk.omRef ≠ 0 → d.lsState d.clk.omRef ≠ 3 →
    Runs (.omLock t k) s fun d' =>
      d'.flag F.LN_OCT_STATUS_om_lock k = true
      ∧ (if k < 32 then d'.bitAt F.CLK_OM_LOCK_LO_om_lock k else d'.bitAt F.CLK_OM_LOCK_HI_om_lock (k - 32)) = true
      ∧ (∀ n, n / 8 = k → d'.lnState n = if d.lnState n = 0 ∧ d.flag F.LN_CTRL_enable n = true then 1 else d.lnState n)
      ∧ (∀ n, n / 8 = k → 2 ≤ d.lnState n → d.lnState n ≤ 6 → d.flag F.LN_STATUS_tx_idle n = false →
          Emission.lane n .zephyr ∈ d'.emitted)
      ∧ (∀ n, n < 384 → n / 8 ≠ k → d'.lane n = d.lane n ∧ d'.reg .LN_STATUS n = d.reg .LN_STATUS n)
      ∧ KeepsOthers .LN_OCT_STATUS k d d'
      ∧ Keeps (.lanes :: evAreas)
          (.LN_OCT_STATUS :: .CLK_OM_LOCK_LO :: .CLK_OM_LOCK_HI :: .LN_STATUS :: .LN_BRZ_STATUS :: evRegs) d d')
  ∧ (∀ (s : State) (t k : Nat) (d : Dev), d = s.on t → k < 48 → d.flag F.LN_OCT_STATUS_om_lock k = true
        ∨ d.octGateOpen k = false ∨ d.flag F.CLK_STATUS_safe = true ∨ d.lsState d.clk.omRef = 0 ∨ d.lsState d.clk.omRef = 3 →
      OnlyTime (.omLock t k) s t)
  ∧ (∀ (s : State) (t k : Nat) (d : Dev), d = s.on t → k < 48 → d.flag F.LN_OCT_STATUS_om_lock k = true →
      Runs (.omLockLost t k) s fun d' =>
        d'.flag F.LN_OCT_STATUS_om_lock k = false
        ∧ (if k < 32 then d'.bitAt F.CLK_OM_LOCK_LO_om_lock k else d'.bitAt F.CLK_OM_LOCK_HI_om_lock (k - 32)) = false
        ∧ (∀ n, n / 8 = k → d'.lnState n = d.lnState n
            ∧ d'.flag F.LN_STATUS_rx_recover n = (d.flag F.LN_STATUS_rx_recover n || decide (d.lnState n = 6))
            ∧ (d.lnState n ≠ 0 → Emission.lane n .idle ∈ d'.emitted))
        ∧ (∀ n, n < 384 → n / 8 ≠ k → d'.lane n = d.lane n ∧ d'.reg .LN_STATUS n = d.reg .LN_STATUS n)
        ∧ KeepsOthers .LN_OCT_STATUS k d d'
        ∧ Keeps (.lanes :: evAreas)
            (.LN_OCT_STATUS :: .CLK_OM_LOCK_LO :: .CLK_OM_LOCK_HI :: .LN_STATUS :: .LN_ERR :: .LN_COMMA :: evRegs) d d')
  ∧ (∀ (s : State) (t k : Nat), k < 48 → (s.on t).flag F.LN_OCT_STATUS_om_lock k = false → OnlyTime (.omLockLost t k) s t)
  ∧ (∀ (s : State) (t m : Nat) (d : Dev), d = s.on t → m < 6 → d.bitAt F.CLK_STATUS_syn_lock m = false → d.synRuns m = true →
    Runs (.synLock t m) s fun d' =>
      d'.bitAt F.CLK_STATUS_syn_lock m = true ∧ d'.bitAt F.CLK_STATUS_syn_failed m = false
      ∧ d'.bitAt F.CLK_STATUS_syn_coast m = d.synFrozen m
      ∧ Tbl.get 0 d'.clk.lfsr m = max 1 (d.rd F.CLK_SYN_DITHER_seed m)
      ∧ (∀ j, j < 6 → j ≠ m → d'.bitAt F.CLK_STATUS_syn_lock j = d.bitAt F.CLK_STATUS_syn_lock j
          ∧ d'.bitAt F.CLK_STATUS_syn_failed j = d.bitAt F.CLK_STATUS_syn_failed j)
      ∧ Keeps (.clk :: evAreas) (.CLK_STATUS :: evRegs) d d')
  ∧ (∀ (s : State) (t m : Nat), m < 6 → (s.on t).bitAt F.CLK_STATUS_syn_lock m = true ∨ (s.on t).synRuns m = false →
      OnlyTime (.synLock t m) s t)
  ∧ (∀ (s : State) (t m : Nat) (d : Dev), d = s.on t → m < 6 → d.bitAt F.CLK_STATUS_syn_lock m = true →
      Runs (.synLockLost t m) s fun d' =>
        d'.reg .CLK_STATUS 0 = ((d.setBit F.CLK_STATUS_syn_lock m false).setBit F.CLK_STATUS_syn_coast m true).reg .CLK_STATUS 0
        ∧ d'.bitAt F.CLK_STATUS_syn_lock m = false ∧ d'.bitAt F.CLK_STATUS_syn_coast m = true
        ∧ Tbl.get 0 d'.clk.synLostAt m = d.now ∧ Keeps (.clk :: evAreas) (.CLK_STATUS :: evRegs) d d')
  ∧ (∀ (s : State) (t m : Nat), m < 6 → (s.on t).bitAt F.CLK_STATUS_syn_lock m = false → OnlyTime (.synLockLost t m) s t)
  ∧ (∀ (s : State) (t m : Nat) (d : Dev), d = s.on t → m < 4 → d.bitAt F.CLK_STATUS_syn_lock m = false →
      d.bitAt F.CLK_STATUS_syn_coast m = true → Tbl.get 0 d.clk.synLostAt m + 10 * msU ≤ d.now →
      Runs (.synRelockTimeout t m) s fun d' =>
        d'.bitAt F.CLK_STATUS_syn_failed m = true ∧ d'.bitAt F.CLK_STATUS_syn_coast m = false
        ∧ d'.plState (Plane.ofId (m / 2)) = 1 ∧ d'.rd F.PL_STATUS_cause (m / 2) = 6
        ∧ d'.plState (Plane.ofId (m / 2)).other = d.plState (Plane.ofId (m / 2)).other
        ∧ Keeps (.tim :: faultAreas) faultRegs d d')
  ∧ (∀ (s : State) (t : Nat) (d : Dev), d = s.on t → d.bitAt F.CLK_STATUS_syn_lock 4 = false →
      d.bitAt F.CLK_STATUS_syn_coast 4 = true → Tbl.get 0 d.clk.synLostAt 4 + 10 * msU ≤ d.now →
      Runs (.synRelockTimeout t 4) s fun d' =>
        d'.bitAt F.CLK_STATUS_syn_failed 4 = true ∧ d'.bitAt F.CLK_STATUS_syn_coast 4 = false
        ∧ d'.flag F.CLK_STATUS_syn4_on_syn5 = true ∧ d'.clk.syn5 = (18, 13662, 15625)
        ∧ Tbl.get 0 d'.clk.eps 5 = Tbl.get 0 d.clk.eps 4 ∧ d'.loopHz 5 = vcoHz (18, 13662, 15625)
        ∧ Keeps (.clk :: evAreas) (.CLK_STATUS :: evRegs) d d')
  ∧ (∀ (s : State) (t : Nat) (d : Dev), d = s.on t → d.bitAt F.CLK_STATUS_syn_lock 5 = false →
      d.bitAt F.CLK_STATUS_syn_coast 5 = true → Tbl.get 0 d.clk.synLostAt 5 + 10 * msU ≤ d.now →
      Runs (.synRelockTimeout t 5) s fun d' =>
        d'.bitAt F.CLK_STATUS_syn_failed 5 = true ∧ d'.bitAt F.CLK_STATUS_syn_coast 5 = false
        ∧ d'.flag F.CLK_STATUS_syn4_on_syn5 = d.flag F.CLK_STATUS_syn4_on_syn5 ∧ d'.clk.syn5 = d.clk.syn5
        ∧ Keeps (.clk :: evAreas) (.CLK_STATUS :: evRegs) d d')

/-- Synthesizer ratios (R438, R439, R442): each synthesizer that neither coasts nor has failed nor is frozen is
steered by its timebase's control value, held to 200 ppm; a ramp step of at most 0.5 % toward the target loses the lock, and at the
target the ramp ends; a lane synthesizer's ramp ends in its lock; SYN5's ratio is refused under the block's lock and where it is
invalid, else taken. -/
def Obligations.SynthesizerRatios : Prop :=
  (∀ (s : State) (t : Nat) (offA offB : Int) (d : Dev), d = s.on t →
    Runs (.synSteerUpdate t offA offB) s fun d' =>
      (∀ m, m < 6 → Tbl.get 0 d'.clk.eps m =
        if d.bitAt F.CLK_STATUS_syn_coast m || d.bitAt F.CLK_STATUS_syn_failed m || d.synFrozen m then Tbl.get 0 d.clk.eps m
        else max (-56294995342) (min 56294995342 ((d.tb (d.synSteer m)).ctl * 2 ^ 48 / 1000000000000000
          + (if d.synRef m = .a then offA else offB))))
      ∧ d'.clk = { d.clk with eps := d'.clk.eps, diag := d'.clk.diag } ∧ d'.clk.diag = d'.diagDrive
      ∧ Keeps [.clk, .emitted] [] d d')
  ∧ (∀ (s : State) (t m hz : Nat) (d : Dev), d = s.on t → m < 6 → d.gated m = true → d.synRuns m = true →
      d.bitAt F.CLK_STATUS_syn_lock m = true → d.loopHz m ≠ d.loopTarget m →
      rampStepOk (d.loopTarget m) (d.loopHz m) hz = true →
      Runs (.ratioRampStep t m hz) s fun d' =>
        d'.loopHz m = hz ∧ d'.gated m = true ∧ d'.bitAt F.CLK_STATUS_syn_lock m = false
        ∧ (∀ l, l ≠ m → d'.loopHz l = d.loopHz l) ∧ Keeps [.clk, .emitted] [.CLK_STATUS] d d')
  ∧ (∀ (s : State) (t m hz : Nat) (d : Dev), d = s.on t → m < 6 → d.gated m = true → d.synRuns m = true →
      d.bitAt F.CLK_STATUS_syn_lock m = true → d.loopHz m = d.loopTarget m →
      Runs (.ratioRampStep t m hz) s fun d' =>
        d'.clk.ramping = d.clk.ramping.filter (· != m) ∧ d'.gated m = false ∧ d'.clk.ratio = d.clk.ratio
        ∧ Keeps [.clk, .emitted] [] d d')
  ∧ (∀ (s : State) (t hz : Nat) (p : Plane) (d : Dev), d = s.on t → d.gated (6 + p.id) = true → d.lsState p = 0 →
      d.anyFit = true → d.loopHz (6 + p.id) ≠ d.loopTarget (6 + p.id) →
      rampStepOk (d.loopTarget (6 + p.id)) (d.loopHz (6 + p.id)) hz = true →
      Runs (.ratioRampStep t (6 + p.id) hz) s fun d' =>
        d'.loopHz (6 + p.id) = hz ∧ d'.lsState p = 0 ∧ d'.gated (6 + p.id) = true ∧ Keeps [.clk] [] d d')
  ∧ (∀ (s : State) (t hz : Nat) (p : Plane) (d : Dev), d = s.on t → d.gated (6 + p.id) = true → d.lsState p = 0 →
      d.anyFit = true → d.loopHz (6 + p.id) = d.loopTarget (6 + p.id) →
      Runs (.ratioRampStep t (6 + p.id) hz) s fun d' =>
        d'.lsState p = 1 ∧ d'.lsOnXb p = !d.xaOk ∧ d'.gated (6 + p.id) = false ∧ d'.lsState p.other = d.lsState p.other
        ∧ Keeps (.clk :: evAreas) (.CLK_STATUS :: evRegs) d d')
  ∧ (∀ (s : State) (t m hz : Nat) (d : Dev), d = s.on t → m < 8 →
      (d.gated m = false ∨ m < 6 ∧ d.bitAt F.CLK_STATUS_syn_lock m = false
        ∨ d.loopHz m ≠ d.loopTarget m ∧ rampStepOk (d.loopTarget m) (d.loopHz m) hz = false) →
      OnlyTime (.ratioRampStep t m hz) s t)
  ∧ (∀ (s : State) (t : Nat) (val : Word), (s.on t).flag F.CLK_CTRL_lock = true → OnlyTime (.syn5RatioWrite t val) s t)
  ∧ (∀ (s : State) (t : Nat) (val : Word) (d : Dev), d = s.on t → d.flag F.CLK_CTRL_lock = false →
      syn5Ok (F.CLK_SYN_N_n.get val, d.rd F.CLK_SYN_FRAC_f 5, d.rd F.CLK_SYN_MOD_m 5) = false →
      Runs (.syn5RatioWrite t val) s fun d' =>
        d'.flag F.CLK_ERR_syn5_invalid = true ∧ d'.reg .CLK_SYN_N 5 = d.reg .CLK_SYN_N 5 ∧ Keeps [] [.CLK_ERR] d d')
  ∧ (∀ (s : State) (t : Nat) (val : Word) (d : Dev), d = s.on t → d.flag F.CLK_CTRL_lock = false →
      syn5Ok (F.CLK_SYN_N_n.get val, d.rd F.CLK_SYN_FRAC_f 5, d.rd F.CLK_SYN_MOD_m 5) = true →
      d.flag F.CLK_STATUS_syn4_on_syn5 = false →
      Runs (.syn5RatioWrite t val) s fun d' =>
        d'.rd F.CLK_SYN_N_n 5 = F.CLK_SYN_N_n.get val
        ∧ d'.flag F.CLK_SYN_N_enable 5 = decide (F.CLK_SYN_N_enable.get val = 1)
        ∧ d'.clk.syn5 = (F.CLK_SYN_N_n.get val, d.rd F.CLK_SYN_FRAC_f 5, d.rd F.CLK_SYN_MOD_m 5)
        ∧ (d'.clk.syn5 ≠ d.clk.syn5 → d'.gated 5 = true)
        ∧ (F.CLK_SYN_N_enable.get val = 0 →
            d'.bitAt F.CLK_STATUS_syn_lock 5 = false ∧ d'.bitAt F.CLK_STATUS_syn_coast 5 = false)
        ∧ KeepsOthers .CLK_SYN_N 5 d d' ∧ Keeps [.clk, .emitted, .ldr] [.CLK_SYN_N, .CLK_STATUS] d d')
  ∧ (∀ (s : State) (t : Nat) (val : Word) (d : Dev), d = s.on t → d.flag F.CLK_CTRL_lock = false →
      syn5Ok (F.CLK_SYN_N_n.get val, d.rd F.CLK_SYN_FRAC_f 5, d.rd F.CLK_SYN_MOD_m 5) = true →
      d.flag F.CLK_STATUS_syn4_on_syn5 = true →
      Runs (.syn5RatioWrite t val) s fun d' =>
        d'.rd F.CLK_SYN_N_n 5 = F.CLK_SYN_N_n.get val ∧ d'.clk = d.clk ∧ KeepsOthers .CLK_SYN_N 5 d d'
        ∧ Keeps [.ldr] [.CLK_SYN_N] d d')

/-- Clock outputs, SYNCIN, clock gates and DIAGCLK (R443, R444, R449, R450, R465): a setting that R443 applies comes into
force, another sets cko_invalid and leaves the setting in force, or ends it for a source that the device lacks; arming and the edge
that follows; gate words, a plane's only while it is FAULTED, and the end of a gating; DIAGCLK's divider is raised to keep it at or
below 200 MHz, over the frequencies of its sources that log 58 names. -/
def Obligations.ClockOutputsAndGates : Prop :=
  (∀ (s : State) (t c cfg : Nat) (val : Word) (d : Dev), d = s.on t → c < 8 → d.flag F.CLK_CTRL_lock = false →
    cfg = (val &&& 0xFFF#32).toNat → d.ckoOkSet cfg (d.reg .CLK_CKO_DIV c).toNat = true →
    Runs (.ckoConfigWrite t c false val) s fun d' =>
      d'.reg .CLK_CKO_CFG c = val &&& 0xFFF#32 ∧ Tbl.get 0 d'.clk.ckoCfg c = cfg
      ∧ Tbl.get 0 d'.clk.ckoDiv c = (d.reg .CLK_CKO_DIV c).toNat ∧ Drives d d' c cfg (d.reg .CLK_CKO_DIV c).toNat
      ∧ KeepsOthers .CLK_CKO_CFG c d d' ∧ Keeps [.clk, .emitted, .ldr] [.CLK_CKO_CFG] d d')
  ∧ (∀ (s : State) (t c div : Nat) (val : Word) (d : Dev), d = s.on t → c < 8 → d.flag F.CLK_CTRL_lock = false →
      div = (val &&& 0x1FFFFFF#32).toNat → d.ckoOkSet (d.reg .CLK_CKO_CFG c).toNat div = true →
      Runs (.ckoConfigWrite t c true val) s fun d' =>
        d'.reg .CLK_CKO_DIV c = val &&& 0x1FFFFFF#32 ∧ Tbl.get 0 d'.clk.ckoDiv c = div
        ∧ Tbl.get 0 d'.clk.ckoCfg c = (d.reg .CLK_CKO_CFG c).toNat ∧ Drives d d' c (d.reg .CLK_CKO_CFG c).toNat div
        ∧ KeepsOthers .CLK_CKO_DIV c d d' ∧ Keeps [.clk, .emitted, .ldr] [.CLK_CKO_DIV] d d')
  ∧ (∀ (s : State) (t c cfg : Nat) (val : Word) (d : Dev), d = s.on t → c < 8 → d.flag F.CLK_CTRL_lock = false →
      cfg = (val &&& 0xFFF#32).toNat → d.ckoOkSet cfg (d.reg .CLK_CKO_DIV c).toNat = false →
      Runs (.ckoConfigWrite t c false val) s fun d' =>
        d'.flag F.CLK_ERR_cko_invalid = true ∧ d'.reg .CLK_CKO_CFG c = val &&& 0xFFF#32
        ∧ (cfg / 4 % 16 < 10 → d'.clk = d.clk)
        ∧ (10 ≤ cfg / 4 % 16 → Drives d d' c cfg (d.reg .CLK_CKO_DIV c).toNat)
        ∧ KeepsOthers .CLK_CKO_CFG c d d' ∧ Keeps [.clk, .emitted, .ldr] [.CLK_CKO_CFG, .CLK_ERR] d d')
  ∧ (∀ (s : State) (t c : Nat) (div : Bool) (val : Word), c < 8 → (s.on t).flag F.CLK_CTRL_lock = true →
      OnlyTime (.ckoConfigWrite t c div val) s t)
  ∧ (∀ (s : State) (t : Nat) (d : Dev), d = s.on t →
      Runs (.syncArm t) s fun d' =>
        d'.reg .CLK_SYNC_CFG 0 = F.CLK_SYNC_CFG_arm.put (d.reg .CLK_SYNC_CFG 0) 1 ∧ Keeps [] [.CLK_SYNC_CFG] d d')
  ∧ (∀ (s : State) (t : Nat) (d : Dev), d = s.on t → d.flag F.CLK_SYNC_CFG_arm = true →
      (∀ c, c < 8 → d.bitAt F.CLK_SYNC_CFG_mask c = true → Tbl.get 0 d.clk.ckoCfg c / 4 % 16 < 8 →
        d.gated (d.ckoSyn (Tbl.get 0 d.clk.ckoCfg c / 4 % 16)) = false) →
      Runs (.syncinEdge t) s fun d' =>
        d'.flag F.CLK_SYNC_CFG_arm = false
        ∧ (∀ c, c < 8 → Tbl.get 0 d'.clk.ckoSync c =
            if d.bitAt F.CLK_SYNC_CFG_mask c = true ∧ Tbl.get 0 d.clk.ckoCfg c / 4 % 16 < 8 then d.now
            else Tbl.get 0 d.clk.ckoSync c)
        ∧ Keeps (.clk :: evAreas) (.CLK_SYNC_CFG :: evRegs) d d')
  ∧ (∀ (s : State) (t : Nat) (d : Dev), d = s.on t → (d.flag F.CLK_SYNC_CFG_arm = false
        ∨ ∃ c, c < 8 ∧ d.bitAt F.CLK_SYNC_CFG_mask c = true ∧ Tbl.get 0 d.clk.ckoCfg c / 4 % 16 < 8
          ∧ d.gated (d.ckoSyn (Tbl.get 0 d.clk.ckoCfg c / 4 % 16)) = true) →
      OnlyTime (.syncinEdge t) s t)
  ∧ (∀ (s : State) (t : Nat) (val : Word) (d : Dev), d = s.on t →
      Runs (.clockGateWrite t false val) s fun d' =>
        d'.reg .GLB_CLKEN0 0 = val
        ∧ d'.reg .GLB_CLKPEND0 0 = d.reg .GLB_CLKPEND0 0 ||| (d.reg .GLB_CLKEN0 0 ^^^ val)
        ∧ Keeps [] [.GLB_CLKEN0, .GLB_CLKPEND0] d d')
  ∧ (∀ (s : State) (t : Nat) (val : Word) (d : Dev), d = s.on t →
      Runs (.clockGateWrite t true val) s fun d' =>
        d'.rd F.GLB_CLKEN1_oct = F.GLB_CLKEN1_oct.get val
        ∧ d'.rd F.GLB_CLKPEND1_oct = d.rd F.GLB_CLKPEND1_oct ||| (d.rd F.GLB_CLKEN1_oct ^^^ F.GLB_CLKEN1_oct.get val)
        ∧ (F.GLB_CLKEN1_plane_a.get val ≠ d.rd F.GLB_CLKEN1_plane_a → d.plState .a ≠ 1 →
            d'.rd F.GLB_CLKEN1_plane_a = d.rd F.GLB_CLKEN1_plane_a ∧ d'.flag F.GLB_CLKPEND1_plane_ignored = true)
        ∧ (F.GLB_CLKEN1_plane_b.get val ≠ d.rd F.GLB_CLKEN1_plane_b → d.plState .b ≠ 1 →
            d'.rd F.GLB_CLKEN1_plane_b = d.rd F.GLB_CLKEN1_plane_b ∧ d'.flag F.GLB_CLKPEND1_plane_ignored = true)
        ∧ (F.GLB_CLKEN1_plane_a.get val ≠ d.rd F.GLB_CLKEN1_plane_a → d.plState .a = 1 →
            d'.rd F.GLB_CLKEN1_plane_a = F.GLB_CLKEN1_plane_a.get val ∧ d'.flag F.GLB_CLKPEND1_plane_a = true)
        ∧ (F.GLB_CLKEN1_plane_b.get val ≠ d.rd F.GLB_CLKEN1_plane_b → d.plState .b = 1 →
            d'.rd F.GLB_CLKEN1_plane_b = F.GLB_CLKEN1_plane_b.get val ∧ d'.flag F.GLB_CLKPEND1_plane_b = true)
        ∧ Keeps [] [.GLB_CLKEN1, .GLB_CLKPEND1] d d')
  ∧ (∀ (s : State) (t k : Nat) (d : Dev), d = s.on t → k < 48 → d.octGateOpen k = false →
      (∀ j, j < 8 → d.lnState (8 * k + j) = 0) →
      Runs (.clockGateDone t k) s fun d' =>
        d'.octetGated k = true ∧ d'.flag F.LN_OCT_STATUS_om_lock k = false
        ∧ (if k < 32 then d'.bitAt F.GLB_CLKPEND0_oct k else d'.bitAt F.GLB_CLKPEND1_oct (k - 32)) = false
        ∧ (∀ j, j < 48 → j ≠ k → d'.octetGated j = d.octetGated j)
        ∧ Keeps [] [.GLB_CLKPEND0, .GLB_CLKPEND1, .LN_OCT_STATUS, .CLK_OM_LOCK_LO, .CLK_OM_LOCK_HI] d d')
  ∧ (∀ (s : State) (t k : Nat) (d : Dev), d = s.on t → k < 48 → d.octGateOpen k = true →
      Runs (.clockGateDone t k) s fun d' =>
        d'.octetGated k = false ∧ (∀ j, j < 48 → j ≠ k → d'.octetGated j = d.octetGated j)
        ∧ Keeps [] [.GLB_CLKPEND0, .GLB_CLKPEND1] d d')
  ∧ (∀ (s : State) (t k j : Nat) (d : Dev), d = s.on t → k < 48 → d.octGateOpen k = false → j < 8 → d.lnState (8 * k + j) ≠ 0 →
      OnlyTime (.clockGateDone t k) s t)
  ∧ (∀ (s : State) (t : Nat) (p : Plane) (d : Dev), d = s.on t →
      Runs (.clockGateDone t (48 + p.id)) s fun d' =>
        d'.planeGated p = !d.flag (if p = .a then F.GLB_CLKEN1_plane_a else F.GLB_CLKEN1_plane_b)
        ∧ d'.planeGated p.other = d.planeGated p.other ∧ Keeps [] [.GLB_CLKPEND1] d d')
  ∧ (∀ (s : State) (t : Nat) (port : Port) (val : Word) (d : Dev), d = s.on t → d.start.resetLow = false →
      Runs (.registerWrite t port 0x20020 val) s fun d' =>
        d'.reg .CLK_DIAG 0 = RegName.CLK_DIAG.written (d.flag F.CLK_CTRL_lock) (d.reg .CLK_DIAG 0) val (d.newBits .CLK_DIAG 0)
        ∧ d'.clk = { d.clk with diag := d'.clk.diag }
        ∧ (d'.rd F.CLK_DIAG_enable = 0 ∨ 10 ≤ d'.rd F.CLK_DIAG_src ∨ d.flag F.CLK_STATUS_safe = true → d'.clk.diag = none)
        ∧ (d'.rd F.CLK_DIAG_enable = 1 → d'.rd F.CLK_DIAG_src < 6 ∨ d'.rd F.CLK_DIAG_src = 9 →
            d.flag F.CLK_STATUS_safe = false → d'.clk.diag.isSome = true)
        ∧ (∀ src i m, d'.clk.diag = some (src, i, m) →
            src = d'.rd F.CLK_DIAG_src ∧ i = d'.rd F.CLK_DIAG_idx ∧ d'.rd F.CLK_DIAG_n ≤ m
            ∧ ∀ hz, d'.diagHz src i = some hz → hz < 2 ^ 64 →
                hz ≤ 200000000 * 2 ^ m ∧ (d'.rd F.CLK_DIAG_n < m → 200000000 * 2 ^ (m - 1) < hz))
        ∧ Keeps [.clk, .emitted, .ldr] [.CLK_DIAG] d d')

/-! ### The Control Matrix and the Rambler cores (chapter 14) -/

/-- Requests (R453 to R455, R459): a request that its master may issue joins the transactions outstanding, at the
target and the offset its address decodes to; one without a path, or that leaves its target, goes to the default
target; a tag already in use, a sixteenth transaction, a master that is releasing and a core that does not run issue
nothing.

Turns (R457): among the masters that wait at a target, the one first in ascending number after the master just served.

Segments (R455 to R457, R459, R461 to R464, R467, R469, R476): the target serves 16 beats of the transaction whose turn it is and
answers them. The ROM and the working SRAM are read; SRAM writes change the strobed bytes alone; the register target reads whole
words and takes whole words, a partial one is discarded, counted and answered with FAULT; the Larder refuses the page under write
and takes writes as commands of the master's class; a Hamper window reads and writes its plane's stack; host memory is reached
through its port, which answers FAULT while it is lost; the default target answers MISS, captures the first miss and counts the
transaction. A target with nothing to serve does nothing. Points of the Control Matrix are the model's reading (log 20 and 34). -/
def Obligations.MatrixTransactions : Prop :=
  (∀ (s : State) (t master tag : Nat) (write : Bool) (space addr beats : Nat) (after : Option Nat) (data : List Byte)
    (strobes : List Bool) (target off size : Nat) (x : Txn) (d : Dev),
    d = s.on t → master < 11 → tag < 16 → space < 3 → 1 ≤ beats → beats ≤ 256 →
    d.mayIssue master tag = true →
    x = { master := master, tag := tag, write := write, space := space, addr := addr % 2 ^ 64, beats := beats, data := data
          strobes := strobes, target := 15
          after := after.filter fun a => (d.txnsOf master).any fun y => y.tag == a } →
    d.cmxDecode space (addr % 2 ^ 64) = some (target, off, size) → reaches master target write = true →
    off + beats * beatBytes master ≤ size →
    Runs (.cmxRequest t master tag write space addr beats after data strobes) s fun d' =>
      d'.cmx = { d.cmx with txns := d.cmx.txns ++ [{ x with target := target, addr := off }] } ∧ Keeps [.cmx] [] d d')
  ∧ (∀ (s : State) (t master tag : Nat) (write : Bool) (space addr beats : Nat) (after : Option Nat) (data : List Byte)
    (strobes : List Bool) (target off size : Nat) (x : Txn) (d : Dev),
    d = s.on t → master < 11 → tag < 16 → space < 3 → 1 ≤ beats → beats ≤ 256 →
    d.mayIssue master tag = true →
    x = { master := master, tag := tag, write := write, space := space, addr := addr % 2 ^ 64, beats := beats, data := data
          strobes := strobes, target := 15
          after := after.filter fun a => (d.txnsOf master).any fun y => y.tag == a } →
    d.cmxDecode space (addr % 2 ^ 64) = some (target, off, size) → reaches master target write = true →
    size < off + beats * beatBytes master →
    Runs (.cmxRequest t master tag write space addr beats after data strobes) s fun d' =>
      d'.cmx = { d.cmx with txns := d.cmx.txns ++ [x] } ∧ d'.rd F.CMX_ERR_leave = min (d.rd F.CMX_ERR_leave + 1) 255
      ∧ d'.rd F.CMX_ERR_decode = d.rd F.CMX_ERR_decode ∧ d'.rd F.CMX_ERR_partial = d.rd F.CMX_ERR_partial
      ∧ Keeps [.cmx] [.CMX_ERR] d d')
  ∧ (∀ (s : State) (t master tag : Nat) (write : Bool) (space addr beats : Nat) (after : Option Nat) (data : List Byte)
    (strobes : List Bool) (x : Txn) (d : Dev), d = s.on t → master < 11 → tag < 16 → space < 3 → 1 ≤ beats → beats ≤ 256 →
    d.mayIssue master tag = true →
    x = { master := master, tag := tag, write := write, space := space, addr := addr % 2 ^ 64, beats := beats, data := data
          strobes := strobes, target := 15
          after := after.filter fun a => (d.txnsOf master).any fun y => y.tag == a } →
    (∀ target off size, d.cmxDecode space (addr % 2 ^ 64) = some (target, off, size) → reaches master target write = false) →
    Runs (.cmxRequest t master tag write space addr beats after data strobes) s fun d' =>
      d'.cmx = { d.cmx with txns := d.cmx.txns ++ [x] } ∧ Keeps [.cmx] [] d d')
  ∧ (∀ (s : State) (t master tag : Nat) (write : Bool) (space addr beats : Nat) (after : Option Nat) (data : List Byte)
      (strobes : List Bool) (d : Dev), d = s.on t → master < 11 → tag < 16 → space < 3 → 1 ≤ beats → beats ≤ 256 →
      ((∃ y, y ∈ d.cmx.txns ∧ y.master = master ∧ y.tag = tag) ∨ 16 ≤ (d.txnsOf master).length
        ∨ d.bitAt F.CMX_MRST_releasing master = true ∨ d.start.resetLow = true
        ∨ master < 4 ∧ d.rd F.CMX_RMB_STATUS_state master ≠ 1 ∧ d.rd F.CMX_RMB_STATUS_state master ≠ 2) →
      OnlyTime (.cmxRequest t master tag write space addr beats after data strobes) s t)
  ∧ (∀ (d : Dev) (target : Nat) (x y : Txn), d.cmxNext target = some x → y ∈ d.cmx.txns → y.target = target → y.after = none →
      y.master < 11 →
      x ∈ d.cmx.txns ∧ x.target = target ∧ x.after = none
      ∧ (x.master + 11 - Tbl.get 0 d.cmx.last target % 11) % 11 ≤ (y.master + 11 - Tbl.get 0 d.cmx.last target % 11) % 11)
  ∧ (∀ (s : State) (t n : Nat) (x : Txn) (d : Dev), d = s.on t → Turn d 0 x n → x.write = false →
      Runs (.cmxSegment t 0) s fun d' =>
        Responds d d' 0 x n 0 ((span x.addr n).map Config.rom) ∧ Keeps [.cmx, .emitted] [] d d')
  ∧ (∀ (s : State) (t n : Nat) (x : Txn) (d : Dev), d = s.on t → Turn d 1 x n → x.write = false →
      Runs (.cmxSegment t 1) s fun d' =>
        Responds d d' 1 x n 0 ((span x.addr n).map (d.sramByte s.mem.sram)) ∧ Keeps [.cmx, .emitted] [] d d')
  ∧ (∀ (s : State) (t n : Nat) (x : Txn) (d : Dev), d = s.on t → Turn d 1 x n → x.write = true →
      RunsMem (.cmxSegment t 1) s fun m d' =>
        (∀ a, d'.sramByte m.sram a
          = if x.addr ≤ a ∧ a < x.addr + n ∧ x.strobes.getD (a - x.addr) false = true then x.data.getD (a - x.addr) 0#8
            else d.sramByte s.mem.sram a)
        ∧ m.larder = s.mem.larder ∧ m.hamper = s.mem.hamper ∧ Responds d d' 1 x n 0 [] ∧ Keeps [.cmx, .emitted] [] d d')
  ∧ (∀ (s : State) (t n : Nat) (x : Txn) (ok : Bool) (d : Dev), d = s.on t → Turn d 2 x n → x.write = false → x.addr % 4 = 0 →
      ok = (List.range (n / 4)).all (fun k => (d.barRead (x.addr + 4 * k)).1 == 0) →
      Runs (.cmxSegment t 2) s fun d' =>
        Responds d d' 2 x n (if ok then 0 else 2) ((List.range (n / 4)).flatMap fun k => wordBytes (d.barRead (x.addr + 4 * k)).2)
        ∧ (ok = true ∨ x.counted = true → Keeps [.cmx, .emitted] [] d d')
        ∧ (ok = false → x.counted = false → d'.rd F.CMX_ERR_decode = min (d.rd F.CMX_ERR_decode + 1) 65535))
  ∧ (∀ (s : State) (t : Nat) (x : Txn) (r : Bool × Mems × Dev) (d : Dev), d = s.on t → Turn d 2 x 8 → x.write = true →
      x.addr % 4 = 0 → (∀ k, k < 8 → x.strobes.getD k false = decide (k < 4)) →
      r = barWrite (inboundPort x.master) x.addr (BitVec.ofNat 32 (ofLe (fit 4 x.data))) s.mem d → r.1 = true →
      RunsMem (.cmxSegment t 2) s fun m d' =>
        m = r.2.1 ∧ Responds r.2.2 d' 2 x 8 0 [] ∧ Keeps [.cmx, .emitted] [] r.2.2 d')
  ∧ (∀ (s : State) (t : Nat) (x : Txn) (d : Dev), d = s.on t → Turn d 2 x 8 → x.write = true → x.addr % 4 = 0 →
      (∃ k, k < 4 ∧ x.strobes.getD k false = true) → (∃ k, k < 4 ∧ x.strobes.getD k false = false) →
      (∀ k, 4 ≤ k → k < 8 → x.strobes.getD k false = false) →
      Runs (.cmxSegment t 2) s fun d' =>
        d'.rd F.CMX_ERR_partial = satAdd F.CMX_ERR_partial.width (d.rd F.CMX_ERR_partial) 1
        ∧ Responds d d' 2 x 8 1 [] ∧ Keeps [.cmx, .emitted] [.CMX_ERR] d d')
  ∧ (∀ (s : State) (t n : Nat) (x : Txn) (d : Dev), d = s.on t → Turn d 3 x n → x.write = false → 0 < n → x.addr % 256 + n ≤ 256 →
      d.ldrBusy x.addr n = true →
      Runs (.cmxSegment t 3) s fun d' =>
        d'.rd F.LDR_CNT_busy_reads = satAdd F.LDR_CNT_busy_reads.width (d.rd F.LDR_CNT_busy_reads) 1
        ∧ Responds d d' 3 x n 1 (d.drawBytes n).1 ∧ Keeps [.cmx, .emitted, .free] [.LDR_CNT] d d')
  ∧ (∀ (s : State) (t n : Nat) (x : Txn) (d : Dev), d = s.on t → Turn d 3 x n → x.write = false → 0 < n → x.addr % 256 + n ≤ 256 →
      d.ldrBusy x.addr n = false →
      Runs (.cmxSegment t 3) s fun d' =>
        Responds d d' 3 x n 0 (d.ldrRead s.mem.larder x.addr n).1 ∧ Keeps [.cmx, .emitted, .free] [] d d')
  ∧ (∀ (s : State) (t n : Nat) (x : Txn) (d : Dev), d = s.on t → Turn d 3 x n → x.write = true → 0 < n →
      (∀ k, k < n → x.strobes.getD k false = true) →
      Runs (.cmxSegment t 3) s fun d' =>
        Responds d d' 3 x n 0 []
        ∧ Keeps [.cmx, .emitted] [] (d.larderAdd s.mem.larder { cls := if x.master < 4 then 1 else if x.master = 10 then 2 else 0
                                                                what := 7, addr := x.addr, data := fit n x.data }) d')
  ∧ (∀ (s : State) (t n : Nat) (p : Plane) (x : Txn) (d : Dev), d = s.on t → Turn d (6 + p.id) x n → x.write = false →
      Runs (.cmxSegment t (6 + p.id)) s fun d' =>
        Responds d d' (6 + p.id) x n 0 ((span x.addr n).map fun a => Memory.read 0#8 (s.mem.hamper.pl p) (d.windowAt p a))
        ∧ Keeps [.cmx, .emitted] [] d d')
  ∧ (∀ (s : State) (t n : Nat) (p : Plane) (x : Txn) (d : Dev), d = s.on t → Turn d (6 + p.id) x n → x.write = true →
      x.addr % 8192 + n ≤ 8192 →
      RunsMem (.cmxSegment t (6 + p.id)) s fun m d' =>
        (∀ k, k < n → Memory.read 0#8 (m.hamper.pl p) (d.windowAt p (x.addr + k))
          = if x.strobes.getD k false = true then x.data.getD k 0#8
            else Memory.read 0#8 (s.mem.hamper.pl p) (d.windowAt p (x.addr + k)))
        ∧ (∀ a, a / 8192 ≠ d.windowAt p x.addr / 8192 → Memory.read 0#8 (m.hamper.pl p) a = Memory.read 0#8 (s.mem.hamper.pl p) a)
        ∧ m.hamper.pl p.other = s.mem.hamper.pl p.other ∧ m.larder = s.mem.larder ∧ m.sram = s.mem.sram
        ∧ Responds d d' (6 + p.id) x n 0 [] ∧ Keeps [.cmx, .emitted] [] d d')
  ∧ (∀ (s : State) (t n : Nat) (p : Port) (x : Txn) (d : Dev), d = s.on t → Turn d (8 + p.id) x n → d.lost p = true →
      Runs (.cmxSegment t (8 + p.id)) s fun d' =>
        Responds d d' (8 + p.id) x n 1 (if x.write then [] else zeros n) ∧ Keeps [.cmx, .emitted] [] d d')
  ∧ (∀ (s : State) (t n : Nat) (p : Port) (x : Txn) (d : Dev), d = s.on t → Turn d (8 + p.id) x n → d.lost p = false → 0 < n →
      x.addr % 4096 + n ≤ 4096 → x.write = false →
      Runs (.cmxSegment t (8 + p.id)) s fun d' =>
        Emission.hostRead p x.addr n ∈ d'.emitted ∧ Responds d d' (8 + p.id) x n 0 (d.drawBytes n).1 ∧ Keeps [.cmx, .emitted, .free] [] d d')
  ∧ (∀ (s : State) (t n : Nat) (p : Port) (x : Txn) (d : Dev), d = s.on t → Turn d (8 + p.id) x n → d.lost p = false → 0 < n →
      x.addr % 4096 + n ≤ 4096 → x.write = true → (∀ k, k < n → x.strobes.getD k false = true) →
      Runs (.cmxSegment t (8 + p.id)) s fun d' =>
        Emission.hostWrite p x.addr (fit n x.data) ∈ d'.emitted ∧ Responds d d' (8 + p.id) x n 0 []
        ∧ Keeps [.cmx, .emitted] [] d d')
  ∧ (∀ (s : State) (t n : Nat) (x : Txn) (d : Dev), d = s.on t → Turn d 15 x n → x.master < 11 → x.tag < 16 → x.space < 3 →
      Runs (.cmxSegment t 15) s fun d' =>
        Responds d d' 15 x n 2 (if x.write then [] else zeros n)
        ∧ (x.counted = true → Keeps [.cmx, .emitted] [] d d')
        ∧ (x.counted = false →
            d'.rd F.CMX_ERR_decode = min (d.rd F.CMX_ERR_decode + 1) 65535
            ∧ d'.rd F.CMX_ERR_partial = d.rd F.CMX_ERR_partial ∧ d'.rd F.CMX_ERR_leave = d.rd F.CMX_ERR_leave
            ∧ (d.flag F.CMX_ERR_INFO_valid = false →
                d'.rd F.CMX_ERR_INFO_master = x.master ∧ d'.rd F.CMX_ERR_INFO_id = x.tag ∧ d'.rd F.CMX_ERR_INFO_space = x.space
                ∧ d'.flag F.CMX_ERR_INFO_write = x.write ∧ d'.flag F.CMX_ERR_INFO_valid = true
                ∧ d'.rd F.CMX_ERR_ADDR_LO_addr = x.addr % 2 ^ 32 ∧ d'.rd F.CMX_ERR_ADDR_HI_addr = x.addr / 2 ^ 32 % 2 ^ 32)
            ∧ (d.flag F.CMX_ERR_INFO_valid = true → d'.reg .CMX_ERR_INFO 0 = d.reg .CMX_ERR_INFO 0
                ∧ d'.reg .CMX_ERR_ADDR_LO 0 = d.reg .CMX_ERR_ADDR_LO 0 ∧ d'.reg .CMX_ERR_ADDR_HI 0 = d.reg .CMX_ERR_ADDR_HI 0)
            ∧ Keeps (.cmx :: evAreas) (.CMX_ERR :: .CMX_ERR_ADDR_LO :: .CMX_ERR_ADDR_HI :: .CMX_ERR_INFO :: evRegs) d d'))
  ∧ (∀ (s : State) (t target : Nat), target < 10 ∨ target = 15 → (s.on t).cmxNext target = none →
      OnlyTime (.cmxSegment t target) s t)

/-- Master resets and the cores (R467, R469, R471, R472): a reset master's transactions go on with cleared strobes
and dropped responses while CMX_MRST shows it as releasing, until the last has ended; after a remap address 0
is the working SRAM; a watchdog's expiry resets its core alone, its lane alignment searches start again from 0 slips, and the third
within an hour holds it and passes its tasks to the next core that is not held.
Points of the Control Matrix are the model's reading (log 34). -/
def Obligations.MatrixResets : Prop :=
  (∀ (s : State) (t master : Nat) (d : Dev), d = s.on t → master < 11 → d.txnsOf master ≠ [] →
    Runs (.cmxMasterReset t master) s fun d' =>
      d'.cmx = { d.cmx with txns := d.cmx.txns.map fun x => if x.master = master then { x with dead := true, strobes := [] } else x }
      ∧ d'.bitAt F.CMX_MRST_releasing master = true
      ∧ (∀ k, k < 11 → k ≠ master → d'.bitAt F.CMX_MRST_releasing k = d.bitAt F.CMX_MRST_releasing k)
      ∧ Keeps [.cmx] [.CMX_MRST] d d')
  ∧ (∀ (s : State) (t master : Nat), master < 11 → (s.on t).txnsOf master = [] → OnlyTime (.cmxMasterReset t master) s t)
  ∧ (∀ (s : State) (t master : Nat) (d : Dev), d = s.on t → master < 11 → d.txnsOf master = [] →
      Runs (.cmxMasterReleased t master) s fun d' =>
        d'.bitAt F.CMX_MRST_releasing master = false
        ∧ (∀ k, k < 11 → k ≠ master → d'.bitAt F.CMX_MRST_releasing k = d.bitAt F.CMX_MRST_releasing k)
        ∧ Keeps [] [.CMX_MRST] d d')
  ∧ (∀ (s : State) (t master : Nat), master < 11 → (s.on t).txnsOf master ≠ [] → OnlyTime (.cmxMasterReleased t master) s t)
  ∧ (∀ (s : State) (t : Nat) (d : Dev), d = s.on t → d.start.resetLow = false →
      Runs (.cmxRemap t) s fun d' =>
        d'.flag F.CMX_CTRL_remap = true ∧ d'.flag F.CMX_CTRL_lock = d.flag F.CMX_CTRL_lock
        ∧ (∀ a, a < 0x200000 → d'.cmxDecode 0 a = some (1, a, 0x200000))
        ∧ (∀ a, 0x200000 ≤ a → d'.cmxDecode 0 a = d.cmxDecode 0 a) ∧ Keeps [] [.CMX_CTRL] d d')
  ∧ (∀ (s : State) (t : Nat), (s.on t).start.resetLow = true → OnlyTime (.cmxRemap t) s t)
  ∧ (∀ (s : State) (t c : Nat) (recent : List Nat) (d : Dev), d = s.on t → c < 4 →
      d.rd F.CMX_RMB_STATUS_state c = 1 ∨ d.rd F.CMX_RMB_STATUS_state c = 2 →
      recent = (Tbl.get [] d.cmx.wdog c).filter (fun a => decide (d.now < a + 3600 * secU)) →
      Runs (.ramblerWatchdog t c) s fun d' =>
        d'.rd F.CMX_RMB_STATUS_watchdogs c
          = satAdd F.CMX_RMB_STATUS_watchdogs.width (d.rd F.CMX_RMB_STATUS_watchdogs c) 1
        ∧ Tbl.get [] d'.cmx.wdog c = d.now :: recent ∧ Tbl.get none d'.cmx.restart c = some d.now
        ∧ d'.cmx.txns = d.cmx.txns.map (fun x => if x.master = c then { x with dead := true, strobes := [] } else x)
        ∧ d'.bitAt F.CMX_MRST_releasing c = (d.bitAt F.CMX_MRST_releasing c || d.cmx.txns.any fun x => x.master == c)
        ∧ (∀ k, k < 11 → k ≠ c → d'.bitAt F.CMX_MRST_releasing k = d.bitAt F.CMX_MRST_releasing k)
        ∧ (recent.length < 2 → d'.rd F.CMX_RMB_STATUS_state c = d.rd F.CMX_RMB_STATUS_state c ∧ d'.cmx.tasks = d.cmx.tasks)
        ∧ (2 ≤ recent.length → d'.rd F.CMX_RMB_STATUS_state c = 3
            ∧ (∀ k, d.nextCore c = some k → d'.cmx.tasks = d.cmx.tasks.map fun x => if x = c then k else x)
            ∧ (d.nextCore c = none → d'.cmx.tasks = d.cmx.tasks))
        ∧ (∀ n, n < 384 → d'.rd F.LN_STATUS_slips n =
            if d.cmx.tasks.getD 1 1 = c ∧ d.searching n = true ∧ d.flag F.LN_CTRL_host_align n = false then 0
            else d.rd F.LN_STATUS_slips n)
        ∧ (∀ n, n < 384 → d'.lnState n = d.lnState n)
        ∧ KeepsOthers .CMX_RMB_STATUS c d d' ∧ Keeps (.cmx :: evAreas) (.CMX_RMB_STATUS :: .CMX_MRST :: .LN_STATUS :: evRegs) d d')
  ∧ (∀ (s : State) (t c : Nat), c < 4 → (s.on t).rd F.CMX_RMB_STATUS_state c = 0 ∨ (s.on t).rd F.CMX_RMB_STATUS_state c = 3 →
      OnlyTime (.ramblerWatchdog t c) s t)

/-! ### The Larder (chapter 15) -/

/-- Page writes (R473 to R478, R480, R486, R489, R492): a page that reads back as programmed holds its image, and every other page
its bytes; its command goes on in the next page or ends with its last byte, which completes an NVM_WRITE, makes a journal commit
live and counts a refresh; then the class whose turn it is begins its next page. A page that reads back different is written once
more, and a second failure ends the command, with LDR_ERR.verify_fail; a rail outside its window ends a command that has begun, with
LDR_ERR.rail_abort; a page that a reset let finish is the last. Points of the Larder are the model's
reading (log 30 and 65). -/
def Obligations.LarderPages : Prop :=
  (∀ (s : State) (t pg : Nat) (c : LdrCmd) (d : Dev), d = s.on t → Writing d pg c → d.start.railOut = [] →
    c.data.length ≤ 256 - c.addr % 256 → c.what = 2 ∨ c.what = 3 ∨ c.what = 7 →
    RunsMem (.larderPageWriteDone t true) s fun m d' =>
      Programmed d s.mem m pg ∧ ServesNext d d' m.larder d.ldrRest ∧ d'.ldr.counts = d.ldr.counts
      ∧ Keeps [.ldr, .free] [.LDR_STATUS] d d')
  ∧ (∀ (s : State) (t pg : Nat) (c : LdrCmd) (d : Dev), d = s.on t → Writing d pg c → d.start.railOut = [] → c.cls < 3 →
      256 - c.addr % 256 < c.data.length →
      RunsMem (.larderPageWriteDone t true) s fun m d' =>
        Programmed d s.mem m pg
        ∧ ServesNext d d' m.larder (modFirst (fun q => q.cls == d.ldr.cur) (fun _ =>
            { c with addr := 256 * (if c.what = 1 then 0x80 + (pg - 0x80 + 1) % 4096 else pg + 1)
                     data := c.data.drop (256 - c.addr % 256), retried := false, begun := true }) d.ldr.queue)
        ∧ d'.ldr.counts = (if c.what = 0 then d.ldr.counts.modify 7 fun n => (n + 1) % 2 ^ 32
            else if c.what = 1 then d.ldr.counts.modify 6 fun n => (n + 1) % 2 ^ 32 else d.ldr.counts)
        ∧ Keeps [.ldr, .free] [.LDR_STATUS] d d')
  ∧ (∀ (s : State) (t pg r : Nat) (p : Port) (it : Item) (c : LdrCmd) (d : Dev), d = s.on t → Writing d pg c → d.start.railOut = [] →
      c.data.length ≤ 256 - c.addr % 256 → c.what = 0 → r < 16 → c.tag = 16 * p.id + r → (d.ring p r).items = [it] →
      it.phase = .acting → descOp it.head = 0x40 → it.isSalvo = false →
      RunsMem (.larderPageWriteDone t true) s fun m d' =>
        Programmed d s.mem m pg ∧ ServesNext d d' m.larder d.ldrRest ∧ Ends d d' p r it 0
        ∧ d'.ldr.counts = d.ldr.counts.modify 7 (fun n => (n + 1) % 2 ^ 32) ∧ Keeps [.ldr, .free, .svr] [.LDR_STATUS] d d')
  ∧ (∀ (s : State) (t pg first n : Nat) (c : LdrCmd) (d : Dev), d = s.on t → Writing d pg c → d.start.railOut = [] →
      c.data.length ≤ 256 - c.addr % 256 → c.what = 1 → d.ldr.jWrite = some (first, n) →
      RunsMem (.larderPageWriteDone t true) s fun m d' =>
        Programmed d s.mem m pg ∧ ServesNext d d' m.larder d.ldrRest ∧ d'.ldr.jLive = d.ldr.jLive ++ [(first, n)]
        ∧ d'.ldr.jWrite = none ∧ d'.ldr.jFly = []
        ∧ (∀ k, k ∈ d.ldr.jFly → (k.1, k.2, first) ∈ d'.ldr.jNew)
        ∧ (∀ x, x ∈ d.ldr.jNew → (x.1, x.2.1) ∉ d.ldr.jFly → x ∈ d'.ldr.jNew)
        ∧ d'.ldr.counts = d.ldr.counts.modify 6 (fun n => (n + 1) % 2 ^ 32) ∧ Keeps [.ldr, .free] [.LDR_STATUS] d d')
  ∧ (∀ (s : State) (t pg : Nat) (c : LdrCmd) (d : Dev), d = s.on t → Writing d pg c → d.start.railOut = [] →
      c.data = [] → c.what = 5 →
      RunsMem (.larderPageWriteDone t true) s fun m d' =>
        Programmed d s.mem m pg ∧ ServesNext d d' m.larder d.ldrRest
        ∧ d'.rd F.LDR_CNT_refreshes = satAdd F.LDR_CNT_refreshes.width (d.rd F.LDR_CNT_refreshes) 1
        ∧ d'.ldr.counts = d.ldr.counts.modify 9 (fun n => (n + 1) % 2 ^ 32)
        ∧ Keeps (.free :: evAreas) (.LDR_STATUS :: .LDR_CNT :: evRegs) d d')
  ∧ (∀ (s : State) (t pg : Nat) (c : LdrCmd) (d : Dev), d = s.on t → Writing d pg c → d.start.railOut ≠ [] → d.ldr.queue = [c] →
      256 - c.addr % 256 < c.data.length → c.what = 2 ∨ c.what = 3 ∨ c.what = 7 →
      RunsMem (.larderPageWriteDone t true) s fun m d' =>
        Programmed d s.mem m pg ∧ d'.ldr.page = none ∧ d'.ldr.queue = [] ∧ d'.flag F.LDR_ERR_rail_abort = true
        ∧ d'.flag F.LDR_STATUS_busy = false ∧ Keeps [.ldr] [.LDR_STATUS, .LDR_ERR] d d')
  ∧ (∀ (s : State) (t pg : Nat) (c : LdrCmd) (d : Dev), d = s.on t → Writing d pg c → c.retried = false → d.start.railOut = [] →
      c.what ≠ 0 → c.what ≠ 1 →
      Runs (.larderPageWriteDone t false) s fun d' =>
        d'.ldr = { d.ldr with queue := modFirst (fun q => q.cls == d.ldr.cur) (fun _ => { c with retried := true }) d.ldr.queue }
        ∧ Keeps [.ldr] [] d d')
  ∧ (∀ (s : State) (t pg : Nat) (c : LdrCmd) (d : Dev), d = s.on t → Writing d pg c → c.retried = false → d.start.railOut = [] →
      c.what = 0 ∨ c.what = 1 →
      Runs (.larderPageWriteDone t false) s fun d' =>
        d'.ldr = { d.ldr with queue := modFirst (fun q => q.cls == d.ldr.cur) (fun _ => { c with retried := true }) d.ldr.queue
                              counts := d.ldr.counts.modify (7 - c.what) fun n => (n + 1) % 2 ^ 32 }
        ∧ Keeps [.ldr] [] d d')
  ∧ (∀ (s : State) (t pg : Nat) (c : LdrCmd) (d : Dev), d = s.on t → Writing d pg c → c.retried = true → d.start.railOut = [] →
      c.what = 2 ∨ c.what = 3 ∨ c.what = 7 →
      RunsMem (.larderPageWriteDone t false) s fun m d' =>
        (∀ a, a / 256 ≠ pg → Memory.read 0xFF#8 m.larder a = Memory.read 0xFF#8 s.mem.larder a)
        ∧ m.hamper = s.mem.hamper ∧ m.sram = s.mem.sram ∧ ServesNext d d' m.larder d.ldrRest
        ∧ d'.flag F.LDR_ERR_verify_fail = true ∧ Keeps (.free :: evAreas) (.LDR_STATUS :: .LDR_ERR :: evRegs) d d')
  ∧ (∀ (s : State) (t pg r : Nat) (p : Port) (it : Item) (c : LdrCmd) (d : Dev), d = s.on t → Writing d pg c →
      c.retried = true → d.start.railOut = [] → c.what = 0 → r < 16 → c.tag = 16 * p.id + r → (d.ring p r).items = [it] →
      it.phase = .acting → descOp it.head = 0x40 → it.isSalvo = false →
      RunsMem (.larderPageWriteDone t false) s fun m d' =>
        (∀ a, a / 256 ≠ pg → Memory.read 0xFF#8 m.larder a = Memory.read 0xFF#8 s.mem.larder a)
        ∧ ServesNext d d' m.larder d.ldrRest ∧ Ends d d' p r it 0x1C ∧ d'.flag F.LDR_ERR_verify_fail = true
        ∧ Keeps (.free :: .svr :: evAreas) (.LDR_STATUS :: .LDR_ERR :: evRegs) d d')
  ∧ (∀ (s : State) (t pg : Nat) (c : LdrCmd) (d : Dev), d = s.on t → Writing d pg c → c.retried = false → d.start.railOut ≠ [] →
      d.ldr.queue = [c] → c.what = 2 ∨ c.what = 3 ∨ c.what = 7 →
      RunsMem (.larderPageWriteDone t false) s fun m d' =>
        (∀ a, a / 256 ≠ pg → Memory.read 0xFF#8 m.larder a = Memory.read 0xFF#8 s.mem.larder a)
        ∧ d'.ldr.page = none ∧ d'.ldr.queue = [] ∧ d'.flag F.LDR_ERR_rail_abort = true ∧ Keeps [.ldr] [.LDR_STATUS, .LDR_ERR] d d')
  ∧ (∀ (s : State) (t pg : Nat) (d : Dev), d = s.on t → d.ldr.page = some pg → d.ldr.ending = true → d.start.bootDue = false →
      RunsMem (.larderPageWriteDone t true) s fun m d' =>
        Programmed d s.mem m pg ∧ d'.ldr.page = none ∧ d'.ldr.ending = false ∧ d'.ldr.queue = d.ldr.queue
        ∧ d'.flag F.LDR_STATUS_busy = false ∧ Keeps [.ldr] [.LDR_STATUS] d d')
  ∧ (∀ (s : State) (t : Nat) (verify : Bool), (s.on t).ldr.page = none → OnlyTime (.larderPageWriteDone t verify) s t)

/-- Commits (R486, R487, R489 to R492, R472): with changes pending, a second after the last commit and with credit
for its pages, a Route Journal commit of every pending entry, with the live entries it would overwrite, joins the
Larder's queue; a change older than 10 s is stretched; the Counters are committed each powered hour, the Fault Log
at most once a minute; the scrubber reads the next page and refreshes it where the margin reads differ. Points of
the commits are the model's reading (log 30, 66 and 68). -/
def Obligations.LarderCommits : Prop :=
  (∀ (s : State) (t pages credit : Nat) (live keys : List (Nat × Nat)) (body : List Byte) (d d1 : Dev), d = (s.on t).landDue →
    d.ldr.jPend ≠ [] → d.ldr.jWrite = none → d.taskRuns 2 = true → d.ldr.jLast + secU ≤ d.now → d.rd F.GLB_START_phase ≠ 0 →
    d.reclaim s.mem.larder d.ldr.jNext d.ldr.jLive d.ldr.jPend (d.ldr.jPend.flatMap fun k => d.journalOf k.1 k.2)
      = ((live, keys, body), d1) →
    pages = ceilDiv (32 + body.length) 256 → credit = d.creditNow → pages * (10 * secU) ≤ credit →
    Runs (.journalCommit t) s fun d' =>
      d'.ldr.jSeq = (d.ldr.jSeq + 1) % 2 ^ 32 ∧ d'.ldr.jWrite = some (d.ldr.jNext, pages) ∧ d'.ldr.jNext = jPage d.ldr.jNext pages
      ∧ d'.ldr.jLive = live ∧ d'.ldr.jFly = keys ∧ d'.ldr.jPend = [] ∧ d'.ldr.jSince = none ∧ d'.ldr.jLast = d.now
      ∧ d'.creditNow = min (25920 * (10 * secU)) (credit - pages * (10 * secU))
      ∧ d'.ldr.queue = d.ldr.queue ++ [{ cls := 1, what := 1, addr := 256 * d.ldr.jNext
                                         data := commitBytes ((d.ldr.jSeq + 1) % 2 ^ 32) (d.epoch / secU % 2 ^ 32)
                                           (match live with | x :: _ => x.1 | [] => d.ldr.jNext) body }]
      ∧ d'.ldr.counts = d.ldr.counts ∧ d'.ldr.fBuf = d.ldr.fBuf ∧ Keeps [.ldr, .free] [.LDR_STATUS] d d')
  ∧ (∀ (s : State) (t : Nat) (d : Dev), d = (s.on t).landDue →
      d.ldr.jPend = [] ∨ d.ldr.jWrite.isSome = true ∨ d.taskRuns 2 = false ∨ d.now < d.ldr.jLast + secU
        ∨ d.rd F.GLB_START_phase = 0 →
      Runs (.journalCommit t) s fun d' => d' = d)
  ∧ (∀ (s : State) (t : Nat) (live keys : List (Nat × Nat)) (body : List Byte) (d d1 : Dev), d = (s.on t).landDue →
      d.reclaim s.mem.larder d.ldr.jNext d.ldr.jLive d.ldr.jPend (d.ldr.jPend.flatMap fun k => d.journalOf k.1 k.2)
        = ((live, keys, body), d1) →
      d.creditNow < ceilDiv (32 + body.length) 256 * (10 * secU) →
      Runs (.journalCommit t) s fun d' => d' = d)
  ∧ (∀ (s : State) (t a : Nat) (d : Dev), d = s.on t → d.ldr.jSince = some a →
      a + 10 * secU + 3600 * secU * d.ldr.jStretch < d.now →
      Runs (.journalStretch t) s fun d' => d'.ldr.jStretch = d.ldr.jStretch + 1 ∧ d'.ldr.jPend = d.ldr.jPend
        ∧ Keeps evAreas evRegs d d')
  ∧ (∀ (s : State) (t : Nat), (s.on t).ldr.jSince = none → OnlyTime (.journalStretch t) s t)
  ∧ (∀ (s : State) (t a : Nat) (d : Dev), d = s.on t → d.ldr.jSince = some a →
      d.now ≤ a + 10 * secU + 3600 * secU * d.ldr.jStretch → OnlyTime (.journalStretch t) s t)
  ∧ (∀ (s : State) (t seq : Nat) (d : Dev), d = s.on t → d.rd F.GLB_START_phase ≠ 0 → d.taskRuns 2 = true →
      d.ldr.cAt + 3600 * secU ≤ d.now →
      seq = (if d.ldr.cValid = true ∨ d.ldr.cSeq ≠ 0 then (d.ldr.cSeq + 1) % 2 ^ 32 else 1) →
      Runs (.countersCommit t) s fun d' =>
        d'.ldr.counts = d.ldr.counts.modify 0 (fun c => (c + 1) % 2 ^ 32) ∧ d'.ldr.cSeq = seq ∧ d'.ldr.cAt = d.now
        ∧ d'.ldr.cSlot = (d.ldr.cSlot + 1) % 128
        ∧ (∃ pad, d'.ldr.queue = d.ldr.queue ++ [{ cls := 1, what := 2, addr := 0x108000 + 512 * d.ldr.cSlot
                                                   data := recordBytes 0x0C01 seq (d'.ldr.counts.flatMap (le 4 ·)) ++ pad }])
        ∧ d'.ldr.jPend = d.ldr.jPend ∧ d'.ldr.fBuf = d.ldr.fBuf ∧ Keeps [.ldr, .free] [.LDR_STATUS] d d')
  ∧ (∀ (s : State) (t : Nat) (d : Dev), d = s.on t →
      d.now < d.ldr.cAt + 3600 * secU ∨ d.rd F.GLB_START_phase = 0 ∨ d.taskRuns 2 = false → OnlyTime (.countersCommit t) s t)
  ∧ (∀ (s : State) (t n : Nat) (d : Dev), d = s.on t → d.rd F.GLB_START_phase ≠ 0 → d.taskRuns 2 = true → d.ldr.fBuf ≠ [] →
      (∀ a, d.ldr.fLast = some a → a + 60 * secU ≤ d.now) → n = min (4 - d.ldr.fNext % 4) d.ldr.fBuf.length →
      Runs (.faultLogCommit t) s fun d' =>
        d'.ldr.fBuf = d.ldr.fBuf.drop n ∧ d'.ldr.fSeq = (d.ldr.fSeq + n) % 2 ^ 32 ∧ d'.ldr.fNext = (d.ldr.fNext + n) % 4096
        ∧ d'.ldr.fLast = some d.now
        ∧ (∃ data, d'.ldr.queue = d.ldr.queue ++ [{ cls := 1, what := 3, addr := 0x118000 + 64 * d.ldr.fNext, data := data }]
            ∧ data.length = 64 * n
            ∧ ∀ k, k < n → fieldAt data (64 * k) 4 = (d.ldr.fSeq + 1 + k) % 2 ^ 32
                ∧ (data.drop (64 * k + 4)).take 56 = fit 56 (d.ldr.fBuf.getD k []))
        ∧ d'.ldr.jPend = d.ldr.jPend ∧ d'.ldr.counts = d.ldr.counts ∧ Keeps [.ldr, .free] [.LDR_STATUS] d d')
  ∧ (∀ (s : State) (t a : Nat), (s.on t).ldr.fLast = some a → (s.on t).now < a + 60 * secU → OnlyTime (.faultLogCommit t) s t)
  ∧ (∀ (s : State) (t : Nat) (d : Dev), d = s.on t → d.ldr.fBuf = [] ∨ d.rd F.GLB_START_phase = 0 ∨ d.taskRuns 2 = false →
      OnlyTime (.faultLogCommit t) s t)
  ∧ (∀ (s : State) (t pg : Nat) (differ : Bool) (d : Dev), d = s.on t → d.flag F.LDR_CTRL_scrub_en = true →
      d.taskRuns 2 = true → d.rd F.GLB_START_phase ≠ 0 → d.ldr.scrubAt + d.scrubPeriod ≤ d.now → pg = d.rd F.LDR_SCRUB_next →
      Runs (.larderScrub t differ) s fun d' =>
        d'.ldr.scrubAt = d.now
        ∧ (d.ldr.page = some pg → d'.rd F.LDR_SCRUB_next = pg
            ∧ d'.rd F.LDR_CNT_busy_reads = satAdd F.LDR_CNT_busy_reads.width (d.rd F.LDR_CNT_busy_reads) 1
            ∧ d'.ldr.queue = d.ldr.queue)
        ∧ (d.ldr.page ≠ some pg → d'.rd F.LDR_SCRUB_next = (pg + 1) % 16384
            ∧ d'.rd F.LDR_CNT_busy_reads = d.rd F.LDR_CNT_busy_reads
            ∧ d'.ldr.queue = d.ldr.queue ++ if differ then [{ cls := 3, what := 5, addr := 256 * pg }] else [])
        ∧ Keeps [.ldr, .free] [.LDR_SCRUB, .LDR_CNT, .LDR_STATUS] d d')
  ∧ (∀ (s : State) (t : Nat) (differ : Bool) (d : Dev), d = s.on t →
      d.flag F.LDR_CTRL_scrub_en = false ∨ d.taskRuns 2 = false ∨ d.rd F.GLB_START_phase = 0 ∨ d.now < d.ldr.scrubAt + d.scrubPeriod →
      OnlyTime (.larderScrub t differ) s t)
/-! ### Supplies, reset and start-up (chapters 0, 17, 18) -/

/-- A host's register write (R11 to R13, R253, R456, R462, R464, R560): a register with no command of its own takes
the word by its fields' access codes, the block's lock and the bits that the device sets in the same cycle, and nothing else changes;
one with a command of its own acts as that command; writes while RESET_N is low, to the other port's block or to a gated block change
nothing; one that is not aligned counts two partial words; one where no register lies is counted and captured with the port's master.

MSI-X words (R251, R281) and pins (R445, R549): a word of the port's table is written, and the unmasking of a vector whose
pending bit is set sends its message; the GPIO balls follow their registers, and the lock pins CLK_LOCK_CFG. The count of a misaligned
write is the model's reading (log 34). -/
def Obligations.RegisterWrites : Prop :=
  (∀ (s : State) (t off i : Nat) (port : Port) (val : Word) (r : RegName) (d : Dev), d = s.on t → d.start.resetLow = false →
    off % 4 = 0 → msixAt off = none → regAt off = some (r, i) → i < 65536 → (∀ q, hifPort off = some q → q = port) →
    d.gatedAt off = false → r ∉ commandRegs →
    Runs (.registerWrite t port off val) s fun d' =>
      d'.reg r i = r.written (d.lockedAt (regOff r i)) (d.reg r i) val (d.newBits r i) ∧ KeepsOthers r i d d' ∧ Keeps [.ldr] [r] d d')
  ∧ (∀ (s : State) (t off : Nat) (port : Port) (val : Word), (s.on t).start.resetLow = true →
      OnlyTime (.registerWrite t port off val) s t)
  ∧ (∀ (s : State) (t off : Nat) (port : Port) (val : Word), off % 4 = 0 → hifPort off = some port.other →
      (regAt off).isSome = true ∨ (msixAt off).isSome = true → OnlyTime (.registerWrite t port off val) s t)
  ∧ (∀ (s : State) (t off i : Nat) (port : Port) (val : Word) (r : RegName), off % 4 = 0 → msixAt off = none →
      regAt off = some (r, i) → (s.on t).gatedAt off = true → OnlyTime (.registerWrite t port off val) s t)
  ∧ (∀ (s : State) (t off : Nat) (port : Port) (val : Word) (d : Dev), d = s.on t → d.start.resetLow = false → off % 4 ≠ 0 →
      Runs (.registerWrite t port off val) s fun d' =>
        d'.reg .CMX_ERR 0 = F.CMX_ERR_partial.put (d.reg .CMX_ERR 0) (min (d.rd F.CMX_ERR_partial + 2) 255)
        ∧ Keeps [] [.CMX_ERR] d d')
  ∧ (∀ (s : State) (t off : Nat) (port : Port) (val : Word) (d : Dev), d = s.on t → d.start.resetLow = false → off % 4 = 0 →
      off < 0x4000000 → regAt off = none → msixAt off = none →
      Runs (.registerWrite t port off val) s fun d' =>
        d'.rd F.CMX_ERR_decode = min (d.rd F.CMX_ERR_decode + 1) 65535 ∧ d'.rd F.CMX_ERR_partial = d.rd F.CMX_ERR_partial
        ∧ (d.flag F.CMX_ERR_INFO_valid = false →
            d'.rd F.CMX_ERR_INFO_master = 4 + port.id ∧ d'.rd F.CMX_ERR_INFO_space = 0 ∧ d'.flag F.CMX_ERR_INFO_write = true
            ∧ d'.flag F.CMX_ERR_INFO_valid = true ∧ d'.rd F.CMX_ERR_ADDR_LO_addr = 0x40000000 + off
            ∧ d'.rd F.CMX_ERR_ADDR_HI_addr = 0)
        ∧ (d.flag F.CMX_ERR_INFO_valid = true → d'.reg .CMX_ERR_INFO 0 = d.reg .CMX_ERR_INFO 0
            ∧ d'.reg .CMX_ERR_ADDR_LO 0 = d.reg .CMX_ERR_ADDR_LO 0 ∧ d'.reg .CMX_ERR_ADDR_HI 0 = d.reg .CMX_ERR_ADDR_HI 0)
        ∧ Keeps (.free :: evAreas) (.CMX_ERR :: .CMX_ERR_ADDR_LO :: .CMX_ERR_ADDR_HI :: .CMX_ERR_INFO :: evRegs) d d')
  ∧ (∀ (s : State) (t k : Nat) (port : Port) (val : Word) (d : Dev), d = s.on t → d.start.resetLow = false → k < 256 →
      Runs (.registerWrite t port (0x10000 + 0x8000 * port.id + 0x7000 + 4 * k) val) s fun d' =>
        d'.msixWord port k = (if k % 4 = 3 then val.toNat % 2 else if k % 4 = 0 then val.toNat / 4 * 4 else val.toNat)
        ∧ (∀ j, j < 256 → j ≠ k → d'.msixWord port j = d.msixWord port j) ∧ d'.port port.other = d.port port.other
        ∧ (d'.msixMasked port (k / 4) = false → (d.port port).pba.contains (k / 4) = true →
            d'.emitted = Emission.msix port (k / 4) (d'.msixWord port (k / 4 * 4) + d'.msixWord port (k / 4 * 4 + 1) * 2 ^ 32)
              (d'.msixWord port (k / 4 * 4 + 2)) :: d.emitted
            ∧ (d'.port port).pba = (d.port port).pba.filter fun v => v != k / 4)
        ∧ (d'.msixMasked port (k / 4) = true ∨ (d.port port).pba.contains (k / 4) = false →
            d'.emitted = d.emitted ∧ (d'.port port).pba = (d.port port).pba)
        ∧ Keeps [.ports, .emitted] [] d d')
  ∧ (∀ (s : State) (t k : Nat) (port : Port) (val : Word), k < 2 →
      OnlyTime (.registerWrite t port (0x10000 + 0x8000 * port.id + 0x7800 + 4 * k) val) s t)
  ∧ (∀ (s : State) (t : Nat) (port : Port) (val : Word) (r : RegName) (d : Dev), d = s.on t → d.start.resetLow = false →
      r = .GLB_GPIO_DIR ∨ r = .GLB_GPIO_OUT ∨ r = .GLB_GPIO_PULL →
      Runs (.registerWrite t port (regOff r 0) val) s fun d' =>
        d'.reg r 0 = r.written false (d.reg r 0) val (d.newBits r 0)
        ∧ d'.emitted = Emission.gpio ((List.range 16).map fun x =>
            if d'.bitAt F.GLB_GPIO_DIR_oe x = true ∧ (d'.bitAt F.GLB_GPIO_OUT_out x = false ∨ d'.bitAt F.GLB_GPIO_DIR_od x = false)
            then some (d'.bitAt F.GLB_GPIO_OUT_out x) else none) (d'.reg .GLB_GPIO_PULL 0) :: d.emitted
        ∧ Keeps [.emitted, .ldr] [r] d d')
  ∧ (∀ (s : State) (t : Nat) (port : Port) (val : Word) (d : Dev), d = s.on t → d.start.resetLow = false →
      d.flag F.CLK_CTRL_lock = false →
      Runs (.registerWrite t port (regOff .CLK_LOCK_CFG 0) val) s fun d' =>
        d'.flag F.CLK_LOCK_CFG_en_a = decide (F.CLK_LOCK_CFG_en_a.get val = 1)
        ∧ d'.flag F.CLK_LOCK_CFG_en_b = decide (F.CLK_LOCK_CFG_en_b.get val = 1)
        ∧ (∀ p, (if p = Plane.a then F.CLK_LOCK_CFG_en_a.get val else F.CLK_LOCK_CFG_en_b.get val) = 0
            ∨ d.flag F.CLK_STATUS_safe = true → d'.clk.pins.pl p = none)
        ∧ (∀ p, (if p = Plane.a then F.CLK_LOCK_CFG_en_a.get val else F.CLK_LOCK_CFG_en_b.get val) = 1 →
            d.flag F.CLK_STATUS_safe = false →
            ((d.tbState p = 0 ∨ d.tbState p = 4 ∨ d.tbState p = 6 ∨ d.pinSynsLocked p = false) → d'.clk.pins.pl p = some 0)
            ∧ (d.tbState p = 1 ∨ d.tbState p = 2 ∨ d.tbState p = 5 → d.pinSynsLocked p = true →
                d'.clk.pins.pl p = some (10 * (usU - min usU (d.tb p).phase.natAbs)))
            ∧ (d.tbState p = 3 → d.pinSynsLocked p = true → d'.clk.pins.pl p = some (10 * (usU - d.clk.lockE.pl p))))
        ∧ Keeps [.clk, .emitted, .ldr] [.CLK_LOCK_CFG] d d')
  ∧ (∀ (s : State) (t : Nat) (port : Port) (hi : Bool) (val : Word), (s.on t).start.resetLow = false →
      exec (.registerWrite t port (regOff (if hi then .GLB_CLKEN1 else .GLB_CLKEN0) 0) val) s = exec (.clockGateWrite t hi val) s)
  ∧ (∀ (s : State) (t c : Nat) (port : Port) (div : Bool) (val : Word), (s.on t).start.resetLow = false → c < 8 →
      exec (.registerWrite t port (regOff (if div then .CLK_CKO_DIV else .CLK_CKO_CFG) c) val) s = exec (.ckoConfigWrite t c div val) s)
  ∧ (∀ (s : State) (t : Nat) (port : Port) (val : Word), (s.on t).start.resetLow = false →
      exec (.registerWrite t port (regOff .CLK_SYN_N 5) val) s = exec (.syn5RatioWrite t val) s)
  ∧ (∀ (s : State) (t k : Nat) (port : Port) (val : Word), (s.on t).start.resetLow = false → k < 48 →
      exec (.registerWrite t port (regOff .LN_OCT_CTRL k) val) s = exec (.lnOctCtrlWrite t k val) s)
  ∧ (∀ (s : State) (t n : Nat) (port : Port) (val : Word), (s.on t).start.resetLow = false → n < 16 →
      exec (.registerWrite t port (regOff .TB_CLASS n) val) s = exec (.tbClassWrite t n val) s)
  ∧ (∀ (s : State) (t r : Nat) (port : Port) (val : Word), (s.on t).start.resetLow = false → r < 16 →
      exec (.registerWrite t port (regOff .HIF_SVR_CFG (16 * port.id + r)) val) s
        = exec (.ringConfigWrite t port (regOff .HIF_SVR_CFG (16 * port.id + r) % 0x8000) val) s)

/-- Start-up (R378, R429, R470, R478, R486, R500, R521, R523, R542, R546): valid supplies capture the straps, begin start-up at t0 with
the ROM image in the working SRAM, train both stacks and move to phase 2 where XA is usable, else 1; with an erased Larder they count a
start and change nothing else; a profile pack whose magic is wrong is rejected on both planes; while RESET_N is low they only take the
supplies as valid; releasing RESET_N begins start-up in the same way, and where a page write is let finish, once it has. Points of
start-up, and values that no table states, are the model's (log 31 and 4). -/
def Obligations.StartUps : Prop :=
  (∀ (s : State) (t v : Nat) (d : Dev), d = s.on t → v < 64 → d.start.supplied = false → d.start.resetLow = false →
    d.ldr.ending = false →
    RunsMem (.suppliesValid t v) s fun m d' =>
      m = { s.mem with sram := s.mem.sram.filter fun c => decide (0x40000 ≤ c.1) }
      ∧ d'.start.supplied = true ∧ d'.start.railOut = [] ∧ d'.rd F.GLB_SUPPLY_in_window = 255 ∧ Boots d d' v)
  ∧ (∀ (s : State) (t v : Nat) (d : Dev), d = s.on t → v < 64 → d.start.supplied = false → d.start.resetLow = false →
      d.ldr.ending = false → d.ldr.torn = [] → s.mem.larder = [] →
      RunsMem (.suppliesValid t v) s fun _ d' =>
        d'.ldr.counts = d.ldr.counts.modify 1 (fun c => (c + 1) % 2 ^ 32) ∧ d'.flag F.GLB_START_journal_valid = d.flag F.GLB_START_journal_valid
        ∧ (∀ p : Plane, d'.plane p = { d.plane p with training := true }) ∧ Keeps bootAreas bootRegs d d')
  ∧ (∀ (s : State) (t v : Nat) (h : List Byte) (d : Dev), d = s.on t → v < 64 → d.start.supplied = false → d.start.resetLow = false →
      d.ldr.ending = false → d.ldr.torn = [] → h = Memory.readN 0xFF#8 s.mem.larder 0x168000 32 →
      fieldAt h 0 4 ≠ 0xFFFFFFFF → fieldAt h 0 4 ≠ 0x4B505447 →
      RunsMem (.suppliesValid t v) s fun _ d' => ∀ p : Plane, d'.flag F.GE_STATUS_pack_rejected p.id = true)
  ∧ (∀ (s : State) (t v : Nat) (d : Dev), d = s.on t → v < 64 → d.start.supplied = false → d.start.resetLow = true →
      RunsMem (.suppliesValid t v) s fun m d' =>
        m = { s.mem with sram := s.mem.sram.filter fun c => decide (0x40000 ≤ c.1) }
        ∧ d'.start = { d.start with supplied := true, railOut := [] }
        ∧ d'.reg .GLB_SUPPLY 0 = F.GLB_SUPPLY_in_window.put (d.reg .GLB_SUPPLY 0) 255 ∧ Keeps [.start] [.GLB_SUPPLY] d d')
  ∧ (∀ (s : State) (t v : Nat), v < 64 → (s.on t).start.supplied = true → OnlyTime (.suppliesValid t v) s t)
  ∧ (∀ (s : State) (t v : Nat) (d : Dev), d = s.on t → v < 64 → d.start.resetLow = true → d.start.supplied = true →
      d.ldr.ending = false →
      RunsMem (.resetRelease t v) s fun m d' =>
        m = { s.mem with sram := s.mem.sram.filter fun c => decide (0x40000 ≤ c.1) } ∧ d'.start.resetLow = false ∧ Boots d d' v)
  ∧ (∀ (s : State) (t v : Nat) (d : Dev), d = s.on t → v < 64 → d.start.resetLow = true → d.start.supplied = true →
      d.ldr.ending = true →
      RunsMem (.resetRelease t v) s fun _ d' =>
        d'.start.resetLow = false ∧ d'.start.booted = true ∧ d'.start.bootDue = true ∧ d'.start.t0 = d.now
        ∧ d'.rd F.GLB_START_xadly = v % 8 ∧ d'.flag F.GLB_START_boothold = bitOf v 4 ∧ d'.ldr = d.ldr
        ∧ Keeps [.start, .ports] [.GLB_START, .HIF_PORT_STATUS, .CMX_RMB_STATUS] d d')
  ∧ (∀ (s : State) (t pg : Nat) (d : Dev), d = s.on t → d.ldr.page = some pg → d.ldr.ending = true → d.start.bootDue = true →
      RunsMem (.larderPageWriteDone t true) s fun m d' =>
        Programmed d { s.mem with sram := s.mem.sram.filter fun c => decide (0x40000 ≤ c.1) } m pg ∧ d'.ldr.page = none
        ∧ d'.start.bootDue = false ∧ (d'.plane .a).training = true ∧ (d'.plane .b).training = true
        ∧ d'.flag F.CMX_CTRL_remap = true ∧ d'.rd F.GLB_START_phase = if d.xaOk then 2 else 1)
  ∧ (∀ (s : State) (t v : Nat) (d : Dev), d = s.on t → v < 64 → d.start.resetLow = true → d.start.supplied = false →
      RunsMem (.resetRelease t v) s fun m d' =>
        m = { s.mem with sram := s.mem.sram.filter fun c => decide (0x40000 ≤ c.1) }
        ∧ d'.start = { d.start with resetLow := false } ∧ Keeps [.start] [] d d')
  ∧ (∀ (s : State) (t v : Nat), v < 64 → (s.on t).start.resetLow = false → OnlyTime (.resetRelease t v) s t)

/-- Resets (R14, R478, R481, R522, R540, R546): a RESET_N pulse of 1 us or more puts every register but the supply
monitors', the Larder's, the straps and the port status at its reset value, empties the lanes, outputs, rings, the Hamper stacks
and the working SRAM, releases the pins and leaves the Larder, whose page under write goes on; a pulse shorter than 100 ns changes
nothing, and one between the two does one or the other; a brown-out resets and tears the page under write as Table 15-1 says.

Rails and stack training (R320, R478, R522): a rail that leaves its window after t0 shows in GLB_SUPPLY and is
counted, and one that returns shows again and lets page writes start; a trained stack with at most four quarantined pseudo-channels
takes the mask and the tokens that remain, and with more its plane is faulted. Points of resets, and values that no table states,
are the model's (log 31 and 4). -/
def Obligations.ResetsAndSupplies : Prop :=
  (∀ (s : State) (t low : Nat) (d : Dev), d = s.on t → 1000 ≤ low →
    RunsMem (.resetAssert t low) s fun m d' =>
      IsReset s.mem m d d' ∧ d'.start.resetLow = true ∧ d'.start.supplied = d.start.supplied
      ∧ d'.reg .GLB_SUPPLY 0 = d.reg .GLB_SUPPLY 0 ∧ d'.ldr.page = d.ldr.page ∧ d'.ldr.image = d.ldr.image ∧ d'.ldr.queue = []
      ∧ d'.ldr.ending = d.ldr.page.isSome)
  ∧ (∀ (s : State) (t low : Nat), low < 100 → OnlyTime (.resetAssert t low) s t)
  ∧ (∀ (s : State) (t low : Nat) (d : Dev), d = s.on t → 100 ≤ low → low < 1000 →
      RunsMem (.resetAssert t low) s fun m d' =>
        (m = s.mem ∧ Keeps [.free] [] d d') ∨ (IsReset s.mem m d d' ∧ d'.start.resetLow = true))
  ∧ (∀ (s : State) (t rail : Nat) (aon : Bool) (stage : TornStage) (d : Dev), d = s.on t → stageOk stage = true → BrownsOut d rail →
      d.ldr.page = none →
      RunsMem (.brownOut t aon stage) s fun m d' =>
        IsReset s.mem m d d' ∧ d'.start.supplied = false ∧ d'.flag F.GLB_START_brownout = (aon && !d.start.railOut.contains 2))
  ∧ (∀ (s : State) (t rail pg : Nat) (aon : Bool) (stage : TornStage) (old : List Byte) (d : Dev), d = s.on t → stageOk stage = true →
      BrownsOut d rail → d.ldr.page = some pg → d.ldr.image.length = 256 →
      old = (d.ldrRead s.mem.larder (256 * pg) 256).1 →
      RunsMem (.brownOut t aon stage) s fun m d' =>
        (∀ a, a / 256 ≠ pg → Memory.read 0xFF#8 m.larder a = Memory.read 0xFF#8 s.mem.larder a)
        ∧ (stage = .beforeErase → (∀ a, Memory.read 0xFF#8 m.larder a = Memory.read 0xFF#8 s.mem.larder a)
            ∧ d'.ldr.torn = d.ldr.torn)
        ∧ (stage = .duringErase → ∀ k, k < 256 → Memory.read 0xFF#8 m.larder (256 * pg + k) = old.getD k 0#8
            ∧ (256 * pg + k, 1) ∈ d'.ldr.torn)
        ∧ (∀ w, stage = .programming w →
            (∀ k, k < 8 * (w + 1) → Memory.read 0xFF#8 m.larder (256 * pg + k) = d.ldr.image.getD k 0xFF#8)
            ∧ (∀ k, 8 * (w + 1) ≤ k → k < 256 → Memory.read 0xFF#8 m.larder (256 * pg + k) = 0xFF#8)
            ∧ (∀ k, k < 8 → (256 * pg + 8 * w + k, 1) ∈ d'.ldr.torn)
            ∧ (∀ k, k < 256 → k / 8 ≠ w → ∀ z, z ∈ d'.ldr.torn → ¬ (z.1 ≤ 256 * pg + k ∧ 256 * pg + k < z.1 + z.2)))
        ∧ (stage = .programmed → ∀ k, k < 256 → Memory.read 0xFF#8 m.larder (256 * pg + k) = d.ldr.image.getD k 0xFF#8
            ∧ ∀ z, z ∈ d'.ldr.torn → ¬ (z.1 ≤ 256 * pg + k ∧ 256 * pg + k < z.1 + z.2))
        ∧ IsReset { s.mem with larder := m.larder } m d d' ∧ d'.ldr.page = none ∧ d'.start.supplied = false)
  ∧ (∀ (s : State) (t : Nat) (aon : Bool) (stage : TornStage) (d : Dev), d = s.on t → stageOk stage = true →
      (∀ r, r ∈ d.start.railOut → d.now < Tbl.get 0 d.start.railAt r + 48 * usU) → OnlyTime (.brownOut t aon stage) s t)
  ∧ (∀ (s : State) (t rail : Nat) (d : Dev), d = s.on t → rail < 8 → d.start.supplied = true → d.start.resetLow = false →
    Runs (.railDeparture t rail) s fun d' =>
      d'.bitAt F.GLB_SUPPLY_in_window rail = false ∧ d'.bitAt F.GLB_SUPPLY_left rail = true
      ∧ d'.rd F.GLB_SUPPLY_departures = min (d.rd F.GLB_SUPPLY_departures + 1) 255
      ∧ (∀ j, j < 8 → j ≠ rail → d'.bitAt F.GLB_SUPPLY_in_window j = d.bitAt F.GLB_SUPPLY_in_window j
          ∧ d'.bitAt F.GLB_SUPPLY_left j = d.bitAt F.GLB_SUPPLY_left j)
      ∧ d'.start = { d.start with railOut := setInsert rail d.start.railOut, railAt := d'.start.railAt }
      ∧ (∀ j, j < 8 → Tbl.get 0 d'.start.railAt j = if j = rail then d.now else Tbl.get 0 d.start.railAt j)
      ∧ Keeps (.start :: evAreas) (.GLB_SUPPLY :: evRegs) d d')
  ∧ (∀ (s : State) (t rail : Nat) (d : Dev), d = s.on t → rail < 8 → d.start.supplied = false ∨ d.start.resetLow = true →
      Runs (.railDeparture t rail) s fun d' =>
        d'.bitAt F.GLB_SUPPLY_in_window rail = false ∧ rail ∈ d'.start.railOut
        ∧ d'.bitAt F.GLB_SUPPLY_left rail = (d.start.supplied || d.bitAt F.GLB_SUPPLY_left rail)
        ∧ (d.start.supplied = false → rail = 2 → d'.flag F.GLB_START_brownout = false)
        ∧ (d.start.supplied = true ∨ rail ≠ 2 → d'.reg .GLB_START 0 = d.reg .GLB_START 0)
        ∧ Keeps [.start] [.GLB_SUPPLY, .GLB_START] d d')
  ∧ (∀ (s : State) (t rail : Nat) (d : Dev), d = s.on t → rail < 8 → d.ldr.nextCmd = none →
      Runs (.railReturn t rail) s fun d' =>
        d'.reg .GLB_SUPPLY 0 = (d.setBit F.GLB_SUPPLY_in_window rail true).reg .GLB_SUPPLY 0
        ∧ d'.bitAt F.GLB_SUPPLY_in_window rail = true
        ∧ d'.start = { d.start with railOut := d.start.railOut.filter (· != rail) } ∧ Keeps [.start] [.GLB_SUPPLY] d d')
  ∧ (∀ (s : State) (t rail : Nat) (c : LdrCmd) (d : Dev), d = s.on t → rail < 8 → d.ldr.nextCmd = some c → d.ldr.page = none →
      d.ldr.ending = false → (∀ r, r ∈ d.start.railOut → r = rail) →
      Runs (.railReturn t rail) s fun d' =>
        d'.bitAt F.GLB_SUPPLY_in_window rail = true ∧ d'.start = { d.start with railOut := [] }
        ∧ ServesNext d d' s.mem.larder d.ldr.queue ∧ Keeps [.start, .ldr, .free] [.GLB_SUPPLY, .LDR_STATUS] d d')
  ∧ (∀ (s : State) (t : Nat) (p : Plane) (failed : Word) (d : Dev), d = (s.on t).landDue →
      ((s.on t).plane p).training = true → ((List.range 32).filter fun q => bitOf failed.toNat q).length ≤ 4 →
      Runs (.stackTrainDone t p failed) s fun d' =>
        (d'.plane p).training = false ∧ d'.flag F.HAM_STATUS_trained p.id = true ∧ d'.rd F.HAM_QUAR_pc_mask p.id = failed.toNat
        ∧ d'.rd F.HAM_TOKENS_total p.id
            = (51200 - 1600 * ((List.range 32).filter fun q => bitOf failed.toNat q).length) % 2 ^ F.HAM_TOKENS_total.width
        ∧ d'.plane p.other = d.plane p.other
        ∧ KeepsOthers .HAM_STATUS p.id d d' ∧ KeepsOthers .HAM_QUAR p.id d d'
        ∧ Keeps (.planes :: evAreas) (.HAM_QUAR :: .HAM_STATUS :: .HAM_POOL :: .HAM_TOKENS :: evRegs) d d')
  ∧ (∀ (s : State) (t : Nat) (p : Plane) (failed : Word), ((s.on t).plane p).training = true →
      4 < ((List.range 32).filter fun q => bitOf failed.toNat q).length →
      Runs (.stackTrainDone t p failed) s fun d' =>
        (d'.plane p).training = false ∧ d'.plState p = 1 ∧ d'.rd F.PL_STATUS_cause p.id = 5
        ∧ d'.rd F.HAM_QUAR_pc_mask p.id = failed.toNat)
  ∧ (∀ (s : State) (t : Nat) (p : Plane) (failed : Word), ((s.on t).plane p).training = false →
      OnlyTime (.stackTrainDone t p failed) s t)

/-- Restore and readiness (R90, R94, R524 to R528): BOOTHOLD restores nothing; a replayed OUTPUT entry gives its output the raster,
the plane mode and the routes it records, and is counted, unless its class does not run its format; an AUDIO entry gives its
destinations their entries, a REG entry its register its value where the Reset column reads hw; READY or HELD follows the last
restored raster; 30 s later the grace period closes. Points of the replay and of start-up are the model's reading (log 30 and 31). -/
def Obligations.Readiness : Prop :=
  (∀ (s : State) (t : Nat) (d : Dev), d = s.on t → d.rd F.GLB_START_phase = 2 → (d.plane .a).training = false →
    (d.plane .b).training = false → d.flag F.GLB_START_boothold = true →
    Runs (.restore t) s fun d' =>
      d'.reg .GLB_START 0 = F.GLB_START_phase.put (d.reg .GLB_START 0) 3 ∧ d'.start = { d.start with shadow := [] }
      ∧ Keeps [.start] [.GLB_START] d d')
  ∧ (∀ (s : State) (t : Nat) (d : Dev), d = s.on t →
      d.rd F.GLB_START_phase ≠ 2 ∨ (d.plane .a).training = true ∨ (d.plane .b).training = true → OnlyTime (.restore t) s t)
  ∧ (∀ (s : State) (t o : Nat) (e : List Byte) (d : Dev), d = s.on t → Restores d →
      d.start.shadow = [(1, o, e)] → jFmt.of e ≠ 0 → d.clsOn (jCls.of e) = true → fmtOk (jFmt.of e) = true →
      d.fmtFits (jFmt.of e) (jCls.of e) = true → d.rd F.GLB_READY_restored < 2047 →
      Runs (.restore t) s fun d' =>
        d'.rd F.GLB_START_phase = 3 ∧ d'.rd F.GLB_READY_restored = d.rd F.GLB_READY_restored + 1
        ∧ (d'.out o).raster = some { cls := jCls.of e, fmt := jFmt.of e, off := toInt 32 (jOff.of e) }
        ∧ (d'.out o).mode = (if jMode.of e = 3 then 0 else jMode.of e) ∧ (d'.out o).preferred = Plane.ofId (jPref.of e)
        ∧ (d'.out o).cct = jForm.of e ∧ (d'.out o).matchLine = jMatch.of e
        ∧ (∀ p, d.inService p = true →
            (d'.op o p).active.kind = jKind.of e ∧ (d'.op o p).active.src = jSrc.of e
            ∧ (jKind.of e ≠ 3 ∨ p = .a ∨ jMode.of e = 1 ∨ jMode.of e = 2 ∨ isConv (jChan.of e) = false →
                (d'.op o p).active.chan = jChan.of e)
            ∧ (jKind.of e = 3 → p = .b → jMode.of e = 0 → isConv (jChan.of e) = true →
                (d'.op o p).active.chan = jChan.of e + 96))
        ∧ (∀ p, d.inService p = false → d'.op o p = d.op o p)
        ∧ (∀ k, k ≠ o → d'.out k = d.out k) ∧ Keeps [.start, .planes, .outs] [.GLB_START, .GLB_READY] d d')
  ∧ (∀ (s : State) (t o : Nat) (e : List Byte) (d : Dev), d = s.on t → Restores d → d.start.shadow = [(1, o, e)] →
      jFmt.of e ≠ 0 → d.clsOn (jCls.of e) = false ∨ fmtOk (jFmt.of e) = false ∨ d.fmtFits (jFmt.of e) (jCls.of e) = false →
      Runs (.restore t) s fun d' =>
        d'.rd F.GLB_START_phase = 3 ∧ d'.outs = d.outs ∧ d'.start = { d.start with shadow := [] }
        ∧ Keeps [.start, .planes] [.GLB_START] d d')
  ∧ (∀ (s : State) (t key : Nat) (e : List Byte) (d : Dev), d = s.on t → Restores d → d.start.shadow = [(2, key, e)] →
      Runs (.restore t) s fun d' =>
        (∀ p, d.inService p = true → ∀ j, j < 4 →
          ((d'.dest p (4 * key + j)).now.entry = { src := (jASrc j).of e, mute := (jAMute j).on e, invert := (jAInvert j).on e
                                                   gain := (jAGain j).of e, xfade := (jAXfade j).of e }))
        ∧ (∀ p, ∀ j, j < 18432 → j / 4 ≠ key → (d'.dest p j).now.entry = (d.dest p j).now.entry)
        ∧ d'.rd F.GLB_START_phase = 3 ∧ Keeps [.start, .planes] [.GLB_START] d d')
  ∧ (∀ (s : State) (t off i : Nat) (r : RegName) (e : List Byte) (d : Dev), d = s.on t → Restores d →
      d.start.shadow = [(5, off, e)] → regAt off = some (r, i) → i < 65536 → r.hwReset = true → r ∉ commandRegs →
      Runs (.restore t) s fun d' =>
        d'.reg r i = r.written (d.lockedAt (regOff r i)) (d.reg r i) (BitVec.ofNat 32 (jRegVal.of e)) (d.newBits r i)
        ∧ d'.rd F.GLB_START_phase = 3 ∧ KeepsOthers r i d d' ∧ Keeps [.start, .planes] [r, .GLB_START] d d')
  ∧ (∀ (s : State) (t off i : Nat) (r : RegName) (e : List Byte) (d : Dev), d = s.on t → Restores d →
      d.start.shadow = [(5, off, e)] → regAt off = some (r, i) → r.hwReset = false →
      Runs (.restore t) s fun d' =>
        d'.reg .GLB_START 0 = F.GLB_START_phase.put (d.reg .GLB_START 0) 3 ∧ Keeps [.start, .planes] [.GLB_START] d d')
  ∧ (∀ (s : State) (t : Nat) (d : Dev), d = s.on t → d.rd F.GLB_START_phase = 3 →
      (∀ x, x ∈ d.outs → x.2.raster.isSome = true → x.2.after ≤ d.epoch) →
      Runs (.ready t) s fun d' =>
        d'.rd F.GLB_START_phase = (if d.flag F.GLB_START_boothold then 5 else 4)
        ∧ d'.rd F.GLB_READY_ms = (d.now - d.start.t0) / msU % 65536 ∧ d'.flag F.TB_STATUS_grace_open = true
        ∧ d'.start = { d.start with readyAt := d.now }
        ∧ Keeps (.start :: .svr :: .order :: evAreas) (.GLB_START :: .GLB_READY :: .TB_STATUS :: evRegs) d d')
  ∧ (∀ (s : State) (t : Nat) (d : Dev), d = s.on t →
      d.rd F.GLB_START_phase ≠ 3 ∨ d.outs.any (fun x => x.2.raster.isSome && decide (d.epoch < x.2.after)) = true →
      OnlyTime (.ready t) s t)
  ∧ (∀ (s : State) (t : Nat) (d : Dev), d = s.on t → d.flag F.TB_STATUS_grace_open = true →
      d.start.readyAt + 30 * secU ≤ d.now →
      Runs (.graceClosed t) s fun d' =>
        d'.reg .TB_STATUS 0 = F.TB_STATUS_grace_open.put (d.reg .TB_STATUS 0) 0 ∧ d'.tim = { d.tim with jumpOpen := false }
        ∧ Keeps (.tim :: evAreas) (.TB_STATUS :: evRegs) d d')
  ∧ (∀ (s : State) (t : Nat) (d : Dev), d = s.on t → d.flag F.TB_STATUS_grace_open = false ∨ d.now < d.start.readyAt + 30 * secU →
      OnlyTime (.graceClosed t) s t)

/-! ### Heat and pins (chapters 17, 18) -/

/-- Thermal steps (R446, R486, R531 to R533, R537, Table 17-5): each reading updates GLB_THERM whole; ALERT_N goes low at
100 degrees, profiles step down on both planes at 110, the safe state comes at 120 or from the comparator; each
action ends on its own condition, the safe state only where no clock trigger stands. Points of the thermal monitor are the model's reading (log 36). -/
def Obligations.ThermalSteps : Prop :=
  (∀ (s : State) (t tj : Nat) (al st : Bool) (d : Dev), d = s.on t → d.start.booted = true →
    al = (d.start.therm.alert || decide (100 ≤ tj)) → st = (d.start.therm.step || decide (110 ≤ tj)) →
    tj < 120 ∨ d.start.therm.safe = true →
    Runs (.thermalSample t tj) s fun d' =>
      Heated d d' tj al st d.start.therm.safe
      ∧ (al = true → d.start.therm.alert = false → Emission.alert true ∈ d'.emitted
          ∧ d'.rd F.GLB_THERM_CNT_alerts = min (d.rd F.GLB_THERM_CNT_alerts + 1) 65535)
      ∧ (al = d.start.therm.alert → d'.rd F.GLB_THERM_CNT_alerts = d.rd F.GLB_THERM_CNT_alerts)
      ∧ (st = true → d.start.therm.step = false → (∀ p : Plane, d'.flag F.GE_STATUS_stepped p.id = true)
          ∧ d'.rd F.GLB_THERM_CNT_steps = min (d.rd F.GLB_THERM_CNT_steps + 1) 65535)
      ∧ (st = d.start.therm.step → d'.rd F.GLB_THERM_CNT_steps = d.rd F.GLB_THERM_CNT_steps
          ∧ ∀ p : Plane, d'.reg .GE_STATUS p.id = d.reg .GE_STATUS p.id)
      ∧ (al = d.start.therm.alert → st = d.start.therm.step → Keeps [.start, .ldr] [.GLB_THERM] d d')
      ∧ Keeps (.start :: evAreas) (.GLB_THERM :: .GLB_THERM_CNT :: .GE_STATUS :: evRegs) d d')
  ∧ (∀ (s : State) (t tj : Nat) (d : Dev), d = s.on t → d.start.booted = true → 120 ≤ tj → d.start.therm.safe = false →
      d.flag F.CLK_STATUS_safe = false →
      Runs (.thermalSample t tj) s fun d' =>
        Heated d d' tj true true true ∧ EntersSafe d d' 4 [.start] [.GLB_THERM, .GLB_THERM_CNT, .GE_STATUS]
        ∧ (d.start.therm.alert = false → Emission.alert true ∈ d'.emitted)
        ∧ (d.start.therm.step = false → ∀ p : Plane, d'.flag F.GE_STATUS_stepped p.id = true))
  ∧ (∀ (s : State) (t tj : Nat) (d : Dev), d = s.on t → d.start.booted = true → 120 ≤ tj → d.start.therm.safe = false →
      d.flag F.CLK_STATUS_safe = true →
      Runs (.thermalSample t tj) s fun d' =>
        Heated d d' tj true true true ∧ CountsTrigger d d' 4 (.start :: evAreas) (.GLB_THERM :: .GLB_THERM_CNT :: .GE_STATUS :: evRegs))
  ∧ (∀ (s : State) (t : Nat) (d : Dev), d = s.on t → d.start.booted = true → d.start.therm.safe = false →
      d.flag F.CLK_STATUS_safe = false →
      Runs (.thermalTrip120 t) s fun d' =>
        d'.start = { d.start with therm := { d.start.therm with safe := true, below105 := none } }
        ∧ d'.rd F.GLB_THERM_CNT_steps = min (d.rd F.GLB_THERM_CNT_steps + 1) 65535 ∧ EntersSafe d d' 4 [.start] [.GLB_THERM_CNT])
  ∧ (∀ (s : State) (t : Nat) (d : Dev), d = s.on t → d.start.booted = true → d.start.therm.safe = false →
      d.flag F.CLK_STATUS_safe = true →
      Runs (.thermalTrip120 t) s fun d' =>
        d'.start = { d.start with therm := { d.start.therm with safe := true, below105 := none } }
        ∧ CountsTrigger d d' 4 (.start :: evAreas) (.GLB_THERM_CNT :: evRegs))
  ∧ (∀ (s : State) (t : Nat), (s.on t).start.booted = false ∨ (s.on t).start.therm.safe = true → OnlyTime (.thermalTrip120 t) s t)
  ∧ (∀ (s : State) (t tj : Nat), (s.on t).start.booted = false → OnlyTime (.thermalSample t tj) s t)
  ∧ (∀ (s : State) (t : Nat) (d : Dev), d = s.on t → d.start.therm.alert = true → HeldFor d secU d.start.therm.below95 →
      ¬ HeldFor d (10 * secU) d.start.therm.below105 →
      Runs (.thermalStepLeave t) s fun d' =>
        d'.start = { d.start with therm := { d.start.therm with alert := false } }
        ∧ d'.emitted = Emission.alert false :: d.emitted ∧ Keeps [.start, .emitted] [] d d')
  ∧ (∀ (s : State) (t : Nat) (d : Dev), d = s.on t → HeldFor d (10 * secU) d.start.therm.below105 →
      d.flag F.CLK_STATUS_safe = false ∨ (∃ c, c ∈ d.clk.triggers ∧ c ≠ 4) →
      Runs (.thermalStepLeave t) s fun d' =>
        d'.start.therm.step = false ∧ d'.start.therm.safe = false
        ∧ (d.start.therm.step = true → ∀ p : Plane, d'.flag F.GE_STATUS_stepped p.id = false)
        ∧ (d.start.therm.step = false → ∀ p : Plane, d'.reg .GE_STATUS p.id = d.reg .GE_STATUS p.id)
        ∧ (HeldFor d secU d.start.therm.below95 → d'.start.therm.alert = false)
        ∧ (¬ HeldFor d secU d.start.therm.below95 → d'.start.therm.alert = d.start.therm.alert)
        ∧ d'.clk = { d.clk with triggers := d.clk.triggers.filter (fun c => c != 4) }
        ∧ Keeps (.start :: .clk :: evAreas) (.GE_STATUS :: evRegs) d d')
  ∧ (∀ (s : State) (t : Nat) (d : Dev), d = s.on t → HeldFor d (10 * secU) d.start.therm.below105 →
      d.flag F.CLK_STATUS_safe = true → (∀ c, c ∈ d.clk.triggers → c = 4) →
      Runs (.thermalStepLeave t) s fun d' =>
        d'.flag F.CLK_STATUS_safe = false ∧ d'.start.therm.step = false ∧ d'.start.therm.safe = false ∧ d'.clk.triggers = []
        ∧ (∀ p, d.lsState p ≠ 0 → d'.lsState p = 1 ∧ d'.lsOnXb p = !d.xaOk) ∧ (∀ p, (d'.tb p).stepNext = true)
        ∧ Emission.lockPins false ∈ d'.emitted
        ∧ Keeps (.start :: .clk :: .tim :: .lanes :: .ins :: evAreas)
            (.CLK_STATUS :: .GLB_START :: .GE_STATUS :: .LN_STATUS :: .LN_BRZ_STATUS :: evRegs) d d')
  ∧ (∀ (s : State) (t : Nat) (d : Dev), d = s.on t → d.start.therm.alert = false ∨ ¬ HeldFor d secU d.start.therm.below95 →
      ¬ HeldFor d (10 * secU) d.start.therm.below105 → OnlyTime (.thermalStepLeave t) s t)

/-- SMBus and TAP (R548, R550, Table 18-4): a Block Read of a code of Table 18-4 returns the count 4, the value,
least significant byte first, and a PEC where one is clocked; another code, or a read before t0, is not
acknowledged; a time-out resets the interface; the TAP offers its four instructions, which reach no register. The
PEC and the TAP's independence of RESET_N are presumed from their standards (log 37). -/
def Obligations.SmbusAndTap : Prop :=
  (∀ (s : State) (t code : Nat) (pec : Bool) (w : Word) (d : Dev), d = s.on t → d.start.supplied = true →
    (code = 0 ∧ w = 0x4F4C1152#32 ∨ code = 1 ∧ w = d.readReg .GLB_START 0 ∨ code = 2 ∧ w = d.readReg .GLB_READY 0
      ∨ code = 3 ∧ w = d.readReg .GLB_SUPPLY 0 ∨ code = 4 ∧ w = d.readReg .GLB_THERM 0
      ∨ code = 5 ∧ w = d.readReg .GLB_THERM_CNT 0 ∨ code = 6 ∧ w = d.readReg .CLK_STATUS 0
      ∨ code = 7 ∧ w = d.readReg .PL_STATUS 0 ∨ code = 8 ∧ w = d.readReg .PL_STATUS 1 ∨ code = 9 ∧ w = d.readReg .SEL_STATUS 0) →
    Runs (.smbusBlockRead t code pec) s fun d' =>
      ∃ bs, d'.emitted = Emission.smbus bs :: d.emitted ∧ bs.take 5 = 4#8 :: wordBytes w
        ∧ bs.drop 5 = (if pec then le 1 (crc8 (0xB4#8 :: le 1 code ++ 0xB5#8 :: 4#8 :: wordBytes w)) else [])
        ∧ d'.start = { d.start with smbBytes := bs } ∧ Keeps [.emitted, .start] [] d d')
  ∧ (∀ (s : State) (t code : Nat) (pec : Bool), 9 < code ∨ (s.on t).start.supplied = false →
      OnlyTime (.smbusBlockRead t code pec) s t)
  ∧ (∀ (s : State) (t : Nat) (d : Dev), d = s.on t →
      Runs (.smbusTimeout t) s fun d' => d'.start = { d.start with smbBytes := [] } ∧ Keeps [.start] [] d d')
  ∧ (∀ (s : State) (t : Nat) (d : Dev), d = s.on t →
      Runs (.bypass t) s fun d' => d'.start = { d.start with tap := 3 } ∧ Keeps [.start] [] d d')
  ∧ (∀ (s : State) (t : Nat) (d : Dev), d = s.on t →
      Runs (.idcode t) s fun d' =>
        d'.start = { d.start with tap := 1 }
        ∧ (∃ bits, d'.emitted = Emission.jtag bits :: d.emitted ∧ bits.length = 32
            ∧ ∀ k, k < 32 → bits.getD k false = bitOf 0x111520F3 k)
        ∧ Keeps [.start, .emitted] [] d d')
  ∧ (∀ (s : State) (t : Nat) (pins load : List Bool) (d : Dev), d = s.on t →
      Runs (.samplePreload t pins load) s fun d' =>
        (∃ out, d'.emitted = Emission.jtag out :: d.emitted ∧ out ++ d'.start.boundary = pins ++ load
          ∧ out.length = load.length)
        ∧ d'.start = { d.start with tap := 2, boundary := d'.start.boundary } ∧ Keeps [.start, .emitted] [] d d')
  ∧ (∀ (s : State) (t : Nat) (d : Dev), d = s.on t →
      Runs (.extest t) s fun d' =>
        d'.start = { d.start with tap := 0 } ∧ d'.emitted = Emission.pins d.start.boundary :: d.emitted
        ∧ Keeps [.start, .emitted] [] d d')
end

