-- ==== Sys2Proof/Laws/Tables.lean ====
section
/-! SUPPORT. Laws of the canonical tables and of the addressed memories: what a lookup answers after a
write, and that every operation keeps the canonical form. -/

namespace Sys2Proof.Machine

theorem Tbl.get_erase_self {V : Type} (d : V) (t : Tbl V) (k : Nat) : Tbl.get d (Tbl.erase k t) k = d := by
  induction t with
  | nil => rfl
  | cons x t ih => by_cases h : k = x.1 <;> simp [Tbl.erase, Tbl.get, h] <;> simpa [h] using ih

theorem Tbl.get_erase_ne {V : Type} (d : V) (t : Tbl V) {k j : Nat} (h : j ≠ k) :
    Tbl.get d (Tbl.erase k t) j = Tbl.get d t j := by
  induction t with
  | nil => rfl
  | cons x t ih =>
    by_cases hk : k = x.1
    · have : j ≠ x.1 := by omega
      simp [Tbl.erase, Tbl.get, hk, this]; simpa [hk] using ih
    · simp [Tbl.erase, Tbl.get, hk, ih]

/-- In a table that does not list `k`, an inserted `k` is the one that a lookup finds. -/
theorem Tbl.get_insert_erase_self {V : Type} (d : V) (t : Tbl V) (k : Nat) (v : V) :
    Tbl.get d (Tbl.insert k v (Tbl.erase k t)) k = v := by
  induction t with
  | nil => simp [Tbl.erase, Tbl.insert, Tbl.get]
  | cons x t ih =>
    by_cases hk : k = x.1
    · simpa [Tbl.erase, hk] using (by simpa [hk] using ih)
    · by_cases hl : k < x.1 <;> simp [Tbl.erase, Tbl.insert, Tbl.get, hk, hl, ih]

theorem Tbl.get_insert_ne {V : Type} (d : V) (t : Tbl V) (v : V) {k j : Nat} (h : j ≠ k) :
    Tbl.get d (Tbl.insert k v t) j = Tbl.get d t j := by
  induction t with
  | nil => simp [Tbl.insert, Tbl.get, h]
  | cons x t ih => by_cases hl : k < x.1 <;> simp [Tbl.insert, Tbl.get, hl, h, ih]

/-- A write is what a lookup of the same key answers. -/
@[simp] theorem Tbl.get_set_self {V : Type} [DecidableEq V] (d : V) (t : Tbl V) (k : Nat) (v : V) :
    Tbl.get d (Tbl.set d t k v) k = v := by
  unfold Tbl.set; split
  · next h => rw [Tbl.get_erase_self, h]
  · exact Tbl.get_insert_erase_self d t k v

/-- A write leaves every other key alone. -/
theorem Tbl.get_set_ne {V : Type} [DecidableEq V] (d e : V) (t : Tbl V) (v : V) {k j : Nat} (h : j ≠ k) :
    Tbl.get e (Tbl.set d t k v) j = Tbl.get e t j := by
  unfold Tbl.set; split
  · exact Tbl.get_erase_ne e t h
  · rw [Tbl.get_insert_ne e _ v h, Tbl.get_erase_ne e t h]

@[simp] theorem Tbl.get_mod_self {V : Type} [DecidableEq V] (d : V) (t : Tbl V) (k : Nat) (f : V → V) :
    Tbl.get d (Tbl.mod d t k f) k = f (Tbl.get d t k) := Tbl.get_set_self d t k _

theorem Tbl.get_mod_ne {V : Type} [DecidableEq V] (d : V) (t : Tbl V) (f : V → V) {k j : Nat} (h : j ≠ k) :
    Tbl.get d (Tbl.mod d t k f) j = Tbl.get d t j := Tbl.get_set_ne d d t _ h

theorem Tbl.wfFrom_mono {V : Type} [DecidableEq V] (d : V) (t : Tbl V) {a b : Nat} (h : a ≤ b)
    (ht : Tbl.wfFrom d b t = true) : Tbl.wfFrom d a t = true := by
  cases t with
  | nil => rfl
  | cons x t => simp [Tbl.wfFrom] at ht ⊢; exact ⟨⟨by omega, ht.1.2⟩, ht.2⟩

theorem Tbl.erase_wfFrom {V : Type} [DecidableEq V] (d : V) (t : Tbl V) (k lo : Nat)
    (h : Tbl.wfFrom d lo t = true) : Tbl.wfFrom d lo (Tbl.erase k t) = true := by
  induction t generalizing lo with
  | nil => rfl
  | cons x t ih =>
    simp only [Tbl.wfFrom, Bool.and_eq_true, decide_eq_true_eq] at h
    by_cases hk : k = x.1
    · simp only [Tbl.erase, hk, if_true]
      exact hk ▸ ih lo (Tbl.wfFrom_mono d t (by omega) h.2)
    · simp [Tbl.erase, hk, Tbl.wfFrom, h.1.1, h.1.2, ih _ h.2]

theorem Tbl.insert_wfFrom {V : Type} [DecidableEq V] (d : V) (t : Tbl V) (k lo : Nat) (v : V) (hv : v ≠ d)
    (hlo : lo ≤ k) (hk : ∀ x ∈ t, x.1 ≠ k) (h : Tbl.wfFrom d lo t = true) :
    Tbl.wfFrom d lo (Tbl.insert k v t) = true := by
  induction t generalizing lo with
  | nil => simp [Tbl.insert, Tbl.wfFrom, hv, hlo]
  | cons x t ih =>
    simp only [Tbl.wfFrom, Bool.and_eq_true, decide_eq_true_eq] at h
    have hx := hk x (by simp)
    by_cases hl : k < x.1
    · simp [Tbl.insert, hl, Tbl.wfFrom, hv, hlo, h.1.2, h.2] <;> omega
    · simp only [Tbl.insert, hl, if_false, Tbl.wfFrom, Bool.and_eq_true, decide_eq_true_eq]
      exact ⟨h.1, ih _ (by omega) (fun y hy => hk y (by simp [hy])) h.2⟩

theorem Tbl.not_mem_erase {V : Type} (t : Tbl V) (k : Nat) : ∀ x ∈ Tbl.erase k t, x.1 ≠ k := by
  induction t with
  | nil => simp [Tbl.erase]
  | cons y t ih =>
    by_cases hk : k = y.1
    · simpa [Tbl.erase, hk] using (by simpa [hk] using ih)
    · intro x hx
      simp [Tbl.erase, hk] at hx
      rcases hx with rfl | hx
      · exact fun h => hk h.symm
      · exact ih x hx

/-- A write keeps a table canonical. -/
theorem Tbl.set_wf {V : Type} [DecidableEq V] (d : V) (t : Tbl V) (k : Nat) (v : V) (h : Tbl.wf d t = true) :
    Tbl.wf d (Tbl.set d t k v) = true := by
  unfold Tbl.set Tbl.wf at *; split
  · exact Tbl.erase_wfFrom d t k 0 h
  · next hv => exact Tbl.insert_wfFrom d _ k 0 v hv (by omega) (Tbl.not_mem_erase t k) (Tbl.erase_wfFrom d t k 0 h)

theorem Tbl.mod_wf {V : Type} [DecidableEq V] (d : V) (t : Tbl V) (k : Nat) (f : V → V) (h : Tbl.wf d t = true) :
    Tbl.wf d (Tbl.mod d t k f) = true := Tbl.set_wf d t k _ h

/-! ### Memories -/

@[simp] theorem Memory.read_write_self (d : Byte) (m : Memory) (a : Nat) (b : Byte) :
    Memory.read d (Memory.write d m a b) a = b := Tbl.get_set_self d m a b

theorem Memory.read_write_ne (d : Byte) (m : Memory) (b : Byte) {a k : Nat} (h : k ≠ a) :
    Memory.read d (Memory.write d m a b) k = Memory.read d m k := Tbl.get_set_ne d d m b h

theorem Memory.read_writeN_outside (d : Byte) (m : Memory) (a : Nat) (bs : List Byte) (k : Nat)
    (h : k < a ∨ a + bs.length ≤ k) : Memory.read d (Memory.writeN d m a bs) k = Memory.read d m k := by
  induction bs generalizing m a with
  | nil => rfl
  | cons b bs ih =>
    simp only [List.length_cons] at h
    rw [Memory.writeN, ih _ _ (by omega), Memory.read_write_ne d m b (by omega)]

/-- What was written is what is read. -/
theorem Memory.read_writeN_inside (d : Byte) (m : Memory) (a : Nat) (bs : List Byte) (i : Nat) (h : i < bs.length) :
    Memory.read d (Memory.writeN d m a bs) (a + i) = bs[i] := by
  induction bs generalizing m a i with
  | nil => simp at h
  | cons b bs ih =>
    cases i with
    | zero => rw [Memory.writeN, Memory.read_writeN_outside d _ _ bs _ (by omega)]; simp
    | succ i =>
      have := ih (Memory.write d m a b) (a + 1) i (by simpa using h)
      rw [Memory.writeN, show a + (i + 1) = a + 1 + i by omega, this]; rfl

theorem Memory.write_wf (d : Byte) (m : Memory) (a : Nat) (b : Byte) (h : Memory.wf d m = true) :
    Memory.wf d (Memory.write d m a b) = true := Tbl.set_wf d m a b h

theorem Memory.writeN_wf (d : Byte) (m : Memory) (a : Nat) (bs : List Byte) (h : Memory.wf d m = true) :
    Memory.wf d (Memory.writeN d m a bs) = true := by
  induction bs generalizing m a with
  | nil => exact h
  | cons b bs ih => exact ih _ _ (Memory.write_wf d m a b h)

theorem Tbl.filter_wfFrom {V : Type} [DecidableEq V] (d : V) (t : Tbl V) (f : Nat × V → Bool) (lo : Nat)
    (h : Tbl.wfFrom d lo t = true) : Tbl.wfFrom d lo (List.filter f t) = true := by
  induction t generalizing lo with
  | nil => rfl
  | cons x t ih =>
    simp only [Tbl.wfFrom, Bool.and_eq_true, decide_eq_true_eq] at h
    by_cases hf : f x = true
    · simp [List.filter_cons, hf, Tbl.wfFrom, h.1.1, h.1.2, ih _ h.2]
    · simp only [List.filter_cons, hf]
      exact ih lo (Tbl.wfFrom_mono d t (by omega) h.2)

theorem Memory.clear_wf (d : Byte) (m : Memory) (a n : Nat) (h : Memory.wf d m = true) :
    Memory.wf d (Memory.clear a n m) = true := Tbl.filter_wfFrom d m _ 0 h

/-- A cleared address reads as an unlisted one; every other address reads as before. -/
theorem Memory.read_clear (d : Byte) (m : Memory) (a n k : Nat) :
    Memory.read d (Memory.clear a n m) k = if a ≤ k ∧ k < a + n then d else Memory.read d m k := by
  unfold Memory.read Memory.clear
  induction m with
  | nil => simp [Tbl.get]
  | cons x m ih =>
    by_cases hx : x.1 < a ∨ a + n ≤ x.1 <;> by_cases hk : k = x.1
    · have : ¬(a ≤ k ∧ k < a + n) := by omega
      simp [List.filter_cons, hx, Tbl.get, hk]; omega
    · simp only [List.filter_cons, hx, decide_true, if_true, Tbl.get, hk, if_false]; exact ih
    · have : a ≤ k ∧ k < a + n := by omega
      simp only [List.filter_cons, hx, decide_false, Bool.false_eq_true, if_false]; rw [ih]; simp [this]
    · simp only [List.filter_cons, hx, decide_false, Bool.false_eq_true, if_false]; rw [ih]; simp [Tbl.get, hk]

theorem Memory.wf_nil (d : Byte) : Memory.wf d [] = true := rfl

/-! ### Pairs -/

@[simp] theorem Duo.pl_modPl_self {α : Type} (x : Duo α) (p : Plane) (f : α → α) : (x.modPl p f).pl p = f (x.pl p) := by
  cases p <;> rfl

theorem Duo.pl_modPl_ne {α : Type} (x : Duo α) (f : α → α) {p q : Plane} (h : q ≠ p) : (x.modPl p f).pl q = x.pl q := by
  cases p <;> cases q <;> first | rfl | exact absurd rfl h

@[simp] theorem Duo.po_modPo_self {α : Type} (x : Duo α) (p : Port) (f : α → α) : (x.modPo p f).po p = f (x.po p) := by
  cases p <;> rfl

theorem Duo.po_modPo_ne {α : Type} (x : Duo α) (f : α → α) {p q : Port} (h : q ≠ p) : (x.modPo p f).po q = x.po q := by
  cases p <;> cases q <;> first | rfl | exact absurd rfl h

end Sys2Proof.Machine
end

