-- ==== Sys2Proof/Laws/State.lean ====
section
/-! SUPPORT. What each update of the device leaves alone: one lemma for each update and each field of `Dev` that
it does not write, true by unfolding, and the lookups of the elements after an update. -/

namespace Sys2Proof.Machine

/-! ### `Dev.setReg` -/

@[simp] theorem Dev.setReg_now (d : Dev) (r : RegName) (i : Nat) (w : Word) : (d.setReg r i w).now = d.now := rfl
@[simp] theorem Dev.setReg_free (d : Dev) (r : RegName) (i : Nat) (w : Word) : (d.setReg r i w).free = d.free := rfl
@[simp] theorem Dev.setReg_emitted (d : Dev) (r : RegName) (i : Nat) (w : Word) : (d.setReg r i w).emitted = d.emitted := rfl
@[simp] theorem Dev.setReg_sets (d : Dev) (r : RegName) (i : Nat) (w : Word) : (d.setReg r i w).sets = d.sets := rfl
@[simp] theorem Dev.setReg_ev (d : Dev) (r : RegName) (i : Nat) (w : Word) : (d.setReg r i w).ev = d.ev := rfl
@[simp] theorem Dev.setReg_clk (d : Dev) (r : RegName) (i : Nat) (w : Word) : (d.setReg r i w).clk = d.clk := rfl
@[simp] theorem Dev.setReg_tim (d : Dev) (r : RegName) (i : Nat) (w : Word) : (d.setReg r i w).tim = d.tim := rfl
@[simp] theorem Dev.setReg_start (d : Dev) (r : RegName) (i : Nat) (w : Word) : (d.setReg r i w).start = d.start := rfl
@[simp] theorem Dev.setReg_ports (d : Dev) (r : RegName) (i : Nat) (w : Word) : (d.setReg r i w).ports = d.ports := rfl
@[simp] theorem Dev.setReg_svr (d : Dev) (r : RegName) (i : Nat) (w : Word) : (d.setReg r i w).svr = d.svr := rfl
@[simp] theorem Dev.setReg_recs (d : Dev) (r : RegName) (i : Nat) (w : Word) : (d.setReg r i w).recs = d.recs := rfl
@[simp] theorem Dev.setReg_seq (d : Dev) (r : RegName) (i : Nat) (w : Word) : (d.setReg r i w).seq = d.seq := rfl
@[simp] theorem Dev.setReg_stamp (d : Dev) (r : RegName) (i : Nat) (w : Word) : (d.setReg r i w).stamp = d.stamp := rfl
@[simp] theorem Dev.setReg_cctData (d : Dev) (r : RegName) (i : Nat) (w : Word) : (d.setReg r i w).cctData = d.cctData := rfl
@[simp] theorem Dev.setReg_coolCtl (d : Dev) (r : RegName) (i : Nat) (w : Word) : (d.setReg r i w).coolCtl = d.coolCtl := rfl
@[simp] theorem Dev.setReg_planes (d : Dev) (r : RegName) (i : Nat) (w : Word) : (d.setReg r i w).planes = d.planes := rfl
@[simp] theorem Dev.setReg_outs (d : Dev) (r : RegName) (i : Nat) (w : Word) : (d.setReg r i w).outs = d.outs := rfl
@[simp] theorem Dev.setReg_startQ (d : Dev) (r : RegName) (i : Nat) (w : Word) : (d.setReg r i w).startQ = d.startQ := rfl
@[simp] theorem Dev.setReg_startAt (d : Dev) (r : RegName) (i : Nat) (w : Word) : (d.setReg r i w).startAt = d.startAt := rfl
@[simp] theorem Dev.setReg_ins (d : Dev) (r : RegName) (i : Nat) (w : Word) : (d.setReg r i w).ins = d.ins := rfl
@[simp] theorem Dev.setReg_lanes (d : Dev) (r : RegName) (i : Nat) (w : Word) : (d.setReg r i w).lanes = d.lanes := rfl
@[simp] theorem Dev.setReg_ldr (d : Dev) (r : RegName) (i : Nat) (w : Word) : (d.setReg r i w).ldr = d.ldr := rfl
@[simp] theorem Dev.setReg_key (d : Dev) (r : RegName) (i : Nat) (w : Word) : (d.setReg r i w).key = d.key := rfl
@[simp] theorem Dev.setReg_cmx (d : Dev) (r : RegName) (i : Nat) (w : Word) : (d.setReg r i w).cmx = d.cmx := rfl

/-! ### `Dev.wr` -/

@[simp] theorem Dev.wr_now (d : Dev) (f : Field) (v i : Nat) : (d.wr f v i).now = d.now := rfl
@[simp] theorem Dev.wr_free (d : Dev) (f : Field) (v i : Nat) : (d.wr f v i).free = d.free := rfl
@[simp] theorem Dev.wr_emitted (d : Dev) (f : Field) (v i : Nat) : (d.wr f v i).emitted = d.emitted := rfl
@[simp] theorem Dev.wr_sets (d : Dev) (f : Field) (v i : Nat) : (d.wr f v i).sets = d.sets := rfl
@[simp] theorem Dev.wr_ev (d : Dev) (f : Field) (v i : Nat) : (d.wr f v i).ev = d.ev := rfl
@[simp] theorem Dev.wr_clk (d : Dev) (f : Field) (v i : Nat) : (d.wr f v i).clk = d.clk := rfl
@[simp] theorem Dev.wr_tim (d : Dev) (f : Field) (v i : Nat) : (d.wr f v i).tim = d.tim := rfl
@[simp] theorem Dev.wr_start (d : Dev) (f : Field) (v i : Nat) : (d.wr f v i).start = d.start := rfl
@[simp] theorem Dev.wr_ports (d : Dev) (f : Field) (v i : Nat) : (d.wr f v i).ports = d.ports := rfl
@[simp] theorem Dev.wr_svr (d : Dev) (f : Field) (v i : Nat) : (d.wr f v i).svr = d.svr := rfl
@[simp] theorem Dev.wr_recs (d : Dev) (f : Field) (v i : Nat) : (d.wr f v i).recs = d.recs := rfl
@[simp] theorem Dev.wr_seq (d : Dev) (f : Field) (v i : Nat) : (d.wr f v i).seq = d.seq := rfl
@[simp] theorem Dev.wr_stamp (d : Dev) (f : Field) (v i : Nat) : (d.wr f v i).stamp = d.stamp := rfl
@[simp] theorem Dev.wr_cctData (d : Dev) (f : Field) (v i : Nat) : (d.wr f v i).cctData = d.cctData := rfl
@[simp] theorem Dev.wr_coolCtl (d : Dev) (f : Field) (v i : Nat) : (d.wr f v i).coolCtl = d.coolCtl := rfl
@[simp] theorem Dev.wr_planes (d : Dev) (f : Field) (v i : Nat) : (d.wr f v i).planes = d.planes := rfl
@[simp] theorem Dev.wr_outs (d : Dev) (f : Field) (v i : Nat) : (d.wr f v i).outs = d.outs := rfl
@[simp] theorem Dev.wr_startQ (d : Dev) (f : Field) (v i : Nat) : (d.wr f v i).startQ = d.startQ := rfl
@[simp] theorem Dev.wr_startAt (d : Dev) (f : Field) (v i : Nat) : (d.wr f v i).startAt = d.startAt := rfl
@[simp] theorem Dev.wr_ins (d : Dev) (f : Field) (v i : Nat) : (d.wr f v i).ins = d.ins := rfl
@[simp] theorem Dev.wr_lanes (d : Dev) (f : Field) (v i : Nat) : (d.wr f v i).lanes = d.lanes := rfl
@[simp] theorem Dev.wr_ldr (d : Dev) (f : Field) (v i : Nat) : (d.wr f v i).ldr = d.ldr := rfl
@[simp] theorem Dev.wr_key (d : Dev) (f : Field) (v i : Nat) : (d.wr f v i).key = d.key := rfl
@[simp] theorem Dev.wr_cmx (d : Dev) (f : Field) (v i : Nat) : (d.wr f v i).cmx = d.cmx := rfl

/-! ### `Dev.modLane` -/

@[simp] theorem Dev.modLane_now (d : Dev) (n : Nat) (f : Lane → Lane) : (d.modLane n f).now = d.now := rfl
@[simp] theorem Dev.modLane_free (d : Dev) (n : Nat) (f : Lane → Lane) : (d.modLane n f).free = d.free := rfl
@[simp] theorem Dev.modLane_regs (d : Dev) (n : Nat) (f : Lane → Lane) : (d.modLane n f).regs = d.regs := rfl
@[simp] theorem Dev.modLane_emitted (d : Dev) (n : Nat) (f : Lane → Lane) : (d.modLane n f).emitted = d.emitted := rfl
@[simp] theorem Dev.modLane_sets (d : Dev) (n : Nat) (f : Lane → Lane) : (d.modLane n f).sets = d.sets := rfl
@[simp] theorem Dev.modLane_ev (d : Dev) (n : Nat) (f : Lane → Lane) : (d.modLane n f).ev = d.ev := rfl
@[simp] theorem Dev.modLane_clk (d : Dev) (n : Nat) (f : Lane → Lane) : (d.modLane n f).clk = d.clk := rfl
@[simp] theorem Dev.modLane_tim (d : Dev) (n : Nat) (f : Lane → Lane) : (d.modLane n f).tim = d.tim := rfl
@[simp] theorem Dev.modLane_start (d : Dev) (n : Nat) (f : Lane → Lane) : (d.modLane n f).start = d.start := rfl
@[simp] theorem Dev.modLane_ports (d : Dev) (n : Nat) (f : Lane → Lane) : (d.modLane n f).ports = d.ports := rfl
@[simp] theorem Dev.modLane_svr (d : Dev) (n : Nat) (f : Lane → Lane) : (d.modLane n f).svr = d.svr := rfl
@[simp] theorem Dev.modLane_recs (d : Dev) (n : Nat) (f : Lane → Lane) : (d.modLane n f).recs = d.recs := rfl
@[simp] theorem Dev.modLane_seq (d : Dev) (n : Nat) (f : Lane → Lane) : (d.modLane n f).seq = d.seq := rfl
@[simp] theorem Dev.modLane_stamp (d : Dev) (n : Nat) (f : Lane → Lane) : (d.modLane n f).stamp = d.stamp := rfl
@[simp] theorem Dev.modLane_cctData (d : Dev) (n : Nat) (f : Lane → Lane) : (d.modLane n f).cctData = d.cctData := rfl
@[simp] theorem Dev.modLane_coolCtl (d : Dev) (n : Nat) (f : Lane → Lane) : (d.modLane n f).coolCtl = d.coolCtl := rfl
@[simp] theorem Dev.modLane_planes (d : Dev) (n : Nat) (f : Lane → Lane) : (d.modLane n f).planes = d.planes := rfl
@[simp] theorem Dev.modLane_outs (d : Dev) (n : Nat) (f : Lane → Lane) : (d.modLane n f).outs = d.outs := rfl
@[simp] theorem Dev.modLane_startQ (d : Dev) (n : Nat) (f : Lane → Lane) : (d.modLane n f).startQ = d.startQ := rfl
@[simp] theorem Dev.modLane_startAt (d : Dev) (n : Nat) (f : Lane → Lane) : (d.modLane n f).startAt = d.startAt := rfl
@[simp] theorem Dev.modLane_ins (d : Dev) (n : Nat) (f : Lane → Lane) : (d.modLane n f).ins = d.ins := rfl
@[simp] theorem Dev.modLane_ldr (d : Dev) (n : Nat) (f : Lane → Lane) : (d.modLane n f).ldr = d.ldr := rfl
@[simp] theorem Dev.modLane_key (d : Dev) (n : Nat) (f : Lane → Lane) : (d.modLane n f).key = d.key := rfl
@[simp] theorem Dev.modLane_cmx (d : Dev) (n : Nat) (f : Lane → Lane) : (d.modLane n f).cmx = d.cmx := rfl

/-! ### `Dev.modIn` -/

@[simp] theorem Dev.modIn_now (d : Dev) (n : Nat) (f : InSlot → InSlot) : (d.modIn n f).now = d.now := rfl
@[simp] theorem Dev.modIn_free (d : Dev) (n : Nat) (f : InSlot → InSlot) : (d.modIn n f).free = d.free := rfl
@[simp] theorem Dev.modIn_regs (d : Dev) (n : Nat) (f : InSlot → InSlot) : (d.modIn n f).regs = d.regs := rfl
@[simp] theorem Dev.modIn_emitted (d : Dev) (n : Nat) (f : InSlot → InSlot) : (d.modIn n f).emitted = d.emitted := rfl
@[simp] theorem Dev.modIn_sets (d : Dev) (n : Nat) (f : InSlot → InSlot) : (d.modIn n f).sets = d.sets := rfl
@[simp] theorem Dev.modIn_ev (d : Dev) (n : Nat) (f : InSlot → InSlot) : (d.modIn n f).ev = d.ev := rfl
@[simp] theorem Dev.modIn_clk (d : Dev) (n : Nat) (f : InSlot → InSlot) : (d.modIn n f).clk = d.clk := rfl
@[simp] theorem Dev.modIn_tim (d : Dev) (n : Nat) (f : InSlot → InSlot) : (d.modIn n f).tim = d.tim := rfl
@[simp] theorem Dev.modIn_start (d : Dev) (n : Nat) (f : InSlot → InSlot) : (d.modIn n f).start = d.start := rfl
@[simp] theorem Dev.modIn_ports (d : Dev) (n : Nat) (f : InSlot → InSlot) : (d.modIn n f).ports = d.ports := rfl
@[simp] theorem Dev.modIn_svr (d : Dev) (n : Nat) (f : InSlot → InSlot) : (d.modIn n f).svr = d.svr := rfl
@[simp] theorem Dev.modIn_recs (d : Dev) (n : Nat) (f : InSlot → InSlot) : (d.modIn n f).recs = d.recs := rfl
@[simp] theorem Dev.modIn_seq (d : Dev) (n : Nat) (f : InSlot → InSlot) : (d.modIn n f).seq = d.seq := rfl
@[simp] theorem Dev.modIn_stamp (d : Dev) (n : Nat) (f : InSlot → InSlot) : (d.modIn n f).stamp = d.stamp := rfl
@[simp] theorem Dev.modIn_cctData (d : Dev) (n : Nat) (f : InSlot → InSlot) : (d.modIn n f).cctData = d.cctData := rfl
@[simp] theorem Dev.modIn_coolCtl (d : Dev) (n : Nat) (f : InSlot → InSlot) : (d.modIn n f).coolCtl = d.coolCtl := rfl
@[simp] theorem Dev.modIn_planes (d : Dev) (n : Nat) (f : InSlot → InSlot) : (d.modIn n f).planes = d.planes := rfl
@[simp] theorem Dev.modIn_outs (d : Dev) (n : Nat) (f : InSlot → InSlot) : (d.modIn n f).outs = d.outs := rfl
@[simp] theorem Dev.modIn_startQ (d : Dev) (n : Nat) (f : InSlot → InSlot) : (d.modIn n f).startQ = d.startQ := rfl
@[simp] theorem Dev.modIn_startAt (d : Dev) (n : Nat) (f : InSlot → InSlot) : (d.modIn n f).startAt = d.startAt := rfl
@[simp] theorem Dev.modIn_lanes (d : Dev) (n : Nat) (f : InSlot → InSlot) : (d.modIn n f).lanes = d.lanes := rfl
@[simp] theorem Dev.modIn_ldr (d : Dev) (n : Nat) (f : InSlot → InSlot) : (d.modIn n f).ldr = d.ldr := rfl
@[simp] theorem Dev.modIn_key (d : Dev) (n : Nat) (f : InSlot → InSlot) : (d.modIn n f).key = d.key := rfl
@[simp] theorem Dev.modIn_cmx (d : Dev) (n : Nat) (f : InSlot → InSlot) : (d.modIn n f).cmx = d.cmx := rfl

/-! ### `Dev.modOut` -/

@[simp] theorem Dev.modOut_now (d : Dev) (n : Nat) (f : Out → Out) : (d.modOut n f).now = d.now := rfl
@[simp] theorem Dev.modOut_free (d : Dev) (n : Nat) (f : Out → Out) : (d.modOut n f).free = d.free := rfl
@[simp] theorem Dev.modOut_regs (d : Dev) (n : Nat) (f : Out → Out) : (d.modOut n f).regs = d.regs := rfl
@[simp] theorem Dev.modOut_emitted (d : Dev) (n : Nat) (f : Out → Out) : (d.modOut n f).emitted = d.emitted := rfl
@[simp] theorem Dev.modOut_sets (d : Dev) (n : Nat) (f : Out → Out) : (d.modOut n f).sets = d.sets := rfl
@[simp] theorem Dev.modOut_ev (d : Dev) (n : Nat) (f : Out → Out) : (d.modOut n f).ev = d.ev := rfl
@[simp] theorem Dev.modOut_clk (d : Dev) (n : Nat) (f : Out → Out) : (d.modOut n f).clk = d.clk := rfl
@[simp] theorem Dev.modOut_tim (d : Dev) (n : Nat) (f : Out → Out) : (d.modOut n f).tim = d.tim := rfl
@[simp] theorem Dev.modOut_start (d : Dev) (n : Nat) (f : Out → Out) : (d.modOut n f).start = d.start := rfl
@[simp] theorem Dev.modOut_ports (d : Dev) (n : Nat) (f : Out → Out) : (d.modOut n f).ports = d.ports := rfl
@[simp] theorem Dev.modOut_svr (d : Dev) (n : Nat) (f : Out → Out) : (d.modOut n f).svr = d.svr := rfl
@[simp] theorem Dev.modOut_recs (d : Dev) (n : Nat) (f : Out → Out) : (d.modOut n f).recs = d.recs := rfl
@[simp] theorem Dev.modOut_seq (d : Dev) (n : Nat) (f : Out → Out) : (d.modOut n f).seq = d.seq := rfl
@[simp] theorem Dev.modOut_stamp (d : Dev) (n : Nat) (f : Out → Out) : (d.modOut n f).stamp = d.stamp := rfl
@[simp] theorem Dev.modOut_cctData (d : Dev) (n : Nat) (f : Out → Out) : (d.modOut n f).cctData = d.cctData := rfl
@[simp] theorem Dev.modOut_coolCtl (d : Dev) (n : Nat) (f : Out → Out) : (d.modOut n f).coolCtl = d.coolCtl := rfl
@[simp] theorem Dev.modOut_planes (d : Dev) (n : Nat) (f : Out → Out) : (d.modOut n f).planes = d.planes := rfl
@[simp] theorem Dev.modOut_startQ (d : Dev) (n : Nat) (f : Out → Out) : (d.modOut n f).startQ = d.startQ := rfl
@[simp] theorem Dev.modOut_startAt (d : Dev) (n : Nat) (f : Out → Out) : (d.modOut n f).startAt = d.startAt := rfl
@[simp] theorem Dev.modOut_ins (d : Dev) (n : Nat) (f : Out → Out) : (d.modOut n f).ins = d.ins := rfl
@[simp] theorem Dev.modOut_lanes (d : Dev) (n : Nat) (f : Out → Out) : (d.modOut n f).lanes = d.lanes := rfl
@[simp] theorem Dev.modOut_ldr (d : Dev) (n : Nat) (f : Out → Out) : (d.modOut n f).ldr = d.ldr := rfl
@[simp] theorem Dev.modOut_key (d : Dev) (n : Nat) (f : Out → Out) : (d.modOut n f).key = d.key := rfl
@[simp] theorem Dev.modOut_cmx (d : Dev) (n : Nat) (f : Out → Out) : (d.modOut n f).cmx = d.cmx := rfl

/-! ### `Dev.modOp` -/

@[simp] theorem Dev.modOp_now (d : Dev) (n : Nat) (p : Plane) (f : OutPlane → OutPlane) : (d.modOp n p f).now = d.now := rfl
@[simp] theorem Dev.modOp_free (d : Dev) (n : Nat) (p : Plane) (f : OutPlane → OutPlane) : (d.modOp n p f).free = d.free := rfl
@[simp] theorem Dev.modOp_regs (d : Dev) (n : Nat) (p : Plane) (f : OutPlane → OutPlane) : (d.modOp n p f).regs = d.regs := rfl
@[simp] theorem Dev.modOp_emitted (d : Dev) (n : Nat) (p : Plane) (f : OutPlane → OutPlane) : (d.modOp n p f).emitted = d.emitted := rfl
@[simp] theorem Dev.modOp_sets (d : Dev) (n : Nat) (p : Plane) (f : OutPlane → OutPlane) : (d.modOp n p f).sets = d.sets := rfl
@[simp] theorem Dev.modOp_ev (d : Dev) (n : Nat) (p : Plane) (f : OutPlane → OutPlane) : (d.modOp n p f).ev = d.ev := rfl
@[simp] theorem Dev.modOp_clk (d : Dev) (n : Nat) (p : Plane) (f : OutPlane → OutPlane) : (d.modOp n p f).clk = d.clk := rfl
@[simp] theorem Dev.modOp_tim (d : Dev) (n : Nat) (p : Plane) (f : OutPlane → OutPlane) : (d.modOp n p f).tim = d.tim := rfl
@[simp] theorem Dev.modOp_start (d : Dev) (n : Nat) (p : Plane) (f : OutPlane → OutPlane) : (d.modOp n p f).start = d.start := rfl
@[simp] theorem Dev.modOp_ports (d : Dev) (n : Nat) (p : Plane) (f : OutPlane → OutPlane) : (d.modOp n p f).ports = d.ports := rfl
@[simp] theorem Dev.modOp_svr (d : Dev) (n : Nat) (p : Plane) (f : OutPlane → OutPlane) : (d.modOp n p f).svr = d.svr := rfl
@[simp] theorem Dev.modOp_recs (d : Dev) (n : Nat) (p : Plane) (f : OutPlane → OutPlane) : (d.modOp n p f).recs = d.recs := rfl
@[simp] theorem Dev.modOp_seq (d : Dev) (n : Nat) (p : Plane) (f : OutPlane → OutPlane) : (d.modOp n p f).seq = d.seq := rfl
@[simp] theorem Dev.modOp_stamp (d : Dev) (n : Nat) (p : Plane) (f : OutPlane → OutPlane) : (d.modOp n p f).stamp = d.stamp := rfl
@[simp] theorem Dev.modOp_cctData (d : Dev) (n : Nat) (p : Plane) (f : OutPlane → OutPlane) : (d.modOp n p f).cctData = d.cctData := rfl
@[simp] theorem Dev.modOp_coolCtl (d : Dev) (n : Nat) (p : Plane) (f : OutPlane → OutPlane) : (d.modOp n p f).coolCtl = d.coolCtl := rfl
@[simp] theorem Dev.modOp_planes (d : Dev) (n : Nat) (p : Plane) (f : OutPlane → OutPlane) : (d.modOp n p f).planes = d.planes := rfl
@[simp] theorem Dev.modOp_startQ (d : Dev) (n : Nat) (p : Plane) (f : OutPlane → OutPlane) : (d.modOp n p f).startQ = d.startQ := rfl
@[simp] theorem Dev.modOp_startAt (d : Dev) (n : Nat) (p : Plane) (f : OutPlane → OutPlane) : (d.modOp n p f).startAt = d.startAt := rfl
@[simp] theorem Dev.modOp_ins (d : Dev) (n : Nat) (p : Plane) (f : OutPlane → OutPlane) : (d.modOp n p f).ins = d.ins := rfl
@[simp] theorem Dev.modOp_lanes (d : Dev) (n : Nat) (p : Plane) (f : OutPlane → OutPlane) : (d.modOp n p f).lanes = d.lanes := rfl
@[simp] theorem Dev.modOp_ldr (d : Dev) (n : Nat) (p : Plane) (f : OutPlane → OutPlane) : (d.modOp n p f).ldr = d.ldr := rfl
@[simp] theorem Dev.modOp_key (d : Dev) (n : Nat) (p : Plane) (f : OutPlane → OutPlane) : (d.modOp n p f).key = d.key := rfl
@[simp] theorem Dev.modOp_cmx (d : Dev) (n : Nat) (p : Plane) (f : OutPlane → OutPlane) : (d.modOp n p f).cmx = d.cmx := rfl

/-! ### `Dev.modPlane` -/

@[simp] theorem Dev.modPlane_now (d : Dev) (p : Plane) (f : PlaneSt → PlaneSt) : (d.modPlane p f).now = d.now := rfl
@[simp] theorem Dev.modPlane_free (d : Dev) (p : Plane) (f : PlaneSt → PlaneSt) : (d.modPlane p f).free = d.free := rfl
@[simp] theorem Dev.modPlane_regs (d : Dev) (p : Plane) (f : PlaneSt → PlaneSt) : (d.modPlane p f).regs = d.regs := rfl
@[simp] theorem Dev.modPlane_emitted (d : Dev) (p : Plane) (f : PlaneSt → PlaneSt) : (d.modPlane p f).emitted = d.emitted := rfl
@[simp] theorem Dev.modPlane_sets (d : Dev) (p : Plane) (f : PlaneSt → PlaneSt) : (d.modPlane p f).sets = d.sets := rfl
@[simp] theorem Dev.modPlane_ev (d : Dev) (p : Plane) (f : PlaneSt → PlaneSt) : (d.modPlane p f).ev = d.ev := rfl
@[simp] theorem Dev.modPlane_clk (d : Dev) (p : Plane) (f : PlaneSt → PlaneSt) : (d.modPlane p f).clk = d.clk := rfl
@[simp] theorem Dev.modPlane_tim (d : Dev) (p : Plane) (f : PlaneSt → PlaneSt) : (d.modPlane p f).tim = d.tim := rfl
@[simp] theorem Dev.modPlane_start (d : Dev) (p : Plane) (f : PlaneSt → PlaneSt) : (d.modPlane p f).start = d.start := rfl
@[simp] theorem Dev.modPlane_ports (d : Dev) (p : Plane) (f : PlaneSt → PlaneSt) : (d.modPlane p f).ports = d.ports := rfl
@[simp] theorem Dev.modPlane_svr (d : Dev) (p : Plane) (f : PlaneSt → PlaneSt) : (d.modPlane p f).svr = d.svr := rfl
@[simp] theorem Dev.modPlane_recs (d : Dev) (p : Plane) (f : PlaneSt → PlaneSt) : (d.modPlane p f).recs = d.recs := rfl
@[simp] theorem Dev.modPlane_seq (d : Dev) (p : Plane) (f : PlaneSt → PlaneSt) : (d.modPlane p f).seq = d.seq := rfl
@[simp] theorem Dev.modPlane_stamp (d : Dev) (p : Plane) (f : PlaneSt → PlaneSt) : (d.modPlane p f).stamp = d.stamp := rfl
@[simp] theorem Dev.modPlane_cctData (d : Dev) (p : Plane) (f : PlaneSt → PlaneSt) : (d.modPlane p f).cctData = d.cctData := rfl
@[simp] theorem Dev.modPlane_coolCtl (d : Dev) (p : Plane) (f : PlaneSt → PlaneSt) : (d.modPlane p f).coolCtl = d.coolCtl := rfl
@[simp] theorem Dev.modPlane_outs (d : Dev) (p : Plane) (f : PlaneSt → PlaneSt) : (d.modPlane p f).outs = d.outs := rfl
@[simp] theorem Dev.modPlane_startQ (d : Dev) (p : Plane) (f : PlaneSt → PlaneSt) : (d.modPlane p f).startQ = d.startQ := rfl
@[simp] theorem Dev.modPlane_startAt (d : Dev) (p : Plane) (f : PlaneSt → PlaneSt) : (d.modPlane p f).startAt = d.startAt := rfl
@[simp] theorem Dev.modPlane_ins (d : Dev) (p : Plane) (f : PlaneSt → PlaneSt) : (d.modPlane p f).ins = d.ins := rfl
@[simp] theorem Dev.modPlane_lanes (d : Dev) (p : Plane) (f : PlaneSt → PlaneSt) : (d.modPlane p f).lanes = d.lanes := rfl
@[simp] theorem Dev.modPlane_ldr (d : Dev) (p : Plane) (f : PlaneSt → PlaneSt) : (d.modPlane p f).ldr = d.ldr := rfl
@[simp] theorem Dev.modPlane_key (d : Dev) (p : Plane) (f : PlaneSt → PlaneSt) : (d.modPlane p f).key = d.key := rfl
@[simp] theorem Dev.modPlane_cmx (d : Dev) (p : Plane) (f : PlaneSt → PlaneSt) : (d.modPlane p f).cmx = d.cmx := rfl

/-! ### `Dev.modOwner` -/

@[simp] theorem Dev.modOwner_now (d : Dev) (p : Plane) (n : Nat) (f : Owner → Owner) : (d.modOwner p n f).now = d.now := rfl
@[simp] theorem Dev.modOwner_free (d : Dev) (p : Plane) (n : Nat) (f : Owner → Owner) : (d.modOwner p n f).free = d.free := rfl
@[simp] theorem Dev.modOwner_regs (d : Dev) (p : Plane) (n : Nat) (f : Owner → Owner) : (d.modOwner p n f).regs = d.regs := rfl
@[simp] theorem Dev.modOwner_emitted (d : Dev) (p : Plane) (n : Nat) (f : Owner → Owner) : (d.modOwner p n f).emitted = d.emitted := rfl
@[simp] theorem Dev.modOwner_sets (d : Dev) (p : Plane) (n : Nat) (f : Owner → Owner) : (d.modOwner p n f).sets = d.sets := rfl
@[simp] theorem Dev.modOwner_ev (d : Dev) (p : Plane) (n : Nat) (f : Owner → Owner) : (d.modOwner p n f).ev = d.ev := rfl
@[simp] theorem Dev.modOwner_clk (d : Dev) (p : Plane) (n : Nat) (f : Owner → Owner) : (d.modOwner p n f).clk = d.clk := rfl
@[simp] theorem Dev.modOwner_tim (d : Dev) (p : Plane) (n : Nat) (f : Owner → Owner) : (d.modOwner p n f).tim = d.tim := rfl
@[simp] theorem Dev.modOwner_start (d : Dev) (p : Plane) (n : Nat) (f : Owner → Owner) : (d.modOwner p n f).start = d.start := rfl
@[simp] theorem Dev.modOwner_ports (d : Dev) (p : Plane) (n : Nat) (f : Owner → Owner) : (d.modOwner p n f).ports = d.ports := rfl
@[simp] theorem Dev.modOwner_svr (d : Dev) (p : Plane) (n : Nat) (f : Owner → Owner) : (d.modOwner p n f).svr = d.svr := rfl
@[simp] theorem Dev.modOwner_recs (d : Dev) (p : Plane) (n : Nat) (f : Owner → Owner) : (d.modOwner p n f).recs = d.recs := rfl
@[simp] theorem Dev.modOwner_seq (d : Dev) (p : Plane) (n : Nat) (f : Owner → Owner) : (d.modOwner p n f).seq = d.seq := rfl
@[simp] theorem Dev.modOwner_stamp (d : Dev) (p : Plane) (n : Nat) (f : Owner → Owner) : (d.modOwner p n f).stamp = d.stamp := rfl
@[simp] theorem Dev.modOwner_cctData (d : Dev) (p : Plane) (n : Nat) (f : Owner → Owner) : (d.modOwner p n f).cctData = d.cctData := rfl
@[simp] theorem Dev.modOwner_coolCtl (d : Dev) (p : Plane) (n : Nat) (f : Owner → Owner) : (d.modOwner p n f).coolCtl = d.coolCtl := rfl
@[simp] theorem Dev.modOwner_outs (d : Dev) (p : Plane) (n : Nat) (f : Owner → Owner) : (d.modOwner p n f).outs = d.outs := rfl
@[simp] theorem Dev.modOwner_startQ (d : Dev) (p : Plane) (n : Nat) (f : Owner → Owner) : (d.modOwner p n f).startQ = d.startQ := rfl
@[simp] theorem Dev.modOwner_startAt (d : Dev) (p : Plane) (n : Nat) (f : Owner → Owner) : (d.modOwner p n f).startAt = d.startAt := rfl
@[simp] theorem Dev.modOwner_ins (d : Dev) (p : Plane) (n : Nat) (f : Owner → Owner) : (d.modOwner p n f).ins = d.ins := rfl
@[simp] theorem Dev.modOwner_lanes (d : Dev) (p : Plane) (n : Nat) (f : Owner → Owner) : (d.modOwner p n f).lanes = d.lanes := rfl
@[simp] theorem Dev.modOwner_ldr (d : Dev) (p : Plane) (n : Nat) (f : Owner → Owner) : (d.modOwner p n f).ldr = d.ldr := rfl
@[simp] theorem Dev.modOwner_key (d : Dev) (p : Plane) (n : Nat) (f : Owner → Owner) : (d.modOwner p n f).key = d.key := rfl
@[simp] theorem Dev.modOwner_cmx (d : Dev) (p : Plane) (n : Nat) (f : Owner → Owner) : (d.modOwner p n f).cmx = d.cmx := rfl

/-! ### `Dev.modPort` -/

@[simp] theorem Dev.modPort_now (d : Dev) (p : Port) (f : PortSt → PortSt) : (d.modPort p f).now = d.now := rfl
@[simp] theorem Dev.modPort_free (d : Dev) (p : Port) (f : PortSt → PortSt) : (d.modPort p f).free = d.free := rfl
@[simp] theorem Dev.modPort_regs (d : Dev) (p : Port) (f : PortSt → PortSt) : (d.modPort p f).regs = d.regs := rfl
@[simp] theorem Dev.modPort_emitted (d : Dev) (p : Port) (f : PortSt → PortSt) : (d.modPort p f).emitted = d.emitted := rfl
@[simp] theorem Dev.modPort_sets (d : Dev) (p : Port) (f : PortSt → PortSt) : (d.modPort p f).sets = d.sets := rfl
@[simp] theorem Dev.modPort_ev (d : Dev) (p : Port) (f : PortSt → PortSt) : (d.modPort p f).ev = d.ev := rfl
@[simp] theorem Dev.modPort_clk (d : Dev) (p : Port) (f : PortSt → PortSt) : (d.modPort p f).clk = d.clk := rfl
@[simp] theorem Dev.modPort_tim (d : Dev) (p : Port) (f : PortSt → PortSt) : (d.modPort p f).tim = d.tim := rfl
@[simp] theorem Dev.modPort_start (d : Dev) (p : Port) (f : PortSt → PortSt) : (d.modPort p f).start = d.start := rfl
@[simp] theorem Dev.modPort_svr (d : Dev) (p : Port) (f : PortSt → PortSt) : (d.modPort p f).svr = d.svr := rfl
@[simp] theorem Dev.modPort_recs (d : Dev) (p : Port) (f : PortSt → PortSt) : (d.modPort p f).recs = d.recs := rfl
@[simp] theorem Dev.modPort_seq (d : Dev) (p : Port) (f : PortSt → PortSt) : (d.modPort p f).seq = d.seq := rfl
@[simp] theorem Dev.modPort_stamp (d : Dev) (p : Port) (f : PortSt → PortSt) : (d.modPort p f).stamp = d.stamp := rfl
@[simp] theorem Dev.modPort_cctData (d : Dev) (p : Port) (f : PortSt → PortSt) : (d.modPort p f).cctData = d.cctData := rfl
@[simp] theorem Dev.modPort_coolCtl (d : Dev) (p : Port) (f : PortSt → PortSt) : (d.modPort p f).coolCtl = d.coolCtl := rfl
@[simp] theorem Dev.modPort_planes (d : Dev) (p : Port) (f : PortSt → PortSt) : (d.modPort p f).planes = d.planes := rfl
@[simp] theorem Dev.modPort_outs (d : Dev) (p : Port) (f : PortSt → PortSt) : (d.modPort p f).outs = d.outs := rfl
@[simp] theorem Dev.modPort_startQ (d : Dev) (p : Port) (f : PortSt → PortSt) : (d.modPort p f).startQ = d.startQ := rfl
@[simp] theorem Dev.modPort_startAt (d : Dev) (p : Port) (f : PortSt → PortSt) : (d.modPort p f).startAt = d.startAt := rfl
@[simp] theorem Dev.modPort_ins (d : Dev) (p : Port) (f : PortSt → PortSt) : (d.modPort p f).ins = d.ins := rfl
@[simp] theorem Dev.modPort_lanes (d : Dev) (p : Port) (f : PortSt → PortSt) : (d.modPort p f).lanes = d.lanes := rfl
@[simp] theorem Dev.modPort_ldr (d : Dev) (p : Port) (f : PortSt → PortSt) : (d.modPort p f).ldr = d.ldr := rfl
@[simp] theorem Dev.modPort_key (d : Dev) (p : Port) (f : PortSt → PortSt) : (d.modPort p f).key = d.key := rfl
@[simp] theorem Dev.modPort_cmx (d : Dev) (p : Port) (f : PortSt → PortSt) : (d.modPort p f).cmx = d.cmx := rfl

/-! ### `Dev.modRing` -/

@[simp] theorem Dev.modRing_now (d : Dev) (p : Port) (r : Nat) (f : SvRing → SvRing) : (d.modRing p r f).now = d.now := rfl
@[simp] theorem Dev.modRing_free (d : Dev) (p : Port) (r : Nat) (f : SvRing → SvRing) : (d.modRing p r f).free = d.free := rfl
@[simp] theorem Dev.modRing_regs (d : Dev) (p : Port) (r : Nat) (f : SvRing → SvRing) : (d.modRing p r f).regs = d.regs := rfl
@[simp] theorem Dev.modRing_emitted (d : Dev) (p : Port) (r : Nat) (f : SvRing → SvRing) : (d.modRing p r f).emitted = d.emitted := rfl
@[simp] theorem Dev.modRing_sets (d : Dev) (p : Port) (r : Nat) (f : SvRing → SvRing) : (d.modRing p r f).sets = d.sets := rfl
@[simp] theorem Dev.modRing_ev (d : Dev) (p : Port) (r : Nat) (f : SvRing → SvRing) : (d.modRing p r f).ev = d.ev := rfl
@[simp] theorem Dev.modRing_clk (d : Dev) (p : Port) (r : Nat) (f : SvRing → SvRing) : (d.modRing p r f).clk = d.clk := rfl
@[simp] theorem Dev.modRing_tim (d : Dev) (p : Port) (r : Nat) (f : SvRing → SvRing) : (d.modRing p r f).tim = d.tim := rfl
@[simp] theorem Dev.modRing_start (d : Dev) (p : Port) (r : Nat) (f : SvRing → SvRing) : (d.modRing p r f).start = d.start := rfl
@[simp] theorem Dev.modRing_ports (d : Dev) (p : Port) (r : Nat) (f : SvRing → SvRing) : (d.modRing p r f).ports = d.ports := rfl
@[simp] theorem Dev.modRing_recs (d : Dev) (p : Port) (r : Nat) (f : SvRing → SvRing) : (d.modRing p r f).recs = d.recs := rfl
@[simp] theorem Dev.modRing_seq (d : Dev) (p : Port) (r : Nat) (f : SvRing → SvRing) : (d.modRing p r f).seq = d.seq := rfl
@[simp] theorem Dev.modRing_stamp (d : Dev) (p : Port) (r : Nat) (f : SvRing → SvRing) : (d.modRing p r f).stamp = d.stamp := rfl
@[simp] theorem Dev.modRing_cctData (d : Dev) (p : Port) (r : Nat) (f : SvRing → SvRing) : (d.modRing p r f).cctData = d.cctData := rfl
@[simp] theorem Dev.modRing_coolCtl (d : Dev) (p : Port) (r : Nat) (f : SvRing → SvRing) : (d.modRing p r f).coolCtl = d.coolCtl := rfl
@[simp] theorem Dev.modRing_planes (d : Dev) (p : Port) (r : Nat) (f : SvRing → SvRing) : (d.modRing p r f).planes = d.planes := rfl
@[simp] theorem Dev.modRing_outs (d : Dev) (p : Port) (r : Nat) (f : SvRing → SvRing) : (d.modRing p r f).outs = d.outs := rfl
@[simp] theorem Dev.modRing_startQ (d : Dev) (p : Port) (r : Nat) (f : SvRing → SvRing) : (d.modRing p r f).startQ = d.startQ := rfl
@[simp] theorem Dev.modRing_startAt (d : Dev) (p : Port) (r : Nat) (f : SvRing → SvRing) : (d.modRing p r f).startAt = d.startAt := rfl
@[simp] theorem Dev.modRing_ins (d : Dev) (p : Port) (r : Nat) (f : SvRing → SvRing) : (d.modRing p r f).ins = d.ins := rfl
@[simp] theorem Dev.modRing_lanes (d : Dev) (p : Port) (r : Nat) (f : SvRing → SvRing) : (d.modRing p r f).lanes = d.lanes := rfl
@[simp] theorem Dev.modRing_ldr (d : Dev) (p : Port) (r : Nat) (f : SvRing → SvRing) : (d.modRing p r f).ldr = d.ldr := rfl
@[simp] theorem Dev.modRing_key (d : Dev) (p : Port) (r : Nat) (f : SvRing → SvRing) : (d.modRing p r f).key = d.key := rfl
@[simp] theorem Dev.modRing_cmx (d : Dev) (p : Port) (r : Nat) (f : SvRing → SvRing) : (d.modRing p r f).cmx = d.cmx := rfl

/-! ### `Dev.modTb` -/

@[simp] theorem Dev.modTb_now (d : Dev) (p : Plane) (f : Timebase → Timebase) : (d.modTb p f).now = d.now := rfl
@[simp] theorem Dev.modTb_free (d : Dev) (p : Plane) (f : Timebase → Timebase) : (d.modTb p f).free = d.free := rfl
@[simp] theorem Dev.modTb_regs (d : Dev) (p : Plane) (f : Timebase → Timebase) : (d.modTb p f).regs = d.regs := rfl
@[simp] theorem Dev.modTb_emitted (d : Dev) (p : Plane) (f : Timebase → Timebase) : (d.modTb p f).emitted = d.emitted := rfl
@[simp] theorem Dev.modTb_sets (d : Dev) (p : Plane) (f : Timebase → Timebase) : (d.modTb p f).sets = d.sets := rfl
@[simp] theorem Dev.modTb_ev (d : Dev) (p : Plane) (f : Timebase → Timebase) : (d.modTb p f).ev = d.ev := rfl
@[simp] theorem Dev.modTb_clk (d : Dev) (p : Plane) (f : Timebase → Timebase) : (d.modTb p f).clk = d.clk := rfl
@[simp] theorem Dev.modTb_start (d : Dev) (p : Plane) (f : Timebase → Timebase) : (d.modTb p f).start = d.start := rfl
@[simp] theorem Dev.modTb_ports (d : Dev) (p : Plane) (f : Timebase → Timebase) : (d.modTb p f).ports = d.ports := rfl
@[simp] theorem Dev.modTb_svr (d : Dev) (p : Plane) (f : Timebase → Timebase) : (d.modTb p f).svr = d.svr := rfl
@[simp] theorem Dev.modTb_recs (d : Dev) (p : Plane) (f : Timebase → Timebase) : (d.modTb p f).recs = d.recs := rfl
@[simp] theorem Dev.modTb_seq (d : Dev) (p : Plane) (f : Timebase → Timebase) : (d.modTb p f).seq = d.seq := rfl
@[simp] theorem Dev.modTb_stamp (d : Dev) (p : Plane) (f : Timebase → Timebase) : (d.modTb p f).stamp = d.stamp := rfl
@[simp] theorem Dev.modTb_cctData (d : Dev) (p : Plane) (f : Timebase → Timebase) : (d.modTb p f).cctData = d.cctData := rfl
@[simp] theorem Dev.modTb_coolCtl (d : Dev) (p : Plane) (f : Timebase → Timebase) : (d.modTb p f).coolCtl = d.coolCtl := rfl
@[simp] theorem Dev.modTb_planes (d : Dev) (p : Plane) (f : Timebase → Timebase) : (d.modTb p f).planes = d.planes := rfl
@[simp] theorem Dev.modTb_outs (d : Dev) (p : Plane) (f : Timebase → Timebase) : (d.modTb p f).outs = d.outs := rfl
@[simp] theorem Dev.modTb_startQ (d : Dev) (p : Plane) (f : Timebase → Timebase) : (d.modTb p f).startQ = d.startQ := rfl
@[simp] theorem Dev.modTb_startAt (d : Dev) (p : Plane) (f : Timebase → Timebase) : (d.modTb p f).startAt = d.startAt := rfl
@[simp] theorem Dev.modTb_ins (d : Dev) (p : Plane) (f : Timebase → Timebase) : (d.modTb p f).ins = d.ins := rfl
@[simp] theorem Dev.modTb_lanes (d : Dev) (p : Plane) (f : Timebase → Timebase) : (d.modTb p f).lanes = d.lanes := rfl
@[simp] theorem Dev.modTb_ldr (d : Dev) (p : Plane) (f : Timebase → Timebase) : (d.modTb p f).ldr = d.ldr := rfl
@[simp] theorem Dev.modTb_key (d : Dev) (p : Plane) (f : Timebase → Timebase) : (d.modTb p f).key = d.key := rfl
@[simp] theorem Dev.modTb_cmx (d : Dev) (p : Plane) (f : Timebase → Timebase) : (d.modTb p f).cmx = d.cmx := rfl

/-! ### `Dev.modRef` -/

@[simp] theorem Dev.modRef_now (d : Dev) (x : Nat) (f : RefIn → RefIn) : (d.modRef x f).now = d.now := rfl
@[simp] theorem Dev.modRef_free (d : Dev) (x : Nat) (f : RefIn → RefIn) : (d.modRef x f).free = d.free := rfl
@[simp] theorem Dev.modRef_regs (d : Dev) (x : Nat) (f : RefIn → RefIn) : (d.modRef x f).regs = d.regs := rfl
@[simp] theorem Dev.modRef_emitted (d : Dev) (x : Nat) (f : RefIn → RefIn) : (d.modRef x f).emitted = d.emitted := rfl
@[simp] theorem Dev.modRef_sets (d : Dev) (x : Nat) (f : RefIn → RefIn) : (d.modRef x f).sets = d.sets := rfl
@[simp] theorem Dev.modRef_ev (d : Dev) (x : Nat) (f : RefIn → RefIn) : (d.modRef x f).ev = d.ev := rfl
@[simp] theorem Dev.modRef_clk (d : Dev) (x : Nat) (f : RefIn → RefIn) : (d.modRef x f).clk = d.clk := rfl
@[simp] theorem Dev.modRef_start (d : Dev) (x : Nat) (f : RefIn → RefIn) : (d.modRef x f).start = d.start := rfl
@[simp] theorem Dev.modRef_ports (d : Dev) (x : Nat) (f : RefIn → RefIn) : (d.modRef x f).ports = d.ports := rfl
@[simp] theorem Dev.modRef_svr (d : Dev) (x : Nat) (f : RefIn → RefIn) : (d.modRef x f).svr = d.svr := rfl
@[simp] theorem Dev.modRef_recs (d : Dev) (x : Nat) (f : RefIn → RefIn) : (d.modRef x f).recs = d.recs := rfl
@[simp] theorem Dev.modRef_seq (d : Dev) (x : Nat) (f : RefIn → RefIn) : (d.modRef x f).seq = d.seq := rfl
@[simp] theorem Dev.modRef_stamp (d : Dev) (x : Nat) (f : RefIn → RefIn) : (d.modRef x f).stamp = d.stamp := rfl
@[simp] theorem Dev.modRef_cctData (d : Dev) (x : Nat) (f : RefIn → RefIn) : (d.modRef x f).cctData = d.cctData := rfl
@[simp] theorem Dev.modRef_coolCtl (d : Dev) (x : Nat) (f : RefIn → RefIn) : (d.modRef x f).coolCtl = d.coolCtl := rfl
@[simp] theorem Dev.modRef_planes (d : Dev) (x : Nat) (f : RefIn → RefIn) : (d.modRef x f).planes = d.planes := rfl
@[simp] theorem Dev.modRef_outs (d : Dev) (x : Nat) (f : RefIn → RefIn) : (d.modRef x f).outs = d.outs := rfl
@[simp] theorem Dev.modRef_startQ (d : Dev) (x : Nat) (f : RefIn → RefIn) : (d.modRef x f).startQ = d.startQ := rfl
@[simp] theorem Dev.modRef_startAt (d : Dev) (x : Nat) (f : RefIn → RefIn) : (d.modRef x f).startAt = d.startAt := rfl
@[simp] theorem Dev.modRef_ins (d : Dev) (x : Nat) (f : RefIn → RefIn) : (d.modRef x f).ins = d.ins := rfl
@[simp] theorem Dev.modRef_lanes (d : Dev) (x : Nat) (f : RefIn → RefIn) : (d.modRef x f).lanes = d.lanes := rfl
@[simp] theorem Dev.modRef_ldr (d : Dev) (x : Nat) (f : RefIn → RefIn) : (d.modRef x f).ldr = d.ldr := rfl
@[simp] theorem Dev.modRef_key (d : Dev) (x : Nat) (f : RefIn → RefIn) : (d.modRef x f).key = d.key := rfl
@[simp] theorem Dev.modRef_cmx (d : Dev) (x : Nat) (f : RefIn → RefIn) : (d.modRef x f).cmx = d.cmx := rfl

/-! ### `Dev.emit` -/

@[simp] theorem Dev.emit_now (d : Dev) (e : Emission) : (d.emit e).now = d.now := rfl
@[simp] theorem Dev.emit_free (d : Dev) (e : Emission) : (d.emit e).free = d.free := rfl
@[simp] theorem Dev.emit_regs (d : Dev) (e : Emission) : (d.emit e).regs = d.regs := rfl
@[simp] theorem Dev.emit_sets (d : Dev) (e : Emission) : (d.emit e).sets = d.sets := rfl
@[simp] theorem Dev.emit_ev (d : Dev) (e : Emission) : (d.emit e).ev = d.ev := rfl
@[simp] theorem Dev.emit_clk (d : Dev) (e : Emission) : (d.emit e).clk = d.clk := rfl
@[simp] theorem Dev.emit_tim (d : Dev) (e : Emission) : (d.emit e).tim = d.tim := rfl
@[simp] theorem Dev.emit_start (d : Dev) (e : Emission) : (d.emit e).start = d.start := rfl
@[simp] theorem Dev.emit_ports (d : Dev) (e : Emission) : (d.emit e).ports = d.ports := rfl
@[simp] theorem Dev.emit_svr (d : Dev) (e : Emission) : (d.emit e).svr = d.svr := rfl
@[simp] theorem Dev.emit_recs (d : Dev) (e : Emission) : (d.emit e).recs = d.recs := rfl
@[simp] theorem Dev.emit_seq (d : Dev) (e : Emission) : (d.emit e).seq = d.seq := rfl
@[simp] theorem Dev.emit_stamp (d : Dev) (e : Emission) : (d.emit e).stamp = d.stamp := rfl
@[simp] theorem Dev.emit_cctData (d : Dev) (e : Emission) : (d.emit e).cctData = d.cctData := rfl
@[simp] theorem Dev.emit_coolCtl (d : Dev) (e : Emission) : (d.emit e).coolCtl = d.coolCtl := rfl
@[simp] theorem Dev.emit_planes (d : Dev) (e : Emission) : (d.emit e).planes = d.planes := rfl
@[simp] theorem Dev.emit_outs (d : Dev) (e : Emission) : (d.emit e).outs = d.outs := rfl
@[simp] theorem Dev.emit_startQ (d : Dev) (e : Emission) : (d.emit e).startQ = d.startQ := rfl
@[simp] theorem Dev.emit_startAt (d : Dev) (e : Emission) : (d.emit e).startAt = d.startAt := rfl
@[simp] theorem Dev.emit_ins (d : Dev) (e : Emission) : (d.emit e).ins = d.ins := rfl
@[simp] theorem Dev.emit_lanes (d : Dev) (e : Emission) : (d.emit e).lanes = d.lanes := rfl
@[simp] theorem Dev.emit_ldr (d : Dev) (e : Emission) : (d.emit e).ldr = d.ldr := rfl
@[simp] theorem Dev.emit_key (d : Dev) (e : Emission) : (d.emit e).key = d.key := rfl
@[simp] theorem Dev.emit_cmx (d : Dev) (e : Emission) : (d.emit e).cmx = d.cmx := rfl

/-! ### Elements -/

@[simp] theorem Dev.lane_modLane_self (d : Dev) (n : Nat) (f : Lane → Lane) : (d.modLane n f).lane n = f (d.lane n) :=
  Tbl.get_mod_self _ d.lanes n f

theorem Dev.lane_modLane_ne (d : Dev) (f : Lane → Lane) {n m : Nat} (h : m ≠ n) : (d.modLane n f).lane m = d.lane m :=
  Tbl.get_mod_ne _ d.lanes f h

@[simp] theorem Dev.inp_modIn_self (d : Dev) (n : Nat) (f : InSlot → InSlot) : (d.modIn n f).inp n = f (d.inp n) :=
  Tbl.get_mod_self _ d.ins n f

theorem Dev.inp_modIn_ne (d : Dev) (f : InSlot → InSlot) {n m : Nat} (h : m ≠ n) : (d.modIn n f).inp m = d.inp m :=
  Tbl.get_mod_ne _ d.ins f h

@[simp] theorem Dev.out_modOut_self (d : Dev) (n : Nat) (f : Out → Out) : (d.modOut n f).out n = f (d.out n) :=
  Tbl.get_mod_self _ d.outs n f

theorem Dev.out_modOut_ne (d : Dev) (f : Out → Out) {n m : Nat} (h : m ≠ n) : (d.modOut n f).out m = d.out m :=
  Tbl.get_mod_ne _ d.outs f h

@[simp] theorem Dev.op_modOp_self (d : Dev) (n : Nat) (p : Plane) (f : OutPlane → OutPlane) :
    (d.modOp n p f).op n p = f (d.op n p) := by simp [Dev.op, Dev.modOp]

theorem Dev.op_modOp_plane (d : Dev) (n : Nat) (f : OutPlane → OutPlane) {p q : Plane} (h : q ≠ p) :
    (d.modOp n p f).op n q = d.op n q := by simp [Dev.op, Dev.modOp, Duo.pl_modPl_ne _ f h]

theorem Dev.op_modOp_ne (d : Dev) (f : OutPlane → OutPlane) (p q : Plane) {n m : Nat} (h : m ≠ n) :
    (d.modOp n p f).op m q = d.op m q := by simp [Dev.op, Dev.modOp, Dev.out_modOut_ne d _ h]

@[simp] theorem Dev.plane_modPlane_self (d : Dev) (p : Plane) (f : PlaneSt → PlaneSt) :
    (d.modPlane p f).plane p = f (d.plane p) := Duo.pl_modPl_self d.planes p f

theorem Dev.plane_modPlane_ne (d : Dev) (f : PlaneSt → PlaneSt) {p q : Plane} (h : q ≠ p) :
    (d.modPlane p f).plane q = d.plane q := Duo.pl_modPl_ne d.planes f h

@[simp] theorem Dev.owner_modOwner_self (d : Dev) (p : Plane) (n : Nat) (f : Owner → Owner) :
    (d.modOwner p n f).owner p n = f (d.owner p n) := by simp [Dev.owner, Dev.modOwner]

theorem Dev.owner_modOwner_ne (d : Dev) (p : Plane) (f : Owner → Owner) {n m : Nat} (h : m ≠ n) :
    (d.modOwner p n f).owner p m = d.owner p m := by simp [Dev.owner, Dev.modOwner, Tbl.get_mod_ne _ _ _ h]

theorem Dev.owner_modOwner_plane (d : Dev) (f : Owner → Owner) (n m : Nat) {p q : Plane} (h : q ≠ p) :
    (d.modOwner p n f).owner q m = d.owner q m := by simp [Dev.owner, Dev.modOwner, Dev.plane_modPlane_ne d _ h]

@[simp] theorem Dev.port_modPort_self (d : Dev) (p : Port) (f : PortSt → PortSt) :
    (d.modPort p f).port p = f (d.port p) := Duo.po_modPo_self d.ports p f

theorem Dev.port_modPort_ne (d : Dev) (f : PortSt → PortSt) {p q : Port} (h : q ≠ p) :
    (d.modPort p f).port q = d.port q := Duo.po_modPo_ne d.ports f h

@[simp] theorem Dev.ring_modRing_self (d : Dev) (p : Port) (r : Nat) (f : SvRing → SvRing) :
    (d.modRing p r f).ring p r = f (d.ring p r) := Tbl.get_mod_self _ d.svr _ f

theorem Dev.ring_modRing_ne (d : Dev) (f : SvRing → SvRing) {p q : Port} {r k : Nat}
    (h : 16 * q.id + k ≠ 16 * p.id + r) : (d.modRing p r f).ring q k = d.ring q k := Tbl.get_mod_ne _ d.svr f h

@[simp] theorem Dev.tb_modTb_self (d : Dev) (p : Plane) (f : Timebase → Timebase) :
    (d.modTb p f).tb p = f (d.tb p) := Duo.pl_modPl_self d.tim.tb p f

theorem Dev.tb_modTb_ne (d : Dev) (f : Timebase → Timebase) {p q : Plane} (h : q ≠ p) :
    (d.modTb p f).tb q = d.tb q := Duo.pl_modPl_ne d.tim.tb f h

@[simp] theorem Dev.ref_modRef_self (d : Dev) (x : Nat) (f : RefIn → RefIn) : (d.modRef x f).ref x = f (d.ref x) :=
  Tbl.get_mod_self _ d.tim.inputs x f

theorem Dev.ref_modRef_ne (d : Dev) (f : RefIn → RefIn) {x y : Nat} (h : y ≠ x) : (d.modRef x f).ref y = d.ref y :=
  Tbl.get_mod_ne _ d.tim.inputs f h

end Sys2Proof.Machine
end

