-- ==== Sys2Proof/Laws/Registers.lean ====
section
/-! SUPPORT. Laws of the registers and of their fields: what a read answers after a write of the same field, of
another field, of another instance and of another register; and that no update of another part of the device
touches a register. -/

namespace Sys2Proof.Machine

/-- The registers are listed in the order of their numbers. -/
theorem RegName.all_ctorIdx (r : RegName) : RegName.all[r.ctorIdx]? = some r := by cases r <;> rfl

theorem RegName.ctorIdx_inj {r q : RegName} (h : r.ctorIdx = q.ctorIdx) : r = q := by
  have := RegName.all_ctorIdx r
  rw [h, RegName.all_ctorIdx q] at this
  exact (Option.some.inj this).symm

theorem RegName.key_ne_name {r q : RegName} (i j : Nat) (h : r ≠ q) : r.key i ≠ q.key j := by
  have : r.ctorIdx ≠ q.ctorIdx := fun e => h (RegName.ctorIdx_inj e)
  unfold RegName.key; omega

theorem RegName.key_ne_inst (r : RegName) {i j : Nat} (hi : i < 65536) (hj : j < 65536) (h : i ≠ j) : r.key i ≠ r.key j := by
  unfold RegName.key; omega

@[simp] theorem Dev.reg_setReg_self (d : Dev) (r : RegName) (i : Nat) (w : Word) : (d.setReg r i w).reg r i = w :=
  Tbl.get_set_self (r.reset i) d.regs (r.key i) w

theorem Dev.reg_setReg_name (d : Dev) (w : Word) (i j : Nat) {r q : RegName} (h : q ≠ r) :
    (d.setReg r i w).reg q j = d.reg q j := Tbl.get_set_ne (r.reset i) (q.reset j) d.regs w (RegName.key_ne_name j i h)

theorem Dev.reg_setReg_inst (d : Dev) (r : RegName) (w : Word) {i j : Nat} (hi : i < 65536) (hj : j < 65536) (h : j ≠ i) :
    (d.setReg r i w).reg r j = d.reg r j :=
  Tbl.get_set_ne (r.reset i) (r.reset j) d.regs w (RegName.key_ne_inst r hj hi h)

/-- A register read depends on the register table alone. -/
theorem Dev.reg_congr {d e : Dev} (h : d.regs = e.regs) (r : RegName) (i : Nat) : d.reg r i = e.reg r i := by
  simp [Dev.reg, h]

theorem Dev.rd_congr {d e : Dev} (h : d.regs = e.regs) (f : Field) (i : Nat) : d.rd f i = e.rd f i := by
  simp [Dev.rd, Dev.reg_congr h]

theorem Dev.flag_congr {d e : Dev} (h : d.regs = e.regs) (f : Field) (i : Nat) : d.flag f i = e.flag f i := by
  simp [Dev.flag, Dev.rd_congr h]

/-! ### Fields -/

/-- A number in two digits lies below the product of their bases. -/
theorem two_digits_lt {a b A B : Nat} (ha : a < A) (hb : b < B) : a + b * A < A * B := by
  have : (b + 1) * A ≤ B * A := Nat.mul_le_mul_right A hb
  rw [Nat.add_mul, Nat.mul_comm B A] at this; omega

theorem Field.get_lt (f : Field) (w : Word) : f.get w < 2 ^ f.width := Nat.mod_lt _ (by positivity)

/-- The parts of a word below, in and above a field. -/
theorem Field.split (f : Field) (x : Nat) :
    x = x % 2 ^ f.lo + (x / 2 ^ f.lo % 2 ^ f.width) * 2 ^ f.lo + x / 2 ^ f.lo / 2 ^ f.width * 2 ^ (f.lo + f.width) := by
  have h1 := Nat.mod_add_div x (2 ^ f.lo)
  have h2 := Nat.mod_add_div (x / 2 ^ f.lo) (2 ^ f.width)
  generalize x / 2 ^ f.lo / 2 ^ f.width = c at *
  generalize x / 2 ^ f.lo % 2 ^ f.width = b at *
  rw [← h2] at h1
  rw [pow_add]; linarith [h1, Nat.mul_add (2 ^ f.lo) b (2 ^ f.width * c)]

/-- The bits of a field's word after it is written. -/
theorem Field.put_toNat (f : Field) (w : Word) (v : Nat) (h : f.lo + f.width ≤ 32) :
    (f.put w v).toNat = w.toNat % 2 ^ f.lo + v % 2 ^ f.width * 2 ^ f.lo
      + w.toNat / 2 ^ f.lo / 2 ^ f.width * 2 ^ (f.lo + f.width) := by
  have hs := Field.split f w.toNat
  have hv : v % 2 ^ f.width < 2 ^ f.width := Nat.mod_lt _ (by positivity)
  have hl : w.toNat % 2 ^ f.lo < 2 ^ f.lo := Nat.mod_lt _ (by positivity)
  have hw : w.toNat < 2 ^ 32 := w.isLt
  have e : 2 ^ 32 = 2 ^ (f.lo + f.width) * 2 ^ (32 - (f.lo + f.width)) := by rw [← pow_add]; congr 1; omega
  have hq : w.toNat / 2 ^ f.lo / 2 ^ f.width < 2 ^ (32 - (f.lo + f.width)) := by
    rw [Nat.div_div_eq_div_mul, ← pow_add]
    apply Nat.div_lt_of_lt_mul; rw [← e]; exact hw
  have hb : w.toNat % 2 ^ f.lo + v % 2 ^ f.width * 2 ^ f.lo < 2 ^ (f.lo + f.width) := by
    rw [pow_add]; exact two_digits_lt hl hv
  have hsum : w.toNat % 2 ^ f.lo + v % 2 ^ f.width * 2 ^ f.lo
      + w.toNat / 2 ^ f.lo / 2 ^ f.width * 2 ^ (f.lo + f.width) < 2 ^ 32 := by rw [e]; exact two_digits_lt hb hq
  unfold Field.put Field.get
  rw [Nat.shiftRight_eq_div_pow, BitVec.toNat_ofNat]
  rw [show w.toNat - w.toNat / 2 ^ f.lo % 2 ^ f.width * 2 ^ f.lo + v % 2 ^ f.width * 2 ^ f.lo
      = w.toNat % 2 ^ f.lo + v % 2 ^ f.width * 2 ^ f.lo + w.toNat / 2 ^ f.lo / 2 ^ f.width * 2 ^ (f.lo + f.width) by omega]
  exact Nat.mod_eq_of_lt hsum

/-- A field reads as it was written, reduced to its width. -/
theorem Field.get_put_self (f : Field) (w : Word) (v : Nat) (h : f.lo + f.width ≤ 32) :
    f.get (f.put w v) = v % 2 ^ f.width := by
  have hl : w.toNat % 2 ^ f.lo < 2 ^ f.lo := Nat.mod_lt _ (by positivity)
  unfold Field.get
  rw [Nat.shiftRight_eq_div_pow, Field.put_toNat f w v h]
  rw [show w.toNat % 2 ^ f.lo + v % 2 ^ f.width * 2 ^ f.lo + w.toNat / 2 ^ f.lo / 2 ^ f.width * 2 ^ (f.lo + f.width)
      = w.toNat % 2 ^ f.lo + 2 ^ f.lo * (v % 2 ^ f.width + 2 ^ f.width * (w.toNat / 2 ^ f.lo / 2 ^ f.width)) by
        rw [pow_add]; ring]
  rw [Nat.add_mul_div_left _ _ (by positivity), Nat.div_eq_of_lt hl, Nat.zero_add, Nat.add_mul_mod_self_left,
    Nat.mod_mod]

/-- A field that lies above the one written reads as before. -/
theorem Field.get_put_above (f g : Field) (w : Word) (v : Nat) (h : f.lo + f.width ≤ 32) (hg : f.lo + f.width ≤ g.lo) :
    g.get (f.put w v) = g.get w := by
  have hv : v % 2 ^ f.width < 2 ^ f.width := Nat.mod_lt _ (by positivity)
  have hl : w.toNat % 2 ^ f.lo < 2 ^ f.lo := Nat.mod_lt _ (by positivity)
  have hb : w.toNat % 2 ^ f.lo + v % 2 ^ f.width * 2 ^ f.lo < 2 ^ (f.lo + f.width) := by
    rw [pow_add]; exact two_digits_lt hl hv
  have e : 2 ^ g.lo = 2 ^ (f.lo + f.width) * 2 ^ (g.lo - (f.lo + f.width)) := by rw [← pow_add]; congr 1; omega
  unfold Field.get
  rw [Nat.shiftRight_eq_div_pow, Nat.shiftRight_eq_div_pow, Field.put_toNat f w v h, e, ← Nat.div_div_eq_div_mul,
    ← Nat.div_div_eq_div_mul, Nat.add_mul_div_right _ _ (by positivity), Nat.div_eq_of_lt hb, Nat.zero_add,
    Nat.div_div_eq_div_mul w.toNat, ← pow_add]

/-- A field that lies below the one written reads as before. -/
theorem Field.get_put_below (f g : Field) (w : Word) (v : Nat) (h : f.lo + f.width ≤ 32) (hg : g.lo + g.width ≤ f.lo) :
    g.get (f.put w v) = g.get w := by
  have key : ∀ x : Nat, x / 2 ^ g.lo % 2 ^ g.width = x % 2 ^ (g.lo + g.width) / 2 ^ g.lo := by
    intro x; rw [pow_add, Nat.mod_mul_right_div_self]
  unfold Field.get
  rw [Nat.shiftRight_eq_div_pow, Nat.shiftRight_eq_div_pow, key, key]
  congr 1
  rw [Field.put_toNat f w v h]
  have e : 2 ^ f.lo = 2 ^ (g.lo + g.width) * 2 ^ (f.lo - (g.lo + g.width)) := by rw [← pow_add]; congr 1; omega
  rw [show w.toNat % 2 ^ f.lo + v % 2 ^ f.width * 2 ^ f.lo + w.toNat / 2 ^ f.lo / 2 ^ f.width * 2 ^ (f.lo + f.width)
      = w.toNat % 2 ^ f.lo + 2 ^ (g.lo + g.width) * (2 ^ (f.lo - (g.lo + g.width)) * (v % 2 ^ f.width
          + w.toNat / 2 ^ f.lo / 2 ^ f.width * 2 ^ f.width)) by rw [pow_add 2 f.lo, e]; ring]
  rw [Nat.add_mul_mod_self_left, e, Nat.mod_mul_right_mod]

/-! ### Reads after writes -/

/-- A field reads as it was written. -/
theorem Dev.rd_wr_self (d : Dev) (f : Field) (v i : Nat) (h : f.lo + f.width ≤ 32) :
    (d.wr f v i).rd f i = v % 2 ^ f.width := by simp [Dev.rd, Dev.wr, Field.get_put_self f _ v h]

/-- Another field of the same register reads as before. -/
theorem Dev.rd_wr_field (d : Dev) (f g : Field) (v i : Nat) (hr : g.reg = f.reg) (h : f.lo + f.width ≤ 32)
    (hd : f.lo + f.width ≤ g.lo ∨ g.lo + g.width ≤ f.lo) : (d.wr f v i).rd g i = d.rd g i := by
  rcases hd with hd | hd
  · simp [Dev.rd, Dev.wr, hr, Field.get_put_above f g _ v h hd]
  · simp [Dev.rd, Dev.wr, hr, Field.get_put_below f g _ v h hd]

/-- A field of another register reads as before. -/
theorem Dev.rd_wr_name (d : Dev) (f g : Field) (v i j : Nat) (h : g.reg ≠ f.reg) : (d.wr f v i).rd g j = d.rd g j := by
  simp [Dev.rd, Dev.wr, Dev.reg_setReg_name d _ i j h]

/-- A field of another instance reads as before. -/
theorem Dev.rd_wr_inst (d : Dev) (f g : Field) (v : Nat) {i j : Nat} (hr : g.reg = f.reg) (hi : i < 65536) (hj : j < 65536)
    (h : j ≠ i) : (d.wr f v i).rd g j = d.rd g j := by
  simp [Dev.rd, Dev.wr, hr, Dev.reg_setReg_inst d f.reg _ hi hj h]

@[simp] theorem Dev.reg_wr_self (d : Dev) (f : Field) (v i : Nat) : (d.wr f v i).reg f.reg i = f.put (d.reg f.reg i) v := by
  simp [Dev.wr]

theorem Dev.reg_wr_name (d : Dev) (f : Field) (v i j : Nat) {r : RegName} (h : r ≠ f.reg) :
    (d.wr f v i).reg r j = d.reg r j := Dev.reg_setReg_name d _ i j h

/-- A value that fits a field is read back whole. -/
theorem Dev.rd_wr_fits (d : Dev) (f : Field) (v i : Nat) (h : f.lo + f.width ≤ 32) (hv : v < 2 ^ f.width) :
    (d.wr f v i).rd f i = v := by rw [Dev.rd_wr_self d f v i h, Nat.mod_eq_of_lt hv]

end Sys2Proof.Machine
end

