-- ==== Sys2Proof/Laws/Frames.lean ====
section
/-! SUPPORT. Laws of `Keeps`: it composes, and each update of the device keeps all but the part it writes. -/

namespace Sys2Proof.Machine

theorem Area.same_refl (d : Dev) (a : Area) : a.same d d := by
  cases a <;> first | rfl | exact ⟨rfl, rfl⟩

theorem Area.same_trans {d e f : Dev} {a : Area} (h : a.same d e) (k : a.same e f) : a.same d f := by
  cases a <;> first | exact Eq.trans k h | exact ⟨k.1.trans h.1, k.2.trans h.2⟩

theorem Keeps.refl (as : List Area) (rs : List RegName) (d : Dev) : Keeps as rs d d :=
  ⟨rfl, fun a _ => Area.same_refl d a, fun _ _ _ => rfl⟩

theorem Keeps.trans {as : List Area} {rs : List RegName} {d e f : Dev} (h : Keeps as rs d e) (k : Keeps as rs e f) :
    Keeps as rs d f :=
  ⟨k.1.trans h.1, fun a ha => Area.same_trans (h.2.1 a ha) (k.2.1 a ha), fun r i hr => (k.2.2 r i hr).trans (h.2.2 r i hr)⟩

theorem Keeps.mono {as bs : List Area} {rs qs : List RegName} {d e : Dev} (h : Keeps as rs d e) (ha : as ⊆ bs)
    (hr : rs ⊆ qs) : Keeps bs qs d e :=
  ⟨h.1, fun a hb => h.2.1 a fun h => hb (ha h), fun r i hq => h.2.2 r i fun h => hq (hr h)⟩

/-- What two updates keep, one after the other. -/
theorem Keeps.append {as bs : List Area} {rs qs : List RegName} {d e f : Dev} (h : Keeps as rs d e) (k : Keeps bs qs e f) :
    Keeps (as ++ bs) (rs ++ qs) d f :=
  (h.mono (by simp) (by simp)).trans (k.mono (by simp) (by simp))

/-- A frame said of a device and of another that has the same areas and registers. -/
theorem Keeps.of_same {as : List Area} {rs : List RegName} {d e : Dev} (hn : e.now = d.now) (hr : e.regs = d.regs)
    (ha : ∀ a : Area, a ∉ as → a.same d e) : Keeps as rs d e :=
  ⟨hn, ha, fun r i _ => Dev.reg_congr hr r i⟩

theorem Keeps.ite {as : List Area} {rs : List RegName} {d e f : Dev} {c : Prop} [Decidable c]
    (h : c → Keeps as rs d e) (k : ¬c → Keeps as rs d f) : Keeps as rs d (if c then e else f) := by
  split
  · exact h ‹_›
  · exact k ‹_›

theorem Keeps.when {as : List Area} {rs : List RegName} {d : Dev} {b : Bool} {f : Dev → Dev}
    (h : b = true → Keeps as rs d (f d)) : Keeps as rs d (d.when b f) := by
  unfold Dev.when; split
  · exact h ‹_›
  · exact Keeps.refl as rs d

theorem Keeps.each {α : Type} {as : List Area} {rs : List RegName} (xs : List α) (f : Dev → α → Dev)
    (h : ∀ (d : Dev) (x : α), x ∈ xs → Keeps as rs d (f d x)) (d : Dev) : Keeps as rs d (d.each xs f) := by
  unfold Dev.each
  induction xs generalizing d with
  | nil => exact Keeps.refl as rs d
  | cons x xs ih =>
    exact (h d x (by simp)).trans (ih (fun d y hy => h d y (by simp [hy])) (f d x))

/-! ### The updates -/

theorem keeps_setReg (as : List Area) {rs : List RegName} (d : Dev) {r : RegName} (i : Nat) (w : Word) (h : r ∈ rs) :
    Keeps as rs d (d.setReg r i w) :=
  ⟨rfl, fun a _ => by cases a <;> first | rfl | exact ⟨rfl, rfl⟩,
    fun q j hq => Dev.reg_setReg_name d w i j (by rintro rfl; exact hq h)⟩

theorem keeps_wr (as : List Area) {rs : List RegName} (d : Dev) {f : Field} (v i : Nat) (h : f.reg ∈ rs) :
    Keeps as rs d (d.wr f v i) := keeps_setReg as d i _ h

theorem keeps_bump (as : List Area) {rs : List RegName} (d : Dev) {f : Field} (i n : Nat) (h : f.reg ∈ rs) :
    Keeps as rs d (d.bump f i n) := keeps_wr as d _ i h

theorem keeps_emit {as : List Area} (rs : List RegName) (d : Dev) (e : Emission) (h : Area.emitted ∈ as) :
    Keeps as rs d (d.emit e) :=
  Keeps.of_same rfl rfl fun a ha => by
    cases a <;> first | exact absurd h ha | rfl | exact ⟨rfl, rfl⟩

theorem keeps_ev {as : List Area} (rs : List RegName) (d : Dev) (e : EventUnit) (h : Area.ev ∈ as) :
    Keeps as rs d { d with ev := e } :=
  Keeps.of_same rfl rfl fun a ha => by
    cases a <;> first | exact absurd h ha | rfl | exact ⟨rfl, rfl⟩

theorem keeps_recs {as : List Area} (rs : List RegName) (d : Dev) (e : Tbl RecSt) (h : Area.recs ∈ as) :
    Keeps as rs d { d with recs := e } :=
  Keeps.of_same rfl rfl fun a ha => by
    cases a <;> first | exact absurd h ha | rfl | exact ⟨rfl, rfl⟩

theorem keeps_ldr {as : List Area} (rs : List RegName) (d : Dev) (e : LarderUnit) (h : Area.ldr ∈ as) :
    Keeps as rs d { d with ldr := e } :=
  Keeps.of_same rfl rfl fun a ha => by
    cases a <;> first | exact absurd h ha | rfl | exact ⟨rfl, rfl⟩

theorem keeps_modPort {as : List Area} (rs : List RegName) (d : Dev) (p : Port) (f : PortSt → PortSt) (h : Area.ports ∈ as) :
    Keeps as rs d (d.modPort p f) :=
  Keeps.of_same rfl rfl fun a ha => by
    cases a <;> first | exact absurd h ha | rfl | exact ⟨rfl, rfl⟩

theorem keeps_modLane {as : List Area} (rs : List RegName) (d : Dev) (n : Nat) (f : Lane → Lane) (h : Area.lanes ∈ as) :
    Keeps as rs d (d.modLane n f) :=
  Keeps.of_same rfl rfl fun a ha => by
    cases a <;> first | exact absurd h ha | rfl | exact ⟨rfl, rfl⟩

theorem keeps_modIn {as : List Area} (rs : List RegName) (d : Dev) (n : Nat) (f : InSlot → InSlot) (h : Area.ins ∈ as) :
    Keeps as rs d (d.modIn n f) :=
  Keeps.of_same rfl rfl fun a ha => by
    cases a <;> first | exact absurd h ha | rfl | exact ⟨rfl, rfl⟩

theorem keeps_modOut {as : List Area} (rs : List RegName) (d : Dev) (n : Nat) (f : Out → Out) (h : Area.outs ∈ as) :
    Keeps as rs d (d.modOut n f) :=
  Keeps.of_same rfl rfl fun a ha => by
    cases a <;> first | exact absurd h ha | rfl | exact ⟨rfl, rfl⟩

theorem keeps_modPlane {as : List Area} (rs : List RegName) (d : Dev) (p : Plane) (f : PlaneSt → PlaneSt)
    (h : Area.planes ∈ as) : Keeps as rs d (d.modPlane p f) :=
  Keeps.of_same rfl rfl fun a ha => by
    cases a <;> first | exact absurd h ha | rfl | exact ⟨rfl, rfl⟩

theorem keeps_modRing {as : List Area} (rs : List RegName) (d : Dev) (p : Port) (r : Nat) (f : SvRing → SvRing)
    (h : Area.svr ∈ as) : Keeps as rs d (d.modRing p r f) :=
  Keeps.of_same rfl rfl fun a ha => by
    cases a <;> first | exact absurd h ha | rfl | exact ⟨rfl, rfl⟩

theorem keeps_tim {as : List Area} (rs : List RegName) (d : Dev) (e : TimingUnit) (h : Area.tim ∈ as) :
    Keeps as rs d { d with tim := e } :=
  Keeps.of_same rfl rfl fun a ha => by
    cases a <;> first | exact absurd h ha | rfl | exact ⟨rfl, rfl⟩

end Sys2Proof.Machine
end

