-- ==== Sys2Proof/Laws/Meanings.lean ====
section
/-! SUPPORT. Laws of the two shapes every meaning has, `onDev` and `onMem`: when a command answers a next state and
what that state is; and how `Runs` and `RunsMem` follow from them. -/

namespace Sys2Proof.Machine

theorem onDev_true (t : Nat) (s : State) (f : Dev → Dev) : onDev true t s f = .next { s with dev := f (s.on t) } := rfl

theorem onDev_false (t : Nat) (s : State) (f : Dev → Dev) : onDev false t s f = .fault .noSuchElement := rfl

/-- Everything `onDev` can do. -/
theorem onDev_next {ok : Bool} {t : Nat} {s s' : State} {f : Dev → Dev} :
    onDev ok t s f = .next s' ↔ ok = true ∧ s' = { s with dev := f (s.on t) } := by
  cases ok <;> simp [onDev, State.on, eq_comm]

theorem onMem_true (t : Nat) (s : State) (f : Mems → Dev → Mems × Dev) :
    onMem true t s f = .next { s with mem := (f s.mem (s.on t)).1, dev := (f s.mem (s.on t)).2 } := rfl

theorem onMem_false (t : Nat) (s : State) (f : Mems → Dev → Mems × Dev) : onMem false t s f = .fault .noSuchElement := rfl

/-- Everything `onMem` can do. -/
theorem onMem_next {ok : Bool} {t : Nat} {s s' : State} {f : Mems → Dev → Mems × Dev} :
    onMem ok t s f = .next s' ↔
      ok = true ∧ s' = { s with mem := (f s.mem (s.on t)).1, dev := (f s.mem (s.on t)).2 } := by
  cases ok <;> simp [onMem, State.on, eq_comm]

theorem Runs.of_onDev {c : Instr} {s : State} {P : Dev → Prop} {ok : Bool} {t : Nat} {f : Dev → Dev}
    (h : exec c s = onDev ok t s f) (hok : ok = true) (hP : P (f (s.on t))) : Runs c s P :=
  ⟨f (s.on t), by rw [h, hok]; rfl, hP⟩

theorem RunsMem.of_onMem {c : Instr} {s : State} {P : Mems → Dev → Prop} {ok : Bool} {t : Nat}
    {f : Mems → Dev → Mems × Dev} (h : exec c s = onMem ok t s f) (hok : ok = true)
    (hP : P (f s.mem (s.on t)).1 (f s.mem (s.on t)).2) : RunsMem c s P :=
  ⟨_, _, by rw [h, hok]; rfl, hP⟩

theorem OnlyTime.of_onDev {c : Instr} {s : State} {ok : Bool} {t : Nat} {f : Dev → Dev}
    (h : exec c s = onDev ok t s f) (hok : ok = true) (hf : f (s.on t) = s.on t) : OnlyTime c s t := by
  rw [OnlyTime, h, hok, onDev_true, hf]

theorem Runs.mono {c : Instr} {s : State} {P Q : Dev → Prop} (h : Runs c s P) (k : ∀ d, P d → Q d) : Runs c s Q :=
  ⟨h.choose, h.choose_spec.1, k _ h.choose_spec.2⟩

/-- Time alone writes no register. -/
theorem Dev.slew_regs (d : Dev) (z : Int) : (d.slew z).regs = d.regs := by
  simp only [Dev.slew, Dev.when]; split <;> split <;> rfl

theorem Dev.slewFor_regs (d : Dev) (n : Nat) : (d.slewFor n).regs = d.regs := by
  simp only [Dev.slewFor]; split
  · exact Dev.slew_regs _ _
  · split
    · exact (Dev.slew_regs _ _).trans rfl
    · rfl

/-- What each of a list does to no register, the list does not. -/
theorem Dev.each_regs {α : Type} (l : List α) (f : Dev → α → Dev) (h : ∀ d x, (f d x).regs = d.regs) (d : Dev) :
    (d.each l f).regs = d.regs := by
  induction l generalizing d with
  | nil => rfl
  | cons x l ih => exact (ih (f d x)).trans (h d x)

theorem Dev.placeSkps_regs (d : Dev) : d.placeSkps.regs = d.regs :=
  Dev.each_regs _ _ (fun d x => by dsimp only; split <;> rfl) d

theorem Dev.advance_regs (d : Dev) (t : Nat) : (d.advance t).regs = d.regs := by
  simp only [Dev.advance]; rw [Dev.placeSkps_regs]; split
  · exact Dev.slewFor_regs _ _
  · rfl

@[simp] theorem State.on_reg (s : State) (t : Nat) (r : RegName) (i : Nat) : (s.on t).reg r i = s.dev.reg r i :=
  Dev.reg_congr (Dev.advance_regs s.dev t) r i

@[simp] theorem State.on_rd (s : State) (t : Nat) (f : Field) (i : Nat) : (s.on t).rd f i = s.dev.rd f i :=
  Dev.rd_congr (Dev.advance_regs s.dev t) f i

@[simp] theorem State.on_flag (s : State) (t : Nat) (f : Field) (i : Nat) : (s.on t).flag f i = s.dev.flag f i :=
  Dev.flag_congr (Dev.advance_regs s.dev t) f i

end Sys2Proof.Machine
end

