-- ==== Sys2Proof/Laws/Events.lean ====
section
/-! SUPPORT. Raising an event or a cause changes only the event unit, the record rings and what is put out, a port's
MSI-X pending bits and slot generations, the Fault Log's buffer and the registers of `evRegs` (chapter 12). -/

namespace Sys2Proof.Machine

/-- Only what chapter 12 may change has changed. -/
abbrev EvOnly (d e : Dev) : Prop := Keeps evAreas evRegs d e

theorem EvOnly.refl (d : Dev) : EvOnly d d := Keeps.refl _ _ d

theorem evOnly_ev (d : Dev) (e : EventUnit) : EvOnly d { d with ev := e } := keeps_ev _ d e (by decide)

theorem evOnly_modRec (d : Dev) (p : Port) (r : RecRing) (f : RecSt → RecSt) : EvOnly d (d.modRec p r f) :=
  keeps_recs _ d _ (by decide)

theorem evOnly_emit (d : Dev) (e : Emission) : EvOnly d (d.emit e) := keeps_emit _ d e (by decide)

theorem evOnly_hostWrite (d : Dev) (p : Port) (a : Nat) (bs : List Byte) : EvOnly d (d.hostWrite p a bs) :=
  evOnly_emit d _

theorem evOnly_modPort (d : Dev) (p : Port) (f : PortSt → PortSt) : EvOnly d (d.modPort p f) :=
  keeps_modPort _ d p f (by decide)

theorem evOnly_modCause (d : Dev) (s : Nat) (f : Cause → Cause) : EvOnly d (d.modCause s f) := evOnly_ev d _

theorem evOnly_modWaits (d : Dev) (p : Port) (f : List CauseRec → List CauseRec) : EvOnly d (d.modWaits p f) := evOnly_ev d _

theorem evOnly_modSrc (d : Dev) (s : Nat) (f : EvSrc → EvSrc) : EvOnly d (d.modSrc s f) := evOnly_ev d _

theorem evOnly_raiseMsix (d : Dev) (p : Port) (v : Nat) : EvOnly d (d.raiseMsix p v) := by
  unfold Dev.raiseMsix
  exact Keeps.ite (fun _ => evOnly_modPort d p _) fun _ => evOnly_emit d _

theorem evOnly_announce (d : Dev) (p : Port) (r : RecRing) : EvOnly d (d.announce p r) :=
  (evOnly_modRec d p r _).trans (evOnly_raiseMsix _ p _)

/-- A record written into an Event Ring. -/
theorem evOnly_writeRecord (d : Dev) (p : Port) (e : Nat) (bs : List Byte) (now : Bool) :
    EvOnly d (d.writeRecord p (.evr e) bs now) := by
  have pi : ∀ (x : Dev) (v i : Nat), EvOnly x (x.wr (recRegs p (.evr e)).pi v i) := fun x v i =>
    keeps_wr _ x v i (show F.HIF_EVR_STATUS_pi.reg ∈ evRegs by decide)
  have phase : ∀ (x : Dev) (v i : Nat), EvOnly x (x.wr (recRegs p (.evr e)).phase v i) := fun x v i =>
    keeps_wr _ x v i (show F.HIF_EVR_STATUS_phase.reg ∈ evRegs by decide)
  unfold Dev.writeRecord
  dsimp only
  refine Keeps.trans ?_ (Keeps.ite (fun _ => evOnly_announce _ p _) fun _ => evOnly_modRec _ p _ _)
  exact ((evOnly_hostWrite d p _ _).trans (pi _ _ _)).trans (Keeps.ite (fun _ => phase _ _ _) fun _ => Keeps.refl _ _ _)

theorem evOnly_flushLost (d : Dev) (p : Port) (e : Nat) : EvOnly d (d.flushLost p (.evr e)) := by
  unfold Dev.flushLost
  dsimp only
  refine Keeps.ite (fun _ => ?_) fun _ => EvOnly.refl d
  refine Keeps.trans ?_ (keeps_bump _ _ _ _ (by decide))
  refine Keeps.trans ?_ (evOnly_writeRecord _ p e _ _)
  exact (evOnly_modRec d p _ _).trans (Keeps.when fun _ => evOnly_hostWrite _ p _ _)

theorem evOnly_loseRecord (d : Dev) (p : Port) (r : RecRing) (s : Nat) : EvOnly d (d.loseRecord p r s) := evOnly_modRec d p r _

theorem evOnly_drop (d : Dev) (p : Port) (n : Nat) : EvOnly d (d.drop p n) := keeps_bump _ d _ _ (by decide)

theorem evOnly_writeOrdinary (d : Dev) (p : Port) (s : Nat) (w : EvWait) : EvOnly d (d.writeOrdinary p s w) := by
  unfold Dev.writeOrdinary Dev.evRing
  dsimp only
  generalize d.rd F.HIF_EV_ROUTE_ring (16 * p.id + evGroup s) = e
  refine Keeps.ite (fun _ => EvOnly.refl d) fun _ => Keeps.ite (fun _ => evOnly_drop d p _) fun _ =>
    Keeps.ite (fun _ => keeps_bump _ d _ _ (by decide)) fun _ => ?_
  refine (evOnly_flushLost d p e).trans (Keeps.ite (fun _ => ?_) fun _ => ?_)
  · exact (evOnly_writeRecord _ p e _ _).trans (keeps_bump _ _ _ _ (by decide))
  · exact (evOnly_loseRecord _ p _ s).trans (keeps_bump _ _ _ _ (by decide))

theorem evOnly_writeCause (d : Dev) (p : Port) (c : CauseRec) : EvOnly d (d.writeCause p c) := by
  unfold Dev.writeCause
  dsimp only
  refine Keeps.ite (fun _ => EvOnly.refl d) fun _ => Keeps.ite (fun _ => evOnly_drop d p _) fun _ =>
    Keeps.ite (fun _ => keeps_bump _ d _ _ (by decide)) fun _ => Keeps.ite (fun _ => ?_) fun _ => evOnly_modWaits d p _
  exact (evOnly_writeRecord d p _ _ _).trans (keeps_bump _ _ _ _ (by decide))

theorem evOnly_drainCauses (d : Dev) (p : Port) (cs : List CauseRec) : EvOnly d (d.drainCauses p cs) := by
  induction cs generalizing d with
  | nil => exact EvOnly.refl d
  | cons c cs ih =>
    unfold Dev.drainCauses
    refine Keeps.trans ((evOnly_modWaits d p _).trans (Keeps.ite (fun _ => ?_) fun _ => evOnly_modWaits _ p _)) (ih _)
    exact (evOnly_writeRecord _ p _ _ _).trans (keeps_bump _ _ _ _ (by decide))

theorem evOnly_eventSpace (d : Dev) (p : Port) : EvOnly d (d.eventSpace p) := by
  unfold Dev.eventSpace
  exact Keeps.ite (fun _ => EvOnly.refl d) fun _ =>
    (evOnly_drainCauses d p _).trans (Keeps.each _ _ (fun d e _ => evOnly_flushLost d p e) _)

theorem evOnly_logFault (d : Dev) (src code id a0 a1 : Nat) : EvOnly d (d.logFault src code id a0 a1) := by
  unfold Dev.logFault Dev.countUp
  exact Keeps.ite (fun _ => keeps_ldr _ d _ (by decide)) fun _ => keeps_ldr _ d _ (by decide)

theorem evOnly_serveSrc (d : Dev) (s : Nat) : EvOnly d (d.serveSrc s) := by
  unfold Dev.serveSrc
  dsimp only
  split
  · exact EvOnly.refl d
  · refine Keeps.ite (fun _ => EvOnly.refl d) fun _ => ?_
    refine Keeps.trans ?_ (Keeps.when fun _ => evOnly_logFault _ _ _ _ _ _)
    exact ((evOnly_modSrc d s _).trans (evOnly_writeOrdinary _ .a s _)).trans (evOnly_writeOrdinary _ .b s _)

theorem evOnly_serviceSrc (d : Dev) (s : Nat) : EvOnly d (d.serviceSrc s) := by
  unfold Dev.serviceSrc
  exact ((evOnly_serveSrc d s).trans (Keeps.when fun _ => evOnly_drainCauses _ .a _)).trans
    (Keeps.when fun _ => evOnly_drainCauses _ .b _)

theorem evOnly_noteCover (d : Dev) : EvOnly d d.noteCover := evOnly_ev d _

theorem evOnly_foldOn (d : Dev) (p : Port) (s : Nat) (w : EvWait) : EvOnly d (d.foldOn p s w).2 := by
  unfold Dev.foldOn
  split
  · split
    · exact (evOnly_modCause d _ _).trans (keeps_bump _ _ _ _ (by decide))
    · exact EvOnly.refl d
  · exact EvOnly.refl d

theorem evOnly_writeSlot (d : Dev) (p : Port) (k : Cause) (final : Bool) : EvOnly d (d.writeSlot p k final) := by
  unfold Dev.writeSlot
  split
  · exact EvOnly.refl d
  · refine Keeps.ite (fun _ => EvOnly.refl d) fun _ => ?_
    exact ((evOnly_modPort d p _).trans (evOnly_modCause _ _ _)).trans (evOnly_hostWrite _ p _ _)

theorem evOnly_newCause (d : Dev) (s code a0 a1 parent : Nat) (codes : List Nat) :
    EvOnly d (d.newCause s code a0 a1 parent codes) := by
  unfold Dev.newCause
  dsimp only
  refine Keeps.trans ?_ ((evOnly_logFault _ _ _ _ _ _).trans (evOnly_noteCover _))
  exact ((((evOnly_ev d _).trans (evOnly_writeSlot _ _ _ _)).trans (evOnly_writeCause _ _ _)).trans
    (evOnly_writeSlot _ _ _ _)).trans (evOnly_writeCause _ _ _)

theorem evOnly_resumeCause (d : Dev) (k : Cause) (a0 a1 : Nat) : EvOnly d (d.resumeCause k a0 a1) := by
  have one : ∀ (d : Dev) (p : Port) (k' : Cause) (r : CauseRec) (f : List CauseRec → List CauseRec),
      EvOnly d (if d.bothWait p k.src then
          (d.modCause k.src fun c => { c with dirty := c.dirty.modPo p fun _ => true }).modWaits p f
        else (d.writeSlot p k' false).writeCause p r) :=
    fun d p k' r f => Keeps.ite (fun _ => (evOnly_modCause d _ _).trans (evOnly_modWaits _ p f)) fun _ =>
      (evOnly_writeSlot d p k' false).trans (evOnly_writeCause _ p r)
  unfold Dev.resumeCause
  dsimp only
  exact (((evOnly_modCause d _ _).trans (one _ _ _ _ _)).trans (one _ _ _ _ _)).trans (evOnly_noteCover _)

/-- A cause's condition begins. -/
theorem evOnly_setCause (d : Dev) (s code a0 a1 parent : Nat) (codes : List Nat) :
    EvOnly d (d.setCause s code a0 a1 parent codes) := by
  unfold Dev.setCause
  split
  · refine Keeps.ite (fun _ => evOnly_modCause d s _) fun _ => Keeps.ite (fun _ => evOnly_resumeCause d _ a0 a1) fun _ => ?_
    exact evOnly_newCause d s code a0 a1 parent codes
  · exact evOnly_newCause d s code a0 a1 parent codes

/-- A cause's condition ends. -/
theorem evOnly_endCause (d : Dev) (s : Nat) : EvOnly d (d.endCause s) := evOnly_modCause d s _

/-- A cause has ended. -/
theorem evOnly_clearCause (d : Dev) (s : Nat) : EvOnly d (d.clearCause s) := by
  unfold Dev.clearCause
  split
  · exact EvOnly.refl d
  · dsimp only
    exact ((((evOnly_modCause d s _).trans (evOnly_writeSlot _ _ _ _)).trans (evOnly_writeCause _ _ _)).trans
      ((evOnly_writeSlot _ _ _ _).trans (evOnly_writeCause _ _ _))).trans (evOnly_logFault _ _ _ _ _ _)

theorem evOnly_squallNote (d : Dev) (s c : Nat) : EvOnly d (d.squallNote s c) := by
  unfold Dev.squallNote
  dsimp only
  split
  · refine Keeps.ite (fun _ => evOnly_ev d _) fun _ => Keeps.ite (fun _ => evOnly_ev d _) fun _ => evOnly_ev d _
  · refine Keeps.ite (fun _ => Keeps.trans ?_ (evOnly_newCause _ _ _ _ _ _ _)) fun _ => evOnly_ev d _
    exact evOnly_ev d _

/-- An occurrence of an event source. -/
theorem evOnly_occur (d : Dev) (s code a0 a1 cnt : Nat) (time : Option Nat) : EvOnly d (d.occur s code a0 a1 cnt time) := by
  have one : ∀ (d : Dev) (p : Port) (b : Bool), EvOnly d (d.when b fun d => d.loseRecord p (d.evRing p s) s) :=
    fun d p b => Keeps.when fun _ => evOnly_loseRecord d p _ s
  unfold Dev.occur
  dsimp only
  have squall : EvOnly d (d.when (foldable s code &&
      !d.ev.causes.any fun k => k.active && k.src != evSquall && d.covers k s code cnt) fun d => d.squallNote s code) :=
    Keeps.when fun _ => evOnly_squallNote d s code
  generalize Dev.when d _ _ = e at squall ⊢
  refine squall.trans (Keeps.trans ?_ (evOnly_serviceSrc _ s))
  refine Keeps.ite (fun _ => evOnly_modSrc _ s _) fun _ => Keeps.ite (fun _ => evOnly_modSrc _ s _) fun _ =>
    Keeps.ite (fun _ => ?_) fun _ => evOnly_modSrc _ s _
  exact (one _ .a _).trans (one _ .b _)

/-- The end of a gather. -/
theorem evOnly_endGather (d : Dev) (s : Nat) : EvOnly d (d.endGather s) := by
  unfold Dev.endGather
  dsimp only
  split
  · exact EvOnly.refl d
  · rename_i w _
    refine ((evOnly_foldOn d .a s w).trans (evOnly_foldOn _ .b s w)).trans (Keeps.ite (fun _ => ?_) fun _ => ?_)
    · exact (evOnly_modSrc _ s _).trans (evOnly_serviceSrc _ s)
    · exact (evOnly_modSrc _ s _).trans (evOnly_serviceSrc _ s)

end Sys2Proof.Machine
end

