-- ==== Sys2Proof/Tests/Slice0.lean ====
section
/-! SUPPORT. The model's own tests: ill-formed commands, and for every obligation with hypotheses a witness: concrete
states and operands that meet all the hypotheses of each of its clauses together, at which its command runs. A theorem
`test_<Name>` takes the obligation as a premise and applies it at the witnesses. -/

namespace Sys2Proof.Machine.Tests

set_option maxRecDepth 100000
set_option Elab.async false

/-! ### Ill-formed commands -/

/-- One command for each check of `Instr.wf`, its index one past the last element; none is well-formed. -/
theorem test_ill_formed :
    ([.suppliesValid 0 64, .railDeparture 0 8, .brownOut 0 true (.programming 32), .omLock 0 48, .synLock 0 6,
      .ratioRampStep 0 8 1, .safeStateTrigger 0 5, .safeStateTrigger 0 0, .clockGateDone 0 50, .refinLost 0 4 0,
      .qualSample 0 5 0, .refinEdgesReturn 0 4, .refinEdgesReturn 0 6, .tbClassWrite 0 16 0#32, .laneEnable 0 384,
      .slotBufferGate 0 1152, .rasterChange 0 1152, .nop 0 .a 16, .msixModerationExpiry 0 .a (.cpr 16),
      .msixModerationExpiry 0 .a (.evr 32), .hostReadTimeout 0 .a (.descriptor 16), .hostReadTimeout 0 .a (.cct 4096),
      .audioMapScrub 0 .a 18432 .corrected, .pageMapScrub 0 .a 2097152 .corrected, .resourceReturn 0 .a 4096,
      .engineWatchdog 0 96, .asrunCheckpoint 0 .a 4, .gatherExpiry 0 6784, .foldSlotRewrite 0 .a 16 true,
      .ckoConfigWrite 0 8 false 0, .ramblerWatchdog 0 4, .cmxMasterReset 0 11, .cmxSegment 0 10,
      .cmxRequest 0 11 0 false 0 0 1 none [] [], .cmxRequest 0 0 16 false 0 0 1 none [] [],
      .cmxRequest 0 0 0 false 3 0 1 none [] [], .cmxRequest 0 0 0 false 0 0 0 none [] [],
      .cmxRequest 0 0 0 false 0 0 257 none [] []] : List Instr).all (fun c => !c.wf) = true := by decide

/-- The last element of each kind is well-formed. -/
theorem test_well_formed :
    ([.suppliesValid 0 63, .railDeparture 0 7, .brownOut 0 true (.programming 31), .omLock 0 47, .synLock 0 5,
      .ratioRampStep 0 7 1, .safeStateTrigger 0 4, .clockGateDone 0 49, .refinLost 0 3 0, .qualSample 0 4 0,
      .refinEdgesReturn 0 5, .tbClassWrite 0 15 0#32, .laneEnable 0 383, .slotBufferGate 0 1151, .rasterChange 0 1151,
      .nop 0 .a 15, .msixModerationExpiry 0 .a (.cpr 15), .msixModerationExpiry 0 .a (.evr 31),
      .hostReadTimeout 0 .a (.cct 4095), .audioMapScrub 0 .a 18431 .corrected, .pageMapScrub 0 .a 2097151 .corrected,
      .resourceReturn 0 .a 4095, .engineWatchdog 0 95, .asrunCheckpoint 0 .a 3, .gatherExpiry 0 6783,
      .foldSlotRewrite 0 .a 15 true, .ckoConfigWrite 0 7 false 0, .ramblerWatchdog 0 3, .cmxMasterReset 0 10, .cmxSegment 0 15,
      .cmxRequest 0 10 15 false 2 0 256 none [] []] : List Instr).all (fun c => c.wf) = true := by decide

/-- An ill-formed command stops by name. -/
theorem test_no_such_element : exec (.laneEnable 0 384) {} = .fault .noSuchElement := rfl

/-! ### Witnesses -/

/-- The command answers a next state. -/
def Ran (c : Instr) (s : State) : Prop := ∃ s' : State, exec c s = .next s'

theorem ran {c : Instr} {s : State} {P : Dev → Prop} (h : Runs c s P) : Ran c s := h.elim fun _ h => ⟨_, h.1⟩

theorem ranMem {c : Instr} {s : State} {P : Mems → Dev → Prop} (h : RunsMem c s P) : Ran c s :=
  h.elim fun _ h => h.elim fun _ h => ⟨_, h.1⟩

theorem ranTime {c : Instr} {s : State} {t : Nat} (h : OnlyTime c s t) : Ran c s := ⟨_, h⟩

/-- The machine after reset, with its device changed. -/
def st (f : Dev → Dev) : State := { dev := f {} }

/-- The same with memories. -/
def stm (m : Mems) (f : Dev → Dev) : State := { mem := m, dev := f {} }

/-- A change of the timing unit. -/
def onTim (f : TimingUnit → TimingUnit) (d : Dev) : Dev := { d with tim := f d.tim }

/-- The priority manager on, with every input enabled. -/
def pmOn (d : Dev) : Dev := (d.put F.TB_CTRL_pm_en true).each (List.range 5) fun d x => d.put F.TB_PRIO_enable true x

/-- 1125 lines, progressive, at rates 3 and 2 of Table 2-3. -/
def clsA : Word := 0x67#32
def clsB : Word := 0x65#32

/-- A lane pair in a state of Table 3-5. -/
def ln (n v : Nat) (d : Dev) : Dev := d.wr F.LN_STATUS_state v n

/-- A compatible partner's CAP, peer_seen = 0 (Table 3-4). -/
def capA : List Byte := [2#8, 0#8, 0x0A#8, 0x77#8, 0#8, 0#8, 8#8, 0#8, 0#8, 0#8, 0#8, 0#8, 0#8, 0#8, 0#8]

/-- Pair `n` ACTIVE, with a partner that uses every position and Breeze, of which it has eight buffers. -/
def brz (n : Nat) (d : Dev) : Dev :=
  (((ln n 6 d).put F.LN_BRZ_STATUS_active true n).wr F.LN_CAP_RX0_cap 0x770B0002 n).modLane n fun l => { l with credits := 8 }

/-- An intact parcel header (Table 4-3). -/
def hd (slot fmt flags line frame : Nat) : List Byte :=
  let b := le 2 slot ++ le 1 fmt ++ le 1 flags ++ le 2 line ++ le 2 frame ++ le 4 0 ++ le 2 0
  b ++ le 2 (crc16 b)

/-- Pairs 382 and 383 as a twin set, both up. -/
def twn (d : Dev) : Dev := (((brz 382 (brz 383 d)).wr F.LN_OCT_CTRL_twin 8 47).modLane 383 fun l => { l with upOk := [0, 1, 2] }).modLane 382 fun l =>
  { l with upOk := [0, 1, 2] }

/-- Output 1151 with a 750-line raster at 25 Hz whose frame 100 starts now, at 4 s. -/
def ras (d : Dev) : Dev :=
  (d.modTb .a fun x => { x with epoch := 4 * secU }).modOut 1151 fun x => { x with raster := some { cls := 5, fmt := 0x12 } }

/-- A black route on plane A, whose frame 100 has started. -/
def blk (d : Dev) : Dev :=
  (ras d).modOut 1151 fun x => { x with pl := x.pl.modPl .a fun y => { y with active := { kind := 1 }, frameNo := some 100 } }

/-- A good copy of line 1 of frame 100 on plane `p`. -/
def staged (p : Plane) (d : Dev) : Dev :=
  d.modOp 1151 p fun y => { y with staged := some { frame := 100, line := 1, hdr := hd 1151 0x12 0 (1 + 8192 * 3) 100 }, lastHb := some 2 }

/-- A timed route of plane A to slot 7. -/
def timed (d : Dev) : Dev := d.modOp 1151 .a fun y => { y with active := { kind := 2, src := 7 }, frameNo := some 100 }

/-- Plane A shows frame-sync channel 5 on output 1151: its reader has selected a frame whose line 1 is stored. -/
def scan (black : Bool) (d : Dev) : Dev :=
  ((ras d).modOp 1151 .a fun y => { y with active := { kind := 3, chan := 5 }, frameNo := some 100
                                           reader := { at' := some 100, sel := some 9, black := black } }).modOwner .a 5 fun o =>
    { o with isOpen := true, fmtIn := 0x12, depth := 3, bufs := [(0, { lines := [1], anc := [(1, [0x00021111#32, 0x141#32])] })] }

/-- Plane A scans channel `id`, as `w` but open, for output 1151, and has not taken frame 100's start. -/
def unread (id : Nat) (w : Owner) (d : Dev) : Dev :=
  ((ras d).modOp 1151 .a fun y => { y with active := { kind := 3, chan := id } }).modOwner .a id fun _ => { w with isOpen := true }

/-- At the switch line of output 1151, a move to Plane B is asked for, whose state is like Plane A's. -/
def asks (d : Dev) : Dev :=
  let d := (ras d).modOut 1151 fun x =>
    { x with preferred := .b, moveTo := true
             pl := ⟨{ x.pl.a with active := { kind := 1 } }, { x.pl.b with active := { kind := 1 }, eqv := true, eqFrom := some 98 }⟩ }
  let k := d.landLine 5 0x12
  let d := d.modOp 1151 .b fun y =>
    { y with staged := some { frame := 100, line := k, hdr := hd 1151 0x12 0 (k + 8192 * 3) 100 }, lastHb := some 2 }
  (d.setTbState .b 5).modTb .a fun x => { x with epoch := (d.lineTime 1151 100 k).getD 0 }

/-- Frame-sync channel 1151 on plane A, writing its buffer 0. -/
def sync (d : Dev) : Dev :=
  (d.modOwner .a 1151 fun o => { o with isOpen := true, fmtIn := 17, depth := 3, bufs := [(0, { cnt := 7 })], writing := some 0 }).modPlane .a
    fun x => { x with slots := [(1151, { gated := false, units := [{ line := 30, fmt := 17, hdr := hd 1151 17 32 30 7, video := [0x12345678#32, 9#32] }] })] }

/-- A descriptor whose bytes 0-59 are those of `v`, with its CRC (R264). -/
def dsc (v : Nat) : List Byte := le 60 v ++ le 4 (crc32c (le 60 v))

/-- A SALVO header (Table 7-4) of `n` entries for class 5. -/
def slv (n : Nat) : List Byte := dsc (1 + n * 2 ^ 32 + 5 * 2 ^ 44 + 2 ^ 64 * 3)

/-- Polling runs on port `p`, and its Salvo Ring `r` is enabled, of 64 slots, with indices `i` to `j`. -/
def pol (p : Port) (r i j : Nat) (d : Dev) : Dev :=
  ((d.put F.HIF_PORT_CTRL_enable true p.id).put F.HIF_SVR_CFG_enable true (svrI p r)).modRing p r fun x => { x with fetch := i, pi := j }

/-- Item `x` is the only one of ring `r` of port `p`. -/
def one (p : Port) (r : Nat) (x : Item) (d : Dev) : Dev := (pol p r (x.idx + x.slots) (x.idx + x.slots) d).modRing p r fun y => { y with items := [x] }

/-- A standalone item that acts. -/
def actIt (x : Nat) : Item := { idx := 65535, descs := [dsc x], phase := .acting, seq := 2 }

/-- It alone in ring 15 of port HPB. -/
def act (x : Nat) : Dev → Dev := one .b 15 (actIt x)

/-- A CCT entry whose bytes 0-251 are those of `v`, with its CRC (R310). -/
def cct (v : Nat) : List Byte := le 252 v ++ le 4 (crc32c (le 252 v))

/-- The Keystore is ready, and its slot 127 holds a key in a state. -/
def kst (state use : Nat) (d : Dev) : Dev :=
  { (d.put F.KEY_STATUS_ready true) with key := { d.key with slots := [(127, { state := state, copy := some 0, seq := 1, body := keyBody 127 1 1 0 use 1 0 0 [] [] [] })] } }

/-- A salvo of one entry for class 5 at the explicit frame 100. -/
def slx (x : Nat) : List (List Byte) := [dsc (1 + 1 * 2 ^ 32 + 5 * 2 ^ 44 + 100 * 2 ^ 96), dsc x]

/-- A salvo of one entry, its header judged. -/
def jdgIt (x : Nat) : Item := { idx := 65535, slots := 2, descs := slx x, phase := .delivered, seq := 2, cur := 1 }

/-- It alone in ring 15 of port HPB; class 5 is on. -/
def jdg (x : Nat) (d : Dev) : Dev := (one .b 15 (jdgIt x) d).setReg .TB_CLASS 5 clsA

/-- A salvo of one entry, latched, its switch point come on Plane A alone. -/
def ltcIt (x : Nat) : Item :=
  { idx := 65535, slots := 2, descs := slx x, phase := .latched, seq := 2, begun := true, frame := 100, applied := ⟨true, false⟩ }

/-- It alone in ring 15 of port HPB; the epoch stands at 5 s. -/
def ltc (x : Nat) (d : Dev) : Dev :=
  ((one .b 15 (ltcIt x) d).setReg .TB_CLASS 5 clsA).modTb .a fun x => { x with epoch := 5 * secU }

/-- A salvo of one entry, secured, for frame 100. -/
def secIt (x : Nat) : Item := { idx := 65535, slots := 2, descs := slx x, phase := .secured, seq := 2, target := 100 }

/-- It alone in ring 15 of port HPB; the epoch stands 10 ms after 4 s. -/
def sec5 (x : Nat) (d : Dev) : Dev :=
  ((one .b 15 (secIt x) d).setReg .TB_CLASS 5 clsA).modTb .a fun x => { x with epoch := 4 * secU + 10 * msU }

/-- An ASAP salvo that is not secured. -/
def asap : Item :=
  { idx := 65535, slots := 2, descs := [dsc (1 + 1 * 2 ^ 32 + 5 * 2 ^ 44 + 2 ^ 48), dsc 0], phase := .delivered, seq := 2, target := 100 }

/-- What an opening of channel `id` on Plane A has secured by entry 1. -/
def opn (id : Nat) : Alloc := { plane := .a, id := id, amount := ⟨5, 6, 2⟩, entry := 1, owner := { src := 9, profile := 3, fmtIn := 0x11, fmtOut := 0x11 } }

/-- A latched salvo whose entry opens it. -/
def opnIt (x id : Nat) : Item := { ltcIt x with allocs := [opn id] }

/-- A salvo with an AUTH descriptor of a tag. -/
def ath (mac : Nat) : Item :=
  { idx := 65535, slots := 3, descs := [dsc (1 + 1 * 2 ^ 32 + 5 * 2 ^ 44 + 2 ^ 51), dsc 0, dsc (0x7F + 3 * 2 ^ 32 + mac * 2 ^ 64)], phase := .delivered, seq := 2 }

/-- The same with the tag of the ring key of generation 3 whose bytes are 07, at the ring's first slot. -/
def athIt : Item := ath (ofLe ((hmac256 [7#8] (tagMessage .b 15 3 65535 (ath 0))).take 16))

/-- Plane B has a channel 2400 and a set 4095 open, whose engine 47 runs, the epoch at 4 s. -/
def eng (d : Dev) : Dev :=
  (((d.modEngine .b 47 fun x => { x with state := 1, loads := [2400] }).modOwner .b 2400 fun o =>
    { o with isOpen := true, fmtIn := 0x12, fmtOut := 0x12, engines := [47], cost := 2, frames := [{ j := 99, state := .computed }] }).modOwner
    .b 4095 fun o => { o with isOpen := true, owned := 3 }).modTb .a fun x => { x with epoch := 4 * secU }

/-- Conversion channel 2304 on plane A, opened before frame 100 at 25 Hz. -/
def cnv (f : Owner → Owner) (d : Dev) : Dev :=
  ((onTim (fun x => { x with running := true }) d).modTb .a fun x => { x with epoch := 4 * secU }).modOwner .a 2304 fun o =>
    f { o with isOpen := true, fmtIn := 0x12, fmtOut := 0x12, profile := 0xFF, openAt := 3 * secU }

/-- A transaction of master 0 at a target, of `n` beats. -/
def tx (target n : Nat) (w : Bool) : Txn :=
  { master := 0, tag := 5, write := w, addr := 16, beats := n, target := target, data := [1#8, 2#8, 3#8], strobes := [true, false, true] }

/-- Transactions outstanding. -/
def txs (l : List Txn) (d : Dev) : Dev := { d with cmx := { d.cmx with txns := l } }

/-- Start-up is over. -/
def up (d : Dev) : Dev := d.wr F.GLB_START_phase 4

/-- The Larder's controller. -/
def lar (f : LarderUnit → LarderUnit) (d : Dev) : Dev := { d with ldr := f d.ldr }

/-- Page 0x3000 is written with 05 throughout, by one command of `n` bytes. -/
def pgw (what n : Nat) (retried : Bool) : Dev → Dev := lar fun l =>
  { l with page := some 0x3000, image := List.replicate 256 5#8, cur := 1
           queue := [{ cls := 1, what := what, addr := 0x300000, data := List.replicate n 5#8, retried := retried }] }

/-- That command. -/
def pgc (what n : Nat) (retried : Bool) : LdrCmd := { cls := 1, what := what, addr := 0x300000, data := List.replicate n 5#8, retried := retried }

/-- An OUTPUT journal entry for output 1151 in class 5, on a black route of plane mode 2. -/
def jou : List Byte := le 32 (1 + 2 ^ 8 + 1151 * 2 ^ 16 + 2 ^ 43 + 2 * 2 ^ 45 + 5 * 2 ^ 64 + 0x23 * 2 ^ 72 + 0xFFFFFFFE * 2 ^ 96)

/-- Start-up has read the Larder and waits to restore. -/
def rst (hold : Bool) (d : Dev) : Dev :=
  (((d.wr F.GLB_START_phase 2).put F.GLB_START_boothold hold).modPlane .a fun x => { x with training := false }).modPlane .b fun x => { x with training := false }

/-- The thermal monitor. -/
def thm (f : Therm → Therm) (d : Dev) : Dev := { d with start := { d.start with booted := true, therm := f d.start.therm } }

def winputLosses1 : State := st fun d => pmOn (d.setBit F.TB_STATUS_qualified 3 true)
def winputLosses2 : State := st fun d => onTim (fun x => { x with everSel := true }) ((d.wr F.TB_STATUS_sel 2).wr F.TB_DPLL_SEL_fallback 7)
def winputLosses3 : State := st fun d => ((d.wr F.TB_STATUS_sel 3).wr F.TB_DPLL_SEL_fallback 4).setBit F.TB_STATUS_qualified 4 true
def winputLosses4 : State := st fun d => d.put F.TB_REFV_CFG_enable true
def winputLosses5 : State := st fun d => (d.put F.TB_REFV_CFG_enable true).wr F.TB_STATUS_sel 4
def winputLosses6 : State := st fun d => d.put F.TB_REFV_CFG_enable true
def winputLosses7 : State := st fun d => (((d.put F.TB_REFV_CFG_enable true).wr F.TB_STATUS_sel 4).setBit F.TB_STATUS_qualified 1 true).wr F.TB_DPLL_SEL_fallback 1
def winputLosses8 : State := st fun d => (d.put F.TB_PPS_CFG_enable true).wr F.TB_PPS_CFG_pair 3

theorem test_InputLosses (h : Obligations.InputLosses) :
    Ran (.refinLost 9 3 77) winputLosses1
    ∧ Ran (.refinLost 0 2 77) winputLosses2
    ∧ Ran (.refinLost 0 3 77) winputLosses3
    ∧ Ran (.refvLost (3 * secU) 1) winputLosses4
    ∧ Ran (.refvLost (3 * secU) 1) winputLosses5
    ∧ Ran (.refvEnableWrite 9 false 77) winputLosses6
    ∧ Ran (.refvEnableWrite 9 false 77) winputLosses7
    ∧ Ran (.ppsinLost 9) winputLosses8 :=
  ⟨ran (h.1 winputLosses1 9 3 77 (winputLosses1.on 9) rfl (by decide +kernel) (by decide +kernel)),
   ran (h.1 winputLosses2 0 2 77 (winputLosses2.on 0) rfl (by decide +kernel) (by decide +kernel)),
   ran (h.1 winputLosses3 0 3 77 (winputLosses3.on 0) rfl (by decide +kernel) (by decide +kernel)),
   by refine ran (h.2.1 winputLosses4 (3 * secU) 1 (winputLosses4.on (3 * secU)) rfl ?_ ?_ ?_) <;> decide +kernel,
   by refine ran (h.2.1 winputLosses5 (3 * secU) 1 (winputLosses5.on (3 * secU)) rfl ?_ ?_ ?_) <;> decide +kernel,
   ran (h.2.2.1 winputLosses6 9 77 (winputLosses6.on 9) rfl (by decide +kernel)),
   ran (h.2.2.1 winputLosses7 9 77 (winputLosses7.on 9) rfl (by decide +kernel)),
   by refine ran (h.2.2.2 winputLosses8 9 3 (winputLosses8.on 9) rfl ?_ ?_ ?_) <;> decide +kernel⟩

def winputReturns1 : State := st fun d => d.setBit F.TB_STATUS_lost 3 true
def winputReturns2 : State := st fun d => onTim (fun x => { x with ppsLost := true }) d
def winputReturns3 : State := st id
def winputReturns4 : State := st fun d => (d.modRef 3 fun r => { r with samples := [0], run := 4, outRun := 2 }).setBit F.TB_STATUS_qualified 3 true
def winputReturns5 : State := st fun d => ((d.put F.TB_REFV_CFG_enable true).modRef 4 fun r => { r with samples := [0], run := 4, outRun := 2 }).setBit F.TB_STATUS_qualified 4 true
def winputReturns6 : State := st fun d => (d.modRef 3 fun r => { r with samples := List.replicate 15 0, run := 15, qual := 1 })
def winputReturns7 : State := st fun d => (d.put F.TB_REFV_CFG_enable true).setBit F.TB_STATUS_qualified 4 true

theorem test_InputReturns (h : Obligations.InputReturns) :
    Ran (.refinEdgesReturn 9 3) winputReturns1
    ∧ Ran (.refinEdgesReturn 9 5) winputReturns2
    ∧ Ran (.refvEnableWrite 9 true 77) winputReturns3
    ∧ Ran (.qualSample 9 3 1000000000) winputReturns4
    ∧ Ran (.qualSample 9 4 (-1000000000)) winputReturns5
    ∧ Ran (.qualSample 9 3 0) winputReturns6
    ∧ Ran (.qualSample 9 4 (-1000000000)) winputReturns7 :=
  ⟨ran (h.1 winputReturns1 9 3 (winputReturns1.on 9) rfl (by decide +kernel) (by decide +kernel)),
   ran (h.2.1 winputReturns2 9 (winputReturns2.on 9) rfl),
   ran (h.2.2.1 winputReturns3 9 77 (winputReturns3.on 9) rfl (by decide +kernel)),
   by refine ran (h.2.2.2.1 winputReturns4 9 3 1000000000 (winputReturns4.on 9) rfl ?_ ?_ nofun ?_ ?_) <;> decide +kernel,
   by refine ran (h.2.2.2.1 winputReturns5 9 4 (-1000000000) (winputReturns5.on 9) rfl ?_ ?_ (fun _ => by decide +kernel) ?_ ?_) <;> decide +kernel,
   by refine ran (h.2.2.2.2 winputReturns6 9 3 0 0 true true (winputReturns6.on 9) rfl ?_ ?_ nofun ?_ ?_ ?_ ?_) <;> decide +kernel,
   by refine ran (h.2.2.2.2 winputReturns7 9 4 (-1000000000) (-1000000000) false false (winputReturns7.on 9) rfl ?_ ?_ (fun _ => by decide +kernel) ?_ ?_ ?_ ?_) <;> decide +kernel⟩

def wdpllAndLead1 : State := st fun d => (d.setTbState .a 2).modTb .a fun x => { x with prev := some 4 }
def wdpllAndLead2 : State := st fun d => (d.setTbState .b 1).modTb .b fun x => { x with critFrom := some 0, ctl := 7 }
def wdpllAndLead3 : State := st fun d => (d.setTbState .a 1).modTb .a fun x => { x with prev := some 4 }
def wdpllAndLead4 : State := st fun d => (d.setTbState .a 2).setTbState .b 5
def wdpllAndLead5 : State := st fun d => (d.setTbState .a 2).setTbState .b 5
def wdpllAndLead6 : State := st fun d => d.setTbState .a 3
def wdpllAndLead7 : State := st fun d => (((pmOn d).setTbState .a 6).setTbState .b 5).wr F.TB_STATUS_sel 3
def wdpllAndLead8 : State := st fun d => ((((pmOn d).setBit F.TB_STATUS_qualified 3 true).setTbState .a 6).setTbState .b 5).wr F.TB_STATUS_sel 3
def wdpllAndLead9 : State := st fun d => ((d.setTbState .a 2).setTbState .b 5).wr F.TB_STATUS_sel 1
def wdpllAndLead10 : State := st id

theorem test_DpllAndLead (h : Obligations.DpllAndLead) :
    Ran (.dpllPhaseUpdate 9 .a 5 0 3 0 0) wdpllAndLead1
    ∧ Ran (.dpllPhaseUpdate (3 * secU) .b 5 10 3000 0 0) wdpllAndLead2
    ∧ Ran (.dpllPhaseUpdate 9 .a 1000000000000 0 3 0 0) wdpllAndLead3
    ∧ Ran (.dpllPhaseUpdate 9 .b 0 0 3 1000000000000 0) wdpllAndLead4
    ∧ Ran (.dpllPhaseUpdate 9 .b 6 0 3 0 1000) wdpllAndLead5
    ∧ Ran (.switchingDone 9 .a 5) wdpllAndLead6
    ∧ Ran (.leadFailover 9) wdpllAndLead7
    ∧ Ran (.leadFailover 9) wdpllAndLead8
    ∧ Ran (.leadReq 9 2) wdpllAndLead9
    ∧ Ran (.leadReq 9 2) wdpllAndLead10 :=
  ⟨by refine ran (h.1 wdpllAndLead1 9 .a 5 0 3 0 0 5 (wdpllAndLead1.on 9) rfl ?_ ?_ ?_ ?_) <;> decide +kernel,
   by refine ran (h.2.1 wdpllAndLead2 (3 * secU) .b 5 10 3000 0 0 5 (wdpllAndLead2.on (3 * secU)) rfl ?_ ?_ ?_ ?_) <;> decide +kernel,
   by refine ran (h.2.2.1 wdpllAndLead3 9 .a 1000000000000 0 3 0 0 1000000000000 (wdpllAndLead3.on 9) rfl ?_ ?_ ?_) <;> decide +kernel,
   by refine ran (h.2.2.2.1 wdpllAndLead4 9 .b 0 0 3 1000000000000 0 (wdpllAndLead4.on 9) rfl ?_ ?_ ?_ ?_) <;> decide +kernel,
   by refine ran (h.2.2.2.2.1 wdpllAndLead5 9 .b 6 0 3 0 1000 (wdpllAndLead5.on 9) rfl ?_ ?_ ?_) <;> decide +kernel,
   ran (h.2.2.2.2.2.1 wdpllAndLead6 9 .a 5 (wdpllAndLead6.on 9) rfl (by decide +kernel)),
   ran (h.2.2.2.2.2.2.1 wdpllAndLead7 9 (wdpllAndLead7.on 9) rfl (by decide +kernel) (by decide +kernel)),
   ran (h.2.2.2.2.2.2.1 wdpllAndLead8 9 (wdpllAndLead8.on 9) rfl (by decide +kernel) (by decide +kernel)),
   ran (h.2.2.2.2.2.2.2.1 wdpllAndLead9 9 2 (wdpllAndLead9.on 9) rfl (by decide +kernel) (by decide +kernel)),
   ranTime (h.2.2.2.2.2.2.2.2 wdpllAndLead10 9 2 (by decide +kernel))⟩

def wselections1 : State := st fun d => d.put F.TB_CTRL_pm_en false
def wselections2 : State := st fun d => pmOn (d.setBit F.TB_STATUS_qualified 3 true)
def wselections3 : State := st fun d => onTim (fun x => { x with sees := [0, 3] }) (((pmOn ((d.setBit F.TB_STATUS_qualified 3 true).setBit F.TB_STATUS_qualified 0 true)).put F.TB_PM_CTRL_revertive true).wr F.TB_STATUS_sel 3)
def wselections4 : State := st fun d => d.put F.TB_CTRL_pm_en false
def wselections5 : State := st fun d => pmOn (d.setBit F.TB_STATUS_qualified 3 true)
def wselections6 : State := st fun d => pmOn d
def wselections7 : State := st fun d => d.put F.TB_CTRL_pm_en true
def wselections8 : State := st fun d => d.put F.TB_CTRL_pm_en false
def wselections9 : State := st fun d => (pmOn d).put F.TB_CTRL_pm_en false
def wselections10 : State := st fun d => ((pmOn d).put F.TB_CTRL_pm_en false).wr F.TB_STATUS_sel 1

theorem test_Selections (h : Obligations.Selections) :
    Ran (.pmHoldoffExpiry 9 4 1) wselections1
    ∧ Ran (.pmHoldoffExpiry (20 * secU) 3 1) wselections2
    ∧ Ran (.pmWtrExpiry (4000 * secU) 0 1) wselections3
    ∧ Ran (.tbPmForceWrite 9 0xFF#32 1) wselections4
    ∧ Ran (.tbPmForceWrite 9 (F.TB_PM_FORCE_force.put (F.TB_PM_FORCE_input.put 0#32 3) 1) 1) wselections5
    ∧ Ran (.tbPmForceWrite 9 (F.TB_PM_FORCE_force.put (F.TB_PM_FORCE_input.put 0#32 3) 1) 1) wselections6
    ∧ Ran (.tbDpllSelWrite 9 .a 0#32 1) wselections7
    ∧ Ran (.tbDpllSelWrite 9 .b 0x23#32 1) wselections8
    ∧ Ran (.tbDpllSelWrite 9 (wselections9.on 9).lead (F.TB_DPLL_SEL_manual.put 0#32 3) 1) wselections9
    ∧ Ran (.tbDpllSelWrite 9 (wselections10.on 9).lead (F.TB_DPLL_SEL_manual.put 0#32 7) 1) wselections10 :=
  ⟨ran (h.1 wselections1 9 4 1 (wselections1.on 9) rfl (by decide +kernel) (by decide +kernel)),
   by refine ran (h.2.1 wselections2 (20 * secU) 3 1 3 (wselections2.on (20 * secU)) rfl ?_ ?_ ?_ ?_ ?_ ?_ ?_ ?_ ?_ ?_) <;> decide +kernel,
   by refine ran (h.2.2.1 wselections3 (4000 * secU) 0 1 (wselections3.on (4000 * secU)) rfl ?_ ?_ ?_ ?_ ?_ ?_ ?_ ?_ ?_ ?_ ?_ ?_) <;> decide +kernel,
   ran (h.2.2.2.1 wselections4 9 1 0xFF#32 (wselections4.on 9) rfl (by decide +kernel)),
   by refine ran (h.2.2.2.2.1 wselections5 9 1 3 (F.TB_PM_FORCE_force.put (F.TB_PM_FORCE_input.put 0#32 3) 1) (wselections5.on 9) rfl ?_ ?_ ?_ ?_ ?_ ?_ ?_ ?_ ?_) <;> decide +kernel,
   by refine ran (h.2.2.2.2.2.1 wselections6 9 1 3 (F.TB_PM_FORCE_force.put (F.TB_PM_FORCE_input.put 0#32 3) 1) (wselections6.on 9) rfl ?_ ?_ ?_ ?_) <;> decide +kernel,
   ranTime (h.2.2.2.2.2.2.1 wselections7 9 1 .a 0#32 (by decide +kernel)),
   ran (h.2.2.2.2.2.2.2.1 wselections8 9 1 .b 0x23#32 (wselections8.on 9) rfl (by decide +kernel) (by decide +kernel)),
   by refine ran (h.2.2.2.2.2.2.2.2.1 wselections9 9 1 3 (F.TB_DPLL_SEL_manual.put 0#32 3) (wselections9.on 9) rfl ?_ ?_ ?_ ?_ ?_ ?_) <;> decide +kernel,
   by refine ran (h.2.2.2.2.2.2.2.2.2 wselections10 9 1 (F.TB_DPLL_SEL_manual.put 0#32 7) (wselections10.on 9) rfl ?_ ?_ ?_ ?_) <;> decide +kernel⟩

def wclassesAndSnapshots1 : State := st id
def wclassesAndSnapshots2 : State := st fun d => (d.setReg .TB_CLASS 15 clsA).modOut 0 fun x => { x with raster := some { cls := 15, fmt := 1 } }
def wclassesAndSnapshots3 : State := st id
def wclassesAndSnapshots4 : State := st fun d => { d with clk := { d.clk with ckoCfg := [(7, 0x7E5)], ckoDiv := [(7, 5)], cko := [(7, some { mode := 1, idle := true, src := 9 })] } }
def wclassesAndSnapshots5 : State := st fun d => onTim (fun x => { x with clsPend := [(15, [(0, 77)])] }) (d.setReg .TB_CLASS 15 clsA)
def wclassesAndSnapshots6 : State := st fun d => d.modTb .a fun x => { x with epoch := 2 ^ 79 + 12345678912345 }
def wclassesAndSnapshots7 : State := st fun d => d.modTb .a fun x => { x with epoch := 12345678912345 }
def wclassesAndSnapshots8 : State := st fun d => d.modTb .b fun x => { x with epoch := 12345678912345 }

theorem test_ClassesAndSnapshots (h : Obligations.ClassesAndSnapshots) :
    Ran (.tbClassWrite 9 15 0x3FFFFFF#32) wclassesAndSnapshots1
    ∧ Ran (.tbClassWrite 9 15 clsB) wclassesAndSnapshots2
    ∧ Ran (.tbClassWrite 9 15 clsA) wclassesAndSnapshots3
    ∧ Ran (.tbClassWrite 9 15 clsA) wclassesAndSnapshots4
    ∧ Ran (.classParamTakeEffect 9 15) wclassesAndSnapshots5
    ∧ Ran (.tbSnapA 9) wclassesAndSnapshots6
    ∧ Ran (.tbSnapB 9 true) wclassesAndSnapshots7
    ∧ Ran (.tbSnapB 9 false) wclassesAndSnapshots8 :=
  ⟨ran (h.1 wclassesAndSnapshots1 9 15 0x3FFFFFF#32 (wclassesAndSnapshots1.on 9) rfl (by decide +kernel) (by decide +kernel)),
   by refine ran (h.2.1 wclassesAndSnapshots2 9 15 clsB clsB (wclassesAndSnapshots2.on 9) rfl ?_ ?_ ?_ ?_ ?_) <;> decide +kernel,
   by refine ran (h.2.2.1 wclassesAndSnapshots3 9 15 clsA clsA (wclassesAndSnapshots3.on 9) rfl ?_ ?_ ?_ ?_) <;> decide +kernel,
   by refine ran (h.2.2.1 wclassesAndSnapshots4 9 15 clsA clsA (wclassesAndSnapshots4.on 9) rfl ?_ ?_ ?_ ?_) <;> decide +kernel,
   by refine ran (h.2.2.2.1 wclassesAndSnapshots5 9 15 0 77 [] (wclassesAndSnapshots5.on 9) rfl ?_ ?_ ?_ ?_) <;> decide +kernel,
   ran (h.2.2.2.2.1 wclassesAndSnapshots6 9 (wclassesAndSnapshots6.on 9) rfl),
   ran (h.2.2.2.2.2 wclassesAndSnapshots7 9 true (wclassesAndSnapshots7.on 9) rfl),
   ran (h.2.2.2.2.2 wclassesAndSnapshots8 9 false (wclassesAndSnapshots8.on 9) rfl)⟩

def wlaneBringUp1 : State := st fun d => d.put F.LN_OCT_STATUS_om_lock true 47
def wlaneBringUp2 : State := st fun d => d.put F.CLK_STATUS_safe true
def wlaneBringUp3 : State := st fun d => ln 383 6 (d.put F.LN_CTRL_enable true 383)
def wlaneBringUp4 : State := st fun d => d.put F.LN_CTRL_enable true 383
def wlaneBringUp5 : State := st fun d => ln 383 6 d
def wlaneBringUp6 : State := st id
def wlaneBringUp7 : State := st fun d => ln 383 1 (d.wr F.LN_CNT_CODE_code_err 7 383)
def wlaneBringUp8 : State := st fun d => ln 383 1 d
def wlaneBringUp9 : State := st fun d => (ln 383 2 d).wr F.LN_STATUS_slips 4 383
def wlaneBringUp10 : State := st fun d => (ln 383 6 d).modLane 383 fun l => { l with noSignal := true }
def wlaneBringUp11 : State := st fun d => ln 383 3 d
def wlaneBringUp12 : State := st fun d => (ln 383 6 d).put F.LN_STATUS_rx_recover true 383
def wlaneBringUp13 : State := st fun d => ((ln 383 3 d).put F.LN_CTRL_host_align true 383).modLane 383 fun l => { l with winErr := 4 }

theorem test_LaneBringUp (h : Obligations.LaneBringUp) :
    Ran (.laneEnable 9 383) wlaneBringUp1
    ∧ Ran (.laneEnable 9 383) wlaneBringUp2
    ∧ Ran (.laneDisable 9 383) wlaneBringUp3
    ∧ Ran (.laneDisable 9 383) wlaneBringUp4
    ∧ Ran (.lnRetrain 9 383) wlaneBringUp5
    ∧ Ran (.lnRetrain 9 383) wlaneBringUp6
    ∧ Ran (.detectPulse 9 383 true) wlaneBringUp7
    ∧ Ran (.detectPulse 9 383 false) wlaneBringUp8
    ∧ Ran (.rxBitLock secU 383) wlaneBringUp9
    ∧ Ran (.rxBitLock 9 383) wlaneBringUp10
    ∧ Ran (.alignWindowEnd secU 383 16 20 0 0 2) wlaneBringUp11
    ∧ Ran (.alignWindowEnd secU 383 16 20 0 0 3) wlaneBringUp12
    ∧ Ran (.alignWindowEnd secU 383 16 20 8 3 2) wlaneBringUp13 :=
  ⟨by refine ran (h.1 wlaneBringUp1 9 383 (wlaneBringUp1.on 9) rfl ?_ ?_ ?_ ?_ ?_) <;> decide +kernel,
   by refine ran (h.2.1 wlaneBringUp2 9 383 (wlaneBringUp2.on 9) rfl ?_ ?_ ?_) <;> decide +kernel,
   by refine ran (h.2.2.1 wlaneBringUp3 9 383 (wlaneBringUp3.on 9) rfl ?_ ?_ ?_ ?_) <;> decide +kernel,
   by refine ran (h.2.2.2.1 wlaneBringUp4 9 383 (wlaneBringUp4.on 9) rfl ?_ ?_ ?_) <;> decide +kernel,
   by refine ran (h.2.2.2.2.1 wlaneBringUp5 9 383 (wlaneBringUp5.on 9) rfl ?_ ?_ ?_ ?_) <;> decide +kernel,
   ranTime (h.2.2.2.2.2.1 wlaneBringUp6 9 383 (by decide +kernel) (by decide +kernel)),
   by refine ran (h.2.2.2.2.2.2.1 wlaneBringUp7 9 383 (wlaneBringUp7.on 9) rfl ?_ ?_ ?_) <;> decide +kernel,
   by refine ran (h.2.2.2.2.2.2.2.1 wlaneBringUp8 9 383 (wlaneBringUp8.on 9) rfl ?_ ?_ ?_) <;> decide +kernel,
   by refine ran (h.2.2.2.2.2.2.2.2.1 wlaneBringUp9 secU 383 (wlaneBringUp9.on secU) rfl ?_ ?_ ?_ ?_) <;> decide +kernel,
   by refine ran (h.2.2.2.2.2.2.2.2.2.1 wlaneBringUp10 9 383 (wlaneBringUp10.on 9) rfl ?_ ?_ ?_ ?_) <;> decide +kernel,
   by refine ran (h.2.2.2.2.2.2.2.2.2.2.1 wlaneBringUp11 secU 383 16 20 2 (wlaneBringUp11.on secU) rfl ?_ ?_ ?_ ?_ ?_ ?_) <;> decide +kernel,
   by refine ran (h.2.2.2.2.2.2.2.2.2.2.2.1 wlaneBringUp12 secU 383 16 20 3 (wlaneBringUp12.on secU) rfl ?_ ?_ ?_ ?_ ?_ ?_ ?_) <;> decide +kernel,
   by refine ran (h.2.2.2.2.2.2.2.2.2.2.2.2 wlaneBringUp13 secU 383 16 20 8 3 2 15 (wlaneBringUp13.on secU) rfl ?_ ?_ ?_ ?_ ?_ ?_) <;> decide +kernel⟩

def wslipsAndOctets1 : State := st fun d => ((ln 383 3 d).put F.LN_CTRL_host_align true 383).wr F.LN_STATUS_slips 9 383
def wslipsAndOctets2 : State := st fun d => ((ln 383 6 d).put F.LN_STATUS_rx_recover true 383).wr F.LN_STATUS_slips 10 383
def wslipsAndOctets3 : State := st fun d => ((ln 383 3 d).put F.LN_CTRL_host_align true 383).wr F.LN_STATUS_slips 10 383
def wslipsAndOctets4 : State := st fun d => (ln 383 3 d).put F.LN_CTRL_host_align true 383
def wslipsAndOctets5 : State := st fun d => (ln 383 3 d).wr F.LN_STATUS_slips 9 383
def wslipsAndOctets6 : State := st fun d => d.each (List.range 8) fun d j => d.put F.LN_CTRL_enable false (376 + j)
def wslipsAndOctets7 : State := st fun d => d.put F.LN_CTRL_enable true 383
def wslipsAndOctets8 : State := st fun d => d
def wslipsAndOctets9 : State := st fun d => d.put F.LN_CTRL_enable true 383
def wslipsAndOctets10 : State := st fun d => d.wr F.LN_OCT_CTRL_rate 1 47
def wslipsAndOctets11 : State := st fun d => d.put F.LN_OCT_CTRL_lock true 47
def wslipsAndOctets12 : State := st fun d => d.setReg .GLB_CLKEN1 0 0#32
def wslipsAndOctets13 : State := st fun d => d.setReg .GLB_CLKEN1 0 0#32

theorem test_SlipsAndOctets (h : Obligations.SlipsAndOctets) :
    Ran (.lnBitSlip 9 383 true) wslipsAndOctets1
    ∧ Ran (.lnBitSlip 9 383 false) wslipsAndOctets2
    ∧ Ran (.lnBitSlip 9 383 true) wslipsAndOctets3
    ∧ Ran (.lnBitSlip 9 383 false) wslipsAndOctets4
    ∧ Ran (.alignWindowEnd secU 383 15 16 0 0 2) wslipsAndOctets5
    ∧ Ran (.lnOctCtrlWrite 9 47 0x7D#32) wslipsAndOctets6
    ∧ Ran (.lnOctCtrlWrite 9 47 0x2#32) wslipsAndOctets7
    ∧ Ran (.lnOctCtrlWrite 9 47 0x3#32) wslipsAndOctets8
    ∧ Ran (.lnOctCtrlWrite 9 47 0x30#32) wslipsAndOctets9
    ∧ Ran (.lnOctCtrlWrite 9 47 0xFFFFFFF1#32) wslipsAndOctets10
    ∧ Ran (.lnOctCtrlWrite 9 47 0xFFFFFFFF#32) wslipsAndOctets11
    ∧ Ran (.laneEnable 9 383) wslipsAndOctets12
    ∧ Ran (.lnOctCtrlWrite 9 47 3#32) wslipsAndOctets13 :=
  ⟨by refine ran (h.1 wslipsAndOctets1 9 383 true (wslipsAndOctets1.on 9) rfl ?_ ?_ ?_ ?_ ?_ ?_) <;> decide +kernel,
   by refine ran (h.1 wslipsAndOctets2 9 383 false (wslipsAndOctets2.on 9) rfl ?_ ?_ ?_ ?_ ?_ ?_) <;> decide +kernel,
   by refine ran (h.2.1 wslipsAndOctets3 9 383 true (wslipsAndOctets3.on 9) rfl ?_ ?_ ?_ ?_ ?_ ?_ ?_) <;> decide +kernel,
   ranTime (h.2.2.1 wslipsAndOctets4 9 383 false (by decide +kernel) (by decide +kernel)),
   by refine ran (h.2.2.2.1 wslipsAndOctets5 secU 383 15 16 0 0 2 0 (wslipsAndOctets5.on secU) rfl ?_ ?_ ?_ ?_ ?_ ?_ ?_ ?_ ?_) <;> decide +kernel,
   by refine ran (h.2.2.2.2.1 wslipsAndOctets6 9 47 0x7D#32 (wslipsAndOctets6.on 9) rfl ?_ ?_ ?_ ?_ ?_ ?_ ?_) <;> decide +kernel,
   by refine ran (h.2.2.2.2.2.1 wslipsAndOctets7 9 47 0x2#32 (wslipsAndOctets7.on 9) rfl ?_ ?_ ?_ ?_ ?_) <;> decide +kernel,
   by refine ran (h.2.2.2.2.2.1 wslipsAndOctets8 9 47 0x3#32 (wslipsAndOctets8.on 9) rfl ?_ ?_ ?_ ?_ ?_) <;> decide +kernel,
   by refine ran (h.2.2.2.2.2.2.1 wslipsAndOctets9 9 47 0x30#32 (wslipsAndOctets9.on 9) rfl ?_ ?_ ?_ ?_ ?_) <;> decide +kernel,
   by refine ran (h.2.2.2.2.2.2.2.1 wslipsAndOctets10 9 47 3 0xFFFFFFF1#32 (wslipsAndOctets10.on 9) rfl ?_ ?_ ?_ ?_ ?_ ?_ ?_) <;> decide +kernel,
   by refine ran (h.2.2.2.2.2.2.2.2.1 wslipsAndOctets11 9 47 0xFFFFFFFF#32 (wslipsAndOctets11.on 9) rfl ?_ ?_ ?_) <;> decide +kernel,
   ranTime (h.2.2.2.2.2.2.2.2.2 wslipsAndOctets12 9 383 false 3#32 (.laneEnable 9 383) (by decide +kernel) (by decide +kernel) (by simp)),
   ranTime (h.2.2.2.2.2.2.2.2.2 wslipsAndOctets13 9 383 false 3#32 (.lnOctCtrlWrite 9 47 3#32) (by decide +kernel) (by decide +kernel) (by simp))⟩

def wlaneHandshake1 : State := st fun d => (ln 383 4 d).modLane 383 fun l => { l with run21 := 7 }
def wlaneHandshake2 : State := st fun d => (ln 383 4 d).modLane 383 fun l => { l with run21 := 6 }
def wlaneHandshake3 : State := st fun d => (ln 383 6 d).wr F.LN_CNT_CODE_code_err 65535 383
def wlaneHandshake4 : State := st fun d => (ln 383 5 d).modLane 383 fun l => { l with capLast := capMasked (fit 15 capA), capRun := 1 }
def wlaneHandshake5 : State := st fun d => (ln 383 4 d).modLane 383 fun l => { l with run21 := 3 }
def wlaneHandshake6 : State := st fun d => (ln 383 5 d).modLane 383 fun l => { l with capLast := capMasked (fit 15 capA), capRun := 2 }
def wlaneHandshake7 : State := st fun d => (ln 383 5 d).modLane 383 fun l => { l with capLast := capMasked (fit 15 []), capRun := 2 }
def wlaneHandshake8 : State := st fun d => ln 383 6 d
def wlaneHandshake9 : State := st fun d => ln 383 5 d
def wlaneHandshake10 : State := st fun d => ((ln 383 5 d).modLane 383 fun l => { l with capOk := true, capPeer := true, capSent := 2 }).wr F.LN_CAP_RX0_cap 0x770B0002 383
def wlaneHandshake11 : State := st fun d => (ln 383 2 d).wr F.LN_STATUS_fail_count 255 383
def wlaneHandshake12 : State := st fun d => ln 383 5 d
def wlaneHandshake13 : State := st fun d => ln 383 7 d

theorem test_LaneHandshake (h : Obligations.LaneHandshake) :
    Ran (.wt2Received secU 383 .ready true) wlaneHandshake1
    ∧ Ran (.wt2Received secU 383 .ready false) wlaneHandshake2
    ∧ Ran (.wt2Received secU 383 .other false) wlaneHandshake3
    ∧ Ran (.capReceived 9 383 capA) wlaneHandshake4
    ∧ Ran (.capReceived 9 383 capA) wlaneHandshake5
    ∧ Ran (.capReceived 9 383 capA) wlaneHandshake6
    ∧ Ran (.capReceived 9 383 []) wlaneHandshake7
    ∧ Ran (.capReceived 9 383 capA) wlaneHandshake8
    ∧ Ran (.capSend 9 383) wlaneHandshake9
    ∧ Ran (.capSend 9 383) wlaneHandshake10
    ∧ Ran (.laneStateTimeout (20 * msU) 383) wlaneHandshake11
    ∧ Ran (.laneStateTimeout (10 * msU) 383) wlaneHandshake12
    ∧ Ran (.laneStateTimeout (100 * msU) 383) wlaneHandshake13 :=
  ⟨by refine ran (h.1 wlaneHandshake1 secU 383 true (wlaneHandshake1.on secU) rfl ?_ ?_ ?_ ?_) <;> decide +kernel,
   by refine ran (h.2.1 wlaneHandshake2 secU 383 .ready false (wlaneHandshake2.on secU) rfl ?_ ?_ ?_ ?_ ?_) <;> decide +kernel,
   ran (h.2.2.1 wlaneHandshake3 secU 383 false (wlaneHandshake3.on secU) rfl (by decide +kernel)),
   by refine ran (h.2.2.2.1 wlaneHandshake4 9 383 capA (wlaneHandshake4.on 9) rfl ?_ ?_ ?_ ?_) <;> decide +kernel,
   by refine ran (h.2.2.2.1 wlaneHandshake5 9 383 capA (wlaneHandshake5.on 9) rfl ?_ ?_ ?_ ?_) <;> decide +kernel,
   by refine ran (h.2.2.2.2.1 wlaneHandshake6 9 383 capA (wlaneHandshake6.on 9) rfl ?_ ?_ ?_ ?_ ?_ ?_) <;> decide +kernel,
   by refine ran (h.2.2.2.2.2.1 wlaneHandshake7 9 383 [] (wlaneHandshake7.on 9) rfl ?_ ?_ ?_ ?_ ?_) <;> decide +kernel,
   ran (h.2.2.2.2.2.2.1 wlaneHandshake8 9 383 capA (wlaneHandshake8.on 9) rfl (by decide +kernel) (by decide +kernel)),
   by refine ran (h.2.2.2.2.2.2.2.1 wlaneHandshake9 9 383 (wlaneHandshake9.on 9) rfl ?_ ?_ ?_ ?_) <;> decide +kernel,
   by refine ran (h.2.2.2.2.2.2.2.2.1 wlaneHandshake10 9 383 (wlaneHandshake10.on 9) rfl ?_ ?_ ?_ ?_ ?_ ?_) <;> decide +kernel,
   by refine ran (h.2.2.2.2.2.2.2.2.2.1 wlaneHandshake11 (20 * msU) 383 20 1 (wlaneHandshake11.on (20 * msU)) rfl ?_ ?_ ?_ ?_) <;> decide +kernel,
   by refine ran (h.2.2.2.2.2.2.2.2.2.1 wlaneHandshake12 (10 * msU) 383 10 5 (wlaneHandshake12.on (10 * msU)) rfl ?_ ?_ ?_ ?_) <;> decide +kernel,
   by refine ran (h.2.2.2.2.2.2.2.2.2.2 wlaneHandshake13 (100 * msU) 383 (wlaneHandshake13.on (100 * msU)) rfl ?_ ?_ ?_ ?_) <;> decide +kernel⟩

def wingressRecovery1 : State := st fun d => ln 383 6 d
def wingressRecovery2 : State := st fun d => ln 383 6 d
def wingressRecovery3 : State := st fun d => ln 383 6 d
def wingressRecovery4 : State := st fun d => (ln 383 6 d).modLane 383 fun l => { l with winErr := 1 }
def wingressRecovery5 : State := st fun d => (ln 383 6 d).wr F.LN_CNT_CODE_code_err 65530 383
def wingressRecovery6 : State := st fun d => (ln 383 6 d).put F.LN_STATUS_rx_recover true 383
def wingressRecovery7 : State := st fun d => (ln 383 6 d).modLane 383 fun l => { l with owed := true }
def wingressRecovery8 : State := st fun d => (ln 383 6 d).modLane 383 fun l => { l with owed := true }
def wingressRecovery9 : State := st fun d => ((ln 383 6 d).put F.LN_STATUS_rx_recover true 383).put F.LN_CTRL_los_teardown true 383
def wingressRecovery10 : State := st fun d => d.put F.LN_CTRL_los_teardown false 383
def wingressRecovery11 : State := st fun d => (ln 383 6 d).modLane 383 fun l => { l with noSignal := true }

theorem test_IngressRecovery (h : Obligations.IngressRecovery) :
    Ran (.rxSquelch 9 383) wingressRecovery1
    ∧ Ran (.rxBitLockLost 9 383) wingressRecovery2
    ∧ Ran (.skpTimeout 9 383) wingressRecovery3
    ∧ Ran (.errorWindowEnd secU 383 8 7) wingressRecovery4
    ∧ Ran (.errorWindowEnd secU 383 15 0) wingressRecovery5
    ∧ Ran (.recoveryRequestSend 9 383) wingressRecovery6
    ∧ Ran (.idlRunSend 9 383) wingressRecovery7
    ∧ Ran (.idlRunSend secU 383) wingressRecovery8
    ∧ Ran (.ingressRecoveryTimeout (100 * msU) 383) wingressRecovery9
    ∧ Ran (.ingressRecoveryTimeout 9 383) wingressRecovery10
    ∧ Ran (.skpReceived 9 383) wingressRecovery11 :=
  ⟨ran (h.1 wingressRecovery1 9 383 (wingressRecovery1.on 9) rfl (by decide +kernel)),
   ran (h.2.1 wingressRecovery2 9 383 (wingressRecovery2.on 9) rfl (by decide +kernel)),
   ran (h.2.2.1 wingressRecovery3 9 383 (wingressRecovery3.on 9) rfl (by decide +kernel)),
   by refine ran (h.2.2.2.1 wingressRecovery4 secU 383 8 7 (wingressRecovery4.on secU) rfl ?_ ?_ ?_) <;> decide +kernel,
   by refine ran (h.2.2.2.2.1 wingressRecovery5 secU 383 15 0 (wingressRecovery5.on secU) rfl ?_ ?_ ?_) <;> decide +kernel,
   by refine ran (h.2.2.2.2.2.1 wingressRecovery6 9 383 (wingressRecovery6.on 9) rfl ?_ ?_ ?_ ?_) <;> decide +kernel,
   by refine ran (h.2.2.2.2.2.2.1 wingressRecovery7 9 383 (wingressRecovery7.on 9) rfl ?_ ?_ ?_ ?_ ?_) <;> decide +kernel,
   by refine ran (h.2.2.2.2.2.2.1 wingressRecovery8 secU 383 (wingressRecovery8.on secU) rfl ?_ ?_ ?_ ?_ ?_) <;> decide +kernel,
   by refine ran (h.2.2.2.2.2.2.2.1 wingressRecovery9 (100 * msU) 383 (wingressRecovery9.on (100 * msU)) rfl ?_ ?_ ?_ ?_ ?_) <;> decide +kernel,
   ranTime (h.2.2.2.2.2.2.2.2.1 wingressRecovery10 9 383 (by decide +kernel) (by decide +kernel)),
   ran (h.2.2.2.2.2.2.2.2.2 wingressRecovery11 9 383 (wingressRecovery11.on 9) rfl (by decide +kernel))⟩

def welectricalIdle1 : State := st fun d => (ln 383 6 d).wr F.LN_CAP_RX0_cap 0x770B0002 383
def welectricalIdle2 : State := st fun d => (ln 383 6 d).wr F.LN_CAP_RX0_cap 0x770B0002 383
def welectricalIdle3 : State := st fun d => ln 383 6 d
def welectricalIdle4 : State := st fun d => (ln 383 6 d).put F.LN_STATUS_rx_idle true 383
def welectricalIdle5 : State := st fun d => (ln 383 6 d).put F.LN_STATUS_rx_idle true 383
def welectricalIdle6 : State := st fun d => (ln 383 6 d).put F.LN_STATUS_rx_idle true 383
def welectricalIdle7 : State := st fun d => ln 383 6 d
def welectricalIdle8 : State := st fun d => (ln 383 6 d).wr F.LN_CAP_RX0_cap 0x770B0002 383
def welectricalIdle9 : State := st fun d => (ln 383 6 d).wr F.LN_CAP_RX0_cap 0x770B0002 383
def welectricalIdle10 : State := st fun d => ((ln 383 6 d).put F.LN_STATUS_tx_idle true 383).modOp 1151 .a fun x => { x with active := { kind := 1 } }
def welectricalIdle11 : State := st fun d => d.put F.CLK_STATUS_safe true

theorem test_ElectricalIdle (h : Obligations.ElectricalIdle) :
    Ran (.lullReceived 9 383 2 false) welectricalIdle1
    ∧ Ran (.lullReceived 9 383 2 true) welectricalIdle2
    ∧ Ran (.lullReceived 9 383 3 false) welectricalIdle3
    ∧ Ran (.wt2Received 9 383 .ready true) welectricalIdle4
    ∧ Ran (.zephyrBurstReceived 9 383 true 64) welectricalIdle5
    ∧ Ran (.zephyrBurstReceived 9 383 false 64) welectricalIdle6
    ∧ Ran (.zephyrBurstReceived 9 383 true 65) welectricalIdle7
    ∧ Ran (.egressIdleEnter secU 383) welectricalIdle8
    ∧ Ran (.egressIdleEnter 9 383) welectricalIdle9
    ∧ Ran (.egressWake 9 383) welectricalIdle10
    ∧ Ran (.detectPulse 9 383 true) welectricalIdle11 :=
  ⟨by refine ran (h.1 welectricalIdle1 9 383 2 false (welectricalIdle1.on 9) rfl ?_ ?_ ?_ ?_) <;> decide +kernel,
   by refine ran (h.1 welectricalIdle2 9 383 2 true (welectricalIdle2.on 9) rfl ?_ ?_ ?_ ?_) <;> decide +kernel,
   ran (h.2.1 welectricalIdle3 9 383 3 (welectricalIdle3.on 9) rfl (by decide +kernel) (by decide +kernel)),
   ranTime (h.2.2.1 welectricalIdle4 9 383 1 2 3 true .ready capA (.wt2Received 9 383 .ready true) (by decide +kernel) (by decide +kernel) (by simp)),
   by refine ran (h.2.2.2.1 welectricalIdle5 9 383 64 (welectricalIdle5.on 9) rfl ?_ ?_ ?_ ?_) <;> decide +kernel,
   by refine ran (h.2.2.2.2.1 welectricalIdle6 9 383 64 (welectricalIdle6.on 9) rfl ?_ ?_ ?_ ?_ ?_) <;> decide +kernel,
   by refine ran (h.2.2.2.2.2.1 welectricalIdle7 9 383 65 true (welectricalIdle7.on 9) rfl ?_ ?_ ?_ ?_) <;> decide +kernel,
   by refine ran (h.2.2.2.2.2.2.1 welectricalIdle8 secU 383 (welectricalIdle8.on secU) rfl ?_ ?_ ?_) <;> decide +kernel,
   ranTime (h.2.2.2.2.2.2.2.1 welectricalIdle9 9 383 (by decide +kernel) (by decide +kernel)),
   by refine ran (h.2.2.2.2.2.2.2.2.1 welectricalIdle10 9 383 (welectricalIdle10.on 9) rfl ?_ ?_ ?_ ?_) <;> decide +kernel,
   ranTime (h.2.2.2.2.2.2.2.2.2 welectricalIdle11 9 383 4 5 6 true .ready capA (.detectPulse 9 383 true) (by decide +kernel) (by decide +kernel) (by simp))⟩

def wbreezeReceived1 : State := st fun d => (brz 383 d).modLane 383 fun l => { l with used := 7, release := 250 }
def wbreezeReceived2 : State := st fun d => (brz 383 d).modLane 383 fun l => { l with used := 7, release := 250, queue := [(3, [1#8]), (5, [])] }
def wbreezeReceived3 : State := st fun d => (brz 383 d).modLane 383 fun l => { l with used := 8, release := 250 }
def wbreezeReceived4 : State := st fun d => brz 383 d
def wbreezeReceived5 : State := st fun d => brz 383 d
def wbreezeReceived6 : State := st fun d => brz 383 d
def wbreezeReceived7 : State := st fun d => (brz 383 d).wr F.LN_OCT_CTRL_twin 8 47
def wbreezeReceived8 : State := st fun d => brz 383 d
def wbreezeReceived9 : State := st fun d => brz 383 d
def wbreezeReceived10 : State := st fun d => brz 383 d
def wbreezeReceived11 : State := st fun d => ln 383 6 d

theorem test_BreezeReceived (h : Obligations.BreezeReceived) :
    Ran (.identReceived 9 383 3 10 [1#8]) wbreezeReceived1
    ∧ Ran (.identReceived 9 383 3 10 [1#8]) wbreezeReceived2
    ∧ Ran (.pstatReceived 9 383 3 10 [1#8]) wbreezeReceived3
    ∧ Ran (.creditReceived 9 383 3 10) wbreezeReceived4
    ∧ Ran (.pstatReceived 9 383 3 10 [1#8, 2#8, 7#8, 9#8, 200#8]) wbreezeReceived5
    ∧ Ran (.pstatReceived 9 383 3 10 [1#8, 5#8, 7#8, 9#8, 200#8]) wbreezeReceived6
    ∧ Ran (.twinReceived 9 383 3 10 [1#8, 0#8, 3#8]) wbreezeReceived7
    ∧ Ran (.twinReceived 9 383 3 10 [1#8]) wbreezeReceived8
    ∧ Ran (.breezeMsgInvalid 9 383 [[1#8, 2#8, 3#8]]) wbreezeReceived9
    ∧ Ran (.breezeMsgInvalid 9 383 (brzMsg 3 10 4 [1#8])) wbreezeReceived10
    ∧ Ran (.breezeMsgInvalid 9 383 [[1#8], []]) wbreezeReceived11 :=
  ⟨ran (h.1 wbreezeReceived1 9 383 3 10 [1#8] (wbreezeReceived1.on 9) rfl (by decide +kernel) (by decide +kernel)),
   ran (h.1 wbreezeReceived2 9 383 3 10 [1#8] (wbreezeReceived2.on 9) rfl (by decide +kernel) (by decide +kernel)),
   ran (h.2.1 wbreezeReceived3 9 383 3 10 [1#8] (.pstatReceived 9 383 3 10 [1#8]) (wbreezeReceived3.on 9) rfl (by decide +kernel) (by decide +kernel) (.inr (.inl rfl))),
   ran (h.2.2.1 wbreezeReceived4 9 383 3 10 (wbreezeReceived4.on 9) rfl (by decide +kernel)),
   by refine ran (h.2.2.2.1 wbreezeReceived5 9 383 3 10 2 0 2#8 7#8 9#8 200#8 (wbreezeReceived5.on 9) rfl ?_ ?_ ?_ ?_ ?_ ?_) <;> decide +kernel,
   by refine ran (h.2.2.2.1 wbreezeReceived6 9 383 3 10 1 1 5#8 7#8 9#8 200#8 (wbreezeReceived6.on 9) rfl ?_ ?_ ?_ ?_ ?_ ?_) <;> decide +kernel,
   by refine ran (h.2.2.2.2.1 wbreezeReceived7 9 383 3 10 1#8 0#8 3#8 (wbreezeReceived7.on 9) rfl ?_ ?_ ?_) <;> decide +kernel,
   ran (h.2.2.2.2.2.1 wbreezeReceived8 9 383 3 10 [1#8] (wbreezeReceived8.on 9) rfl (by decide +kernel) (by decide +kernel)),
   ran (h.2.2.2.2.2.2.1 wbreezeReceived9 9 383 [[1#8, 2#8, 3#8]] (wbreezeReceived9.on 9) rfl (by decide +kernel) (by decide +kernel)),
   by refine ran (h.2.2.2.2.2.2.2.1 wbreezeReceived10 9 383 (brzMsg 3 10 4 [1#8]) (brzHead 3 10 4 [1#8]) (wbreezeReceived10.on 9) rfl ?_ ?_ ?_) <;> decide +kernel,
   by refine ran (h.2.2.2.2.2.2.2.2 wbreezeReceived11 9 383 [[1#8], []] (wbreezeReceived11.on 9) rfl ?_ ?_ ?_ ?_) <;> decide +kernel⟩

def wbreezeSent1 : State := st fun d => (brz 383 d).modLane 383 fun l => { l with used := 8, release := 255 }
def wbreezeSent2 : State := st fun d => (brz 383 d).modLane 383 fun l => { l with relDue := true, release := 255 }
def wbreezeSent3 : State := st fun d => brz 383 d
def wbreezeSent4 : State := st fun d => (brz 383 d).wr F.LN_OCT_CTRL_twin 8 47
def wbreezeSent5 : State := st fun d => (brz 383 d).wr F.LN_BRZ_STATUS_tx_seq 255 383 |>.wr F.LN_BRZ_STATUS_tx_release 255 383
def wbreezeSent6 : State := st fun d => (brz 383 d).modLane 383 fun l => { l with credits := 0, queue := [(1, [])] }
def wbreezeSent7 : State := st id

theorem test_BreezeSent (h : Obligations.BreezeSent) :
    Ran (.breezeBufferRelease 9 383) wbreezeSent1
    ∧ Ran (.creditSend 9 383) wbreezeSent2
    ∧ Ran (.tallySend 9 383) wbreezeSent3
    ∧ Ran (.twinSend 9 383) wbreezeSent4
    ∧ Ran (.timingSend 9 383) wbreezeSent5
    ∧ Ran (.tallySend 9 383) wbreezeSent6
    ∧ Ran (.timingSend 9 383) wbreezeSent7 :=
  ⟨by refine ran (h.1 wbreezeSent1 9 383 (wbreezeSent1.on 9) rfl ?_ ?_ ?_) <;> decide +kernel,
   ran (h.2.1 wbreezeSent2 9 383 (wbreezeSent2.on 9) rfl (by decide +kernel)),
   by refine ran (h.2.2.1 wbreezeSent3 9 383 (wbreezeSent3.on 9) rfl ?_ ?_ ?_) <;> decide +kernel,
   by refine ran (h.2.2.2.1 wbreezeSent4 9 383 (wbreezeSent4.on 9) rfl ?_ ?_ ?_ ?_) <;> decide +kernel,
   by refine ran (h.2.2.2.2.1 wbreezeSent5 9 383 (wbreezeSent5.on 9) rfl ?_ ?_ ?_) <;> decide +kernel,
   by refine ran (h.2.2.2.2.2.1 wbreezeSent6 9 383 3 (.tallySend 9 383) _ (wbreezeSent6.on 9) rfl ?_ ?_ ?_ ?_ (.inl ⟨rfl, rfl, rfl⟩)) <;> decide +kernel,
   ranTime (h.2.2.2.2.2.2 wbreezeSent7 9 383 (.timingSend 9 383) (by decide +kernel) (by decide +kernel) (by simp))⟩

def wparcelsReceived1 : State := st fun d => brz 383 d
def wparcelsReceived2 : State := st fun d => brz 383 d
def wparcelsReceived3 : State := st fun d => brz 383 d
def wparcelsReceived4 : State := st fun d => brz 383 d
def wparcelsReceived5 : State := st fun d => brz 383 d
def wparcelsReceived6 : State := st fun d => (brz 383 d).put F.LN_STATUS_rx_aligned true 383
def wparcelsReceived7 : State := st fun d => ln 383 5 d
def wparcelsReceived8 : State := st fun d => (brz 383 d).modLane 383 fun l => { l with seqPrev := [(1, (3, 4, 5)), (2, (3, 4, 5))] }

theorem test_ParcelsReceived (h : Obligations.ParcelsReceived) :
    Ran (.parcelReceived 9 383 [2, 2, 0] (hd 1151 17 8 30 7) [] true) wparcelsReceived1
    ∧ Ran (.parcelReceived 9 383 [2, 2, 0] [] [] true) wparcelsReceived2
    ∧ Ran (.parcelReceived 9 383 [2, 2, 0] [] [] false) wparcelsReceived3
    ∧ Ran (.parcelReceived 9 383 [] [] [1#32, 2#32] true) wparcelsReceived4
    ∧ Ran (.parcelReceived 9 383 [2, 1, 0] [] [] true) wparcelsReceived5
    ∧ Ran (.fchReceived 9 383 [2, 1, 0]) wparcelsReceived6
    ∧ Ran (.swmReceived 9 383 [2, 2, 0]) wparcelsReceived7
    ∧ Ran (.fchReceived 9 383 [2, 2, 0]) wparcelsReceived8 :=
  ⟨by refine ran (h.1 wparcelsReceived1 9 383 2 [2, 2, 0] (hd 1151 17 8 30 7) (hd 1151 17 8 30 7) [] (wparcelsReceived1.on 9) rfl ?_ ?_ ?_) <;> decide +kernel,
   ran (h.2.1 wparcelsReceived2 9 383 2 [2, 2, 0] [] (fit 16 []) [] F.LN_CNT_HDR_crc_err (wparcelsReceived2.on 9) rfl (by decide +kernel) (by decide +kernel)),
   ran (h.2.2.1 wparcelsReceived3 9 383 2 [2, 2, 0] [] (fit 16 []) [] (wparcelsReceived3.on 9) rfl (by decide +kernel)),
   by refine ran (h.2.2.2.1 wparcelsReceived4 9 383 [] [1#32, 2#32] true (wparcelsReceived4.on 9) rfl ?_ ?_ ?_ ?_) <;> decide +kernel,
   by refine ran (h.2.2.2.2.1 wparcelsReceived5 9 383 [2, 1, 0] (.parcelReceived 9 383 [2, 1, 0] [] [] true) [] [] true (wparcelsReceived5.on 9) rfl ?_ ?_ ?_ (.inl rfl)) <;> decide +kernel,
   by refine ran (h.2.2.2.2.1 wparcelsReceived6 9 383 [2, 1, 0] (.fchReceived 9 383 [2, 1, 0]) [] [] true (wparcelsReceived6.on 9) rfl ?_ ?_ ?_ (.inr (.inr rfl))) <;> decide +kernel,
   ran (h.2.2.2.2.2.1 wparcelsReceived7 9 383 2 [2, 2, 0] (wparcelsReceived7.on 9) rfl (by decide +kernel) (by decide +kernel)),
   by refine ran (h.2.2.2.2.2.2 wparcelsReceived8 9 383 2 [2, 2, 0] (wparcelsReceived8.on 9) rfl ?_ ?_ ?_ ?_) <;> decide +kernel⟩

def wtwinsAndMonitors1 : State := st fun d => twn d
def wtwinsAndMonitors2 : State := st fun d => (twn d).modIn 1148 fun x => { x with taken := [31, 30] }
def wtwinsAndMonitors3 : State := st fun d => twn d
def wtwinsAndMonitors4 : State := st fun d => (twn d).modIn 1148 fun x => { x with held := some { n := 382, hdr := hd 1148 17 12 30 7 } }
def wtwinsAndMonitors5 : State := st fun d => (twn d).modIn 1148 fun x => { x with held := some { n := 383, hdr := hd 1148 17 12 29 7 } }
def wtwinsAndMonitors6 : State := st fun d => (twn d).modIn 1148 fun x => { x with held := some { n := 383, hdr := hd 1148 17 12 30 7 } }
def wtwinsAndMonitors7 : State := st id
def wtwinsAndMonitors8 : State := st fun d => (d.modIn 1151 fun x => { x with fmt := 17 }).modPlane .a fun x => { x with slots := [(1150, { gated := true }), (1151, { gated := false, units := [{}] })] }
def wtwinsAndMonitors9 : State := st fun d => brz 383 d
def wtwinsAndMonitors10 : State := st fun d => (d.modTb .a fun x => { x with epoch := secU }).modIn 1151 fun x => { x with mon := { grid := some (3, 750), frame := 0, missed := [4] } }

theorem test_TwinsAndMonitors (h : Obligations.TwinsAndMonitors) :
    Ran (.parcelReceived 9 383 [2, 2, 0] (hd 1148 17 8 30 7) [] true) wtwinsAndMonitors1
    ∧ Ran (.parcelReceived 9 383 [2, 2, 0] (hd 1148 17 8 30 7) [] true) wtwinsAndMonitors2
    ∧ Ran (.parcelReceived 9 383 [2, 2, 0] (hd 1148 17 12 30 7) [] true) wtwinsAndMonitors3
    ∧ Ran (.parcelReceived 9 383 [2, 2, 0] (hd 1148 17 8 30 7) [] true) wtwinsAndMonitors4
    ∧ Ran (.parcelReceived 9 383 [2, 2, 0] (hd 1148 17 8 30 7) [] true) wtwinsAndMonitors5
    ∧ Ran (.twinHoldExpiry secU 1148) wtwinsAndMonitors6
    ∧ Ran (.twinHoldExpiry 9 1151) wtwinsAndMonitors7
    ∧ Ran (.slotBufferGate secU 1151) wtwinsAndMonitors8
    ∧ Ran (.slotBufferGate secU 1151) wtwinsAndMonitors9
    ∧ Ran (.monitorPublish 9 1151) wtwinsAndMonitors10 :=
  ⟨by refine ran (h.1 wtwinsAndMonitors1 9 383 2 1148 [2, 2, 0] (hd 1148 17 8 30 7) (hd 1148 17 8 30 7) [] (wtwinsAndMonitors1.on 9) rfl ?_ ?_ ?_ ?_ ?_ ?_ ?_ ?_) <;> decide +kernel,
   by refine ran (h.2.1 wtwinsAndMonitors2 9 383 2 1148 [2, 2, 0] (hd 1148 17 8 30 7) (hd 1148 17 8 30 7) [] (wtwinsAndMonitors2.on 9) rfl ?_ ?_ ?_ ?_ ?_) <;> decide +kernel,
   by refine ran (h.2.2.1 wtwinsAndMonitors3 9 383 2 1148 [2, 2, 0] (hd 1148 17 12 30 7) (hd 1148 17 12 30 7) [] (wtwinsAndMonitors3.on 9) rfl ?_ ?_ ?_ ?_ ?_ ?_ ?_ ?_ ?_) <;> decide +kernel,
   by refine ran (h.2.2.2.1 wtwinsAndMonitors4 9 383 2 1148 [2, 2, 0] (hd 1148 17 8 30 7) (hd 1148 17 8 30 7) [] { n := 382, hdr := hd 1148 17 12 30 7 } (wtwinsAndMonitors4.on 9) rfl ?_ ?_ ?_ ?_ ?_ ?_ rfl ?_ ?_ ?_) <;> decide +kernel,
   by refine ran (h.2.2.2.2.1 wtwinsAndMonitors5 9 383 2 1148 [2, 2, 0] (hd 1148 17 8 30 7) (hd 1148 17 8 30 7) [] { n := 383, hdr := hd 1148 17 12 29 7 } (wtwinsAndMonitors5.on 9) rfl ?_ ?_ ?_ ?_ ?_ ?_ rfl ?_ ?_) <;> decide +kernel,
   by refine ran (h.2.2.2.2.2.1 wtwinsAndMonitors6 secU 1148 _ (wtwinsAndMonitors6.on secU) rfl ?_ rfl ?_ ?_) <;> decide +kernel,
   ranTime (h.2.2.2.2.2.2.1 wtwinsAndMonitors7 9 1151 (by decide +kernel) (by decide +kernel)),
   by refine ran (h.2.2.2.2.2.2.2.1 wtwinsAndMonitors8 secU 1151 (wtwinsAndMonitors8.on secU) rfl ?_ ?_ ?_) <;> decide +kernel,
   ranTime (h.2.2.2.2.2.2.2.2.1 wtwinsAndMonitors9 secU 1151 (by decide +kernel) (by decide +kernel)),
   ran (h.2.2.2.2.2.2.2.2.2 wtwinsAndMonitors10 9 1151 _ _ _ _ (wtwinsAndMonitors10.on 9) rfl (by decide +kernel) rfl rfl (by decide +kernel) rfl)⟩

def wframesAndStores1 : State := st fun d => (ras d).modOut 1151 fun x => { x with cctNext := some (7, 9) }
def wframesAndStores2 : State := st fun d => (ras d).modOp 1151 .a fun x => { x with frameNo := some 100 }
def wframesAndStores3 : State := st fun d => ((ras d).wr F.PL_STATUS_state 3 1).modOut 1151 fun x => { x with pl := ⟨{ x.pl.a with active := { kind := 2, src := 4 } }, { x.pl.b with waitCopy := true }⟩ }
def wframesAndStores4 : State := st fun d => unread 5 {} d
def wframesAndStores5 : State := st fun d => unread 5 { bufs := [(2, { n := 8, complete := some (3 * secU) })] } d
def wframesAndStores6 : State := st fun d => unread 2304 { fmtOut := 0x12, profile := 255, owned := 1428, frames := [{ j := 98, state := .computed }] } d
def wframesAndStores7 : State := st fun d => sync d
def wframesAndStores8 : State := st fun d => d

theorem test_FramesAndStores (h : Obligations.FramesAndStores) :
    Ran (.outputFrameStart 9 .a 1151 100) wframesAndStores1
    ∧ Ran (.outputFrameStart 9 .a 1151 100) wframesAndStores2
    ∧ Ran (.outputFrameStart 9 .b 1151 100) wframesAndStores3
    ∧ Ran (.outputFrameStart 9 .a 1151 100) wframesAndStores4
    ∧ Ran (.outputFrameStart 9 .a 1151 100) wframesAndStores5
    ∧ Ran (.outputFrameStart 9 .a 1151 100) wframesAndStores6
    ∧ Ran (.hamperIngest 9 .a 1151) wframesAndStores7
    ∧ Ran (.hamperIngest 9 .a 1151) wframesAndStores8 :=
  ⟨by refine ran (h.1 wframesAndStores1 9 1151 100 _ _ _ .a ((wframesAndStores1.on 9).landDue) rfl ?_ ?_ rfl ?_ ?_ ?_ ?_ ?_ ?_ rfl rfl) <;> decide +kernel,
   by refine ran (h.2.1 wframesAndStores2 9 1151 100 _ .a ((wframesAndStores2.on 9).landDue) rfl ?_ ?_ rfl ?_ ?_ ?_ ?_) <;> decide +kernel,
   by refine ran (h.2.2.1 wframesAndStores3 9 1151 100 _ .b ((wframesAndStores3.on 9).landDue) rfl ?_ ?_ rfl ?_ ?_ ?_ ?_ ?_ rfl rfl) <;> decide +kernel,
   by refine ran (h.2.2.2.1 wframesAndStores4 9 1151 100 _ 5 .a ((wframesAndStores4.on 9).landDue) rfl ?_ ?_ rfl ?_ ?_ ?_ ?_ ?_ ?_ ?_ ?_ ?_ ?_ (.inl rfl) rfl) <;> decide +kernel,
   by refine ran (h.2.2.2.1 wframesAndStores5 9 1151 100 _ 5 .a ((wframesAndStores5.on 9).landDue) rfl ?_ ?_ rfl ?_ ?_ ?_ ?_ ?_ ?_ ?_ ?_ ?_ ?_ (.inl rfl) rfl) <;> decide +kernel,
   by refine ran (h.2.2.2.1 wframesAndStores6 9 1151 100 _ 2304 .a ((wframesAndStores6.on 9).landDue) rfl ?_ ?_ rfl ?_ ?_ ?_ ?_ ?_ ?_ ?_ ?_ ?_ ?_ (.inr ?_) rfl) <;> decide +kernel,
   by refine ranMem (h.2.2.2.2.1 wframesAndStores7 9 1151 1151 0 0 .a _ _ _ ((wframesAndStores7.on 9).landDue) rfl ?_ rfl ?_ ?_ rfl ?_ ?_ ?_ ?_ ?_ ?_ ?_ ?_) <;> decide +kernel,
   ran (h.2.2.2.2.2 wframesAndStores8 9 1151 .a ((wframesAndStores8.on 9).landDue) rfl (by decide +kernel) (by decide +kernel))⟩

def wlinesRead1 : State := st fun d => blk d
def wlinesRead2 : State := st fun d => (timed (ras d)).modPlane .a fun x => { x with slots := [(7, { units := [{ line := 1, fmt := 0x12, arrive := 4 * secU - 100 * usU }] })] }
def wlinesRead3 : State := st fun d => scan false d
def wlinesRead4 : State := st fun d => timed (ras d)
def wlinesRead5 : State := st fun d => scan false d
def wlinesRead6 : State := st fun d => blk d
def wlinesRead7 : State := st fun d => blk d
def wlinesRead8 : State := st fun d => blk d
def wlinesRead9 : State := st fun d => (blk d).wr F.PL_STATUS_state 2 0

theorem test_LinesRead (h : Obligations.LinesRead) :
    Ran (.lineRead 9 .a 1151 100 1 .clean .clean true true) wlinesRead1
    ∧ Ran (.lineRead 9 .a 1151 100 1 .clean .clean true true) wlinesRead2
    ∧ Ran (.lineRead 9 .a 1151 100 1 .clean .clean true true) wlinesRead3
    ∧ Ran (.lineRead 9 .a 1151 100 1 .clean .clean true true) wlinesRead4
    ∧ Ran (.lineRead 9 .a 1151 100 1 .clean .clean false true) wlinesRead5
    ∧ Ran (.lineRead 9 .a 1151 100 1 .corrected .clean true false) wlinesRead6
    ∧ Ran (.lineRead 9 .a 1151 100 1 .uncorrectable .corrected true false) wlinesRead7
    ∧ Ran (.lineRead 9 .a 1151 100 1 .clean .uncorrectable true false) wlinesRead8
    ∧ Ran (.lineRead 9 .a 1151 100 1 .uncorrectable .corrected false true) wlinesRead9 :=
  ⟨by refine ran (h.1 wlinesRead1 9 1151 100 1 _ _ _ .a _ ((wlinesRead1.on 9).landDue) rfl ⟨⟨ ?_ , ?_ , rfl, rfl, ?_ , ?_ , ?_ , rfl, rfl⟩, ⟨ ?_ , ?_ , ?_ , ?_ , ?_ , ?_ , ?_ , rfl⟩, ?_ , ?_ ⟩ rfl (.inl ⟨rfl, rfl⟩)) <;> decide +kernel,
   by refine ran (h.1 wlinesRead2 9 1151 100 1 _ _ _ .a _ ((wlinesRead2.on 9).landDue) rfl ⟨⟨ ?_ , ?_ , rfl, rfl, ?_ , ?_ , ?_ , rfl, rfl⟩, ⟨ ?_ , ?_ , ?_ , ?_ , ?_ , ?_ , ?_ , rfl⟩, ?_ , ?_ ⟩ rfl (.inr (.inl ⟨by decide, rfl, by decide⟩))) <;> decide +kernel,
   by refine ran (h.1 wlinesRead3 9 1151 100 1 _ _ _ .a _ ((wlinesRead3.on 9).landDue) rfl ⟨⟨ ?_ , ?_ , rfl, rfl, ?_ , ?_ , ?_ , rfl, rfl⟩, ⟨ ?_ , ?_ , ?_ , ?_ , ?_ , ?_ , ?_ , rfl⟩, ?_ , ?_ ⟩ rfl (.inr (.inr ⟨ ?_ , ?_ , ?_ , rfl, rfl⟩))) <;> decide +kernel,
   by refine ran (h.2.1 wlinesRead4 9 1151 100 1 _ _ .a ((wlinesRead4.on 9).landDue) rfl ⟨⟨ ?_ , ?_ , rfl, rfl, ?_ , ?_ , ?_ , rfl, rfl⟩, ⟨ ?_ , ?_ , ?_ , ?_ , ?_ , ?_ , ?_ , rfl⟩, ?_ , ?_ ⟩ ?_ ?_) <;> decide +kernel,
   by refine ran (h.2.2.1 wlinesRead5 9 1151 100 1 _ _ .a true ((wlinesRead5.on 9).landDue) rfl ⟨⟨ ?_ , ?_ , rfl, rfl, ?_ , ?_ , ?_ , rfl, rfl⟩, ⟨ ?_ , ?_ , ?_ , ?_ , ?_ , ?_ , ?_ , rfl⟩, ?_ , ?_ ⟩ ?_ ?_ ?_ rfl ?_) <;> decide +kernel,
   by refine ran (h.2.2.2.1 wlinesRead6 9 1151 100 1 _ _ .a true false ((wlinesRead6.on 9).landDue) rfl ⟨⟨ ?_ , ?_ , rfl, rfl, ?_ , ?_ , ?_ , rfl, rfl⟩, ⟨ ?_ , ?_ , ?_ , ?_ , ?_ , ?_ , ?_ , rfl⟩, ?_ , ?_ ⟩ ?_) <;> decide +kernel,
   by refine ran (h.2.2.2.2.1 wlinesRead7 9 1151 100 1 _ _ .a true false .corrected ((wlinesRead7.on 9).landDue) rfl ⟨⟨ ?_ , ?_ , rfl, rfl, ?_ , ?_ , ?_ , rfl, rfl⟩, ⟨ ?_ , ?_ , ?_ , ?_ , ?_ , ?_ , ?_ , rfl⟩, ?_ , ?_ ⟩ ?_ (.inr rfl)) <;> decide +kernel,
   by refine ran (h.2.2.2.2.2.1 wlinesRead8 9 1151 100 1 _ _ .a true false ((wlinesRead8.on 9).landDue) rfl ⟨⟨ ?_ , ?_ , rfl, rfl, ?_ , ?_ , ?_ , rfl, rfl⟩, ⟨ ?_ , ?_ , ?_ , ?_ , ?_ , ?_ , ?_ , rfl⟩, ?_ , ?_ ⟩ ?_) <;> decide +kernel,
   by refine ran (h.2.2.2.2.2.2 wlinesRead9 9 1151 100 1 _ _ .a .uncorrectable .corrected false true ((wlinesRead9.on 9).landDue) rfl ⟨ ?_ , ?_ , rfl, rfl, ?_ , ?_ , ?_ , rfl, rfl⟩ ?_ ?_ ?_) <;> decide +kernel⟩

def wselectorsAndRasters1 : State := st fun d => staged .a (blk (brz 383 d))
def wselectorsAndRasters2 : State := st fun d => (staged .b ((blk (brz 383 d)).modOp 1151 .b fun y => { y with active := { kind := 1 } })).wr F.PL_STATUS_state 1 0
def wselectorsAndRasters3 : State := st fun d => asks (brz 383 d)
def wselectorsAndRasters4 : State := st fun d => blk (brz 383 d)
def wselectorsAndRasters5 : State := st fun d => ras (brz 383 d)
def wselectorsAndRasters6 : State := st id
def wselectorsAndRasters7 : State := st fun d => (blk (brz 383 d)).modOut 1151 fun x => { x with change := some { dst := some { cls := 6, fmt := 0x13, off := 5 }, startAt := 4 * secU } }
def wselectorsAndRasters8 : State := st fun d => (blk (brz 383 d)).modOut 1151 fun x => { x with change := some { startAt := 4 * secU } }
def wselectorsAndRasters9 : State := st id

theorem test_SelectorsAndRasters (h : Obligations.SelectorsAndRasters) :
    Ran (.selectorDecision 9 1151 100 1) wselectorsAndRasters1
    ∧ Ran (.selectorDecision 9 1151 100 1) wselectorsAndRasters2
    ∧ Ran (.selectorDecision 9 1151 100 10) wselectorsAndRasters3
    ∧ Ran (.selectorDecision 9 1151 100 1) wselectorsAndRasters4
    ∧ Ran (.selectorDecision 9 1151 100 1) wselectorsAndRasters5
    ∧ Ran (.selectorDecision 9 1151 100 1) wselectorsAndRasters6
    ∧ Ran (.rasterChange 9 1151) wselectorsAndRasters7
    ∧ Ran (.rasterChange 9 1151) wselectorsAndRasters8
    ∧ Ran (.rasterChange 9 1151) wselectorsAndRasters9 :=
  ⟨by refine ran (h.1 wselectorsAndRasters1 9 1151 100 1 _ _ _ _ ((wselectorsAndRasters1.on 9).landDue) rfl ⟨⟨ ?_ , ?_ , rfl, rfl, ?_ , ?_ , ?_ , rfl, rfl⟩, ?_ , ?_ , ?_ ⟩ ?_ ⟨rfl, ?_ , ?_ , ?_ , ?_ , ?_ , ?_ , ?_ , ?_ , rfl, ?_ , ?_ , ?_ , ?_ ⟩ (.inr (by decide))) <;> decide +kernel,
   by refine ran (h.2.1 wselectorsAndRasters2 9 1151 100 1 _ _ _ _ ((wselectorsAndRasters2.on 9).landDue) rfl ⟨⟨ ?_ , ?_ , rfl, rfl, ?_ , ?_ , ?_ , rfl, rfl⟩, ?_ , ?_ , ?_ ⟩ ?_ ?_ ?_ ?_ ?_ ⟨rfl, ?_ , ?_ , ?_ , ?_ , ?_ , ?_ , ?_ , ?_ , rfl, ?_ , ?_ , ?_ , ?_ ⟩) <;> decide +kernel,
   by refine ran (h.2.2.1 wselectorsAndRasters3 9 1151 100 10 _ _ 2 _ .b ((wselectorsAndRasters3.on 9).landDue) rfl ⟨⟨ ?_ , ?_ , rfl, rfl, ?_ , ?_ , ?_ , rfl, rfl⟩, ?_ , ?_ , ?_ ⟩ ?_ ?_ ?_ rfl ?_ ?_ ⟨ ?_ , ?_ , ?_ ⟩ ⟨rfl, ?_ , ?_ , ?_ , ?_ , ?_ , ?_ , ?_ , ?_ , rfl, ?_ , ?_ , ?_ , ?_ ⟩) <;> decide +kernel,
   by refine ran (h.2.2.2.1 wselectorsAndRasters4 9 1151 100 1 _ _ ((wselectorsAndRasters4.on 9).landDue) rfl ⟨⟨ ?_ , ?_ , rfl, rfl, ?_ , ?_ , ?_ , rfl, rfl⟩, ?_ , ?_ , ?_ ⟩ ?_ ?_ ?_) <;> decide +kernel,
   by refine ran (h.2.2.2.2.1 wselectorsAndRasters5 9 1151 100 1 _ _ ((wselectorsAndRasters5.on 9).landDue) rfl ⟨⟨ ?_ , ?_ , rfl, rfl, ?_ , ?_ , ?_ , rfl, rfl⟩, ?_ , ?_ , ?_ ⟩ ?_) <;> decide +kernel,
   ran (h.2.2.2.2.2.1 wselectorsAndRasters6 9 1151 100 1 ((wselectorsAndRasters6.on 9).landDue) rfl (by decide +kernel) (by decide +kernel)),
   by refine ran (h.2.2.2.2.2.2.1 wselectorsAndRasters7 9 1151 _ _ ((wselectorsAndRasters7.on 9).landDue) rfl ?_ rfl rfl rfl ?_ ?_ rfl rfl) <;> decide +kernel,
   by refine ran (h.2.2.2.2.2.2.2.1 wselectorsAndRasters8 9 1151 _ ((wselectorsAndRasters8.on 9).landDue) rfl ?_ rfl rfl rfl ?_ ?_ rfl rfl) <;> decide +kernel,
   ran (h.2.2.2.2.2.2.2.2 wselectorsAndRasters9 9 1151 ((wselectorsAndRasters9.on 9).landDue) rfl (by decide +kernel) (by decide +kernel))⟩

def wtableScrubs1 : State := st fun d => d.put F.LX_CTRL_scrub_en false 1
def wtableScrubs2 : State := st fun d => (d.put F.LX_CTRL_scrub_en true 1).wr F.PL_STATUS_state 1 1
def wtableScrubs3 : State := st id
def wtableScrubs4 : State := st id
def wtableScrubs5 : State := st fun d => d.put F.LX_CTRL_scrub_en true 1
def wtableScrubs6 : State := st fun d => (d.put F.AX_CTRL_scrub_en true 1).put F.AX_ECC_ADDR_valid true 1
def wtableScrubs7 : State := st fun d => (d.put F.AX_CTRL_scrub_en true 1)
def wtableScrubs8 : State := st fun d => d.put F.HAM_CTRL_scrub_en true 1
def wtableScrubs9 : State := st fun d => d.put F.LX_CTRL_scrub_en true 1
def wtableScrubs10 : State := st fun d => d.put F.AX_CTRL_scrub_en true 1
def wtableScrubs11 : State := st fun d => d.put F.HAM_CTRL_scrub_en true 1

theorem test_TableScrubs (h : Obligations.TableScrubs) :
    Ran (.mapScrub 9 .b 1151 true .corrected) wtableScrubs1
    ∧ Ran (.mapScrub 9 .b 1151 true .corrected) wtableScrubs2
    ∧ Ran (.audioMapScrub 9 .b 18431 .clean) wtableScrubs3
    ∧ Ran (.pageMapScrub 9 .b 2097151 .clean) wtableScrubs4
    ∧ Ran (.mapScrub 9 .b 1151 true .corrected) wtableScrubs5
    ∧ Ran (.audioMapScrub 9 .b 18431 .corrected) wtableScrubs6
    ∧ Ran (.audioMapScrub 9 .b 18431 .corrected) wtableScrubs7
    ∧ Ran (.pageMapScrub 9 .b 2097151 .corrected) wtableScrubs8
    ∧ Ran (.mapScrub 9 .b 1151 true .uncorrectable) wtableScrubs9
    ∧ Ran (.audioMapScrub 9 .b 18431 .uncorrectable) wtableScrubs10
    ∧ Ran (.pageMapScrub 9 .b 2097151 .uncorrectable) wtableScrubs11 :=
  ⟨ranTime (h.1 wtableScrubs1 9 1151 .b true .corrected (by decide +kernel) (.inr (.inl (by decide +kernel)))),
   ranTime (h.1 wtableScrubs2 9 1151 .b true .corrected (by decide +kernel) (.inr (.inr (by decide +kernel)))),
   ranTime (h.2.1 wtableScrubs3 9 18431 .b .clean (by decide +kernel) (.inl rfl)),
   ranTime (h.2.2.1 wtableScrubs4 9 2097151 .b .clean (by decide +kernel) (.inl rfl)),
   by refine ran (h.2.2.2.1 wtableScrubs5 9 1151 .b true (wtableScrubs5.on 9) rfl ?_ ?_ ?_) <;> decide +kernel,
   by refine ran (h.2.2.2.2.1 wtableScrubs6 9 18431 .b (wtableScrubs6.on 9) rfl ?_ ?_ ?_) <;> decide +kernel,
   by refine ran (h.2.2.2.2.1 wtableScrubs7 9 18431 .b (wtableScrubs7.on 9) rfl ?_ ?_ ?_) <;> decide +kernel,
   by refine ran (h.2.2.2.2.2.1 wtableScrubs8 9 2097151 .b (wtableScrubs8.on 9) rfl ?_ ?_ ?_) <;> decide +kernel,
   by refine ran (h.2.2.2.2.2.2.1 wtableScrubs9 9 1151 .b true (wtableScrubs9.on 9) rfl ?_ ?_ ?_) <;> decide +kernel,
   by refine ran (h.2.2.2.2.2.2.2.1 wtableScrubs10 9 18431 .b (wtableScrubs10.on 9) rfl ?_ ?_ ?_) <;> decide +kernel,
   by refine ran (h.2.2.2.2.2.2.2.2 wtableScrubs11 9 2097151 .b (wtableScrubs11.on 9) rfl ?_ ?_ ?_) <;> decide +kernel⟩

def wdoorbellReads1 : State := st fun d => pol .a 3 0 0 d
def wdoorbellReads2 : State := st fun d => ((pol .a 3 0 0 d).put F.HIF_ASR_CFG_enable true 0).modPort .a fun x => { x with resumed := true, asrSince := 7 }
def wdoorbellReads3 : State := st fun d => (pol .b 3 0 0 d).modPort .b fun x => { x with reading := true }
def wdoorbellReads4 : State := st fun d => (pol .b 3 0 0 d).put F.HIF_DB_CFG_sweep true 1
def wdoorbellReads5 : State := st fun d => ((pol .b 3 0 0 d).put F.HIF_DB_CFG_sweep true 1).modPort .b fun x => { x with reading := true }
def wdoorbellReads6 : State := st id
def wdoorbellReads7 : State := st fun d => (pol .b 3 0 0 d).modPort .b fun x => { x with reading := true }
def wdoorbellReads8 : State := st fun d => (pol .b 3 0 0 d).modPort .b fun x => { x with reading := true, sweepDue := true }
def wdoorbellReads9 : State := st fun d => (pol .b 15 0 0 d).modPort .b fun x => { x with reading := true }
def wdoorbellReads10 : State := st fun d => ((one .a 15 { idx := 65535, phase := .done, descs := [dsc 0x20] } d).modPort .a fun x => { x with reading := true, sweepDue := true }).put F.HIF_SVR_STATUS_stalled true 15
def wdoorbellReads11 : State := st fun d => ((pol .a 15 0 0 d).modRing .a 15 fun x => { x with starting := true }).modPort .a fun x => { x with reading := true }
def wdoorbellReads12 : State := st id
def wdoorbellReads13 : State := st fun d => (pol .b 3 0 0 d).modPort .b fun x => { x with dirty := true }

theorem test_DoorbellReads (h : Obligations.DoorbellReads) :
    Ran (.doorbellPoll 9 .a) wdoorbellReads1
    ∧ Ran (.doorbellPoll 9 .a) wdoorbellReads2
    ∧ Ran (.doorbellPoll 9 .b) wdoorbellReads3
    ∧ Ran (.latchSweep 9 .b 2) wdoorbellReads4
    ∧ Ran (.latchSweep 9 .b 2) wdoorbellReads5
    ∧ Ran (.latchSweep 9 .a 1) wdoorbellReads6
    ∧ Ran (.doorbellReadComplete 9 .b none) wdoorbellReads7
    ∧ Ran (.doorbellReadComplete 9 .b none) wdoorbellReads8
    ∧ Ran (.doorbellReadComplete 9 .b (some (List.replicate 100 0x55#8))) wdoorbellReads9
    ∧ Ran (.doorbellReadComplete 9 .a (some (List.replicate 196 0x49#8))) wdoorbellReads10
    ∧ Ran (.doorbellReadComplete 9 .a (some (List.replicate 196 0x49#8))) wdoorbellReads11
    ∧ Ran (.doorbellReadComplete 9 .a none) wdoorbellReads12
    ∧ Ran (.doorbellWriteback 9 .b) wdoorbellReads13 :=
  ⟨by refine ran (h.1 wdoorbellReads1 9 .a (wdoorbellReads1.on 9) rfl ?_ ?_ ?_) <;> decide +kernel,
   by refine ran (h.2.1 wdoorbellReads2 9 .a (wdoorbellReads2.on 9) rfl ?_ ?_ ?_) <;> decide +kernel,
   ran (h.2.2.1 wdoorbellReads3 9 .b (wdoorbellReads3.on 9) rfl (by decide +kernel) (by decide +kernel)),
   by refine ran (h.2.2.2.1 wdoorbellReads4 9 2 .b (wdoorbellReads4.on 9) rfl ?_ ?_ ?_) <;> decide +kernel,
   by refine ran (h.2.2.2.1 wdoorbellReads5 9 2 .b (wdoorbellReads5.on 9) rfl ?_ ?_ ?_) <;> decide +kernel,
   ranTime (h.2.2.2.2.1 wdoorbellReads6 9 1 .a (.inl (by decide))),
   ran (h.2.2.2.2.2.1 wdoorbellReads7 9 .b (wdoorbellReads7.on 9) rfl (by decide +kernel) (by decide +kernel)),
   ran (h.2.2.2.2.2.1 wdoorbellReads8 9 .b (wdoorbellReads8.on 9) rfl (by decide +kernel) (by decide +kernel)),
   ran (h.2.2.2.2.2.2.1 wdoorbellReads9 9 .b (List.replicate 100 0x55#8) (wdoorbellReads9.on 9) rfl (by decide +kernel) (by decide +kernel)),
   ran (h.2.2.2.2.2.2.1 wdoorbellReads10 9 .a (List.replicate 196 0x49#8) (wdoorbellReads10.on 9) rfl (by decide +kernel) (by decide +kernel)),
   ran (h.2.2.2.2.2.2.1 wdoorbellReads11 9 .a (List.replicate 196 0x49#8) (wdoorbellReads11.on 9) rfl (by decide +kernel) (by decide +kernel)),
   ranTime (h.2.2.2.2.2.2.2.1 wdoorbellReads12 9 .a none (.inl (by decide +kernel))),
   ran (h.2.2.2.2.2.2.2.2 wdoorbellReads13 9 .b (wdoorbellReads13.on 9) rfl (by decide +kernel) (by decide +kernel))⟩

def witemsArriveAndStart1 : State := st fun d => pol .a 15 65535 1 d
def witemsArriveAndStart2 : State := st fun d => pol .b 0 7 8 d
def witemsArriveAndStart3 : State := st fun d => pol .a 15 65535 1 d
def witemsArriveAndStart4 : State := st fun d => pol .b 15 65535 1 d
def witemsArriveAndStart5 : State := st fun d => ((pol .b 15 65535 1 d).modRing .b 15 fun x => { x with head := slv 1, items := [{ idx := 65534, seq := 4 }] })
def witemsArriveAndStart6 : State := st fun d => pol .b 2 5 6 d
def witemsArriveAndStart7 : State := st fun d => pol .b 2 5 6 d
def witemsArriveAndStart8 : State := st fun d => one .b 2 { idx := 65535, descs := [dsc 0x20], phase := .delivered } d
def witemsArriveAndStart9 : State := st fun d => one .b 2 { idx := 65535, descs := [dsc (0x40 + 0x300000 * 2 ^ 32)], phase := .delivered } d
def witemsArriveAndStart10 : State := st fun d => one .b 2 { idx := 65535, descs := [dsc (0x20 + 4095 * 2 ^ 32 + 2 ^ 49)], phase := .delivered } d
def witemsArriveAndStart11 : State := st fun d => ((one .b 2 { idx := 65535, descs := [slv 0], phase := .delivered, target := 1000 } d).setReg .TB_CLASS 5 clsA).modTb .a fun x => { x with epoch := 4 * secU }
def witemsArriveAndStart12 : State := st fun d => (jdg (0x21 + 3 * 2 ^ 32 + 3 * 2 ^ 112) d).modTb .a fun x => { x with epoch := secU }
def witemsArriveAndStart13 : State := st fun d => (jdg (0x10 + 1152 * 2 ^ 32 + 1 * 2 ^ 48) d).modTb .a fun x => { x with epoch := secU }
def witemsArriveAndStart14 : State := st fun d => (jdg (0x16 + 1151 * 2 ^ 32 + 2 * 2 ^ 48 + (2 ^ 20) * 2 ^ 96 + 2 ^ 128) d).modTb .a fun x => { x with epoch := secU }
def witemsArriveAndStart15 : State := st fun d => { d with coolCtl := [7, 4095] }
def witemsArriveAndStart16 : State := st fun d => d.modPlane .a fun x => { x with coolbox := [7, 4095] }
def witemsArriveAndStart17 : State := st id

theorem test_ItemsArriveAndStart (h : Obligations.ItemsArriveAndStart) :
    Ran (.itemArrival 9 .a 15 [slv 1, dsc 0] true) witemsArriveAndStart1
    ∧ Ran (.itemArrival 9 .b 0 [dsc 0x22] true) witemsArriveAndStart2
    ∧ Ran (.itemArrival 9 .a 15 [slv 64] false) witemsArriveAndStart3
    ∧ Ran (.itemArrival 9 .b 15 [slv 1, dsc 0] false) witemsArriveAndStart4
    ∧ Ran (.itemArrival 9 .b 15 [] false) witemsArriveAndStart5
    ∧ Ran (.itemArrival 9 .b 2 [dsc 5] true) witemsArriveAndStart6
    ∧ Ran (.itemArrival 9 .b 2 [slv 1] true) witemsArriveAndStart7
    ∧ Ran (.itemValidate 9 .b 2 []) witemsArriveAndStart8
    ∧ Ran (.itemValidate 9 .b 2 []) witemsArriveAndStart9
    ∧ Ran (.itemValidate 9 .b 2 []) witemsArriveAndStart10
    ∧ Ran (.itemValidate 9 .b 2 []) witemsArriveAndStart11
    ∧ Ran (.itemValidate 9 .b 15 []) witemsArriveAndStart12
    ∧ Ran (.itemValidate 9 .b 15 []) witemsArriveAndStart13
    ∧ Ran (.itemValidate 9 .b 15 []) witemsArriveAndStart14
    ∧ Ran (.itemValidate 9 .b 2 [(none, 4095)]) witemsArriveAndStart15
    ∧ Ran (.itemValidate 9 .b 2 [(some .a, 4095)]) witemsArriveAndStart16
    ∧ Ran (.itemValidate 9 .b 2 []) witemsArriveAndStart17 :=
  ⟨by refine ran (h.1 witemsArriveAndStart1 9 15 2 .a [slv 1, dsc 0] _ (witemsArriveAndStart1.on 9) rfl ⟨ ?_ , ?_ , ?_ , ?_ , ?_ , ?_ , ?_ ⟩ rfl ?_) <;> decide +kernel,
   by refine ran (h.1 witemsArriveAndStart2 9 0 1 .b [dsc 0x22] _ (witemsArriveAndStart2.on 9) rfl ⟨ ?_ , ?_ , ?_ , ?_ , ?_ , ?_ , ?_ ⟩ rfl ?_) <;> decide +kernel,
   by refine ran (h.2.1 witemsArriveAndStart3 9 15 1 0x19 .a [slv 64] _ false (witemsArriveAndStart3.on 9) rfl ⟨ ?_ , ?_ , ?_ , ?_ , ?_ , ?_ , ?_ ⟩ ?_ rfl ?_ ?_) <;> decide +kernel,
   by refine ran (h.2.1 witemsArriveAndStart4 9 15 2 0x10 .b [slv 1, dsc 0] _ false (witemsArriveAndStart4.on 9) rfl ⟨ ?_ , ?_ , ?_ , ?_ , ?_ , ?_ , ?_ ⟩ ?_ rfl ?_ ?_) <;> decide +kernel,
   by refine ran (h.2.1 witemsArriveAndStart5 9 15 2 0x10 .b [] _ false (witemsArriveAndStart5.on 9) rfl ⟨ ?_ , ?_ , ?_ , ?_ , ?_ , ?_ , ?_ ⟩ ?_ rfl ?_ ?_) <;> decide +kernel,
   by refine ran (h.2.1 witemsArriveAndStart6 9 2 1 0x13 .b [dsc 5] _ true (witemsArriveAndStart6.on 9) rfl ⟨ ?_ , ?_ , ?_ , ?_ , ?_ , ?_ , ?_ ⟩ ?_ rfl ?_ ?_) <;> decide +kernel,
   by refine ran (h.2.2.1 witemsArriveAndStart7 9 2 .b [slv 1] _ (witemsArriveAndStart7.on 9) rfl ⟨ ?_ , ?_ , ?_ , ?_ , ?_ , ?_ , ?_ ⟩ rfl ?_ ?_) <;> decide +kernel,
   by refine ran (h.2.2.2.1 witemsArriveAndStart8 9 2 .b _ (witemsArriveAndStart8.on 9) rfl ⟨ ?_ , ?_ , rfl⟩ ?_ ?_ ?_) <;> decide +kernel,
   by refine ran (h.2.2.2.1 witemsArriveAndStart9 9 2 .b _ (witemsArriveAndStart9.on 9) rfl ⟨ ?_ , ?_ , rfl⟩ ?_ ?_ ?_) <;> decide +kernel,
   by refine ran (h.2.2.2.2.1 witemsArriveAndStart10 9 2 _ .b _ (witemsArriveAndStart10.on 9) rfl ⟨ ?_ , ?_ , rfl⟩ ?_ ?_ ?_ rfl ?_ ?_) <;> decide +kernel,
   by refine ran (h.2.2.2.2.2.1 witemsArriveAndStart11 9 2 .b { idx := 65535, descs := [slv 0], phase := .delivered, target := 1000 } (witemsArriveAndStart11.on 9) rfl ⟨ ?_ , ?_ , ?_ ⟩ ?_ ?_ ?_ ?_ (by intro e h; cases h) ?_ (by intro e h; cases h)) <;> decide +kernel,
   by refine ran (h.2.2.2.2.2.1 witemsArriveAndStart12 9 15 .b (jdgIt (0x21 + 3 * 2 ^ 32 + 3 * 2 ^ 112)) (witemsArriveAndStart12.on 9) rfl ⟨ ?_ , ?_ , ?_ ⟩ ?_ ?_ ?_ ?_ ?_ ?_ ?_) <;> decide +kernel,
   by refine ran (h.2.2.2.2.2.2.1 witemsArriveAndStart13 9 15 .b (jdgIt (0x10 + 1152 * 2 ^ 32 + 1 * 2 ^ 48)) (witemsArriveAndStart13.on 9) rfl ⟨ ?_ , ?_ , ?_ ⟩ ?_ ?_ ?_ ?_ ?_) <;> decide +kernel,
   by refine ran (h.2.2.2.2.2.2.2.1 witemsArriveAndStart14 9 15 .b (jdgIt (0x16 + 1151 * 2 ^ 32 + 2 * 2 ^ 48 + (2 ^ 20) * 2 ^ 96 + 2 ^ 128)) (witemsArriveAndStart14.on 9) rfl ⟨ ?_ , ?_ , ?_ ⟩ ?_ ?_ ?_ ?_) <;> decide +kernel,
   by refine ran (h.2.2.2.2.2.2.2.2.1 witemsArriveAndStart15 9 2 4095 .b (witemsArriveAndStart15.on 9) rfl ?_ ?_ ?_) <;> decide +kernel,
   by refine ran (h.2.2.2.2.2.2.2.2.2.1 witemsArriveAndStart16 9 2 4095 .b .a (witemsArriveAndStart16.on 9) rfl ?_ ?_ ?_ ?_ ?_) <;> decide +kernel,
   ranTime (h.2.2.2.2.2.2.2.2.2.2 witemsArriveAndStart17 9 2 .b (by decide +kernel) (by decide +kernel))⟩

def wringSwitching1 : State := st fun d => d.setBit F.HIF_TAKEN_taken 15 true 1
def wringSwitching2 : State := st fun d => d.put F.HIF_SVR_STATUS_draining true 31
def wringSwitching3 : State := st fun d => pol .b 15 3 3 d
def wringSwitching4 : State := st fun d => pol .b 15 3 3 d
def wringSwitching5 : State := st fun d => one .b 15 (actIt 0x31) d
def wringSwitching6 : State := st fun d => one .b 15 (secIt 0x10) d
def wringSwitching7 : State := st id
def wringSwitching8 : State := st fun d => d.wr F.HIF_FOLD_BASE_LO_addr 1 1
def wringSwitching9 : State := st id
def wringSwitching10 : State := st id
def wringSwitching11 : State := st id
def wringSwitching12 : State := st fun d => d.put F.HIF_EVR_CFG_enable true 63
def wringSwitching13 : State := st fun d => d.put F.HIF_EVR_CFG_enable true 63
def wringSwitching14 : State := st fun d => d.put F.HIF_CPR_CFG_enable true 31
def wringSwitching15 : State := st fun d => d.put F.HIF_ASR_CFG_enable true 1
def wringSwitching16 : State := st id
def wringSwitching17 : State := st id
def wringSwitching18 : State := st id
def wringSwitching19 : State := st fun d => pol .b 15 3 3 d
def wringSwitching20 : State := st id
def wringSwitching21 : State := st id
def wringSwitching22 : State := st fun d => ((d.put F.HIF_PORT_CTRL_enable true 1).setReg .HIF_SVR_CFG 31 0x7F4#32)
def wringSwitching23 : State := st id
def wringSwitching24 : State := st id
def wringSwitching25 : State := st fun d => d.put F.HIF_EVR_CFG_enable true 63
def wringSwitching26 : State := st id
def wringSwitching27 : State := st fun d => { (d.modPlane .a fun x => { x with coolbox := [4] }) with coolCtl := [4] }

theorem test_RingSwitching (h : Obligations.RingSwitching) :
    Ran (.svrEnable 9 .b 15 65536) wringSwitching1
    ∧ Ran (.svrEnable 9 .b 15 65536) wringSwitching2
    ∧ Ran (.svrEnable 9 .b 15 65536) wringSwitching3
    ∧ Ran (.svrDisable 9 .b 15) wringSwitching4
    ∧ Ran (.svrDisable 9 .b 15) wringSwitching5
    ∧ Ran (.svrDisable 9 .b 15) wringSwitching6
    ∧ Ran (.svrDisable 9 .b 15) wringSwitching7
    ∧ Ran (.recordRingEnable 9 .b (.evr 31)) wringSwitching8
    ∧ Ran (.recordRingEnable 9 .b (.evr 31)) wringSwitching9
    ∧ Ran (.recordRingEnable 9 .b (.cpr 15)) wringSwitching10
    ∧ Ran (.recordRingEnable 9 .b .asr) wringSwitching11
    ∧ Ran (.recordRingEnable 9 .b (.evr 31)) wringSwitching12
    ∧ Ran (.recordRingDisable 9 .b (.evr 31)) wringSwitching13
    ∧ Ran (.recordRingDisable 9 .b (.cpr 15)) wringSwitching14
    ∧ Ran (.recordRingDisable 9 .b .asr) wringSwitching15
    ∧ Ran (.recordRingDisable 9 .b .asr) wringSwitching16
    ∧ Ran (.ringConfigWrite 9 .b 0x1F4 0xFFFFFFFF#32) wringSwitching17
    ∧ Ran (.ringConfigWrite 9 .b 0x5F0 0xFFFFFFFF#32) wringSwitching18
    ∧ Ran (.ringConfigWrite 9 .b 0x1F0 0xFFFFFFFF#32) wringSwitching19
    ∧ Ran (.ringConfigWrite 9 .b 0x608 0xFFFFFFFE#32) wringSwitching20
    ∧ Ran (.ringConfigWrite 9 .b 0x1F8 0x7F4#32) wringSwitching21
    ∧ Ran (.ringConfigWrite 9 .b 0x1F8 0x7F5#32) wringSwitching22
    ∧ Ran (.ringConfigWrite 9 .b 0x1FC 0xFFFFFFFF#32) wringSwitching23
    ∧ Ran (.foldBaseWrite 9 .b true 0xFFFFFFFF#32) wringSwitching24
    ∧ Ran (.foldBaseWrite 9 .b false 0xFFFFFFFF#32) wringSwitching25
    ∧ Ran (.foldBaseWrite 9 .b false 0xFFFFFFFF#32) wringSwitching26
    ∧ Ran (.cctFlush 9 .b) wringSwitching27 :=
  ⟨by refine ran (h.1 wringSwitching1 9 15 65536 .b (wringSwitching1.on 9) rfl ?_ ?_ ?_) <;> decide +kernel,
   by refine ran (h.2.1 wringSwitching2 9 15 65536 .b (wringSwitching2.on 9) rfl ?_ ?_ ?_) <;> decide +kernel,
   ranTime (h.2.2.1 wringSwitching3 9 15 65536 .b (by decide +kernel) (by decide +kernel)),
   ran (h.2.2.2.1 wringSwitching4 9 15 .b (wringSwitching4.on 9) rfl (by decide +kernel) (by decide +kernel)),
   ran (h.2.2.2.1 wringSwitching5 9 15 .b (wringSwitching5.on 9) rfl (by decide +kernel) (by decide +kernel)),
   ran (h.2.2.2.1 wringSwitching6 9 15 .b (wringSwitching6.on 9) rfl (by decide +kernel) (by decide +kernel)),
   ranTime (h.2.2.2.2.1 wringSwitching7 9 15 .b (by decide +kernel) (by decide +kernel)),
   by refine ran (h.2.2.2.2.2.1 wringSwitching8 9 31 .b (wringSwitching8.on 9) rfl ?_ ?_ ?_) <;> decide +kernel,
   by refine ran (h.2.2.2.2.2.2.1 wringSwitching9 9 31 .b (wringSwitching9.on 9) rfl ?_ ?_ ?_) <;> decide +kernel,
   by refine ran (h.2.2.2.2.2.2.2.1 wringSwitching10 9 15 .b (wringSwitching10.on 9) rfl ?_ ?_ ?_) <;> decide +kernel,
   by refine ran (h.2.2.2.2.2.2.2.2.1 wringSwitching11 9 .b (wringSwitching11.on 9) rfl ?_ ?_ ?_) <;> decide +kernel,
   ranTime (h.2.2.2.2.2.2.2.2.2.1 wringSwitching12 9 .b (.evr 31) (by decide +kernel) (by decide +kernel)),
   ran (h.2.2.2.2.2.2.2.2.2.2.1 wringSwitching13 9 31 .b (wringSwitching13.on 9) rfl (by decide +kernel) (by decide +kernel)),
   ran (h.2.2.2.2.2.2.2.2.2.2.2.1 wringSwitching14 9 15 .b (wringSwitching14.on 9) rfl (by decide +kernel) (by decide +kernel)),
   ran (h.2.2.2.2.2.2.2.2.2.2.2.2.1 wringSwitching15 9 .b (wringSwitching15.on 9) rfl (by decide +kernel)),
   ranTime (h.2.2.2.2.2.2.2.2.2.2.2.2.2.1 wringSwitching16 9 .b .asr (by decide +kernel) (by decide +kernel)),
   by refine ran (h.2.2.2.2.2.2.2.2.2.2.2.2.2.2.1 wringSwitching17 9 0x1F4 1 .b 0xFFFFFFFF#32 (.svr 15) (wringSwitching17.on 9) rfl ?_ ?_ ?_) <;> decide +kernel,
   by refine ran (h.2.2.2.2.2.2.2.2.2.2.2.2.2.2.1 wringSwitching18 9 0x5F0 0 .b 0xFFFFFFFF#32 (.recRing (.evr 31)) (wringSwitching18.on 9) rfl ?_ ?_ ?_) <;> decide +kernel,
   ran (h.2.2.2.2.2.2.2.2.2.2.2.2.2.2.2.1 wringSwitching19 9 0x1F0 0 .b 0xFFFFFFFF#32 (.svr 15) (wringSwitching19.on 9) rfl (by decide +kernel) (.inl ⟨by decide, by decide +kernel⟩)),
   ran (h.2.2.2.2.2.2.2.2.2.2.2.2.2.2.2.1 wringSwitching20 9 0x608 2 .b 0xFFFFFFFE#32 (.recRing .asr) (wringSwitching20.on 9) rfl (by decide +kernel) (.inr ⟨by decide, by decide +kernel, by decide +kernel⟩)),
   by refine ran (h.2.2.2.2.2.2.2.2.2.2.2.2.2.2.2.2.1 wringSwitching21 9 15 0x1F8 .b 0x7F4#32 (wringSwitching21.on 9) rfl ?_ ?_ ?_ ?_ ?_ ?_) <;> decide +kernel,
   by refine ran (h.2.2.2.2.2.2.2.2.2.2.2.2.2.2.2.2.2.1 wringSwitching22 9 15 0x1F8 .b 0x7F5#32 (wringSwitching22.on 9) rfl ?_ ?_ ?_ ?_ ?_ ?_) <;> decide +kernel,
   ranTime (h.2.2.2.2.2.2.2.2.2.2.2.2.2.2.2.2.2.2.1 wringSwitching23 9 0x1FC .b 0xFFFFFFFF#32 (by decide +kernel)),
   ran (h.2.2.2.2.2.2.2.2.2.2.2.2.2.2.2.2.2.2.2.1 wringSwitching24 9 .b true 0xFFFFFFFF#32 (wringSwitching24.on 9) rfl),
   ran (h.2.2.2.2.2.2.2.2.2.2.2.2.2.2.2.2.2.2.2.1 wringSwitching25 9 .b false 0xFFFFFFFF#32 (wringSwitching25.on 9) rfl),
   ran (h.2.2.2.2.2.2.2.2.2.2.2.2.2.2.2.2.2.2.2.1 wringSwitching26 9 .b false 0xFFFFFFFF#32 (wringSwitching26.on 9) rfl),
   ran (h.2.2.2.2.2.2.2.2.2.2.2.2.2.2.2.2.2.2.2.2 wringSwitching27 9 .b (wringSwitching27.on 9) rfl)⟩

def whostRecords1 : State := st fun d => (d.modRec .b (.evr 31) fun x => { x with modPend := true }).wr F.HIF_EVR_CFG_msix 7 63
def whostRecords2 : State := st fun d => ((d.modRec .b (.cpr 15) fun x => { x with modPend := true }).wr F.HIF_CPR_CFG_msix 7 31).modPort .b fun x => { x with msix := [(31, 0)] }
def whostRecords3 : State := st id
def whostRecords4 : State := st fun d => d.put F.HIF_WV_CFG_enable true 1
def whostRecords5 : State := st id
def whostRecords6 : State := st fun d => (d.put F.HIF_ASR_CFG_enable true 1).modPort .b fun x => { x with asrSince := 300 }
def whostRecords7 : State := st fun d => ({ d.put F.HIF_ASR_CFG_enable true 1 with now := 2 * secU }).modPort .b fun x => { x with asrSince := 3 }
def whostRecords8 : State := st id

theorem test_HostRecords (h : Obligations.HostRecords) :
    Ran (.msixModerationExpiry 9 .b (.evr 31)) whostRecords1
    ∧ Ran (.msixModerationExpiry 9 .b (.cpr 15)) whostRecords2
    ∧ Ran (.msixModerationExpiry 9 .b .asr) whostRecords3
    ∧ Ran (.weathervaneWrite 9 .b) whostRecords4
    ∧ Ran (.weathervaneWrite 9 .b) whostRecords5
    ∧ Ran (.asrunCheckpoint 9 .b 1) whostRecords6
    ∧ Ran (.asrunCheckpoint 9 .b 2) whostRecords7
    ∧ Ran (.asrunCheckpoint 9 .b 1) whostRecords8 :=
  ⟨ran (h.1 whostRecords1 9 .b (.evr 31) _ (whostRecords1.on 9) rfl (by decide +kernel) (by decide +kernel) rfl),
   ran (h.1 whostRecords2 9 .b (.cpr 15) _ (whostRecords2.on 9) rfl (by decide +kernel) (by decide +kernel) rfl),
   ranTime (h.2.1 whostRecords3 9 .asr .b (by decide +kernel) (by decide +kernel)),
   ran (h.2.2.1 whostRecords4 9 _ _ .b ((whostRecords4.on 9).landDue) rfl (by decide +kernel) (by decide +kernel) rfl rfl),
   ranTime (h.2.2.2.1 whostRecords5 9 .b (.inl (by decide +kernel))),
   by refine ran (h.2.2.2.2.1 whostRecords6 9 1 .b (whostRecords6.on 9) rfl (.inl ⟨rfl, by decide +kernel⟩) ?_ ?_ ?_ ?_ ?_) <;> decide +kernel,
   by refine ran (h.2.2.2.2.1 whostRecords7 9 2 .b (whostRecords7.on 9) rfl (.inr ⟨rfl, by decide +kernel, by decide +kernel⟩) ?_ ?_ ?_ ?_ ?_) <;> decide +kernel,
   ranTime (h.2.2.2.2.2 whostRecords8 9 .b (by decide +kernel))⟩

def wportsLost1 : State := st fun d => one .b 2 { idx := 65535, descs := [dsc 0x20], phase := .delivered } d
def wportsLost2 : State := st fun d => one .b 2 { idx := 65535, descs := [dsc 0x31], phase := .acting } d
def wportsLost3 : State := st fun d => d.modPort .b fun x => { x with fails := 8 }
def wportsLost4 : State := st fun d => one .b 2 { idx := 65535, descs := [dsc 0x31], phase := .acting } d
def wportsLost5 : State := st fun d => d.put F.HIF_LOSS_lost true 1
def wportsLost6 : State := st id
def wportsLost7 : State := st fun d => d.put F.HIF_LOSS_lost true 1
def wportsLost8 : State := st fun d => d.put F.HIF_LOSS_lost true 1
def wportsLost9 : State := st id
def wportsLost10 : State := st fun d => (d.put F.HIF_LOSS_lost true 1).modPort .b fun x => { x with probing := true }
def wportsLost11 : State := st id
def wportsLost12 : State := st fun d => d.modPort .b fun x => { x with perst := true }

theorem test_PortsLost (h : Obligations.PortsLost) :
    Ran (.portLost 9 .b .linkDown) wportsLost1
    ∧ Ran (.portLost 9 .b .busMasterOff) wportsLost2
    ∧ Ran (.portLost 9 .b .readsFailed) wportsLost3
    ∧ Ran (.perstAssert 9 .b) wportsLost4
    ∧ Ran (.perstAssert 9 .b) wportsLost5
    ∧ Ran (.portLost 9 .b .readsFailed) wportsLost6
    ∧ Ran (.portProbe 9 .b true true) wportsLost7
    ∧ Ran (.portProbe 9 .b true false) wportsLost8
    ∧ Ran (.portProbe 9 .b true true) wportsLost9
    ∧ Ran (.portRestored 9 .b) wportsLost10
    ∧ Ran (.portRestored 9 .b) wportsLost11
    ∧ Ran (.perstRelease 9 .b) wportsLost12 :=
  ⟨ran (h.1 wportsLost1 9 .b (wportsLost1.on 9) rfl (by decide +kernel)),
   ran (h.2.1 wportsLost2 9 .b (wportsLost2.on 9) rfl (by decide +kernel)),
   ran (h.2.2.1 wportsLost3 9 .b (wportsLost3.on 9) rfl (by decide +kernel) (by decide +kernel)),
   ran (h.2.2.2.1 wportsLost4 9 .b (wportsLost4.on 9) rfl (by decide +kernel)),
   ran (h.2.2.2.2.1 wportsLost5 9 .b (wportsLost5.on 9) rfl (by decide +kernel)),
   ranTime (h.2.2.2.2.2.1 wportsLost6 9 .b (wportsLost6.on 9) rfl (by decide +kernel)),
   by refine ran (h.2.2.2.2.2.2.1 wportsLost7 9 .b (wportsLost7.on 9) rfl ?_ ?_ ?_) <;> decide +kernel,
   ran (h.2.2.2.2.2.2.2.1 wportsLost8 9 .b true false (wportsLost8.on 9) rfl (by decide +kernel) (.inr (.inl rfl))),
   ranTime (h.2.2.2.2.2.2.2.2.1 wportsLost9 9 .b true true (by decide +kernel)),
   by refine ran (h.2.2.2.2.2.2.2.2.2.1 wportsLost10 9 .b (wportsLost10.on 9) rfl ?_ ?_ ?_ ?_) <;> decide +kernel,
   ranTime (h.2.2.2.2.2.2.2.2.2.2.1 wportsLost11 9 .b (.inl (by decide +kernel))),
   ran (h.2.2.2.2.2.2.2.2.2.2.2 wportsLost12 9 .b (wportsLost12.on 9) rfl (by decide +kernel))⟩

def whostReadsEnd1 : State := st fun d => (one .b 15 { idx := 65535, descs := [dsc 0x20], phase := .waiting, need := [4095] } d).modPort .b fun x => { x with cctReads := [4095] }
def whostReadsEnd2 : State := st fun d => (one .b 15 { idx := 65535, descs := [dsc 0x20], phase := .waiting, need := [4095] } d).modPort .b fun x => { x with cctReads := [4095] }
def whostReadsEnd3 : State := st id
def whostReadsEnd4 : State := st fun d => d.modPort .b fun x => { x with probing := true }
def whostReadsEnd5 : State := st fun d => (pol .b 3 0 0 d).modPort .b fun x => { x with reading := true }
def whostReadsEnd6 : State := st fun d => (pol .b 15 65535 1 d)
def whostReadsEnd7 : State := st fun d => (pol .b 15 65535 10 d).modRing .b 15 fun x => { x with head := slv 3 }
def whostReadsEnd8 : State := st fun d => (one .b 15 { idx := 65535, descs := [dsc 0x20], phase := .waiting, need := [4095] } d).modPort .b fun x => { x with cctReads := [4095] }

theorem test_HostReadsEnd (h : Obligations.HostReadsEnd) :
    Ran (.cctReadComplete 9 .b 4095 (some [1#8, 2#8])) whostReadsEnd1
    ∧ Ran (.cctReadComplete 9 .b 4095 none) whostReadsEnd2
    ∧ Ran (.cctReadComplete 9 .b 4095 none) whostReadsEnd3
    ∧ Ran (.hostReadTimeout 9 .b .probe) whostReadsEnd4
    ∧ Ran (.hostReadTimeout 9 .b .doorbell) whostReadsEnd5
    ∧ Ran (.hostReadTimeout 9 .b (.descriptor 15)) whostReadsEnd6
    ∧ Ran (.hostReadTimeout 9 .b (.descriptor 15)) whostReadsEnd7
    ∧ Ran (.hostReadTimeout 9 .b (.cct 4095)) whostReadsEnd8 :=
  ⟨by refine ran (h.1 whostReadsEnd1 9 15 4095 .b _ [1#8, 2#8] _ (whostReadsEnd1.on 9) rfl ?_ ?_ rfl ?_ rfl ?_ ?_ ?_ ?_) <;> decide +kernel,
   by refine ran (h.2.1 whostReadsEnd2 9 15 4095 .b _ (whostReadsEnd2.on 9) rfl ?_ ?_ ?_ rfl ?_ ?_ ?_ ?_) <;> decide +kernel,
   ranTime (h.2.2.1 whostReadsEnd3 9 4095 .b none (whostReadsEnd3.on 9) rfl (by decide +kernel) (by decide +kernel)),
   ran (h.2.2.2.1 whostReadsEnd4 9 .b (whostReadsEnd4.on 9) rfl),
   ran (h.2.2.2.2.1 whostReadsEnd5 9 .b (whostReadsEnd5.on 9) rfl (by decide +kernel)),
   by refine ran (h.2.2.2.2.2.1 whostReadsEnd6 9 15 1 16 .b (whostReadsEnd6.on 9) rfl ⟨ ?_ , ?_ , ?_ , ?_ , ?_ , ?_ , ?_ ⟩ ?_ ?_ ?_) <;> decide +kernel,
   by refine ran (h.2.2.2.2.2.1 whostReadsEnd7 9 15 4 16 .b (whostReadsEnd7.on 9) rfl ⟨ ?_ , ?_ , ?_ , ?_ , ?_ , ?_ , ?_ ⟩ ?_ ?_ ?_) <;> decide +kernel,
   by refine ran (h.2.2.2.2.2.2 whostReadsEnd8 9 15 4095 .b _ (whostReadsEnd8.on 9) rfl ?_ ?_ ?_ rfl ?_ ?_ ?_ ?_) <;> decide +kernel⟩

def wplainItems1 : State := st fun d => act 0 d
def wplainItems2 : State := st fun d => one .b 15 { idx := 65535, descs := [dsc (0x20 + 1151 * 2 ^ 32 + 2 ^ 48)], phase := .acting, seq := 2, ccts := [(1151, cct (0x101 + 7 * 2 ^ 32))] } d
def wplainItems3 : State := st fun d => one .b 15 { idx := 65535, descs := [dsc (0x20 + 1152 * 2 ^ 32 + 2 ^ 48)], phase := .acting, seq := 2, ccts := [(1152, cct 0x102)] } d
def wplainItems4 : State := st fun d => one .b 15 { idx := 65535, descs := [dsc (0x20 + 1151 * 2 ^ 32 + 2 ^ 48)], phase := .acting, seq := 2, ccts := [(1151, cct 0x102)] } d
def wplainItems5 : State := st fun d => act (0x20 + 4095 * 2 ^ 32 + 2 ^ 48) d
def wplainItems6 : State := st fun d => act (0x21 + 2 * 2 ^ 32 + 5 * 2 ^ 64 + 6 * 2 ^ 96 + 7 * 2 ^ 112 + 64 * 2 ^ 128) d
def wplainItems7 : State := st fun d => act (0x21 + 2 * 2 ^ 32 + 5 * 2 ^ 64 + 6 * 2 ^ 96 + 7 * 2 ^ 112) d
def wplainItems8 : State := st fun d => act (0x21 + 3 * 2 ^ 32 + (2 ^ 32 - 1) * 2 ^ 64 + 6 * 2 ^ 96 + 7 * 2 ^ 112) d
def wplainItems9 : State := st fun d => ((act (0x22 + 3 * 2 ^ 32 + 5 * 2 ^ 64 + 6 * 2 ^ 96 + 7 * 2 ^ 112) d).modHold .b 15 .a fun _ => ⟨9, 9, 9⟩).modHold .b 15 .b fun _ => ⟨3, 9, 2⟩
def wplainItems10 : State := st fun d => act (0x21 + 3 * 2 ^ 32 + 5 * 2 ^ 64 + 6 * 2 ^ 96 + 7 * 2 ^ 112 + 64 * 2 ^ 128) d
def wplainItems11 : State := st fun d => act (0x22 + 3 * 2 ^ 32 + 5 * 2 ^ 64 + 6 * 2 ^ 96 + 7 * 2 ^ 112 + 64 * 2 ^ 128) d

theorem test_PlainItems (h : Obligations.PlainItems) :
    Ran (.nop 9 .b 15) wplainItems1
    ∧ Ran (.cctSync 9 .b 15) wplainItems2
    ∧ Ran (.cctSync 9 .b 15) wplainItems3
    ∧ Ran (.cctSync 9 .b 15) wplainItems4
    ∧ Ran (.cctSync 9 .b 15) wplainItems5
    ∧ Ran (.reserve 9 .b 15 true) wplainItems6
    ∧ Ran (.reserve 9 .b 15 true) wplainItems7
    ∧ Ran (.reserve 9 .b 15 false) wplainItems8
    ∧ Ran (.release 9 .b 15 true) wplainItems9
    ∧ (∃ c, Ran c wplainItems10)
    ∧ (∃ c, Ran c wplainItems11) :=
  ⟨ran (h.1 wplainItems1 9 15 .b _ ((wplainItems1.on 9).landDue) ⟨ (by decide +kernel) , (by decide +kernel) , rfl⟩),
   by refine ran (h.2.1 wplainItems2 9 15 1151 .b _ (cct (0x101 + 7 * 2 ^ 32)) ((wplainItems2.on 9).landDue) ⟨ ?_ , ?_ , rfl⟩ ?_ ?_ ?_ ?_) <;> decide +kernel,
   by refine ran (h.2.1 wplainItems3 9 15 1152 .b _ (cct 0x102) ((wplainItems3.on 9).landDue) ⟨ ?_ , ?_ , rfl⟩ ?_ ?_ ?_ ?_) <;> decide +kernel,
   by refine ran (h.2.2.1 wplainItems4 9 15 1151 _ .b _ (cct 0x102) ((wplainItems4.on 9).landDue) ⟨ ?_ , ?_ , rfl⟩ ?_ ?_ rfl ?_ ?_) <;> decide +kernel,
   by refine ran (h.2.2.2.1 wplainItems5 9 15 4095 .b _ ((wplainItems5.on 9).landDue) ⟨ ?_ , ?_ , rfl⟩ ?_ ?_) <;> decide +kernel,
   by refine ran (h.2.2.2.2.1 wplainItems6 9 15 .b _ true ((wplainItems6.on 9).landDue) ⟨ ?_ , ?_ , rfl⟩ ?_) <;> decide +kernel,
   by refine ran (h.2.2.2.2.1 wplainItems7 9 15 .b _ true ((wplainItems7.on 9).landDue) ⟨ ?_ , ?_ , rfl⟩ ?_) <;> decide +kernel,
   by refine ran (h.2.2.2.2.1 wplainItems8 9 15 .b _ false ((wplainItems8.on 9).landDue) ⟨ ?_ , ?_ , rfl⟩ ?_) <;> decide +kernel,
   by refine ran (h.2.2.2.2.2.1 wplainItems9 9 15 .b _ true ((wplainItems9.on 9).landDue) ⟨ ?_ , ?_ , rfl⟩ ?_ (by intro q; cases q <;> decide +kernel)) <;> decide +kernel,
   ⟨_, ran (h.2.2.2.2.2.2 wplainItems10 9 15 0x21 .b _ _ ((wplainItems10.on 9).landDue) ⟨ (by decide +kernel) , (by decide +kernel) , rfl⟩ (by decide +kernel) (by decide +kernel) (.inl ⟨rfl, rfl⟩))⟩,
   ⟨_, ran (h.2.2.2.2.2.2 wplainItems11 9 15 0x22 .b _ _ ((wplainItems11.on 9).landDue) ⟨ (by decide +kernel) , (by decide +kernel) , rfl⟩ (by decide +kernel) (by decide +kernel) (.inr ⟨rfl, rfl⟩))⟩⟩

def wtimeItems1 : State := st fun d => onTim (fun x => { x with jumpOpen := false }) (act (0x30 + 5 * 2 ^ 32 + 7 * 2 ^ 96) d)
def wtimeItems2 : State := st fun d => onTim (fun x => { x with jumpOpen := true }) (act (0x30 + 5 * 2 ^ 32 + 7 * 2 ^ 96) d)
def wtimeItems3 : State := st fun d => (act (0x130 + 5 * 2 ^ 32 + 0xFFFFFFFF * 2 ^ 96 + 9 * 2 ^ 128) d).put F.TB_REFV_CFG_enable true
def wtimeItems4 : State := st fun d => ((act (0x130 + 5 * 2 ^ 32 + 0xFFFFFFFF * 2 ^ 96 + 9 * 2 ^ 128) d).put F.TB_REFV_CFG_enable true |>.wr F.TB_STATUS_sel 4).setTbState .a 2
def wtimeItems5 : State := st fun d => ((act (0x130 + 5 * 2 ^ 32 + 0xFFFFFFFF * 2 ^ 96 + 9 * 2 ^ 128) d).put F.TB_REFV_CFG_enable true |>.wr F.TB_STATUS_lost 16)
def wtimeItems6 : State := st fun d => act 0x130 d
def wtimeItems7 : State := st fun d => one .a 15 { idx := 4, descs := [dsc 0x31], phase := .acting, seq := 1 } (act (0x60 + 0x8001 * 2 ^ 48) d)
def wtimeItems8 : State := st fun d => ((one .a 15 { idx := 4, descs := [slv 0], phase := .secured, seq := 1 } (act (0x60 + 0x8001 * 2 ^ 48) d)).modRing .a 15 fun x => { x with hold := ⟨⟨1, 2, 3⟩, ⟨4, 5, 6⟩⟩ }).put F.HIF_SVR_CFG_enable true 3
def wtimeItems9 : State := st fun d => act (0x60 + 0x8001 * 2 ^ 48) d
def wtimeItems10 : State := st fun d => ((act (0x130 + 2 * 2 ^ 32 + 0xFFFFFFFF * 2 ^ 96 + 9 * 2 ^ 128) d).put F.TB_REFV_CFG_enable true).modTb .a fun x => { x with epoch := 2 * secU + 1500 * msU + 1 }

theorem test_TimeItems (h : Obligations.TimeItems) :
    Ran (.timeSet 9 .b 15) wtimeItems1
    ∧ Ran (.timeSet 9 .b 15) wtimeItems2
    ∧ Ran (.timeAdj 9 .b 15) wtimeItems3
    ∧ Ran (.timeAdj 9 .b 15) wtimeItems4
    ∧ Ran (.timeAdj 9 .b 15) wtimeItems5
    ∧ Ran (.timeAdj 9 .b 15) wtimeItems6
    ∧ Ran (.takeover 9 .b 15) wtimeItems7
    ∧ Ran (.takeover 9 .b 15) wtimeItems8
    ∧ Ran (.takeover 9 .b 15) wtimeItems9
    ∧ Ran (.timeAdj 9 .b 15) wtimeItems10 :=
  ⟨by refine ran (h.1 wtimeItems1 9 15 .b _ ((wtimeItems1.on 9).landDue) ⟨ ?_ , ?_ , rfl⟩ ?_ ?_) <;> decide +kernel,
   by refine ran (h.2.1 wtimeItems2 9 15 .b _ ((wtimeItems2.on 9).landDue) ⟨ ?_ , ?_ , rfl⟩ ?_ ?_) <;> decide +kernel,
   by refine ran (h.2.2.1 wtimeItems3 9 15 .b _ ((wtimeItems3.on 9).landDue) ⟨ ?_ , ?_ , rfl⟩ ?_ ?_ ?_ ?_) <;> decide +kernel,
   by refine ran (h.2.2.1 wtimeItems4 9 15 .b _ ((wtimeItems4.on 9).landDue) ⟨ ?_ , ?_ , rfl⟩ ?_ ?_ ?_ ?_) <;> decide +kernel,
   by refine ran (h.2.2.2.1 wtimeItems5 9 15 .b _ ((wtimeItems5.on 9).landDue) ⟨ ?_ , ?_ , rfl⟩ ?_ ?_ ?_ ?_) <;> decide +kernel,
   by refine ran (h.2.2.2.2.1 wtimeItems6 9 15 .b _ ((wtimeItems6.on 9).landDue) ⟨ ?_ , ?_ , rfl⟩ ?_ ?_) <;> decide +kernel,
   by refine ran (h.2.2.2.2.2.1 wtimeItems7 9 15 .b _ ((wtimeItems7.on 9).landDue) ⟨ ?_ , ?_ , rfl⟩ ?_ ?_ ⟨15, by decide +kernel, by decide +kernel, by decide +kernel⟩) <;> decide +kernel,
   by refine ran (h.2.2.2.2.2.1 wtimeItems8 9 15 .b (actIt (0x60 + 0x8001 * 2 ^ 48)) ((wtimeItems8.on 9).landDue) ⟨ ?_ , ?_ , ?_ ⟩ ?_ ?_ ⟨15, by decide +kernel, by decide +kernel, by decide +kernel⟩) <;> decide +kernel,
   by refine ran (h.2.2.2.2.2.2.1 wtimeItems9 9 15 .b _ ((wtimeItems9.on 9).landDue) ⟨ ?_ , ?_ , rfl⟩ ?_ ?_) <;> decide +kernel,
   by refine ran (h.2.2.2.2.2.2.2 wtimeItems10 9 15 .b _ ((wtimeItems10.on 9).landDue) ⟨ ?_ , ?_ , rfl⟩ ?_ ?_ ?_) <;> decide +kernel⟩

def wtransferItems1 : State := stm { hamper := ⟨[(4095 * 2 ^ 36 + 16, 1#8), (4095 * 2 ^ 36 + 18, 7#8), (4095 * 2 ^ 36 + 19, 7#8)], []⟩ } fun d => ((act (0x31 + 3 * 2 ^ 32 + 4095 * 2 ^ 48 + 16 * 2 ^ 64 + 3 * 2 ^ 96) d).modOwner .a 4095 fun o => { o with isOpen := true, owned := 2 }).modOwner .b 4095 fun o => { o with isOpen := true, owned := 1 }
def wtransferItems2 : State := stm { hamper := ⟨[(4095 * 2 ^ 36 + 16, 1#8), (4095 * 2 ^ 36 + 90000, 7#8)], [(9, 4#8)]⟩ } fun d => (one .b 15 { idx := 65535, descs := [dsc (0x31 + 2 * 2 ^ 32 + 4095 * 2 ^ 48 + 16 * 2 ^ 64 + 16 * 2 ^ 96)], phase := .acting, seq := 2, ccts := [(4095, cct (0x104 + 2 * 2 ^ 32))] } d).setPool .b ⟨5, 5, 5⟩
def wtransferItems3 : State := st fun d => ((act (0x31 + 2 * 2 ^ 32 + 4095 * 2 ^ 48) d).wr F.PL_STATUS_state 1 1)
def wtransferItems4 : State := stm { hamper := ⟨[(4095 * 2 ^ 36 + 16, 1#8)], []⟩ } fun d => (act (0x32 + 1 * 2 ^ 32 + 4095 * 2 ^ 48 + 16 * 2 ^ 64 + 16 * 2 ^ 96) d).modOwner .a 4095 fun o => { o with isOpen := true, owned := 2 }
def wtransferItems5 : State := st fun d => one .b 15 { idx := 65535, descs := [dsc 0x32], phase := .acting, cur := 1 } d
def wtransferItems6 : State := st fun d => (one .b 15 { idx := 65535, descs := [dsc (0x31 + 7 * 2 ^ 32 + 4095 * 2 ^ 48)], phase := .acting, cur := 1 } d).modOwner .b 4095 fun o => { o with stale := true }
def wtransferItems7 : State := st fun d => one .b 15 { idx := 65535, descs := [dsc 0x32], phase := .acting, cur := 1 } d
def wtransferItems8 : State := st fun d => one .b 15 { idx := 65535, descs := [dsc (0x31 + 7 * 2 ^ 32 + 4095 * 2 ^ 48)], phase := .acting, cur := 1 } d
def wtransferItems9 : State := st fun d => act (0x40 + 0x300001 * 2 ^ 32 + 4 * 2 ^ 96) d
def wtransferItems10 : State := st fun d => { (act (0x40 + 0x300001 * 2 ^ 32 + 4 * 2 ^ 96) d) with ldr := { page := some 3, queue := [{ what := 1 }] } }
def wtransferItems11 : State := stm { larder := [(0x300001, 3#8)] } fun d => act (0x41 + 0x300001 * 2 ^ 32 + 4 * 2 ^ 96) d
def wtransferItems12 : State := st fun d => { (act (0x41 + 0x300001 * 2 ^ 32 + 4 * 2 ^ 96) d) with ldr := { page := some 0x3000 } }
def wtransferItems13 : State := st fun d => act (0x40 + 0x300001 * 2 ^ 32 + 4 * 2 ^ 96) d
def wtransferItems14 : State := st fun d => act (0x41 + 0x300001 * 2 ^ 32 + 4 * 2 ^ 96) d

theorem test_TransferItems (h : Obligations.TransferItems) :
    Ran (.hamperWrite 9 .b 15 [0#8, 5#8, 0#8]) wtransferItems1
    ∧ Ran (.hamperWrite 9 .b 15 [1#8, 5#8, 0#8]) wtransferItems2
    ∧ Ran (.hamperWrite 9 .b 15 []) wtransferItems3
    ∧ Ran (.hamperRead 9 .b 15) wtransferItems4
    ∧ Ran (.hamperTransferDone 9 .b 15 true) wtransferItems5
    ∧ Ran (.hamperTransferDone 9 .b 15 true) wtransferItems6
    ∧ Ran (.hamperTransferDone 9 .b 15 false) wtransferItems7
    ∧ Ran (.hamperTransferDone 9 .b 15 false) wtransferItems8
    ∧ Ran (.nvmWrite 9 .b 15 [5#8] true) wtransferItems9
    ∧ Ran (.nvmWrite 9 .b 15 [5#8] true) wtransferItems10
    ∧ Ran (.nvmRead 9 .b 15 true) wtransferItems11
    ∧ Ran (.nvmRead 9 .b 15 true) wtransferItems12
    ∧ (∃ c, Ran c wtransferItems13)
    ∧ (∃ c, Ran c wtransferItems14) :=
  ⟨by refine ranMem (h.1 wtransferItems1 9 15 .b [0#8, 5#8, 0#8] (actIt (0x31 + 3 * 2 ^ 32 + 4095 * 2 ^ 48 + 16 * 2 ^ 64 + 3 * 2 ^ 96)) ((wtransferItems1.on 9).landDue) (4095 * 2 ^ 36 + 16) [0#8, 5#8, 0#8] [.a, .b] ⟨ ?_ , ?_ , ?_ ⟩ ?_ ?_ ?_ ?_ ?_ ?_) <;> decide +kernel,
   by refine ranMem (h.2.1 wtransferItems2 9 15 (4095 * 2 ^ 36) .b .b [1#8, 5#8, 0#8] (cct (0x104 + 2 * 2 ^ 32)) [1#8, 5#8, 0#8] ({ idx := 65535, descs := [dsc (0x31 + 2 * 2 ^ 32 + 4095 * 2 ^ 48 + 16 * 2 ^ 64 + 16 * 2 ^ 96)], phase := .acting, seq := 2, ccts := [(4095, cct (0x104 + 2 * 2 ^ 32))] }) ((wtransferItems2.on 9).landDue) ⟨ ?_ , ?_ , ?_ ⟩ ?_ ?_ ?_ ?_ ?_ ?_ ?_ ?_ ?_) <;> decide +kernel,
   by refine ran (h.2.2.1 wtransferItems3 9 15 .b [] _ ((wtransferItems3.on 9).landDue) ⟨ ?_ , ?_ , rfl⟩ ?_ ?_ ?_) <;> decide +kernel,
   by refine ran (h.2.2.2.1 wtransferItems4 9 15 .b .a _ ((wtransferItems4.on 9).landDue) ⟨ ?_ , ?_ , rfl⟩ ?_ ?_) <;> decide +kernel,
   by refine ran (h.2.2.2.2.1 wtransferItems5 9 15 .b _ ((wtransferItems5.on 9).landDue) rfl ?_ rfl ?_ ?_ ?_) <;> decide +kernel,
   by refine ran (h.2.2.2.2.2.1 wtransferItems6 9 15 .b _ ((wtransferItems6.on 9).landDue) rfl ?_ rfl ?_ ?_ ?_) <;> decide +kernel,
   by refine ran (h.2.2.2.2.2.2.1 wtransferItems7 9 15 0x32 .b _ ((wtransferItems7.on 9).landDue) rfl ?_ rfl ?_ (.inr rfl) ?_ ?_ ?_) <;> decide +kernel,
   by refine ran (h.2.2.2.2.2.2.1 wtransferItems8 9 15 0x31 .b _ ((wtransferItems8.on 9).landDue) rfl ?_ rfl ?_ (.inl rfl) ?_ ?_ ?_) <;> decide +kernel,
   by refine ran (h.2.2.2.2.2.2.2.1 wtransferItems9 9 15 .b [5#8] _ ((wtransferItems9.on 9).landDue) ⟨ ?_ , ?_ , rfl⟩ ?_ ?_) <;> decide +kernel,
   by refine ran (h.2.2.2.2.2.2.2.1 wtransferItems10 9 15 .b [5#8] _ ((wtransferItems10.on 9).landDue) ⟨ ?_ , ?_ , rfl⟩ ?_ ?_) <;> decide +kernel,
   by refine ran (h.2.2.2.2.2.2.2.2.1 wtransferItems11 9 15 .b _ ((wtransferItems11.on 9).landDue) ⟨ ?_ , ?_ , rfl⟩ ?_) <;> decide +kernel,
   by refine ran (h.2.2.2.2.2.2.2.2.2.1 wtransferItems12 9 15 .b true _ ((wtransferItems12.on 9).landDue) ⟨ ?_ , ?_ , rfl⟩ ?_ ?_) <;> decide +kernel,
   ⟨_, ran (h.2.2.2.2.2.2.2.2.2.2 wtransferItems13 9 15 .b [5#8] _ _ 0x40 ((wtransferItems13.on 9).landDue) ⟨ (by decide +kernel) , (by decide +kernel) , rfl⟩ (by decide +kernel) (.inl ⟨rfl, rfl, by decide +kernel, by decide +kernel⟩))⟩,
   ⟨_, ran (h.2.2.2.2.2.2.2.2.2.2 wtransferItems14 9 15 .b [] _ _ 0x41 ((wtransferItems14.on 9).landDue) ⟨ (by decide +kernel) , (by decide +kernel) , rfl⟩ (by decide +kernel) (.inr ⟨rfl, rfl, by decide +kernel⟩))⟩⟩

def wkeyItemsAndKeystore1 : State := st fun d => kst 1 1 (act (0x51 + 7 * 2 ^ 32) d)
def wkeyItemsAndKeystore2 : State := st fun d => kst 1 1 (act (0x50) d)
def wkeyItemsAndKeystore3 : State := st fun d => kst 1 1 (act (0x53 + 127 * 2 ^ 32) d)
def wkeyItemsAndKeystore4 : State := st fun d => (kst 1 1 (act 0x54 d)).put F.KEY_CTRL_quote_en true
def wkeyItemsAndKeystore5 : State := st fun d => kst 1 1 (act (0x58 + 127 * 2 ^ 32) d)
def wkeyItemsAndKeystore6 : State := st fun d => kst 1 2 (act (0x59 + 127 * 2 ^ 32 + 3 * 2 ^ 48) d)
def wkeyItemsAndKeystore7 : State := st fun d => ((kst 0 1 (act (0x52 + 127 * 2 ^ 32) d)).put F.KEY_CTRL_gen_en true |>.put F.KEY_STATUS_drbg_ok true)
def wkeyItemsAndKeystore8 : State := st fun d => ((kst 0 1 (act (0x52 + 127 * 2 ^ 32 + 2 * 2 ^ 48) d)).put F.KEY_CTRL_gen_en true |>.put F.KEY_STATUS_drbg_ok true)
def wkeyItemsAndKeystore9 : State := st fun d => kst 1 1 (act (0x55 + 127 * 2 ^ 32) d)
def wkeyItemsAndKeystore10 : State := st fun d => kst 1 1 (act (0x56 + 127 * 2 ^ 32) d)
def wkeyItemsAndKeystore11 : State := st fun d => (kst 1 1 (act (0x52 + 127 * 2 ^ 32) d)).put F.KEY_CTRL_gen_en true
def wkeyItemsAndKeystore12 : State := st fun d => (kst 1 1 (act (0x52 + 127 * 2 ^ 32) d)).put F.KEY_CTRL_gen_en false
def wkeyItemsAndKeystore13 : State := st fun d => ((kst 0 1 (act (0x52 + 127 * 2 ^ 32) d)).put F.KEY_CTRL_gen_en true).put F.KEY_STATUS_drbg_ok false
def wkeyItemsAndKeystore14 : State := st fun d => kst 0 1 (act (0x53 + 127 * 2 ^ 32) d)
def wkeyItemsAndKeystore15 : State := st fun d => (kst 0 1 (act (0x54) d)).put F.KEY_CTRL_quote_en false
def wkeyItemsAndKeystore16 : State := st fun d => kst 2 1 (act (0x55 + 127 * 2 ^ 32) d)
def wkeyItemsAndKeystore17 : State := st fun d => kst 1 1 (act (0x55 + 127 * 2 ^ 32) d)
def wkeyItemsAndKeystore18 : State := st fun d => kst 0 1 (act (0x56 + 127 * 2 ^ 32) d)
def wkeyItemsAndKeystore19 : State := st fun d => (kst 0 1 (act (0x57 + 127 * 2 ^ 32) d)).put F.KEY_STATUS_drbg_ok false
def wkeyItemsAndKeystore20 : State := st fun d => kst 2 1 (act (0x58 + 127 * 2 ^ 32) d)
def wkeyItemsAndKeystore21 : State := st fun d => kst 1 2 (act (0x58 + 127 * 2 ^ 32) d)
def wkeyItemsAndKeystore22 : State := st fun d => kst 2 2 (act (0x59 + 127 * 2 ^ 32) d)
def wkeyItemsAndKeystore23 : State := st fun d => kst 1 1 (act (0x59 + 127 * 2 ^ 32 + 3 * 2 ^ 48) d)
def wkeyItemsAndKeystore24 : State := st fun d => let d := ((kst 0 1 (act (0x52 + 127 * 2 ^ 32) d)).put F.KEY_CTRL_gen_en true).put F.KEY_STATUS_drbg_ok true; { d with key := { d.key with slots := [(127, { state := 0, copy := some 0, seq := 1, body := keyBody 127 1 1 0 1 12 0 0 [] [] [] })] } }
def wkeyItemsAndKeystore25 : State := st fun d => let d := kst 1 1 (act (0x55 + 127 * 2 ^ 32) d); { d with key := { d.key with slots := [(127, { state := 1, copy := some 0, seq := 1, body := keyBody 127 1 1 0 1 12 0 0 [] [] [] })] } }
def wkeyItemsAndKeystore26 : State := st fun d => let d := kst 1 1 (act (0x56 + 127 * 2 ^ 32) d); { d with key := { d.key with slots := [(127, { state := 1, copy := some 0, seq := 1, body := keyBody 127 1 1 0 1 12 0 0 [] [] [] })] } }
def wkeyItemsAndKeystore27 : State := st fun d => kst 1 1 (act (0x50) d)
def wkeyItemsAndKeystore28 : State := st fun d => kst 1 1 (act (0x51 + 7 * 2 ^ 32) d)
def wkeyItemsAndKeystore29 : State := st fun d => kst 1 1 (act (0x53 + 127 * 2 ^ 32) d)
def wkeyItemsAndKeystore30 : State := st fun d => (kst 1 1 (act (0x54) d)).put F.KEY_CTRL_quote_en true
def wkeyItemsAndKeystore31 : State := st fun d => kst 1 1 (act (0x55 + 127 * 2 ^ 32) d)
def wkeyItemsAndKeystore32 : State := st fun d => (kst 1 1 (act (0x57 + 127 * 2 ^ 32) d)).put F.KEY_STATUS_drbg_ok true
def wkeyItemsAndKeystore33 : State := st fun d => kst 1 1 (act (0x58 + 127 * 2 ^ 32) d)
def wkeyItemsAndKeystore34 : State := st fun d => kst 1 2 (act (0x59 + 127 * 2 ^ 32 + 3 * 2 ^ 48) d)
def wkeyItemsAndKeystore35 : State := st fun d => (kst 1 1 (act (0x57 + 7 * 2 ^ 32) d)).put F.KEY_STATUS_drbg_ok true
def wkeyItemsAndKeystore36 : State := st fun d => (kst 1 1 (act (0x57 + 7 * 2 ^ 32) d)).put F.KEY_STATUS_drbg_ok true
def wkeyItemsAndKeystore37 : State := stm { larder := (span 0 3).map fun i => (0x158000 + i, 0#8) } fun d => d.wr F.GLB_START_phase 1
def wkeyItemsAndKeystore38 : State := st fun d => d.wr F.GLB_START_phase 0
def wkeyItemsAndKeystore39 : State := st fun d => { d with key := { d.key with unwrapped := true } }
def wkeyItemsAndKeystore40 : State := st id

theorem test_KeyItemsAndKeystore (h : Obligations.KeyItemsAndKeystore) :
    Ran (.keyExtend 9 .b 15 [1#8] true) wkeyItemsAndKeystore1
    ∧ Ran (.keyInfo 9 .b 15 true) wkeyItemsAndKeystore2
    ∧ Ran (.keyProvenance 9 .b 15 true) wkeyItemsAndKeystore3
    ∧ Ran (.keyQuote 9 .b 15 true) wkeyItemsAndKeystore4
    ∧ Ran (.keySign 9 .b 15 [1#8] true) wkeyItemsAndKeystore5
    ∧ Ran (.keyMac 9 .b 15 [1#8] true) wkeyItemsAndKeystore6
    ∧ Ran (.keyGenerate 9 .b 15 true) wkeyItemsAndKeystore7
    ∧ Ran (.keyGenerate 9 .b 15 false) wkeyItemsAndKeystore8
    ∧ Ran (.keyReseal 9 .b 15 (zeros 48) true) wkeyItemsAndKeystore9
    ∧ Ran (.keyDelete 9 .b 15) wkeyItemsAndKeystore10
    ∧ (∃ c, Ran c wkeyItemsAndKeystore11)
    ∧ (∃ c, Ran c wkeyItemsAndKeystore12)
    ∧ (∃ c, Ran c wkeyItemsAndKeystore13)
    ∧ (∃ c, Ran c wkeyItemsAndKeystore14)
    ∧ (∃ c, Ran c wkeyItemsAndKeystore15)
    ∧ (∃ c, Ran c wkeyItemsAndKeystore16)
    ∧ (∃ c, Ran c wkeyItemsAndKeystore17)
    ∧ (∃ c, Ran c wkeyItemsAndKeystore18)
    ∧ (∃ c, Ran c wkeyItemsAndKeystore19)
    ∧ (∃ c, Ran c wkeyItemsAndKeystore20)
    ∧ (∃ c, Ran c wkeyItemsAndKeystore21)
    ∧ (∃ c, Ran c wkeyItemsAndKeystore22)
    ∧ (∃ c, Ran c wkeyItemsAndKeystore23)
    ∧ (∃ c, Ran c wkeyItemsAndKeystore24)
    ∧ (∃ c, Ran c wkeyItemsAndKeystore25)
    ∧ (∃ c, Ran c wkeyItemsAndKeystore26)
    ∧ (∃ c, Ran c wkeyItemsAndKeystore27)
    ∧ (∃ c, Ran c wkeyItemsAndKeystore28)
    ∧ (∃ c, Ran c wkeyItemsAndKeystore29)
    ∧ (∃ c, Ran c wkeyItemsAndKeystore30)
    ∧ (∃ c, Ran c wkeyItemsAndKeystore31)
    ∧ (∃ c, Ran c wkeyItemsAndKeystore32)
    ∧ (∃ c, Ran c wkeyItemsAndKeystore33)
    ∧ (∃ c, Ran c wkeyItemsAndKeystore34)
    ∧ Ran (.keyRingAgree 9 .b 15 (p384Public [1#8]) true) wkeyItemsAndKeystore35
    ∧ Ran (.keyRingAgree 9 .b 15 [1#8] true) wkeyItemsAndKeystore36
    ∧ Ran (.keySlotUnwrap 9) wkeyItemsAndKeystore37
    ∧ Ran (.keySlotUnwrap 9) wkeyItemsAndKeystore38
    ∧ Ran (.keySlotUnwrap 9) wkeyItemsAndKeystore39
    ∧ Ran (.entropyFail 9) wkeyItemsAndKeystore40 :=
  ⟨by refine ran (h.1 wkeyItemsAndKeystore1 9 15 .b _ [1#8] ((wkeyItemsAndKeystore1.on 9).landDue) ⟨⟨ ?_ , ?_ , rfl⟩, ?_ , ?_ ⟩ ?_) <;> decide +kernel,
   by refine ran (h.2.1 wkeyItemsAndKeystore2 9 15 .b _ ((wkeyItemsAndKeystore2.on 9).landDue) ⟨⟨ ?_ , ?_ , rfl⟩, ?_ , ?_ ⟩) <;> decide +kernel,
   by refine ran (h.2.2.1 wkeyItemsAndKeystore3 9 15 .b _ ((wkeyItemsAndKeystore3.on 9).landDue) ⟨⟨ ?_ , ?_ , rfl⟩, ?_ , ?_ ⟩ ?_) <;> decide +kernel,
   by refine ran (h.2.2.2.1 wkeyItemsAndKeystore4 9 15 .b _ _ ((wkeyItemsAndKeystore4.on 9).landDue) ⟨⟨ ?_ , ?_ , rfl⟩, ?_ , ?_ ⟩ ?_ rfl) <;> decide +kernel,
   by refine ran (h.2.2.2.2.1 wkeyItemsAndKeystore5 9 15 .b _ [1#8] ((wkeyItemsAndKeystore5.on 9).landDue) ⟨⟨ ?_ , ?_ , rfl⟩, ?_ , ?_ ⟩ ?_ ?_) <;> decide +kernel,
   by refine ran (h.2.2.2.2.2.1 wkeyItemsAndKeystore6 9 15 .b _ [1#8] ((wkeyItemsAndKeystore6.on 9).landDue) ⟨⟨ ?_ , ?_ , rfl⟩, ?_ , ?_ ⟩ ?_ ?_) <;> decide +kernel,
   by refine ran (h.2.2.2.2.2.2.1 wkeyItemsAndKeystore7 9 15 127 0 2 .b _ true _ _ ((wkeyItemsAndKeystore7.on 9).landDue) ⟨⟨ ?_ , ?_ , rfl⟩, ?_ , ?_ ⟩ ?_ ?_ ?_ ?_ ?_ rfl rfl) <;> decide +kernel,
   by refine ran (h.2.2.2.2.2.2.1 wkeyItemsAndKeystore8 9 15 127 0 2 .b _ false _ _ ((wkeyItemsAndKeystore8.on 9).landDue) ⟨⟨ ?_ , ?_ , rfl⟩, ?_ , ?_ ⟩ ?_ ?_ ?_ ?_ ?_ rfl rfl) <;> decide +kernel,
   by refine ran (h.2.2.2.2.2.2.2.1 wkeyItemsAndKeystore9 9 15 127 0 2 .b _ (zeros 48) ((wkeyItemsAndKeystore9.on 9).landDue) ⟨⟨ ?_ , ?_ , rfl⟩, ?_ , ?_ ⟩ ?_ ?_ ?_ ?_ ?_) <;> decide +kernel,
   by refine ran (h.2.2.2.2.2.2.2.2.1 wkeyItemsAndKeystore10 9 15 127 0 2 .b _ ((wkeyItemsAndKeystore10.on 9).landDue) ⟨⟨ ?_ , ?_ , rfl⟩, ?_ , ?_ ⟩ ?_ ?_ ?_) <;> decide +kernel,
   ⟨_, ran (h.2.2.2.2.2.2.2.2.2.1 wkeyItemsAndKeystore11 9 15 0x52 _ _ .b _ true _ [] ((wkeyItemsAndKeystore11.on 9).landDue) ⟨⟨ (by decide +kernel) , (by decide +kernel) , rfl⟩, (by decide +kernel) , (by decide +kernel) ⟩ rfl (.inl ⟨rfl, rfl, by decide +kernel, by decide +kernel, rfl⟩))⟩,
   ⟨_, ran (h.2.2.2.2.2.2.2.2.2.1 wkeyItemsAndKeystore12 9 15 0x52 _ _ .b _ true _ [] ((wkeyItemsAndKeystore12.on 9).landDue) ⟨⟨ (by decide +kernel) , (by decide +kernel) , rfl⟩, (by decide +kernel) , (by decide +kernel) ⟩ rfl (.inr (.inl ⟨rfl, rfl, by decide +kernel, rfl⟩)))⟩,
   ⟨_, ran (h.2.2.2.2.2.2.2.2.2.1 wkeyItemsAndKeystore13 9 15 0x52 _ _ .b _ true _ [] ((wkeyItemsAndKeystore13.on 9).landDue) ⟨⟨ (by decide +kernel) , (by decide +kernel) , rfl⟩, (by decide +kernel) , (by decide +kernel) ⟩ rfl (.inr (.inr (.inl ⟨rfl, rfl, by decide +kernel, by decide +kernel, by decide +kernel, rfl⟩))))⟩,
   ⟨_, ran (h.2.2.2.2.2.2.2.2.2.1 wkeyItemsAndKeystore14 9 15 0x53 _ _ .b _ true _ [] ((wkeyItemsAndKeystore14.on 9).landDue) ⟨⟨ (by decide +kernel) , (by decide +kernel) , rfl⟩, (by decide +kernel) , (by decide +kernel) ⟩ rfl (.inr (.inr (.inr (.inl ⟨rfl, rfl, by decide +kernel, rfl⟩)))))⟩,
   ⟨_, ran (h.2.2.2.2.2.2.2.2.2.1 wkeyItemsAndKeystore15 9 15 0x54 _ _ .b _ true _ [] ((wkeyItemsAndKeystore15.on 9).landDue) ⟨⟨ (by decide +kernel) , (by decide +kernel) , rfl⟩, (by decide +kernel) , (by decide +kernel) ⟩ rfl (.inr (.inr (.inr (.inr (.inl ⟨rfl, rfl, by decide +kernel, rfl⟩))))))⟩,
   ⟨_, ran (h.2.2.2.2.2.2.2.2.2.1 wkeyItemsAndKeystore16 9 15 0x55 _ _ .b _ true _ [] ((wkeyItemsAndKeystore16.on 9).landDue) ⟨⟨ (by decide +kernel) , (by decide +kernel) , rfl⟩, (by decide +kernel) , (by decide +kernel) ⟩ rfl (.inr (.inr (.inr (.inr (.inr (.inl ⟨rfl, rfl, by decide +kernel, rfl⟩)))))))⟩,
   ⟨_, ran (h.2.2.2.2.2.2.2.2.2.1 wkeyItemsAndKeystore17 9 15 0x55 _ _ .b _ true _ [1#8] ((wkeyItemsAndKeystore17.on 9).landDue) ⟨⟨ (by decide +kernel) , (by decide +kernel) , rfl⟩, (by decide +kernel) , (by decide +kernel) ⟩ rfl (.inr (.inr (.inr (.inr (.inr (.inr (.inl ⟨rfl, rfl, by decide +kernel, by decide +kernel, by decide +kernel, rfl⟩))))))))⟩,
   ⟨_, ran (h.2.2.2.2.2.2.2.2.2.1 wkeyItemsAndKeystore18 9 15 0x56 _ _ .b _ true _ [] ((wkeyItemsAndKeystore18.on 9).landDue) ⟨⟨ (by decide +kernel) , (by decide +kernel) , rfl⟩, (by decide +kernel) , (by decide +kernel) ⟩ rfl (.inr (.inr (.inr (.inr (.inr (.inr (.inr (.inl ⟨rfl, rfl, by decide +kernel, rfl⟩)))))))))⟩,
   ⟨_, ran (h.2.2.2.2.2.2.2.2.2.1 wkeyItemsAndKeystore19 9 15 0x57 _ _ .b _ true _ [] ((wkeyItemsAndKeystore19.on 9).landDue) ⟨⟨ (by decide +kernel) , (by decide +kernel) , rfl⟩, (by decide +kernel) , (by decide +kernel) ⟩ rfl (.inr (.inr (.inr (.inr (.inr (.inr (.inr (.inr (.inl ⟨rfl, rfl, by decide +kernel, rfl⟩))))))))))⟩,
   ⟨_, ran (h.2.2.2.2.2.2.2.2.2.1 wkeyItemsAndKeystore20 9 15 0x58 _ _ .b _ true _ [] ((wkeyItemsAndKeystore20.on 9).landDue) ⟨⟨ (by decide +kernel) , (by decide +kernel) , rfl⟩, (by decide +kernel) , (by decide +kernel) ⟩ rfl (.inr (.inr (.inr (.inr (.inr (.inr (.inr (.inr (.inr (.inl ⟨rfl, rfl, by decide +kernel, rfl⟩)))))))))))⟩,
   ⟨_, ran (h.2.2.2.2.2.2.2.2.2.1 wkeyItemsAndKeystore21 9 15 0x58 _ _ .b _ true _ [] ((wkeyItemsAndKeystore21.on 9).landDue) ⟨⟨ (by decide +kernel) , (by decide +kernel) , rfl⟩, (by decide +kernel) , (by decide +kernel) ⟩ rfl (.inr (.inr (.inr (.inr (.inr (.inr (.inr (.inr (.inr (.inr (.inl ⟨rfl, rfl, by decide +kernel, by decide +kernel, rfl⟩))))))))))))⟩,
   ⟨_, ran (h.2.2.2.2.2.2.2.2.2.1 wkeyItemsAndKeystore22 9 15 0x59 _ _ .b _ true _ [] ((wkeyItemsAndKeystore22.on 9).landDue) ⟨⟨ (by decide +kernel) , (by decide +kernel) , rfl⟩, (by decide +kernel) , (by decide +kernel) ⟩ rfl (.inr (.inr (.inr (.inr (.inr (.inr (.inr (.inr (.inr (.inr (.inr (.inl ⟨rfl, rfl, by decide +kernel, rfl⟩)))))))))))))⟩,
   ⟨_, ran (h.2.2.2.2.2.2.2.2.2.1 wkeyItemsAndKeystore23 9 15 0x59 _ _ .b _ true _ [] ((wkeyItemsAndKeystore23.on 9).landDue) ⟨⟨ (by decide +kernel) , (by decide +kernel) , rfl⟩, (by decide +kernel) , (by decide +kernel) ⟩ rfl (.inr (.inr (.inr (.inr (.inr (.inr (.inr (.inr (.inr (.inr (.inr (.inr (⟨rfl, rfl, by decide +kernel, by decide +kernel, rfl⟩))))))))))))))⟩,
   ⟨_, ran (h.2.2.2.2.2.2.2.2.2.2.1 wkeyItemsAndKeystore24 9 15 0x52 127 .b _ _ [] ((wkeyItemsAndKeystore24.on 9).landDue) ⟨⟨ (by decide +kernel) , (by decide +kernel) , rfl⟩, (by decide +kernel) , (by decide +kernel) ⟩ (by decide +kernel) (by decide +kernel) (.inl ⟨rfl, rfl, by decide +kernel, by decide +kernel, by decide +kernel⟩))⟩,
   ⟨_, ran (h.2.2.2.2.2.2.2.2.2.2.1 wkeyItemsAndKeystore25 9 15 0x55 127 .b _ _ [] ((wkeyItemsAndKeystore25.on 9).landDue) ⟨⟨ (by decide +kernel) , (by decide +kernel) , rfl⟩, (by decide +kernel) , (by decide +kernel) ⟩ (by decide +kernel) (by decide +kernel) (.inr (.inl ⟨rfl, rfl, by decide +kernel, by decide +kernel, by decide +kernel⟩)))⟩,
   ⟨_, ran (h.2.2.2.2.2.2.2.2.2.2.1 wkeyItemsAndKeystore26 9 15 0x56 127 .b _ _ [] ((wkeyItemsAndKeystore26.on 9).landDue) ⟨⟨ (by decide +kernel) , (by decide +kernel) , rfl⟩, (by decide +kernel) , (by decide +kernel) ⟩ (by decide +kernel) (by decide +kernel) (.inr (.inr ⟨rfl, rfl, by decide +kernel⟩)))⟩,
   ⟨_, ran (h.2.2.2.2.2.2.2.2.2.2.2.1 wkeyItemsAndKeystore27 9 15 0x50 _ .b _ _ [] ((wkeyItemsAndKeystore27.on 9).landDue) ⟨⟨ (by decide +kernel) , (by decide +kernel) , rfl⟩, (by decide +kernel) , (by decide +kernel) ⟩ rfl (.inl ⟨rfl, rfl⟩))⟩,
   ⟨_, ran (h.2.2.2.2.2.2.2.2.2.2.2.1 wkeyItemsAndKeystore28 9 15 0x51 _ .b _ _ [1#8] ((wkeyItemsAndKeystore28.on 9).landDue) ⟨⟨ (by decide +kernel) , (by decide +kernel) , rfl⟩, (by decide +kernel) , (by decide +kernel) ⟩ rfl (.inr (.inl ⟨rfl, rfl⟩)))⟩,
   ⟨_, ran (h.2.2.2.2.2.2.2.2.2.2.2.1 wkeyItemsAndKeystore29 9 15 0x53 _ .b _ _ [] ((wkeyItemsAndKeystore29.on 9).landDue) ⟨⟨ (by decide +kernel) , (by decide +kernel) , rfl⟩, (by decide +kernel) , (by decide +kernel) ⟩ rfl (.inr (.inr (.inl ⟨rfl, rfl, by decide +kernel⟩))))⟩,
   ⟨_, ran (h.2.2.2.2.2.2.2.2.2.2.2.1 wkeyItemsAndKeystore30 9 15 0x54 _ .b _ _ [] ((wkeyItemsAndKeystore30.on 9).landDue) ⟨⟨ (by decide +kernel) , (by decide +kernel) , rfl⟩, (by decide +kernel) , (by decide +kernel) ⟩ rfl (.inr (.inr (.inr (.inl ⟨rfl, rfl, by decide +kernel⟩)))))⟩,
   ⟨_, ran (h.2.2.2.2.2.2.2.2.2.2.2.1 wkeyItemsAndKeystore31 9 15 0x55 _ .b _ _ [] ((wkeyItemsAndKeystore31.on 9).landDue) ⟨⟨ (by decide +kernel) , (by decide +kernel) , rfl⟩, (by decide +kernel) , (by decide +kernel) ⟩ rfl (.inr (.inr (.inr (.inr (.inl ⟨rfl, rfl, by decide +kernel, by decide +kernel⟩))))))⟩,
   ⟨_, ran (h.2.2.2.2.2.2.2.2.2.2.2.1 wkeyItemsAndKeystore32 9 15 0x57 _ .b _ _ [] ((wkeyItemsAndKeystore32.on 9).landDue) ⟨⟨ (by decide +kernel) , (by decide +kernel) , rfl⟩, (by decide +kernel) , (by decide +kernel) ⟩ rfl (.inr (.inr (.inr (.inr (.inr (.inl ⟨rfl, rfl, by decide +kernel⟩)))))))⟩,
   ⟨_, ran (h.2.2.2.2.2.2.2.2.2.2.2.1 wkeyItemsAndKeystore33 9 15 0x58 _ .b _ _ [] ((wkeyItemsAndKeystore33.on 9).landDue) ⟨⟨ (by decide +kernel) , (by decide +kernel) , rfl⟩, (by decide +kernel) , (by decide +kernel) ⟩ rfl (.inr (.inr (.inr (.inr (.inr (.inr (.inl ⟨rfl, rfl, by decide +kernel, by decide +kernel⟩))))))))⟩,
   ⟨_, ran (h.2.2.2.2.2.2.2.2.2.2.2.1 wkeyItemsAndKeystore34 9 15 0x59 _ .b _ _ [] ((wkeyItemsAndKeystore34.on 9).landDue) ⟨⟨ (by decide +kernel) , (by decide +kernel) , rfl⟩, (by decide +kernel) , (by decide +kernel) ⟩ rfl (.inr (.inr (.inr (.inr (.inr (.inr (.inr (⟨rfl, rfl, by decide +kernel, by decide +kernel⟩)))))))))⟩,
   by refine ran (h.2.2.2.2.2.2.2.2.2.2.2.2.1 wkeyItemsAndKeystore35 9 15 .b _ (p384Public [1#8]) _ _ _ ((wkeyItemsAndKeystore35.on 9).landDue) ⟨⟨ ?_ , ?_ , rfl⟩, ?_ , ?_ ⟩ ?_ rfl ?_ rfl rfl) <;> decide +kernel,
   by refine ran (h.2.2.2.2.2.2.2.2.2.2.2.2.2.1 wkeyItemsAndKeystore36 9 15 .b _ [1#8] ((wkeyItemsAndKeystore36.on 9).landDue) ⟨⟨ ?_ , ?_ , rfl⟩, ?_ , ?_ ⟩ ?_ ?_) <;> decide +kernel,
   ran (h.2.2.2.2.2.2.2.2.2.2.2.2.2.2.1 wkeyItemsAndKeystore37 9 (wkeyItemsAndKeystore37.on 9) rfl (by decide +kernel) (by decide +kernel)),
   ranTime (h.2.2.2.2.2.2.2.2.2.2.2.2.2.2.2.1 wkeyItemsAndKeystore38 9 (by decide +kernel)),
   ranTime (h.2.2.2.2.2.2.2.2.2.2.2.2.2.2.2.1 wkeyItemsAndKeystore39 9 (by decide +kernel)),
   ran (h.2.2.2.2.2.2.2.2.2.2.2.2.2.2.2.2 wkeyItemsAndKeystore40 9 (wkeyItemsAndKeystore40.on 9) rfl)⟩

def wsalvoLife1 : State := st fun d => (one .b 15 { idx := 65535, slots := 2, descs := slx 0, phase := .delivered, seq := 2 } d).setReg .TB_CLASS 5 clsA
def wsalvoLife2 : State := st fun d => (one .b 15 { idx := 65535, slots := 2, descs := slx 0, phase := .delivered, seq := 2 } d)
def wsalvoLife3 : State := st fun d => (one .b 15 athIt d).modRing .b 15 fun x => { x with key := some (3, [7#8]), pos := 0 }
def wsalvoLife4 : State := st fun d => (one .b 15 (ath 5) d).modRing .b 15 fun x => { x with key := some (3, [7#8]), pos := 0 }
def wsalvoLife5 : State := st fun d => jdg (0x10 + 1151 * 2 ^ 32 + 1 * 2 ^ 48) d
def wsalvoLife6 : State := st fun d => jdg (0x10 + 1152 * 2 ^ 32 + 1 * 2 ^ 48) d
def wsalvoLife7 : State := st fun d => jdg (0x11 + 1 * 2 ^ 32 + 18431 * 2 ^ 64 + 18431 * 2 ^ 80) d
def wsalvoLife8 : State := st fun d => jdg (0x12 + 1151 * 2 ^ 32 + 2 ^ 52) d
def wsalvoLife9 : State := st fun d => jdg (0x13 + 1151 * 2 ^ 32) d
def wsalvoLife10 : State := st fun d => jdg (0x14 + 2304 * 2 ^ 32 + 2 * 2 ^ 48) d
def wsalvoLife11 : State := st fun d => (jdg (0x15 + 1151 * 2 ^ 32 + 2 * 2 ^ 48) d).modOwner .b 1151 fun o => { o with isOpen := true }
def wsalvoLife12 : State := st fun d => { (jdg (0x16 + 1151 * 2 ^ 32 + 2 * 2 ^ 48 + (2 ^ 20) * 2 ^ 96 + 2 ^ 128) d) with coolCtl := [1151], cctData := [(1151, cct (0x101 + 0x12 * 2 ^ 80))] }
def wsalvoLife13 : State := st fun d => jdg (0x16 + 1151 * 2 ^ 32 + 2 * 2 ^ 48 + (2 ^ 20) * 2 ^ 96 + 2 ^ 128) d
def wsalvoLife14 : State := st fun d => sec5 (0x10 + 1151 * 2 ^ 32 + 1 * 2 ^ 48) (ras d)
def wsalvoLife15 : State := st fun d => sec5 (0x12 + 1151 * 2 ^ 32 + 2 ^ 52) (ras d)
def wsalvoLife16 : State := st fun d => sec5 (0x12 + 1151 * 2 ^ 32 + 5 * 2 ^ 48 + 0x11 * 2 ^ 64) d
def wsalvoLife17 : State := st fun d => sec5 (0x20 + 4095 * 2 ^ 32 + 1 * 2 ^ 48) d
def wsalvoLife18 : State := stm { hamper := ⟨[], [(4095 * 2 ^ 36 + 7, 1#8)]⟩ } fun d => (sec5 (0x13 + 1151 * 2 ^ 32 + 2 ^ 51 + 4095 * 2 ^ 64 + 63 * 2 ^ 80) (ras d)).modOwner .b 4095 fun o => { o with isOpen := true, owned := 2 }
def wsalvoLife19 : State := st fun d => ((one .b 15 asap d).setReg .TB_CLASS 5 clsA).modTb .a fun x => { x with epoch := 5 * secU }
def wsalvoLife20 : State := st fun d => ((one .b 15 { idx := 65535, slots := 2, descs := [dsc (1 + 1 * 2 ^ 32 + 5 * 2 ^ 44 + 100 * 2 ^ 96), dsc 0], phase := .delivered, seq := 2, target := 100 } d).setReg .TB_CLASS 5 clsA).modTb .a fun x => { x with epoch := 5 * secU }
def wsalvoLife21 : State := st fun d => ((one .b 15 { idx := 65535, slots := 2, descs := [dsc (1 + 1 * 2 ^ 32 + 5 * 2 ^ 44 + 2 ^ 50 + 100 * 2 ^ 96), dsc 0], phase := .delivered, seq := 2, target := 100 } d).setReg .TB_CLASS 5 clsA).modTb .a fun x => { x with epoch := 5 * secU }
def wsalvoLife22 : State := st fun d => ((one .b 15 { asap with tries := 16 } d).setReg .TB_CLASS 5 clsA).modTb .a fun x => { x with epoch := 5 * secU }
def wsalvoLife23 : State := st id
def wsalvoLife24 : State := st fun d => (one .b 15 { idx := 65535, descs := [dsc 0], phase := .done, seq := 2, status := 0x12 } d).put F.HIF_CPR_CFG_enable true 16
def wsalvoLife25 : State := st fun d => (((ltc 0x20 d).modRing .b 15 fun x => { x with items := [{ ltcIt 0x20 with landed := [1] }] }).put F.HIF_CPR_CFG_enable true 16)
def wsalvoLife26 : State := st fun d => (((ltc (0x10 + 1151 * 2 ^ 32 + 1 * 2 ^ 48) d).modRing .b 15 fun x => { x with items := [{ ltcIt (0x10 + 1151 * 2 ^ 32 + 1 * 2 ^ 48) with landed := [1], phase := .done }] }).put F.HIF_CPR_CFG_enable true 16 |>.put F.HIF_ASR_CFG_enable true 1)

theorem test_SalvoLife (h : Obligations.SalvoLife) :
    Ran (.salvo 9 .b 15) wsalvoLife1
    ∧ Ran (.salvo 9 .b 15) wsalvoLife2
    ∧ Ran (.auth 9 .b 15) wsalvoLife3
    ∧ Ran (.auth 9 .b 15) wsalvoLife4
    ∧ (∃ c, Ran c wsalvoLife5)
    ∧ (∃ c, Ran c wsalvoLife6)
    ∧ (∃ c, Ran c wsalvoLife7)
    ∧ (∃ c, Ran c wsalvoLife8)
    ∧ (∃ c, Ran c wsalvoLife9)
    ∧ (∃ c, Ran c wsalvoLife10)
    ∧ (∃ c, Ran c wsalvoLife11)
    ∧ (∃ c, Ran c wsalvoLife12)
    ∧ (∃ c, Ran c wsalvoLife13)
    ∧ Ran (.salvoLatch 9 (secIt (0x10 + 1151 * 2 ^ 32 + 1 * 2 ^ 48)).cls 100) wsalvoLife14
    ∧ Ran (.salvoLatch 9 (secIt (0x12 + 1151 * 2 ^ 32 + 2 ^ 52)).cls 100) wsalvoLife15
    ∧ Ran (.salvoLatch 9 (secIt (0x12 + 1151 * 2 ^ 32 + 5 * 2 ^ 48 + 0x11 * 2 ^ 64)).cls 100) wsalvoLife16
    ∧ Ran (.salvoLatch 9 (secIt (0x20 + 4095 * 2 ^ 32 + 1 * 2 ^ 48)).cls 100) wsalvoLife17
    ∧ Ran (.salvoLatch 9 (secIt (0x13 + 1151 * 2 ^ 32 + 2 ^ 51 + 4095 * 2 ^ 64 + 63 * 2 ^ 80)).cls 100) wsalvoLife18
    ∧ Ran (.salvoLatch 9 5 100) wsalvoLife19
    ∧ Ran (.salvoLatch 9 5 100) wsalvoLife20
    ∧ Ran (.salvoLatch 9 5 100) wsalvoLife21
    ∧ Ran (.salvoLatch 9 5 101) wsalvoLife22
    ∧ Ran (.salvoLatch 9 15 0) wsalvoLife23
    ∧ Ran (.salvoCompletionPost 9 .b 15) wsalvoLife24
    ∧ Ran (.salvoCompletionPost 9 .b 15) wsalvoLife25
    ∧ Ran (.salvoCompletionPost 9 .b 15) wsalvoLife26 :=
  ⟨by refine ran (h.1 wsalvoLife1 9 15 .b _ (wsalvoLife1.on 9) rfl ?_ ?_ ?_ rfl ?_) <;> decide +kernel,
   by refine ran (h.2.1 wsalvoLife2 9 15 .b { idx := 65535, slots := 2, descs := slx 0, phase := .delivered, seq := 2 } (wsalvoLife2.on 9) rfl ?_ ?_ ?_ ?_ ?_ ?_) <;> decide +kernel,
   by refine ran (h.2.2.1 wsalvoLife3 9 15 .b athIt (wsalvoLife3.on 9) rfl ?_ ?_ ?_ ?_ ?_) <;> decide +kernel,
   by refine ran (h.2.2.2.1 wsalvoLife4 9 15 .b (ath 5) (wsalvoLife4.on 9) rfl ?_ ?_ ?_ ?_ ?_ ?_) <;> decide +kernel,
   ⟨_, ran (h.2.2.2.2.1 wsalvoLife5 9 15 0x10 .b (jdgIt (0x10 + 1151 * 2 ^ 32 + 1 * 2 ^ 48)) (dsc (0x10 + 1151 * 2 ^ 32 + 1 * 2 ^ 48)) _ _ (wsalvoLife5.on 9) rfl ⟨ (by decide +kernel) , (by decide +kernel) , (by decide +kernel) , (by decide +kernel) , (by decide +kernel) , (by decide +kernel) ⟩ (by decide +kernel) rfl (.inl ⟨rfl, rfl⟩))⟩,
   ⟨_, ran (h.2.2.2.2.1 wsalvoLife6 9 15 0x10 .b (jdgIt (0x10 + 1152 * 2 ^ 32 + 1 * 2 ^ 48)) (dsc (0x10 + 1152 * 2 ^ 32 + 1 * 2 ^ 48)) _ _ (wsalvoLife6.on 9) rfl ⟨ (by decide +kernel) , (by decide +kernel) , (by decide +kernel) , (by decide +kernel) , (by decide +kernel) , (by decide +kernel) ⟩ (by decide +kernel) rfl (.inl ⟨rfl, rfl⟩))⟩,
   ⟨_, ran (h.2.2.2.2.1 wsalvoLife7 9 15 0x11 .b (jdgIt (0x11 + 1 * 2 ^ 32 + 18431 * 2 ^ 64 + 18431 * 2 ^ 80)) (dsc (0x11 + 1 * 2 ^ 32 + 18431 * 2 ^ 64 + 18431 * 2 ^ 80)) _ _ (wsalvoLife7.on 9) rfl ⟨ (by decide +kernel) , (by decide +kernel) , (by decide +kernel) , (by decide +kernel) , (by decide +kernel) , (by decide +kernel) ⟩ (by decide +kernel) rfl (.inr (.inl ⟨rfl, rfl⟩)))⟩,
   ⟨_, ran (h.2.2.2.2.1 wsalvoLife8 9 15 0x12 .b (jdgIt (0x12 + 1151 * 2 ^ 32 + 2 ^ 52)) (dsc (0x12 + 1151 * 2 ^ 32 + 2 ^ 52)) _ _ (wsalvoLife8.on 9) rfl ⟨ (by decide +kernel) , (by decide +kernel) , (by decide +kernel) , (by decide +kernel) , (by decide +kernel) , (by decide +kernel) ⟩ (by decide +kernel) rfl (.inr (.inr (.inl ⟨rfl, rfl⟩))))⟩,
   ⟨_, ran (h.2.2.2.2.1 wsalvoLife9 9 15 0x13 .b (jdgIt (0x13 + 1151 * 2 ^ 32)) (dsc (0x13 + 1151 * 2 ^ 32)) _ _ (wsalvoLife9.on 9) rfl ⟨ (by decide +kernel) , (by decide +kernel) , (by decide +kernel) , (by decide +kernel) , (by decide +kernel) , (by decide +kernel) ⟩ (by decide +kernel) rfl (.inr (.inr (.inr (.inl ⟨rfl, rfl⟩)))))⟩,
   ⟨_, ran (h.2.2.2.2.1 wsalvoLife10 9 15 0x14 .b (jdgIt (0x14 + 2304 * 2 ^ 32 + 2 * 2 ^ 48)) (dsc (0x14 + 2304 * 2 ^ 32 + 2 * 2 ^ 48)) _ _ (wsalvoLife10.on 9) rfl ⟨ (by decide +kernel) , (by decide +kernel) , (by decide +kernel) , (by decide +kernel) , (by decide +kernel) , (by decide +kernel) ⟩ (by decide +kernel) rfl (.inr (.inr (.inr (.inr (.inl ⟨rfl, rfl⟩))))))⟩,
   ⟨_, ran (h.2.2.2.2.1 wsalvoLife11 9 15 0x15 .b (jdgIt (0x15 + 1151 * 2 ^ 32 + 2 * 2 ^ 48)) (dsc (0x15 + 1151 * 2 ^ 32 + 2 * 2 ^ 48)) _ _ (wsalvoLife11.on 9) rfl ⟨ (by decide +kernel) , (by decide +kernel) , (by decide +kernel) , (by decide +kernel) , (by decide +kernel) , (by decide +kernel) ⟩ (by decide +kernel) rfl (.inr (.inr (.inr (.inr (.inr (.inl ⟨rfl, rfl⟩)))))))⟩,
   ⟨_, ran (h.2.2.2.2.1 wsalvoLife12 9 15 0x16 .b (jdgIt (0x16 + 1151 * 2 ^ 32 + 2 * 2 ^ 48 + (2 ^ 20) * 2 ^ 96 + 2 ^ 128)) (dsc (0x16 + 1151 * 2 ^ 32 + 2 * 2 ^ 48 + (2 ^ 20) * 2 ^ 96 + 2 ^ 128)) _ _ (wsalvoLife12.on 9) rfl ⟨ (by decide +kernel) , (by decide +kernel) , (by decide +kernel) , (by decide +kernel) , (by decide +kernel) , (by decide +kernel) ⟩ (by decide +kernel) rfl (.inr (.inr (.inr (.inr (.inr (.inr (⟨rfl, rfl⟩))))))))⟩,
   ⟨_, ran (h.2.2.2.2.1 wsalvoLife13 9 15 0x16 .b (jdgIt (0x16 + 1151 * 2 ^ 32 + 2 * 2 ^ 48 + (2 ^ 20) * 2 ^ 96 + 2 ^ 128)) (dsc (0x16 + 1151 * 2 ^ 32 + 2 * 2 ^ 48 + (2 ^ 20) * 2 ^ 96 + 2 ^ 128)) _ _ (wsalvoLife13.on 9) rfl ⟨ (by decide +kernel) , (by decide +kernel) , (by decide +kernel) , (by decide +kernel) , (by decide +kernel) , (by decide +kernel) ⟩ (by decide +kernel) rfl (.inr (.inr (.inr (.inr (.inr (.inr (⟨rfl, rfl⟩))))))))⟩,
   by refine ran (h.2.2.2.2.2.1 wsalvoLife14 9 15 100 .b (secIt (0x10 + 1151 * 2 ^ 32 + 1 * 2 ^ 48)) ((wsalvoLife14.on 9).landDue) rfl ?_ ?_ ?_ ⟨ ?_ , ?_ , ?_ , ?_ , ?_ , ?_ , ?_ , ?_ , ?_ ⟩) <;> decide +kernel,
   by refine ran (h.2.2.2.2.2.1 wsalvoLife15 9 15 100 .b (secIt (0x12 + 1151 * 2 ^ 32 + 2 ^ 52)) ((wsalvoLife15.on 9).landDue) rfl ?_ ?_ ?_ ⟨ ?_ , ?_ , ?_ , ?_ , ?_ , ?_ , ?_ , ?_ , ?_ ⟩) <;> decide +kernel,
   by refine ran (h.2.2.2.2.2.1 wsalvoLife16 9 15 100 .b (secIt (0x12 + 1151 * 2 ^ 32 + 5 * 2 ^ 48 + 0x11 * 2 ^ 64)) ((wsalvoLife16.on 9).landDue) rfl ?_ ?_ ?_ ⟨ ?_ , ?_ , ?_ , ?_ , ?_ , ?_ , ?_ , ?_ , ?_ ⟩) <;> decide +kernel,
   by refine ran (h.2.2.2.2.2.1 wsalvoLife17 9 15 100 .b (secIt (0x20 + 4095 * 2 ^ 32 + 1 * 2 ^ 48)) ((wsalvoLife17.on 9).landDue) rfl ?_ ?_ ?_ ⟨ ?_ , ?_ , ?_ , ?_ , ?_ , ?_ , ?_ , ?_ , ?_ ⟩) <;> decide +kernel,
   by refine ran (h.2.2.2.2.2.1 wsalvoLife18 9 15 100 .b (secIt (0x13 + 1151 * 2 ^ 32 + 2 ^ 51 + 4095 * 2 ^ 64 + 63 * 2 ^ 80)) ((wsalvoLife18.on 9).landDue) rfl ?_ ?_ ?_ ⟨ ?_ , ?_ , ?_ , ?_ , ?_ , ?_ , ?_ , ?_ , ?_ ⟩) <;> decide +kernel,
   by refine ran (h.2.2.2.2.2.2.1 wsalvoLife19 9 15 5 100 .b asap _ ((wsalvoLife19.on 9).landDue) rfl ?_ ?_ ?_ ?_ ?_ ?_ ?_ ?_ ?_ ?_ rfl) <;> decide +kernel,
   by refine ran (h.2.2.2.2.2.2.1 wsalvoLife20 9 15 5 100 .b { idx := 65535, slots := 2, descs := [dsc (1 + 1 * 2 ^ 32 + 5 * 2 ^ 44 + 100 * 2 ^ 96), dsc 0], phase := .delivered, seq := 2, target := 100 } _ ((wsalvoLife20.on 9).landDue) rfl ?_ ?_ ?_ ?_ ?_ ?_ ?_ ?_ ?_ ?_ rfl) <;> decide +kernel,
   by refine ran (h.2.2.2.2.2.2.1 wsalvoLife21 9 15 5 100 .b { idx := 65535, slots := 2, descs := [dsc (1 + 1 * 2 ^ 32 + 5 * 2 ^ 44 + 2 ^ 50 + 100 * 2 ^ 96), dsc 0], phase := .delivered, seq := 2, target := 100 } _ ((wsalvoLife21.on 9).landDue) rfl ?_ ?_ ?_ ?_ ?_ ?_ ?_ ?_ ?_ ?_ rfl) <;> decide +kernel,
   by refine ran (h.2.2.2.2.2.2.2.1 wsalvoLife22 9 15 5 101 .b { asap with tries := 16 } ((wsalvoLife22.on 9).landDue) rfl ?_ ?_ ?_ ?_ ?_ ?_ ?_ ?_ ?_ ?_ ?_) <;> decide +kernel,
   ranTime (h.2.2.2.2.2.2.2.2.1 wsalvoLife23 9 15 0 (by decide +kernel) (by decide +kernel)),
   by refine ran (h.2.2.2.2.2.2.2.2.2.1 wsalvoLife24 9 15 .b { idx := 65535, descs := [dsc 0], phase := .done, seq := 2, status := 0x12 } ((wsalvoLife24.on 9).landDue) rfl ?_ ?_ ?_ ⟨ ?_ , ?_ , ?_ , ?_ , ?_ , ?_ ⟩) <;> decide +kernel,
   by refine ran (h.2.2.2.2.2.2.2.2.2.2.1 wsalvoLife25 9 15 .b { ltcIt 0x20 with landed := [1] } ((wsalvoLife25.on 9).landDue) rfl ?_ ?_ ?_ ?_ ?_ ?_ ?_ ?_ ?_ ?_ ⟨ ?_ , ?_ , ?_ , ?_ , ?_ , ?_ ⟩) <;> decide +kernel,
   by refine ran (h.2.2.2.2.2.2.2.2.2.2.2 wsalvoLife26 9 15 .b { ltcIt (0x10 + 1151 * 2 ^ 32 + 1 * 2 ^ 48) with landed := [1], phase := .done } (dsc (0x10 + 1151 * 2 ^ 32 + 1 * 2 ^ 48)) ((wsalvoLife26.on 9).landDue) rfl ?_ ?_ ?_ ?_ ?_ ?_ ?_ ?_ ?_ ?_ ?_ ?_ ?_ ⟨ ?_ , ?_ , ?_ , ?_ , ?_ , ?_ ⟩) <;> decide +kernel⟩

def wsalvoLands1 : State := st fun d => ((ltc (0x10 + 1151 * 2 ^ 32 + 1 * 2 ^ 48) (ras d)).modOut 1151 fun x => { x with modePend := [{ frame := 100, cls := 5, desc := dsc (0x10 + 1151 * 2 ^ 32 + 1 * 2 ^ 48 + 3 * 2 ^ 96) }] }).modOp 1151 .a fun x => { x with pend := some { route := { kind := 1 }, frame := 100, cls := 5 } }
def wsalvoLands2 : State := st fun d => ltc (0x11 + 1 * 2 ^ 32 + 18431 * 2 ^ 64 + 18430 * 2 ^ 80) d
def wsalvoLands3 : State := st fun d => ltc (0x11 + 1 * 2 ^ 32 + 18431 * 2 ^ 64 + 18430 * 2 ^ 80 + 0x4000 * 2 ^ 96 + 100 * 2 ^ 112) (ras d)
def wsalvoLands4 : State := st fun d => ltc (0x12 + 1151 * 2 ^ 32) d
def wsalvoLands5 : State := st fun d => ltc (0x13 + 1151 * 2 ^ 32 + 4095 * 2 ^ 64) d
def wsalvoLands6 : State := st fun d => ltc (0x13 + 1151 * 2 ^ 32 + 2 ^ 43 + 2 ^ 51 + 4095 * 2 ^ 64) d
def wsalvoLands7 : State := st fun d => (ltc 0x14 d).modRing .b 15 fun x => { x with items := [opnIt 0x14 2304] }
def wsalvoLands8 : State := st fun d => (ltc 0x16 d).modRing .b 15 fun x => { x with items := [opnIt 0x16 1151] }
def wsalvoLands9 : State := st fun d => ((ltc 0x15 d).modRing .b 15 fun x => { x with items := [{ ltcIt 0x15 with closes := [opn 1151] }] }).modOwner .a 1151 fun o => { o with isOpen := true, ctx := true }

theorem test_SalvoLands (h : Obligations.SalvoLands) :
    Ran (.takeVideo 9 .b 15) wsalvoLands1
    ∧ Ran (.takeAudio 9 .b 15) wsalvoLands2
    ∧ Ran (.takeAudio 9 .b 15) wsalvoLands3
    ∧ Ran (.takeFormat 9 .b 15) wsalvoLands4
    ∧ Ran (.takeOverlay 9 .b 15) wsalvoLands5
    ∧ Ran (.takeOverlay 9 .b 15) wsalvoLands6
    ∧ Ran (.convOpen 9 .b 15) wsalvoLands7
    ∧ Ran (.syncOpen 9 .b 15) wsalvoLands8
    ∧ Ran (.convClose 9 .b 15) wsalvoLands9 :=
  ⟨by refine ran (h.1 wsalvoLands1 9 15 1151 .b (ltcIt (0x10 + 1151 * 2 ^ 32 + 1 * 2 ^ 48)) (dsc (0x10 + 1151 * 2 ^ 32 + 1 * 2 ^ 48)) { frame := 100, cls := 5, desc := dsc (0x10 + 1151 * 2 ^ 32 + 1 * 2 ^ 48 + 3 * 2 ^ 96) } (wsalvoLands1.on 9) rfl ⟨ ?_ , ?_ , ?_ , ?_ , ?_ , ?_ , ?_ , ?_ ⟩ rfl ?_ ?_ ?_ (by intro q; cases q <;> decide +kernel) (by intro q h; cases q; exact ⟨_, rfl, by decide +kernel⟩; exact absurd h (by decide))) <;> decide +kernel,
   by refine ran (h.2.1 wsalvoLands2 9 15 18431 .b (ltcIt (0x11 + 1 * 2 ^ 32 + 18431 * 2 ^ 64 + 18430 * 2 ^ 80)) (dsc (0x11 + 1 * 2 ^ 32 + 18431 * 2 ^ 64 + 18430 * 2 ^ 80)) ((aEntries (dsc (0x11 + 1 * 2 ^ 32 + 18431 * 2 ^ 64 + 18430 * 2 ^ 80))).headD (0, {})).2 (wsalvoLands2.on 9) rfl ⟨ ?_ , ?_ , ?_ , ?_ , ?_ , ?_ , ?_ , ?_ ⟩ ?_ ?_ ?_) <;> decide +kernel,
   by refine ran (h.2.1 wsalvoLands3 9 15 18431 .b (ltcIt (0x11 + 1 * 2 ^ 32 + 18431 * 2 ^ 64 + 18430 * 2 ^ 80 + 0x4000 * 2 ^ 96 + 100 * 2 ^ 112)) (dsc (0x11 + 1 * 2 ^ 32 + 18431 * 2 ^ 64 + 18430 * 2 ^ 80 + 0x4000 * 2 ^ 96 + 100 * 2 ^ 112)) ((aEntries (dsc (0x11 + 1 * 2 ^ 32 + 18431 * 2 ^ 64 + 18430 * 2 ^ 80 + 0x4000 * 2 ^ 96 + 100 * 2 ^ 112))).headD (0, {})).2 (wsalvoLands3.on 9) rfl ⟨ ?_ , ?_ , ?_ , ?_ , ?_ , ?_ , ?_ , ?_ ⟩ ?_ ?_ ?_) <;> decide +kernel,
   by refine ran (h.2.2.1 wsalvoLands4 9 15 .b (ltcIt (0x12 + 1151 * 2 ^ 32)) (dsc (0x12 + 1151 * 2 ^ 32)) (wsalvoLands4.on 9) rfl ⟨ ?_ , ?_ , ?_ , ?_ , ?_ , ?_ , ?_ , ?_ ⟩) <;> decide +kernel,
   by refine ran (h.2.2.2.1 wsalvoLands5 9 15 .b (ltcIt (0x13 + 1151 * 2 ^ 32 + 4095 * 2 ^ 64)) (dsc (0x13 + 1151 * 2 ^ 32 + 4095 * 2 ^ 64)) (wsalvoLands5.on 9) rfl ⟨ ?_ , ?_ , ?_ , ?_ , ?_ , ?_ , ?_ , ?_ ⟩ ?_ ?_ ?_) <;> decide +kernel,
   by refine ran (h.2.2.2.2.1 wsalvoLands6 9 15 .b (ltcIt (0x13 + 1151 * 2 ^ 32 + 2 ^ 43 + 2 ^ 51 + 4095 * 2 ^ 64)) (dsc (0x13 + 1151 * 2 ^ 32 + 2 ^ 43 + 2 ^ 51 + 4095 * 2 ^ 64)) (wsalvoLands6.on 9) rfl ⟨ ?_ , ?_ , ?_ , ?_ , ?_ , ?_ , ?_ , ?_ ⟩ ?_) <;> decide +kernel,
   by refine ran (h.2.2.2.2.2.1 wsalvoLands7 9 15 .b (opnIt 0x14 2304) (dsc 0x14) (opn 2304) (wsalvoLands7.on 9) rfl ⟨ ?_ , ?_ , ?_ , ?_ , ?_ , ?_ , ?_ , ?_ ⟩ ?_ ?_ ?_ ?_ ?_ ?_) <;> decide +kernel,
   by refine ran (h.2.2.2.2.2.2.1 wsalvoLands8 9 15 .b (opnIt 0x16 1151) (dsc 0x16) (opn 1151) (wsalvoLands8.on 9) rfl ⟨ ?_ , ?_ , ?_ , ?_ , ?_ , ?_ , ?_ , ?_ ⟩ ?_ ?_ ?_ ?_ ?_ ?_) <;> decide +kernel,
   by refine ran (h.2.2.2.2.2.2.2 wsalvoLands9 9 15 .b { ltcIt 0x15 with closes := [opn 1151] } (dsc 0x15) (opn 1151) (wsalvoLands9.on 9) rfl ⟨ ?_ , ?_ , ?_ , ?_ , ?_ , ?_ , ?_ , ?_ ⟩ ?_ ?_ ?_ ?_) <;> decide +kernel⟩

def wplaneFaults1 : State := st fun d => blk (ltc 0 (d.wr F.PL_STATUS_state 3 0))
def wplaneFaults2 : State := st fun d => one .a 3 (actIt 0) (ltc 0 d)
def wplaneFaults3 : State := st fun d => ltc 0 d
def wplaneFaults4 : State := st fun d => ltc 0 d
def wplaneFaults5 : State := st fun d => eng d
def wplaneFaults6 : State := st fun d => d
def wplaneFaults7 : State := st fun d => d.wr F.PL_STATUS_state 1 1
def wplaneFaults8 : State := st fun d => d.wr F.PL_STATUS_state 1 1
def wplaneFaults9 : State := st fun d => d.wr F.PL_STATUS_state 1 1
def wplaneFaults10 : State := st fun d => d.setReg .GLB_CLKEN1 0 0#32
def wplaneFaults11 : State := st fun d => d.wr F.PL_STATUS_state 1 1

theorem test_PlaneFaults (h : Obligations.PlaneFaults) :
    Ran (.plFaultReq 9 .a) wplaneFaults1
    ∧ Ran (.plFaultReq 9 .b) wplaneFaults2
    ∧ Ran (.takeSequencerWatchdog 9 .b) wplaneFaults3
    ∧ Ran (.hamperStackFault 9 .a) wplaneFaults4
    ∧ Ran (.engineControlCheckFault 9 95 .profile) wplaneFaults5
    ∧ Ran (.engineControlCheckFault 9 0 .profile) wplaneFaults6
    ∧ (∃ c, Ran c wplaneFaults7)
    ∧ (∃ c, Ran c wplaneFaults8)
    ∧ (∃ c, Ran c wplaneFaults9)
    ∧ Ran (.plFaultReq 9 .b) wplaneFaults10
    ∧ Ran (.hamperStackFault 9 .b) wplaneFaults11 :=
  ⟨ran (h.1 wplaneFaults1 9 .a ((wplaneFaults1.on 9).landDue) rfl (by decide +kernel) (by decide +kernel)),
   ran (h.1 wplaneFaults2 9 .b ((wplaneFaults2.on 9).landDue) rfl (by decide +kernel) (by decide +kernel)),
   ran (h.2.1 wplaneFaults3 9 .b ((wplaneFaults3.on 9).landDue) rfl (by decide +kernel)),
   ran (h.2.2.1 wplaneFaults4 9 .a ((wplaneFaults4.on 9).landDue) rfl (by decide +kernel)),
   by refine ran (h.2.2.2.1 wplaneFaults5 9 95 .b ((wplaneFaults5.on 9).landDue) rfl ?_ ?_ ?_) <;> decide +kernel,
   by refine ran (h.2.2.2.1 wplaneFaults6 9 0 .a ((wplaneFaults6.on 9).landDue) rfl ?_ ?_ ?_) <;> decide +kernel,
   ⟨_, ran (h.2.2.2.2.1 wplaneFaults7 9 48 _ .b _ ((wplaneFaults7.on 9).landDue) rfl (by decide +kernel) (by decide +kernel) (.inl ⟨rfl, by decide +kernel, rfl⟩))⟩,
   ⟨_, ran (h.2.2.2.2.1 wplaneFaults8 9 48 _ .b _ ((wplaneFaults8.on 9).landDue) rfl (by decide +kernel) (by decide +kernel) (.inr (.inl ⟨rfl, rfl⟩)))⟩,
   ⟨_, ran (h.2.2.2.2.1 wplaneFaults9 9 48 _ .b _ ((wplaneFaults9.on 9).landDue) rfl (by decide +kernel) (by decide +kernel) (.inr (.inr ⟨rfl, by decide, rfl⟩)))⟩,
   ran (h.2.2.2.2.2.1 wplaneFaults10 9 .b ((wplaneFaults10.on 9).landDue) rfl (by decide +kernel)),
   ran (h.2.2.2.2.2.2 wplaneFaults11 9 .b ((wplaneFaults11.on 9).landDue) rfl (by decide +kernel))⟩

def wplaneRestarts1 : State := stm { hamper := ⟨[(5, 6#8)], [(7, 8#8)]⟩ } fun d => (eng (ras d)).wr F.PL_STATUS_state 1 1
def wplaneRestarts2 : State := stm { hamper := ⟨[(5, 6#8)], [(7, 8#8)]⟩ } fun d => (blk (ras d)).wr F.PL_STATUS_state 1 0
def wplaneRestarts3 : State := st id
def wplaneRestarts4 : State := st fun d => (d.setReg .GLB_CLKEN1 0 0#32).wr F.PL_STATUS_state 1 1
def wplaneRestarts5 : State := st id
def wplaneRestarts6 : State := st fun d => d.wr F.PL_STATUS_state 1 1 |>.modPlane .b fun x => { x with autos := [5] }
def wplaneRestarts7 : State := st fun d => (blk d).wr F.PL_STATUS_state 2 1 |>.put F.HAM_STATUS_trained true 1 |>.modPlane .b fun x => { x with training := false }
def wplaneRestarts8 : State := st fun d => ((blk d).wr F.PL_STATUS_state 2 0 |>.put F.HAM_STATUS_trained true 0 |>.modPlane .a fun x => { x with training := false }).modOp 1151 .a fun y => { y with waitCopy := true }
def wplaneRestarts9 : State := st fun d => ((blk d).wr F.PL_STATUS_state 2 0 |>.put F.HAM_STATUS_trained true 0 |>.modPlane .a fun x => { x with training := false }).setTbState .b 6
def wplaneRestarts10 : State := st fun d => ((blk d).wr F.PL_STATUS_state 2 1).modPlane .b fun x => { x with training := true }

theorem test_PlaneRestarts (h : Obligations.PlaneRestarts) :
    Ran (.plRestartReq 9 .b) wplaneRestarts1
    ∧ Ran (.planeAutoRestart (100 * msU) .a) wplaneRestarts2
    ∧ Ran (.plRestartReq 9 .b) wplaneRestarts3
    ∧ Ran (.plRestartReq 9 .b) wplaneRestarts4
    ∧ Ran (.planeAutoRestart 9 .b) wplaneRestarts5
    ∧ Ran (.planeAutoRestart 9 .b) wplaneRestarts6
    ∧ Ran (.planeRestartDone 9 .b) wplaneRestarts7
    ∧ Ran (.planeRestartDone 9 .a) wplaneRestarts8
    ∧ Ran (.planeRestartDone 9 .a) wplaneRestarts9
    ∧ Ran (.planeRestartDone 9 .b) wplaneRestarts10 :=
  ⟨ranMem (h.1 wplaneRestarts1 9 .b ((wplaneRestarts1.on 9).landDue) rfl (by decide +kernel) (by decide +kernel)),
   by refine ranMem (h.2.1 wplaneRestarts2 (100 * msU) .a ((wplaneRestarts2.on (100 * msU)).landDue) rfl ?_ ?_ ?_ ?_ ?_) <;> decide +kernel,
   ran (h.2.2.1 wplaneRestarts3 9 .b ((wplaneRestarts3.on 9).landDue) rfl (.inl (by decide +kernel))),
   ran (h.2.2.1 wplaneRestarts4 9 .b ((wplaneRestarts4.on 9).landDue) rfl (.inr (by decide +kernel))),
   ran (h.2.2.2.1 wplaneRestarts5 9 .b ((wplaneRestarts5.on 9).landDue) rfl (.inl (by decide +kernel))),
   ran (h.2.2.2.1 wplaneRestarts6 9 .b ((wplaneRestarts6.on 9).landDue) rfl (.inr (.inr (.inr (.inl (by decide +kernel)))))),
   by refine ran (h.2.2.2.2.1 wplaneRestarts7 9 .b ((wplaneRestarts7.on 9).landDue) rfl ?_ ?_ ?_ ?_) <;> decide +kernel,
   by refine ran (h.2.2.2.2.1 wplaneRestarts8 9 .a ((wplaneRestarts8.on 9).landDue) rfl ?_ ?_ ?_ ?_) <;> decide +kernel,
   by refine ran (h.2.2.2.2.2.1 wplaneRestarts9 9 .a ((wplaneRestarts9.on 9).landDue) rfl ?_ ?_ ?_ ?_) <;> decide +kernel,
   ran (h.2.2.2.2.2.2 wplaneRestarts10 9 .b ((wplaneRestarts10.on 9).landDue) rfl (.inr (.inl (by decide +kernel))))⟩

def wenginesServe1 : State := st fun d => { d with startQ := (List.range 9).map fun i => (2312 - i, .a, i) }
def wenginesServe2 : State := st fun d => { d with startQ := (List.range 9).map fun i => (2304, .a, i) }
def wenginesServe3 : State := st id
def wenginesServe4 : State := st fun d => { d with startQ := [(2304, .a, 1)], startAt := some 9 }
def wenginesServe5 : State := st fun d => eng d
def wenginesServe6 : State := st fun d => eng d
def wenginesServe7 : State := st fun d => eng d
def wenginesServe8 : State := st fun d => eng d
def wenginesServe9 : State := st id
def wenginesServe10 : State := st id
def wenginesServe11 : State := st fun d => d.modEngine .b 47 fun x => { x with state := 2 }
def wenginesServe12 : State := st fun d => d.modEngine .b 47 fun x => { x with state := 2 }
def wenginesServe13 : State := st fun d => d.modEngine .b 47 fun x => { x with state := 2, faults := [0, 0, 0, 0, 0, 0, 0, 0, 0] }
def wenginesServe14 : State := st fun d => (d.wr F.PL_STATUS_state 2 1).wr F.GE_STATUS_half_free 9 1
def wenginesServe15 : State := st fun d => eng d
def wenginesServe16 : State := st fun d => eng d
def wenginesServe17 : State := st fun d => d.put F.LX_CTRL_lock true 1

theorem test_EnginesServe (h : Obligations.EnginesServe) :
    Ran (.engineStart 9) wenginesServe1
    ∧ Ran (.engineStart 9) wenginesServe2
    ∧ Ran (.engineStart 9) wenginesServe3
    ∧ Ran (.engineStart 9) wenginesServe4
    ∧ Ran (.engineWatchdog 9 95) wenginesServe5
    ∧ Ran (.engineControlCheckFault 9 95 .uncorrectable) wenginesServe6
    ∧ Ran (.engineControlCheckFault 9 95 .badDma) wenginesServe7
    ∧ Ran (.engineControlCheckFault 9 95 .corrected) wenginesServe8
    ∧ (∃ c, Ran c wenginesServe9)
    ∧ (∃ c, Ran c wenginesServe10)
    ∧ Ran (.engineTestDone 9 95 true) wenginesServe11
    ∧ Ran (.engineTestDone 9 95 false) wenginesServe12
    ∧ Ran (.engineTestDone 9 95 true) wenginesServe13
    ∧ Ran (.engineTestDone 9 95 false) wenginesServe14
    ∧ Ran (.geEngDisWrite 9 .b false 0xFFFFFFFF#32) wenginesServe15
    ∧ Ran (.geEngDisWrite 9 .b true 0xFFFFFFFF#32) wenginesServe16
    ∧ Ran (.geEngDisWrite 9 .b true 0xFFFFFFFF#32) wenginesServe17 :=
  ⟨ran (h.1 wenginesServe1 9 ((wenginesServe1.on 9).landDue) rfl (by decide +kernel) (by decide +kernel)),
   ran (h.1 wenginesServe2 9 ((wenginesServe2.on 9).landDue) rfl (by decide +kernel) (by decide +kernel)),
   ran (h.2.1 wenginesServe3 9 ((wenginesServe3.on 9).landDue) rfl (.inl (by decide +kernel))),
   ran (h.2.1 wenginesServe4 9 ((wenginesServe4.on 9).landDue) rfl (.inr ⟨9, by decide +kernel, by decide +kernel⟩)),
   by refine ran (h.2.2.1 wenginesServe5 9 95 2400 .b 47 ((wenginesServe5.on 9).landDue) rfl ⟨ ?_ , ?_ , ?_ , ?_ , ?_ , ?_ , ?_ , ?_ , ?_ ⟩ ?_) <;> decide +kernel,
   by refine ran (h.2.2.2.1 wenginesServe6 9 95 2400 .b 47 .uncorrectable ((wenginesServe6.on 9).landDue) rfl ⟨ ?_ , ?_ , ?_ , ?_ , ?_ , ?_ , ?_ , ?_ , ?_ ⟩ (.inl rfl)) <;> decide +kernel,
   by refine ran (h.2.2.2.1 wenginesServe7 9 95 2400 .b 47 .badDma ((wenginesServe7.on 9).landDue) rfl ⟨ ?_ , ?_ , ?_ , ?_ , ?_ , ?_ , ?_ , ?_ , ?_ ⟩ (.inr rfl)) <;> decide +kernel,
   by refine ran (h.2.2.2.2.1 wenginesServe8 9 95 .b 47 ((wenginesServe8.on 9).landDue) rfl ?_ ?_ ?_ ?_ ?_ ?_) <;> decide +kernel,
   ⟨_, ran (h.2.2.2.2.2.1 wenginesServe9 9 95 .b 47 .corrected _ ((wenginesServe9.on 9).landDue) rfl (by decide +kernel) (by decide +kernel) (by decide +kernel) (.inl ⟨rfl, by decide, .inr (.inl (by decide +kernel))⟩))⟩,
   ⟨_, ran (h.2.2.2.2.2.1 wenginesServe10 9 95 .b 47 .corrected _ ((wenginesServe10.on 9).landDue) rfl (by decide +kernel) (by decide +kernel) (by decide +kernel) (.inr ⟨rfl, .inr (.inl (by decide +kernel))⟩))⟩,
   by refine ran (h.2.2.2.2.2.2.1 wenginesServe11 9 95 .b 47 true ((wenginesServe11.on 9).landDue) rfl ?_ ?_ ?_ ?_) <;> decide +kernel,
   by refine ran (h.2.2.2.2.2.2.1 wenginesServe12 9 95 .b 47 false ((wenginesServe12.on 9).landDue) rfl ?_ ?_ ?_ ?_) <;> decide +kernel,
   by refine ran (h.2.2.2.2.2.2.1 wenginesServe13 9 95 .b 47 true ((wenginesServe13.on 9).landDue) rfl ?_ ?_ ?_ ?_) <;> decide +kernel,
   by refine ran (h.2.2.2.2.2.2.2.1 wenginesServe14 9 95 .b 47 ((wenginesServe14.on 9).landDue) rfl ?_ ?_ ?_ ?_ ?_ ?_) <;> decide +kernel,
   ran (h.2.2.2.2.2.2.2.2.1 wenginesServe15 9 .b 0xFFFFFFFF#32 ((wenginesServe15.on 9).landDue) rfl (by decide +kernel) (by decide +kernel)),
   ran (h.2.2.2.2.2.2.2.2.2.1 wenginesServe16 9 .b 0xFFFFFFFF#32 ((wenginesServe16.on 9).landDue) rfl (by decide +kernel) (by decide +kernel)),
   ran (h.2.2.2.2.2.2.2.2.2.2 wenginesServe17 9 .b true 0xFFFFFFFF#32 ((wenginesServe17.on 9).landDue) rfl (.inl (by decide +kernel)))⟩

def wchannelFrames1 : State := st fun d => cnv (fun o => { o with owned := 1794 }) d
def wchannelFrames2 : State := st fun d => cnv (fun o => { o with depth := 3, profile := 1, owned := 1794, bufs := [(0, { n := 98, cnt := 7, complete := some (4 * secU - 5) }), (1, { n := 97, cnt := 6, complete := some (3 * secU) })] }) d
def wchannelFrames3 : State := st fun d => cnv (fun o => { o with depth := 3, profile := 1, owned := 1794, e := 90, bufs := [(0, { n := 98, cnt := 7, complete := some (4 * secU - 5) }), (1, { n := 97, cnt := 6, complete := some (3 * secU) })] }) d
def wchannelFrames4 : State := st fun d => cnv (fun o => { o with depth := 3, profile := 1, owned := 1794, e := 90 }) d
def wchannelFrames5 : State := st id
def wchannelFrames6 : State := st fun d => cnv id d
def wchannelFrames7 : State := st fun d => d.modOwner .b 1151 fun o => { o with closing := true, owned := 4, reserved := 2, tokens := 3, credit := ⟨1, 1, 0⟩ }
def wchannelFrames8 : State := st fun d => d.modOwner .b 4095 fun o => { o with closing := true, owned := 4, tokens := 3, ctx := true }
def wchannelFrames9 : State := st fun d => (d.modOwner .b 2400 fun o => { o with closing := true, owned := 4, tokens := 3, ctx := true, engines := [47], credit := ⟨1, 1, 1⟩ }).modEngine .b 47 fun x => { x with state := 1, loads := [2400] }
def wchannelFrames10 : State := st id
def wchannelFrames11 : State := st fun d => d.modOwner .b 1151 fun o => { o with closing := true, closeAt := 100 }

theorem test_ChannelFrames (h : Obligations.ChannelFrames) :
    Ran (.pacingInstant 9 .a 2304 100) wchannelFrames1
    ∧ Ran (.pacingInstant 9 .a 2304 100) wchannelFrames2
    ∧ Ran (.pacingInstant 9 .a 2304 100) wchannelFrames3
    ∧ Ran (.pacingInstant 9 .a 2304 100) wchannelFrames4
    ∧ Ran (.pacingInstant 9 .a 1151 100) wchannelFrames5
    ∧ Ran (.pacingInstant 9 .a 2304 101) wchannelFrames6
    ∧ Ran (.resourceReturn 9 .b 1151) wchannelFrames7
    ∧ Ran (.resourceReturn 9 .b 4095) wchannelFrames8
    ∧ Ran (.resourceReturn 9 .b 2400) wchannelFrames9
    ∧ Ran (.resourceReturn 9 .b 1151) wchannelFrames10
    ∧ Ran (.resourceReturn 9 .b 1151) wchannelFrames11 :=
  ⟨by refine ran (h.1 wchannelFrames1 9 2304 100 _ _ _ .a _ ((wchannelFrames1.on 9).landDue) rfl ?_ ?_ rfl rfl rfl ?_ ?_ ?_ ?_ ?_ ?_ ?_ ?_ ?_ ?_ rfl rfl ?_ ?_ rfl) <;> decide +kernel,
   by refine ran (h.1 wchannelFrames2 9 2304 100 _ _ _ .a _ ((wchannelFrames2.on 9).landDue) rfl ?_ ?_ rfl rfl rfl ?_ ?_ ?_ ?_ ?_ ?_ ?_ ?_ ?_ ?_ rfl rfl ?_ ?_ rfl) <;> decide +kernel,
   by refine ran (h.1 wchannelFrames3 9 2304 100 _ _ _ .a _ ((wchannelFrames3.on 9).landDue) rfl ?_ ?_ rfl rfl rfl ?_ ?_ ?_ ?_ ?_ ?_ ?_ ?_ ?_ ?_ rfl rfl ?_ ?_ rfl) <;> decide +kernel,
   by refine ran (h.1 wchannelFrames4 9 2304 100 _ _ _ .a _ ((wchannelFrames4.on 9).landDue) rfl ?_ ?_ rfl rfl rfl ?_ ?_ ?_ ?_ ?_ ?_ ?_ ?_ ?_ ?_ rfl rfl ?_ ?_ rfl) <;> decide +kernel,
   ran (h.2.1 wchannelFrames5 9 1151 100 .a ((wchannelFrames5.on 9).landDue) rfl (by decide +kernel) (.inl (by decide +kernel))),
   ran (h.2.1 wchannelFrames6 9 2304 101 .a ((wchannelFrames6.on 9).landDue) rfl (by decide +kernel) (.inr (.inr (.inr (.inr (.inl (by decide +kernel))))))),
   by refine ran (h.2.2.1 wchannelFrames7 9 1151 .b _ ((wchannelFrames7.on 9).landDue) rfl ?_ ?_ rfl ?_ ?_ ?_ ?_) <;> decide +kernel,
   by refine ran (h.2.2.1 wchannelFrames8 9 4095 .b _ ((wchannelFrames8.on 9).landDue) rfl ?_ ?_ rfl ?_ ?_ ?_ ?_) <;> decide +kernel,
   by refine ran (h.2.2.2.1 wchannelFrames9 9 2400 .b _ ((wchannelFrames9.on 9).landDue) rfl ?_ ?_ rfl ?_ ?_ ?_ ?_ ?_) <;> decide +kernel,
   ran (h.2.2.2.2 wchannelFrames10 9 1151 .b ((wchannelFrames10.on 9).landDue) rfl (by decide +kernel) (.inl (by decide +kernel))),
   ran (h.2.2.2.2 wchannelFrames11 9 1151 .b ((wchannelFrames11.on 9).landDue) rfl (by decide +kernel) (.inr (by decide +kernel)))⟩

def weventRecords1 : State := st fun d => (((((d.modSrc 4611 fun x => { x with wait := [{ code := 0x11, merged := true }, { code := 0x13, gatherEnd := some 4 }] }).put F.HIF_EV_ROUTE_enable true 4).put F.HIF_EV_ROUTE_enable false 20).wr F.HIF_EV_ROUTE_ring 31 4).put F.HIF_EVR_CFG_enable true 31)
def weventRecords2 : State := st fun d => (((((d.modSrc 6652 fun x => { x with wait := [{ code := 0x70 }] }).put F.HIF_EV_ROUTE_enable true 29).put F.HIF_EV_ROUTE_enable false 13).wr F.HIF_EV_ROUTE_ring 31 29).put F.HIF_EVR_CFG_enable true 63)
def weventRecords3 : State := st fun d => (((((d.modSrc 6652 fun x => { x with wait := [{ code := 0x70 }] }).put F.HIF_EV_ROUTE_enable true 29).put F.HIF_EV_ROUTE_enable false 13).wr F.HIF_EV_ROUTE_ring 31 29).put F.HIF_EVR_CFG_enable true 63).wr F.HIF_EVR_STATUS_pi 63 63
def weventRecords4 : State := st fun d => d.modSrc 6710 fun x => { x with last := some 0 }
def weventRecords5 : State := st fun d => { (((((d.modSrc 6710 fun x => { x with last := some 3, wait := [{ code := 0x11, occ := 3, gatherEnd := some 4, covers := [6624] }] }).put F.HIF_EV_ROUTE_enable true 8).put F.HIF_EV_ROUTE_enable true 24).put F.HIF_EV_CTRL_fold_en true 0).put F.HIF_EV_CTRL_fold_en true 1) with ev := { srcs := [(6710, { last := some 3, wait := [{ code := 0x11, occ := 3, gatherEnd := some 4, covers := [6624] }] })], causes := [{ src := 6624, id := 3 }] } }
def weventRecords6 : State := st fun d => d.modSrc 6710 fun x => { x with last := some 3, wait := [{ code := 0x11, gatherEnd := some 4 }] }

theorem test_EventRecords (h : Obligations.EventRecords) :
    Ran (.rateLimitExpiry 9 4611) weventRecords1
    ∧ Ran (.rateLimitExpiry 9 6652) weventRecords2
    ∧ Ran (.rateLimitExpiry 9 6652) weventRecords3
    ∧ Ran (.rateLimitExpiry 9 6710) weventRecords4
    ∧ Ran (.gatherExpiry 9 6710) weventRecords5
    ∧ Ran (.gatherExpiry 9 6710) weventRecords6 :=
  ⟨by refine ran (h.1 weventRecords1 9 4611 31 .a { code := 0x11, merged := true } [{ code := 0x13, gatherEnd := some 4 }] (weventRecords1.on 9) rfl ⟨ ?_ , ?_ , ?_ , (by intro l h; cases h), ?_ , ?_ , ?_ , ?_ , ?_ , ?_ , ?_ , ?_ ⟩ ?_ ?_ ?_) <;> decide +kernel,
   by refine ran (h.1 weventRecords2 9 6652 31 .b { code := 0x70 } [] (weventRecords2.on 9) rfl ⟨ ?_ , ?_ , ?_ , (by intro l h; cases h), ?_ , ?_ , ?_ , ?_ , ?_ , ?_ , ?_ , ?_ ⟩ ?_ ?_ ?_) <;> decide +kernel,
   by refine ran (h.2.1 weventRecords3 9 6652 31 .b { code := 0x70 } [] (weventRecords3.on 9) rfl ⟨ ?_ , ?_ , ?_ , (by intro l h; cases h), ?_ , ?_ , ?_ , ?_ , ?_ , ?_ , ?_ , ?_ ⟩ ?_) <;> decide +kernel,
   by refine ranTime (h.2.2.1 weventRecords4 9 6710 0 ?_ ?_ ?_) <;> decide +kernel,
   by refine ran (h.2.2.2.1 weventRecords5 9 6710 4 { code := 0x11, occ := 3, gatherEnd := some 4, covers := [6624] } { src := 6624, id := 3 } (weventRecords5.on 9) rfl ?_ ?_ ?_ ?_ ?_ ?_ (by intro q; cases q <;> decide +kernel)) <;> decide +kernel,
   by refine ran (h.2.2.2.2 weventRecords6 9 6710 4 3 { code := 0x11, gatherEnd := some 4 } (weventRecords6.on 9) rfl ?_ ?_ ?_ ?_ ?_ ?_ ?_) <;> decide +kernel⟩

def wcausesEnd1 : State := st fun d => { d with ev := { d.ev with causes := [{ src := 6624, id := 3, cond := false }, { src := 6631, id := 4 }] } }
def wcausesEnd2 : State := st fun d => { d with ev := { d.ev with causes := [{ src := 6624, id := 3, cond := false }, { src := 6631, id := 4 }] } }
def wcausesEnd3 : State := st fun d => { d with ev := { d.ev with causes := [{ src := 6661, id := 3 }, { src := 6631, id := 4 }] } }
def wcausesEnd4 : State := st id
def wcausesEnd5 : State := st fun d => { ((((d.put F.HIF_EV_ROUTE_enable true 30).wr F.HIF_FOLD_BASE_LO_addr 5 1).wr F.CMX_RMB_STATUS_state 1 3)) with ev := { d.ev with causes := [{ src := 6661, id := 3, dirty := ⟨false, true⟩, maps := ⟨[], [4]⟩ }] } }
def wcausesEnd6 : State := st fun d => { ((((d.put F.HIF_EV_ROUTE_enable true 30).wr F.HIF_FOLD_BASE_LO_addr 5 1).wr F.CMX_RMB_STATUS_state 1 3)) with ev := { d.ev with causes := [{ src := 6661, id := 3, dirty := ⟨false, true⟩, maps := ⟨[], [4]⟩ }] } }

theorem test_CausesEnd (h : Obligations.CausesEnd) :
    Ran (.causeSettleExpiry (2 * secU) 6624) wcausesEnd1
    ∧ Ran (.causeSettleExpiry (2 * secU - 1) 6624) wcausesEnd2
    ∧ Ran (.squallEnd secU) wcausesEnd3
    ∧ Ran (.squallEnd 9) wcausesEnd4
    ∧ Ran (.foldSlotRewrite (10 * msU) .b 11 true) wcausesEnd5
    ∧ Ran (.foldSlotRewrite (10 * msU) .b 11 false) wcausesEnd6 :=
  ⟨by refine ran (h.1 wcausesEnd1 (2 * secU) 6624 { src := 6624, id := 3, cond := false } (wcausesEnd1.on (2 * secU)) rfl ?_ ?_ ?_ ?_ ?_ ?_ ?_) <;> decide +kernel,
   ranTime (h.2.1 wcausesEnd2 (2 * secU - 1) 6624 (wcausesEnd2.on (2 * secU - 1)) rfl (by decide +kernel) (by decide +kernel)),
   by refine ran (h.2.2.1 wcausesEnd3 secU { src := 6661, id := 3 } (wcausesEnd3.on secU) rfl ?_ ?_ ?_ ?_) <;> decide +kernel,
   ranTime (h.2.2.2.1 wcausesEnd4 9 (by decide +kernel)),
   by refine ran (h.2.2.2.2.1 wcausesEnd5 (10 * msU) 11 1 .b { src := 6661, id := 3, dirty := ⟨false, true⟩, maps := ⟨[], [4]⟩ } (wcausesEnd5.on (10 * msU)) rfl ?_ ?_ ?_ ?_ ?_ ?_ ?_ ?_) <;> decide +kernel,
   by refine ran (h.2.2.2.2.2 wcausesEnd6 (10 * msU) 11 .b { src := 6661, id := 3, dirty := ⟨false, true⟩, maps := ⟨[], [4]⟩ } (wcausesEnd6.on (10 * msU)) rfl ?_ ?_ ?_ ?_ ?_ ?_ ?_) <;> decide +kernel⟩

def wcrystalMonitors1 : State := st fun d => { d with start := { d.start with booted := true } }
def wcrystalMonitors2 : State := st fun d => { (d.setTbState .a 0) with start := { d.start with booted := true } }
def wcrystalMonitors3 : State := st id
def wcrystalMonitors4 : State := st fun d => { (d.wr F.GLB_START_phase 1) with clk := { d.clk with xaMon := true, xaFailed := true } }
def wcrystalMonitors5 : State := st fun d => { (d.wr F.GLB_START_phase 3) with clk := { d.clk with xaMon := true } }
def wcrystalMonitors6 : State := st fun d => { d with clk := { d.clk with xaMon := true } }
def wcrystalMonitors7 : State := st fun d => { (((d.put F.CLK_STATUS_xb_lane_fit true).put F.CLK_STATUS_xa_usable true).wr F.CLK_STATUS_ls_a_state 1) with clk := { d.clk with xaMon := true } }
def wcrystalMonitors8 : State := st fun d => { (((d.put F.GLB_START_laneref true).put F.CLK_STATUS_xa_usable true).wr F.CLK_STATUS_ls_b_state 1) with clk := { d.clk with xaMon := true } }
def wcrystalMonitors9 : State := st fun d => { ((((d.put F.CLK_STATUS_xb_lane_fit true).put F.CLK_STATUS_ls_b_src true).wr F.CLK_STATUS_ls_a_state 1).wr F.CLK_STATUS_ls_b_state 1) with clk := { d.clk with xaMon := true } }
def wcrystalMonitors10 : State := st fun d => { (((d.put F.CLK_STATUS_xb_lane_fit true).put F.CLK_STATUS_xa_usable true).wr F.CLK_STATUS_ls_a_state 1) with clk := { d.clk with xaMon := true } }
def wcrystalMonitors11 : State := st fun d => { (ln 5 6 (d.put F.CLK_STATUS_xa_usable true)) with clk := { d.clk with xaMon := true } }
def wcrystalMonitors12 : State := st id
def wcrystalMonitors13 : State := st fun d => { d with clk := { d.clk with xaMon := true, xaFailed := true } }
def wcrystalMonitors14 : State := st fun d => { d with clk := { d.clk with xaMon := true } }
def wcrystalMonitors15 : State := st fun d => { d with clk := { d.clk with xaMon := true } }
def wcrystalMonitors16 : State := st fun d => ((d.put F.CLK_STATUS_xa_usable true).put F.CLK_XB_CFG_fitted true).wr F.CLK_XB_STATUS_passed 2
def wcrystalMonitors17 : State := st fun d => ((d.put F.CLK_STATUS_xa_usable true).put F.CLK_XB_CFG_fitted true).wr F.CLK_XB_CFG_tol 200
def wcrystalMonitors18 : State := st fun d => (((d.put F.CLK_STATUS_xa_usable true).put F.CLK_XB_CFG_fitted true).wr F.CLK_XB_STATUS_passed 3).wr F.CLK_XB_CFG_tol 50
def wcrystalMonitors19 : State := st fun d => (((d.put F.CLK_STATUS_xa_usable true).put F.CLK_XB_CFG_fitted true).wr F.CLK_XB_STATUS_passed 4).wr F.CLK_XB_CFG_tol 50
def wcrystalMonitors20 : State := st fun d => ((d.put F.CLK_STATUS_xa_usable true).put F.CLK_XB_CFG_fitted true).wr F.CLK_XB_STATUS_passed 3
def wcrystalMonitors21 : State := st fun d => ((d.put F.CLK_STATUS_xa_usable true).put F.CLK_XB_CFG_fitted true).wr F.CLK_XB_STATUS_passed 3
def wcrystalMonitors22 : State := st fun d => (d.put F.CLK_STATUS_xa_usable true).wr F.CLK_XB_STATUS_passed 3
def wcrystalMonitors23 : State := st fun d => (d.put F.CLK_XB_CFG_fitted true).wr F.CLK_XB_STATUS_passed 3
def wcrystalMonitors24 : State := st fun d => (((d.put F.CLK_STATUS_xa_usable true).put F.CLK_STATUS_xb_qualified true).put F.CLK_XB_CFG_fitted true).wr F.CLK_XB_STATUS_passed 4
def wcrystalMonitors25 : State := st fun d => (((d.put F.CLK_STATUS_xa_usable true).put F.CLK_STATUS_xb_qualified true).put F.CLK_STATUS_xb_lane_fit true).put F.CLK_XB_CFG_fitted true
def wcrystalMonitors26 : State := st fun d => (((d.put F.CLK_STATUS_xa_usable true).put F.CLK_STATUS_xb_qualified true).put F.CLK_STATUS_xb_lane_fit true).put F.CLK_XB_CFG_fitted true
def wcrystalMonitors27 : State := st fun d => { ((((d.put F.CLK_STATUS_xa_usable true).put F.CLK_STATUS_xb_qualified true).put F.CLK_STATUS_ls_b_src true).wr F.CLK_STATUS_ls_b_state 1).put F.CLK_XB_CFG_fitted true with clk := { d.clk with xbOffset := -5, xbOut := 1 } }
def wcrystalMonitors28 : State := st fun d => { ((((d.put F.CLK_STATUS_xa_usable true).put F.CLK_STATUS_xb_qualified true).put F.CLK_STATUS_ls_b_src true).wr F.CLK_STATUS_ls_b_state 1).put F.CLK_XB_CFG_fitted true with clk := { d.clk with xbOffset := -5 } }
def wcrystalMonitors29 : State := st fun d => { (((((((d.setTbState .a 2).wr F.TB_STATUS_sel 3).setBit F.TB_STATUS_qualified 3 true)).put F.CLK_STATUS_xa_usable true).put F.CLK_STATUS_xb_qualified true).put F.CLK_XB_CFG_fitted true) with clk := { d.clk with xaMon := true, xbOut := 1 } }
def wcrystalMonitors30 : State := st fun d => { (((((((d.setTbState .a 2).wr F.TB_STATUS_sel 3).setBit F.TB_STATUS_qualified 3 true)).put F.CLK_STATUS_xa_usable true).put F.CLK_STATUS_xb_qualified true).put F.CLK_XB_CFG_fitted true) with clk := { d.clk with xaMon := true, xbOut := 1 } }
def wcrystalMonitors31 : State := st fun d => { (((((((d.setTbState .a 2).wr F.TB_STATUS_sel 3).setBit F.TB_STATUS_qualified 3 true)).put F.CLK_STATUS_xa_usable true).put F.CLK_STATUS_xb_qualified true).put F.CLK_XB_CFG_fitted true) with clk := { d.clk with xaMon := true, xbOut := 1 } }
def wcrystalMonitors32 : State := st id
def wcrystalMonitors33 : State := st fun d => { (((d.put F.CLK_STATUS_xb_qualified true).put F.CLK_STATUS_ls_b_src true).wr F.CLK_STATUS_ls_b_state 1) with clk := { d.clk with xbOffset := -5 } }
def wcrystalMonitors34 : State := st id

theorem test_CrystalMonitors (h : Obligations.CrystalMonitors) :
    Ran (.xaStartDelayExpiry (2000 * msU)) wcrystalMonitors1
    ∧ Ran (.xaStartDelayExpiry (2000 * msU)) wcrystalMonitors2
    ∧ Ran (.xaStartDelayExpiry 9) wcrystalMonitors3
    ∧ Ran (.xaUsable (2000 * msU)) wcrystalMonitors4
    ∧ Ran (.xaUsable msU) wcrystalMonitors5
    ∧ Ran (.xaUsable (msU - 1)) wcrystalMonitors6
    ∧ Ran (.xaEdgeTimeout 9) wcrystalMonitors7
    ∧ Ran (.xaEdgeTimeout 9) wcrystalMonitors8
    ∧ Ran (.xaEdgeTimeout 9) wcrystalMonitors9
    ∧ Ran (.xaCountCheck 9 589) wcrystalMonitors10
    ∧ Ran (.xaCountCheck 9 435) wcrystalMonitors11
    ∧ Ran (.xaEdgeTimeout 9) wcrystalMonitors12
    ∧ Ran (.xaEdgeTimeout 9) wcrystalMonitors13
    ∧ Ran (.xaCountCheck 9 588) wcrystalMonitors14
    ∧ Ran (.xaCountCheck 9 436) wcrystalMonitors15
    ∧ Ran (.xbWindow (100 * msU) (-1000) false 0 0) wcrystalMonitors16
    ∧ Ran (.xbWindow (100 * msU) 200000 false 0 0) wcrystalMonitors17
    ∧ Ran (.xbWindow (100 * msU) (-30000) false 0 0) wcrystalMonitors18
    ∧ Ran (.xbWindow (100 * msU) 30001 false 0 0) wcrystalMonitors19
    ∧ Ran (.xbWindow (100 * msU) (-1000001) false 0 0) wcrystalMonitors20
    ∧ Ran (.xbWindow (100 * msU) 0 true 0 0) wcrystalMonitors21
    ∧ Ran (.xbWindow (100 * msU) 5 true 0 0) wcrystalMonitors22
    ∧ Ran (.xbWindow (100 * msU) 5 false 0 0) wcrystalMonitors23
    ∧ Ran (.xbWindow (100 * msU) (-30001) false 0 0) wcrystalMonitors24
    ∧ Ran (.xbWindow (100 * msU) 30000 false 0 0) wcrystalMonitors25
    ∧ Ran (.xbWindow (100 * msU) 1000001 false 0 0) wcrystalMonitors26
    ∧ Ran (.xbWindow (100 * msU) 1000001 false 0 0) wcrystalMonitors27
    ∧ Ran (.xbWindow (100 * msU) 0 true 0 0) wcrystalMonitors28
    ∧ Ran (.xbWindow (100 * msU) 1000001 false 1000001 1000000) wcrystalMonitors29
    ∧ Ran (.xbWindow (100 * msU) 1000001 false 1000001 (-1000001)) wcrystalMonitors30
    ∧ Ran (.xbWindow (100 * msU) 1000001 false 1000000 (-1000000)) wcrystalMonitors31
    ∧ Ran (.xbWindow 9 5 false 0 0) wcrystalMonitors32
    ∧ Ran (.xbEdgeGap 9) wcrystalMonitors33
    ∧ Ran (.xbEdgeGap 9) wcrystalMonitors34 :=
  ⟨by refine ran (h.1 wcrystalMonitors1 (2000 * msU) (wcrystalMonitors1.on (2000 * msU)) rfl ?_ ?_ ?_) <;> decide +kernel,
   by refine ran (h.1 wcrystalMonitors2 (2000 * msU) (wcrystalMonitors2.on (2000 * msU)) rfl ?_ ?_ ?_) <;> decide +kernel,
   ranTime (h.2.1 wcrystalMonitors3 9 (wcrystalMonitors3.on 9) rfl (by decide +kernel)),
   by refine ran (h.2.2.1 wcrystalMonitors4 (2000 * msU) (wcrystalMonitors4.on (2000 * msU)) rfl ?_ ?_ ?_ ?_) <;> decide +kernel,
   by refine ran (h.2.2.1 wcrystalMonitors5 msU (wcrystalMonitors5.on msU) rfl ?_ ?_ ?_ ?_) <;> decide +kernel,
   ranTime (h.2.2.2.1 wcrystalMonitors6 (msU - 1) (wcrystalMonitors6.on (msU - 1)) rfl (by decide +kernel)),
   ran (h.2.2.2.2.1 wcrystalMonitors7 9 (wcrystalMonitors7.on 9) rfl (by decide +kernel) (by decide +kernel)),
   ran (h.2.2.2.2.1 wcrystalMonitors8 9 (wcrystalMonitors8.on 9) rfl (by decide +kernel) (by decide +kernel)),
   ran (h.2.2.2.2.1 wcrystalMonitors9 9 (wcrystalMonitors9.on 9) rfl (by decide +kernel) (by decide +kernel)),
   by refine ran (h.2.2.2.2.2.1 wcrystalMonitors10 9 589 (wcrystalMonitors10.on 9) rfl ?_ ?_ ?_) <;> decide +kernel,
   by refine ran (h.2.2.2.2.2.1 wcrystalMonitors11 9 435 (wcrystalMonitors11.on 9) rfl ?_ ?_ ?_) <;> decide +kernel,
   ran (h.2.2.2.2.2.2.1 wcrystalMonitors12 9 (wcrystalMonitors12.on 9) rfl (by decide +kernel)),
   ran (h.2.2.2.2.2.2.1 wcrystalMonitors13 9 (wcrystalMonitors13.on 9) rfl (by decide +kernel)),
   ranTime (h.2.2.2.2.2.2.2.1 wcrystalMonitors14 9 588 (by decide +kernel)),
   ranTime (h.2.2.2.2.2.2.2.1 wcrystalMonitors15 9 436 (by decide +kernel)),
   by refine ran (h.2.2.2.2.2.2.2.2.1 wcrystalMonitors16 (100 * msU) 1 0 (-1000) 0 0 (wcrystalMonitors16.on (100 * msU)) rfl ⟨ ?_ , ?_ , ?_ , ?_ ⟩ ?_ ?_ ?_) <;> decide +kernel,
   by refine ran (h.2.2.2.2.2.2.2.2.1 wcrystalMonitors17 (100 * msU) 1 0 200000 0 0 (wcrystalMonitors17.on (100 * msU)) rfl ⟨ ?_ , ?_ , ?_ , ?_ ⟩ ?_ ?_ ?_) <;> decide +kernel,
   by refine ran (h.2.2.2.2.2.2.2.2.2.1 wcrystalMonitors18 (100 * msU) 1 0 (-30000) 0 0 (wcrystalMonitors18.on (100 * msU)) rfl ⟨ ?_ , ?_ , ?_ , ?_ ⟩ ?_ ?_ ?_ ?_ ?_) <;> decide +kernel,
   by refine ran (h.2.2.2.2.2.2.2.2.2.1 wcrystalMonitors19 (100 * msU) 1 0 30001 0 0 (wcrystalMonitors19.on (100 * msU)) rfl ⟨ ?_ , ?_ , ?_ , ?_ ⟩ ?_ ?_ ?_ ?_ ?_) <;> decide +kernel,
   by refine ran (h.2.2.2.2.2.2.2.2.2.2.1 wcrystalMonitors20 (100 * msU) 1 0 (-1000001) 0 0 false (wcrystalMonitors20.on (100 * msU)) rfl ⟨ ?_ , ?_ , ?_ , ?_ ⟩ ?_ (.inr ?_ )) <;> decide +kernel,
   by refine ran (h.2.2.2.2.2.2.2.2.2.2.1 wcrystalMonitors21 (100 * msU) 1 0 0 0 0 true (wcrystalMonitors21.on (100 * msU)) rfl ⟨ ?_ , ?_ , ?_ , ?_ ⟩ ?_ (.inl rfl)) <;> decide +kernel,
   ran (h.2.2.2.2.2.2.2.2.2.2.2.1 wcrystalMonitors22 (100 * msU) 5 0 0 true (wcrystalMonitors22.on (100 * msU)) rfl (by decide +kernel) (.inl (by decide +kernel) )),
   ran (h.2.2.2.2.2.2.2.2.2.2.2.1 wcrystalMonitors23 (100 * msU) 5 0 0 false (wcrystalMonitors23.on (100 * msU)) rfl (by decide +kernel) (.inr (by decide +kernel) )),
   by refine ran (h.2.2.2.2.2.2.2.2.2.2.2.2.1 wcrystalMonitors24 (100 * msU) 1 0 (-30001) 0 0 (wcrystalMonitors24.on (100 * msU)) rfl ⟨ ?_ , ?_ , ?_ , ?_ ⟩ ?_ ?_ ?_ (.inr ?_ )) <;> decide +kernel,
   by refine ran (h.2.2.2.2.2.2.2.2.2.2.2.2.1 wcrystalMonitors25 (100 * msU) 1 0 30000 0 0 (wcrystalMonitors25.on (100 * msU)) rfl ⟨ ?_ , ?_ , ?_ , ?_ ⟩ ?_ ?_ ?_ (.inl ?_ )) <;> decide +kernel,
   by refine ran (h.2.2.2.2.2.2.2.2.2.2.2.2.2.1 wcrystalMonitors26 (100 * msU) 1 0 1000001 0 0 (wcrystalMonitors26.on (100 * msU)) rfl ⟨ ?_ , ?_ , ?_ , ?_ ⟩ ?_ ?_ ?_) <;> decide +kernel,
   by refine ran (h.2.2.2.2.2.2.2.2.2.2.2.2.2.2.1 wcrystalMonitors27 (100 * msU) 1 0 1000001 0 0 false false (wcrystalMonitors27.on (100 * msU)) rfl ⟨ ?_ , ?_ , ?_ , ?_ ⟩ ?_ ?_ (.inr ?_ )) <;> decide +kernel,
   by refine ran (h.2.2.2.2.2.2.2.2.2.2.2.2.2.2.1 wcrystalMonitors28 (100 * msU) 1 0 0 0 0 true false (wcrystalMonitors28.on (100 * msU)) rfl ⟨ ?_ , ?_ , ?_ , ?_ ⟩ ?_ ?_ (.inl rfl)) <;> decide +kernel,
   by refine ran (h.2.2.2.2.2.2.2.2.2.2.2.2.2.2.1 wcrystalMonitors29 (100 * msU) 1 0 1000001 1000001 1000000 false true (wcrystalMonitors29.on (100 * msU)) rfl ⟨ ?_ , ?_ , ?_ , ?_ ⟩ ?_ ?_ (.inr ?_ )) <;> decide +kernel,
   by refine ran (h.2.2.2.2.2.2.2.2.2.2.2.2.2.2.1 wcrystalMonitors30 (100 * msU) 1 0 1000001 1000001 (-1000001) false true (wcrystalMonitors30.on (100 * msU)) rfl ⟨ ?_ , ?_ , ?_ , ?_ ⟩ ?_ ?_ (.inr ?_ )) <;> decide +kernel,
   by refine ran (h.2.2.2.2.2.2.2.2.2.2.2.2.2.2.1 wcrystalMonitors31 (100 * msU) 1 0 1000001 1000000 (-1000000) false true (wcrystalMonitors31.on (100 * msU)) rfl ⟨ ?_ , ?_ , ?_ , ?_ ⟩ ?_ ?_ (.inr ?_ )) <;> decide +kernel,
   ranTime (h.2.2.2.2.2.2.2.2.2.2.2.2.2.2.2.1 wcrystalMonitors32 9 5 0 0 false (by decide +kernel)),
   ran (h.2.2.2.2.2.2.2.2.2.2.2.2.2.2.2.2.1 wcrystalMonitors33 9 (wcrystalMonitors33.on 9) rfl (by decide +kernel)),
   ranTime (h.2.2.2.2.2.2.2.2.2.2.2.2.2.2.2.2.2 wcrystalMonitors34 9 (by decide +kernel))⟩

def wlaneSynthesizers1 : State := st fun d => (d.wr F.CLK_STATUS_ls_b_state 2).put F.CLK_STATUS_xb_lane_fit true
def wlaneSynthesizers2 : State := st fun d => (d.wr F.CLK_STATUS_ls_b_state 2).put F.CLK_STATUS_xa_usable true
def wlaneSynthesizers3 : State := st fun d => { (((d.wr F.CLK_STATUS_ls_a_state 2).put F.CLK_STATUS_xb_lane_fit true).put F.CLK_STATUS_ls_a_src true) with clk := { d.clk with lsLockLost := ⟨true, false⟩ } }
def wlaneSynthesizers4 : State := st fun d => { (((d.wr F.CLK_STATUS_ls_a_state 2).put F.CLK_STATUS_xa_usable true).put F.CLK_STATUS_ls_a_src true) with clk := { d.clk with lsReturn := ⟨true, false⟩ } }
def wlaneSynthesizers5 : State := st fun d => d.put F.CLK_STATUS_xa_usable true
def wlaneSynthesizers6 : State := st fun d => d.wr F.CLK_STATUS_ls_a_state 2
def wlaneSynthesizers7 : State := st fun d => d.wr F.CLK_STATUS_ls_a_state 1
def wlaneSynthesizers8 : State := st fun d => d.wr F.CLK_STATUS_ls_a_state 3
def wlaneSynthesizers9 : State := st fun d => { (d.wr F.CLK_STATUS_ls_a_state 2) with clk := { d.clk with lsLockLost := ⟨true, false⟩ } }
def wlaneSynthesizers10 : State := st fun d => { ((d.wr F.CLK_STATUS_ls_b_state 2).wr F.CLK_STATUS_ls_a_state 3) with clk := { d.clk with lsLockLost := ⟨true, true⟩ } }
def wlaneSynthesizers11 : State := st fun d => { ((d.wr F.CLK_STATUS_ls_b_state 2).put F.GLB_START_laneref true) with clk := { d.clk with lsLockLost := ⟨true, true⟩ } }
def wlaneSynthesizers12 : State := st fun d => { (d.wr F.CLK_STATUS_ls_a_state 2) with clk := { d.clk with lsLockLost := ⟨true, false⟩ } }
def wlaneSynthesizers13 : State := st fun d => ((d.put F.CLK_STATUS_xa_usable true).wr F.CLK_STATUS_ls_b_state 1).put F.CLK_STATUS_ls_b_src true
def wlaneSynthesizers14 : State := st id

theorem test_LaneSynthesizers (h : Obligations.LaneSynthesizers) :
    Ran (.lsRelock 9 .b) wlaneSynthesizers1
    ∧ Ran (.lsRelock 9 .b) wlaneSynthesizers2
    ∧ Ran (.lsRelock 9 .a) wlaneSynthesizers3
    ∧ Ran (.lsRelock 9 .a) wlaneSynthesizers4
    ∧ Ran (.lsRelock 9 .b) wlaneSynthesizers5
    ∧ Ran (.lsRelock 9 .a) wlaneSynthesizers6
    ∧ Ran (.lsLockLost 9 .a) wlaneSynthesizers7
    ∧ Ran (.lsLockLost 9 .a) wlaneSynthesizers8
    ∧ Ran (.lsRelockTimeout (50 * msU) .a) wlaneSynthesizers9
    ∧ Ran (.lsRelockTimeout (50 * msU) .b) wlaneSynthesizers10
    ∧ Ran (.lsRelockTimeout (50 * msU) .b) wlaneSynthesizers11
    ∧ Ran (.lsRelockTimeout (50 * msU - 1) .a) wlaneSynthesizers12
    ∧ Ran (.lsToXa 9) wlaneSynthesizers13
    ∧ Ran (.lsToXa 9) wlaneSynthesizers14 :=
  ⟨by refine ran (h.1 wlaneSynthesizers1 9 .b true (wlaneSynthesizers1.on 9) rfl ?_ ?_ ?_) <;> decide +kernel,
   by refine ran (h.1 wlaneSynthesizers2 9 .b false (wlaneSynthesizers2.on 9) rfl ?_ ?_ ?_) <;> decide +kernel,
   by refine ran (h.1 wlaneSynthesizers3 9 .a true (wlaneSynthesizers3.on 9) rfl ?_ ?_ ?_) <;> decide +kernel,
   by refine ran (h.1 wlaneSynthesizers4 9 .a false (wlaneSynthesizers4.on 9) rfl ?_ ?_ ?_) <;> decide +kernel,
   ranTime (h.2.1 wlaneSynthesizers5 9 .b (wlaneSynthesizers5.on 9) rfl (by decide +kernel)),
   ranTime (h.2.1 wlaneSynthesizers6 9 .a (wlaneSynthesizers6.on 9) rfl (by decide +kernel)),
   ran (h.2.2.1 wlaneSynthesizers7 9 .a (wlaneSynthesizers7.on 9) rfl (by decide +kernel)),
   ranTime (h.2.2.2.1 wlaneSynthesizers8 9 .a (by decide +kernel)),
   ran (h.2.2.2.2.1 wlaneSynthesizers9 (50 * msU) .a (wlaneSynthesizers9.on (50 * msU)) rfl (by decide +kernel) (by decide +kernel)),
   ran (h.2.2.2.2.1 wlaneSynthesizers10 (50 * msU) .b (wlaneSynthesizers10.on (50 * msU)) rfl (by decide +kernel) (by decide +kernel)),
   ran (h.2.2.2.2.1 wlaneSynthesizers11 (50 * msU) .b (wlaneSynthesizers11.on (50 * msU)) rfl (by decide +kernel) (by decide +kernel)),
   ranTime (h.2.2.2.2.2.1 wlaneSynthesizers12 (50 * msU - 1) .a (by decide +kernel)),
   ran (h.2.2.2.2.2.2.1 wlaneSynthesizers13 9 (wlaneSynthesizers13.on 9) rfl (by decide +kernel)),
   ran (h.2.2.2.2.2.2.2 wlaneSynthesizers14 9 (wlaneSynthesizers14.on 9) rfl (by decide +kernel))⟩

def wsafeState1 : State := st fun d => ln 5 6 (ras d)
def wsafeState2 : State := st fun d => { ((d.put F.GLB_START_laneref true).wr F.CLK_STATUS_ls_a_state 2) with clk := { d.clk with xaFailed := true, xaMon := true, cko := [(3, some { mode := 2, idle := false, src := 4, div := 2 })] } }
def wsafeState3 : State := st fun d => (d.wr F.CLK_STATUS_ls_a_state 3).wr F.CLK_STATUS_ls_b_state 3
def wsafeState4 : State := st fun d => { ((d.put F.CLK_STATUS_safe true).wr F.CLK_STATUS_ls_a_state 2) with clk := { d.clk with xaFailed := true, triggers := [3] } }
def wsafeState5 : State := st id
def wsafeState6 : State := st fun d => d.wr F.CLK_STATUS_ls_b_state 2
def wsafeState7 : State := st fun d => { ((d.wr F.CLK_STATUS_ls_b_state 2).put F.CLK_STATUS_safe true) with clk := { d.clk with triggers := [1] } }
def wsafeState8 : State := st fun d => (d.wr F.CLK_STATUS_ls_b_state 2).put F.CLK_STATUS_xa_usable true
def wsafeState9 : State := st fun d => d.wr F.CLK_STATUS_ls_b_state 2
def wsafeState10 : State := st fun d => { (((ln 5 6 (ras d)).put F.CLK_STATUS_safe true).wr F.CLK_STATUS_ls_a_state 3) with clk := { d.clk with xaMon := true, triggers := [1, 3] } }
def wsafeState11 : State := st fun d => { (((ln 5 6 (ras d)).put F.CLK_STATUS_safe true).wr F.CLK_STATUS_ls_a_state 3) with clk := { d.clk with xaMon := true, triggers := [1, 4] } }

theorem test_SafeState (h : Obligations.SafeState) :
    Ran (.safeStateTrigger 9 4) wsafeState1
    ∧ Ran (.safeStateTrigger 9 1) wsafeState2
    ∧ Ran (.safeStateTrigger 9 3) wsafeState3
    ∧ Ran (.safeStateTrigger 9 1) wsafeState4
    ∧ Ran (.safeStateTrigger 9 3) wsafeState5
    ∧ Ran (.lsCoastExpiry (50 * msU) .b) wsafeState6
    ∧ Ran (.lsCoastExpiry (50 * msU) .b) wsafeState7
    ∧ Ran (.lsCoastExpiry (50 * msU) .b) wsafeState8
    ∧ Ran (.lsCoastExpiry (50 * msU - 1) .b) wsafeState9
    ∧ Ran (.xaUsable (4 * secU)) wsafeState10
    ∧ Ran (.xaUsable (4 * secU)) wsafeState11 :=
  ⟨by refine ran (h.1 wsafeState1 9 4 (wsafeState1.on 9) rfl ?_ ?_ ?_ ?_) <;> decide +kernel,
   by refine ran (h.1 wsafeState2 9 1 (wsafeState2.on 9) rfl ?_ ?_ ?_ ?_) <;> decide +kernel,
   by refine ran (h.1 wsafeState3 9 3 (wsafeState3.on 9) rfl ?_ ?_ ?_ ?_) <;> decide +kernel,
   by refine ran (h.2.1 wsafeState4 9 1 (wsafeState4.on 9) rfl ?_ ?_ ?_ ?_) <;> decide +kernel,
   by refine ranTime (h.2.2.1 wsafeState5 9 3 ?_ ?_ ?_) <;> decide +kernel,
   by refine ran (h.2.2.2.1 wsafeState6 (50 * msU) .b (wsafeState6.on (50 * msU)) rfl ?_ ?_ ?_ ?_) <;> decide +kernel,
   by refine ran (h.2.2.2.2.1 wsafeState7 (50 * msU) .b (wsafeState7.on (50 * msU)) rfl ?_ ?_ ?_) <;> decide +kernel,
   ranTime (h.2.2.2.2.2.1 wsafeState8 (50 * msU) .b (by decide +kernel)),
   ranTime (h.2.2.2.2.2.1 wsafeState9 (50 * msU - 1) .b (by decide +kernel)),
   by refine ran (h.2.2.2.2.2.2.1 wsafeState10 (4 * secU) (wsafeState10.on (4 * secU)) rfl ?_ ?_ ?_ ?_ (fun c h => (by decide +kernel : ∀ c ∈ [1, 3], 1 ≤ c ∧ c ≤ 3) c h)) <;> decide +kernel,
   by refine ran (h.2.2.2.2.2.2.2 wsafeState11 (4 * secU) (wsafeState11.on (4 * secU)) rfl ?_ ?_ ?_ ?_ ?_) <;> decide +kernel⟩

def wlocksOfDelayLinesAndSynthesizers1 : State := st fun d => (d.setReg .GLB_CLKEN1 0 0xFFFFFFFF#32).wr F.CLK_STATUS_ls_a_state 1
def wlocksOfDelayLinesAndSynthesizers2 : State := st fun d => (ln 250 6 ((d.setReg .GLB_CLKEN0 0 0xFFFFFFFF#32).put F.LN_CTRL_enable false 249)).wr F.CLK_STATUS_ls_a_state 2
def wlocksOfDelayLinesAndSynthesizers3 : State := st fun d => (d.setReg .GLB_CLKEN1 0 0xFFFFFFFF#32)
def wlocksOfDelayLinesAndSynthesizers4 : State := st fun d => (d.setReg .GLB_CLKEN0 0 0#32)
def wlocksOfDelayLinesAndSynthesizers5 : State := st fun d => (ln 383 6 (d.put F.LN_OCT_STATUS_om_lock true 47)).setBit F.CLK_OM_LOCK_HI_om_lock 15 true
def wlocksOfDelayLinesAndSynthesizers6 : State := st id
def wlocksOfDelayLinesAndSynthesizers7 : State := st fun d => ((d.setBit F.CLK_STATUS_syn_failed 4 true).setBit F.CLK_STATUS_syn_coast 5 true).put F.CLK_STATUS_xa_usable true
def wlocksOfDelayLinesAndSynthesizers8 : State := st fun d => d.setBit F.CLK_STATUS_syn_lock 5 true
def wlocksOfDelayLinesAndSynthesizers9 : State := st fun d => d.put F.CLK_SYN_N_enable false 5
def wlocksOfDelayLinesAndSynthesizers10 : State := st fun d => d.setBit F.CLK_STATUS_syn_lock 5 true
def wlocksOfDelayLinesAndSynthesizers11 : State := st id
def wlocksOfDelayLinesAndSynthesizers12 : State := st fun d => d.setBit F.CLK_STATUS_syn_coast 3 true
def wlocksOfDelayLinesAndSynthesizers13 : State := st fun d => { (d.setBit F.CLK_STATUS_syn_coast 4 true) with clk := { d.clk with eps := [(4, 77)] } }
def wlocksOfDelayLinesAndSynthesizers14 : State := st fun d => d.setBit F.CLK_STATUS_syn_coast 5 true

theorem test_LocksOfDelayLinesAndSynthesizers (h : Obligations.LocksOfDelayLinesAndSynthesizers) :
    Ran (.omLock 9 47) wlocksOfDelayLinesAndSynthesizers1
    ∧ Ran (.omLock 9 31) wlocksOfDelayLinesAndSynthesizers2
    ∧ Ran (.omLock 9 47) wlocksOfDelayLinesAndSynthesizers3
    ∧ Ran (.omLock 9 0) wlocksOfDelayLinesAndSynthesizers4
    ∧ Ran (.omLockLost 9 47) wlocksOfDelayLinesAndSynthesizers5
    ∧ Ran (.omLockLost 9 47) wlocksOfDelayLinesAndSynthesizers6
    ∧ Ran (.synLock 9 4) wlocksOfDelayLinesAndSynthesizers7
    ∧ Ran (.synLock 9 5) wlocksOfDelayLinesAndSynthesizers8
    ∧ Ran (.synLock 9 5) wlocksOfDelayLinesAndSynthesizers9
    ∧ Ran (.synLockLost 9 5) wlocksOfDelayLinesAndSynthesizers10
    ∧ Ran (.synLockLost 9 5) wlocksOfDelayLinesAndSynthesizers11
    ∧ Ran (.synRelockTimeout (10 * msU) 3) wlocksOfDelayLinesAndSynthesizers12
    ∧ Ran (.synRelockTimeout (10 * msU) 4) wlocksOfDelayLinesAndSynthesizers13
    ∧ Ran (.synRelockTimeout (10 * msU) 5) wlocksOfDelayLinesAndSynthesizers14 :=
  ⟨by refine ran (h.1 wlocksOfDelayLinesAndSynthesizers1 9 47 (wlocksOfDelayLinesAndSynthesizers1.on 9) rfl ?_ ?_ ?_ ?_ ?_ ?_) <;> decide +kernel,
   by refine ran (h.1 wlocksOfDelayLinesAndSynthesizers2 9 31 (wlocksOfDelayLinesAndSynthesizers2.on 9) rfl ?_ ?_ ?_ ?_ ?_ ?_) <;> decide +kernel,
   ranTime (h.2.1 wlocksOfDelayLinesAndSynthesizers3 9 47 (wlocksOfDelayLinesAndSynthesizers3.on 9) rfl (by decide +kernel) (by decide +kernel)),
   ranTime (h.2.1 wlocksOfDelayLinesAndSynthesizers4 9 0 (wlocksOfDelayLinesAndSynthesizers4.on 9) rfl (by decide +kernel) (by decide +kernel)),
   ran (h.2.2.1 wlocksOfDelayLinesAndSynthesizers5 9 47 (wlocksOfDelayLinesAndSynthesizers5.on 9) rfl (by decide +kernel) (by decide +kernel)),
   ranTime (h.2.2.2.1 wlocksOfDelayLinesAndSynthesizers6 9 47 (by decide +kernel) (by decide +kernel)),
   by refine ran (h.2.2.2.2.1 wlocksOfDelayLinesAndSynthesizers7 9 4 (wlocksOfDelayLinesAndSynthesizers7.on 9) rfl ?_ ?_ ?_) <;> decide +kernel,
   ranTime (h.2.2.2.2.2.1 wlocksOfDelayLinesAndSynthesizers8 9 5 (by decide +kernel) (by decide +kernel)),
   ranTime (h.2.2.2.2.2.1 wlocksOfDelayLinesAndSynthesizers9 9 5 (by decide +kernel) (by decide +kernel)),
   ran (h.2.2.2.2.2.2.1 wlocksOfDelayLinesAndSynthesizers10 9 5 (wlocksOfDelayLinesAndSynthesizers10.on 9) rfl (by decide +kernel) (by decide +kernel)),
   ranTime (h.2.2.2.2.2.2.2.1 wlocksOfDelayLinesAndSynthesizers11 9 5 (by decide +kernel) (by decide +kernel)),
   by refine ran (h.2.2.2.2.2.2.2.2.1 wlocksOfDelayLinesAndSynthesizers12 (10 * msU) 3 (wlocksOfDelayLinesAndSynthesizers12.on (10 * msU)) rfl ?_ ?_ ?_ ?_) <;> decide +kernel,
   by refine ran (h.2.2.2.2.2.2.2.2.2.1 wlocksOfDelayLinesAndSynthesizers13 (10 * msU) (wlocksOfDelayLinesAndSynthesizers13.on (10 * msU)) rfl ?_ ?_ ?_) <;> decide +kernel,
   by refine ran (h.2.2.2.2.2.2.2.2.2.2 wlocksOfDelayLinesAndSynthesizers14 (10 * msU) (wlocksOfDelayLinesAndSynthesizers14.on (10 * msU)) rfl ?_ ?_ ?_) <;> decide +kernel⟩

def wsynthesizerRatios1 : State := st fun d => (((d.modTb .a fun x => { x with ctl := 3000000001 }).modTb .b fun x => { x with ctl := -2001 }).setBit F.CLK_STATUS_syn_coast 5 true).wr F.CLK_STATUS_ls_b_state 2
def wsynthesizerRatios2 : State := st fun d => (d.setBit F.CLK_STATUS_syn_lock 0 true).put F.CLK_STATUS_xa_usable true
def wsynthesizerRatios3 : State := st fun d => { ((d.setBit F.CLK_STATUS_syn_lock 0 true).put F.CLK_STATUS_xa_usable true) with clk := { d.clk with ratio := [(0, d.loopTarget 0)] } }
def wsynthesizerRatios4 : State := st fun d => { (d.put F.CLK_STATUS_xa_usable true) with clk := { d.clk with ratio := [(7, Config.lsVco + 1)] } }
def wsynthesizerRatios5 : State := st fun d => { (d.put F.CLK_STATUS_xa_usable true) with clk := { d.clk with ratio := [(7, Config.lsVco)] } }
def wsynthesizerRatios6 : State := st id
def wsynthesizerRatios7 : State := st fun d => { d with clk := { d.clk with ramping := [] } }
def wsynthesizerRatios8 : State := st fun d => d.put F.CLK_CTRL_lock true
def wsynthesizerRatios9 : State := st id
def wsynthesizerRatios10 : State := st fun d => (d.wr F.CLK_SYN_FRAC_f 1 5).wr F.CLK_SYN_MOD_m 5 5
def wsynthesizerRatios11 : State := st fun d => ((d.wr F.CLK_SYN_FRAC_f 1 5).wr F.CLK_SYN_MOD_m 5 5).setBit F.CLK_STATUS_syn_lock 5 true
def wsynthesizerRatios12 : State := st fun d => ((d.wr F.CLK_SYN_FRAC_f 1 5).wr F.CLK_SYN_MOD_m 5 5).put F.CLK_STATUS_syn4_on_syn5 true

theorem test_SynthesizerRatios (h : Obligations.SynthesizerRatios) :
    Ran (.synSteerUpdate 9 (-7) 8) wsynthesizerRatios1
    ∧ Ran (.ratioRampStep 9 0 2801000000) wsynthesizerRatios2
    ∧ Ran (.ratioRampStep 9 0 3) wsynthesizerRatios3
    ∧ Ran (.ratioRampStep 9 (6 + 1) Config.lsVco) wsynthesizerRatios4
    ∧ Ran (.ratioRampStep 9 (6 + 1) 2801000000) wsynthesizerRatios5
    ∧ Ran (.ratioRampStep 9 0 2801000000) wsynthesizerRatios6
    ∧ Ran (.ratioRampStep 9 7 2801000000) wsynthesizerRatios7
    ∧ Ran (.syn5RatioWrite 9 3#32) wsynthesizerRatios8
    ∧ Ran (.syn5RatioWrite 9 0#32) wsynthesizerRatios9
    ∧ Ran (.syn5RatioWrite 9 (F.CLK_SYN_N_enable.put (F.CLK_SYN_N_n.put 0#32 18) 1)) wsynthesizerRatios10
    ∧ Ran (.syn5RatioWrite 9 (F.CLK_SYN_N_enable.put (F.CLK_SYN_N_n.put 0#32 18) 0)) wsynthesizerRatios11
    ∧ Ran (.syn5RatioWrite 9 (F.CLK_SYN_N_enable.put (F.CLK_SYN_N_n.put 0#32 18) 0)) wsynthesizerRatios12 :=
  ⟨ran (h.1 wsynthesizerRatios1 9 (-7) 8 (wsynthesizerRatios1.on 9) rfl),
   by refine ran (h.2.1 wsynthesizerRatios2 9 0 2801000000 (wsynthesizerRatios2.on 9) rfl ?_ ?_ ?_ ?_ ?_ ?_) <;> decide +kernel,
   by refine ran (h.2.2.1 wsynthesizerRatios3 9 0 3 (wsynthesizerRatios3.on 9) rfl ?_ ?_ ?_ ?_ ?_) <;> decide +kernel,
   by refine ran (h.2.2.2.1 wsynthesizerRatios4 9 Config.lsVco .b (wsynthesizerRatios4.on 9) rfl ?_ ?_ ?_ (show Config.lsVco + 1 ≠ Config.lsVco by omega) (show rampStepOk Config.lsVco (Config.lsVco + 1) Config.lsVco = true by unfold rampStepOk Config.lsVco; simp; omega)) <;> decide +kernel,
   by refine ran (h.2.2.2.2.1 wsynthesizerRatios5 9 2801000000 .b (wsynthesizerRatios5.on 9) rfl ?_ ?_ ?_ (show Config.lsVco = Config.lsVco by rfl)) <;> decide +kernel,
   ranTime (h.2.2.2.2.2.1 wsynthesizerRatios6 9 0 2801000000 (wsynthesizerRatios6.on 9) rfl (by decide +kernel) (by decide +kernel)),
   ranTime (h.2.2.2.2.2.1 wsynthesizerRatios7 9 7 2801000000 (wsynthesizerRatios7.on 9) rfl (by decide +kernel) (by decide +kernel)),
   ranTime (h.2.2.2.2.2.2.1 wsynthesizerRatios8 9 3#32 (by decide +kernel)),
   ran (h.2.2.2.2.2.2.2.1 wsynthesizerRatios9 9 0#32 (wsynthesizerRatios9.on 9) rfl (by decide +kernel) (by decide +kernel)),
   by refine ran (h.2.2.2.2.2.2.2.2.1 wsynthesizerRatios10 9 (F.CLK_SYN_N_enable.put (F.CLK_SYN_N_n.put 0#32 18) 1) (wsynthesizerRatios10.on 9) rfl ?_ ?_ ?_) <;> decide +kernel,
   by refine ran (h.2.2.2.2.2.2.2.2.1 wsynthesizerRatios11 9 (F.CLK_SYN_N_enable.put (F.CLK_SYN_N_n.put 0#32 18) 0) (wsynthesizerRatios11.on 9) rfl ?_ ?_ ?_) <;> decide +kernel,
   by refine ran (h.2.2.2.2.2.2.2.2.2 wsynthesizerRatios12 9 (F.CLK_SYN_N_enable.put (F.CLK_SYN_N_n.put 0#32 18) 0) (wsynthesizerRatios12.on 9) rfl ?_ ?_ ?_) <;> decide +kernel⟩

def wclockOutputsAndGates1 : State := st fun d => d.wr F.CLK_CKO_DIV_div 100 7
def wclockOutputsAndGates2 : State := st fun d => { (d.wr F.CLK_CKO_DIV_div 100 7) with clk := { d.clk with cko := [(7, some { mode := 1, idle := false, src := 1, div := 3 })] } }
def wclockOutputsAndGates3 : State := st fun d => d.wr F.CLK_CKO_DIV_div 0xFFFFFF 7
def wclockOutputsAndGates4 : State := st fun d => (d.wr F.CLK_CKO_DIV_div 200000 7).setReg .TB_CLASS 15 clsA
def wclockOutputsAndGates5 : State := st fun d => d.wr F.CLK_CKO_CFG_mode 1 6
def wclockOutputsAndGates6 : State := st id
def wclockOutputsAndGates7 : State := st id
def wclockOutputsAndGates8 : State := st fun d => d.put F.CLK_CTRL_lock true
def wclockOutputsAndGates9 : State := st id
def wclockOutputsAndGates10 : State := st fun d => { ((d.put F.CLK_SYNC_CFG_arm true).wr F.CLK_SYNC_CFG_mask 0x81) with clk := { d.clk with ramping := [], ckoCfg := [(7, 36)] } }
def wclockOutputsAndGates11 : State := st id
def wclockOutputsAndGates12 : State := st fun d => { ((d.put F.CLK_SYNC_CFG_arm true).wr F.CLK_SYNC_CFG_mask 0x81) with clk := { d.clk with ckoCfg := [(7, 20)] } }
def wclockOutputsAndGates13 : State := st fun d => d.setReg .GLB_CLKEN0 0 0xF0F0FFFF#32
def wclockOutputsAndGates14 : State := st id
def wclockOutputsAndGates15 : State := st fun d => (d.wr F.PL_STATUS_state 1 1).put F.GLB_CLKEN1_plane_b true
def wclockOutputsAndGates16 : State := st fun d => ((d.setReg .GLB_CLKEN0 0 0#32).setReg .GLB_CLKPEND0 0 0xFFFFFFFF#32)
def wclockOutputsAndGates17 : State := st fun d => ((d.setReg .GLB_CLKEN1 0 0x8000#32).setReg .GLB_CLKPEND1 0 0xFFFF#32)
def wclockOutputsAndGates18 : State := st fun d => ln 255 1 ((d.setReg .GLB_CLKEN0 0 0#32).setReg .GLB_CLKPEND0 0 0xFFFFFFFF#32)
def wclockOutputsAndGates19 : State := st fun d => d.put F.GLB_CLKPEND1_plane_b true
def wclockOutputsAndGates20 : State := st id
def wclockOutputsAndGates21 : State := st id
def wclockOutputsAndGates22 : State := st fun d => d.wr F.CLK_SYN_N_n 18 0

theorem test_ClockOutputsAndGates (h : Obligations.ClockOutputsAndGates) :
    Ran (.ckoConfigWrite 9 7 false 0xFFFFF005#32) wclockOutputsAndGates1
    ∧ Ran (.ckoConfigWrite 9 7 false 0xFFFFFFFC#32) wclockOutputsAndGates2
    ∧ Ran (.ckoConfigWrite 9 7 false 0x825#32) wclockOutputsAndGates3
    ∧ Ran (.ckoConfigWrite 9 7 false 0x7E5#32) wclockOutputsAndGates4
    ∧ Ran (.ckoConfigWrite 9 6 true 0xFE000064#32) wclockOutputsAndGates5
    ∧ Ran (.ckoConfigWrite 9 7 false 0x005#32) wclockOutputsAndGates6
    ∧ Ran (.ckoConfigWrite 9 7 false 41#32) wclockOutputsAndGates7
    ∧ Ran (.ckoConfigWrite 9 7 true 41#32) wclockOutputsAndGates8
    ∧ Ran (.syncArm 9) wclockOutputsAndGates9
    ∧ Ran (.syncinEdge 9) wclockOutputsAndGates10
    ∧ Ran (.syncinEdge 9) wclockOutputsAndGates11
    ∧ Ran (.syncinEdge 9) wclockOutputsAndGates12
    ∧ Ran (.clockGateWrite 9 false 0xFFFFFFFF#32) wclockOutputsAndGates13
    ∧ Ran (.clockGateWrite 9 true (F.GLB_CLKEN1_plane_a.put (F.GLB_CLKEN1_oct.put 0#32 5) (1 - ({} : Dev).rd F.GLB_CLKEN1_plane_a))) wclockOutputsAndGates14
    ∧ Ran (.clockGateWrite 9 true 0#32) wclockOutputsAndGates15
    ∧ Ran (.clockGateDone 9 31) wclockOutputsAndGates16
    ∧ Ran (.clockGateDone 9 47) wclockOutputsAndGates17
    ∧ Ran (.clockGateDone 9 31) wclockOutputsAndGates18
    ∧ Ran (.clockGateDone 9 (48 + 1)) wclockOutputsAndGates19
    ∧ Ran (.registerWrite 9 .b 0x20020 0xFFFFFFC0#32) wclockOutputsAndGates20
    ∧ Ran (.registerWrite 9 .a 0x20020 0x00000001#32) wclockOutputsAndGates21
    ∧ Ran (.registerWrite 9 .a 0x20020 0x00000103#32) wclockOutputsAndGates22 :=
  ⟨by refine ran (h.1 wclockOutputsAndGates1 9 7 5 0xFFFFF005#32 (wclockOutputsAndGates1.on 9) rfl ?_ ?_ rfl ?_) <;> decide +kernel,
   by refine ran (h.1 wclockOutputsAndGates2 9 7 0xFFC 0xFFFFFFFC#32 (wclockOutputsAndGates2.on 9) rfl ?_ ?_ rfl ?_) <;> decide +kernel,
   by refine ran (h.1 wclockOutputsAndGates3 9 7 0x825 0x825#32 (wclockOutputsAndGates3.on 9) rfl ?_ ?_ rfl ?_) <;> decide +kernel,
   by refine ran (h.1 wclockOutputsAndGates4 9 7 0x7E5 0x7E5#32 (wclockOutputsAndGates4.on 9) rfl ?_ ?_ rfl ?_) <;> decide +kernel,
   by refine ran (h.2.1 wclockOutputsAndGates5 9 6 100 0xFE000064#32 (wclockOutputsAndGates5.on 9) rfl ?_ ?_ rfl ?_) <;> decide +kernel,
   by refine ran (h.2.2.1 wclockOutputsAndGates6 9 7 5 0x005#32 (wclockOutputsAndGates6.on 9) rfl ?_ ?_ rfl ?_) <;> decide +kernel,
   by refine ran (h.2.2.1 wclockOutputsAndGates7 9 7 41 41#32 (wclockOutputsAndGates7.on 9) rfl ?_ ?_ rfl ?_) <;> decide +kernel,
   ranTime (h.2.2.2.1 wclockOutputsAndGates8 9 7 true 41#32 (by decide +kernel) (by decide +kernel)),
   ran (h.2.2.2.2.1 wclockOutputsAndGates9 9 (wclockOutputsAndGates9.on 9) rfl),
   ran (h.2.2.2.2.2.1 wclockOutputsAndGates10 9 (wclockOutputsAndGates10.on 9) rfl (by decide +kernel) (by decide +kernel)),
   ranTime (h.2.2.2.2.2.2.1 wclockOutputsAndGates11 9 (wclockOutputsAndGates11.on 9) rfl (.inl (by decide +kernel) )),
   by refine ranTime (h.2.2.2.2.2.2.1 wclockOutputsAndGates12 9 (wclockOutputsAndGates12.on 9) rfl (.inr ⟨7, ?_ , ?_ , ?_ , ?_ ⟩)) <;> decide +kernel,
   ran (h.2.2.2.2.2.2.2.1 wclockOutputsAndGates13 9 0xFFFFFFFF#32 (wclockOutputsAndGates13.on 9) rfl),
   ran (h.2.2.2.2.2.2.2.2.1 wclockOutputsAndGates14 9 (F.GLB_CLKEN1_plane_a.put (F.GLB_CLKEN1_oct.put 0#32 5) (1 - ({} : Dev).rd F.GLB_CLKEN1_plane_a)) (wclockOutputsAndGates14.on 9) rfl),
   ran (h.2.2.2.2.2.2.2.2.1 wclockOutputsAndGates15 9 0#32 (wclockOutputsAndGates15.on 9) rfl),
   ran (h.2.2.2.2.2.2.2.2.2.1 wclockOutputsAndGates16 9 31 (wclockOutputsAndGates16.on 9) rfl (by decide +kernel) (by decide +kernel) (fun j h => (by decide +kernel : ∀ j, j < 8 → (wclockOutputsAndGates16.on 9).lnState (8 * 31 + j) = 0) j h)),
   ran (h.2.2.2.2.2.2.2.2.2.2.1 wclockOutputsAndGates17 9 47 (wclockOutputsAndGates17.on 9) rfl (by decide +kernel) (by decide +kernel)),
   by refine ranTime (h.2.2.2.2.2.2.2.2.2.2.2.1 wclockOutputsAndGates18 9 31 7 (wclockOutputsAndGates18.on 9) rfl ?_ ?_ ?_ ?_) <;> decide +kernel,
   ran (h.2.2.2.2.2.2.2.2.2.2.2.2.1 wclockOutputsAndGates19 9 .b (wclockOutputsAndGates19.on 9) rfl),
   ran (h.2.2.2.2.2.2.2.2.2.2.2.2.2 wclockOutputsAndGates20 9 .b 0xFFFFFFC0#32 (wclockOutputsAndGates20.on 9) rfl (by decide +kernel)),
   ran (h.2.2.2.2.2.2.2.2.2.2.2.2.2 wclockOutputsAndGates21 9 .a 0x00000001#32 (wclockOutputsAndGates21.on 9) rfl (by decide +kernel)),
   ran (h.2.2.2.2.2.2.2.2.2.2.2.2.2 wclockOutputsAndGates22 9 .a 0x00000103#32 (wclockOutputsAndGates22.on 9) rfl (by decide +kernel))⟩

def wmatrixTransactions1 : State := st fun d => txs [{ tx 1 4 true with tag := 9 }] (d.wr F.CMX_RMB_STATUS_state 1 3)
def wmatrixTransactions2 : State := st fun d => txs [{ tx 1 4 true with tag := 9 }] (d.wr F.CMX_RMB_STATUS_state 1 3)
def wmatrixTransactions3 : State := st fun d => txs [{ tx 1 4 true with tag := 9 }] (d.wr F.CMX_RMB_STATUS_state 1 3)
def wmatrixTransactions4 : State := st fun d => txs [tx 1 4 true] (d.wr F.CMX_RMB_STATUS_state 1 0)
def wmatrixTransactions5 : State := st id
def wmatrixTransactions6 : Dev := txs [tx 1 16 false, { tx 1 4 true with master := 3 }, { tx 1 4 true with master := 2, after := some 5 }] {}
def wmatrixTransactions7 : State := st fun d => txs [tx 0 17 false] d
def wmatrixTransactions8 : State := stm { sram := [(17, 4#8)] } fun d => txs [tx 1 16 false, { tx 1 4 true with tag := 6, after := some 5 }] d
def wmatrixTransactions9 : State := stm { sram := [(17, 4#8)] } fun d => txs [tx 1 17 false, { tx 1 4 true with tag := 6, after := some 5 }] d
def wmatrixTransactions10 : State := stm { sram := [(17, 4#8), (18, 3#8), (19, 9#8)] } fun d => txs [tx 1 1 true] { d with start := { d.start with booted := true } }
def wmatrixTransactions11 : State := st fun d => txs [{ tx 2 2 false with master := 5, addr := 0x20000 }] d
def wmatrixTransactions12 : State := st fun d => txs [{ tx 2 1 false with master := 4, addr := 0x3FFFFF8 }] d
def wmatrixTransactions13 : State := st fun d => txs [{ tx 2 1 true with master := 5, addr := 0x20020, strobes := [true, true, true, true] }] d
def wmatrixTransactions14 : State := st fun d => txs [{ tx 2 1 true with master := 5 }] d
def wmatrixTransactions15 : State := stm { larder := [(17, 4#8)] } fun d => txs [{ tx 3 1 false with master := 6 }] { d with ldr := { d.ldr with page := some 0 } }
def wmatrixTransactions16 : State := stm { larder := [(17, 4#8)] } fun d => txs [{ tx 3 1 false with master := 6 }] d
def wmatrixTransactions17 : State := st fun d => txs [{ tx 3 1 true with master := 2, strobes := List.replicate 8 true }] d
def wmatrixTransactions18 : State := stm { hamper := ⟨[], [(3, 7#8)]⟩ } fun d => txs [{ tx 7 1 false with master := 6 }] d
def wmatrixTransactions19 : State := stm { hamper := ⟨[], [(3, 7#8)]⟩ } fun d => txs [{ tx 7 1 true with master := 6 }] d
def wmatrixTransactions20 : State := st fun d => txs [{ tx 9 1 false with master := 10 }] (d.put F.HIF_LOSS_lost true 1)
def wmatrixTransactions21 : State := st fun d => txs [{ tx 8 2 false with master := 10 }] (d.put F.HIF_LOSS_lost false 0)
def wmatrixTransactions22 : State := st fun d => txs [{ tx 8 1 true with master := 10, strobes := List.replicate 16 true }] (d.put F.HIF_LOSS_lost false 0)
def wmatrixTransactions23 : State := st fun d => txs [{ tx 15 17 false with master := 10, addr := 0xFFFFFFFFFFFFFFF8, space := 2 }] d
def wmatrixTransactions24 : State := st fun d => (txs [{ tx 15 1 true with master := 6 }] d).put F.CMX_ERR_INFO_valid true
def wmatrixTransactions25 : State := st fun d => txs [{ tx 15 1 false with master := 4, counted := true }] d
def wmatrixTransactions26 : State := st id

theorem test_MatrixTransactions (h : Obligations.MatrixTransactions) :
    Ran (.cmxRequest 9 3 15 true 0 0x21000008 2 (some 9) [1#8] [true]) wmatrixTransactions1
    ∧ Ran (.cmxRequest 9 3 15 true 0 0x211FFFF8 2 (some 9) [1#8] [true]) wmatrixTransactions2
    ∧ Ran (.cmxRequest 9 3 15 true 0 0x54000000 2 (some 9) [1#8] [true]) wmatrixTransactions3
    ∧ Ran (.cmxRequest 9 0 5 true 0 0x21000008 2 none [1#8] [true]) wmatrixTransactions4
    ∧ Ran (.cmxRequest 9 3 5 true 0 0x21000008 2 none [1#8] [true]) wmatrixTransactions5
    ∧ (tx 1 16 false) ∈ wmatrixTransactions6.cmx.txns
    ∧ Ran (.cmxSegment 9 0) wmatrixTransactions7
    ∧ Ran (.cmxSegment 9 1) wmatrixTransactions8
    ∧ Ran (.cmxSegment 9 1) wmatrixTransactions9
    ∧ Ran (.cmxSegment 9 1) wmatrixTransactions10
    ∧ Ran (.cmxSegment 9 2) wmatrixTransactions11
    ∧ Ran (.cmxSegment 9 2) wmatrixTransactions12
    ∧ Ran (.cmxSegment 9 2) wmatrixTransactions13
    ∧ Ran (.cmxSegment 9 2) wmatrixTransactions14
    ∧ Ran (.cmxSegment 9 3) wmatrixTransactions15
    ∧ Ran (.cmxSegment 9 3) wmatrixTransactions16
    ∧ Ran (.cmxSegment 9 3) wmatrixTransactions17
    ∧ Ran (.cmxSegment 9 (6 + 1)) wmatrixTransactions18
    ∧ Ran (.cmxSegment 9 (6 + 1)) wmatrixTransactions19
    ∧ Ran (.cmxSegment 9 (8 + 1)) wmatrixTransactions20
    ∧ Ran (.cmxSegment 9 (8 + 0)) wmatrixTransactions21
    ∧ Ran (.cmxSegment 9 (8 + 0)) wmatrixTransactions22
    ∧ Ran (.cmxSegment 9 15) wmatrixTransactions23
    ∧ Ran (.cmxSegment 9 15) wmatrixTransactions24
    ∧ Ran (.cmxSegment 9 15) wmatrixTransactions25
    ∧ Ran (.cmxSegment 9 15) wmatrixTransactions26 :=
  ⟨by refine ran (h.1 wmatrixTransactions1 9 3 15 true 0 0x21000008 2 (some 9) [1#8] [true] 1 8 0x200000 _ (wmatrixTransactions1.on 9) rfl ?_ ?_ ?_ ?_ ?_ ?_ rfl ?_ ?_ ?_) <;> decide +kernel,
   by refine ran (h.2.1 wmatrixTransactions2 9 3 15 true 0 0x211FFFF8 2 (some 9) [1#8] [true] 1 0x1FFFF8 0x200000 _ (wmatrixTransactions2.on 9) rfl ?_ ?_ ?_ ?_ ?_ ?_ rfl ?_ ?_ ?_) <;> decide +kernel,
   by refine ran (h.2.2.1 wmatrixTransactions3 9 3 15 true 0 0x54000000 2 (some 9) [1#8] [true] _ (wmatrixTransactions3.on 9) rfl ?_ ?_ ?_ ?_ ?_ ?_ rfl (fun _ _ _ e => absurd ((by decide +kernel : Dev.cmxDecode (wmatrixTransactions3.on 9) 0 (0x54000000 % 2 ^ 64) = none).symm.trans e) nofun)) <;> decide +kernel,
   by refine ranTime (h.2.2.2.1 wmatrixTransactions4 9 0 5 true 0 0x21000008 2 none [1#8] [true] (wmatrixTransactions4.on 9) rfl ?_ ?_ ?_ ?_ ?_ (.inl ⟨tx 1 4 true, by decide +kernel, by decide, by decide⟩)) <;> decide +kernel,
   by refine ranTime (h.2.2.2.1 wmatrixTransactions5 9 3 5 true 0 0x21000008 2 none [1#8] [true] (wmatrixTransactions5.on 9) rfl ?_ ?_ ?_ ?_ ?_ (.inr (.inr (.inr (.inr ⟨by decide, by decide +kernel, by decide +kernel⟩))))) <;> decide +kernel,
   (h.2.2.2.2.1 wmatrixTransactions6 1 (tx 1 16 false) { tx 1 4 true with master := 3 } (by decide +kernel) (by decide +kernel) (by decide +kernel) (by decide +kernel) (by decide +kernel)).1,
   by refine ran (h.2.2.2.2.2.1 wmatrixTransactions7 9 128 (tx 0 17 false) (wmatrixTransactions7.on 9) rfl ⟨ ?_ , ?_ ⟩ ?_) <;> decide +kernel,
   by refine ran (h.2.2.2.2.2.2.1 wmatrixTransactions8 9 128 (tx 1 16 false) (wmatrixTransactions8.on 9) rfl ⟨ ?_ , ?_ ⟩ ?_) <;> decide +kernel,
   by refine ran (h.2.2.2.2.2.2.1 wmatrixTransactions9 9 128 (tx 1 17 false) (wmatrixTransactions9.on 9) rfl ⟨ ?_ , ?_ ⟩ ?_) <;> decide +kernel,
   by refine ranMem (h.2.2.2.2.2.2.2.1 wmatrixTransactions10 9 8 (tx 1 1 true) (wmatrixTransactions10.on 9) rfl ⟨ ?_ , ?_ ⟩ ?_) <;> decide +kernel,
   by refine ran (h.2.2.2.2.2.2.2.2.1 wmatrixTransactions11 9 16 { tx 2 2 false with master := 5, addr := 0x20000 } true (wmatrixTransactions11.on 9) rfl ⟨ ?_ , ?_ ⟩ ?_ ?_ ?_) <;> decide +kernel,
   by refine ran (h.2.2.2.2.2.2.2.2.1 wmatrixTransactions12 9 8 { tx 2 1 false with master := 4, addr := 0x3FFFFF8 } false (wmatrixTransactions12.on 9) rfl ⟨ ?_ , ?_ ⟩ ?_ ?_ ?_) <;> decide +kernel,
   by refine ranMem (h.2.2.2.2.2.2.2.2.2.1 wmatrixTransactions13 9 { tx 2 1 true with master := 5, addr := 0x20020, strobes := [true, true, true, true] } _ (wmatrixTransactions13.on 9) rfl ⟨ ?_ , ?_ ⟩ ?_ ?_ ?_ rfl ?_) <;> decide +kernel,
   by refine ran (h.2.2.2.2.2.2.2.2.2.2.1 wmatrixTransactions14 9 { tx 2 1 true with master := 5 } (wmatrixTransactions14.on 9) rfl ⟨ ?_ , ?_ ⟩ ?_ ?_ ⟨0, ?_ , ?_ ⟩ ⟨1, ?_ , ?_ ⟩ (fun k a b => (by decide +kernel : ∀ k, k < 8 → 4 ≤ k → ({ tx 2 1 true with master := 5 } : Txn).strobes.getD k false = false) k b a)) <;> decide +kernel,
   by refine ran (h.2.2.2.2.2.2.2.2.2.2.2.1 wmatrixTransactions15 9 32 { tx 3 1 false with master := 6 } (wmatrixTransactions15.on 9) rfl ⟨ ?_ , ?_ ⟩ ?_ ?_ ?_ ?_) <;> decide +kernel,
   by refine ran (h.2.2.2.2.2.2.2.2.2.2.2.2.1 wmatrixTransactions16 9 32 { tx 3 1 false with master := 6 } (wmatrixTransactions16.on 9) rfl ⟨ ?_ , ?_ ⟩ ?_ ?_ ?_ ?_) <;> decide +kernel,
   by refine ran (h.2.2.2.2.2.2.2.2.2.2.2.2.2.1 wmatrixTransactions17 9 8 { tx 3 1 true with master := 2, strobes := List.replicate 8 true } (wmatrixTransactions17.on 9) rfl ⟨ ?_ , ?_ ⟩ ?_ ?_ ?_) <;> decide +kernel,
   by refine ran (h.2.2.2.2.2.2.2.2.2.2.2.2.2.2.1 wmatrixTransactions18 9 32 .b { tx 7 1 false with master := 6 } (wmatrixTransactions18.on 9) rfl ⟨ ?_ , ?_ ⟩ ?_) <;> decide +kernel,
   by refine ranMem (h.2.2.2.2.2.2.2.2.2.2.2.2.2.2.2.1 wmatrixTransactions19 9 32 .b { tx 7 1 true with master := 6 } (wmatrixTransactions19.on 9) rfl ⟨ ?_ , ?_ ⟩ ?_ ?_) <;> decide +kernel,
   by refine ran (h.2.2.2.2.2.2.2.2.2.2.2.2.2.2.2.2.1 wmatrixTransactions20 9 16 .b { tx 9 1 false with master := 10 } (wmatrixTransactions20.on 9) rfl ⟨ ?_ , ?_ ⟩ ?_) <;> decide +kernel,
   by refine ran (h.2.2.2.2.2.2.2.2.2.2.2.2.2.2.2.2.2.1 wmatrixTransactions21 9 32 .a { tx 8 2 false with master := 10 } (wmatrixTransactions21.on 9) rfl ⟨ ?_ , ?_ ⟩ ?_ ?_ ?_ ?_) <;> decide +kernel,
   by refine ran (h.2.2.2.2.2.2.2.2.2.2.2.2.2.2.2.2.2.2.1 wmatrixTransactions22 9 16 .a { tx 8 1 true with master := 10, strobes := List.replicate 16 true } (wmatrixTransactions22.on 9) rfl ⟨ ?_ , ?_ ⟩ ?_ ?_ ?_ ?_ ?_) <;> decide +kernel,
   by refine ran (h.2.2.2.2.2.2.2.2.2.2.2.2.2.2.2.2.2.2.2.1 wmatrixTransactions23 9 256 { tx 15 17 false with master := 10, addr := 0xFFFFFFFFFFFFFFF8, space := 2 } (wmatrixTransactions23.on 9) rfl ⟨ ?_ , ?_ ⟩ ?_ ?_ ?_) <;> decide +kernel,
   by refine ran (h.2.2.2.2.2.2.2.2.2.2.2.2.2.2.2.2.2.2.2.1 wmatrixTransactions24 9 32 { tx 15 1 true with master := 6 } (wmatrixTransactions24.on 9) rfl ⟨ ?_ , ?_ ⟩ ?_ ?_ ?_) <;> decide +kernel,
   by refine ran (h.2.2.2.2.2.2.2.2.2.2.2.2.2.2.2.2.2.2.2.1 wmatrixTransactions25 9 8 { tx 15 1 false with master := 4, counted := true } (wmatrixTransactions25.on 9) rfl ⟨ ?_ , ?_ ⟩ ?_ ?_ ?_) <;> decide +kernel,
   ranTime (h.2.2.2.2.2.2.2.2.2.2.2.2.2.2.2.2.2.2.2.2 wmatrixTransactions26 9 15 (by decide +kernel) (by decide +kernel))⟩

def wmatrixResets1 : State := st fun d => txs [tx 1 16 false, { tx 1 16 false with master := 10 }] d
def wmatrixResets2 : State := st id
def wmatrixResets3 : State := st fun d => d.wr F.CMX_MRST_releasing 0x7FF
def wmatrixResets4 : State := st fun d => txs [tx 1 16 false] d
def wmatrixResets5 : State := st id
def wmatrixResets6 : State := st fun d => txs [tx 1 16 false, { tx 1 16 false with master := 10 }] ((d.wr F.CMX_RMB_STATUS_state 1 0).wr F.CMX_RMB_STATUS_state 1 1)
def wmatrixResets7 : State := st fun d => { d with start := { d.start with resetLow := true } }
def wmatrixResets8 : State := st fun d => { ((d.wr F.CMX_RMB_STATUS_state 2 3).wr F.CMX_RMB_STATUS_state 1 1) with cmx := { wdog := [(3, [4, 3])] } }
def wmatrixResets9 : State := st fun d => d.wr F.CMX_RMB_STATUS_state 3 3
def wmatrixResets10 : State := st fun d => ln 9 3 (d.wr F.LN_STATUS_slips 4 9 |>.wr F.CMX_RMB_STATUS_state 1 1)

theorem test_MatrixResets (h : Obligations.MatrixResets) :
    Ran (.cmxMasterReset 9 10) wmatrixResets1
    ∧ Ran (.cmxMasterReset 9 10) wmatrixResets2
    ∧ Ran (.cmxMasterReleased 9 10) wmatrixResets3
    ∧ Ran (.cmxMasterReleased 9 0) wmatrixResets4
    ∧ Ran (.cmxRemap 9) wmatrixResets5
    ∧ Ran (.ramblerWatchdog 9 0) wmatrixResets6
    ∧ Ran (.cmxRemap 9) wmatrixResets7
    ∧ Ran (.ramblerWatchdog 9 3) wmatrixResets8
    ∧ Ran (.ramblerWatchdog 9 3) wmatrixResets9
    ∧ Ran (.ramblerWatchdog 9 1) wmatrixResets10 :=
  ⟨ran (h.1 wmatrixResets1 9 10 (wmatrixResets1.on 9) rfl (by decide +kernel) (by decide +kernel)),
   ranTime (h.2.1 wmatrixResets2 9 10 (by decide +kernel) (by decide +kernel)),
   ran (h.2.2.1 wmatrixResets3 9 10 (wmatrixResets3.on 9) rfl (by decide +kernel) (by decide +kernel)),
   ranTime (h.2.2.2.1 wmatrixResets4 9 0 (by decide +kernel) (by decide +kernel)),
   ran (h.2.2.2.2.1 wmatrixResets5 9 (wmatrixResets5.on 9) rfl (by decide +kernel)),
   ran (h.2.2.2.2.2.2.1 wmatrixResets6 9 0 _ (wmatrixResets6.on 9) rfl (by decide +kernel) (by decide +kernel) rfl),
   ranTime (h.2.2.2.2.2.1 wmatrixResets7 9 (by decide +kernel)),
   ran (h.2.2.2.2.2.2.1 wmatrixResets8 9 3 _ (wmatrixResets8.on 9) rfl (by decide +kernel) (by decide +kernel) rfl),
   ranTime (h.2.2.2.2.2.2.2 wmatrixResets9 9 3 (by decide +kernel) (by decide +kernel)),
   ran (h.2.2.2.2.2.2.1 wmatrixResets10 9 1 _ (wmatrixResets10.on 9) rfl (by decide +kernel) (by decide +kernel) rfl)⟩

def wlarderPages1 : State := stm { larder := [(3, 4#8), (0x300001, 8#8)] } fun d => pgw 2 256 false d
def wlarderPages2 : State := stm { larder := [(3, 4#8), (0x300001, 8#8)] } fun d => lar (fun l => { l with queue := [{ cls := 0, what := 0, addr := 255, data := [1#8, 2#8], tag := 3 }] ++ l.queue ++ [{ cls := 2, what := 4, addr := 511, data := [7#8] }] }) (pgw 7 1 false d)
def wlarderPages3 : State := stm { larder := [(3, 4#8), (0x300001, 8#8)] } fun d => pgw 0 257 false d
def wlarderPages4 : State := st fun d => lar (fun l => { l with page := some 0x107F, cur := 1, queue := [{ cls := 1, what := 1, addr := 0x107F00, data := List.replicate 257 5#8 }] }) d
def wlarderPages5 : State := stm { larder := [(3, 4#8), (0x300001, 8#8)] } fun d => one .b 15 (actIt 0x40) (lar (fun l => { l with page := some 0x3000, image := [9#8], cur := 0, queue := [{ cls := 0, what := 0, tag := 31, addr := 0x3000FF, data := [5#8] }] }) d)
def wlarderPages6 : State := stm { larder := [(3, 4#8), (0x300001, 8#8)] } fun d => lar (fun l => { l with jWrite := some (0x80, 2), jFly := [(1, 5), (5, 8)], jNew := [(1, 5, 0x90), (2, 5, 0x90)] }) (pgw 1 6 false d)
def wlarderPages7 : State := st fun d => lar (fun l => { l with page := some 7, image := [1#8], cur := 3, queue := [{ cls := 3, what := 5, addr := 1792 }] }) d
def wlarderPages8 : State := stm { larder := [(3, 4#8), (0x300001, 8#8)] } fun d => pgw 3 257 false { d with start := { d.start with railOut := [3] } }
def wlarderPages9 : State := stm { larder := [(3, 4#8), (0x300001, 8#8)] } fun d => pgw 3 6 false d
def wlarderPages10 : State := stm { larder := [(3, 4#8), (0x300001, 8#8)] } fun d => pgw 1 6 false d
def wlarderPages11 : State := stm { larder := [(3, 4#8), (0x300001, 8#8)] } fun d => pgw 3 6 true d
def wlarderPages12 : State := stm { larder := [(3, 4#8), (0x300001, 8#8)] } fun d => one .b 15 (actIt 0x40) (lar (fun l => { l with page := some 0x3000, image := [9#8], cur := 0, queue := [{ cls := 0, what := 0, tag := 31, addr := 0x3000FF, data := [5#8, 6#8], retried := true }] }) d)
def wlarderPages13 : State := stm { larder := [(3, 4#8), (0x300001, 8#8)] } fun d => pgw 3 6 false { d with start := { d.start with railOut := [3] } }
def wlarderPages14 : State := stm { larder := [(3, 4#8), (0x300001, 8#8)] } fun d => lar (fun l => { l with ending := true, queue := [] }) (pgw 3 6 false d)
def wlarderPages15 : State := st id

theorem test_LarderPages (h : Obligations.LarderPages) :
    Ran (.larderPageWriteDone 9 true) wlarderPages1
    ∧ Ran (.larderPageWriteDone 9 true) wlarderPages2
    ∧ Ran (.larderPageWriteDone 9 true) wlarderPages3
    ∧ Ran (.larderPageWriteDone 9 true) wlarderPages4
    ∧ Ran (.larderPageWriteDone 9 true) wlarderPages5
    ∧ Ran (.larderPageWriteDone 9 true) wlarderPages6
    ∧ Ran (.larderPageWriteDone 9 true) wlarderPages7
    ∧ Ran (.larderPageWriteDone 9 true) wlarderPages8
    ∧ Ran (.larderPageWriteDone 9 false) wlarderPages9
    ∧ Ran (.larderPageWriteDone 9 false) wlarderPages10
    ∧ Ran (.larderPageWriteDone 9 false) wlarderPages11
    ∧ Ran (.larderPageWriteDone 9 false) wlarderPages12
    ∧ Ran (.larderPageWriteDone 9 false) wlarderPages13
    ∧ Ran (.larderPageWriteDone 9 true) wlarderPages14
    ∧ Ran (.larderPageWriteDone 9 true) wlarderPages15 :=
  ⟨by refine ranMem (h.1 wlarderPages1 9 0x3000 (pgc 2 256 false) (wlarderPages1.on 9) rfl ⟨ ?_ , ?_ , ?_ ⟩ ?_ ?_ (.inl ?_ )) <;> decide +kernel,
   by refine ranMem (h.1 wlarderPages2 9 0x3000 (pgc 7 1 false) (wlarderPages2.on 9) rfl ⟨ ?_ , ?_ , ?_ ⟩ ?_ ?_ (.inr (.inr ?_ ))) <;> decide +kernel,
   by refine ranMem (h.2.1 wlarderPages3 9 0x3000 (pgc 0 257 false) (wlarderPages3.on 9) rfl ⟨ ?_ , ?_ , ?_ ⟩ ?_ ?_ ?_) <;> decide +kernel,
   by refine ranMem (h.2.1 wlarderPages4 9 0x107F { cls := 1, what := 1, addr := 0x107F00, data := List.replicate 257 5#8 } (wlarderPages4.on 9) rfl ⟨ ?_ , ?_ , ?_ ⟩ ?_ ?_ ?_) <;> decide +kernel,
   by refine ranMem (h.2.2.1 wlarderPages5 9 0x3000 15 .b (actIt 0x40) { cls := 0, what := 0, tag := 31, addr := 0x3000FF, data := [5#8] } (wlarderPages5.on 9) rfl ⟨ ?_ , ?_ , ?_ ⟩ ?_ ?_ ?_ ?_ ?_ ?_ ?_ ?_ ?_) <;> decide +kernel,
   by refine ranMem (h.2.2.2.1 wlarderPages6 9 0x3000 0x80 2 (pgc 1 6 false) (wlarderPages6.on 9) rfl ⟨ ?_ , ?_ , ?_ ⟩ ?_ ?_ ?_ ?_) <;> decide +kernel,
   by refine ranMem (h.2.2.2.2.1 wlarderPages7 9 7 { cls := 3, what := 5, addr := 1792 } (wlarderPages7.on 9) rfl ⟨ ?_ , ?_ , ?_ ⟩ ?_ ?_ ?_) <;> decide +kernel,
   by refine ranMem (h.2.2.2.2.2.1 wlarderPages8 9 0x3000 (pgc 3 257 false) (wlarderPages8.on 9) rfl ⟨ ?_ , ?_ , ?_ ⟩ ?_ ?_ ?_ (.inr (.inl ?_ ))) <;> decide +kernel,
   by refine ran (h.2.2.2.2.2.2.1 wlarderPages9 9 0x3000 (pgc 3 6 false) (wlarderPages9.on 9) rfl ⟨ ?_ , ?_ , ?_ ⟩ ?_ ?_ ?_ ?_) <;> decide +kernel,
   by refine ran (h.2.2.2.2.2.2.2.1 wlarderPages10 9 0x3000 (pgc 1 6 false) (wlarderPages10.on 9) rfl ⟨ ?_ , ?_ , ?_ ⟩ ?_ ?_ (.inr ?_ )) <;> decide +kernel,
   by refine ranMem (h.2.2.2.2.2.2.2.2.1 wlarderPages11 9 0x3000 (pgc 3 6 true) (wlarderPages11.on 9) rfl ⟨ ?_ , ?_ , ?_ ⟩ ?_ ?_ (.inr (.inl ?_ ))) <;> decide +kernel,
   by refine ranMem (h.2.2.2.2.2.2.2.2.2.1 wlarderPages12 9 0x3000 15 .b (actIt 0x40) { cls := 0, what := 0, tag := 31, addr := 0x3000FF, data := [5#8, 6#8], retried := true } (wlarderPages12.on 9) rfl ⟨ ?_ , ?_ , ?_ ⟩ ?_ ?_ ?_ ?_ ?_ ?_ ?_ ?_ ?_) <;> decide +kernel,
   by refine ranMem (h.2.2.2.2.2.2.2.2.2.2.1 wlarderPages13 9 0x3000 (pgc 3 6 false) (wlarderPages13.on 9) rfl ⟨ ?_ , ?_ , ?_ ⟩ ?_ ?_ ?_ (.inr (.inl ?_ ))) <;> decide +kernel,
   by refine ranMem (h.2.2.2.2.2.2.2.2.2.2.2.1 wlarderPages14 9 0x3000 (wlarderPages14.on 9) rfl ?_ ?_ ?_) <;> decide +kernel,
   ranTime (h.2.2.2.2.2.2.2.2.2.2.2.2 wlarderPages15 9 true (by decide +kernel))⟩

def wlarderCommits1 : State := st fun d => lar (fun l => { l with jPend := [(1, 1151)], jNext := 0x80, jSeq := 4294967295, jCredit := 25920 * (10 * secU) }) (up d)
def wlarderCommits2 : State := st id
def wlarderCommits3 : State := st fun d => lar (fun l => { l with jPend := [(1, 1151)], jCredit := 25920 * (10 * secU) }) d
def wlarderCommits4 : State := st fun d => lar (fun l => { l with jPend := [(1, 1151)], jNext := 0x80 }) (up d)
def wlarderCommits5 : State := st fun d => lar (fun l => { l with jSince := some 0 }) d
def wlarderCommits6 : State := st id
def wlarderCommits7 : State := st fun d => lar (fun l => { l with jSince := some 0, jStretch := 1 }) d
def wlarderCommits8 : State := st fun d => lar (fun l => { l with cSeq := 4294967295, cSlot := 127 }) (up d)
def wlarderCommits9 : State := st fun d => up d
def wlarderCommits10 : State := st id
def wlarderCommits11 : State := st fun d => lar (fun l => { l with fBuf := [[1#8], [2#8], [3#8]], fNext := 4094, fSeq := 4294967294, fLast := some 0 }) (up d)
def wlarderCommits12 : State := st fun d => lar (fun l => { l with fLast := some 0 }) d
def wlarderCommits13 : State := st fun d => up d
def wlarderCommits14 : State := st fun d => ((up d).put F.LDR_CTRL_scrub_en true).wr F.LDR_SCRUB_next 16383
def wlarderCommits15 : State := st fun d => lar (fun l => { l with page := some 16383 }) (((up d).put F.LDR_CTRL_scrub_en true).wr F.LDR_SCRUB_next 16383)
def wlarderCommits16 : State := st fun d => d.put F.LDR_CTRL_scrub_en false

theorem test_LarderCommits (h : Obligations.LarderCommits) :
    Ran (.journalCommit secU) wlarderCommits1
    ∧ Ran (.journalCommit 9) wlarderCommits2
    ∧ Ran (.journalCommit secU) wlarderCommits3
    ∧ Ran (.journalCommit secU) wlarderCommits4
    ∧ Ran (.journalStretch (10 * secU + 1)) wlarderCommits5
    ∧ Ran (.journalStretch 9) wlarderCommits6
    ∧ Ran (.journalStretch (3610 * secU)) wlarderCommits7
    ∧ Ran (.countersCommit (3600 * secU)) wlarderCommits8
    ∧ Ran (.countersCommit (3600 * secU)) wlarderCommits9
    ∧ Ran (.countersCommit 9) wlarderCommits10
    ∧ Ran (.faultLogCommit (60 * secU)) wlarderCommits11
    ∧ Ran (.faultLogCommit 9) wlarderCommits12
    ∧ Ran (.faultLogCommit 9) wlarderCommits13
    ∧ Ran (.larderScrub (3600 * secU) true) wlarderCommits14
    ∧ Ran (.larderScrub (3600 * secU) true) wlarderCommits15
    ∧ Ran (.larderScrub 9 true) wlarderCommits16 :=
  ⟨by refine ran (h.1 wlarderCommits1 secU _ _ _ _ _ ((wlarderCommits1.on secU).landDue) _ rfl ?_ ?_ ?_ ?_ ?_ rfl rfl rfl ?_) <;> decide +kernel,
   ran (h.2.1 wlarderCommits2 9 ((wlarderCommits2.on 9).landDue) rfl (.inl (by decide +kernel) )),
   ran (h.2.1 wlarderCommits3 secU ((wlarderCommits3.on secU).landDue) rfl (.inr (.inr (.inr (.inr (by decide +kernel) ))))),
   ran (h.2.2.1 wlarderCommits4 secU _ _ _ ((wlarderCommits4.on secU).landDue) _ rfl rfl (by decide +kernel)),
   ran (h.2.2.2.1 wlarderCommits5 (10 * secU + 1) 0 (wlarderCommits5.on (10 * secU + 1)) rfl (by decide +kernel) (by decide +kernel)),
   ranTime (h.2.2.2.2.1 wlarderCommits6 9 (by decide +kernel)),
   ranTime (h.2.2.2.2.2.1 wlarderCommits7 (3610 * secU) 0 (wlarderCommits7.on (3610 * secU)) rfl (by decide +kernel) (by decide +kernel)),
   by refine ran (h.2.2.2.2.2.2.1 wlarderCommits8 (3600 * secU) 0 (wlarderCommits8.on (3600 * secU)) rfl ?_ ?_ ?_ ?_) <;> decide +kernel,
   by refine ran (h.2.2.2.2.2.2.1 wlarderCommits9 (3600 * secU) 1 (wlarderCommits9.on (3600 * secU)) rfl ?_ ?_ ?_ ?_) <;> decide +kernel,
   ranTime (h.2.2.2.2.2.2.2.1 wlarderCommits10 9 (wlarderCommits10.on 9) rfl (.inl (by decide +kernel) )),
   by refine ran (h.2.2.2.2.2.2.2.2.1 wlarderCommits11 (60 * secU) 2 (wlarderCommits11.on (60 * secU)) rfl ?_ ?_ ?_ (by intro a h; cases h; decide) ?_) <;> decide +kernel,
   ranTime (h.2.2.2.2.2.2.2.2.2.1 wlarderCommits12 9 0 (by decide +kernel) (by decide +kernel)),
   ranTime (h.2.2.2.2.2.2.2.2.2.2.1 wlarderCommits13 9 (wlarderCommits13.on 9) rfl (.inl (by decide +kernel) )),
   by refine ran (h.2.2.2.2.2.2.2.2.2.2.2.1 wlarderCommits14 (3600 * secU) 16383 true (wlarderCommits14.on (3600 * secU)) rfl ?_ ?_ ?_ ?_ ?_) <;> decide +kernel,
   by refine ran (h.2.2.2.2.2.2.2.2.2.2.2.1 wlarderCommits15 (3600 * secU) 16383 true (wlarderCommits15.on (3600 * secU)) rfl ?_ ?_ ?_ ?_ ?_) <;> decide +kernel,
   ranTime (h.2.2.2.2.2.2.2.2.2.2.2.2 wlarderCommits16 9 true (wlarderCommits16.on 9) rfl (.inl (by decide +kernel) ))⟩

def wregisterWrites1 : State := st fun d => d
def wregisterWrites2 : State := st fun d => d.setReg .HIF_ERR 1 0xFF#32
def wregisterWrites3 : State := st fun d => { d with start := { d.start with resetLow := true } }
def wregisterWrites4 : State := st id
def wregisterWrites5 : State := st id
def wregisterWrites6 : State := st fun d => d.setReg .GLB_CLKEN1 0 0#32
def wregisterWrites7 : State := st fun d => d.wr F.CMX_ERR_partial 254
def wregisterWrites8 : State := st id
def wregisterWrites9 : State := st fun d => d.put F.CMX_ERR_INFO_valid true
def wregisterWrites10 : State := st fun d => d.modPort .b fun x => { x with pba := [3, 63] }
def wregisterWrites11 : State := st fun d => d.modPort .a fun x => { x with pba := [3, 63] }
def wregisterWrites12 : State := st fun d => d.modPort .a fun x => { x with pba := [3, 63] }
def wregisterWrites13 : State := st fun d => d.setReg .GLB_GPIO_DIR 0 0x00F0FFFF#32
def wregisterWrites14 : State := st id
def wregisterWrites15 : State := st fun d => ((d.setTbState .a 2).setBit F.CLK_STATUS_syn_lock 0 true |>.setBit F.CLK_STATUS_syn_lock 1 true).modTb .a fun x => { x with phase := -70 }
def wregisterWrites16 : State := st fun d => { ((d.setTbState .b 3).setBit F.CLK_STATUS_syn_lock 2 true |>.setBit F.CLK_STATUS_syn_lock 3 true) with clk := { d.clk with lockE := ⟨3, 4⟩, pins := ⟨some 3, none⟩ } }
def wregisterWrites17 : State := st id
def wregisterWrites18 : State := st id
def wregisterWrites19 : State := st id
def wregisterWrites20 : State := st id
def wregisterWrites21 : State := st fun d => (d.wr F.CLK_SYN_FRAC_f 1 5).wr F.CLK_SYN_MOD_m 5 5
def wregisterWrites22 : State := st fun d => d.setReg .GLB_CLKEN1 0 0#32
def wregisterWrites23 : State := st id
def wregisterWrites24 : State := st id
def wregisterWrites25 : State := st id

theorem test_RegisterWrites (h : Obligations.RegisterWrites) :
    Ran (.registerWrite 9 .b (regOff .LN_TX_EQ 383) 0xFFFFFFFF#32) wregisterWrites1
    ∧ Ran (.registerWrite 9 .b (regOff .HIF_ERR 1) 0x55555555#32) wregisterWrites2
    ∧ Ran (.registerWrite 9 .b 0 0xFFFFFFFF#32) wregisterWrites3
    ∧ Ran (.registerWrite 9 .a (regOff .HIF_ERR 1) 0x55555555#32) wregisterWrites4
    ∧ Ran (.registerWrite 9 .a 0x1F000 0x55555555#32) wregisterWrites5
    ∧ Ran (.registerWrite 9 .b (regOff .LN_TX_EQ 383) 0xFFFFFFFF#32) wregisterWrites6
    ∧ Ran (.registerWrite 9 .b 5 0xFFFFFFFF#32) wregisterWrites7
    ∧ Ran (.registerWrite 9 .b 0x3FFFFFC 0xFFFFFFFF#32) wregisterWrites8
    ∧ Ran (.registerWrite 9 .b 0x3FFFFFC 0xFFFFFFFF#32) wregisterWrites9
    ∧ Ran (.registerWrite 9 .b (0x10000 + 0x8000 * 1 + 0x7000 + 4 * 255) 0xFFFFFFFE#32) wregisterWrites10
    ∧ Ran (.registerWrite 9 .a (0x10000 + 0x8000 * 0 + 0x7000 + 4 * 4) 0xFFFFFFFF#32) wregisterWrites11
    ∧ Ran (.registerWrite 9 .a (0x10000 + 0x8000 * 0 + 0x7800 + 4 * 1) 0xFFFFFFFF#32) wregisterWrites12
    ∧ Ran (.registerWrite 9 .a (regOff .GLB_GPIO_OUT 0) 0xAAAA#32) wregisterWrites13
    ∧ Ran (.registerWrite 9 .b (regOff .GLB_GPIO_DIR 0) 0x00F0FFFF#32) wregisterWrites14
    ∧ Ran (.registerWrite 9 .b (regOff .CLK_LOCK_CFG 0) 3#32) wregisterWrites15
    ∧ Ran (.registerWrite 9 .b (regOff .CLK_LOCK_CFG 0) 2#32) wregisterWrites16
    ∧ exec (.registerWrite 9 .b (regOff (if true then .GLB_CLKEN1 else .GLB_CLKEN0) 0) 0xFFFF0000#32) wregisterWrites17 = exec (.clockGateWrite 9 true 0xFFFF0000#32) wregisterWrites17
    ∧ exec (.registerWrite 9 .b (regOff (if false then .GLB_CLKEN1 else .GLB_CLKEN0) 0) 0xFFFF0000#32) wregisterWrites18 = exec (.clockGateWrite 9 false 0xFFFF0000#32) wregisterWrites18
    ∧ exec (.registerWrite 9 .b (regOff (if false then .CLK_CKO_DIV else .CLK_CKO_CFG) 7) 0x005#32) wregisterWrites19 = exec (.ckoConfigWrite 9 7 false 0x005#32) wregisterWrites19
    ∧ exec (.registerWrite 9 .b (regOff (if true then .CLK_CKO_DIV else .CLK_CKO_CFG) 7) 0x10000005#32) wregisterWrites20 = exec (.ckoConfigWrite 9 7 true 0x10000005#32) wregisterWrites20
    ∧ exec (.registerWrite 9 .a (regOff .CLK_SYN_N 5) (F.CLK_SYN_N_enable.put (F.CLK_SYN_N_n.put 0#32 18) 1)) wregisterWrites21 = exec (.syn5RatioWrite 9 (F.CLK_SYN_N_enable.put (F.CLK_SYN_N_n.put 0#32 18) 1)) wregisterWrites21
    ∧ exec (.registerWrite 9 .a (regOff .LN_OCT_CTRL 47) 0xFFFFFFFF#32) wregisterWrites22 = exec (.lnOctCtrlWrite 9 47 0xFFFFFFFF#32) wregisterWrites22
    ∧ exec (.registerWrite 9 .a (regOff .LN_OCT_CTRL 47) 0x7FFFFFFF#32) wregisterWrites23 = exec (.lnOctCtrlWrite 9 47 0x7FFFFFFF#32) wregisterWrites23
    ∧ exec (.registerWrite 9 .a (regOff .TB_CLASS 15) clsA) wregisterWrites24 = exec (.tbClassWrite 9 15 clsA) wregisterWrites24
    ∧ exec (.registerWrite 9 .b (regOff .HIF_SVR_CFG (16 * 1 + 15)) 3#32) wregisterWrites25 = exec (.ringConfigWrite 9 .b (regOff .HIF_SVR_CFG (16 * 1 + 15) % 0x8000) 3#32) wregisterWrites25 :=
  ⟨by refine ran (h.1 wregisterWrites1 9 (regOff .LN_TX_EQ 383) 383 .b 0xFFFFFFFF#32 .LN_TX_EQ (wregisterWrites1.on 9) rfl ?_ ?_ ?_ ?_ ?_ (by intro q h; rw [show hifPort (regOff .LN_TX_EQ 383) = none by decide +kernel] at h; cases h) ?_ ?_) <;> decide +kernel,
   by refine ran (h.1 wregisterWrites2 9 (regOff .HIF_ERR 1) 1 .b 0x55555555#32 .HIF_ERR (wregisterWrites2.on 9) rfl ?_ ?_ ?_ ?_ ?_ (by intro q h; cases q; exact absurd h (show ¬ _ by decide +kernel); rfl) ?_ ?_) <;> decide +kernel,
   ranTime (h.2.1 wregisterWrites3 9 0 .b 0xFFFFFFFF#32 (by decide +kernel)),
   by refine ranTime (h.2.2.1 wregisterWrites4 9 (regOff .HIF_ERR 1) .a 0x55555555#32 ?_ ?_ (.inl ?_ )) <;> decide +kernel,
   by refine ranTime (h.2.2.1 wregisterWrites5 9 0x1F000 .a 0x55555555#32 ?_ ?_ (.inr ?_ )) <;> decide +kernel,
   by refine ranTime (h.2.2.2.1 wregisterWrites6 9 (regOff .LN_TX_EQ 383) 383 .b 0xFFFFFFFF#32 .LN_TX_EQ ?_ ?_ ?_ ?_) <;> decide +kernel,
   ran (h.2.2.2.2.1 wregisterWrites7 9 5 .b 0xFFFFFFFF#32 (wregisterWrites7.on 9) rfl (by decide +kernel) (by decide +kernel)),
   by refine ran (h.2.2.2.2.2.1 wregisterWrites8 9 0x3FFFFFC .b 0xFFFFFFFF#32 (wregisterWrites8.on 9) rfl ?_ ?_ ?_ ?_ ?_) <;> decide +kernel,
   by refine ran (h.2.2.2.2.2.1 wregisterWrites9 9 0x3FFFFFC .b 0xFFFFFFFF#32 (wregisterWrites9.on 9) rfl ?_ ?_ ?_ ?_ ?_) <;> decide +kernel,
   ran (h.2.2.2.2.2.2.1 wregisterWrites10 9 255 .b 0xFFFFFFFE#32 (wregisterWrites10.on 9) rfl (by decide +kernel) (by decide +kernel)),
   ran (h.2.2.2.2.2.2.1 wregisterWrites11 9 4 .a 0xFFFFFFFF#32 (wregisterWrites11.on 9) rfl (by decide +kernel) (by decide +kernel)),
   ranTime (h.2.2.2.2.2.2.2.1 wregisterWrites12 9 1 .a 0xFFFFFFFF#32 (by decide +kernel)),
   ran (h.2.2.2.2.2.2.2.2.1 wregisterWrites13 9 .a 0xAAAA#32 .GLB_GPIO_OUT (wregisterWrites13.on 9) rfl (by decide +kernel) (.inr (.inl rfl))),
   ran (h.2.2.2.2.2.2.2.2.1 wregisterWrites14 9 .b 0x00F0FFFF#32 .GLB_GPIO_DIR (wregisterWrites14.on 9) rfl (by decide +kernel) (.inl rfl)),
   ran (h.2.2.2.2.2.2.2.2.2.1 wregisterWrites15 9 .b 3#32 (wregisterWrites15.on 9) rfl (by decide +kernel) (by decide +kernel)),
   ran (h.2.2.2.2.2.2.2.2.2.1 wregisterWrites16 9 .b 2#32 (wregisterWrites16.on 9) rfl (by decide +kernel) (by decide +kernel)),
   h.2.2.2.2.2.2.2.2.2.2.1 wregisterWrites17 9 .b true 0xFFFF0000#32 (by decide +kernel),
   h.2.2.2.2.2.2.2.2.2.2.1 wregisterWrites18 9 .b false 0xFFFF0000#32 (by decide +kernel),
   h.2.2.2.2.2.2.2.2.2.2.2.1 wregisterWrites19 9 7 .b false 0x005#32 (by decide +kernel) (by decide +kernel),
   h.2.2.2.2.2.2.2.2.2.2.2.1 wregisterWrites20 9 7 .b true 0x10000005#32 (by decide +kernel) (by decide +kernel),
   h.2.2.2.2.2.2.2.2.2.2.2.2.1 wregisterWrites21 9 .a (F.CLK_SYN_N_enable.put (F.CLK_SYN_N_n.put 0#32 18) 1) (by decide +kernel),
   h.2.2.2.2.2.2.2.2.2.2.2.2.2.1 wregisterWrites22 9 47 .a 0xFFFFFFFF#32 (by decide +kernel) (by decide +kernel),
   h.2.2.2.2.2.2.2.2.2.2.2.2.2.1 wregisterWrites23 9 47 .a 0x7FFFFFFF#32 (by decide +kernel) (by decide +kernel),
   h.2.2.2.2.2.2.2.2.2.2.2.2.2.2.1 wregisterWrites24 9 15 .a clsA (by decide +kernel) (by decide +kernel),
   h.2.2.2.2.2.2.2.2.2.2.2.2.2.2.2 wregisterWrites25 9 15 .b 3#32 (by decide +kernel) (by decide +kernel)⟩

def wstartUps1 : State := stm { larder := [(3, 4#8), (0x300001, 8#8)], sram := [(4, 5#8), (0x40000, 6#8)] } fun d => d.put F.CLK_STATUS_xa_usable true
def wstartUps2 : State := stm { larder := [(3, 4#8), (0x300001, 8#8)], sram := [(4, 5#8), (0x40000, 6#8)] } fun d => d
def wstartUps3 : State := st fun d => d.put F.CLK_STATUS_xa_usable true
def wstartUps4 : State := stm { larder := [(0x168000, 8#8)] } id
def wstartUps5 : State := stm { larder := [(3, 4#8), (0x300001, 8#8)], sram := [(4, 5#8), (0x40000, 6#8)] } fun d => { d with start := { d.start with resetLow := true } }
def wstartUps6 : State := st fun d => { d with start := { d.start with resetLow := true, supplied := true } }
def wstartUps7 : State := stm { larder := [(3, 4#8), (0x300001, 8#8)], sram := [(4, 5#8), (0x40000, 6#8)] } fun d => { d with start := { d.start with resetLow := true, supplied := true } }
def wstartUps8 : State := stm { larder := [(3, 4#8), (0x300001, 8#8)], sram := [(4, 5#8), (0x40000, 6#8)] } fun d => lar (fun l => { l with ending := true, page := some 5 }) { d with start := { d.start with resetLow := true, supplied := true } }
def wstartUps9 : State := stm { larder := [(3, 4#8), (0x300001, 8#8)], sram := [(4, 5#8), (0x40000, 6#8)] } fun d => lar (fun l => { l with ending := true, page := some 0x3000, image := [1#8] }) { d with start := { d.start with bootDue := true } }
def wstartUps10 : State := stm { larder := [(3, 4#8), (0x300001, 8#8)], sram := [(4, 5#8), (0x40000, 6#8)] } fun d => { d with start := { d.start with resetLow := true } }
def wstartUps11 : State := st id

theorem test_StartUps (h : Obligations.StartUps) :
    Ran (.suppliesValid 9 63) wstartUps1
    ∧ Ran (.suppliesValid 9 0) wstartUps2
    ∧ Ran (.suppliesValid 9 63) wstartUps3
    ∧ Ran (.suppliesValid 9 63) wstartUps4
    ∧ Ran (.suppliesValid 9 63) wstartUps5
    ∧ Ran (.suppliesValid 9 63) wstartUps6
    ∧ Ran (.resetRelease 9 63) wstartUps7
    ∧ Ran (.resetRelease 9 63) wstartUps8
    ∧ Ran (.larderPageWriteDone 9 true) wstartUps9
    ∧ Ran (.resetRelease 9 63) wstartUps10
    ∧ Ran (.resetRelease 9 63) wstartUps11 :=
  ⟨by refine ranMem (h.1 wstartUps1 9 63 (wstartUps1.on 9) rfl ?_ ?_ ?_ ?_) <;> decide +kernel,
   by refine ranMem (h.1 wstartUps2 9 0 (wstartUps2.on 9) rfl ?_ ?_ ?_ ?_) <;> decide +kernel,
   by refine ranMem (h.2.1 wstartUps3 9 63 (wstartUps3.on 9) rfl ?_ ?_ ?_ ?_ ?_ ?_) <;> decide +kernel,
   by refine ranMem (h.2.2.1 wstartUps4 9 63 _ (wstartUps4.on 9) rfl ?_ ?_ ?_ ?_ ?_ rfl ?_ ?_) <;> decide +kernel,
   by refine ranMem (h.2.2.2.1 wstartUps5 9 63 (wstartUps5.on 9) rfl ?_ ?_ ?_) <;> decide +kernel,
   ranTime (h.2.2.2.2.1 wstartUps6 9 63 (by decide +kernel) (by decide +kernel)),
   by refine ranMem (h.2.2.2.2.2.1 wstartUps7 9 63 (wstartUps7.on 9) rfl ?_ ?_ ?_ ?_) <;> decide +kernel,
   by refine ranMem (h.2.2.2.2.2.2.1 wstartUps8 9 63 (wstartUps8.on 9) rfl ?_ ?_ ?_ ?_) <;> decide +kernel,
   by refine ranMem (h.2.2.2.2.2.2.2.1 wstartUps9 9 0x3000 (wstartUps9.on 9) rfl ?_ ?_ ?_) <;> decide +kernel,
   by refine ranMem (h.2.2.2.2.2.2.2.2.1 wstartUps10 9 63 (wstartUps10.on 9) rfl ?_ ?_ ?_) <;> decide +kernel,
   ranTime (h.2.2.2.2.2.2.2.2.2 wstartUps11 9 63 (by decide +kernel) (by decide +kernel))⟩

def wresetsAndSupplies1 : State := stm { larder := [(3, 4#8), (0x300001, 8#8)], sram := [(4, 5#8), (0x40000, 6#8)] } fun d => pgw 2 257 false (twn (ras (ltc 0 d)))
def wresetsAndSupplies2 : State := stm { larder := [(3, 4#8), (0x300001, 8#8)], sram := [(4, 5#8), (0x40000, 6#8)] } fun d => { (twn (ras (ltc 0 d)) |>.put F.GLB_START_boothold true |>.wr F.GLB_START_xadly 5) with clk := { d.clk with cko := [(3, some { mode := 2, idle := false, src := 4, div := 2 })], diag := some (0, 0, 0) } }
def wresetsAndSupplies3 : State := st id
def wresetsAndSupplies4 : State := stm { larder := [(3, 4#8), (0x300001, 8#8)], sram := [(4, 5#8), (0x40000, 6#8)] } fun d => pgw 2 257 false (twn (ras (ltc 0 d)))
def wresetsAndSupplies5 : State := stm { larder := [(3, 4#8), (0x300001, 8#8)], sram := [(4, 5#8), (0x40000, 6#8)] } fun d => { (twn (ras (ltc 0 d))) with start := { d.start with supplied := true, railOut := [7], railAt := [(7, 5)] } }
def wresetsAndSupplies6 : State := stm { larder := [(3, 4#8), (0x300001, 8#8)], sram := [(4, 5#8), (0x40000, 6#8)] } fun d => { (pgw 2 257 false d) with start := { d.start with supplied := true, railOut := [7], railAt := [(7, 5)] } }
def wresetsAndSupplies7 : State := stm { larder := [(3, 4#8), (0x300001, 8#8)], sram := [(4, 5#8), (0x40000, 6#8)] } fun d => { (pgw 2 257 false d) with start := { d.start with supplied := true, railOut := [7], railAt := [(7, 5)] } }
def wresetsAndSupplies8 : State := stm { larder := [(3, 4#8), (0x300001, 8#8)], sram := [(4, 5#8), (0x40000, 6#8)] } fun d => { (pgw 2 257 false d) with start := { d.start with supplied := true, railOut := [7], railAt := [(7, 5)] } }
def wresetsAndSupplies9 : State := stm { larder := [(3, 4#8), (0x300001, 8#8)], sram := [(4, 5#8), (0x40000, 6#8)] } fun d => { (pgw 2 257 false d) with start := { d.start with supplied := true, railOut := [7], railAt := [(7, 5)] } }
def wresetsAndSupplies10 : State := stm { larder := [(3, 4#8), (0x300001, 8#8)], sram := [(4, 5#8), (0x40000, 6#8)] } fun d => lar (fun l => { l with torn := [(0x2FFFFF, 3)] }) ({ (pgw 2 257 false d) with start := { d.start with supplied := true, railOut := [7], railAt := [(7, 5)] } })
def wresetsAndSupplies11 : State := stm { larder := [(3, 4#8), (0x300001, 8#8)], sram := [(4, 5#8), (0x40000, 6#8)] } fun d => { d with start := { d.start with supplied := true, railOut := [7], railAt := [(7, 5)] } }
def wresetsAndSupplies12 : State := st fun d => { d with start := { d.start with supplied := true } }
def wresetsAndSupplies13 : State := st fun d => { (d.setBit F.GLB_SUPPLY_in_window 7 false) with start := { d.start with supplied := true, booted := true, railOut := [7], railAt := [(7, 3), (2, 1)] } }
def wresetsAndSupplies14 : State := st fun d => { (d.put F.GLB_START_brownout true) with start := { d.start with supplied := false } }
def wresetsAndSupplies15 : State := st fun d => { d with start := { d.start with resetLow := true, supplied := true } }
def wresetsAndSupplies16 : State := st fun d => { (d.setBit F.GLB_SUPPLY_in_window 7 false) with start := { d.start with railOut := [7] } }
def wresetsAndSupplies17 : State := stm { larder := [(3, 4#8), (0x300001, 8#8)], sram := [(4, 5#8), (0x40000, 6#8)] } fun d => lar (fun l => { l with queue := [pgc 3 6 false, { cls := 0, addr := 0x3FFFFF, data := [1#8] }] }) { (d.setBit F.GLB_SUPPLY_in_window 7 false) with start := { d.start with railOut := [7] } }
def wresetsAndSupplies18 : State := st fun d => d.modPlane .b fun x => { x with training := true }
def wresetsAndSupplies19 : State := st fun d => d.modPlane .b fun x => { x with training := true }
def wresetsAndSupplies20 : State := st id

theorem test_ResetsAndSupplies (h : Obligations.ResetsAndSupplies) :
    Ran (.resetAssert 9 1000) wresetsAndSupplies1
    ∧ Ran (.resetAssert 9 1000) wresetsAndSupplies2
    ∧ Ran (.resetAssert 9 99) wresetsAndSupplies3
    ∧ Ran (.resetAssert 9 999) wresetsAndSupplies4
    ∧ Ran (.brownOut (50 * usU) true .beforeErase) wresetsAndSupplies5
    ∧ Ran (.brownOut (50 * usU) false (.programming 31)) wresetsAndSupplies6
    ∧ Ran (.brownOut (50 * usU) true (.programming 0)) wresetsAndSupplies7
    ∧ Ran (.brownOut (50 * usU) true .beforeErase) wresetsAndSupplies8
    ∧ Ran (.brownOut (50 * usU) true .duringErase) wresetsAndSupplies9
    ∧ Ran (.brownOut (50 * usU) true .programmed) wresetsAndSupplies10
    ∧ Ran (.brownOut (47 * usU) true .beforeErase) wresetsAndSupplies11
    ∧ Ran (.railDeparture 9 7) wresetsAndSupplies12
    ∧ Ran (.railDeparture 9 7) wresetsAndSupplies13
    ∧ Ran (.railDeparture 9 2) wresetsAndSupplies14
    ∧ Ran (.railDeparture 9 7) wresetsAndSupplies15
    ∧ Ran (.railReturn 9 7) wresetsAndSupplies16
    ∧ Ran (.railReturn 9 7) wresetsAndSupplies17
    ∧ Ran (.stackTrainDone 9 .b 0xF0000000#32) wresetsAndSupplies18
    ∧ Ran (.stackTrainDone 9 .b 0xF8000000#32) wresetsAndSupplies19
    ∧ Ran (.stackTrainDone 9 .b 0xF8000000#32) wresetsAndSupplies20 :=
  ⟨ranMem (h.1 wresetsAndSupplies1 9 1000 (wresetsAndSupplies1.on 9) rfl (by decide +kernel)),
   ranMem (h.1 wresetsAndSupplies2 9 1000 (wresetsAndSupplies2.on 9) rfl (by decide +kernel)),
   ranTime (h.2.1 wresetsAndSupplies3 9 99 (by decide +kernel)),
   ranMem (h.2.2.1 wresetsAndSupplies4 9 999 (wresetsAndSupplies4.on 9) rfl (by decide +kernel) (by decide +kernel)),
   by refine ranMem (h.2.2.2.1 wresetsAndSupplies5 (50 * usU) 7 true .beforeErase (wresetsAndSupplies5.on (50 * usU)) rfl ?_ ⟨ ?_ , ?_ , ?_ ⟩ ?_) <;> decide +kernel,
   by refine ranMem (h.2.2.2.2.1 wresetsAndSupplies6 (50 * usU) 7 0x3000 false (.programming 31) _ (wresetsAndSupplies6.on (50 * usU)) rfl ?_ ⟨ ?_ , ?_ , ?_ ⟩ ?_ ?_ rfl) <;> decide +kernel,
   by refine ranMem (h.2.2.2.2.1 wresetsAndSupplies7 (50 * usU) 7 0x3000 true (.programming 0) _ (wresetsAndSupplies7.on (50 * usU)) rfl ?_ ⟨ ?_ , ?_ , ?_ ⟩ ?_ ?_ rfl) <;> decide +kernel,
   by refine ranMem (h.2.2.2.2.1 wresetsAndSupplies8 (50 * usU) 7 0x3000 true .beforeErase _ (wresetsAndSupplies8.on (50 * usU)) rfl ?_ ⟨ ?_ , ?_ , ?_ ⟩ ?_ ?_ rfl) <;> decide +kernel,
   by refine ranMem (h.2.2.2.2.1 wresetsAndSupplies9 (50 * usU) 7 0x3000 true .duringErase _ (wresetsAndSupplies9.on (50 * usU)) rfl ?_ ⟨ ?_ , ?_ , ?_ ⟩ ?_ ?_ rfl) <;> decide +kernel,
   by refine ranMem (h.2.2.2.2.1 wresetsAndSupplies10 (50 * usU) 7 0x3000 true .programmed _ (wresetsAndSupplies10.on (50 * usU)) rfl ?_ ⟨ ?_ , ?_ , ?_ ⟩ ?_ ?_ rfl) <;> decide +kernel,
   ranTime (h.2.2.2.2.2.1 wresetsAndSupplies11 (47 * usU) true .beforeErase (wresetsAndSupplies11.on (47 * usU)) rfl (by decide +kernel) (fun r h => (by decide +kernel : ∀ r ∈ [7], (wresetsAndSupplies11.on (47 * usU)).now < Tbl.get 0 (wresetsAndSupplies11.on (47 * usU)).start.railAt r + 48 * usU) r h)),
   by refine ran (h.2.2.2.2.2.2.1 wresetsAndSupplies12 9 7 (wresetsAndSupplies12.on 9) rfl ?_ ?_ ?_) <;> decide +kernel,
   by refine ran (h.2.2.2.2.2.2.1 wresetsAndSupplies13 9 7 (wresetsAndSupplies13.on 9) rfl ?_ ?_ ?_) <;> decide +kernel,
   ran (h.2.2.2.2.2.2.2.1 wresetsAndSupplies14 9 2 (wresetsAndSupplies14.on 9) rfl (by decide +kernel) (.inl (by decide +kernel) )),
   ran (h.2.2.2.2.2.2.2.1 wresetsAndSupplies15 9 7 (wresetsAndSupplies15.on 9) rfl (by decide +kernel) (.inr (by decide +kernel) )),
   ran (h.2.2.2.2.2.2.2.2.1 wresetsAndSupplies16 9 7 (wresetsAndSupplies16.on 9) rfl (by decide +kernel) (by decide +kernel)),
   by refine ran (h.2.2.2.2.2.2.2.2.2.1 wresetsAndSupplies17 9 7 { cls := 0, addr := 0x3FFFFF, data := [1#8] } (wresetsAndSupplies17.on 9) rfl ?_ ?_ ?_ ?_ (fun r h => (by decide +kernel : ∀ r ∈ [7], r = 7) r h)) <;> decide +kernel,
   ran (h.2.2.2.2.2.2.2.2.2.2.1 wresetsAndSupplies18 9 .b 0xF0000000#32 ((wresetsAndSupplies18.on 9).landDue) rfl (by decide +kernel) (by decide +kernel)),
   ran (h.2.2.2.2.2.2.2.2.2.2.2.1 wresetsAndSupplies19 9 .b 0xF8000000#32 (by decide +kernel) (by decide +kernel)),
   ranTime (h.2.2.2.2.2.2.2.2.2.2.2.2 wresetsAndSupplies20 9 .b 0xF8000000#32 (by decide +kernel))⟩

def wreadiness1 : State := st fun d => rst true d
def wreadiness2 : State := st id
def wreadiness3 : State := st fun d => { ((rst false d).setReg .TB_CLASS 5 clsA) with start := { d.start with shadow := [(1, 1151, jou)] } }
def wreadiness4 : State := st fun d => { rst false d with start := { d.start with shadow := [(1, 1151, jou)] } }
def wreadiness5 : State := st fun d => { rst false d with start := { d.start with shadow := [(2, 4607, List.replicate 32 0xA5#8)] } }
def wreadiness6 : State := st fun d => { rst false d with start := { d.start with shadow := [(5, regOff .TB_REF_NUM 3, List.replicate 32 0xA5#8)] } }
def wreadiness7 : State := st fun d => { rst false d with start := { d.start with shadow := [(5, regOff .HIF_ERR 1, List.replicate 32 0xA5#8)] } }
def wreadiness8 : State := st fun d => (ras d).wr F.GLB_START_phase 3
def wreadiness9 : State := st fun d => (ras d).modOut 1151 (fun x => { x with after := 5 * secU }) |>.wr F.GLB_START_phase 3
def wreadiness10 : State := st fun d => d.put F.TB_STATUS_grace_open true
def wreadiness11 : State := st id

theorem test_Readiness (h : Obligations.Readiness) :
    Ran (.restore 9) wreadiness1
    ∧ Ran (.restore 9) wreadiness2
    ∧ Ran (.restore 9) wreadiness3
    ∧ Ran (.restore 9) wreadiness4
    ∧ Ran (.restore 9) wreadiness5
    ∧ Ran (.restore 9) wreadiness6
    ∧ Ran (.restore 9) wreadiness7
    ∧ Ran (.ready 9) wreadiness8
    ∧ Ran (.ready 9) wreadiness9
    ∧ Ran (.graceClosed (30 * secU)) wreadiness10
    ∧ Ran (.graceClosed 9) wreadiness11 :=
  ⟨by refine ran (h.1 wreadiness1 9 (wreadiness1.on 9) rfl ?_ ?_ ?_ ?_) <;> decide +kernel,
   ranTime (h.2.1 wreadiness2 9 (wreadiness2.on 9) rfl (.inl (by decide +kernel) )),
   by refine ran (h.2.2.1 wreadiness3 9 1151 jou (wreadiness3.on 9) rfl ⟨ ?_ , ?_ , ?_ , ?_ ⟩ ?_ ?_ ?_ ?_ ?_ ?_) <;> decide +kernel,
   by refine ran (h.2.2.2.1 wreadiness4 9 1151 jou (wreadiness4.on 9) rfl ⟨ ?_ , ?_ , ?_ , ?_ ⟩ ?_ ?_ (.inl ?_ )) <;> decide +kernel,
   by refine ran (h.2.2.2.2.1 wreadiness5 9 4607 (List.replicate 32 0xA5#8) (wreadiness5.on 9) rfl ⟨ ?_ , ?_ , ?_ , ?_ ⟩ ?_) <;> decide +kernel,
   by refine ran (h.2.2.2.2.2.1 wreadiness6 9 (regOff .TB_REF_NUM 3) 3 .TB_REF_NUM (List.replicate 32 0xA5#8) (wreadiness6.on 9) rfl ⟨ ?_ , ?_ , ?_ , ?_ ⟩ ?_ ?_ ?_ ?_ ?_) <;> decide +kernel,
   by refine ran (h.2.2.2.2.2.2.1 wreadiness7 9 (regOff .HIF_ERR 1) 1 .HIF_ERR (List.replicate 32 0xA5#8) (wreadiness7.on 9) rfl ⟨ ?_ , ?_ , ?_ , ?_ ⟩ ?_ ?_ ?_) <;> decide +kernel,
   ran (h.2.2.2.2.2.2.2.1 wreadiness8 9 (wreadiness8.on 9) rfl (by decide +kernel) (by decide +kernel)),
   ranTime (h.2.2.2.2.2.2.2.2.1 wreadiness9 9 (wreadiness9.on 9) rfl (.inr (by decide +kernel) )),
   ran (h.2.2.2.2.2.2.2.2.2.1 wreadiness10 (30 * secU) (wreadiness10.on (30 * secU)) rfl (by decide +kernel) (by decide +kernel)),
   ranTime (h.2.2.2.2.2.2.2.2.2.2 wreadiness11 9 (wreadiness11.on 9) rfl (.inl (by decide +kernel) ))⟩

def wthermalSteps1 : State := st fun d => thm (fun x => { x with alert := true }) d
def wthermalSteps2 : State := st fun d => thm id d
def wthermalSteps3 : State := st fun d => (thm (fun x => { x with safe := true, below95 := some 3, at' := 2 }) d).wr F.GLB_THERM_tj 101
def wthermalSteps4 : State := st fun d => thm (fun x => { x with alert := true, step := true }) d
def wthermalSteps5 : State := st fun d => (thm id (ln 5 6 d)).put F.GLB_START_laneref true
def wthermalSteps6 : State := st fun d => { (thm (fun x => { x with step := true }) d).put F.CLK_STATUS_safe true with clk := { d.clk with triggers := [1] } }
def wthermalSteps7 : State := st fun d => (thm id d).wr F.GLB_THERM_tj 55
def wthermalSteps8 : State := st fun d => { (thm id d).put F.CLK_STATUS_safe true with clk := { d.clk with triggers := [1] } }
def wthermalSteps9 : State := st id
def wthermalSteps10 : State := st id
def wthermalSteps11 : State := st fun d => thm (fun x => { x with alert := true, step := true, below95 := some 0, below105 := some 0 }) d
def wthermalSteps12 : State := st fun d => thm (fun x => { x with step := true, alert := true, safe := true, below105 := some 0 }) d
def wthermalSteps13 : State := st fun d => { (thm (fun x => { x with safe := true, below95 := some 0, below105 := some 0 }) (ln 5 6 d)).put F.CLK_STATUS_safe true with clk := { d.clk with triggers := [4, 1] } }
def wthermalSteps14 : State := st fun d => { ((thm (fun x => { x with safe := true, below105 := some 0 }) (ln 5 6 d)).wr F.CLK_STATUS_ls_a_state 2).put F.CLK_STATUS_safe true with clk := { d.clk with triggers := [4] } }
def wthermalSteps15 : State := st id

theorem test_ThermalSteps (h : Obligations.ThermalSteps) :
    Ran (.thermalSample 9 104) wthermalSteps1
    ∧ Ran (.thermalSample 9 119) wthermalSteps2
    ∧ Ran (.thermalSample 9 300) wthermalSteps3
    ∧ Ran (.thermalSample 9 120) wthermalSteps4
    ∧ Ran (.thermalSample 9 400) wthermalSteps5
    ∧ Ran (.thermalSample 9 120) wthermalSteps6
    ∧ Ran (.thermalTrip120 9) wthermalSteps7
    ∧ Ran (.thermalTrip120 9) wthermalSteps8
    ∧ Ran (.thermalTrip120 9) wthermalSteps9
    ∧ Ran (.thermalSample 9 120) wthermalSteps10
    ∧ Ran (.thermalStepLeave secU) wthermalSteps11
    ∧ Ran (.thermalStepLeave (10 * secU)) wthermalSteps12
    ∧ Ran (.thermalStepLeave (10 * secU)) wthermalSteps13
    ∧ Ran (.thermalStepLeave (10 * secU)) wthermalSteps14
    ∧ Ran (.thermalStepLeave 9) wthermalSteps15 :=
  ⟨by refine ran (h.1 wthermalSteps1 9 104 true false (wthermalSteps1.on 9) rfl ?_ ?_ ?_ (.inl ?_ )) <;> decide +kernel,
   by refine ran (h.1 wthermalSteps2 9 119 true true (wthermalSteps2.on 9) rfl ?_ ?_ ?_ (.inl ?_ )) <;> decide +kernel,
   by refine ran (h.1 wthermalSteps3 9 300 true true (wthermalSteps3.on 9) rfl ?_ ?_ ?_ (.inr ?_ )) <;> decide +kernel,
   by refine ran (h.2.1 wthermalSteps4 9 120 (wthermalSteps4.on 9) rfl ?_ ?_ ?_ ?_) <;> decide +kernel,
   by refine ran (h.2.1 wthermalSteps5 9 400 (wthermalSteps5.on 9) rfl ?_ ?_ ?_ ?_) <;> decide +kernel,
   by refine ran (h.2.2.1 wthermalSteps6 9 120 (wthermalSteps6.on 9) rfl ?_ ?_ ?_ ?_) <;> decide +kernel,
   by refine ran (h.2.2.2.1 wthermalSteps7 9 (wthermalSteps7.on 9) rfl ?_ ?_ ?_) <;> decide +kernel,
   by refine ran (h.2.2.2.2.1 wthermalSteps8 9 (wthermalSteps8.on 9) rfl ?_ ?_ ?_) <;> decide +kernel,
   ranTime (h.2.2.2.2.2.1 wthermalSteps9 9 (.inl (by decide +kernel) )),
   ranTime (h.2.2.2.2.2.2.1 wthermalSteps10 9 120 (by decide +kernel)),
   ran (h.2.2.2.2.2.2.2.1 wthermalSteps11 secU (wthermalSteps11.on secU) rfl (by decide +kernel) ⟨0, rfl, (by decide +kernel) ⟩ (by rintro ⟨b, h, k⟩; cases h; exact absurd k (by decide))),
   ran (h.2.2.2.2.2.2.2.2.1 wthermalSteps12 (10 * secU) (wthermalSteps12.on (10 * secU)) rfl ⟨0, rfl, (by decide +kernel) ⟩ (.inl (by decide +kernel) )),
   by refine ran (h.2.2.2.2.2.2.2.2.1 wthermalSteps13 (10 * secU) (wthermalSteps13.on (10 * secU)) rfl ⟨0, rfl, ?_ ⟩ (.inr ⟨1, ?_ , ?_ ⟩)) <;> decide +kernel,
   ran (h.2.2.2.2.2.2.2.2.2.1 wthermalSteps14 (10 * secU) (wthermalSteps14.on (10 * secU)) rfl ⟨0, rfl, (by decide +kernel) ⟩ (by decide +kernel) (fun c h => (by decide : ∀ c ∈ [4], c = 4) c h)),
   ranTime (h.2.2.2.2.2.2.2.2.2.2 wthermalSteps15 9 (wthermalSteps15.on 9) rfl (.inl (by decide +kernel) ) (by rintro ⟨b, h, k⟩; cases h))⟩

def wsmbusAndTap1 : State := st fun d => { d with start := { d.start with supplied := true } }
def wsmbusAndTap2 : State := st fun d => { d with start := { d.start with supplied := true } }
def wsmbusAndTap3 : State := st id
def wsmbusAndTap4 : State := st id
def wsmbusAndTap5 : State := st id
def wsmbusAndTap6 : State := st id
def wsmbusAndTap7 : State := st id
def wsmbusAndTap8 : State := st fun d => { d with start := { d.start with boundary := [true, false] } }

theorem test_SmbusAndTap (h : Obligations.SmbusAndTap) :
    Ran (.smbusBlockRead 9 8 true) wsmbusAndTap1
    ∧ Ran (.smbusBlockRead 9 0 false) wsmbusAndTap2
    ∧ Ran (.smbusBlockRead 9 3 true) wsmbusAndTap3
    ∧ Ran (.smbusTimeout 9) wsmbusAndTap4
    ∧ Ran (.bypass 9) wsmbusAndTap5
    ∧ Ran (.idcode 9) wsmbusAndTap6
    ∧ Ran (.samplePreload 9 [true, false, true] [false, true, true, true]) wsmbusAndTap7
    ∧ Ran (.extest 9) wsmbusAndTap8 :=
  ⟨ran (h.1 wsmbusAndTap1 9 8 true _ (wsmbusAndTap1.on 9) rfl (by decide +kernel) (.inr (.inr (.inr (.inr (.inr (.inr (.inr (.inr (.inl ⟨rfl, rfl⟩)))))))))),
   ran (h.1 wsmbusAndTap2 9 0 false _ (wsmbusAndTap2.on 9) rfl (by decide +kernel) (.inl ⟨rfl, rfl⟩)),
   ranTime (h.2.1 wsmbusAndTap3 9 3 true (.inr (by decide +kernel))),
   ran (h.2.2.1 wsmbusAndTap4 9 (wsmbusAndTap4.on 9) rfl),
   ran (h.2.2.2.1 wsmbusAndTap5 9 (wsmbusAndTap5.on 9) rfl),
   ran (h.2.2.2.2.1 wsmbusAndTap6 9 (wsmbusAndTap6.on 9) rfl),
   ran (h.2.2.2.2.2.1 wsmbusAndTap7 9 [true, false, true] [false, true, true, true] (wsmbusAndTap7.on 9) rfl),
   ran (h.2.2.2.2.2.2 wsmbusAndTap8 9 (wsmbusAndTap8.on 9) rfl)⟩

/-! ### Witnesses of the statements about the machine -/

theorem test_StepTakesFront (h : Obligations.StepTakesFront) : step {} = .next {} := h.2 {} rfl

/-- A step of LANE_ENABLE with a byte listed in the Larder keeps the memories canonical. -/
theorem test_StepKeepsMemories (h : Obligations.StepKeepsMemories) (s' : State)
    (hs : step { pending := [.laneEnable 9 383], mem := { larder := [(0x3FFFFF, 0#8)] } } = .next s') : s'.Inv :=
  h _ _ (show Mems.wf _ = true by decide) hs

theorem test_Outcomes (h : Obligations.Outcomes) :
    exec (.laneEnable 9 384) {} = .fault .noSuchElement ∧ Ran (.laneEnable 9 383) {}
      ∧ ∀ s', step { pending := [.laneEnable 9 383, .graceClosed 9] } = .next s' → s'.pending = [.graceClosed 9] :=
  ⟨h.1 _ _ rfl, (h.2.1 _ _ rfl).elim fun _ x => ⟨_, x.1⟩, fun _ x => h.2.2 _ _ x⟩

/-- The epoch counters stand at reset and run with the device clock once they have started. -/
theorem test_TimePasses (h : Obligations.TimePasses) :
    ((({} : State).on 9).tim = ({} : State).dev.tim)
    ∧ ((((st fun d => { d with tim := { d.tim with running := true } }).on 9).tb .b).epoch = 9) :=
  ⟨h.2.1 {} 9 (.inl rfl), (h.2.2 (st fun d => { d with tim := { d.tim with running := true } }) 9 .b rfl (by decide +kernel)
    rfl (by decide +kernel)).1.trans (by decide +kernel)⟩

theorem test_MemoriesHeld (h : Obligations.MemoriesHeld) (s' : State)
    (hs : exec (.laneEnable 9 383) { mem := { larder := [(0x3FFFFF, 0#8)] } } = .next s') :
    s'.mem.larder = [(0x3FFFFF, 0#8)] ∧ s'.mem.sram = [] ∧ s'.mem.hamper = ⟨[], []⟩ :=
  have k := h _ _ _ hs (by simp)
  ⟨k.1 (by simp), k.2.1 (by simp) (by simp) (by simp) (by simp) (by simp), k.2.2 (by simp) (by simp) (by simp) (by simp) (by simp) (by simp) (by simp)⟩

/-- K28.5 and D21.5 of the COM words, received at the disparity they were sent at and at the other; an IDL word, a CAP and an
empty Breeze message. -/
theorem test_LaneCoding (h : Obligations.LaneCoding) :
    receive false 0x0FA = .ok (.k 0xBC#8) ∧ receive true 0x0FA = .disparity (.k 0xBC#8) ∧ receive false 0 = .code
    ∧ ones 10 0x0FA = 6
    ∧ (lineBits true [.k 0xBC#8, .d 0xB5#8]).length = 20
    ∧ (∀ w ∈ (LaneSet.idl 3).words, w.length = 4)
    ∧ (LaneSet.cap (List.replicate 15 7#8)).words.flatten.length = 16
    ∧ (parcelWords 7 (List.replicate 16 1#8) [0#32, 1#32]).length = 8
    ∧ brzCheck (brzMsg 1 0 5 [9#8]) = some (brzHead 1 0 5 [9#8])
    ∧ (∀ w ∈ brzMsg 1 0 5 [9#8], w.length = 3) ∧ (brzMsg 1 0 5 [9#8]).length = brzLen (fieldAt (brzHead 1 0 5 [9#8]) 1 1) :=
  have b := h.2.2.2.2.2.2.2.2.1 1 0 5 [9#8] (by decide)
  ⟨h.1 false (.k 0xBC#8) 0x0FA (by decide +kernel), h.2.1 true (.k 0xBC#8) 0x0FA (by decide +kernel) (by decide +kernel),
    h.2.2.1 false 0 (by intro r x; cases r <;> rcases x with x | x <;> revert x <;> decide +kernel),
    (by decide +kernel), h.2.2.2.2.1 true _, h.2.2.2.2.2.1 (.idl 3),
    by rw [h.2.2.2.2.2.2.1 (List.replicate 15 7#8) (by decide)]; rfl,
    (h.2.2.2.2.2.2.2.1 7 (List.replicate 16 1#8) [0#32, 1#32] (by decide)).1, b.1, b.2.2,
    (h.2.2.2.2.2.2.2.2.2 _ _ b.1).1⟩

end Sys2Proof.Machine.Tests
end

section
/-! SUPPORT. Every command answers one of two things; from it what holds of every step, and what reset leaves. -/

namespace Sys2Proof.Machine

/-- Everything `exec` can answer: a well-formed command goes on with the queue it found, an ill-formed one faults. -/
theorem exec_answers (c : Instr) (s : State) : ∃ (m : Mems) (d : Dev),
    exec c s = if c.wf then .next { s with mem := m, dev := d } else .fault .noSuchElement := by
  cases c <;> exact ⟨_, _, rfl⟩

theorem exec_fault_of_not_wf {c : Instr} (s : State) (h : c.wf = false) : exec c s = .fault .noSuchElement := by
  obtain ⟨m, d, e⟩ := exec_answers c s
  simpa [h] using e

theorem exec_next_of_wf {c : Instr} (s : State) (h : c.wf = true) :
    ∃ (m : Mems) (d : Dev), exec c s = .next { s with mem := m, dev := d } := by
  obtain ⟨m, d, e⟩ := exec_answers c s
  exact ⟨m, d, by simpa [h] using e⟩

/-- A command that answers a next state keeps the queue. -/
theorem exec_next_pending {c : Instr} {s s' : State} (h : exec c s = .next s') : s'.pending = s.pending := by
  obtain ⟨m, d, e⟩ := exec_answers c s
  rw [h] at e
  cases hc : c.wf <;> simp only [hc, if_true, Bool.false_eq_true, if_false] at e <;> cases e
  rfl

theorem step_next_pending {s s' : State} (h : step s = .next s') : s'.pending = s.pending.drop 1 := by
  obtain ⟨pending, mem, dev⟩ := s
  cases pending with
  | nil => cases h; rfl
  | cons c rest => exact exec_next_pending (s := ⟨rest, mem, dev⟩) h

/-- Settles O5: every arm of `exec` is a check of the command's elements and an effect on the memories and the device. -/
theorem outcomes : Obligations.Outcomes := by
  refine ⟨fun c s h => exec_fault_of_not_wf s h, fun c s h => ?_, fun s s' h => step_next_pending h⟩
  obtain ⟨m, d, e⟩ := exec_next_of_wf s h
  exact ⟨_, e, rfl⟩

/-- Settles O2: reset is the state in which every table is empty, and a register that is not listed reads its reset value. -/
theorem resetState : Obligations.ResetState := by
  refine ⟨rfl, fun _ _ => rfl, fun _ => rfl, fun _ => ⟨rfl, rfl, rfl⟩, fun _ _ => rfl, rfl, fun p => ?_⟩
  cases p <;> exact ⟨rfl, rfl⟩

/-- Settles O3: an empty memory is canonical. -/
theorem resetInv : Obligations.ResetInv := ⟨rfl, rfl⟩

end Sys2Proof.Machine
end

section
/-! SUPPORT. More laws of registers and frames: reads under a frame, the device's own writes of flags, counters and mask bits, and
what a journal note and an emission leave. -/

namespace Sys2Proof.Machine

/-! ### Reads under a frame -/

theorem Keeps.rd {as : List Area} {rs : List RegName} {d e : Dev} (h : Keeps as rs d e) {f : Field} (i : Nat)
    (hf : f.reg ∉ rs) : e.rd f i = d.rd f i := by rw [Dev.rd, Dev.rd, h.2.2 f.reg i hf]

theorem Keeps.flag {as : List Area} {rs : List RegName} {d e : Dev} (h : Keeps as rs d e) {f : Field} (i : Nat)
    (hf : f.reg ∉ rs) : e.flag f i = d.flag f i := by rw [Dev.flag, Dev.flag, h.rd i hf]

theorem Keeps.bitAt {as : List Area} {rs : List RegName} {d e : Dev} (h : Keeps as rs d e) {f : Field} (k i : Nat)
    (hf : f.reg ∉ rs) : e.bitAt f k i = d.bitAt f k i := by rw [Dev.bitAt, Dev.bitAt, h.rd i hf]

/-! ### Status bits (R13) -/

@[simp] theorem Dev.reg_noteSet (d : Dev) (f : Field) (i k : Nat) (r : RegName) (j : Nat) :
    (d.noteSet f i k).reg r j = d.reg r j := Dev.reg_congr (d := d.noteSet f i k) rfl r j

@[simp] theorem Dev.rd_raise (d : Dev) (f g : Field) (i j : Nat) : (d.raise f i).rd g j = (d.wr f 1 i).rd g j := by
  rw [Dev.rd, Dev.raise, Dev.reg_noteSet, Dev.rd]

theorem keeps_noteSet (as : List Area) (rs : List RegName) (d : Dev) (f : Field) (i k : Nat) :
    Keeps as rs d (d.noteSet f i k) :=
  Keeps.of_same rfl rfl fun a _ => by cases a <;> first | rfl | exact ⟨rfl, rfl⟩

theorem keeps_raise (as : List Area) {rs : List RegName} (d : Dev) {f : Field} (i : Nat) (h : f.reg ∈ rs) :
    Keeps as rs d (d.raise f i) := (keeps_wr as d 1 i h).trans (keeps_noteSet as rs _ f i 0)

theorem keeps_put (as : List Area) {rs : List RegName} (d : Dev) {f : Field} (b : Bool) (i : Nat) (h : f.reg ∈ rs) :
    Keeps as rs d (d.put f b i) := keeps_wr as d _ i h

theorem keeps_setBit (as : List Area) {rs : List RegName} (d : Dev) {f : Field} (k : Nat) (b : Bool) (i : Nat) (h : f.reg ∈ rs) :
    Keeps as rs d (d.setBit f k b i) := keeps_wr as d _ i h

theorem keeps_raiseBit (as : List Area) {rs : List RegName} (d : Dev) {f : Field} (k i : Nat) (h : f.reg ∈ rs) :
    Keeps as rs d (d.raiseBit f k i) := (keeps_setBit as d k true i h).trans (keeps_noteSet as rs _ f i k)

/-- A counter reads one more, up to its field's largest value. -/
theorem Dev.rd_bump_self (d : Dev) (f : Field) (i n : Nat) (h : f.lo + f.width ≤ 32) :
    (d.bump f i n).rd f i = min (d.rd f i + n) (2 ^ f.width - 1) := by
  have : 0 < 2 ^ f.width := by positivity
  rw [Dev.bump, satAdd, Dev.rd_wr_fits d f _ i h (by omega)]

/-! ### The other parts -/

theorem keeps_clk {as : List Area} (rs : List RegName) (d : Dev) (e : ClkUnit) (h : Area.clk ∈ as) :
    Keeps as rs d { d with clk := e } :=
  Keeps.of_same rfl rfl fun a ha => by
    cases a <;> first | exact absurd h ha | rfl | exact ⟨rfl, rfl⟩

theorem keeps_start {as : List Area} (rs : List RegName) (d : Dev) (e : StartUnit) (h : Area.start ∈ as) :
    Keeps as rs d { d with start := e } :=
  Keeps.of_same rfl rfl fun a ha => by
    cases a <;> first | exact absurd h ha | rfl | exact ⟨rfl, rfl⟩

theorem keeps_svr {as : List Area} (rs : List RegName) (d : Dev) (e : Tbl SvRing) (h : Area.svr ∈ as) :
    Keeps as rs d { d with svr := e } :=
  Keeps.of_same rfl rfl fun a ha => by
    cases a <;> first | exact absurd h ha | rfl | exact ⟨rfl, rfl⟩

theorem keeps_free {as : List Area} (rs : List RegName) (d : Dev) (n : Nat) (h : Area.free ∈ as) :
    Keeps as rs d { d with free := n } :=
  Keeps.of_same rfl rfl fun a ha => by
    cases a <;> first | exact absurd h ha | rfl | exact ⟨rfl, rfl⟩

theorem keeps_draw {as : List Area} (rs : List RegName) (d : Dev) (h : Area.free ∈ as) : Keeps as rs d d.draw.2 :=
  keeps_free rs d _ h

@[simp] theorem Dev.emit_emitted (d : Dev) (e : Emission) : (d.emit e).emitted = e :: d.emitted := rfl

/-! ### Journal notes (R489) -/

theorem Dev.noteReg_of_not_hwReset (d old : Dev) {r : RegName} (i : Nat) (h : r.hwReset = false) : d.noteReg old r i = d := by
  simp [Dev.noteReg, h]

/-- A journal note changes the Larder unit alone. -/
theorem Dev.noteReg_eq_ldr (d old : Dev) (r : RegName) (i : Nat) : ∃ l, d.noteReg old r i = { d with ldr := l } := by
  unfold Dev.noteReg Dev.noteJournal
  split
  · split
    · exact ⟨d.ldr, rfl⟩
    · exact ⟨_, rfl⟩
  · exact ⟨d.ldr, rfl⟩

theorem keeps_noteReg {as : List Area} (rs : List RegName) (d old : Dev) (r : RegName) (i : Nat) (h : Area.ldr ∈ as) :
    Keeps as rs d (d.noteReg old r i) := by
  obtain ⟨l, e⟩ := d.noteReg_eq_ldr old r i
  rw [e]
  exact keeps_ldr rs d l h

@[simp] theorem Dev.reg_noteReg (d old : Dev) (r q : RegName) (i j : Nat) : (d.noteReg old r i).reg q j = d.reg q j :=
  (keeps_noteReg (as := [.ldr]) [] d old r i (by simp)).2.2 q j (by simp)

end Sys2Proof.Machine
end

section
/-! SUPPORT. A host's register write: what `hostWriteBar` does with each kind of offset, and which registers lie where. -/

namespace Sys2Proof.Machine

/-- The aligned word at `off` is register `r` with index `i`, and no word of an MSI-X table. -/
abbrev WordOf (off : Nat) (r : RegName) (i : Nat) : Prop := off % 4 = 0 ∧ msixAt off = none ∧ regAt off = some (r, i)

/-- An offset in an HIF block lies in the block of `port` (R253). -/
abbrev OwnBlock (port : Port) (off : Nat) : Prop := ∀ q, hifPort off = some q → q = port

/-! ### REGISTER_WRITE -/

section
variable {t : Nat} {port : Port} {off : Nat} {val : Word} {s : State}

theorem exec_registerWrite {d' : Dev} (h : hostWriteBar port off val s.mem (s.on t) = (s.mem, d')) :
    exec (.registerWrite t port off val) s = .next { s with dev := d' } := by
  have e : exec (.registerWrite t port off val) s = .next { s with
      mem := (hostWriteBar port off val s.mem (s.on t)).1, dev := (hostWriteBar port off val s.mem (s.on t)).2 } := rfl
  rw [e, h]

theorem Runs.of_registerWrite {P : Dev → Prop} {d' : Dev} (h : hostWriteBar port off val s.mem (s.on t) = (s.mem, d'))
    (hP : P d') : Runs (.registerWrite t port off val) s P := ⟨d', exec_registerWrite h, hP⟩

end

/-! ### Where the write goes -/

section
variable {port : Port} {off : Nat} {val : Word} {m : Mems} {d : Dev}

theorem hostWriteBar_of_resetLow (h : d.start.resetLow = true) : hostWriteBar port off val m d = (m, d) := by
  simp [hostWriteBar, h]

theorem hostWriteBar_of_partial (h : d.start.resetLow = false) (ho : off % 4 ≠ 0) :
    hostWriteBar port off val m d = (m, d.bump F.CMX_ERR_partial 0 2) := by
  simp [hostWriteBar, h, ho]

theorem hostWriteBar_of_miss (h : d.start.resetLow = false) (ho : off % 4 = 0) (hm : msixAt off = none)
    (hr : regAt off = none) : hostWriteBar port off val m d
      = (m, d.draw.2.cmxMiss (4 + port.id) (d.draw.1 % 16) true 0 (0x40000000 + off)) := by
  simp [hostWriteBar, barWrite, h, ho, hm, hr]

/-- A word that the register target takes: its effect comes where RESET_N is high. -/
theorem hostWriteBar_of_taken {x : Mems × Dev} (h : d.start.resetLow = false) (ho : off % 4 = 0)
    (hb : barWrite (some port) off val m d = (true, x)) : hostWriteBar port off val m d = x := by
  simp [hostWriteBar, h, ho, hb]

theorem hostWriteBar_of_discarded (ho : off % 4 = 0) (hb : barWrite (some port) off val m d = (true, m, d)) :
    hostWriteBar port off val m d = (m, d) := by
  cases h : d.start.resetLow
  · exact hostWriteBar_of_taken h ho hb
  · exact hostWriteBar_of_resetLow h

theorem barWrite_foreign (hp : hifPort off = some port.other) (hx : (regAt off).isSome = true ∨ (msixAt off).isSome = true) :
    barWrite (some port) off val m d = (true, m, d) := by
  have hne : (port != port.other) = true := by cases port <;> rfl
  unfold barWrite
  simp only [hp, hne]
  cases hm : msixAt off with
  | some x => simp
  | none =>
    obtain ⟨y, hy⟩ := Option.isSome_iff_exists.mp (by simpa [hm] using hx)
    simp [hy]

theorem barWrite_gated {r : RegName} {i : Nat} (hm : msixAt off = none) (hr : regAt off = some (r, i))
    (hg : d.gatedAt off = true) : barWrite (some port) off val m d = (true, m, d) := by
  simp [barWrite, hm, hr, hg]

theorem barWrite_register {r : RegName} {i : Nat} (hw : WordOf off r i) (hp : OwnBlock port off) (hg : d.gatedAt off = false)
    (hr : r ≠ .PL_CTRL) : barWrite (some port) off val m d = (true, m, d.writeReg true r i val) := by
  obtain ⟨_, hm, ha⟩ := hw
  unfold barWrite
  cases hq : hifPort off with
  | none => simp [hm, ha, hg, hr]
  | some q => simp [hm, ha, hg, hr, hp q hq]

theorem barWrite_msix {k : Nat} (hm : msixAt off = some (port, k)) (hp : OwnBlock port off) :
    barWrite (some port) off val m d = (true, m, d.msixWrite port k val) := by
  unfold barWrite
  cases hq : hifPort off with
  | none => simp [hm]
  | some q => simp [hm, hp q hq]

/-- A write to a register that a host may reach is `Dev.writeReg`, for every register but PL_CTRL. -/
theorem hostWriteBar_of_register {r : RegName} {i : Nat} (h : d.start.resetLow = false) (hw : WordOf off r i)
    (hp : OwnBlock port off) (hg : d.gatedAt off = false) (hr : r ≠ .PL_CTRL) :
    hostWriteBar port off val m d = (m, d.writeReg true r i val) :=
  hostWriteBar_of_taken h hw.1 (barWrite_register hw hp hg hr)

end

/-! ### Registers outside the blocks with gates and ports -/

/-- A word of a block that neither a gate nor a port governs. -/
abbrev FreeWordOf (off : Nat) (r : RegName) (i : Nat) : Prop :=
  WordOf off r i ∧ hifPort off = none ∧ planeAt off = none ∧ octetAt off = none

theorem hostWriteBar_of_freeWord {port : Port} {off i : Nat} {r : RegName} {val : Word} {m : Mems} {d : Dev}
    (h : d.start.resetLow = false) (hf : FreeWordOf off r i) (hr : r ≠ .PL_CTRL) :
    hostWriteBar port off val m d = (m, d.writeReg true r i val) := by
  obtain ⟨hw, hq, hpl, hoc⟩ := hf
  refine hostWriteBar_of_register h hw (by simp [OwnBlock, hq]) ?_ hr
  simp [Dev.gatedAt, hpl, hoc]

theorem freeWordOf_gpio {r : RegName} (h : r = .GLB_GPIO_DIR ∨ r = .GLB_GPIO_OUT ∨ r = .GLB_GPIO_PULL) :
    FreeWordOf (regOff r 0) r 0 := by
  rcases h with rfl | rfl | rfl <;> decide +kernel

theorem freeWordOf_lockCfg : FreeWordOf (regOff .CLK_LOCK_CFG 0) .CLK_LOCK_CFG 0 := by decide +kernel

theorem freeWordOf_clken (hi : Bool) :
    FreeWordOf (regOff (if hi then .GLB_CLKEN1 else .GLB_CLKEN0) 0) (if hi then .GLB_CLKEN1 else .GLB_CLKEN0) 0 := by
  cases hi <;> decide +kernel

theorem freeWordOf_cko (div : Bool) : ∀ c < 8,
    FreeWordOf (regOff (if div then .CLK_CKO_DIV else .CLK_CKO_CFG) c) (if div then .CLK_CKO_DIV else .CLK_CKO_CFG) c := by
  cases div <;> decide +kernel

theorem freeWordOf_syn5 : FreeWordOf (regOff .CLK_SYN_N 5) .CLK_SYN_N 5 := by decide +kernel

theorem freeWordOf_class : ∀ n < 16, FreeWordOf (regOff .TB_CLASS n) .TB_CLASS n := by decide +kernel

/-- LN_OCT_CTRL lies in its octet's block. -/
theorem octCtrl_place : ∀ k < 48, WordOf (regOff .LN_OCT_CTRL k) .LN_OCT_CTRL k ∧ hifPort (regOff .LN_OCT_CTRL k) = none
    ∧ planeAt (regOff .LN_OCT_CTRL k) = none ∧ octetAt (regOff .LN_OCT_CTRL k) = some k := by decide +kernel

/-- The configuration of a Salvo Ring lies in its port's block. -/
theorem svrCfg_place (port : Port) : ∀ r < 16, WordOf (regOff .HIF_SVR_CFG (16 * port.id + r)) .HIF_SVR_CFG (16 * port.id + r)
    ∧ hifPort (regOff .HIF_SVR_CFG (16 * port.id + r)) = some port ∧ planeAt (regOff .HIF_SVR_CFG (16 * port.id + r)) = none
    ∧ octetAt (regOff .HIF_SVR_CFG (16 * port.id + r)) = none := by
  cases port <;> decide +kernel

theorem hifPort_own (port : Port) {k : Nat} (h : k < 0x8000) : hifPort (0x10000 + 0x8000 * port.id + k) = some port := by
  have ha : Port.a.id = 0 := rfl
  have hb : Port.b.id = 1 := rfl
  cases port
  · rw [hifPort, if_pos (by omega)]
  · rw [hifPort, if_neg (by omega), if_pos (by omega)]

theorem msixAt_table (port : Port) {k : Nat} (h : k < 256) : msixAt (0x10000 + 0x8000 * port.id + 0x7000 + 4 * k) = some (port, k) := by
  have hp := hifPort_own port (k := 0x7000 + 4 * k) (by omega)
  have hm : (0x10000 + 0x8000 * port.id + (0x7000 + 4 * k)) % 0x8000 = 0x7000 + 4 * k := by omega
  rw [Nat.add_assoc (_ + _), msixAt, hp]
  simp only [hm]
  rw [if_pos (by omega), show (0x7000 + 4 * k - 0x7000) / 4 = k by omega]

theorem msixAt_pending (port : Port) {k : Nat} (h : k < 2) :
    msixAt (0x10000 + 0x8000 * port.id + 0x7800 + 4 * k) = some (port, 256 + k) := by
  have hp := hifPort_own port (k := 0x7800 + 4 * k) (by omega)
  have hm : (0x10000 + 0x8000 * port.id + (0x7800 + 4 * k)) % 0x8000 = 0x7800 + 4 * k := by omega
  rw [Nat.add_assoc (_ + _), msixAt, hp]
  simp only [hm]
  rw [if_neg (by omega), if_pos (by omega), show (0x7800 + 4 * k - 0x7800) / 4 = k by omega]

end Sys2Proof.Machine
end

section
/-! SUPPORT. What a register write does to the device: plain registers, the default target, the MSI-X table, the GPIO balls and the
lock pins; and the obligation on register writes. -/

namespace Sys2Proof.Machine

/-! ### Registers without a command -/

theorem Dev.writeReg_plain (d : Dev) (host : Bool) {r : RegName} (i : Nat) (val : Word) (h : r ∉ commandRegs) :
    d.writeReg host r i val = (d.writeBits r i val).noteReg d r i := by
  unfold Dev.writeReg
  split <;> simp [commandRegs] at h ⊢

@[simp] theorem Dev.reg_writeBits_self (d : Dev) (r : RegName) (i : Nat) (val : Word) :
    (d.writeBits r i val).reg r i = r.written (d.lockedAt (regOff r i)) (d.reg r i) val (d.newBits r i) :=
  Dev.reg_setReg_self d r i _

theorem keeps_writeBits (as : List Area) {rs : List RegName} (d : Dev) {r : RegName} (i : Nat) (val : Word) (h : r ∈ rs) :
    Keeps as rs d (d.writeBits r i val) := keeps_setReg as d i _ h

theorem keepsOthers_writeBits (d : Dev) (r : RegName) {i : Nat} (val : Word) (h : i < 65536) :
    KeepsOthers r i d (d.writeBits r i val) := fun _ hj hne => Dev.reg_setReg_inst d r _ h hj hne

/-- A plain register takes the word by its access codes, and nothing else changes but the journal's note of it. -/
theorem runs_registerWrite_plain {s : State} {t off i : Nat} {port : Port} {val : Word} {r : RegName}
    (h : (s.on t).start.resetLow = false) (hw : WordOf off r i) (hi : i < 65536) (hp : OwnBlock port off)
    (hg : (s.on t).gatedAt off = false) (hr : r ∉ commandRegs) :
    Runs (.registerWrite t port off val) s fun d' =>
      d'.reg r i = r.written ((s.on t).lockedAt (regOff r i)) ((s.on t).reg r i) val ((s.on t).newBits r i)
      ∧ KeepsOthers r i (s.on t) d' ∧ Keeps [.ldr] [r] (s.on t) d' := by
  have hpl : r ≠ .PL_CTRL := by rintro rfl; exact hr (by decide)
  refine Runs.of_registerWrite (hostWriteBar_of_register h hw hp hg hpl) ?_
  rw [Dev.writeReg_plain _ _ _ _ hr]
  refine ⟨by simp, fun j hj hne => ?_, (keeps_writeBits _ _ i val (by simp)).trans (keeps_noteReg _ _ _ r i (by simp))⟩
  rw [Dev.reg_noteReg]
  exact keepsOthers_writeBits _ r val hi j hj hne

/-! ### The default target (R462) -/

/-- The default target's capture of a transaction. -/
def Dev.captureMiss (d : Dev) (master tag : Nat) (write : Bool) (space addr : Nat) : Dev :=
  ((((((d.wr F.CMX_ERR_ADDR_LO_addr (addr % 2 ^ 32)).wr F.CMX_ERR_ADDR_HI_addr (addr / 2 ^ 32)).wr F.CMX_ERR_INFO_master master).wr
    F.CMX_ERR_INFO_id tag).put F.CMX_ERR_INFO_write write).wr F.CMX_ERR_INFO_space space).raise F.CMX_ERR_INFO_valid

theorem Dev.cmxMiss_eq (d : Dev) (master tag : Nat) (write : Bool) (space addr : Nat) :
    d.cmxMiss master tag write space addr = ((d.bump F.CMX_ERR_decode).when (!d.flag F.CMX_ERR_INFO_valid) fun d =>
      d.captureMiss master tag write space addr).occur evCmx 0x7C := by
  have hf : (d.bump F.CMX_ERR_decode).flag F.CMX_ERR_INFO_valid = d.flag F.CMX_ERR_INFO_valid :=
    (keeps_bump (rs := [.CMX_ERR]) [] d 0 1 (by decide)).flag 0 (by decide)
  unfold Dev.cmxMiss Dev.captureMiss
  simp only [hf]
  cases d.flag F.CMX_ERR_INFO_valid <;> simp [Dev.when]

/-- The registers in which the default target captures a transaction. -/
def missRegs : List RegName := [.CMX_ERR_ADDR_LO, .CMX_ERR_ADDR_HI, .CMX_ERR_INFO]

theorem keeps_captureMiss (as : List Area) (d : Dev) (master tag : Nat) (write : Bool) (space addr : Nat) :
    Keeps as missRegs d (d.captureMiss master tag write space addr) := by
  have wr (d : Dev) (f : Field) (v : Nat) (h : f.reg ∈ missRegs) : Keeps as missRegs d (d.wr f v) := keeps_wr as d v 0 h
  unfold Dev.captureMiss
  refine Keeps.trans ?_ (keeps_raise as _ 0 (by decide))
  exact ((((((wr _ _ _ (by decide)).trans (wr _ _ _ (by decide))).trans (wr _ _ _ (by decide))).trans (wr _ _ _ (by decide))).trans
    (wr _ _ _ (by decide))).trans (wr _ _ _ (by decide)))

/-- What the capture shows. -/
theorem Dev.captureMiss_shows (d : Dev) {master tag space addr : Nat} (write : Bool) (hm : master < 16) (hs : space < 4)
    (ha : addr < 2 ^ 64) :
    let e := d.captureMiss master tag write space addr
    e.rd F.CMX_ERR_INFO_master = master ∧ e.rd F.CMX_ERR_INFO_space = space ∧ e.rd F.CMX_ERR_INFO_write = b2n write
      ∧ e.rd F.CMX_ERR_INFO_valid = 1 ∧ e.rd F.CMX_ERR_ADDR_LO_addr = addr % 2 ^ 32 ∧ e.rd F.CMX_ERR_ADDR_HI_addr = addr / 2 ^ 32 := by
  have hw : b2n write < 2 := by cases write <;> decide
  have hlo : addr % 2 ^ 32 < 2 ^ 32 := Nat.mod_lt _ (by decide)
  have hhi : addr / 2 ^ 32 < 2 ^ 32 := Nat.div_lt_of_lt_mul ha
  refine ⟨?_, ?_, ?_, ?_, ?_, ?_⟩
  all_goals
    simp (disch := decide) only [Dev.captureMiss, Dev.put, Dev.rd_raise, Dev.rd_wr_self, Dev.rd_wr_field, Dev.rd_wr_name]
  exacts [Nat.mod_eq_of_lt hm, Nat.mod_eq_of_lt hs, Nat.mod_eq_of_lt hw, rfl, Nat.mod_eq_of_lt hlo, Nat.mod_eq_of_lt hhi]

theorem keeps_cmxMiss (d : Dev) (master tag : Nat) (write : Bool) (space addr : Nat) :
    Keeps evAreas (.CMX_ERR :: .CMX_ERR_ADDR_LO :: .CMX_ERR_ADDR_HI :: .CMX_ERR_INFO :: evRegs) d
      (d.cmxMiss master tag write space addr) := by
  rw [Dev.cmxMiss_eq]
  refine Keeps.trans ((keeps_bump _ d 0 1 (by decide)).trans (Keeps.when fun _ => ?_))
    ((evOnly_occur _ _ _ _ _ _ _).mono (List.Subset.refl _) fun r h => by simp [h])
  exact (keeps_captureMiss evAreas _ _ _ _ _ _).mono (by simp) (by simp [missRegs])

/-- The counter of the default target, and what it does not count. -/
theorem Dev.cmxMiss_counts (d : Dev) (master tag : Nat) (write : Bool) (space addr : Nat) :
    let e := d.cmxMiss master tag write space addr
    e.rd F.CMX_ERR_decode = min (d.rd F.CMX_ERR_decode + 1) 65535 ∧ e.rd F.CMX_ERR_partial = d.rd F.CMX_ERR_partial := by
  have hw : Keeps [] missRegs (d.bump F.CMX_ERR_decode) ((d.bump F.CMX_ERR_decode).when (!d.flag F.CMX_ERR_INFO_valid) fun d =>
      d.captureMiss master tag write space addr) := Keeps.when fun _ => keeps_captureMiss [] _ _ _ _ _ _
  have he := evOnly_occur ((d.bump F.CMX_ERR_decode).when (!d.flag F.CMX_ERR_INFO_valid) fun d =>
      d.captureMiss master tag write space addr) evCmx 0x7C 0 0 1 none
  rw [Dev.cmxMiss_eq]
  refine ⟨?_, ?_⟩
  · rw [he.rd 0 (by decide), hw.rd 0 (by decide)]
    exact Dev.rd_bump_self d F.CMX_ERR_decode 0 1 (by decide)
  · rw [he.rd 0 (by decide), hw.rd 0 (by decide)]
    exact Dev.rd_wr_field d F.CMX_ERR_decode F.CMX_ERR_partial _ 0 rfl (by decide) (by decide)

/-- The first transaction since CMX_ERR_INFO was cleared is captured. -/
theorem Dev.cmxMiss_captures (d : Dev) {master tag space addr : Nat} (write : Bool) (hv : d.flag F.CMX_ERR_INFO_valid = false)
    (hm : master < 16) (hs : space < 4) (ha : addr < 2 ^ 64) :
    let e := d.cmxMiss master tag write space addr
    e.rd F.CMX_ERR_INFO_master = master ∧ e.rd F.CMX_ERR_INFO_space = space ∧ e.rd F.CMX_ERR_INFO_write = b2n write
      ∧ e.rd F.CMX_ERR_INFO_valid = 1 ∧ e.rd F.CMX_ERR_ADDR_LO_addr = addr % 2 ^ 32 ∧ e.rd F.CMX_ERR_ADDR_HI_addr = addr / 2 ^ 32 := by
  have hc := Dev.captureMiss_shows (d.bump F.CMX_ERR_decode) (tag := tag) write hm hs ha
  have he := evOnly_occur ((d.bump F.CMX_ERR_decode).captureMiss master tag write space addr) evCmx 0x7C 0 0 1 none
  rw [Dev.cmxMiss_eq, hv, Bool.not_false, Dev.when, if_pos rfl]
  simpa only [he.rd (f := F.CMX_ERR_INFO_master) 0 (by decide), he.rd (f := F.CMX_ERR_INFO_space) 0 (by decide),
    he.rd (f := F.CMX_ERR_INFO_write) 0 (by decide), he.rd (f := F.CMX_ERR_INFO_valid) 0 (by decide),
    he.rd (f := F.CMX_ERR_ADDR_LO_addr) 0 (by decide), he.rd (f := F.CMX_ERR_ADDR_HI_addr) 0 (by decide)] using hc

/-- While a capture stands, no other transaction is captured. -/
theorem Dev.cmxMiss_keeps_capture (d : Dev) {master tag space addr : Nat} (write : Bool) (hv : d.flag F.CMX_ERR_INFO_valid = true)
    {r : RegName} (hr : r ∈ missRegs) : (d.cmxMiss master tag write space addr).reg r 0 = d.reg r 0 := by
  have hne : r ≠ .CMX_ERR ∧ r ∉ evRegs := by
    rcases (by simpa [missRegs] using hr) with rfl | rfl | rfl <;> decide
  rw [Dev.cmxMiss_eq, hv, Bool.not_true, Dev.when, if_neg (by simp), (evOnly_occur _ _ _ _ _ _ _).2.2 r 0 hne.2]
  exact Dev.reg_wr_name d F.CMX_ERR_decode _ 0 0 hne.1

/-- A write that no register takes is counted as a decode miss, and captured with the port's inbound master unless a capture
stands (R462). -/
theorem runs_registerWrite_miss {s : State} {t off : Nat} {port : Port} {val : Word} (h : (s.on t).start.resetLow = false)
    (ho : off % 4 = 0) (hlt : off < 0x4000000) (hr : regAt off = none) (hm : msixAt off = none) :
    Runs (.registerWrite t port off val) s fun d' =>
      d'.rd F.CMX_ERR_decode = min ((s.on t).rd F.CMX_ERR_decode + 1) 65535
      ∧ d'.rd F.CMX_ERR_partial = (s.on t).rd F.CMX_ERR_partial
      ∧ ((s.on t).flag F.CMX_ERR_INFO_valid = false →
          d'.rd F.CMX_ERR_INFO_master = 4 + port.id ∧ d'.rd F.CMX_ERR_INFO_space = 0 ∧ d'.flag F.CMX_ERR_INFO_write = true
          ∧ d'.flag F.CMX_ERR_INFO_valid = true ∧ d'.rd F.CMX_ERR_ADDR_LO_addr = 0x40000000 + off
          ∧ d'.rd F.CMX_ERR_ADDR_HI_addr = 0)
      ∧ ((s.on t).flag F.CMX_ERR_INFO_valid = true → d'.reg .CMX_ERR_INFO 0 = (s.on t).reg .CMX_ERR_INFO 0
          ∧ d'.reg .CMX_ERR_ADDR_LO 0 = (s.on t).reg .CMX_ERR_ADDR_LO 0 ∧ d'.reg .CMX_ERR_ADDR_HI 0 = (s.on t).reg .CMX_ERR_ADDR_HI 0)
      ∧ Keeps (.free :: evAreas) (.CMX_ERR :: .CMX_ERR_ADDR_LO :: .CMX_ERR_ADDR_HI :: .CMX_ERR_INFO :: evRegs) (s.on t) d' := by
  refine Runs.of_registerWrite (hostWriteBar_of_miss h ho hm hr) ?_
  generalize s.on t = d
  have hdraw : Keeps [.free] [] d d.draw.2 := keeps_draw [] d (by simp)
  have hframe := (hdraw.mono (bs := .free :: evAreas) (by simp) (by simp)).trans
    ((keeps_cmxMiss d.draw.2 (4 + port.id) (d.draw.1 % 16) true 0 (0x40000000 + off)).mono (by simp) (List.Subset.refl _))
  rw [← hdraw.rd (f := F.CMX_ERR_decode) 0 (by simp), ← hdraw.rd (f := F.CMX_ERR_partial) 0 (by simp),
    ← hdraw.flag (f := F.CMX_ERR_INFO_valid) 0 (by simp), ← hdraw.2.2 .CMX_ERR_INFO 0 (by simp),
    ← hdraw.2.2 .CMX_ERR_ADDR_LO 0 (by simp), ← hdraw.2.2 .CMX_ERR_ADDR_HI 0 (by simp)]
  obtain ⟨hdecode, hpartial⟩ := Dev.cmxMiss_counts d.draw.2 (4 + port.id) (d.draw.1 % 16) true 0 (0x40000000 + off)
  refine ⟨hdecode, hpartial, fun hv => ?_, fun hv => ?_, hframe⟩
  · have hport : port.id < 2 := by cases port <;> decide
    obtain ⟨hmaster, hspace, hwrite, hvalid, hlow, hhigh⟩ := Dev.cmxMiss_captures d.draw.2 (tag := d.draw.1 % 16) true hv
      (show 4 + port.id < 16 by omega) (show 0 < 4 by omega) (show 0x40000000 + off < 2 ^ 64 by omega)
    refine ⟨hmaster, hspace, ?_, ?_, hlow.trans (by omega), hhigh.trans (by omega)⟩
    · rw [Dev.flag, hwrite]; rfl
    · rw [Dev.flag, hvalid]; rfl
  · exact ⟨Dev.cmxMiss_keeps_capture _ true hv (by decide), Dev.cmxMiss_keeps_capture _ true hv (by decide),
      Dev.cmxMiss_keeps_capture _ true hv (by decide)⟩

end Sys2Proof.Machine
end

section
/-! SUPPORT. MSI-X words, pins, and the registers with commands of their own; the obligation on register writes. -/

namespace Sys2Proof.Machine

/-! ### MSI-X words (R251, R281) -/

/-- What word `k` of an MSI-X table holds after a write of `val`. -/
def msixTaken (k : Nat) (val : Word) : Nat :=
  if k % 4 = 3 then val.toNat % 2 else if k % 4 = 0 then val.toNat / 4 * 4 else val.toNat

/-- With word `k` of a port's MSI-X table written. -/
def Dev.storeMsix (d : Dev) (p : Port) (k : Nat) (val : Word) : Dev :=
  d.modPort p fun x => { x with msix := Tbl.set (if k % 4 = 3 then 1 else 0) x.msix k (msixTaken k val) }

/-- With a pending bit of a port taken down. -/
def Dev.clearPba (d : Dev) (p : Port) (v : Nat) : Dev := d.modPort p fun x => { x with pba := x.pba.filter (· != v) }

theorem Dev.msixWrite_eq (d : Dev) (p : Port) {k : Nat} (val : Word) (h : k < 256) :
    d.msixWrite p k val = if ((d.storeMsix p k val).port p).pba.contains (k / 4) && !(d.storeMsix p k val).msixMasked p (k / 4)
      then ((d.storeMsix p k val).clearPba p (k / 4)).raiseMsix p (k / 4) else d.storeMsix p k val := by
  unfold Dev.msixWrite Dev.storeMsix Dev.clearPba msixTaken
  rw [if_neg (by omega)]

theorem Dev.msixWord_storeMsix_self (d : Dev) (p : Port) (k : Nat) (val : Word) :
    (d.storeMsix p k val).msixWord p k = msixTaken k val := by
  simp [Dev.msixWord, Dev.storeMsix]

theorem Dev.msixWord_storeMsix_ne (d : Dev) (p : Port) {j k : Nat} (val : Word) (h : j ≠ k) :
    (d.storeMsix p k val).msixWord p j = d.msixWord p j := by
  simp [Dev.msixWord, Dev.storeMsix, Tbl.get_set_ne _ _ _ _ h]

@[simp] theorem Dev.msixWord_clearPba (d : Dev) (p : Port) (v k : Nat) : (d.clearPba p v).msixWord p k = d.msixWord p k := by
  simp [Dev.msixWord, Dev.clearPba]

@[simp] theorem Dev.msixMasked_clearPba (d : Dev) (p : Port) (v w : Nat) :
    (d.clearPba p v).msixMasked p w = d.msixMasked p w := by
  simp [Dev.msixMasked, Dev.clearPba, Dev.msixWord]

@[simp] theorem Dev.port_clearPba_pba (d : Dev) (p : Port) (v : Nat) :
    ((d.clearPba p v).port p).pba = (d.port p).pba.filter (· != v) := by simp [Dev.clearPba]

@[simp] theorem Dev.port_emit (d : Dev) (e : Emission) (p : Port) : (d.emit e).port p = d.port p := rfl

@[simp] theorem Dev.msixWord_emit (d : Dev) (e : Emission) (p : Port) (k : Nat) : (d.emit e).msixWord p k = d.msixWord p k := rfl

@[simp] theorem Dev.msixMasked_emit (d : Dev) (e : Emission) (p : Port) (v : Nat) : (d.emit e).msixMasked p v = d.msixMasked p v := rfl

/-- An unmasked vector that is raised sends its message, and nothing else changes. -/
theorem Dev.raiseMsix_of_unmasked (d : Dev) (p : Port) (v : Nat) (h : d.msixMasked p v = false) : d.raiseMsix p v
    = d.emit (.msix p v (d.msixWord p (4 * v) + d.msixWord p (4 * v + 1) * 2 ^ 32) (d.msixWord p (4 * v + 2))) := by
  simp [Dev.raiseMsix, h]

/-- A table word is written; where that unmasks a vector whose pending bit is set, the bit is cleared and the message sent. -/
theorem runs_registerWrite_msix {s : State} {t k : Nat} {port : Port} {val : Word} (h : (s.on t).start.resetLow = false)
    (hk : k < 256) :
    Runs (.registerWrite t port (0x10000 + 0x8000 * port.id + 0x7000 + 4 * k) val) s fun d' =>
      d'.msixWord port k = msixTaken k val
      ∧ (∀ j, j < 256 → j ≠ k → d'.msixWord port j = (s.on t).msixWord port j) ∧ d'.port port.other = (s.on t).port port.other
      ∧ (d'.msixMasked port (k / 4) = false → ((s.on t).port port).pba.contains (k / 4) = true →
          d'.emitted = Emission.msix port (k / 4) (d'.msixWord port (k / 4 * 4) + d'.msixWord port (k / 4 * 4 + 1) * 2 ^ 32)
            (d'.msixWord port (k / 4 * 4 + 2)) :: (s.on t).emitted
          ∧ (d'.port port).pba = ((s.on t).port port).pba.filter fun v => v != k / 4)
      ∧ (d'.msixMasked port (k / 4) = true ∨ ((s.on t).port port).pba.contains (k / 4) = false →
          d'.emitted = (s.on t).emitted ∧ (d'.port port).pba = ((s.on t).port port).pba)
      ∧ Keeps [.ports, .emitted] [] (s.on t) d' := by
  have hown : OwnBlock port (0x10000 + 0x8000 * port.id + 0x7000 + 4 * k) := by
    intro q hq
    rw [Nat.add_assoc (_ + _), hifPort_own port (by omega)] at hq
    exact (Option.some.inj hq).symm
  refine Runs.of_registerWrite (hostWriteBar_of_taken h (by omega) (barWrite_msix (msixAt_table port hk) hown)) ?_
  generalize s.on t = d
  have hother : port.other ≠ port := by cases port <;> decide
  have hstore : Keeps [.ports, .emitted] [] d (d.storeMsix port k val) := keeps_modPort _ d port _ (by decide)
  have hpba : ((d.storeMsix port k val).port port).pba = (d.port port).pba := by simp [Dev.storeMsix]
  have hport : (d.storeMsix port k val).port port.other = d.port port.other := Dev.port_modPort_ne d _ hother
  rw [Dev.msixWrite_eq d port val hk, hpba]
  generalize hv : k / 4 = v
  cases hm : (d.storeMsix port k val).msixMasked port v <;> cases hp : (d.port port).pba.contains v
  case false.true =>
    rw [Bool.true_and, Bool.not_false, if_pos rfl, Dev.raiseMsix_of_unmasked _ _ _ (by simpa using hm)]
    refine ⟨?_, fun j _ hj => ?_, ?_, fun _ _ => ⟨?_, ?_⟩, fun hx => ?_, ?_⟩
    · simpa using Dev.msixWord_storeMsix_self d port k val
    · simpa using Dev.msixWord_storeMsix_ne d port val hj
    · exact (Dev.port_modPort_ne _ _ hother).trans hport
    · simp only [Dev.emit_emitted, Dev.msixWord_emit, Nat.mul_comm v 4]
      rfl
    · rw [Dev.port_emit, Dev.port_clearPba_pba, hpba]
    · simp [hm] at hx
    · exact (hstore.trans (keeps_modPort _ _ port _ (by decide))).trans (keeps_emit _ _ _ (by decide))
  all_goals
    rw [if_neg (by simp)]
    refine ⟨Dev.msixWord_storeMsix_self d port k val, fun j _ hj => Dev.msixWord_storeMsix_ne d port val hj, hport,
      fun hx hy => by simp_all, fun _ => ⟨rfl, hpba⟩, hstore⟩

end Sys2Proof.Machine
end

section
/-! SUPPORT. The pins: what the GPIO balls and the lock pins follow (R445, R549). -/

namespace Sys2Proof.Machine

/-! ### GPIO balls (R549) -/

theorem Dev.gpioDrive_eq (d : Dev) (x : Nat) : d.gpioDrive x =
    if d.bitAt F.GLB_GPIO_DIR_oe x = true ∧ (d.bitAt F.GLB_GPIO_OUT_out x = false ∨ d.bitAt F.GLB_GPIO_DIR_od x = false)
    then some (d.bitAt F.GLB_GPIO_OUT_out x) else none := by
  simp only [Dev.gpioDrive, Bool.and_eq_true, Bool.or_eq_true, Bool.not_eq_true']

theorem Dev.lockedAt_gpio (d : Dev) {r : RegName} (h : r = .GLB_GPIO_DIR ∨ r = .GLB_GPIO_OUT ∨ r = .GLB_GPIO_PULL) :
    d.lockedAt (regOff r 0) = false := by
  rcases h with rfl | rfl | rfl <;> rfl

theorem Dev.writeReg_gpio (d : Dev) (host : Bool) {r : RegName} (val : Word)
    (h : r = .GLB_GPIO_DIR ∨ r = .GLB_GPIO_OUT ∨ r = .GLB_GPIO_PULL) :
    d.writeReg host r 0 val = (d.writeBits r 0 val).refreshGpio := by
  rcases h with rfl | rfl | rfl <;> exact Dev.noteReg_of_not_hwReset _ d 0 rfl

theorem runs_registerWrite_gpio {s : State} {t : Nat} {port : Port} {val : Word} {r : RegName}
    (h : (s.on t).start.resetLow = false) (hr : r = .GLB_GPIO_DIR ∨ r = .GLB_GPIO_OUT ∨ r = .GLB_GPIO_PULL) :
    Runs (.registerWrite t port (regOff r 0) val) s fun d' =>
      d'.reg r 0 = r.written false ((s.on t).reg r 0) val ((s.on t).newBits r 0)
      ∧ d'.emitted = Emission.gpio ((List.range 16).map fun x =>
          if d'.bitAt F.GLB_GPIO_DIR_oe x = true ∧ (d'.bitAt F.GLB_GPIO_OUT_out x = false ∨ d'.bitAt F.GLB_GPIO_DIR_od x = false)
          then some (d'.bitAt F.GLB_GPIO_OUT_out x) else none) (d'.reg .GLB_GPIO_PULL 0) :: (s.on t).emitted
      ∧ Keeps [.emitted, .ldr] [r] (s.on t) d' := by
  have hpl : r ≠ .PL_CTRL := by rcases hr with rfl | rfl | rfl <;> decide
  refine Runs.of_registerWrite (hostWriteBar_of_freeWord h (freeWordOf_gpio hr) hpl) ?_
  rw [Dev.writeReg_gpio _ _ _ hr]
  have hw := Dev.reg_writeBits_self (s.on t) r 0 val
  rw [Dev.lockedAt_gpio _ hr] at hw
  refine ⟨hw, ?_, (keeps_writeBits _ _ 0 val (by simp)).trans (keeps_emit _ _ _ (by simp))⟩
  rw [← funext (Dev.gpioDrive_eq _)]
  rfl

/-! ### Lock pins (R445) -/

/-- The lock pin of a plane is enabled. -/
def Dev.pinEnabled (d : Dev) : Plane → Bool
  | .a => d.flag F.CLK_LOCK_CFG_en_a
  | .b => d.flag F.CLK_LOCK_CFG_en_b

theorem Dev.pinLow_eq (d : Dev) (p : Plane) : d.pinLow p =
    if d.pinEnabled p && !d.flag F.CLK_STATUS_safe then some (10 * (usU - d.clk.lockE.pl p)) else none := by
  cases p <;> rfl

/-- A lock pin is as low as its error gives it, whether or not that is new. -/
theorem Dev.refreshPin_clk (d : Dev) (p : Plane) :
    (d.refreshPin p).clk = { d.clk with pins := d.clk.pins.modPl p fun _ => d.pinLow p } := by
  unfold Dev.refreshPin
  split
  · next h =>
    have : (d.clk.pins.modPl p fun _ => d.pinLow p) = d.clk.pins := by rw [h]; cases p <;> rfl
    rw [this]
  · rfl

theorem Dev.refreshPin_regs (d : Dev) (p : Plane) : (d.refreshPin p).regs = d.regs := by
  unfold Dev.refreshPin; split <;> rfl

theorem keeps_refreshPin {as : List Area} (rs : List RegName) (d : Dev) (p : Plane) (hc : Area.clk ∈ as) (he : Area.emitted ∈ as) :
    Keeps as rs d (d.refreshPin p) :=
  Keeps.ite (fun _ => Keeps.refl _ _ _) fun _ => (keeps_clk rs d _ hc).trans (keeps_emit rs _ _ he)

theorem keeps_refreshCko {as : List Area} (rs : List RegName) (d : Dev) (c : Nat) (hc : Area.clk ∈ as) (he : Area.emitted ∈ as) :
    Keeps as rs d (d.refreshCko c) :=
  Keeps.ite (fun _ => Keeps.refl _ _ _) fun _ => (keeps_clk rs d _ hc).trans (keeps_emit rs _ _ he)

theorem Dev.refreshCko_pins (d : Dev) (c : Nat) : (d.refreshCko c).clk.pins = d.clk.pins := by
  unfold Dev.refreshCko; split <;> rfl

/-- What an element of a list leaves of a figure, the list leaves of it. -/
theorem Dev.each_same {α β : Type} (g : Dev → β) (xs : List α) (f : Dev → α → Dev) (h : ∀ d x, g (f d x) = g d) (d : Dev) :
    g (d.each xs f) = g d := by
  unfold Dev.each
  induction xs generalizing d with
  | nil => rfl
  | cons x xs ih => exact (ih (f d x)).trans (h d x)

theorem keeps_refreshPins {as : List Area} (rs : List RegName) (d : Dev) (hc : Area.clk ∈ as) (he : Area.emitted ∈ as) :
    Keeps as rs d d.refreshPins :=
  (((keeps_clk rs d _ hc).trans (keeps_refreshPin rs _ .a hc he)).trans (keeps_refreshPin rs _ .b hc he)).trans
    (Keeps.each _ _ (fun d c _ => keeps_refreshCko rs d c hc he) _)

theorem Dev.pinEnabled_congr {d e : Dev} (h : d.regs = e.regs) (p : Plane) : d.pinEnabled p = e.pinEnabled p := by
  cases p <;> exact Dev.flag_congr h _ 0

/-- The state of one lock pin does not bear on the other. -/
theorem Dev.pinLow_refreshPin (d : Dev) (p q : Plane) : (d.refreshPin q).pinLow p = d.pinLow p := by
  rw [Dev.pinLow_eq, Dev.pinLow_eq, Dev.pinEnabled_congr (d.refreshPin_regs q), Dev.flag_congr (d.refreshPin_regs q),
    Dev.refreshPin_clk]

/-- The lock pins after they have followed their errors. -/
theorem Dev.refreshPins_pins (d : Dev) (p : Plane) : d.refreshPins.clk.pins.pl p =
    if d.pinEnabled p && !d.flag F.CLK_STATUS_safe then some (10 * (usU - d.pinError p)) else none := by
  have both (x : Dev) : ((x.refreshPin .a).refreshPin .b).clk.pins.pl p = x.pinLow p := by
    rw [Dev.refreshPin_clk, Dev.refreshPin_clk, Dev.pinLow_refreshPin]
    cases p <;> rfl
  rw [Dev.refreshPins, Dev.each_same (fun d => d.clk.pins) _ _ Dev.refreshCko_pins, both, Dev.pinLow_eq,
    Dev.pinEnabled_congr (e := d) rfl, Dev.flag_congr (e := d) rfl]
  cases p <;> rfl

/-- The error of a lock pin in each state of its timebase, and while its synthesizers are not locked. -/
theorem Dev.pinError_cases (d : Dev) (p : Plane) (hs : d.flag F.CLK_STATUS_safe = false) :
    (d.tbState p = 0 ∨ d.tbState p = 4 ∨ d.tbState p = 6 ∨ d.pinSynsLocked p = false → d.pinError p = usU)
    ∧ (d.tbState p = 1 ∨ d.tbState p = 2 ∨ d.tbState p = 5 → d.pinSynsLocked p = true →
        d.pinError p = min usU (d.tb p).phase.natAbs)
    ∧ (d.tbState p = 3 → d.pinSynsLocked p = true → d.pinError p = d.clk.lockE.pl p) := by
  unfold Dev.pinError
  refine ⟨?_, ?_, ?_⟩
  · rintro (h | h | h | h) <;> simp [h, hs]
  · rintro (h | h | h) hl <;> simp [h, hl, hs]
  · intro h hl
    simp [h, hl, hs]

theorem Dev.writeBits_lockCfg (d : Dev) (val : Word) (hl : d.flag F.CLK_CTRL_lock = false) :
    (d.writeBits .CLK_LOCK_CFG 0 val).reg .CLK_LOCK_CFG 0 = F.CLK_LOCK_CFG_en_b.put
      (F.CLK_LOCK_CFG_en_a.put (d.reg .CLK_LOCK_CFG 0) (F.CLK_LOCK_CFG_en_a.get val)) (F.CLK_LOCK_CFG_en_b.get val) := by
  have hlock : d.lockedAt (regOff .CLK_LOCK_CFG 0) = false := hl
  rw [Dev.reg_writeBits_self, hlock]
  rfl

/-- The enable of a lock pin as a written word gives it. -/
def pinEnableIn (p : Plane) (val : Word) : Nat := if p = .a then F.CLK_LOCK_CFG_en_a.get val else F.CLK_LOCK_CFG_en_b.get val

theorem Dev.pinEnabled_writeBits (d : Dev) (p : Plane) (val : Word) (hl : d.flag F.CLK_CTRL_lock = false) :
    (d.writeBits .CLK_LOCK_CFG 0 val).pinEnabled p = decide (pinEnableIn p val = 1) := by
  have ha : F.CLK_LOCK_CFG_en_a.get val < 2 ^ F.CLK_LOCK_CFG_en_a.width := Field.get_lt _ _
  have hb : F.CLK_LOCK_CFG_en_b.get val < 2 ^ F.CLK_LOCK_CFG_en_b.width := Field.get_lt _ _
  have hreg := d.writeBits_lockCfg val hl
  cases p
  · have hget : F.CLK_LOCK_CFG_en_a.get ((d.writeBits .CLK_LOCK_CFG 0 val).reg .CLK_LOCK_CFG 0)
        = F.CLK_LOCK_CFG_en_a.get val := by
      rw [hreg, Field.get_put_below _ _ _ _ (by decide) (by decide), Field.get_put_self _ _ _ (by decide), Nat.mod_eq_of_lt ha]
    exact congrArg (fun n => decide (n = 1)) hget
  · have hget : F.CLK_LOCK_CFG_en_b.get ((d.writeBits .CLK_LOCK_CFG 0 val).reg .CLK_LOCK_CFG 0)
        = F.CLK_LOCK_CFG_en_b.get val := by
      rw [hreg, Field.get_put_self _ _ _ (by decide), Nat.mod_eq_of_lt hb]
    exact congrArg (fun n => decide (n = 1)) hget

theorem keeps_writeReg_lockCfg (d : Dev) (host : Bool) (val : Word) :
    Keeps [.clk, .emitted, .ldr] [.CLK_LOCK_CFG] d (d.writeReg host .CLK_LOCK_CFG 0 val) :=
  ((keeps_writeBits _ d 0 val (by simp)).trans (keeps_refreshPins _ _ (by simp) (by simp))).trans
    (keeps_noteReg _ _ d _ 0 (by simp))

/-- The lock pins after a write of their enables. -/
theorem Dev.writeReg_lockCfg_pins (d : Dev) (host : Bool) (p : Plane) (val : Word) (hl : d.flag F.CLK_CTRL_lock = false) :
    (d.writeReg host .CLK_LOCK_CFG 0 val).clk.pins.pl p =
      if decide (pinEnableIn p val = 1) && !d.flag F.CLK_STATUS_safe
      then some (10 * (usU - (d.writeBits .CLK_LOCK_CFG 0 val).pinError p)) else none := by
  have hw : Keeps [] [.CLK_LOCK_CFG] d (d.writeBits .CLK_LOCK_CFG 0 val) := keeps_writeBits _ d 0 val (by simp)
  have hnote : (d.writeReg host .CLK_LOCK_CFG 0 val).clk = (d.writeBits .CLK_LOCK_CFG 0 val).refreshPins.clk :=
    (keeps_noteReg (as := [.ldr]) [] (d.writeBits .CLK_LOCK_CFG 0 val).refreshPins d .CLK_LOCK_CFG 0 (by simp)).2.1 .clk (by simp)
  rw [hnote, Dev.refreshPins_pins, d.pinEnabled_writeBits p val hl, hw.flag 0 (by decide)]

theorem Dev.pinEnabled_writeReg (d : Dev) (host : Bool) (p : Plane) (val : Word) (hl : d.flag F.CLK_CTRL_lock = false) :
    (d.writeReg host .CLK_LOCK_CFG 0 val).pinEnabled p = decide (pinEnableIn p val = 1) := by
  have h : Keeps [.clk, .emitted, .ldr] [] (d.writeBits .CLK_LOCK_CFG 0 val) (d.writeReg host .CLK_LOCK_CFG 0 val) :=
    (keeps_refreshPins _ _ (by simp) (by simp)).trans (keeps_noteReg _ _ d _ 0 (by simp))
  rw [← d.pinEnabled_writeBits p val hl]
  cases p <;> exact h.flag 0 (by simp)

theorem runs_registerWrite_lockCfg {s : State} {t : Nat} {port : Port} {val : Word} (h : (s.on t).start.resetLow = false)
    (hl : (s.on t).flag F.CLK_CTRL_lock = false) :
    Runs (.registerWrite t port (regOff .CLK_LOCK_CFG 0) val) s fun d' =>
      d'.flag F.CLK_LOCK_CFG_en_a = decide (F.CLK_LOCK_CFG_en_a.get val = 1)
      ∧ d'.flag F.CLK_LOCK_CFG_en_b = decide (F.CLK_LOCK_CFG_en_b.get val = 1)
      ∧ (∀ p, pinEnableIn p val = 0 ∨ (s.on t).flag F.CLK_STATUS_safe = true → d'.clk.pins.pl p = none)
      ∧ (∀ p, pinEnableIn p val = 1 → (s.on t).flag F.CLK_STATUS_safe = false →
          (((s.on t).tbState p = 0 ∨ (s.on t).tbState p = 4 ∨ (s.on t).tbState p = 6 ∨ (s.on t).pinSynsLocked p = false) →
            d'.clk.pins.pl p = some 0)
          ∧ ((s.on t).tbState p = 1 ∨ (s.on t).tbState p = 2 ∨ (s.on t).tbState p = 5 → (s.on t).pinSynsLocked p = true →
              d'.clk.pins.pl p = some (10 * (usU - min usU ((s.on t).tb p).phase.natAbs)))
          ∧ ((s.on t).tbState p = 3 → (s.on t).pinSynsLocked p = true →
              d'.clk.pins.pl p = some (10 * (usU - (s.on t).clk.lockE.pl p))))
      ∧ Keeps [.clk, .emitted, .ldr] [.CLK_LOCK_CFG] (s.on t) d' := by
  refine Runs.of_registerWrite (hostWriteBar_of_freeWord h freeWordOf_lockCfg (by decide)) ?_
  generalize s.on t = d at hl
  have hw : Keeps [] [.CLK_LOCK_CFG] d (d.writeBits .CLK_LOCK_CFG 0 val) := keeps_writeBits _ d 0 val (by simp)
  refine ⟨d.pinEnabled_writeReg true .a val hl, d.pinEnabled_writeReg true .b val hl, fun p hp => ?_, fun p hp hs => ?_,
    keeps_writeReg_lockCfg d true val⟩
  · rw [d.writeReg_lockCfg_pins true p val hl]
    rcases hp with hp | hp <;> simp [hp]
  · have htb : (d.writeBits .CLK_LOCK_CFG 0 val).tbState p = d.tbState p := by cases p <;> exact hw.rd 0 (by decide)
    have hsyn : (d.writeBits .CLK_LOCK_CFG 0 val).pinSynsLocked p = d.pinSynsLocked p := by
      rw [Dev.pinSynsLocked, hw.bitAt _ 0 (by decide), hw.bitAt _ 0 (by decide), Dev.pinSynsLocked]
    have herr := (d.writeBits .CLK_LOCK_CFG 0 val).pinError_cases p ((hw.flag 0 (by decide)).trans hs)
    rw [htb, hsyn] at herr
    obtain ⟨hfull, hphase, hheld⟩ := herr
    simp only [d.writeReg_lockCfg_pins true p val hl, hp, hs, decide_true, Bool.not_false, Bool.and_self, if_true]
    refine ⟨fun x => ?_, fun x y => ?_, fun x y => ?_⟩
    · rw [hfull x, Nat.sub_self]
    · rw [hphase x y]; rfl
    · rw [hheld x y]; rfl

end Sys2Proof.Machine
end

section
/-! SUPPORT. The registers with a command of their own, and the obligation on register writes. -/

namespace Sys2Proof.Machine

section
variable {s : State} {t : Nat} {port : Port} {val : Word} (h : (s.on t).start.resetLow = false)
include h

theorem exec_registerWrite_clken (hi : Bool) :
    exec (.registerWrite t port (regOff (if hi then .GLB_CLKEN1 else .GLB_CLKEN0) 0) val) s = exec (.clockGateWrite t hi val) s := by
  rw [exec_registerWrite (hostWriteBar_of_freeWord h (freeWordOf_clken hi) (by cases hi <;> decide))]
  cases hi <;> rfl

theorem exec_registerWrite_cko (div : Bool) {c : Nat} (hc : c < 8) :
    exec (.registerWrite t port (regOff (if div then .CLK_CKO_DIV else .CLK_CKO_CFG) c) val) s
      = exec (.ckoConfigWrite t c div val) s := by
  have hok : ckoOk c = true := by simpa using hc
  have hx : exec (.ckoConfigWrite t c div val) s = onDev (ckoOk c) t s fun d =>
    (d.ckoWrite c div val).noteReg d (if div then .CLK_CKO_DIV else .CLK_CKO_CFG) c := rfl
  rw [exec_registerWrite (hostWriteBar_of_freeWord h (freeWordOf_cko div c hc) (by cases div <;> decide)), hx, hok, onDev_true]
  cases div <;> rfl

theorem exec_registerWrite_syn5 :
    exec (.registerWrite t port (regOff .CLK_SYN_N 5) val) s = exec (.syn5RatioWrite t val) s :=
  exec_registerWrite (hostWriteBar_of_freeWord h freeWordOf_syn5 (by decide))

theorem exec_registerWrite_class {n : Nat} (hn : n < 16) :
    exec (.registerWrite t port (regOff .TB_CLASS n) val) s = exec (.tbClassWrite t n val) s := by
  have hok : classOk n = true := by simpa using hn
  have hx : exec (.tbClassWrite t n val) s = onDev (classOk n) t s fun d => (d.writeClass n val).noteReg d .TB_CLASS n := rfl
  rw [exec_registerWrite (hostWriteBar_of_freeWord h (freeWordOf_class n hn) (by decide)), hx, hok, onDev_true]
  rfl

/-- An octet's block may be gated: then the write and the command are both without effect. -/
theorem exec_registerWrite_octCtrl {k : Nat} (hk : k < 48) :
    exec (.registerWrite t port (regOff .LN_OCT_CTRL k) val) s = exec (.lnOctCtrlWrite t k val) s := by
  obtain ⟨hw, hq, hpl, hoc⟩ := octCtrl_place k hk
  have hok : octetOk k = true := by simpa using hk
  have hx : exec (.lnOctCtrlWrite t k val) s = onDev (octetOk k) t s fun d =>
    if d.octetGated k then d else (d.octWrite k val).noteReg d .LN_OCT_CTRL k := rfl
  have hg : (s.on t).gatedAt (regOff .LN_OCT_CTRL k) = (s.on t).octetGated k := by simp [Dev.gatedAt, hpl, hoc]
  rw [hx, hok, onDev_true]
  cases hog : (s.on t).octetGated k
  · rw [exec_registerWrite (hostWriteBar_of_register h hw (by simp [OwnBlock, hq]) (hg.trans hog) (by decide)), if_neg (by simp)]
    rfl
  · rw [exec_registerWrite (hostWriteBar_of_discarded hw.1 (barWrite_gated hw.2.1 hw.2.2 (hg.trans hog))), if_pos rfl]

theorem exec_registerWrite_svrCfg {r : Nat} (hr : r < 16) :
    exec (.registerWrite t port (regOff .HIF_SVR_CFG (16 * port.id + r)) val) s
      = exec (.ringConfigWrite t port (regOff .HIF_SVR_CFG (16 * port.id + r) % 0x8000) val) s := by
  obtain ⟨hw, hq, hpl, hoc⟩ := svrCfg_place port r hr
  have hown : OwnBlock port (regOff .HIF_SVR_CFG (16 * port.id + r)) := fun q e => (Option.some.inj (hq.symm.trans e)).symm
  have hg : (s.on t).gatedAt (regOff .HIF_SVR_CFG (16 * port.id + r)) = false := by simp [Dev.gatedAt, hpl, hoc]
  have hport : Port.ofId ((16 * port.id + r) / 16) = port := by
    rw [Nat.mul_add_div (by omega), Nat.div_eq_of_lt hr]
    cases port <;> rfl
  have hwrite : (s.on t).writeReg true .HIF_SVR_CFG (16 * port.id + r) val
      = (s.on t).ringCfgWrite port (regOff .HIF_SVR_CFG (16 * port.id + r) % 0x8000) val := by
    refine (Dev.noteReg_of_not_hwReset _ _ _ rfl).trans ?_
    rw [hport]
  rw [exec_registerWrite (hostWriteBar_of_register h hw hown hg (by decide)), hwrite]
  rfl

end

theorem onlyTime_of_registerWrite {s : State} {t off : Nat} {port : Port} {val : Word}
    (h : hostWriteBar port off val s.mem (s.on t) = (s.mem, s.on t)) : OnlyTime (.registerWrite t port off val) s t :=
  exec_registerWrite h

theorem onlyTime_registerWrite_pending {s : State} {t k : Nat} {port : Port} {val : Word} (hk : k < 2) :
    OnlyTime (.registerWrite t port (0x10000 + 0x8000 * port.id + 0x7800 + 4 * k) val) s t := by
  have hown : OwnBlock port (0x10000 + 0x8000 * port.id + 0x7800 + 4 * k) := by
    intro q hq
    rw [Nat.add_assoc (_ + _), hifPort_own port (by omega)] at hq
    exact (Option.some.inj hq).symm
  have hnone : (s.on t).msixWrite port (256 + k) val = s.on t := by simp [Dev.msixWrite]
  have hb := barWrite_msix (val := val) (m := s.mem) (d := s.on t) (msixAt_pending port hk) hown
  rw [hnone] at hb
  exact onlyTime_of_registerWrite (hostWriteBar_of_discarded (by omega) hb)

theorem runs_registerWrite_partial {s : State} {t off : Nat} {port : Port} {val : Word} (h : (s.on t).start.resetLow = false)
    (ho : off % 4 ≠ 0) :
    Runs (.registerWrite t port off val) s fun d' =>
      d'.reg .CMX_ERR 0 = F.CMX_ERR_partial.put ((s.on t).reg .CMX_ERR 0) (min ((s.on t).rd F.CMX_ERR_partial + 2) 255)
      ∧ Keeps [] [.CMX_ERR] (s.on t) d' :=
  Runs.of_registerWrite (hostWriteBar_of_partial h ho)
    ⟨Dev.reg_wr_self (s.on t) F.CMX_ERR_partial _ 0, keeps_bump _ _ 0 2 (by decide)⟩

/-- Settles O55: where a write goes, and what it does there, kind by kind of its offset. -/
theorem registerWrites : Obligations.RegisterWrites := by
  refine ⟨?plain, ?low, ?foreign, ?gated, ?cut, ?miss, ?msix, ?pending, ?gpio, ?pins, ?clken, ?cko, ?syn5, ?oct, ?cls, ?svr⟩
  case plain =>
    rintro s t off i port val r d rfl hlow ho hm ha hi hp hg hr
    exact runs_registerWrite_plain hlow ⟨ho, hm, ha⟩ hi hp hg hr
  case low => exact fun s t off port val hlow => onlyTime_of_registerWrite (hostWriteBar_of_resetLow hlow)
  case foreign =>
    exact fun s t off port val ho hp hx => onlyTime_of_registerWrite (hostWriteBar_of_discarded ho (barWrite_foreign hp hx))
  case gated =>
    exact fun s t off i port val r ho hm ha hg => onlyTime_of_registerWrite (hostWriteBar_of_discarded ho (barWrite_gated hm ha hg))
  case cut =>
    rintro s t off port val d rfl hlow ho
    exact runs_registerWrite_partial hlow ho
  case miss =>
    rintro s t off port val d rfl hlow ho hlt ha hm
    exact runs_registerWrite_miss hlow ho hlt ha hm
  case msix =>
    rintro s t k port val d rfl hlow hk
    exact runs_registerWrite_msix hlow hk
  case pending => exact fun s t k port val hk => onlyTime_registerWrite_pending hk
  case gpio =>
    rintro s t port val r d rfl hlow hr
    exact runs_registerWrite_gpio hlow hr
  case pins =>
    rintro s t port val d rfl hlow hl
    exact runs_registerWrite_lockCfg hlow hl
  case clken => exact fun s t port hi val hlow => exec_registerWrite_clken hlow hi
  case cko => exact fun s t c port div val hlow hc => exec_registerWrite_cko hlow div hc
  case syn5 => exact fun s t port val hlow => exec_registerWrite_syn5 hlow
  case oct => exact fun s t k port val hlow hk => exec_registerWrite_octCtrl hlow hk
  case cls => exact fun s t n port val hlow hn => exec_registerWrite_class hlow hn
  case svr => exact fun s t r port val hlow hr => exec_registerWrite_svrCfg hlow hr

end Sys2Proof.Machine
end

section
/-! SUPPORT. Mask bits: what a mask reads after one bit of it is written. -/

namespace Sys2Proof.Machine

/-! ### Numbers with one bit written -/

theorem bitOf_eq_testBit (v k : Nat) : bitOf v k = v.testBit k := by
  rw [Nat.testBit_eq_decide_div_mod_eq, bitOf, Nat.shiftRight_eq_div_pow]
  rfl

/-- `v` with bit `k` written, as `Dev.setBit` computes it. -/
def withBit (v k : Nat) (b : Bool) : Nat := if bitOf v k == b then v else if b then v + 2 ^ k else v - 2 ^ k

/-- The parts of a number above, at and below bit `k`. -/
theorem split_at_bit (v k : Nat) : v = 2 ^ k * (2 * (v / 2 ^ k / 2) + b2n (bitOf v k)) + v % 2 ^ k := by
  have hbit : b2n (bitOf v k) = v / 2 ^ k % 2 := by
    rcases Nat.mod_two_eq_zero_or_one (v / 2 ^ k) with h | h <;> simp [bitOf, Nat.shiftRight_eq_div_pow, h, b2n]
  rw [hbit, Nat.div_add_mod, Nat.div_add_mod]

theorem withBit_eq (v k : Nat) (b : Bool) : withBit v k b = 2 ^ k * (2 * (v / 2 ^ k / 2) + b2n b) + v % 2 ^ k := by
  have hs := split_at_bit v k
  have hone : 2 ^ k * (2 * (v / 2 ^ k / 2) + 1) = 2 ^ k * (2 * (v / 2 ^ k / 2)) + 2 ^ k := Nat.mul_succ _ _
  cases hv : bitOf v k <;> cases b <;> simp only [hv, b2n, if_true, Bool.false_eq_true, if_false, Nat.add_zero, hone] at hs ⊢
  case false.true =>
    have hw : withBit v k true = v + 2 ^ k := by simp [withBit, hv]
    omega
  case true.false =>
    have hw : withBit v k false = v - 2 ^ k := by simp [withBit, hv]
    omega
  all_goals simpa [withBit, hv] using hs

theorem b2n_lt (b : Bool) : b2n b < 2 := by cases b <;> decide

theorem withBit_lt {v k w : Nat} (b : Bool) (hv : v < 2 ^ w) (hk : k < w) : withBit v k b < 2 ^ w := by
  have hb := b2n_lt b
  have hlo : v % 2 ^ k < 2 ^ k := Nat.mod_lt _ (by positivity)
  have hw : 2 ^ w = 2 ^ k * (2 * 2 ^ (w - k - 1)) := by rw [← Nat.pow_succ', ← Nat.pow_add]; congr 1; omega
  have hhi : v / 2 ^ k / 2 < 2 ^ (w - k - 1) := by
    rw [Nat.div_div_eq_div_mul]
    exact Nat.div_lt_of_lt_mul (by rw [Nat.mul_assoc, ← hw]; exact hv)
  rw [withBit_eq, hw, Nat.add_comm, Nat.mul_comm (2 ^ k), Nat.mul_comm (2 ^ k)]
  calc v % 2 ^ k + (2 * (v / 2 ^ k / 2) + b2n b) * 2 ^ k
      < (2 * (v / 2 ^ k / 2) + b2n b + 1) * 2 ^ k := by
        rw [Nat.add_one_mul (2 * (v / 2 ^ k / 2) + b2n b)]; omega
    _ ≤ 2 * 2 ^ (w - k - 1) * 2 ^ k := Nat.mul_le_mul_right _ (by omega)

theorem bitOf_withBit (v k j : Nat) (b : Bool) : bitOf (withBit v k b) j = if j = k then b else bitOf v j := by
  have hlo : v % 2 ^ k < 2 ^ k := Nat.mod_lt _ (by positivity)
  have hhalf (c : Bool) : (2 * (v / 2 ^ k / 2) + b2n c) / 2 = v / 2 ^ k / 2 := by
    have := b2n_lt c; omega
  have hlow : (2 * (v / 2 ^ k / 2) + b2n b).testBit 0 = b := by cases b <;> simp [b2n, Nat.testBit_zero]
  rw [withBit_eq, bitOf_eq_testBit, Nat.testBit_two_pow_mul_add _ hlo, bitOf_eq_testBit]
  conv_rhs => rw [split_at_bit v k, Nat.testBit_two_pow_mul_add _ hlo]
  by_cases hjk : j < k
  · rw [if_pos hjk, if_pos hjk, if_neg (by omega)]
  · rw [if_neg hjk, if_neg hjk]
    cases hd : j - k with
    | zero => rw [if_pos (by omega), hlow]
    | succ n => rw [if_neg (by omega), Nat.testBit_succ, Nat.testBit_succ, hhalf, hhalf]

/-! ### Mask fields of registers -/

theorem Dev.rd_lt (d : Dev) (f : Field) (i : Nat) : d.rd f i < 2 ^ f.width := Field.get_lt f _

theorem Dev.setBit_eq (d : Dev) (f : Field) (k : Nat) (b : Bool) (i : Nat) :
    d.setBit f k b i = d.wr f (withBit (d.rd f i) k b) i := rfl

/-- A mask reads with its one bit as written and every other as before. -/
theorem Dev.bitAt_setBit (d : Dev) (f : Field) (k j : Nat) (b : Bool) (i : Nat) (h : f.lo + f.width ≤ 32) (hk : k < f.width) :
    (d.setBit f k b i).bitAt f j i = if j = k then b else d.bitAt f j i := by
  rw [Dev.bitAt, Dev.setBit_eq, Dev.rd_wr_fits d f _ i h (withBit_lt b (d.rd_lt f i) hk), bitOf_withBit, Dev.bitAt]

/-- Another field of the register reads as before. -/
theorem Dev.rd_setBit_field (d : Dev) (f g : Field) (k : Nat) (b : Bool) (i : Nat) (hr : g.reg = f.reg) (h : f.lo + f.width ≤ 32)
    (hd : f.lo + f.width ≤ g.lo ∨ g.lo + g.width ≤ f.lo) : (d.setBit f k b i).rd g i = d.rd g i :=
  Dev.rd_wr_field d f g _ i hr h hd

@[simp] theorem Dev.rd_raiseBit (d : Dev) (f g : Field) (k i j : Nat) :
    (d.raiseBit f k i).rd g j = (d.setBit f k true i).rd g j := by
  rw [Dev.rd, Dev.raiseBit, Dev.reg_noteSet, Dev.rd]

@[simp] theorem Dev.bitAt_raiseBit (d : Dev) (f g : Field) (k i m j : Nat) :
    (d.raiseBit f k i).bitAt g m j = (d.setBit f k true i).bitAt g m j := by
  rw [Dev.bitAt, Dev.rd_raiseBit, Dev.bitAt]

end Sys2Proof.Machine
end

section
/-! SUPPORT. Reset: what it releases, and the state it leaves (R14, R540, R542, R546). -/

namespace Sys2Proof.Machine

/-! ### What a reset puts out (R540) -/

theorem Dev.emitted_subset_each {α : Type} {f : Dev → α → Dev} (hadd : ∀ d y, d.emitted ⊆ (f d y).emitted) (xs : List α) (d : Dev) :
    d.emitted ⊆ (d.each xs f).emitted := by
  unfold Dev.each
  induction xs generalizing d with
  | nil => exact List.Subset.refl _
  | cons y ys ih => exact List.Subset.trans (hadd d y) (ih (f d y))

/-- What one element of a list puts out stays put out, where the device keeps `I` on the way to it and every step only adds. -/
theorem Dev.mem_emitted_each {α : Type} {xs : List α} {f : Dev → α → Dev} {I : Dev → Prop} {x : α} {e : Emission}
    (hx : x ∈ xs) (hI : ∀ d y, I d → I (f d y)) (hadd : ∀ d y, d.emitted ⊆ (f d y).emitted)
    (he : ∀ d, I d → e ∈ (f d x).emitted) (d : Dev) (hd : I d) : e ∈ (d.each xs f).emitted := by
  induction xs generalizing d with
  | nil => simp at hx
  | cons y ys ih =>
    rcases List.mem_cons.mp hx with rfl | hx
    · exact Dev.emitted_subset_each hadd ys _ (he d hd)
    · exact ih hx (f d y) (hI d y hd)

theorem Dev.emitted_subset_when_emit (d : Dev) (b : Bool) (e : Emission) : d.emitted ⊆ (d.when b fun d => d.emit e).emitted := by
  cases b
  · exact List.Subset.refl _
  · exact List.subset_cons_self e d.emitted

theorem Dev.mem_emitted_when_emit (d : Dev) {b : Bool} (e : Emission) (h : b = true) : e ∈ (d.when b fun d => d.emit e).emitted := by
  subst h
  exact List.mem_cons_self

theorem keeps_when_emit (d : Dev) (b : Bool) (e : Emission) : Keeps [.emitted] [] d (d.when b fun d => d.emit e) :=
  Keeps.when fun _ => keeps_emit _ d e (by simp)

/-- The lanes that a reset releases. -/
def Dev.releaseLanes (d : Dev) : Dev :=
  d.each (List.range 384) fun d n => d.when (d.lnState n != 0) fun d => d.emit (.lane n .hiZ)

/-- The clock outputs that a reset releases. -/
def Dev.releaseCkos (d : Dev) : Dev :=
  d.each (List.range 8) fun d c => d.when (Tbl.get none d.clk.cko c).isSome fun d => d.emit (.cko c none)

theorem Dev.release_eq (d : Dev) : d.release = ((((d.releaseLanes.releaseCkos.when d.releaseLanes.releaseCkos.clk.diag.isSome
    fun d => d.emit (.diagclk none)).emit (.lockPins true)).emit (.alert false)).emit (.gpio (List.replicate 16 none) 0#32)) := by
  unfold Dev.release Dev.releaseCkos Dev.releaseLanes
  rfl

theorem keeps_releaseLanes (d : Dev) : Keeps [.emitted] [] d d.releaseLanes :=
  Keeps.each _ _ (fun d n _ => keeps_when_emit d _ (.lane n .hiZ)) d

theorem keeps_releaseCkos (d : Dev) : Keeps [.emitted] [] d d.releaseCkos :=
  Keeps.each _ _ (fun d c _ => keeps_when_emit d _ (.cko c none)) d

theorem Dev.hiZ_mem_releaseLanes (d : Dev) {n : Nat} (hn : n < 384) (h : d.lnState n ≠ 0) :
    Emission.lane n .hiZ ∈ d.releaseLanes.emitted := by
  refine Dev.mem_emitted_each (I := fun e => e.lnState n = d.lnState n) (List.mem_range.mpr hn) (fun e m he => ?_)
    (fun e m => e.emitted_subset_when_emit _ _) (fun e he => ?_) d rfl
  · exact ((keeps_when_emit e _ (.lane m .hiZ)).rd n (by simp)).trans he
  · exact e.mem_emitted_when_emit _ (by simpa [he] using h)

theorem Dev.undriven_mem_releaseCkos (d : Dev) {c : Nat} (hc : c < 8) (h : (Tbl.get none d.clk.cko c).isSome = true) :
    Emission.cko c none ∈ d.releaseCkos.emitted := by
  refine Dev.mem_emitted_each (I := fun e => e.clk = d.clk) (List.mem_range.mpr hc) (fun e m he => ?_)
    (fun e m => e.emitted_subset_when_emit _ _) (fun e he => ?_) d rfl
  · exact ((keeps_when_emit e _ (.cko m none)).2.1 .clk (by simp)).trans he
  · exact e.mem_emitted_when_emit _ (by rw [he]; exact h)

theorem Dev.emitted_subset_releaseCkos (d : Dev) : d.emitted ⊆ d.releaseCkos.emitted :=
  Dev.emitted_subset_each (fun e _ => e.emitted_subset_when_emit _ _) _ d

theorem keeps_release (d : Dev) : Keeps [.emitted] [] d d.release := by
  rw [Dev.release_eq]
  refine Keeps.trans ?_ ((keeps_emit _ _ _ (by simp)).trans ((keeps_emit _ _ _ (by simp)).trans (keeps_emit _ _ _ (by simp))))
  exact ((keeps_releaseLanes d).trans (keeps_releaseCkos _)).trans (keeps_when_emit _ _ _)

/-- The pins, the lanes that are not off and the clock outputs that are driven are released. -/
def Released (d : Dev) (put : List Emission) : Prop :=
  (∀ n, n < 384 → d.lnState n ≠ 0 → Emission.lane n .hiZ ∈ put)
  ∧ (∀ c, c < 8 → (Tbl.get none d.clk.cko c).isSome = true → Emission.cko c none ∈ put)
  ∧ (d.clk.diag.isSome = true → Emission.diagclk none ∈ put)
  ∧ Emission.lockPins true ∈ put ∧ Emission.alert false ∈ put ∧ Emission.gpio (List.replicate 16 none) 0#32 ∈ put

theorem Dev.release_releases (d : Dev) : Released d d.release.emitted := by
  have hlanes : d.releaseLanes.clk = d.clk := (keeps_releaseLanes d).2.1 .clk (by simp)
  have hclk : d.releaseLanes.releaseCkos.clk = d.clk := ((keeps_releaseCkos _).2.1 .clk (by simp)).trans hlanes
  have hpast {e : Emission} (h : e ∈ d.releaseLanes.releaseCkos.emitted) : e ∈ d.release.emitted := by
    rw [Dev.release_eq]
    simp only [Dev.emit_emitted]
    exact List.mem_cons_of_mem _ (List.mem_cons_of_mem _ (List.mem_cons_of_mem _ (Dev.emitted_subset_when_emit _ _ _ h)))
  refine ⟨fun n hn h => hpast (Dev.emitted_subset_releaseCkos _ (d.hiZ_mem_releaseLanes hn h)), fun c hc h => hpast ?_,
    fun h => ?_, ?_, ?_, ?_⟩
  · exact Dev.undriven_mem_releaseCkos _ hc (by rw [hlanes]; exact h)
  · rw [Dev.release_eq]
    simp only [Dev.emit_emitted, List.mem_cons]
    exact .inr (.inr (.inr (Dev.mem_emitted_when_emit _ _ (by rw [hclk]; exact h))))
  all_goals simp [Dev.release_eq, Dev.emit_emitted]

end Sys2Proof.Machine
end

section
/-! SUPPORT. The state that a reset leaves (R14, R542, R546). -/

namespace Sys2Proof.Machine

/-! ### The straps as a word (R542) -/

/-- The straps as GLB_START shows them. -/
def Dev.strapWord (d : Dev) : Nat :=
  d.rd F.GLB_START_xadly + 8 * b2n (d.flag F.GLB_START_hostpri) + 16 * b2n (d.flag F.GLB_START_boothold)
    + 32 * b2n (d.flag F.GLB_START_laneref)

theorem Dev.strapWord_parts (d : Dev) : d.strapWord % 8 = d.rd F.GLB_START_xadly
    ∧ bitOf d.strapWord 3 = d.flag F.GLB_START_hostpri ∧ bitOf d.strapWord 4 = d.flag F.GLB_START_boothold
    ∧ bitOf d.strapWord 5 = d.flag F.GLB_START_laneref := by
  have hx : d.rd F.GLB_START_xadly < 8 := d.rd_lt _ _
  unfold Dev.strapWord bitOf
  generalize d.rd F.GLB_START_xadly = x at hx ⊢
  simp only [Nat.shiftRight_eq_div_pow]
  cases d.flag F.GLB_START_hostpri <;> cases d.flag F.GLB_START_boothold <;> cases d.flag F.GLB_START_laneref <;>
    simp only [b2n, if_true, Bool.false_eq_true, if_false, beq_iff_eq, beq_eq_false_iff_ne] <;> omega

theorem keeps_straps (as : List Area) (d : Dev) (v : Nat) : Keeps as [.GLB_START, .HIF_PORT_STATUS] d (d.straps v) := by
  have put (d : Dev) (f : Field) (b : Bool) (i : Nat) (h : f.reg ∈ [RegName.GLB_START, .HIF_PORT_STATUS]) :
      Keeps as [.GLB_START, .HIF_PORT_STATUS] d (d.put f b i) := keeps_put as d b i h
  have wr := keeps_wr (rs := [.GLB_START, .HIF_PORT_STATUS]) (f := F.GLB_START_xadly) as d v 0 (by decide)
  exact ((((wr.trans (put _ _ _ _ (by decide))).trans (put _ _ _ _ (by decide))).trans (put _ _ _ _ (by decide))).trans
    (put _ _ _ _ (by decide))).trans (put _ _ _ _ (by decide))

/-- What GLB_START shows of straps `v`, and of what it showed. -/
theorem Dev.straps_shows (d : Dev) (v : Nat) :
    (d.straps v).rd F.GLB_START_xadly = v % 8 ∧ (d.straps v).flag F.GLB_START_hostpri = bitOf v 3
    ∧ (d.straps v).flag F.GLB_START_boothold = bitOf v 4 ∧ (d.straps v).flag F.GLB_START_laneref = bitOf v 5
    ∧ (d.straps v).rd F.GLB_START_phase = d.rd F.GLB_START_phase
    ∧ (d.straps v).rd F.GLB_START_brownout = d.rd F.GLB_START_brownout := by
  have bit (b : Bool) : (b2n b % 2 ^ 1 == 1) = b := by cases b <;> rfl
  refine ⟨?_, ?_, ?_, ?_, ?_, ?_⟩
  all_goals
    simp (disch := decide) only [Dev.straps, Dev.put, Dev.flag, Dev.rd_wr_self, Dev.rd_wr_field, Dev.rd_wr_name]
  exacts [rfl, bit _, bit _, bit _]

/-! ### The device after a reset -/

/-- The parts of a reset device beside its registers, from the device that the reset has released. -/
def Dev.resetParts (d : Dev) : Dev :=
  { now := d.now, free := d.free, emitted := d.emitted
    start := { supplied := d.start.supplied, resetLow := d.start.resetLow, railOut := d.start.railOut
               railAt := d.start.railAt
               boundary := d.start.boundary, tap := d.start.tap, smbBytes := d.start.smbBytes }
    ports := ⟨portAfterReset d.ports.a, portAfterReset d.ports.b⟩
    ldr := { page := d.ldr.page, image := d.ldr.image, cur := d.ldr.cur, torn := d.ldr.torn, ending := d.ldr.page.isSome }
    key := { draws := d.key.draws } }

@[simp] theorem Dev.resetParts_now (d : Dev) : d.resetParts.now = d.now := rfl

@[simp] theorem Dev.resetParts_reg (d : Dev) (r : RegName) (i : Nat) : d.resetParts.reg r i = r.reset i := rfl

theorem Dev.resetAll_eq (d : Dev) : d.resetAll =
    (((d.release.resetParts.setReg .GLB_SUPPLY 0 (d.release.reg .GLB_SUPPLY 0)).straps d.release.strapWord).each [Port.a, Port.b]
      fun x p => x.put F.HIF_PORT_STATUS_link_up (x.port p).linkUp p.id).when d.release.ldr.page.isSome
      fun x => x.setReg .LDR_STATUS 0 (d.release.reg .LDR_STATUS 0) := by
  unfold Dev.resetAll Dev.resetParts Dev.strapWord
  rfl

/-- The registers that a reset does not put at their reset values. -/
def resetRegs : List RegName := [.GLB_SUPPLY, .LDR_STATUS, .HIF_PORT_STATUS, .GLB_START]

/-- After the straps a reset writes only the port status and the Larder's. -/
theorem keeps_resetAll_straps (as : List Area) (d : Dev) : Keeps as [.HIF_PORT_STATUS, .LDR_STATUS]
    ((d.release.resetParts.setReg .GLB_SUPPLY 0 (d.release.reg .GLB_SUPPLY 0)).straps d.release.strapWord) d.resetAll := by
  rw [Dev.resetAll_eq]
  exact (Keeps.each _ _ (fun x p _ => keeps_put as x _ _ (by decide)) _).trans
    (Keeps.when fun _ => keeps_setReg as _ 0 _ (by decide))

theorem keeps_resetAll (as : List Area) (d : Dev) : Keeps as resetRegs d.release.resetParts d.resetAll := by
  refine Keeps.trans ?_ ((keeps_resetAll_straps as d).mono (List.Subset.refl _) (by decide))
  exact (keeps_setReg as _ 0 _ (by decide)).trans ((keeps_straps as _ _).mono (List.Subset.refl _) (by decide))

/-- The straps stay as last sampled; the phase is 0 and no brown-out is remembered. -/
theorem Dev.resetAll_straps (d : Dev) :
    d.resetAll.rd F.GLB_START_xadly = d.rd F.GLB_START_xadly ∧ d.resetAll.flag F.GLB_START_hostpri = d.flag F.GLB_START_hostpri
    ∧ d.resetAll.flag F.GLB_START_boothold = d.flag F.GLB_START_boothold
    ∧ d.resetAll.flag F.GLB_START_laneref = d.flag F.GLB_START_laneref ∧ d.resetAll.rd F.GLB_START_phase = 0
    ∧ d.resetAll.rd F.GLB_START_brownout = 0 := by
  have hk := keeps_resetAll_straps [] d
  have hr := keeps_release d
  obtain ⟨sx, sh, sb, sl, sp, sw⟩ := Dev.straps_shows
    (d.release.resetParts.setReg .GLB_SUPPLY 0 (d.release.reg .GLB_SUPPLY 0)) d.release.strapWord
  obtain ⟨wx, wh, wb, wl⟩ := d.release.strapWord_parts
  refine ⟨?_, ?_, ?_, ?_, ?_, ?_⟩
  · rw [hk.rd 0 (by decide), sx, wx, hr.rd 0 (by decide)]
  · rw [hk.flag 0 (by decide), sh, wh, hr.flag 0 (by decide)]
  · rw [hk.flag 0 (by decide), sb, wb, hr.flag 0 (by decide)]
  · rw [hk.flag 0 (by decide), sl, wl, hr.flag 0 (by decide)]
  · rw [hk.rd 0 (by decide), sp, Dev.rd, Dev.reg_setReg_name _ _ _ _ (by decide), Dev.resetParts_reg]
    decide
  · rw [hk.rd 0 (by decide), sw, Dev.rd, Dev.reg_setReg_name _ _ _ _ (by decide), Dev.resetParts_reg]
    decide

theorem Dev.resetAll_supply (d : Dev) : d.resetAll.reg .GLB_SUPPLY 0 = d.reg .GLB_SUPPLY 0 := by
  rw [(keeps_resetAll_straps [] d).2.2 _ 0 (by decide), (keeps_straps [] _ _).2.2 _ 0 (by decide), Dev.reg_setReg_self,
    (keeps_release d).2.2 _ 0 (by decide)]

/-- The reset device's start-up unit. -/
theorem Dev.resetAll_start (d : Dev) : d.resetAll.start =
    { supplied := d.start.supplied, resetLow := d.start.resetLow, railOut := d.start.railOut, railAt := d.start.railAt
      boundary := d.start.boundary, tap := d.start.tap, smbBytes := d.start.smbBytes } := by
  have h : d.release.start = d.start := (keeps_release d).2.1 .start (by simp)
  rw [← h]
  exact (keeps_resetAll [] d).2.1 .start (by simp)

/-- The reset device's Larder unit: the page under write goes on to finish (R478). -/
theorem Dev.resetAll_ldr (d : Dev) : d.resetAll.ldr =
    { page := d.ldr.page, image := d.ldr.image, cur := d.ldr.cur, torn := d.ldr.torn, ending := d.ldr.page.isSome } := by
  have h : d.release.ldr = d.ldr := (keeps_release d).2.1 .ldr (by simp)
  rw [← h]
  exact (keeps_resetAll [] d).2.1 .ldr (by simp)

/-- Two devices are alike in all that `IsReset` says of the device before a reset. -/
structure ResetsLike (d e : Dev) : Prop where
  now : e.now = d.now
  regs : e.regs = d.regs
  clk : e.clk = d.clk
  railOut : e.start.railOut = d.start.railOut
  tap : e.start.tap = d.start.tap
  boundary : e.start.boundary = d.start.boundary
  smbBytes : e.start.smbBytes = d.start.smbBytes

theorem Released.congr {d e : Dev} {put : List Emission} (h : Released e put) (k : ResetsLike d e) : Released d put := by
  obtain ⟨lanes, ckos, diag, pins⟩ := h
  refine ⟨fun n hn hs => lanes n hn ?_, fun c hc hs => ckos c hc (by rw [k.clk]; exact hs), fun hs => diag (by rw [k.clk]; exact hs), pins⟩
  rw [Dev.lnState, Dev.rd_congr k.regs]
  exact hs

/-- A reset of a device like `d` is one of `d`. -/
theorem isReset_resetAll (m : Mems) {d e : Dev} (k : ResetsLike d e) : IsReset m m.afterReset d e.resetAll := by
  have hk := keeps_resetAll [] e
  have hr := keeps_release e
  obtain ⟨sx, sh, sb, sl, sp, -⟩ := e.resetAll_straps
  have hemit : e.resetAll.emitted = e.release.emitted := hk.2.1 .emitted (by simp)
  obtain ⟨lanes, ckos, diag, lockPins, alert, gpio⟩ := e.release_releases.congr k
  have hstart := e.resetAll_start
  rw [← hemit] at lanes ckos diag lockPins alert gpio
  exact ⟨rfl, rfl, rfl, hk.1.trans ((Dev.resetParts_now _).trans (hr.1.trans k.now)), by rw [hstart], sx.trans (Dev.rd_congr k.regs _ _),
    sb.trans (Dev.flag_congr k.regs _ _), sh.trans (Dev.flag_congr k.regs _ _), sl.trans (Dev.flag_congr k.regs _ _),
    fun r i h => (hk.2.2 r i h).trans (Dev.resetParts_reg _ r i), sp, hk.2.1 .lanes (by simp),
    hk.2.1 .outs (by simp), hk.2.1 .ins (by simp), hk.2.1 .svr (by simp),
    hk.2.1 .recs (by simp), hk.2.1 .ev (by simp), hk.2.1 .clk (by simp), hk.2.1 .tim (by simp), hk.2.1 .planes (by simp),
    hk.2.1 .cmx (by simp), by rw [hstart]; exact k.railOut, by rw [hstart]; exact k.tap, by rw [hstart]; exact k.boundary,
    by rw [hstart]; exact k.smbBytes, lanes, ckos, diag, lockPins, alert, gpio⟩

end Sys2Proof.Machine
end

section
/-! SUPPORT. RESET_N pulses and brown-outs (R481, R522, R546). -/

namespace Sys2Proof.Machine

/-! ### RESET_N (R546) -/

/-- The device as RESET_N takes it. -/
def Dev.underReset (d : Dev) : Dev := { d with start := { d.start with resetLow := true } }

theorem exec_resetAssert (s : State) (t low : Nat) : exec (.resetAssert t low) s = onMem true t s fun m d =>
    let x := if 100 ≤ low ∧ low < 1000 then d.draw else (0, d)
    if 1000 ≤ low ∨ x.1 % 2 = 1 then (m.afterReset, x.2.underReset.resetAll) else (m, x.2) := rfl

theorem ResetsLike.underReset {d e : Dev} (k : ResetsLike d e) : ResetsLike d e.underReset :=
  ⟨k.now, k.regs, k.clk, k.railOut, k.tap, k.boundary, k.smbBytes⟩

theorem resetsLike_draw (d : Dev) : ResetsLike d d.draw.2 := ⟨rfl, rfl, rfl, rfl, rfl, rfl, rfl⟩

theorem resetAll_underReset_resetLow (d : Dev) : d.underReset.resetAll.start.resetLow = true := by
  rw [Dev.resetAll_start]
  rfl

/-- A pulse of 1 us or more resets, and the Larder's page under write goes on. -/
theorem runsMem_resetAssert_long {s : State} {t low : Nat} (h : 1000 ≤ low) :
    RunsMem (.resetAssert t low) s fun m d' =>
      IsReset s.mem m (s.on t) d' ∧ d'.start.resetLow = true ∧ d'.start.supplied = (s.on t).start.supplied
      ∧ d'.reg .GLB_SUPPLY 0 = (s.on t).reg .GLB_SUPPLY 0 ∧ d'.ldr.page = (s.on t).ldr.page ∧ d'.ldr.image = (s.on t).ldr.image
      ∧ d'.ldr.queue = [] ∧ d'.ldr.ending = (s.on t).ldr.page.isSome := by
  refine RunsMem.of_onMem (exec_resetAssert s t low) rfl ?_
  generalize s.on t = d
  simp only [h, true_or, if_true, show ¬(100 ≤ low ∧ low < 1000) by omega, if_false]
  refine ⟨isReset_resetAll _ (ResetsLike.underReset ⟨rfl, rfl, rfl, rfl, rfl, rfl, rfl⟩),
    resetAll_underReset_resetLow d, ?_, d.underReset.resetAll_supply, ?_, ?_, ?_, ?_⟩
  · rw [Dev.resetAll_start]
    rfl
  all_goals rw [Dev.resetAll_ldr]
  · rfl
  · rfl
  · rfl

theorem onlyTime_resetAssert_short {s : State} {t low : Nat} (h : low < 100) : OnlyTime (.resetAssert t low) s t := by
  rw [OnlyTime, exec_resetAssert, onMem_true]
  simp only [show ¬(100 ≤ low ∧ low < 1000) by omega, show ¬(1000 ≤ low) by omega, if_false, false_or]
  rfl

/-- Between 100 ns and 1 us a pulse resets or changes nothing but what it draws. -/
theorem runsMem_resetAssert_open {s : State} {t low : Nat} (hl : 100 ≤ low) (hh : low < 1000) :
    RunsMem (.resetAssert t low) s fun m d' =>
      (m = s.mem ∧ Keeps [.free] [] (s.on t) d') ∨ (IsReset s.mem m (s.on t) d' ∧ d'.start.resetLow = true) := by
  refine RunsMem.of_onMem (exec_resetAssert s t low) rfl ?_
  generalize s.on t = d
  simp only [hl, hh, and_self, if_true, show ¬(1000 ≤ low) by omega, false_or]
  by_cases hx : d.draw.1 % 2 = 1
  · have hlike := resetsLike_draw d
    rw [if_pos hx]
    generalize d.draw.2 = e at hlike
    dsimp only
    exact .inr ⟨isReset_resetAll _ hlike.underReset, resetAll_underReset_resetLow e⟩
  · rw [if_neg hx]
    exact .inl ⟨rfl, keeps_draw _ d (by simp)⟩

/-! ### The reset of a brown-out (R522) -/

/-- The device as a lost supply takes it. -/
def Dev.unsupplied (d : Dev) : Dev := { d with start := { d.start with supplied := false } }

/-- A reset device remembers a brown-out where VDD_AON has held; else the supply monitors restart. -/
def Dev.brownMark (d : Dev) (held : Bool) : Dev :=
  if held then d.raise F.GLB_START_brownout else (d.wr F.GLB_SUPPLY_left 0).wr F.GLB_SUPPLY_departures 0

/-- A brown-out's reset of the device. -/
def Dev.brownReset (d : Dev) (aon : Bool) : Dev :=
  d.unsupplied.resetAll.brownMark (aon && !d.unsupplied.resetAll.start.railOut.contains 2)

theorem keeps_brownMark (as : List Area) (d : Dev) (held : Bool) : Keeps as [.GLB_START, .GLB_SUPPLY] d (d.brownMark held) :=
  Keeps.ite (fun _ => keeps_raise as _ 0 (by decide)) fun _ =>
    (keeps_wr as _ 0 0 (by decide)).trans (keeps_wr as _ 0 0 (by decide))

/-- The mark leaves the straps and the phase. -/
theorem Dev.rd_brownMark (d : Dev) (held : Bool) {f : Field} (hf : f.reg = .GLB_START)
    (hb : f.lo + f.width ≤ F.GLB_START_brownout.lo) : (d.brownMark held).rd f = d.rd f := by
  unfold Dev.brownMark
  split
  · rw [Dev.rd_raise, Dev.rd_wr_field _ F.GLB_START_brownout f _ 0 hf (by decide) (.inr hb)]
  · rw [Dev.rd_wr_name _ _ _ _ _ _ (by rw [hf]; decide), Dev.rd_wr_name _ _ _ _ _ _ (by rw [hf]; decide)]

theorem Dev.flag_brownMark (d : Dev) (held : Bool) {f : Field} (hf : f.reg = .GLB_START)
    (hb : f.lo + f.width ≤ F.GLB_START_brownout.lo) : (d.brownMark held).flag f = d.flag f := by
  rw [Dev.flag, d.rd_brownMark held hf hb, Dev.flag]

theorem Dev.flag_brownMark_brownout (d : Dev) (held : Bool) (h : d.rd F.GLB_START_brownout = 0) :
    (d.brownMark held).flag F.GLB_START_brownout = held := by
  unfold Dev.brownMark
  cases held
  · rw [if_neg (by decide), Dev.flag, Dev.rd_wr_name _ _ _ _ _ _ (by decide), Dev.rd_wr_name _ _ _ _ _ _ (by decide), h]
    rfl
  · rw [if_pos rfl, Dev.flag, Dev.rd_raise, Dev.rd_wr_self _ _ _ _ (by decide)]
    rfl

/-- What a reset leaves, the mark of a brown-out leaves as well. -/
theorem IsReset.brownMark {m m' : Mems} {d e : Dev} (k : IsReset m m' d e) (held : Bool) : IsReset m m' d (e.brownMark held) := by
  have hk := keeps_brownMark [] e held
  obtain ⟨larder, hamper, sram, now, booted, sx, sb, sh, sl, regs, phase, lanes, outs, ins, svr, recs, ev, clk, tim, planes, cmx,
    railOut, tap, boundary, smbBytes, hlanes, hckos, hdiag, hpins, halert, hgpio⟩ := k
  have hstart : (e.brownMark held).start = e.start := hk.2.1 .start (by simp)
  have hemit : (e.brownMark held).emitted = e.emitted := hk.2.1 .emitted (by simp)
  rw [← hstart] at booted railOut tap boundary smbBytes
  rw [← hemit] at hlanes hckos hdiag hpins halert hgpio
  refine ⟨larder, hamper, sram, hk.1.trans now, booted, (e.rd_brownMark held rfl (by decide)).trans sx,
    (e.flag_brownMark held rfl (by decide)).trans sb, (e.flag_brownMark held rfl (by decide)).trans sh,
    (e.flag_brownMark held rfl (by decide)).trans sl, fun r i h => ?_, (e.rd_brownMark held rfl (by decide)).trans phase,
    (hk.2.1 .lanes (by simp)).trans lanes, (hk.2.1 .outs (by simp)).trans outs, (hk.2.1 .ins (by simp)).trans ins,
    (hk.2.1 .svr (by simp)).trans svr, (hk.2.1 .recs (by simp)).trans recs, (hk.2.1 .ev (by simp)).trans ev,
    (hk.2.1 .clk (by simp)).trans clk, (hk.2.1 .tim (by simp)).trans tim, (hk.2.1 .planes (by simp)).trans planes,
    (hk.2.1 .cmx (by simp)).trans cmx, railOut, tap, boundary, smbBytes, hlanes, hckos, hdiag, hpins, halert, hgpio⟩
  have hr : r ∉ [RegName.GLB_START, .GLB_SUPPLY] := by
    simp only [List.mem_cons, not_or] at h ⊢
    exact ⟨h.2.2.2.1, h.1, h.2.2.2.2⟩
  exact (hk.2.2 r i hr).trans (regs r i h)

theorem ResetsLike.unsupplied {d e : Dev} (k : ResetsLike d e) : ResetsLike d e.unsupplied :=
  ⟨k.now, k.regs, k.clk, k.railOut, k.tap, k.boundary, k.smbBytes⟩

theorem isReset_brownReset (m : Mems) {d e : Dev} (aon : Bool) (k : ResetsLike d e) : IsReset m m.afterReset d (e.brownReset aon) :=
  (isReset_resetAll m k.unsupplied).brownMark _

theorem Dev.brownReset_supplied (d : Dev) (aon : Bool) : (d.brownReset aon).start.supplied = false := by
  have h : (d.brownReset aon).start = d.unsupplied.resetAll.start := (keeps_brownMark [] _ _).2.1 .start (by simp)
  rw [h, Dev.resetAll_start]
  rfl

theorem Dev.brownReset_ldr (d : Dev) (aon : Bool) : (d.brownReset aon).ldr =
    { page := d.ldr.page, image := d.ldr.image, cur := d.ldr.cur, torn := d.ldr.torn, ending := d.ldr.page.isSome } :=
  ((keeps_brownMark [] d.unsupplied.resetAll _).2.1 .ldr (by simp)).trans (Dev.resetAll_ldr _)

theorem Dev.brownReset_brownout (d : Dev) (aon : Bool) :
    (d.brownReset aon).flag F.GLB_START_brownout = (aon && !d.start.railOut.contains 2) := by
  obtain ⟨-, -, -, -, -, hzero⟩ := d.unsupplied.resetAll_straps
  rw [Dev.brownReset, Dev.flag_brownMark_brownout _ _ hzero, Dev.resetAll_start]
  rfl

end Sys2Proof.Machine
end

section
/-! SUPPORT. The page under write at a brown-out (R481, R522, Table 15-1). -/

namespace Sys2Proof.Machine

/-! ### Reading the array -/

@[simp] theorem Memory.readN_length (b : Byte) (m : Memory) (a n : Nat) : (Memory.readN b m a n).length = n := by
  simp [Memory.readN]

theorem Memory.readN_getElem (b : Byte) (m : Memory) (a n : Nat) {k : Nat} (h : k < (Memory.readN b m a n).length) :
    (Memory.readN b m a n)[k] = Memory.read b m (a + k) := by simp [Memory.readN]

/-- Bytes written where they stand change nothing that is read. -/
theorem Memory.read_writeN_readN (b : Byte) (m : Memory) (a n k : Nat) :
    Memory.read b (Memory.writeN b m a (Memory.readN b m a n)) k = Memory.read b m k := by
  by_cases h : a ≤ k ∧ k < a + n
  · obtain ⟨i, rfl⟩ := Nat.exists_eq_add_of_le h.1
    have hi : i < (Memory.readN b m a n).length := by rw [Memory.readN_length]; omega
    rw [Memory.read_writeN_inside b m a _ i hi, Memory.readN_getElem]
  · exact Memory.read_writeN_outside b m a _ k (by rw [Memory.readN_length]; omega)

@[simp] theorem Dev.ldrRead_length (d : Dev) (m : Memory) (a n : Nat) : (d.ldrRead m a n).1.length = n := by
  unfold Dev.ldrRead
  split <;> simp [freeBytes]

/-- A read of the array may draw free bits for torn ones; nothing else changes. -/
theorem Dev.ldrRead_snd (d : Dev) (m : Memory) (a n : Nat) : ∃ k, (d.ldrRead m a n).2 = { d with free := k } := by
  unfold Dev.ldrRead
  split
  · exact ⟨_, rfl⟩
  · exact ⟨d.free, rfl⟩

theorem Dev.ldrRead_of_whole (d : Dev) (m : Memory) (a n : Nat) (h : d.ldr.torn = []) :
    (d.ldrRead m a n).1 = Memory.readN 0xFF#8 m a n := by
  simp [Dev.ldrRead, h]

/-! ### The torn page -/

theorem mem_span {a n k : Nat} : k ∈ span a n ↔ a ≤ k ∧ k < a + n := by
  simp only [span, List.mem_map, List.mem_range]
  exact ⟨fun ⟨i, hi, hk⟩ => by omega, fun h => ⟨k - a, by omega, by omega⟩⟩

/-- A byte of the page is torn anew exactly where it is listed. -/
theorem mem_retorn_of_mem (torn : List (Nat × Nat)) (pg : Nat) {offs : List Nat} {o : Nat} (h : o ∈ offs) :
    (256 * pg + o, 1) ∈ retorn torn pg offs :=
  List.mem_append_right _ (List.mem_map_of_mem h)

theorem retorn_covers {torn : List (Nat × Nat)} {pg k : Nat} {offs : List Nat} {z : Nat × Nat} (hz : z ∈ retorn torn pg offs)
    (hk : k < 256) (hc : z.1 ≤ 256 * pg + k ∧ 256 * pg + k < z.1 + z.2) : k ∈ offs := by
  rcases List.mem_append.mp hz with h | h
  · obtain ⟨x, -, hx⟩ := List.mem_flatMap.mp h
    exfalso
    rcases List.mem_append.mp hx with hx | hx
    all_goals
      dsimp only at hx
      split at hx
      · simp at hx
      · rw [List.mem_singleton] at hx
        subst hx
        grind
  · obtain ⟨o, ho, rfl⟩ := List.mem_map.mp h
    simp only at hc
    rwa [show k = o by omega]

/-- The bytes of a torn page are its 256. -/
theorem tornPage_length {stage : TornStage} {old new : List Byte} (hs : stageOk stage = true) (ho : old.length = 256)
    (hn : new.length = 256) : (tornPage stage old new).1.length = 256 := by
  cases stage with
  | programming w =>
    have hw : w < 32 := by simpa [stageOk] using hs
    simp only [tornPage, List.length_append, List.length_take, List.length_replicate, hn]
    omega
  | beforeErase => exact ho
  | duringErase => exact ho
  | programmed => exact hn

theorem tornPage_programming_low {w k : Nat} {old new : List Byte} (hn : new.length = 256) (hw : w < 32) (hk : k < 8 * (w + 1)) (b : Byte) :
    (tornPage (.programming w) old new).1.getD k b = new.getD k b := by
  have h : k < (new.take (8 * (w + 1))).length := by rw [List.length_take]; omega
  simp only [tornPage]
  rw [List.getD_append _ _ _ _ h, List.getD_eq_getElem _ _ h, List.getElem_take, List.getD_eq_getElem]

theorem tornPage_programming_high {w k : Nat} {old new : List Byte} (hn : new.length = 256) (hw : w < 32) (hk : 8 * (w + 1) ≤ k)
    (h : k < 256) (b : Byte) : (tornPage (.programming w) old new).1.getD k b = 0xFF#8 := by
  have hl : (new.take (8 * (w + 1))).length = 8 * (w + 1) := by rw [List.length_take]; omega
  simp only [tornPage]
  rw [List.getD_append_right _ _ _ _ (by omega), hl, List.getD_replicate]
  omega

/-! ### The brown-out -/

/-- The bytes that a brown-out leaves on page `pg` under write. -/
def Dev.tornBytes (d : Dev) (larder : Memory) (pg : Nat) (stage : TornStage) : List Byte :=
  if stage == TornStage.beforeErase then Memory.readN 0xFF#8 larder (256 * pg) 256
  else (tornPage stage (d.ldrRead larder (256 * pg) 256).1 d.ldr.image).1

/-- The ranges of torn bytes after it. -/
def Dev.tornRanges (d : Dev) (larder : Memory) (pg : Nat) (stage : TornStage) : List (Nat × Nat) :=
  if stage == TornStage.beforeErase then d.ldr.torn
  else retorn d.ldr.torn pg (tornPage stage (d.ldrRead larder (256 * pg) 256).1 d.ldr.image).2

theorem Dev.tornBytes_beforeErase (d : Dev) (larder : Memory) (pg : Nat) :
    d.tornBytes larder pg .beforeErase = Memory.readN 0xFF#8 larder (256 * pg) 256 := if_pos rfl

theorem Dev.tornRanges_beforeErase (d : Dev) (larder : Memory) (pg : Nat) : d.tornRanges larder pg .beforeErase = d.ldr.torn :=
  if_pos rfl

theorem Dev.tornRanges_of_ne (d : Dev) (larder : Memory) (pg : Nat) {stage : TornStage} (h : stage ≠ .beforeErase) :
    d.tornRanges larder pg stage = retorn d.ldr.torn pg (tornPage stage (d.ldrRead larder (256 * pg) 256).1 d.ldr.image).2 :=
  if_neg (by simpa using h)

theorem Dev.tornBytes_of_ne (d : Dev) (larder : Memory) (pg : Nat) {stage : TornStage} (h : stage ≠ .beforeErase) :
    d.tornBytes larder pg stage = (tornPage stage (d.ldrRead larder (256 * pg) 256).1 d.ldr.image).1 :=
  if_neg (by simpa using h)

theorem Dev.tornBytes_length (d : Dev) (larder : Memory) (pg : Nat) {stage : TornStage} (hs : stageOk stage = true)
    (hn : d.ldr.image.length = 256) : (d.tornBytes larder pg stage).length = 256 := by
  unfold Dev.tornBytes
  split
  · exact Memory.readN_length _ _ _ _
  · exact tornPage_length hs (d.ldrRead_length _ _ _) hn

/-- What a brown-out does to the page under write. -/
def Dev.tear (d : Dev) (m : Mems) (stage : TornStage) : Mems × Dev :=
  match d.ldr.page with
  | none => (m, d)
  | some pg =>
    let (old, d) := d.ldrRead m.larder (256 * pg) 256
    let (bs, offs) := tornPage stage old d.ldr.image
    let keep : Bool := stage == TornStage.beforeErase
    ({ m with larder := Memory.writeN 0xFF#8 m.larder (256 * pg) (if keep then Memory.readN 0xFF#8 m.larder (256 * pg) 256 else bs) },
      d.modLdr fun l => { l with page := none, torn := if keep then l.torn else retorn l.torn pg offs })

/-- A brown-out tears the page under write and then resets. -/
theorem Dev.brownOut_eq (d : Dev) (m : Mems) (aon : Bool) (stage : TornStage) :
    d.brownOut m aon stage = ((d.tear m stage).1.afterReset, (d.tear m stage).2.brownReset aon) := by
  unfold Dev.brownOut Dev.tear Dev.brownReset Dev.brownMark Dev.unsupplied
  cases d.ldr.page with
  | none => dsimp only
  | some pg => dsimp only

theorem Dev.tear_none {d : Dev} (m : Mems) (stage : TornStage) (h : d.ldr.page = none) : d.tear m stage = (m, d) := by
  rw [Dev.tear, h]

/-- The device after the page under write is torn; what it reads of the page may draw free bits. -/
def Dev.afterTear (d : Dev) (k : Nat) (torn : List (Nat × Nat)) : Dev :=
  { d with free := k, ldr := { d.ldr with page := none, torn := torn } }

theorem Dev.tear_some {d : Dev} {pg : Nat} (m : Mems) (stage : TornStage) (h : d.ldr.page = some pg) : ∃ k, d.tear m stage =
    ({ m with larder := Memory.writeN 0xFF#8 m.larder (256 * pg) (d.tornBytes m.larder pg stage) },
      d.afterTear k (d.tornRanges m.larder pg stage)) := by
  obtain ⟨k, hk⟩ := d.ldrRead_snd m.larder (256 * pg) 256
  refine ⟨k, ?_⟩
  unfold Dev.tear Dev.tornBytes Dev.tornRanges
  rw [h]
  dsimp only
  cases hread : d.ldrRead m.larder (256 * pg) 256 with
  | mk old e =>
    obtain rfl : e = { d with free := k } := by simpa [hread] using hk
    rfl

theorem brownOutDue_of_brownsOut {d : Dev} {rail : Nat} (h : BrownsOut d rail) : d.brownOutDue = true := by
  obtain ⟨hs, hr, ht⟩ := h
  simp only [Dev.brownOutDue, hs, Bool.true_and, List.any_eq_true, decide_eq_true_eq]
  exact ⟨rail, hr, ht⟩

theorem brownOutDue_eq_false {d : Dev} (h : ∀ r, r ∈ d.start.railOut → d.now < Tbl.get 0 d.start.railAt r + 48 * usU) :
    d.brownOutDue = false := by
  rw [Dev.brownOutDue, Bool.and_eq_false_iff]
  refine .inr (List.any_eq_false.mpr fun r hr => ?_)
  simpa using h r hr

theorem exec_brownOut (s : State) (t : Nat) (aon : Bool) (stage : TornStage) : exec (.brownOut t aon stage) s =
    onMem (stageOk stage) t s fun m d => if d.brownOutDue then d.brownOut m aon stage else (m, d) := rfl

theorem onlyTime_brownOut {s : State} {t : Nat} {aon : Bool} {stage : TornStage} (hs : stageOk stage = true)
    (h : (s.on t).brownOutDue = false) : OnlyTime (.brownOut t aon stage) s t := by
  rw [OnlyTime, exec_brownOut, hs, onMem_true, h]
  rfl

/-- A brown-out runs to the reset of the device whose page under write is torn. -/
theorem runsMem_brownOut {s : State} {t : Nat} {aon : Bool} {stage : TornStage} {post : Mems → Dev → Prop} (hs : stageOk stage = true)
    (hdue : (s.on t).brownOutDue = true)
    (h : post ((s.on t).tear s.mem stage).1.afterReset (((s.on t).tear s.mem stage).2.brownReset aon)) :
    RunsMem (.brownOut t aon stage) s post := by
  refine RunsMem.of_onMem (exec_brownOut s t aon stage) hs ?_
  rw [if_pos hdue, Dev.brownOut_eq]
  exact h

theorem runsMem_brownOut_idle {s : State} {t rail : Nat} {aon : Bool} {stage : TornStage} (hs : stageOk stage = true)
    (hb : BrownsOut (s.on t) rail) (hp : (s.on t).ldr.page = none) :
    RunsMem (.brownOut t aon stage) s fun m d' =>
      IsReset s.mem m (s.on t) d' ∧ d'.start.supplied = false
      ∧ d'.flag F.GLB_START_brownout = (aon && !(s.on t).start.railOut.contains 2) := by
  refine runsMem_brownOut hs (brownOutDue_of_brownsOut hb) ?_
  rw [Dev.tear_none _ _ hp]
  exact ⟨isReset_brownReset _ aon ⟨rfl, rfl, rfl, rfl, rfl, rfl, rfl⟩, Dev.brownReset_supplied _ _, Dev.brownReset_brownout _ _⟩

/-! ### What each stage leaves of the page (Table 15-1) -/

/-- A Larder and torn ranges as a brown-out at `stage` leaves them, from the Larder `larder` with page `pg` under write. -/
def Torn (d : Dev) (larder larder' : Memory) (torn : List (Nat × Nat)) (pg : Nat) (stage : TornStage) : Prop :=
  (∀ a, a / 256 ≠ pg → Memory.read 0xFF#8 larder' a = Memory.read 0xFF#8 larder a)
  ∧ (stage = .beforeErase → (∀ a, Memory.read 0xFF#8 larder' a = Memory.read 0xFF#8 larder a) ∧ torn = d.ldr.torn)
  ∧ (stage = .duringErase → ∀ k, k < 256 →
      Memory.read 0xFF#8 larder' (256 * pg + k) = (d.ldrRead larder (256 * pg) 256).1.getD k 0#8 ∧ (256 * pg + k, 1) ∈ torn)
  ∧ (∀ w, stage = .programming w →
      (∀ k, k < 8 * (w + 1) → Memory.read 0xFF#8 larder' (256 * pg + k) = d.ldr.image.getD k 0xFF#8)
      ∧ (∀ k, 8 * (w + 1) ≤ k → k < 256 → Memory.read 0xFF#8 larder' (256 * pg + k) = 0xFF#8)
      ∧ (∀ k, k < 8 → (256 * pg + 8 * w + k, 1) ∈ torn)
      ∧ (∀ k, k < 256 → k / 8 ≠ w → ∀ z, z ∈ torn → ¬ (z.1 ≤ 256 * pg + k ∧ 256 * pg + k < z.1 + z.2)))
  ∧ (stage = .programmed → ∀ k, k < 256 → Memory.read 0xFF#8 larder' (256 * pg + k) = d.ldr.image.getD k 0xFF#8
      ∧ ∀ z, z ∈ torn → ¬ (z.1 ≤ 256 * pg + k ∧ 256 * pg + k < z.1 + z.2))

theorem Memory.read_writeN_page (larder : Memory) {bs : List Byte} {pg k : Nat} (b : Byte) (hl : bs.length = 256) (hk : k < 256) :
    Memory.read 0xFF#8 (Memory.writeN 0xFF#8 larder (256 * pg) bs) (256 * pg + k) = bs.getD k b := by
  rw [Memory.read_writeN_inside _ _ _ _ _ (by omega), List.getD_eq_getElem _ _ (by omega)]

theorem Memory.read_writeN_page_ne (larder : Memory) {bs : List Byte} {pg a : Nat} (hl : bs.length = 256) (ha : a / 256 ≠ pg) :
    Memory.read 0xFF#8 (Memory.writeN 0xFF#8 larder (256 * pg) bs) a = Memory.read 0xFF#8 larder a :=
  Memory.read_writeN_outside _ _ _ _ _ (by omega)

theorem Dev.tear_torn (d : Dev) (larder : Memory) (pg : Nat) {stage : TornStage} (hs : stageOk stage = true)
    (hn : d.ldr.image.length = 256) :
    Torn d larder (Memory.writeN 0xFF#8 larder (256 * pg) (d.tornBytes larder pg stage)) (d.tornRanges larder pg stage) pg stage := by
  have hlen := d.tornBytes_length larder pg hs hn
  refine ⟨fun a ha => larder.read_writeN_page_ne hlen ha, ?_, ?_, ?_, ?_⟩
  · rintro rfl
    rw [Dev.tornBytes_beforeErase, Dev.tornRanges_beforeErase]
    exact ⟨fun a => Memory.read_writeN_readN _ _ _ _ _, rfl⟩
  · rintro rfl k hk
    rw [Memory.read_writeN_page larder 0#8 hlen hk, Dev.tornBytes_of_ne _ _ _ (by decide), Dev.tornRanges_of_ne _ _ _ (by decide)]
    simp only [tornPage]
    exact ⟨trivial, mem_retorn_of_mem _ _ (List.mem_range.mpr hk)⟩
  · rintro w rfl
    have hw : w < 32 := by simpa [stageOk] using hs
    rw [Dev.tornBytes_of_ne _ _ _ (by simp)] at hlen ⊢
    rw [Dev.tornRanges_of_ne _ _ _ (by simp)]
    refine ⟨fun k hk => ?_, fun k hk h => ?_, fun k hk => ?_, fun k hk hne z hz hc => ?_⟩
    · rw [Memory.read_writeN_page larder 0xFF#8 hlen (by omega), tornPage_programming_low hn hw hk]
    · rw [Memory.read_writeN_page larder 0xFF#8 hlen h, tornPage_programming_high hn hw hk h]
    · rw [Nat.add_assoc]
      exact mem_retorn_of_mem _ _ (mem_span.mpr (by omega))
    · have := mem_span.mp (retorn_covers hz hk hc)
      omega
  · rintro rfl k hk
    rw [Memory.read_writeN_page larder 0xFF#8 hlen hk, Dev.tornBytes_of_ne _ _ _ (by decide), Dev.tornRanges_of_ne _ _ _ (by decide)]
    exact ⟨rfl, fun z hz hc => List.not_mem_nil (retorn_covers hz hk hc)⟩

/-- A brown-out during a page write tears the page as its stage says, and resets. -/
theorem runsMem_brownOut_writing {s : State} {t rail pg : Nat} {aon : Bool} {stage : TornStage} (hs : stageOk stage = true)
    (hb : BrownsOut (s.on t) rail) (hp : (s.on t).ldr.page = some pg) (hn : (s.on t).ldr.image.length = 256) :
    RunsMem (.brownOut t aon stage) s fun m d' =>
      Torn (s.on t) s.mem.larder m.larder d'.ldr.torn pg stage
      ∧ IsReset { s.mem with larder := m.larder } m (s.on t) d' ∧ d'.ldr.page = none ∧ d'.start.supplied = false := by
  refine runsMem_brownOut hs (brownOutDue_of_brownsOut hb) ?_
  obtain ⟨k, hk⟩ := (s.on t).tear_some s.mem stage hp
  rw [hk]
  generalize s.on t = d at hn
  dsimp only
  refine ⟨?_, isReset_brownReset _ aon ⟨rfl, rfl, rfl, rfl, rfl, rfl, rfl⟩, ?_, Dev.brownReset_supplied _ _⟩
  · rw [Dev.brownReset_ldr]
    exact d.tear_torn s.mem.larder pg hs hn
  · rw [Dev.brownReset_ldr]
    rfl

end Sys2Proof.Machine
end

section
/-! SUPPORT. A rail leaves its window and returns (R478, R522). -/

namespace Sys2Proof.Machine

theorem mem_setInsert_self (x : Nat) (l : List Nat) : x ∈ setInsert x l := by
  induction l with
  | nil => exact List.mem_singleton.mpr rfl
  | cons y r ih =>
    unfold setInsert
    split
    · exact List.mem_cons_self
    · split
      · next h => exact h ▸ List.mem_cons_self
      · exact List.mem_cons_of_mem _ ih

/-! ### Masks and flags of GLB_SUPPLY -/

/-- A mask of another field of the register reads as before. -/
theorem Dev.bitAt_setBit_field (d : Dev) (f g : Field) (k j : Nat) (b : Bool) (i : Nat) (hr : g.reg = f.reg) (h : f.lo + f.width ≤ 32)
    (hd : f.lo + f.width ≤ g.lo ∨ g.lo + g.width ≤ f.lo) : (d.setBit f k b i).bitAt g j i = d.bitAt g j i := by
  rw [Dev.bitAt, d.rd_setBit_field f g k b i hr h hd, Dev.bitAt]

theorem Dev.bitAt_bump_field (d : Dev) (f g : Field) (j i n : Nat) (hr : g.reg = f.reg) (h : f.lo + f.width ≤ 32)
    (hd : f.lo + f.width ≤ g.lo ∨ g.lo + g.width ≤ f.lo) : (d.bump f i n).bitAt g j i = d.bitAt g j i := by
  rw [Dev.bitAt, Dev.bump, Dev.rd_wr_field _ f g _ i hr h hd, Dev.bitAt]

/-! ### A departure -/

/-- Rail `rail` is outside its window. -/
def Dev.railOff (d : Dev) (rail : Nat) : Dev :=
  let d := d.setBit F.GLB_SUPPLY_in_window rail false
  { d with start := { d.start with railOut := setInsert rail d.start.railOut, railAt := Tbl.set 0 d.start.railAt rail d.now } }

/-- A departure after t0 is flagged and counted. -/
def Dev.departed (d : Dev) (rail : Nat) : Dev := (d.raiseBit F.GLB_SUPPLY_left rail).bump F.GLB_SUPPLY_departures

theorem exec_railDeparture (s : State) (t rail : Nat) : exec (.railDeparture t rail) s = onDev (railOk rail) t s fun d =>
    if !d.start.supplied then (d.railOff rail).when (rail == 2) fun d => d.put F.GLB_START_brownout false
    else if d.start.resetLow then (d.railOff rail).departed rail
    else ((d.railOff rail).departed rail).occur evRail 0x74 rail := rfl

theorem keeps_railOff (d : Dev) (rail : Nat) : Keeps [.start] [.GLB_SUPPLY] d (d.railOff rail) :=
  (keeps_setBit _ d rail false 0 (by decide)).trans (keeps_start _ _ _ (by simp))

theorem keeps_departed (as : List Area) (d : Dev) (rail : Nat) : Keeps as [.GLB_SUPPLY] d (d.departed rail) :=
  (keeps_raiseBit as d rail 0 (by decide)).trans (keeps_bump as _ 0 1 (by decide))

theorem Dev.railOff_start (d : Dev) (rail : Nat) : (d.railOff rail).start =
    { d.start with railOut := setInsert rail d.start.railOut, railAt := Tbl.set 0 d.start.railAt rail d.now } := rfl

theorem Dev.bitAt_railOff_window (d : Dev) {rail : Nat} (j : Nat) (h : rail < 8) :
    (d.railOff rail).bitAt F.GLB_SUPPLY_in_window j = if j = rail then false else d.bitAt F.GLB_SUPPLY_in_window j :=
  Eq.trans rfl (d.bitAt_setBit F.GLB_SUPPLY_in_window rail j false 0 (by decide) h)

theorem Dev.bitAt_railOff_left (d : Dev) (rail j : Nat) :
    (d.railOff rail).bitAt F.GLB_SUPPLY_left j = d.bitAt F.GLB_SUPPLY_left j :=
  Eq.trans rfl (d.bitAt_setBit_field F.GLB_SUPPLY_in_window F.GLB_SUPPLY_left rail j false 0 rfl (by decide) (by decide))

theorem Dev.rd_railOff_departures (d : Dev) (rail : Nat) :
    (d.railOff rail).rd F.GLB_SUPPLY_departures = d.rd F.GLB_SUPPLY_departures :=
  Eq.trans rfl (d.rd_setBit_field F.GLB_SUPPLY_in_window F.GLB_SUPPLY_departures rail false 0 rfl (by decide) (by decide))

theorem Dev.bitAt_departed_window (d : Dev) (rail j : Nat) :
    (d.departed rail).bitAt F.GLB_SUPPLY_in_window j = d.bitAt F.GLB_SUPPLY_in_window j := by
  rw [Dev.departed, Dev.bitAt_bump_field _ F.GLB_SUPPLY_departures F.GLB_SUPPLY_in_window _ _ _ rfl (by decide) (by decide),
    Dev.bitAt_raiseBit, Dev.bitAt_setBit_field _ F.GLB_SUPPLY_left F.GLB_SUPPLY_in_window _ _ _ _ rfl (by decide) (by decide)]

theorem Dev.bitAt_departed_left (d : Dev) {rail : Nat} (j : Nat) (h : rail < 8) :
    (d.departed rail).bitAt F.GLB_SUPPLY_left j = if j = rail then true else d.bitAt F.GLB_SUPPLY_left j := by
  rw [Dev.departed, Dev.bitAt_bump_field _ F.GLB_SUPPLY_departures F.GLB_SUPPLY_left _ _ _ rfl (by decide) (by decide),
    Dev.bitAt_raiseBit, Dev.bitAt_setBit _ _ _ _ _ _ (by decide) h]

theorem Dev.rd_departed_departures (d : Dev) (rail : Nat) :
    (d.departed rail).rd F.GLB_SUPPLY_departures = min (d.rd F.GLB_SUPPLY_departures + 1) 255 := by
  rw [Dev.departed, Dev.rd_bump_self _ _ _ _ (by decide), Dev.rd_raiseBit,
    Dev.rd_setBit_field _ F.GLB_SUPPLY_left F.GLB_SUPPLY_departures _ _ _ rfl (by decide) (by decide)]
  rfl

/-- A rail that leaves its window while the device runs shows, is counted and makes an event. -/
theorem runs_railDeparture {s : State} {t rail : Nat} (hr : rail < 8) (hs : (s.on t).start.supplied = true)
    (hl : (s.on t).start.resetLow = false) :
    Runs (.railDeparture t rail) s fun d' =>
      d'.bitAt F.GLB_SUPPLY_in_window rail = false ∧ d'.bitAt F.GLB_SUPPLY_left rail = true
      ∧ d'.rd F.GLB_SUPPLY_departures = min ((s.on t).rd F.GLB_SUPPLY_departures + 1) 255
      ∧ (∀ j, j < 8 → j ≠ rail → d'.bitAt F.GLB_SUPPLY_in_window j = (s.on t).bitAt F.GLB_SUPPLY_in_window j
          ∧ d'.bitAt F.GLB_SUPPLY_left j = (s.on t).bitAt F.GLB_SUPPLY_left j)
      ∧ d'.start = { (s.on t).start with railOut := setInsert rail (s.on t).start.railOut, railAt := d'.start.railAt }
      ∧ (∀ j, j < 8 → Tbl.get 0 d'.start.railAt j = if j = rail then (s.on t).now else Tbl.get 0 (s.on t).start.railAt j)
      ∧ Keeps (.start :: evAreas) (.GLB_SUPPLY :: evRegs) (s.on t) d' := by
  refine Runs.of_onDev (exec_railDeparture s t rail) (decide_eq_true hr) ?_
  generalize s.on t = d at hs hl
  rw [if_neg (by simp [hs]), if_neg (by simp [hl])]
  have hev := evOnly_occur ((d.railOff rail).departed rail) evRail 0x74 rail 0 1 none
  have hcount := keeps_departed [] (d.railOff rail) rail
  generalize hd' : ((d.railOff rail).departed rail).occur evRail 0x74 rail = d' at hev
  have hstart : d'.start = (d.railOff rail).start :=
    (hev.2.1 .start (by decide)).trans (hcount.2.1 .start (by simp))
  have window (j : Nat) : d'.bitAt F.GLB_SUPPLY_in_window j = (d.railOff rail).bitAt F.GLB_SUPPLY_in_window j :=
    (hev.bitAt j 0 (by decide)).trans ((d.railOff rail).bitAt_departed_window rail j)
  have left (j : Nat) : d'.bitAt F.GLB_SUPPLY_left j = ((d.railOff rail).departed rail).bitAt F.GLB_SUPPLY_left j :=
    hev.bitAt j 0 (by decide)
  refine ⟨?_, ?_, ?_, fun j hj hne => ⟨?_, ?_⟩, ?_, fun j hj => ?_, ?_⟩
  · rw [window, Dev.bitAt_railOff_window _ _ hr, if_pos rfl]
  · rw [left, Dev.bitAt_departed_left _ _ hr, if_pos rfl]
  · rw [hev.rd 0 (by decide), Dev.rd_departed_departures, Dev.rd_railOff_departures]
  · rw [window, Dev.bitAt_railOff_window _ _ hr, if_neg hne]
  · rw [left, Dev.bitAt_departed_left _ _ hr, if_neg hne, Dev.bitAt_railOff_left]
  · rw [hstart, Dev.railOff_start]
  · rw [hstart, Dev.railOff_start]
    by_cases hjr : j = rail
    · rw [if_pos hjr, hjr, Tbl.get_set_self]
    · rw [if_neg hjr, Tbl.get_set_ne 0 0 _ _ hjr]
  · exact (((keeps_railOff d rail).append hcount).append hev).mono (by simp) (by simp)

/-- A rail that leaves its window before t0 or while RESET_N is low makes no event, and only after t0 it is counted. -/
theorem runs_railDeparture_quiet {s : State} {t rail : Nat} (hr : rail < 8)
    (h : (s.on t).start.supplied = false ∨ (s.on t).start.resetLow = true) :
    Runs (.railDeparture t rail) s fun d' =>
      d'.bitAt F.GLB_SUPPLY_in_window rail = false ∧ rail ∈ d'.start.railOut
      ∧ d'.bitAt F.GLB_SUPPLY_left rail = ((s.on t).start.supplied || (s.on t).bitAt F.GLB_SUPPLY_left rail)
      ∧ ((s.on t).start.supplied = false → rail = 2 → d'.flag F.GLB_START_brownout = false)
      ∧ ((s.on t).start.supplied = true ∨ rail ≠ 2 → d'.reg .GLB_START 0 = (s.on t).reg .GLB_START 0)
      ∧ Keeps [.start] [.GLB_SUPPLY, .GLB_START] (s.on t) d' := by
  refine Runs.of_onDev (exec_railDeparture s t rail) (decide_eq_true hr) ?_
  generalize s.on t = d at h
  have hoff := keeps_railOff d rail
  have hout : rail ∈ (d.railOff rail).start.railOut := by
    rw [Dev.railOff_start]
    exact mem_setInsert_self rail _
  have hwin : (d.railOff rail).bitAt F.GLB_SUPPLY_in_window rail = false := by
    rw [Dev.bitAt_railOff_window _ _ hr, if_pos rfl]
  cases hs : d.start.supplied with
  | true =>
    have hl : d.start.resetLow = true := by simpa [hs] using h
    simp only [hl, Bool.not_true, Bool.false_eq_true, if_false, if_true]
    have hcount := keeps_departed [] (d.railOff rail) rail
    refine ⟨?_, ?_, ?_, nofun, fun _ => ?_, (hoff.append hcount).mono (by simp) (by simp)⟩
    · rw [Dev.bitAt_departed_window, hwin]
    · rw [hcount.2.1 .start (by simp)]
      exact hout
    · rw [Dev.bitAt_departed_left _ _ hr, if_pos rfl, Bool.true_or]
    · rw [hcount.2.2 _ 0 (by decide), hoff.2.2 _ 0 (by decide)]
  | false =>
    simp only [Bool.not_false, if_true]
    have hput : Keeps [] [.GLB_START] (d.railOff rail)
        ((d.railOff rail).when (rail == 2) fun d => d.put F.GLB_START_brownout false) :=
      Keeps.when fun _ => keeps_put [] _ false 0 (by decide)
    refine ⟨?_, ?_, ?_, fun _ h2 => ?_, fun h2 => ?_, (hoff.append hput).mono (by simp) (by simp)⟩
    · rw [hput.bitAt _ 0 (by decide), hwin]
    · rw [hput.2.1 .start (by simp)]
      exact hout
    · rw [hput.bitAt _ 0 (by decide), Dev.bitAt_railOff_left, Bool.false_or]
    · rw [Dev.when, if_pos (by simpa using h2), Dev.flag, Dev.put, Dev.rd_wr_self _ _ _ _ (by decide)]
      rfl
    · have hne : rail ≠ 2 := by simpa using h2
      rw [Dev.when, if_neg (by simpa using hne), hoff.2.2 _ 0 (by decide)]

/-! ### A return -/

/-- Rail `rail` is back inside its window. -/
def Dev.railBack (d : Dev) (rail : Nat) : Dev :=
  let d := d.setBit F.GLB_SUPPLY_in_window rail true
  { d with start := { d.start with railOut := d.start.railOut.filter (· != rail) } }

theorem exec_railReturn (s : State) (t rail : Nat) : exec (.railReturn t rail) s =
    onMem (railOk rail) t s fun m d => (m, (d.railBack rail).larderServe m.larder) := rfl

theorem keeps_railBack (d : Dev) (rail : Nat) : Keeps [.start] [.GLB_SUPPLY] d (d.railBack rail) :=
  (keeps_setBit _ d rail true 0 (by decide)).trans (keeps_start _ _ _ (by simp))

theorem Dev.railBack_start (d : Dev) (rail : Nat) : (d.railBack rail).start =
    { d.start with railOut := d.start.railOut.filter (· != rail) } := rfl

theorem Dev.bitAt_railBack_window (d : Dev) {rail : Nat} (h : rail < 8) :
    (d.railBack rail).bitAt F.GLB_SUPPLY_in_window rail = true :=
  (Eq.trans rfl (d.bitAt_setBit F.GLB_SUPPLY_in_window rail rail true 0 (by decide) h)).trans (if_pos rfl)

/-- A command on the memories that leaves them as they are. -/
theorem Runs.of_onMem {c : Instr} {s : State} {P : Dev → Prop} {ok : Bool} {t : Nat} {f : Mems → Dev → Dev}
    (h : exec c s = onMem ok t s fun m d => (m, f m d)) (hok : ok = true) (hP : P (f s.mem (s.on t))) : Runs c s P :=
  ⟨f s.mem (s.on t), by rw [h, hok]; rfl, hP⟩

/-- With no command waiting no page write begins. -/
theorem Dev.larderServe_of_none {d : Dev} (m : Memory) (h : d.ldr.nextCmd = none) : d.larderServe m = d := by
  simp only [Dev.larderServe, h, ite_self]

theorem runs_railReturn_idle {s : State} {t rail : Nat} (hr : rail < 8) (h : (s.on t).ldr.nextCmd = none) :
    Runs (.railReturn t rail) s fun d' =>
      d'.reg .GLB_SUPPLY 0 = ((s.on t).setBit F.GLB_SUPPLY_in_window rail true).reg .GLB_SUPPLY 0
      ∧ d'.bitAt F.GLB_SUPPLY_in_window rail = true
      ∧ d'.start = { (s.on t).start with railOut := (s.on t).start.railOut.filter (· != rail) }
      ∧ Keeps [.start] [.GLB_SUPPLY] (s.on t) d' := by
  refine Runs.of_onMem (exec_railReturn s t rail) (decide_eq_true hr) ?_
  generalize s.on t = d at h
  rw [Dev.larderServe_of_none (d := d.railBack rail) _ h]
  exact ⟨rfl, d.bitAt_railBack_window hr, d.railBack_start rail, keeps_railBack d rail⟩

/-! ### A page write begins (R473, R475) -/

/-- The Larder unit with command `c` begun, which found the bytes `old` on its page. -/
def LarderUnit.begun (l : LarderUnit) (c : LdrCmd) (old : List Byte) : LarderUnit :=
  { l with page := some (c.addr / 256), cur := c.cls, image := c.merged old, lastCls := if c.cls = 3 then l.lastCls else c.cls }

/-- LDR_STATUS shows command `c` in service. -/
def Dev.showCmd (d : Dev) (c : LdrCmd) : Dev :=
  ((d.put F.LDR_STATUS_busy true).wr F.LDR_STATUS_page (c.addr / 256)).wr F.LDR_STATUS_class c.cls

theorem keeps_showCmd (as : List Area) (d : Dev) (c : LdrCmd) : Keeps as [.LDR_STATUS] d (d.showCmd c) :=
  ((keeps_put as d true 0 (by decide)).trans (keeps_wr as _ _ 0 (by decide))).trans (keeps_wr as _ _ 0 (by decide))

theorem Dev.showCmd_shows (d : Dev) (c : LdrCmd) : (d.showCmd c).flag F.LDR_STATUS_busy = true
    ∧ (d.showCmd c).rd F.LDR_STATUS_page = c.addr / 256 % 16384 ∧ (d.showCmd c).rd F.LDR_STATUS_class = c.cls % 4 := by
  refine ⟨?_, ?_, ?_⟩
  all_goals simp (disch := decide) only [Dev.showCmd, Dev.put, Dev.flag, Dev.rd_wr_self, Dev.rd_wr_field]
  all_goals rfl

/-- While the array rests, the rails hold and no reset lets a page finish, the command whose turn it is begins. -/
theorem Dev.larderServe_of_some {d : Dev} (m : Memory) {c : LdrCmd} (h : d.ldr.nextCmd = some c) (hp : d.ldr.page = none)
    (he : d.ldr.ending = false) (hr : d.start.railOut = []) : ∃ k, d.larderServe m =
      ({ d with free := k, ldr := d.ldr.begun c (d.ldrRead m (256 * (c.addr / 256)) 256).1 } : Dev).showCmd c := by
  obtain ⟨k, hk⟩ := d.ldrRead_snd m (256 * (c.addr / 256)) 256
  refine ⟨k, ?_⟩
  simp only [Dev.larderServe, hp, he, hr, h, Option.isSome_none, List.isEmpty_nil, Bool.not_true, Bool.or_self, Bool.false_eq_true,
    if_false]
  rw [hk]
  rfl

theorem Dev.larderServe_servesNext {d : Dev} (m : Memory) {c : LdrCmd} (h : d.ldr.nextCmd = some c) (hp : d.ldr.page = none)
    (he : d.ldr.ending = false) (hr : d.start.railOut = []) :
    ServesNext d (d.larderServe m) m d.ldr.queue ∧ Keeps [.ldr, .free] [.LDR_STATUS] d (d.larderServe m) := by
  obtain ⟨k, hserve⟩ := Dev.larderServe_of_some m h hp he hr
  generalize hb : ({ d with free := k, ldr := d.ldr.begun c (d.ldrRead m (256 * (c.addr / 256)) 256).1 } : Dev) = e at hserve
  have hshow := keeps_showCmd [] e c
  obtain ⟨hbusy, hpage, hcls⟩ := e.showCmd_shows c
  have hldr : (d.larderServe m).ldr = d.ldr.begun c (d.ldrRead m (256 * (c.addr / 256)) 256).1 := by
    rw [hserve, hshow.2.1 .ldr (by simp), ← hb]
  have hbegun : Keeps [.ldr, .free] [.LDR_STATUS] d e := by
    rw [← hb]
    exact (keeps_free _ d k (by simp)).trans (keeps_ldr _ _ _ (by simp))
  refine ⟨⟨?_, fun hn => ?_, fun c' hc => ?_⟩, ?_⟩
  · rw [hldr]
    rfl
  · rw [show ({ d.ldr with queue := d.ldr.queue } : LarderUnit) = d.ldr from rfl, h] at hn
    cases hn
  · obtain rfl : c = c' := Option.some.inj (h.symm.trans hc)
    rw [← hserve] at hbusy hpage hcls
    rw [hldr]
    refine ⟨rfl, rfl, hbusy, rfl, hpage, hcls, fun ht => ?_⟩
    rw [← Dev.ldrRead_of_whole d m _ _ ht]
    rfl
  · rw [hserve]
    exact hbegun.trans (hshow.mono (by simp) (List.Subset.refl _))

theorem runs_railReturn_waiting {s : State} {t rail : Nat} {c : LdrCmd} (hr : rail < 8) (h : (s.on t).ldr.nextCmd = some c)
    (hp : (s.on t).ldr.page = none) (he : (s.on t).ldr.ending = false) (hall : ∀ r, r ∈ (s.on t).start.railOut → r = rail) :
    Runs (.railReturn t rail) s fun d' =>
      d'.bitAt F.GLB_SUPPLY_in_window rail = true ∧ d'.start = { (s.on t).start with railOut := [] }
      ∧ ServesNext (s.on t) d' s.mem.larder (s.on t).ldr.queue
      ∧ Keeps [.start, .ldr, .free] [.GLB_SUPPLY, .LDR_STATUS] (s.on t) d' := by
  refine Runs.of_onMem (exec_railReturn s t rail) (decide_eq_true hr) ?_
  generalize s.on t = d at h hp he hall
  have hout : d.start.railOut.filter (· != rail) = [] := List.filter_eq_nil_iff.mpr fun r hm => by simpa using hall r hm
  obtain ⟨hserves, hkeeps⟩ := Dev.larderServe_servesNext (d := d.railBack rail) s.mem.larder h hp he hout
  refine ⟨?_, ?_, hserves, ((keeps_railBack d rail).append hkeeps).mono (by simp) (by simp)⟩
  · rw [hkeeps.bitAt _ 0 (by decide), d.bitAt_railBack_window hr]
  · rw [hkeeps.2.1 .start (by simp), Dev.railBack_start, hout]

end Sys2Proof.Machine
end

section
/-! SUPPORT. A plane fault, and the end of a stack's training (R296, R320). -/

namespace Sys2Proof.Machine

/-! ### What a timebase's new state may change -/

theorem keeps_refreshCoast (d : Dev) : Keeps evAreas (.CLK_STATUS :: evRegs) d d.refreshCoast := by
  refine Keeps.each _ _ (fun d m _ => Keeps.ite (fun _ => Keeps.refl _ _ _) fun _ => Keeps.ite (fun _ => ?_) fun _ => ?_) d
  · refine Keeps.ite (fun _ => Keeps.refl _ _ _) fun _ => (keeps_setBit _ (f := F.CLK_STATUS_syn_coast) d m true 0 (by decide)).trans ?_
    exact (evOnly_occur _ _ _ _ _ _ _).mono (List.Subset.refl _) (by simp)
  · exact keeps_setBit _ (f := F.CLK_STATUS_syn_coast) d m false 0 (by decide)

theorem keeps_setTbState (as : List Area) (d : Dev) (p : Plane) (v : Nat) : Keeps as [.TB_STATUS] d (d.setTbState p v) := by
  cases p <;> exact keeps_wr as d v 0 (by decide)

/-- The events and the cause of a timebase that enters state `v` from state `old`. -/
def Dev.noteTb (d : Dev) (p : Plane) (old v parent : Nat) : Dev :=
  let d := if old == 4 && v != 4 then d.endCause (evTb p) else d
  let d := if v == 4 && old != 4 then d.setCause (evTb p) 0x49 0 0 parent else d
  let d := if v == 2 && old != 2 then d.occur (evTb p) 0x4A else d
  if v == 6 && old != 6 then d.occur (evTb p) 0x4E else d

theorem evOnly_noteTb (d : Dev) (p : Plane) (old v parent : Nat) : EvOnly d (d.noteTb p old v parent) := by
  unfold Dev.noteTb
  refine Keeps.trans ?_ (Keeps.ite (fun _ => evOnly_occur _ _ _ _ _ _ _) fun _ => EvOnly.refl _)
  refine Keeps.trans ?_ (Keeps.ite (fun _ => evOnly_occur _ _ _ _ _ _ _) fun _ => EvOnly.refl _)
  refine Keeps.trans ?_ (Keeps.ite (fun _ => evOnly_setCause _ _ _ _ _ _ _) fun _ => EvOnly.refl _)
  exact Keeps.ite (fun _ => evOnly_endCause _ _) fun _ => EvOnly.refl _

theorem Dev.setTb_eq (d : Dev) (p : Plane) (v parent : Nat) :
    d.setTb p v parent = ((d.setTbState p v).noteTb p (d.tbState p) v parent).refreshCoast.refreshPins := rfl

/-- What a timebase's new state may change. -/
theorem keeps_setTb (d : Dev) (p : Plane) (v parent : Nat) :
    Keeps (.clk :: evAreas) (.TB_STATUS :: .CLK_STATUS :: evRegs) d (d.setTb p v parent) := by
  rw [Dev.setTb_eq]
  have noted := (keeps_setTbState [] d p v).append (evOnly_noteTb (d.setTbState p v) p (d.tbState p) v parent)
  have coast := noted.append (keeps_refreshCoast _)
  exact (coast.mono (by simp) (by simp)).trans (keeps_refreshPins _ _ (by simp) (by decide))

/-! ### A plane's new state -/

/-- The state field and the selector's view of it, before the event. -/
theorem evOnly_setPlane (d : Dev) (p : Plane) (v : Nat) : ∃ e : Dev, Keeps [] [.SEL_STATUS] (d.wr F.PL_STATUS_state v p.id) e
    ∧ EvOnly e (d.setPlane p v) := by
  cases p
  · exact ⟨_, keeps_put [] _ _ 0 (by decide), evOnly_occur _ _ _ _ _ _ _⟩
  · exact ⟨_, keeps_put [] _ _ 0 (by decide), evOnly_occur _ _ _ _ _ _ _⟩

theorem keeps_setPlane_wr (d : Dev) (p : Plane) (v : Nat) :
    Keeps evAreas (.SEL_STATUS :: evRegs) (d.wr F.PL_STATUS_state v p.id) (d.setPlane p v) := by
  obtain ⟨e, hsel, hev⟩ := evOnly_setPlane d p v
  exact hsel.append hev

theorem Dev.plState_setPlane (d : Dev) (p : Plane) {v : Nat} (h : v < 4) : (d.setPlane p v).plState p = v := by
  rw [Dev.plState, (keeps_setPlane_wr d p v).rd _ (by decide), Dev.rd_wr_fits _ _ _ _ (by decide) h]

theorem Dev.rd_setPlane_cause (d : Dev) (p : Plane) (v : Nat) :
    (d.setPlane p v).rd F.PL_STATUS_cause p.id = d.rd F.PL_STATUS_cause p.id := by
  rw [(keeps_setPlane_wr d p v).rd _ (by decide), Dev.rd_wr_field _ F.PL_STATUS_state F.PL_STATUS_cause _ _ rfl (by decide) (by decide)]

theorem keeps_setPlane (d : Dev) (p : Plane) (v : Nat) :
    Keeps evAreas (.PL_STATUS :: .SEL_STATUS :: evRegs) d (d.setPlane p v) :=
  (keeps_wr _ d v p.id (by simp [F.PL_STATUS_state])).trans ((keeps_setPlane_wr d p v).mono (List.Subset.refl _) (by simp))

/-! ### A plane fault (R296) -/

/-- The registers that a plane's entry to FAULTED may change. -/
def failRegs : List RegName := .PL_STATUS :: .PL_CNT :: .SEL_STATUS :: .TB_STATUS :: .CLK_STATUS :: evRegs

/-- The plane enters FAULTED, after its own part has noted the cause. -/
def Dev.fail (d : Dev) (p : Plane) (cause parent : Nat) : Dev :=
  (((((d.bump F.PL_CNT_faults p.id).countUp (3 + p.id)).setCause (evPl p) 0x50 cause parent parent).setPlane p 1).setTb p 6).unapply p

/-- What the plane's part notes at a new fault. -/
def PlaneSt.failed (x : PlaneSt) (fresh : Bool) (now cause : Nat) : PlaneSt :=
  { (x.keepOpen fresh) with faultAt := now, autoOk := autoAllowed cause }

theorem Dev.planeFault_eq (d : Dev) (p : Plane) (cause parent : Nat) : d.planeFault p cause parent =
    if d.plState p == 1 then
      (d.wr F.PL_STATUS_cause cause p.id).modPlane p fun x => { x with autoOk := x.autoOk && autoAllowed cause }
    else ((d.wr F.PL_STATUS_cause cause p.id).modPlane p fun x => x.failed (d.plState p == 0) d.now cause).fail p cause parent := rfl

theorem keeps_unapply (as : List Area) (rs : List RegName) (d : Dev) (p : Plane) (h : Area.svr ∈ as) : Keeps as rs d (d.unapply p) :=
  keeps_svr rs d _ h

theorem keeps_countUp {as : List Area} (rs : List RegName) (d : Dev) (k n : Nat) (h : Area.ldr ∈ as) : Keeps as rs d (d.countUp k n) :=
  keeps_ldr rs d _ h

/-- What comes after the plane's state leaves it. -/
theorem keeps_fail_setPlane (d : Dev) (p : Plane) (cause parent : Nat) :
    ∃ e : Dev, Keeps evAreas (.PL_CNT :: evRegs) d e ∧
      Keeps (.svr :: .clk :: evAreas) (.TB_STATUS :: .CLK_STATUS :: evRegs) (e.setPlane p 1) (d.fail p cause parent) := by
  refine ⟨((d.bump F.PL_CNT_faults p.id).countUp (3 + p.id)).setCause (evPl p) 0x50 cause parent parent, ?_, ?_⟩
  · have bumped := keeps_bump evAreas (rs := .PL_CNT :: evRegs) (f := F.PL_CNT_faults) d p.id 1 (by simp [F.PL_CNT_faults])
    exact (bumped.trans (keeps_countUp _ _ _ 1 (by decide))).trans ((evOnly_setCause _ _ _ _ _ _ _).mono (List.Subset.refl _) (by simp))
  · exact ((keeps_setTb _ p 6 0).mono (by simp) (List.Subset.refl _)).trans (keeps_unapply _ _ _ p (by simp))

theorem keeps_fail (d : Dev) (p : Plane) (cause parent : Nat) : Keeps (.svr :: .clk :: evAreas) failRegs d (d.fail p cause parent) := by
  obtain ⟨e, hbefore, hafter⟩ := keeps_fail_setPlane d p cause parent
  have hset := hbefore.append (keeps_setPlane e p 1)
  exact (hset.mono (by decide) (by decide)).trans (hafter.mono (List.Subset.refl _) (by decide))

theorem Dev.plState_fail (d : Dev) (p : Plane) (cause parent : Nat) : (d.fail p cause parent).plState p = 1 := by
  obtain ⟨e, -, hafter⟩ := keeps_fail_setPlane d p cause parent
  rw [Dev.plState, hafter.rd _ (by decide), ← Dev.plState, Dev.plState_setPlane _ _ (by decide)]

theorem Dev.rd_fail_cause (d : Dev) (p : Plane) (cause parent : Nat) :
    (d.fail p cause parent).rd F.PL_STATUS_cause p.id = d.rd F.PL_STATUS_cause p.id := by
  obtain ⟨e, hbefore, hafter⟩ := keeps_fail_setPlane d p cause parent
  rw [hafter.rd _ (by decide), Dev.rd_setPlane_cause, hbefore.rd _ (by decide)]

/-- A fault leaves the plane FAULTED with the cause shown, in whatever state it was; its training flag and every other register stay. -/
theorem Dev.planeFault_faulted (d : Dev) (p : Plane) {cause : Nat} (parent : Nat) (hc : cause < 16) :
    (d.planeFault p cause parent).plState p = 1 ∧ (d.planeFault p cause parent).rd F.PL_STATUS_cause p.id = cause
    ∧ ((d.planeFault p cause parent).plane p).training = (d.plane p).training
    ∧ Keeps (.planes :: .svr :: .clk :: evAreas) failRegs d (d.planeFault p cause parent) := by
  have hwr := keeps_wr [] (rs := [.PL_STATUS]) (f := F.PL_STATUS_cause) d cause p.id (by decide)
  have hcause : (d.wr F.PL_STATUS_cause cause p.id).rd F.PL_STATUS_cause p.id = cause := Dev.rd_wr_fits _ _ _ _ (by decide) hc
  have hplane : (d.wr F.PL_STATUS_cause cause p.id).plane p = d.plane p := rfl
  have hmod (f : PlaneSt → PlaneSt) := keeps_modPlane (as := [.planes]) [] (d.wr F.PL_STATUS_cause cause p.id) p f (by simp)
  rw [Dev.planeFault_eq]
  split
  · next h =>
    have hstate : (d.wr F.PL_STATUS_cause cause p.id).rd F.PL_STATUS_state p.id = 1 := by
      rw [Dev.rd_wr_field _ F.PL_STATUS_cause F.PL_STATUS_state _ _ rfl (by decide) (by decide)]
      exact beq_iff_eq.mp h
    refine ⟨?_, ?_, ?_, (hwr.append (hmod _)).mono (by simp) (by decide)⟩
    · rw [Dev.plState, (hmod _).rd _ (by simp), hstate]
    · rw [(hmod _).rd _ (by simp), hcause]
    · rw [Dev.plane_modPlane_self, hplane]
  · have hfailed := hmod fun x => x.failed (d.plState p == 0) d.now cause
    generalize he : (d.wr F.PL_STATUS_cause cause p.id).modPlane p (fun x => x.failed (d.plState p == 0) d.now cause) = e at hfailed
    have hfail := keeps_fail e p cause parent
    refine ⟨e.plState_fail p cause parent, ?_, ?_, ((hwr.append hfailed).append hfail).mono (by simp) (by decide)⟩
    · rw [Dev.rd_fail_cause, hfailed.rd _ (by simp), hcause]
    · rw [Dev.plane, hfail.2.1 .planes (by decide), ← Dev.plane, ← he, Dev.plane_modPlane_self, hplane]
      rfl

end Sys2Proof.Machine
end

section
/-! SUPPORT. The end of a stack's training, and what holds of resets and supplies (R320, R478, R522). -/

namespace Sys2Proof.Machine

/-! ### The end of a stack's training (R320) -/

/-- The failed pseudo-channels. -/
def quarantined (failed : Word) : List Nat := (List.range 32).filter fun q => bitOf failed.toNat q

/-- The registers that take the outcome of a stack's training. -/
def stackRegs : List RegName := [.HAM_QUAR, .HAM_STATUS, .HAM_POOL, .HAM_TOKENS]

/-- The mask, the pages `pages` and the tokens `toks` of a stack with `failed` quarantined. -/
def Dev.stackWords (d : Dev) (p : Plane) (failed : Word) (pages toks : Nat) : Dev :=
  let n := (quarantined failed).length
  let d := ((d.wr F.HAM_QUAR_pc_mask failed.toNat p.id).wr F.HAM_STATUS_pc_quar n p.id).wr F.HAM_POOL_pool pages p.id
  (d.wr F.HAM_TOKENS_pool toks p.id).wr F.HAM_TOKENS_total (stackTokens n) p.id

/-- The stack trains no more. -/
def Dev.trainingDone (d : Dev) (p : Plane) : Dev := d.modPlane p fun x => { x with training := false }

/-- A training's outcome in the registers, with an event for each of the pseudo-channels `qs`. -/
def Dev.quarantine (d : Dev) (p : Plane) (failed : Word) (pages toks : Nat) (qs : List Nat) : Dev :=
  ((d.trainingDone p).stackWords p failed pages toks).each qs fun d q => d.occur (evHam p) 0x59 q

/-- A training ends with its outcome, and with the stack in use or its plane faulted. -/
theorem Dev.trained_eq (d : Dev) (p : Plane) (failed : Word) : ∃ (pages toks : Nat) (qs : List Nat),
    d.trained p failed =
      if 4 < (quarantined failed).length then (d.quarantine p failed pages toks qs).stackFault p
      else ((d.quarantine p failed pages toks qs).put F.HAM_STATUS_trained true p.id).endCause (evHam p) :=
  ⟨_, _, _, rfl⟩

theorem keeps_trainingDone (d : Dev) (p : Plane) : Keeps [.planes] [] d (d.trainingDone p) := keeps_modPlane _ d p _ (by simp)

theorem keeps_stackWords (as : List Area) (d : Dev) (p : Plane) (failed : Word) (pages toks : Nat) :
    Keeps as stackRegs d (d.stackWords p failed pages toks) := by
  have wr (d : Dev) (f : Field) (v : Nat) (h : f.reg ∈ stackRegs) : Keeps as stackRegs d (d.wr f v p.id) := keeps_wr as d v p.id h
  exact ((((wr _ _ _ (by decide)).trans (wr _ _ _ (by decide))).trans (wr _ _ _ (by decide))).trans (wr _ _ _ (by decide))).trans
    (wr _ _ _ (by decide))

theorem Dev.stackWords_shows (d : Dev) (p : Plane) (failed : Word) (pages toks : Nat) :
    (d.stackWords p failed pages toks).rd F.HAM_QUAR_pc_mask p.id = failed.toNat
    ∧ (d.stackWords p failed pages toks).rd F.HAM_TOKENS_total p.id
        = stackTokens (quarantined failed).length % 2 ^ F.HAM_TOKENS_total.width := by
  constructor
  · simp (disch := decide) only [Dev.stackWords, Dev.rd_wr_name]
    exact Dev.rd_wr_fits _ _ _ _ (by decide) failed.isLt
  · simp (disch := decide) only [Dev.stackWords, Dev.rd_wr_self]

theorem plane_id_lt (p : Plane) : p.id < 65536 := by cases p <;> decide

theorem keepsOthers_wr (d : Dev) (f : Field) (v : Nat) {n : Nat} (hn : n < 65536) (r : RegName) : KeepsOthers r n d (d.wr f v n) := by
  intro i hi hne
  by_cases hr : r = f.reg
  · subst hr
    exact Dev.reg_setReg_inst d f.reg _ hn hi hne
  · exact Dev.reg_wr_name d f v n i hr

theorem KeepsOthers.trans {r : RegName} {n : Nat} {d e f : Dev} (h : KeepsOthers r n d e) (k : KeepsOthers r n e f) :
    KeepsOthers r n d f := fun i hi hne => (k i hi hne).trans (h i hi hne)

theorem keepsOthers_stackWords (d : Dev) (p : Plane) (failed : Word) (pages toks : Nat) (r : RegName) :
    KeepsOthers r p.id d (d.stackWords p failed pages toks) := by
  have wr (d : Dev) (f : Field) (v : Nat) : KeepsOthers r p.id d (d.wr f v p.id) := keepsOthers_wr d f v (plane_id_lt p) r
  exact ((((wr _ _ _).trans (wr _ _ _)).trans (wr _ _ _)).trans (wr _ _ _)).trans (wr _ _ _)

theorem Keeps.others {as : List Area} {rs : List RegName} {d e : Dev} (h : Keeps as rs d e) (r : RegName) (n : Nat) (hr : r ∉ rs) :
    KeepsOthers r n d e := fun i _ _ => h.2.2 r i hr

theorem evOnly_quarantine (d : Dev) (p : Plane) (failed : Word) (pages toks : Nat) (qs : List Nat) :
    EvOnly ((d.trainingDone p).stackWords p failed pages toks) (d.quarantine p failed pages toks qs) :=
  Keeps.each _ _ (fun _ _ _ => evOnly_occur _ _ _ _ _ _ _) _

theorem keeps_quarantine (d : Dev) (p : Plane) (failed : Word) (pages toks : Nat) (qs : List Nat) :
    Keeps (.planes :: evAreas) (stackRegs ++ evRegs) d (d.quarantine p failed pages toks qs) := by
  have hwords := (keeps_trainingDone d p).append (keeps_stackWords [] (d.trainingDone p) p failed pages toks)
  exact (hwords.append (evOnly_quarantine d p failed pages toks qs)).mono (by simp) (by simp)

theorem keepsOthers_quarantine (d : Dev) (p : Plane) (failed : Word) (pages toks : Nat) (qs : List Nat) {r : RegName} (hr : r ∉ evRegs) :
    KeepsOthers r p.id d (d.quarantine p failed pages toks qs) :=
  (((keeps_trainingDone d p).others r p.id (by simp)).trans (keepsOthers_stackWords _ p failed pages toks r)).trans
    ((evOnly_quarantine d p failed pages toks qs).others r p.id hr)

theorem Dev.quarantine_planes (d : Dev) (p : Plane) (failed : Word) (pages toks : Nat) (qs : List Nat) :
    (d.quarantine p failed pages toks qs).planes = (d.trainingDone p).planes :=
  ((evOnly_quarantine d p failed pages toks qs).2.1 .planes (by decide)).trans
    ((keeps_stackWords [] (d.trainingDone p) p failed pages toks).2.1 .planes (by simp))

theorem Dev.quarantine_training (d : Dev) (p : Plane) (failed : Word) (pages toks : Nat) (qs : List Nat) :
    ((d.quarantine p failed pages toks qs).plane p).training = false := by
  rw [Dev.plane, Dev.quarantine_planes, ← Dev.plane, Dev.trainingDone, Dev.plane_modPlane_self]

theorem Dev.quarantine_other (d : Dev) (p : Plane) (failed : Word) (pages toks : Nat) (qs : List Nat) :
    (d.quarantine p failed pages toks qs).plane p.other = d.plane p.other := by
  rw [Dev.plane, Dev.quarantine_planes, ← Dev.plane, Dev.trainingDone, Dev.plane_modPlane_ne _ _ (by cases p <;> decide)]

theorem Dev.quarantine_shows (d : Dev) (p : Plane) (failed : Word) (pages toks : Nat) (qs : List Nat) :
    (d.quarantine p failed pages toks qs).rd F.HAM_QUAR_pc_mask p.id = failed.toNat
    ∧ (d.quarantine p failed pages toks qs).rd F.HAM_TOKENS_total p.id
        = stackTokens (quarantined failed).length % 2 ^ F.HAM_TOKENS_total.width := by
  have hev := evOnly_quarantine d p failed pages toks qs
  obtain ⟨hmask, htotal⟩ := (d.trainingDone p).stackWords_shows p failed pages toks
  exact ⟨(hev.rd _ (by decide)).trans hmask, (hev.rd _ (by decide)).trans htotal⟩

/-- With at most four failed pseudo-channels the stack is in use. -/
theorem Dev.trained_uses (d : Dev) (p : Plane) {failed : Word} (h : (quarantined failed).length ≤ 4) :
    ((d.trained p failed).plane p).training = false ∧ (d.trained p failed).flag F.HAM_STATUS_trained p.id = true
    ∧ (d.trained p failed).rd F.HAM_QUAR_pc_mask p.id = failed.toNat
    ∧ (d.trained p failed).rd F.HAM_TOKENS_total p.id
        = (51200 - 1600 * (quarantined failed).length) % 2 ^ F.HAM_TOKENS_total.width
    ∧ (d.trained p failed).plane p.other = d.plane p.other
    ∧ KeepsOthers .HAM_STATUS p.id d (d.trained p failed) ∧ KeepsOthers .HAM_QUAR p.id d (d.trained p failed)
    ∧ Keeps (.planes :: evAreas) (.HAM_QUAR :: .HAM_STATUS :: .HAM_POOL :: .HAM_TOKENS :: evRegs) d (d.trained p failed) := by
  obtain ⟨pages, toks, qs, heq⟩ := d.trained_eq p failed
  rw [if_neg (by omega)] at heq
  obtain ⟨hmask, htotal⟩ := d.quarantine_shows p failed pages toks qs
  have htrain := d.quarantine_training p failed pages toks qs
  have hother := d.quarantine_other p failed pages toks qs
  have hkeeps := keeps_quarantine d p failed pages toks qs
  have others (r : RegName) (hr : r ∉ evRegs) := keepsOthers_quarantine d p failed pages toks qs hr
  generalize d.quarantine p failed pages toks qs = e at heq hmask htotal htrain hother hkeeps others
  have hput := keeps_put [] (rs := [.HAM_STATUS]) (f := F.HAM_STATUS_trained) e true p.id (by decide)
  have hend := evOnly_endCause (e.put F.HAM_STATUS_trained true p.id) (evHam p)
  have hplanes : (d.trained p failed).planes = e.planes := by
    rw [heq]
    exact (hend.2.1 .planes (by decide)).trans (hput.2.1 .planes (by simp))
  have hstatus : KeepsOthers .HAM_STATUS p.id e (e.put F.HAM_STATUS_trained true p.id) :=
    keepsOthers_wr e F.HAM_STATUS_trained 1 (plane_id_lt p) _
  rw [← heq] at hend
  refine ⟨?_, ?_, ?_, ?_, ?_, ?_, ?_, ?_⟩
  · rw [Dev.plane, hplanes]
    exact htrain
  · rw [hend.flag _ (by decide), Dev.flag, Dev.put, Dev.rd_wr_self _ _ _ _ (by decide)]
    rfl
  · rw [hend.rd _ (by decide), hput.rd _ (by decide), hmask]
  · rw [hend.rd _ (by decide), hput.rd _ (by decide), htotal, stackTokens]
  · rw [Dev.plane, hplanes]
    exact hother
  · exact ((others _ (by decide)).trans hstatus).trans (hend.others _ _ (by decide))
  · exact ((others _ (by decide)).trans (hput.others _ _ (by decide))).trans (hend.others _ _ (by decide))
  · exact ((hkeeps.append hput).append hend).mono (by simp) (by decide)

/-- A stack fault faults its plane with cause 5 and leaves its mask and its training flag. -/
theorem Dev.stackFault_faulted (d : Dev) (p : Plane) :
    (d.stackFault p).plState p = 1 ∧ (d.stackFault p).rd F.PL_STATUS_cause p.id = 5
    ∧ ((d.stackFault p).plane p).training = (d.plane p).training
    ∧ (d.stackFault p).rd F.HAM_QUAR_pc_mask p.id = d.rd F.HAM_QUAR_pc_mask p.id := by
  have hput := keeps_put [] (rs := [.HAM_STATUS]) (f := F.HAM_STATUS_trained) d false p.id (by decide)
  have hcause := evOnly_setCause (d.put F.HAM_STATUS_trained false p.id) (evHam p) 0x58 0 0 0 []
  unfold Dev.stackFault
  generalize he : (d.put F.HAM_STATUS_trained false p.id).setCause (evHam p) 0x58 = e at hcause
  have hmod := keeps_modPlane (as := [.planes]) [] e p (fun x => { x with stackCause := e.causeOf (evHam p) }) (by simp)
  obtain ⟨hstate, hshown, htrain, hkeeps⟩ :=
    (e.modPlane p fun x => { x with stackCause := e.causeOf (evHam p) }).planeFault_faulted p (e.causeOf (evHam p)) (cause := 5) (by decide)
  refine ⟨hstate, hshown, htrain.trans ?_, ?_⟩
  · rw [Dev.plane_modPlane_self]
    have hplanes : e.planes = d.planes := (hcause.2.1 .planes (by decide)).trans (hput.2.1 .planes (by simp))
    simp only [Dev.plane, hplanes]
  · rw [hkeeps.rd _ (by decide), hmod.rd _ (by simp), hcause.rd _ (by decide), hput.rd _ (by decide)]

/-- With more than four failed pseudo-channels the plane is faulted. -/
theorem Dev.trained_faults (d : Dev) (p : Plane) {failed : Word} (h : 4 < (quarantined failed).length) :
    ((d.trained p failed).plane p).training = false ∧ (d.trained p failed).plState p = 1
    ∧ (d.trained p failed).rd F.PL_STATUS_cause p.id = 5 ∧ (d.trained p failed).rd F.HAM_QUAR_pc_mask p.id = failed.toNat := by
  obtain ⟨pages, toks, qs, heq⟩ := d.trained_eq p failed
  rw [heq, if_pos h]
  obtain ⟨hstate, hcause, htrain, hquar⟩ := (d.quarantine p failed pages toks qs).stackFault_faulted p
  obtain ⟨hmask, -⟩ := d.quarantine_shows p failed pages toks qs
  exact ⟨htrain.trans (d.quarantine_training p failed pages toks qs), hstate, hcause, hquar.trans hmask⟩

theorem exec_stackTrainDone (s : State) (t : Nat) (p : Plane) (failed : Word) : exec (.stackTrainDone t p failed) s =
    onDev true t s fun d => if (d.plane p).training then d.landDue.trained p failed else d := rfl

theorem runs_stackTrainDone {s : State} {t : Nat} {p : Plane} {failed : Word} {post : Dev → Prop}
    (h : ((s.on t).plane p).training = true) (hpost : post ((s.on t).landDue.trained p failed)) :
    Runs (.stackTrainDone t p failed) s post :=
  Runs.of_onDev (exec_stackTrainDone s t p failed) rfl (by rw [if_pos h]; exact hpost)

theorem onlyTime_stackTrainDone {s : State} {t : Nat} {p : Plane} (failed : Word) (h : ((s.on t).plane p).training = false) :
    OnlyTime (.stackTrainDone t p failed) s t :=
  OnlyTime.of_onDev (exec_stackTrainDone s t p failed) rfl (by rw [if_neg (by simp [h])])

/-! ### The obligation -/

/-- Settles O57: a reset is `Dev.resetAll`, the same for RESET_N and for a brown-out, which tears the page under write first;
a rail's departure and return touch GLB_SUPPLY and the Larder's next page write; a stack's training ends with its outcome in the HAM
registers or with a plane fault. -/
theorem resetsAndSupplies : Obligations.ResetsAndSupplies := by
  refine ⟨?pulse, ?shortPulse, ?openPulse, ?brownOut, ?brownOutWriting, ?noBrownOut, ?departure, ?quietDeparture, ?idleReturn,
    ?waitingReturn, ?trained, ?faulted, ?notTraining⟩
  case pulse =>
    rintro s t low _ rfl h
    exact runsMem_resetAssert_long h
  case shortPulse => exact fun s t low h => onlyTime_resetAssert_short h
  case openPulse =>
    rintro s t low _ rfl hl hh
    exact runsMem_resetAssert_open hl hh
  case brownOut =>
    rintro s t rail aon stage _ rfl hs hb hp
    exact runsMem_brownOut_idle hs hb hp
  case brownOutWriting =>
    rintro s t rail pg aon stage _ _ rfl hs hb hp hn rfl
    obtain ⟨m, d', he, ⟨hout, hbefore, hduring, hprog, hdone⟩, hreset, hpage, hsup⟩ := runsMem_brownOut_writing hs hb hp hn
    exact ⟨m, d', he, hout, hbefore, hduring, hprog, hdone, hreset, hpage, hsup⟩
  case noBrownOut =>
    rintro s t aon stage _ rfl hs h
    exact onlyTime_brownOut hs (brownOutDue_eq_false h)
  case departure =>
    rintro s t rail _ rfl hr hs hl
    exact runs_railDeparture hr hs hl
  case quietDeparture =>
    rintro s t rail _ rfl hr h
    exact runs_railDeparture_quiet hr h
  case idleReturn =>
    rintro s t rail _ rfl hr h
    exact runs_railReturn_idle hr h
  case waitingReturn =>
    rintro s t rail c _ rfl hr h hp he hall
    exact runs_railReturn_waiting hr h hp he hall
  case trained =>
    rintro s t p failed _ rfl h hq
    exact runs_stackTrainDone h ((s.on t).landDue.trained_uses p hq)
  case faulted => exact fun s t p failed h hq => runs_stackTrainDone h ((s.on t).landDue.trained_faults p hq)
  case notTraining => exact fun s t p failed h => onlyTime_stackTrainDone failed h

end Sys2Proof.Machine
end

section
/-! SUPPORT. Laws of the shared updates that landing uses: ring items, journal notes, destinations, owners, and what is done to each
of the planes. -/

namespace Sys2Proof.Machine

/-! ### Elements under a frame -/

theorem Keeps.plane {as : List Area} {rs : List RegName} {d e : Dev} (h : Keeps as rs d e) (q : Plane) (ha : Area.planes ∉ as) :
    e.plane q = d.plane q := by rw [Dev.plane, h.2.1 .planes ha, Dev.plane]

theorem Keeps.out {as : List Area} {rs : List RegName} {d e : Dev} (h : Keeps as rs d e) (o : Nat) (ha : Area.outs ∉ as) :
    e.out o = d.out o := by rw [Dev.out, h.2.1 .outs ha, Dev.out]

theorem Keeps.inp {as : List Area} {rs : List RegName} {d e : Dev} (h : Keeps as rs d e) (n : Nat) (ha : Area.ins ∉ as) :
    e.inp n = d.inp n := by rw [Dev.inp, h.2.1 .ins ha, Dev.inp]

/-! ### Items of a ring -/

theorem keeps_modItem {as : List Area} (rs : List RegName) (d : Dev) (p : Port) (r idx : Nat) (f : Item → Item) (h : Area.svr ∈ as) :
    Keeps as rs d (d.modItem p r idx f) := keeps_modRing rs d p r _ h

@[simp] theorem Dev.items_modItem (d : Dev) (p : Port) (r idx : Nat) (f : Item → Item) :
    ((d.modItem p r idx f).ring p r).items = (d.ring p r).items.map fun it => if it.idx == idx then f it else it := by
  simp [Dev.modItem]

theorem otherRings_modItem (d : Dev) (p : Port) (r idx : Nat) (f : Item → Item) : OtherRings p r d (d.modItem p r idx f) :=
  fun _ hk => by simp [Dev.modItem, Dev.modRing, Tbl.get_mod_ne _ _ _ hk]

theorem OtherRings.trans {p : Port} {r : Nat} {d e f : Dev} (h : OtherRings p r d e) (k : OtherRings p r e f) : OtherRings p r d f :=
  fun j hj => (k j hj).trans (h j hj)

theorem OtherRings.of_svr {p : Port} {r : Nat} {d e : Dev} (h : e.svr = d.svr) : OtherRings p r d e := fun _ _ => by rw [h]

/-! ### Journal notes (R489) -/

/-- A journal note changes the Larder unit alone, and stands in it afterwards. -/
theorem Dev.noteJournal_eq_ldr (d : Dev) (ty key : Nat) :
    ∃ l : LarderUnit, d.noteJournal ty key = { d with ldr := l } ∧ (ty, key) ∈ l.jPend := by
  unfold Dev.noteJournal
  split
  · next h => exact ⟨d.ldr, rfl, by simpa using h⟩
  · exact ⟨_, rfl, by simp⟩

theorem Dev.mem_jPend_noteJournal (d : Dev) (ty key : Nat) : (ty, key) ∈ (d.noteJournal ty key).ldr.jPend := by
  obtain ⟨l, e, h⟩ := d.noteJournal_eq_ldr ty key
  rwa [e]

theorem keeps_noteJournal {as : List Area} (rs : List RegName) (d : Dev) (ty key : Nat) (h : Area.ldr ∈ as) :
    Keeps as rs d (d.noteJournal ty key) := by
  obtain ⟨l, e, -⟩ := d.noteJournal_eq_ldr ty key
  rw [e]
  exact keeps_ldr rs d l h

/-! ### Each of the planes -/

/-- What is done to each of some planes, each once, and touches of a figure of every plane only that of its own plane, does to each
of them what it does to one, and leaves the figure of every other plane; `I` is what it keeps on the way. -/
theorem Dev.each_planes {β : Type} {I : Dev → Prop} {g : Dev → Plane → β} {post : Plane → β → β → Prop} {f : Dev → Plane → Dev}
    (keep : ∀ d p, I d → I (f d p)) (self : ∀ d p, I d → post p (g d p) (g (f d p) p))
    (other : ∀ d p q, I d → q ≠ p → g (f d p) q = g d q) {ps : List Plane} (hps : ps.Nodup) {d : Dev} (h : I d) :
    I (d.each ps f) ∧ (∀ q ∈ ps, post q (g d q) (g (d.each ps f) q)) ∧ ∀ q ∉ ps, g (d.each ps f) q = g d q := by
  induction ps generalizing d with
  | nil => exact ⟨h, by simp, fun _ _ => rfl⟩
  | cons p ps ih =>
    obtain ⟨hp, hps⟩ := List.nodup_cons.mp hps
    obtain ⟨hI, hin, hout⟩ := ih hps (keep d p h)
    refine ⟨hI, fun q hq => ?_, fun q hq => ?_⟩
    · by_cases hqp : q = p
      · subst hqp
        exact (hout q hp).symm ▸ self d q h
      · exact other d p q h hqp ▸ hin q ((List.mem_cons.mp hq).resolve_left hqp)
    · obtain ⟨hqp, hq⟩ := not_or.mp (mt List.mem_cons.mpr hq)
      exact (hout q hq).trans (other d p q h hqp)

end Sys2Proof.Machine
end

section
/-! SUPPORT. How the one due entry of a latched salvo lands by its own command. -/

namespace Sys2Proof.Machine

/-- The planes that apply a salvo. -/
def Item.planes (it : Item) : List Plane := [Plane.a, Plane.b].filter fun q => it.applied.pl q

theorem Item.mem_planes {it : Item} {q : Plane} : q ∈ it.planes ↔ it.applied.pl q = true := by cases q <;> simp [Item.planes]

theorem Item.not_mem_planes {it : Item} {q : Plane} : q ∉ it.planes ↔ it.applied.pl q = false := by
  rw [Item.mem_planes, Bool.not_eq_true]

theorem Item.planes_nodup (it : Item) : it.planes.Nodup := List.Nodup.filter _ (by decide)

section
variable {d : Dev} {p : Port} {r op : Nat} {it : Item} {b : List Byte} (h : Lands d p r op it b)
include h

/-- No item of the ring is to be judged. -/
theorem Lands.judgeEntry_eq_none : d.judgeEntry p r op = none := by
  have hnext : d.nextToValidate p r = none := by simp [Dev.nextToValidate, h.only, h.latched]
  simp [Dev.judgeEntry, Dev.judging, hnext]

theorem Lands.landNext_eq : d.landNext p r op = d.landItem p r it.idx (fun b => descOp b == op) 1 := by
  simp [Dev.landNext, h.only, h.latched, h.entry, h.opcode, h.landed, h.due]

/-- Its switch point has come already, so `Dev.begin` changes none of it. -/
theorem Lands.landItem_eq : d.landItem p r it.idx (fun b => descOp b == op) 1 =
    ((d.begin p r it).landEntry p r it 1 b).modItem p r it.idx fun x => { x with landed := x.landed ++ [1] } := by
  have hit (y : Duo Bool) : { it with begun := true, applied := if it.begun then it.applied else y } = it := by
    have := h.begun
    cases it
    simp_all
  have hdue : ((it.numbered.filter fun e => !it.landed.contains e.1 && descOp e.2 == op && decide (d.dueAt it e.2 ≤ d.epoch)).take 1)
      = [(1, b)] := by simp [h.entry, h.opcode, h.landed, h.due]
  have hfind : (d.ring p r).items.find? (fun x => x.idx == it.idx) = some it := by simp [h.only]
  simp only [Dev.landItem, hfind, hdue, hit]
  rfl

theorem Lands.entryCmd_eq : d.entryCmd p r op =
    ((d.begin p r it).landEntry p r it 1 b).modItem p r it.idx fun x => { x with landed := x.landed ++ [1] } := by
  rw [Dev.entryCmd, h.judgeEntry_eq_none, Option.getD_none, h.landNext_eq, h.landItem_eq]

theorem Lands.items_begin : ((d.begin p r it).ring p r).items = [it] := by simp [Dev.begin, h.only, h.begun]

/-- The ring after the entry has landed, where the landing itself changes no ring. -/
theorem Lands.becomes (hsvr : ((d.begin p r it).landEntry p r it 1 b).svr = (d.begin p r it).svr) :
    Becomes p r { it with landed := [1] } d (d.entryCmd p r op) := by
  rw [h.entryCmd_eq]
  refine ⟨?_, ((otherRings_modItem d p r it.idx _).trans (.of_svr hsvr)).trans (otherRings_modItem _ p r it.idx _)⟩
  have hring : ((d.begin p r it).landEntry p r it 1 b).ring p r = (d.begin p r it).ring p r := by rw [Dev.ring, Dev.ring, hsvr]
  simp [hring, h.items_begin, h.landed]

end

/-- The entry's own command runs, the entry has landed in its ring, and the rest is what landing it does. -/
theorem Lands.runs {s : State} {t : Nat} {c : Instr} {P : Dev → Prop} {as : List Area} {rs : List RegName}
    {p : Port} {r op : Nat} {it : Item} {b : List Byte} (h : Lands (s.on t) p r op it b)
    (hc : exec c s = onDev (ringOk r) t s fun d => d.entryCmd p r op) (has : Area.svr ∉ as)
    (hkeeps : ∀ d : Dev, d = (s.on t).begin p r it → Keeps as rs d (d.landEntry p r it 1 b))
    (hP : ∀ d d' : Dev, d = (s.on t).begin p r it →
      d' = (d.landEntry p r it 1 b).modItem p r it.idx (fun x => { x with landed := x.landed ++ [1] }) →
      Becomes p r { it with landed := [1] } (s.on t) d' → Keeps (.svr :: as) rs (s.on t) d' → P d') : Runs c s P := by
  refine Runs.of_onDev hc (by simp [ringOk, h.ring]) (hP _ _ rfl h.entryCmd_eq (h.becomes ((hkeeps _ rfl).2.1 .svr has)) ?_)
  rw [h.entryCmd_eq]
  exact ((keeps_modItem rs _ p r _ _ (by simp)).trans ((hkeeps _ rfl).mono (by simp) (by simp))).trans
    (keeps_modItem rs _ p r _ _ (by simp))

end Sys2Proof.Machine
end

section
/-! SUPPORT. Takes whose landing changes no route: TAKE_FORMAT, whose effect comes with its raster change, TAKE_OVERLAY and
TAKE_AUDIO (R216, R245, R385). -/

namespace Sys2Proof.Machine

/-! ### TAKE_FORMAT and TAKE_OVERLAY -/

theorem Dev.landEntry_format (d : Dev) (p : Port) (r : Nat) (it : Item) (k : Nat) {b : List Byte} (h : descOp b = 0x12) :
    d.landEntry p r it k b = d := by simp [Dev.landEntry, h]

theorem Dev.landEntry_palette (d : Dev) (p : Port) (r : Nat) (it : Item) (k : Nat) {b : List Byte} (h : descOp b = 0x13)
    (hb : D.palOnly.on b = true) : d.landEntry p r it k b = d := by simp [Dev.landEntry, h, hb]

/-- The new overlay state on one plane. -/
def Dev.setOverlay (d : Dev) (b : List Byte) (q : Plane) : Dev := d.modOp (D.out.of b) q fun x => { x with ovl := overlayOf b }

theorem Dev.landEntry_overlay (d : Dev) (p : Port) (r : Nat) {it : Item} (k : Nat) {b : List Byte} (h : descOp b = 0x13)
    (hb : D.palOnly.on b = false) (ht : D.out.of b ∉ it.tiedOuts) (he : it.early = []) :
    d.landEntry p r it k b = d.each it.planes fun d q => d.setOverlay b q := by
  simp [Dev.landEntry, h, hb, ht, he, Item.planes, Dev.setOverlay]

theorem Dev.op_setOverlay_self (d : Dev) (b : List Byte) (q : Plane) :
    (d.setOverlay b q).op (D.out.of b) q = { d.op (D.out.of b) q with ovl := overlayOf b } := Dev.op_modOp_self d _ q _

theorem keeps_landEntry_overlay (d : Dev) (p : Port) (r : Nat) {it : Item} (k : Nat)
    {b : List Byte} (h : descOp b = 0x13) (hb : D.palOnly.on b = false) (ht : D.out.of b ∉ it.tiedOuts) (he : it.early = []) :
    Keeps [.outs] [] d (d.landEntry p r it k b) := by
  rw [d.landEntry_overlay p r k h hb ht he]
  exact Keeps.each _ _ (fun d _ _ => keeps_modOut _ d _ _ (by simp)) d

/-- An overlay's new state stands on each plane that applies the salvo, and nowhere else. -/
theorem Dev.landEntry_overlay_shows (d : Dev) (p : Port) (r : Nat) {it : Item} (k : Nat) {b : List Byte} (h : descOp b = 0x13)
    (hb : D.palOnly.on b = false) (ht : D.out.of b ∉ it.tiedOuts) (he : it.early = []) :
    (∀ q : Plane, it.applied.pl q = true →
      (d.landEntry p r it k b).op (D.out.of b) q = { d.op (D.out.of b) q with ovl := overlayOf b })
    ∧ (∀ q : Plane, it.applied.pl q = false → (d.landEntry p r it k b).op (D.out.of b) q = d.op (D.out.of b) q)
    ∧ OtherOuts (D.out.of b) d (d.landEntry p r it k b) := by
  rw [d.landEntry_overlay p r k h hb ht he]
  obtain ⟨hothers, hin, hout⟩ := Dev.each_planes (I := OtherOuts (D.out.of b) d) (g := fun d q => d.op (D.out.of b) q)
    (post := fun _ x y => y = { x with ovl := overlayOf b }) (f := fun d q => d.setOverlay b q)
    (fun e q he m hm => (Dev.out_modOut_ne e _ hm).trans (he m hm)) (fun e q _ => e.op_setOverlay_self b q)
    (fun e p q _ hq => Dev.op_modOp_plane e _ _ hq) it.planes_nodup (d := d) (fun _ _ => rfl)
  exact ⟨fun q hq => hin q (Item.mem_planes.mpr hq), fun q hq => hout q (Item.not_mem_planes.mpr hq), hothers⟩

/-! ### TAKE_AUDIO -/

@[simp] theorem Dev.dest_modDest_self (d : Dev) (p : Plane) (a : Nat) (f : Dest → Dest) :
    (d.modDest p a f).dest p a = f (d.dest p a) := by simp [Dev.dest, Dev.modDest]

theorem Dev.dest_modDest_ne (d : Dev) (p : Plane) (f : Dest → Dest) {a x : Nat} (h : x ≠ a) :
    (d.modDest p a f).dest p x = d.dest p x := by simp [Dev.dest, Dev.modDest, Tbl.get_mod_ne _ _ _ h]

/-- A contribution lands by one change of its destination, after a journal note where its entry is new. -/
theorem Dev.landContrib_eq (d : Dev) (p : Plane) (a : Nat) (c : Contrib) (n : Nat) (ksw : Int) : ∃ (e : Dev) (f : Dest → Dest),
    d.landContrib p a c n ksw = e.modDest p a f ∧ Keeps [.ldr] [] d e ∧ ∀ x, (f x).now.entry = c.entry := by
  have hnote : Keeps [.ldr] [] d (d.when ((d.dest p a).now.entry != c.entry) fun d => d.noteJournal 2 (a / 4)) :=
    Keeps.when fun _ => keeps_noteJournal _ d _ _ (by simp)
  unfold Dev.landContrib
  dsimp only
  split
  · exact ⟨_, _, rfl, hnote, fun _ => rfl⟩
  · exact ⟨_, _, rfl, hnote, fun _ => rfl⟩

theorem keeps_landContrib (d : Dev) (p : Plane) (a : Nat) (c : Contrib) (n : Nat) (ksw : Int) :
    Keeps [.planes, .ldr] [] d (d.landContrib p a c n ksw) := by
  obtain ⟨e, f, heq, hnote, -⟩ := d.landContrib_eq p a c n ksw
  rw [heq]
  exact (hnote.mono (by simp) (by simp)).trans (keeps_modPlane _ e p _ (by simp))

/-- The destination has the new entry, and no other destination of the plane is another. -/
theorem Dev.landContrib_self (d : Dev) (p : Plane) (a : Nat) (c : Contrib) (n : Nat) (ksw : Int) :
    ((d.landContrib p a c n ksw).dest p a).now.entry = c.entry
    ∧ ∀ x, x ≠ a → (d.landContrib p a c n ksw).dest p x = d.dest p x := by
  obtain ⟨e, f, heq, hnote, hentry⟩ := d.landContrib_eq p a c n ksw
  rw [heq]
  refine ⟨by rw [Dev.dest_modDest_self, hentry], fun x hx => ?_⟩
  rw [Dev.dest_modDest_ne _ p f hx, Dev.dest, hnote.plane p (by simp), Dev.dest]

theorem Dev.plane_landContrib_ne (d : Dev) {p q : Plane} (a : Nat) (c : Contrib) (n : Nat) (ksw : Int) (h : q ≠ p) :
    (d.landContrib p a c n ksw).plane q = d.plane q := by
  obtain ⟨e, f, heq, hnote, -⟩ := d.landContrib_eq p a c n ksw
  rw [heq, Dev.modDest, Dev.plane_modPlane_ne _ _ h, hnote.plane q (by simp)]

/-- Entry `e` of a TAKE_AUDIO, for destination `a`, lands on one plane at sample slot `ksw`. -/
def Dev.landAEntry (d : Dev) (paths : List (Nat × Nat × APath)) (a : Nat) (e : AEntry) (ksw : Int) (q : Plane) : Dev :=
  d.landContrib q a { entry := e, path := d.givenPath paths q a e.src, delta := d.deltaOn q a (d.givenPath paths q a e.src) } e.xfade ksw

theorem Dev.landEntry_audio (d : Dev) (p : Port) (r : Nat) {it : Item} (k : Nat) {b : List Byte} {a : Nat} {e : AEntry}
    (h : descOp b = 0x11) (hb : aEntries b = [(a, e)]) (ht : a / 16 ∉ it.tiedOuts) (he : it.early = []) : d.landEntry p r it k b =
      d.each it.planes (fun d' q => d'.landAEntry it.paths a e (d.slotAtLine (a / 16) it.frame (d.landOn (a / 16) it.line)) q) := by
  simp [Dev.landEntry, h, hb, ht, he, Item.planes, Dev.landAEntry, Dev.landAudio, Dev.each]

theorem keeps_landEntry_audio (d : Dev) (p : Port) (r : Nat) {it : Item} (k : Nat) {b : List Byte}
    {a : Nat} {e : AEntry} (h : descOp b = 0x11) (hb : aEntries b = [(a, e)]) (ht : a / 16 ∉ it.tiedOuts) (he : it.early = []) :
    Keeps [.planes, .ldr] [] d (d.landEntry p r it k b) := by
  rw [d.landEntry_audio p r k h hb ht he]
  exact Keeps.each _ _ (fun d q _ => keeps_landContrib d q a _ _ _) d

/-- A destination's new entry stands on each plane that applies the salvo, and every other destination and plane is the same. -/
theorem Dev.landEntry_audio_shows (d : Dev) (p : Port) (r : Nat) {it : Item} (k : Nat) {b : List Byte} {a : Nat} {e : AEntry}
    (h : descOp b = 0x11) (hb : aEntries b = [(a, e)]) (ht : a / 16 ∉ it.tiedOuts) (he : it.early = []) :
    (∀ q : Plane, it.applied.pl q = true →
      ((d.landEntry p r it k b).dest q a).now.entry = e ∧ ∀ x, x ≠ a → (d.landEntry p r it k b).dest q x = d.dest q x)
    ∧ ∀ q : Plane, it.applied.pl q = false → (d.landEntry p r it k b).plane q = d.plane q := by
  rw [d.landEntry_audio p r k h hb ht he]
  obtain ⟨-, hin, hout⟩ := Dev.each_planes (I := fun _ => True) (g := Dev.plane)
    (post := fun _ x y => (Tbl.get {} y.dests a).now.entry = e ∧ ∀ z, z ≠ a → Tbl.get {} y.dests z = Tbl.get {} x.dests z)
    (f := fun d' q => d'.landAEntry it.paths a e (d.slotAtLine (a / 16) it.frame (d.landOn (a / 16) it.line)) q)
    (fun _ _ _ => trivial) (fun d' q _ => d'.landContrib_self q a _ _ _) (fun d' p q _ hq => d'.plane_landContrib_ne a _ _ _ hq)
    it.planes_nodup (d := d) trivial
  exact ⟨fun q hq => hin q (Item.mem_planes.mpr hq), fun q hq => hout q (Item.not_mem_planes.mpr hq)⟩

/-! ### The commands -/

theorem runs_takeFormat {s : State} {t r : Nat} {p : Port} {it : Item} {b : List Byte} (h : Lands (s.on t) p r 0x12 it b) :
    Runs (.takeFormat t p r) s fun d' => Becomes p r { it with landed := [1] } (s.on t) d' ∧ Keeps [.svr] [] (s.on t) d' :=
  h.runs (as := []) rfl (by simp) (fun d _ => by rw [d.landEntry_format p r it 1 h.opcode]; exact Keeps.refl _ _ d)
    fun _ _ _ _ hring hkeeps => ⟨hring, hkeeps⟩

theorem runs_takeOverlay_palette {s : State} {t r : Nat} {p : Port} {it : Item} {b : List Byte} (h : Lands (s.on t) p r 0x13 it b)
    (hb : D.palOnly.on b = true) :
    Runs (.takeOverlay t p r) s fun d' => Becomes p r { it with landed := [1] } (s.on t) d' ∧ Keeps [.svr] [] (s.on t) d' :=
  h.runs (as := []) rfl (by simp) (fun d _ => by rw [d.landEntry_palette p r it 1 h.opcode hb]; exact Keeps.refl _ _ d)
    fun _ _ _ _ hring hkeeps => ⟨hring, hkeeps⟩

theorem runs_takeOverlay {s : State} {t r : Nat} {p : Port} {it : Item} {b : List Byte} (h : Lands (s.on t) p r 0x13 it b)
    (hb : D.palOnly.on b = false) (ht : D.out.of b ∉ it.tiedOuts) (he : it.early = []) :
    Runs (.takeOverlay t p r) s fun d' =>
      Becomes p r { it with landed := [1] } (s.on t) d'
      ∧ (∀ q : Plane, it.applied.pl q = true → d'.op (D.out.of b) q = { (s.on t).op (D.out.of b) q with ovl := overlayOf b })
      ∧ (∀ q : Plane, it.applied.pl q = false → d'.op (D.out.of b) q = (s.on t).op (D.out.of b) q)
      ∧ OtherOuts (D.out.of b) (s.on t) d' ∧ Keeps [.svr, .outs] [] (s.on t) d' := by
  refine h.runs (as := [.outs]) rfl (by simp) (fun d _ => keeps_landEntry_overlay d p r 1 h.opcode hb ht he) ?_
  rintro d d' rfl rfl hring hkeeps
  obtain ⟨hin, hout, hothers⟩ := ((s.on t).begin p r it).landEntry_overlay_shows p r 1 h.opcode hb ht he
  exact ⟨hring, hin, hout, hothers, hkeeps⟩

theorem runs_takeAudio {s : State} {t r a : Nat} {p : Port} {it : Item} {b : List Byte} {e : AEntry} (h : Lands (s.on t) p r 0x11 it b)
    (hb : aEntries b = [(a, e)]) (ht : a / 16 ∉ it.tiedOuts) (he : it.early = []) :
    Runs (.takeAudio t p r) s fun d' =>
      Becomes p r { it with landed := [1] } (s.on t) d'
      ∧ (∀ q : Plane, it.applied.pl q = true →
          (d'.dest q a).now.entry = e ∧ ∀ x, x ≠ a → d'.dest q x = (s.on t).dest q x)
      ∧ (∀ q : Plane, it.applied.pl q = false → d'.plane q = (s.on t).plane q) ∧ Keeps [.svr, .planes, .ldr] [] (s.on t) d' := by
  refine h.runs (as := [.planes, .ldr]) rfl (by simp)
    (fun d _ => keeps_landEntry_audio d p r 1 h.opcode hb ht he) ?_
  rintro d d' rfl rfl hring hkeeps
  obtain ⟨hin, hout⟩ := ((s.on t).begin p r it).landEntry_audio_shows p r 1 h.opcode hb ht he
  exact ⟨hring, hin, hout, hkeeps⟩

end Sys2Proof.Machine
end

section
/-! SUPPORT. Openings and closings of channels by a salvo (R301, R313, R326, R353): what they change on the plane they name, and that
the other plane keeps all but the note of what its return reopens. -/

namespace Sys2Proof.Machine

theorem keeps_startQ {as : List Area} (rs : List RegName) (d : Dev) (q : List (Nat × Plane × Nat)) (h : Area.startQ ∈ as) :
    Keeps as rs d { d with startQ := q } :=
  Keeps.of_same rfl rfl fun a ha => by
    cases a with
    | startQ => exact absurd h ha
    | order | cct => exact ⟨rfl, rfl⟩
    | _ => rfl

theorem keeps_modOwner {as : List Area} (rs : List RegName) (d : Dev) (p : Plane) (id : Nat) (f : Owner → Owner)
    (h : Area.planes ∈ as) : Keeps as rs d (d.modOwner p id f) := keeps_modPlane rs d p _ h

theorem plane_other_ne (p : Plane) : p.other ≠ p := by cases p <;> decide

theorem Dev.plane_modOwner_other (d : Dev) (p : Plane) (id : Nat) (f : Owner → Owner) :
    (d.modOwner p id f).plane p.other = d.plane p.other := Dev.plane_modPlane_ne d _ (plane_other_ne p)

theorem isSync_of_isConv {id : Nat} (h : isConv id = true) : isSync id = false := by
  simp only [isConv, beq_iff_eq] at h
  simp [isSync, h]

theorem isConv_of_isSync {id : Nat} (h : isSync id = true) : isConv id = false := by
  simp only [isSync, beq_iff_eq] at h
  simp [isConv, h]

/-! ### Engines taken up (R346, R354) -/

/-- Between `d` and `e` nothing changes but plane `p`, whose owners stay, and the queued engine starts. -/
structure EnginesOnly (p : Plane) (d e : Dev) : Prop where
  keeps : Keeps [.planes, .startQ] [] d e
  other : e.plane p.other = d.plane p.other
  owners : ∀ id, e.owner p id = d.owner p id

theorem EnginesOnly.refl (p : Plane) (d : Dev) : EnginesOnly p d d := ⟨Keeps.refl _ _ d, rfl, fun _ => rfl⟩

theorem EnginesOnly.trans {p : Plane} {d e f : Dev} (h : EnginesOnly p d e) (k : EnginesOnly p e f) : EnginesOnly p d f :=
  ⟨h.keeps.trans k.keeps, k.other.trans h.other, fun id => (k.owners id).trans (h.owners id)⟩

theorem EnginesOnly.each {α : Type} {p : Plane} {f : Dev → α → Dev} (h : ∀ d x, EnginesOnly p d (f d x)) (xs : List α) (d : Dev) :
    EnginesOnly p d (d.each xs f) := by
  induction xs generalizing d with
  | nil => exact .refl p d
  | cons x xs ih => exact (h d x).trans (ih _)

theorem enginesOnly_load (d : Dev) (p : Plane) (i id : Nat) : EnginesOnly p d (d.load p i id) where
  keeps := keeps_modPlane _ d p _ (by simp)
  other := Dev.plane_modPlane_ne d _ (plane_other_ne p)
  owners k := by simp [Dev.load, Dev.modEngine, Dev.owner]

/-- Where a channel is given engines, it is told of them, and nothing else of it changes. -/
theorem Dev.allocEngines_some {d e : Dev} {p : Plane} {id c : Nat} {asrc : Bool} (h : d.allocEngines p id c asrc = some e) :
    ∃ (x : Dev) (q : List (Nat × Plane × Nat)) (es : List Nat) (half : Option Nat) (cost : Nat), EnginesOnly p d x
      ∧ e = { x.modOwner p id (fun o => { o with engines := es, half := half, cost := cost }) with startQ := q } := by
  unfold Dev.allocEngines at h
  dsimp only at h
  have hall (is : List Nat) : EnginesOnly p d (d.each is fun d i => d.load p i id) :=
    .each (fun d i => enginesOnly_load d p i id) is d
  split at h
  · split at h
    · exact ⟨_, _, _, _, _, enginesOnly_load d p _ id, (Option.some.inj h).symm⟩
    · exact absurd h (by simp)
  · split at h
    · exact absurd h (by simp)
    · split at h
      · exact ⟨_, _, _, _, _, hall _, (Option.some.inj h).symm⟩
      · split at h
        · exact ⟨_, _, _, _, _, (hall _).trans (enginesOnly_load _ p _ id), (Option.some.inj h).symm⟩
        · exact absurd h (by simp)

/-! ### An opening -/

/-- The id of the CCT entry that an opening's channel reads. -/
def Alloc.entryId (a : Alloc) : Nat := if a.owner.pair then a.id - 96 else a.id

/-- A look into the plane's Coolbox is counted. -/
def Dev.countLook (d : Dev) (p : Plane) (id : Nat) : Dev :=
  if (d.plane p).coolbox.contains id then d.bump F.HAM_CB_CNT_hits p.id else d.bump F.HAM_CB_CNT_misses p.id

/-- An entry is looked up in the plane's Coolbox, and is the most recently used one (R313). -/
def Dev.lookUp (d : Dev) (p : Plane) (id : Nat) : Dev := (d.countLook p id).touchPlane p id

/-- A channel opens at its salvo's switch point. -/
def Dev.openAtPoint (d : Dev) (it : Item) (a : Alloc) : Dev :=
  ((d.lookUp a.plane a.entryId).openOwner a).modOwner a.plane a.id fun o => { o with openAt := it.point }

/-- The outputs that scan a channel which its salvo also closed are realigned (R237). -/
def Dev.realignScanners (d : Dev) (it : Item) (a : Alloc) : Dev :=
  if it.closes.any fun c => c.plane == a.plane && c.id == a.id then
    d.each (d.scanners a.plane a.id) fun d o => d.modOp o a.plane fun x => { x with realign := some it.frame }
  else d

theorem Dev.landOpening_eq (d : Dev) (it : Item) (a : Alloc) : d.landOpening it a =
    let e := (d.openAtPoint it a).realignScanners it a
    if isSync a.id then (e.modIn a.id fun x => { x with cct := (a.owner.cct.drop 4).take 8 }).noteJournal 3 a.id
    else if isConv a.id then e.noteJournal 4 a.entryId else e := rfl

theorem Dev.realignScanners_of_closes_nil (d : Dev) {it : Item} (a : Alloc) (h : it.closes = []) : d.realignScanners it a = d := by
  simp [Dev.realignScanners, h]

theorem Dev.landOpening_conv (d : Dev) {it : Item} {a : Alloc} (ha : isConv a.id = true) (hc : it.closes = []) :
    d.landOpening it a = (d.openAtPoint it a).noteJournal 4 a.entryId := by
  simp [Dev.landOpening_eq, Dev.realignScanners_of_closes_nil, hc, isSync_of_isConv ha, ha]

theorem Dev.landOpening_sync (d : Dev) {it : Item} {a : Alloc} (ha : isSync a.id = true) (hc : it.closes = []) :
    d.landOpening it a =
      ((d.openAtPoint it a).modIn a.id fun x => { x with cct := (a.owner.cct.drop 4).take 8 }).noteJournal 3 a.id := by
  simp [Dev.landOpening_eq, Dev.realignScanners_of_closes_nil, hc, ha]

theorem Dev.countLook_eq_wr (d : Dev) (p : Plane) (id : Nat) :
    ∃ (f : Field) (v : Nat), f.reg = .HAM_CB_CNT ∧ d.countLook p id = d.wr f v p.id := by
  unfold Dev.countLook
  split
  · exact ⟨F.HAM_CB_CNT_hits, _, rfl, rfl⟩
  · exact ⟨F.HAM_CB_CNT_misses, _, rfl, rfl⟩

theorem keeps_lookUp (d : Dev) (p : Plane) (id : Nat) : Keeps [.planes] [.HAM_CB_CNT] d (d.lookUp p id) := by
  obtain ⟨f, v, hf, e⟩ := d.countLook_eq_wr p id
  rw [Dev.lookUp, e]
  exact (keeps_wr _ d v p.id (by simp [hf])).trans (keeps_modPlane _ _ p _ (by simp))

theorem keepsOthers_lookUp (d : Dev) (p : Plane) (id : Nat) : KeepsOthers .HAM_CB_CNT p.id d (d.lookUp p id) := by
  obtain ⟨f, v, -, e⟩ := d.countLook_eq_wr p id
  rw [Dev.lookUp, e]
  exact (keepsOthers_wr d f v (plane_id_lt p) _).trans
    ((keeps_modPlane (as := [.planes]) [] _ p _ (by simp)).others _ _ (by simp))

theorem Dev.plane_lookUp_other (d : Dev) (p : Plane) (id : Nat) : (d.lookUp p id).plane p.other = d.plane p.other := by
  obtain ⟨f, v, -, e⟩ := d.countLook_eq_wr p id
  rw [Dev.lookUp, e, Dev.touchPlane, Dev.plane_modPlane_ne _ _ (plane_other_ne p), Dev.plane, Dev.wr_planes, Dev.plane]

@[simp] theorem Dev.owner_lookUp (d : Dev) (p : Plane) (id k : Nat) : (d.lookUp p id).owner p k = d.owner p k := by
  obtain ⟨f, v, -, e⟩ := d.countLook_eq_wr p id
  rw [Dev.lookUp, e, Dev.touchPlane, Dev.owner, Dev.plane_modPlane_self, Dev.plane, Dev.wr_planes, Dev.owner, Dev.plane]

/-- A frame-sync channel opens as its allocation describes it. -/
theorem Dev.openOwner_sync (d : Dev) {a : Alloc} (ha : isSync a.id = true) (hc : (d.owner a.plane a.id).closing = false) :
    d.openOwner a = d.modOwner a.plane a.id fun _ =>
      { a.owner with isOpen := true, startDue := false, openAt := d.epoch, hold := 0, opened := a.owner.cct
                     pub := BitVec.ofNat 32 (1 + 2 * a.owner.depth) } := by
  simp [Dev.openOwner, Dev.when, hc, ha, isConv_of_isSync ha]

/-- A conversion channel opens as its allocation describes it, with the engines it is given or waiting for them. -/
theorem Dev.openOwner_conv (d : Dev) {a : Alloc} (ha : isConv a.id = true) (hc : (d.owner a.plane a.id).closing = false) :
    Keeps [.planes, .startQ] [] d (d.openOwner a) ∧ (d.openOwner a).plane a.plane.other = d.plane a.plane.other
    ∧ ((d.openOwner a).owner a.plane a.id).isOpen = true ∧ ((d.openOwner a).owner a.plane a.id).src = a.owner.src
    ∧ ((d.openOwner a).owner a.plane a.id).profile = a.owner.profile := by
  simp only [Dev.openOwner, Dev.when, hc, ha, if_true, Bool.false_eq_true, if_false]
  generalize hx : d.modOwner a.plane a.id _ = x
  have hkeeps : Keeps [.planes, .startQ] [] d x := hx ▸ keeps_modOwner _ d _ _ _ (by simp)
  have hother : x.plane a.plane.other = d.plane a.plane.other := hx ▸ d.plane_modOwner_other a.plane a.id _
  have hself : (x.owner a.plane a.id).isOpen = true ∧ (x.owner a.plane a.id).src = a.owner.src
      ∧ (x.owner a.plane a.id).profile = a.owner.profile := by
    subst hx
    simp
  cases he : x.allocEngines a.plane a.id a.owner.cost (baseOf a.owner.profile == pxAsrc) with
  | none =>
    refine ⟨hkeeps.trans (keeps_modOwner _ x _ _ _ (by simp)), (x.plane_modOwner_other _ _ _).trans hother, ?_⟩
    simpa using hself
  | some e =>
    obtain ⟨y, q, es, half, cost, hy, rfl⟩ := Dev.allocEngines_some he
    refine ⟨((hkeeps.trans hy.keeps).trans (keeps_modOwner _ y _ _ _ (by simp))).trans (keeps_startQ _ _ q (by simp)),
      (y.plane_modOwner_other _ _ _).trans (hy.other.trans hother), ?_⟩
    change ((y.modOwner a.plane a.id _).owner a.plane a.id).isOpen = true ∧ ((y.modOwner a.plane a.id _).owner a.plane a.id).src = _
      ∧ ((y.modOwner a.plane a.id _).owner a.plane a.id).profile = _
    simpa [hy.owners] using hself

/-! ### What a plane's return reopens (R301) -/

/-- Between `d` and `e` nothing changes but what plane `q`'s return reopens. -/
def OnlyWas (q : Plane) (d e : Dev) : Prop := ∃ t : Tbl Owner, e = d.modPlane q fun x => { x with was := t }

theorem OnlyWas.refl (q : Plane) (d : Dev) : OnlyWas q d d := ⟨(d.plane q).was, by cases q <;> rfl⟩

theorem OnlyWas.trans {q : Plane} {d e f : Dev} (h : OnlyWas q d e) (k : OnlyWas q e f) : OnlyWas q d f := by
  obtain ⟨t, rfl⟩ := h
  obtain ⟨u, rfl⟩ := k
  exact ⟨u, by cases q <;> rfl⟩

theorem OnlyWas.ite {q : Plane} {d e f : Dev} {c : Prop} [Decidable c] (h : OnlyWas q d e) (k : OnlyWas q d f) :
    OnlyWas q d (if c then e else f) := by
  split
  · exact h
  · exact k

theorem OnlyWas.keeps {as : List Area} (rs : List RegName) {q : Plane} {d e : Dev} (h : OnlyWas q d e) (ha : Area.planes ∈ as) :
    Keeps as rs d e := by
  obtain ⟨t, rfl⟩ := h
  exact keeps_modPlane rs d q _ ha

theorem onlyWas_set (q : Plane) (d : Dev) (id : Nat) (o : Owner) :
    OnlyWas q d (d.modPlane q fun x => { x with was := Tbl.set {} x.was id o }) :=
  ⟨Tbl.set {} (d.plane q).was id o, by cases q <;> rfl⟩

theorem onlyWas_noteAbsent (d : Dev) (q : Plane) (b : List Byte) : OnlyWas q d (d.noteAbsent q b) := by
  have hclosings (cs : List (Plane × Nat)) : ∀ d : Dev, OnlyWas q d
      (cs.foldl (fun d c => d.modPlane q fun x => { x with was := Tbl.set {} x.was c.2 {} }) d) := by
    induction cs with
    | nil => exact .refl q
    | cons c cs ih => exact fun d => (onlyWas_set q d c.2 {}).trans (ih _)
  unfold Dev.noteAbsent
  dsimp only
  refine .ite (.refl q d) ?_
  split
  · exact .ite (.refl q d) (.ite (onlyWas_set q d _ _) (onlyWas_set q d _ _))
  · exact .ite (onlyWas_set q d _ _) (.refl q d)
  · exact hclosings _ d
  · exact .refl q d

/-- What the return of either plane reopens is noted. -/
def Dev.noteReturns (d : Dev) (b : List Byte) : Dev := (d.noteAbsent .a b).noteAbsent .b b

theorem keeps_noteReturns {as : List Area} (rs : List RegName) (d : Dev) (b : List Byte) (h : Area.planes ∈ as) :
    Keeps as rs d (d.noteReturns b) :=
  ((onlyWas_noteAbsent d .a b).keeps rs h).trans ((onlyWas_noteAbsent _ .b b).keeps rs h)

theorem Dev.noteReturns_eq (d : Dev) (b : List Byte) : ∃ ta tb : Tbl Owner, d.noteReturns b =
    { d with planes := ⟨{ d.planes.a with was := ta }, { d.planes.b with was := tb }⟩ } := by
  obtain ⟨ta, ha⟩ := onlyWas_noteAbsent d .a b
  obtain ⟨tb, hb⟩ := onlyWas_noteAbsent (d.noteAbsent .a b) .b b
  exact ⟨ta, tb, by rw [Dev.noteReturns, hb, ha]; rfl⟩

theorem Dev.plane_noteReturns (d : Dev) (b : List Byte) (q : Plane) :
    (d.noteReturns b).plane q = { d.plane q with was := ((d.noteReturns b).plane q).was } := by
  obtain ⟨ta, tb, e⟩ := d.noteReturns_eq b
  rw [e]
  cases q <;> rfl

@[simp] theorem Dev.owner_noteReturns (d : Dev) (b : List Byte) (q : Plane) (id : Nat) :
    (d.noteReturns b).owner q id = d.owner q id := by rw [Dev.owner, Dev.plane_noteReturns, Dev.owner]

theorem Dev.noteReturns_other {d e : Dev} {p : Plane} (b : List Byte) (h : e.plane p = d.plane p) :
    (e.noteReturns b).plane p = { d.plane p with was := ((e.noteReturns b).plane p).was } := h ▸ e.plane_noteReturns b p

end Sys2Proof.Machine
end

section
/-! SUPPORT. CONV_OPEN, SYNC_OPEN and CONV_CLOSE land (R301, R313, R326, R353). -/

namespace Sys2Proof.Machine

/-! ### An opening at its switch point -/

section
variable (d : Dev) (it : Item) (a : Alloc)

theorem Dev.openAtPoint_of_openOwner {as : List Area} (hp : Area.planes ∈ as)
    (hkeeps : ∀ x : Dev, Keeps [.planes] [.HAM_CB_CNT] d x → (x.owner a.plane a.id) = d.owner a.plane a.id →
      Keeps as [] x (x.openOwner a) ∧ (x.openOwner a).plane a.plane.other = x.plane a.plane.other) :
    Keeps as [.HAM_CB_CNT] d (d.openAtPoint it a) ∧ KeepsOthers .HAM_CB_CNT a.plane.id d (d.openAtPoint it a)
    ∧ (d.openAtPoint it a).plane a.plane.other = d.plane a.plane.other := by
  obtain ⟨hopen, hother⟩ := hkeeps _ (keeps_lookUp d a.plane a.entryId) (Dev.owner_lookUp ..)
  have hset := hopen.trans (keeps_modOwner [] _ a.plane a.id (fun o => { o with openAt := it.point }) hp)
  refine ⟨((keeps_lookUp d a.plane a.entryId).mono (by simpa using hp) (by simp)).trans (hset.mono (by simp) (by simp)),
    (keepsOthers_lookUp d a.plane a.entryId).trans (hset.others _ _ (by simp)), ?_⟩
  rw [Dev.openAtPoint, Dev.plane_modOwner_other, hother, Dev.plane_lookUp_other]

end

/-- A conversion channel is open from its salvo's switch point on. -/
theorem Dev.openAtPoint_conv (d : Dev) (it : Item) {a : Alloc} (ha : isConv a.id = true) (hc : (d.owner a.plane a.id).closing = false) :
    ((d.openAtPoint it a).owner a.plane a.id).isOpen = true ∧ ((d.openAtPoint it a).owner a.plane a.id).openAt = it.point
    ∧ ((d.openAtPoint it a).owner a.plane a.id).src = a.owner.src
    ∧ ((d.openAtPoint it a).owner a.plane a.id).profile = a.owner.profile := by
  obtain ⟨-, -, hopen, hsrc, hprofile⟩ := (d.lookUp a.plane a.entryId).openOwner_conv ha (by simpa using hc)
  simp [Dev.openAtPoint, hopen, hsrc, hprofile]

/-- A frame-sync channel is open from its salvo's switch point on, as its allocation describes it. -/
theorem Dev.openAtPoint_sync (d : Dev) (it : Item) {a : Alloc} (ha : isSync a.id = true) (hc : (d.owner a.plane a.id).closing = false) :
    (d.openAtPoint it a).owner a.plane a.id = { a.owner with
      isOpen := true, openAt := it.point, opened := a.owner.cct, startDue := false, hold := 0
      pub := BitVec.ofNat 32 (1 + 2 * a.owner.depth) }
    ∧ ∀ k, k ≠ a.id → (d.openAtPoint it a).owner a.plane k = d.owner a.plane k := by
  rw [Dev.openAtPoint, (d.lookUp a.plane a.entryId).openOwner_sync ha (by simpa using hc)]
  refine ⟨by rw [Dev.owner_modOwner_self, Dev.owner_modOwner_self], fun k hk => ?_⟩
  rw [Dev.owner_modOwner_ne _ _ _ hk, Dev.owner_modOwner_ne _ _ _ hk, Dev.owner_lookUp]

theorem Dev.openAtPoint_conv_leaves (d : Dev) (it : Item) {a : Alloc} (ha : isConv a.id = true)
    (hc : (d.owner a.plane a.id).closing = false) :
    Keeps [.planes, .startQ] [.HAM_CB_CNT] d (d.openAtPoint it a) ∧ KeepsOthers .HAM_CB_CNT a.plane.id d (d.openAtPoint it a)
    ∧ (d.openAtPoint it a).plane a.plane.other = d.plane a.plane.other := by
  refine d.openAtPoint_of_openOwner it a (by simp) fun x _ ho => ?_
  obtain ⟨hkeeps, hother, -⟩ := x.openOwner_conv ha (ho ▸ hc)
  exact ⟨hkeeps, hother⟩

theorem Dev.openAtPoint_sync_leaves (d : Dev) (it : Item) {a : Alloc} (ha : isSync a.id = true)
    (hc : (d.owner a.plane a.id).closing = false) :
    Keeps [.planes] [.HAM_CB_CNT] d (d.openAtPoint it a) ∧ KeepsOthers .HAM_CB_CNT a.plane.id d (d.openAtPoint it a)
    ∧ (d.openAtPoint it a).plane a.plane.other = d.plane a.plane.other := by
  refine d.openAtPoint_of_openOwner it a (by simp) fun x _ ho => ?_
  rw [x.openOwner_sync ha (ho ▸ hc)]
  exact ⟨keeps_modOwner _ x _ _ _ (by simp), x.plane_modOwner_other _ _ _⟩

/-! ### CONV_OPEN and SYNC_OPEN -/

theorem Dev.landEntry_opening (d : Dev) (p : Port) (r : Nat) {it : Item} {b : List Byte} {a : Alloc}
    (h : descOp b = 0x14 ∨ descOp b = 0x16) (ha : it.allocs = [a]) (happ : it.applied.pl a.plane = true) :
    d.landEntry p r it a.entry b = (d.landOpening it a).noteReturns b := by
  have hplanes : a.plane ∈ it.planes := Item.mem_planes.mpr happ
  have hmine : (it.allocs.filter fun x => x.entry == a.entry && it.planes.contains x.plane) = [a] := by simp [ha, hplanes]
  simp only [Item.planes] at hmine
  rcases h with h | h
  · simp only [Dev.landEntry, h, hmine]
    rfl
  · simp only [Dev.landEntry, h, hmine]
    rfl

theorem Dev.landEntry_convOpen (d : Dev) (p : Port) (r : Nat) {it : Item} {b : List Byte} {a : Alloc}
    (h : descOp b = 0x14) (hid : isConv a.id = true) (ha : it.allocs = [a]) (hc : it.closes = []) (happ : it.applied.pl a.plane = true) :
    d.landEntry p r it a.entry b = ((d.openAtPoint it a).noteJournal 4 a.entryId).noteReturns b := by
  rw [d.landEntry_opening p r (.inl h) ha happ, d.landOpening_conv hid hc]

theorem Dev.landEntry_syncOpen (d : Dev) (p : Port) (r : Nat) {it : Item} {b : List Byte} {a : Alloc}
    (h : descOp b = 0x16) (hid : isSync a.id = true) (ha : it.allocs = [a]) (hc : it.closes = []) (happ : it.applied.pl a.plane = true) :
    d.landEntry p r it a.entry b =
      (((d.openAtPoint it a).modIn a.id fun x => { x with cct := (a.owner.cct.drop 4).take 8 }).noteJournal 3 a.id).noteReturns b := by
  rw [d.landEntry_opening p r (.inr h) ha happ, d.landOpening_sync hid hc]

theorem keeps_landEntry_convOpen (d : Dev) (p : Port) (r : Nat) {it : Item} {b : List Byte} {a : Alloc}
    (h : descOp b = 0x14) (hid : isConv a.id = true) (ha : it.allocs = [a]) (hc : it.closes = []) (happ : it.applied.pl a.plane = true)
    (ho : (d.owner a.plane a.id).closing = false) :
    Keeps [.planes, .startQ, .ldr] [.HAM_CB_CNT] d (d.landEntry p r it a.entry b) := by
  rw [d.landEntry_convOpen p r h hid ha hc happ]
  exact (((d.openAtPoint_conv_leaves it hid ho).1.mono (by simp) (by simp)).trans (keeps_noteJournal _ _ _ _ (by simp))).trans
    (keeps_noteReturns _ _ b (by simp))

theorem Dev.landEntry_convOpen_shows (d : Dev) (p : Port) (r : Nat) {it : Item} {b : List Byte} {a : Alloc}
    (h : descOp b = 0x14) (hid : isConv a.id = true) (ha : it.allocs = [a]) (hc : it.closes = []) (happ : it.applied.pl a.plane = true)
    (ho : (d.owner a.plane a.id).closing = false) :
    let e := d.landEntry p r it a.entry b
    ((e.owner a.plane a.id).isOpen = true ∧ (e.owner a.plane a.id).openAt = it.point ∧ (e.owner a.plane a.id).src = a.owner.src
      ∧ (e.owner a.plane a.id).profile = a.owner.profile)
    ∧ e.plane a.plane.other = { d.plane a.plane.other with was := (e.plane a.plane.other).was }
    ∧ KeepsOthers .HAM_CB_CNT a.plane.id d e := by
  intro e
  have he : e = ((d.openAtPoint it a).noteJournal 4 a.entryId).noteReturns b := d.landEntry_convOpen p r h hid ha hc happ
  obtain ⟨-, hcount, hother⟩ := d.openAtPoint_conv_leaves it hid ho
  have hnote : Keeps [.ldr] [] (d.openAtPoint it a) ((d.openAtPoint it a).noteJournal 4 a.entryId) :=
    keeps_noteJournal _ _ _ _ (by simp)
  have howner : e.owner a.plane a.id = (d.openAtPoint it a).owner a.plane a.id := by
    rw [he, Dev.owner_noteReturns, Dev.owner, hnote.plane _ (by simp), Dev.owner]
  refine ⟨howner ▸ d.openAtPoint_conv it hid ho, ?_, ?_⟩
  · rw [he]
    exact Dev.noteReturns_other b ((hnote.plane _ (by simp)).trans hother)
  · rw [he]
    exact (hcount.trans (hnote.others _ _ (by simp))).trans
      ((keeps_noteReturns (as := [.planes]) [] _ b (by simp)).others _ _ (by simp))

theorem keeps_landEntry_syncOpen (d : Dev) (p : Port) (r : Nat) {it : Item} {b : List Byte} {a : Alloc}
    (h : descOp b = 0x16) (hid : isSync a.id = true) (ha : it.allocs = [a]) (hc : it.closes = []) (happ : it.applied.pl a.plane = true)
    (ho : (d.owner a.plane a.id).closing = false) :
    Keeps [.planes, .ins, .ldr] [.HAM_CB_CNT] d (d.landEntry p r it a.entry b) := by
  rw [d.landEntry_syncOpen p r h hid ha hc happ]
  exact ((((d.openAtPoint_sync_leaves it hid ho).1.mono (by simp) (by simp)).trans (keeps_modIn _ _ _ _ (by simp))).trans
    (keeps_noteJournal _ _ _ _ (by simp))).trans (keeps_noteReturns _ _ b (by simp))

theorem Dev.landEntry_syncOpen_shows (d : Dev) (p : Port) (r : Nat) {it : Item} {b : List Byte} {a : Alloc}
    (h : descOp b = 0x16) (hid : isSync a.id = true) (ha : it.allocs = [a]) (hc : it.closes = []) (happ : it.applied.pl a.plane = true)
    (ho : (d.owner a.plane a.id).closing = false) :
    let e := d.landEntry p r it a.entry b
    (e.owner a.plane a.id = { a.owner with
        isOpen := true, openAt := it.point, opened := a.owner.cct, startDue := false, hold := 0
        pub := BitVec.ofNat 32 (1 + 2 * a.owner.depth) }
      ∧ ∀ k, k ≠ a.id → e.owner a.plane k = d.owner a.plane k)
    ∧ e.plane a.plane.other = { d.plane a.plane.other with was := (e.plane a.plane.other).was }
    ∧ ((e.inp a.id).cct = (a.owner.cct.drop 4).take 8 ∧ (3, a.id) ∈ e.ldr.jPend ∧ ∀ k, k ≠ a.id → e.inp k = d.inp k)
    ∧ KeepsOthers .HAM_CB_CNT a.plane.id d e := by
  intro e
  obtain ⟨hopen, hcount, hother⟩ := d.openAtPoint_sync_leaves it hid ho
  obtain ⟨hself, hothers⟩ := d.openAtPoint_sync it hid ho
  have he : e = _ := d.landEntry_syncOpen p r h hid ha hc happ
  have hentry : Keeps [.ins] [] _ ((d.openAtPoint it a).modIn a.id fun x => { x with cct := (a.owner.cct.drop 4).take 8 }) :=
    keeps_modIn _ _ _ _ (by simp)
  have hinself := (d.openAtPoint it a).inp_modIn_self a.id fun x => { x with cct := (a.owner.cct.drop 4).take 8 }
  have hinne (k : Nat) (hk : k ≠ a.id) :=
    (d.openAtPoint it a).inp_modIn_ne (fun x => { x with cct := (a.owner.cct.drop 4).take 8 }) hk
  generalize (d.openAtPoint it a).modIn a.id _ = x at he hentry hinself hinne
  have hnote : Keeps [.ldr] [] x (x.noteJournal 3 a.id) := keeps_noteJournal _ _ _ _ (by simp)
  have hreturns : Keeps [.planes] [] (x.noteJournal 3 a.id) e := he ▸ keeps_noteReturns _ _ b (by simp)
  have hplane (q : Plane) : (x.noteJournal 3 a.id).plane q = (d.openAtPoint it a).plane q :=
    (hnote.plane q (by simp)).trans (hentry.plane q (by simp))
  have howner (k : Nat) : e.owner a.plane k = (d.openAtPoint it a).owner a.plane k := by
    rw [he, Dev.owner_noteReturns, Dev.owner, hplane, Dev.owner]
  have hinp (k : Nat) : e.inp k = x.inp k := (hreturns.inp k (by simp)).trans (hnote.inp k (by simp))
  refine ⟨⟨(howner _).trans hself, fun k hk => (howner k).trans (hothers k hk)⟩, ?_, ⟨?_, ?_, fun k hk => ?_⟩, ?_⟩
  · rw [he]
    exact Dev.noteReturns_other b ((hplane _).trans hother)
  · rw [hinp, hinself]
  · rw [hreturns.2.1 .ldr (by simp)]
    exact x.mem_jPend_noteJournal 3 a.id
  · rw [hinp, hinne k hk, hopen.inp k (by simp)]
  · exact ((hcount.trans (hentry.others _ _ (by simp))).trans (hnote.others _ _ (by simp))).trans (hreturns.others _ _ (by simp))

/-! ### CONV_CLOSE -/

/-- A channel closes, its resources to return at the end of the salvo's switch line (R326). -/
def Dev.closeAtPoint (d : Dev) (it : Item) (c : Alloc) : Dev :=
  d.modOwner c.plane c.id fun o =>
    { o with isOpen := false, closing := true, closeAt := it.point + lineU (d.clsRate it.cls) (d.clsL it.cls)
             credit := c.fromCredit, ctx := o.ctx && c.ctxCredit == 0 }

/-- A closing whose salvo reopens nothing closes its channel, and the rest is a journal note. -/
theorem Dev.landClosing_notes (d : Dev) {it : Item} (c : Alloc) (ha : it.allocs = []) :
    Keeps [.ldr] [] (d.closeAtPoint it c) (d.landClosing it c) := by
  simp only [Dev.landClosing, ha, List.any_nil, Bool.false_eq_true, if_false]
  exact Keeps.ite (fun _ => keeps_noteJournal _ _ _ _ (by simp)) fun _ =>
    Keeps.ite (fun _ => keeps_noteJournal _ _ _ _ (by simp)) fun _ => Keeps.refl _ _ _

theorem Dev.landEntry_closing (d : Dev) (p : Port) (r : Nat) {it : Item} {b : List Byte} {c : Alloc}
    (h : descOp b = 0x15) (hc : it.closes = [c]) (happ : it.applied.pl c.plane = true) :
    d.landEntry p r it c.entry b = (d.landClosing it c).noteReturns b := by
  have hplanes : c.plane ∈ it.planes := Item.mem_planes.mpr happ
  have hmine : (it.closes.filter fun x => x.entry == c.entry && it.planes.contains x.plane) = [c] := by simp [hc, hplanes]
  unfold Dev.landEntry
  rw [h]
  dsimp only
  rw [← Item.planes, hmine]
  rfl

theorem keeps_landEntry_convClose (d : Dev) (p : Port) (r : Nat) {it : Item} {b : List Byte} {c : Alloc}
    (h : descOp b = 0x15) (hc : it.closes = [c]) (ha : it.allocs = []) (happ : it.applied.pl c.plane = true) :
    Keeps [.planes, .ldr] [] d (d.landEntry p r it c.entry b) := by
  rw [d.landEntry_closing p r h hc happ]
  exact ((keeps_modOwner _ d _ _ _ (by simp)).trans ((d.landClosing_notes c ha).mono (by simp) (by simp))).trans
    (keeps_noteReturns _ _ b (by simp))

theorem Dev.landEntry_convClose_shows (d : Dev) (p : Port) (r : Nat) {it : Item} {b : List Byte} {c : Alloc}
    (h : descOp b = 0x15) (hc : it.closes = [c]) (ha : it.allocs = []) (happ : it.applied.pl c.plane = true) :
    let e := d.landEntry p r it c.entry b
    ((e.owner c.plane c.id).isOpen = false ∧ (e.owner c.plane c.id).closing = true
      ∧ (e.owner c.plane c.id).closeAt = it.point + lineU (d.clsRate it.cls) (d.clsL it.cls)
      ∧ ∀ k, k ≠ c.id → e.owner c.plane k = d.owner c.plane k)
    ∧ e.plane c.plane.other = { d.plane c.plane.other with was := (e.plane c.plane.other).was } := by
  intro e
  have he : e = (d.landClosing it c).noteReturns b := d.landEntry_closing p r h hc happ
  have hplane (q : Plane) : (d.landClosing it c).plane q = (d.closeAtPoint it c).plane q := (d.landClosing_notes c ha).plane q (by simp)
  have howner (k : Nat) : e.owner c.plane k = (d.closeAtPoint it c).owner c.plane k := by
    rw [he, Dev.owner_noteReturns, Dev.owner, hplane, Dev.owner]
  refine ⟨?_, ?_⟩
  · simp only [howner, Dev.closeAtPoint, Dev.owner_modOwner_self, true_and]
    exact fun k hk => Dev.owner_modOwner_ne d c.plane _ hk
  · rw [he]
    exact Dev.noteReturns_other b ((hplane _).trans (d.plane_modOwner_other _ _ _))

/-! ### The commands -/

theorem runs_convOpen {s : State} {t r : Nat} {p : Port} {it : Item} {b : List Byte} {a : Alloc} (h : Lands (s.on t) p r 0x14 it b)
    (hid : isConv a.id = true) (ha : it.allocs = [a]) (hc : it.closes = []) (he : a.entry = 1) (happ : it.applied.pl a.plane = true)
    (ho : ((s.on t).owner a.plane a.id).closing = false) :
    Runs (.convOpen t p r) s fun d' =>
      (d'.owner a.plane a.id).isOpen = true ∧ (d'.owner a.plane a.id).openAt = it.point
      ∧ (d'.owner a.plane a.id).src = a.owner.src ∧ (d'.owner a.plane a.id).profile = a.owner.profile
      ∧ d'.plane a.plane.other = { (s.on t).plane a.plane.other with was := (d'.plane a.plane.other).was }
      ∧ Becomes p r { it with landed := [1] } (s.on t) d' ∧ KeepsOthers .HAM_CB_CNT a.plane.id (s.on t) d'
      ∧ Keeps [.svr, .planes, .startQ, .ldr] [.HAM_CB_CNT] (s.on t) d' := by
  refine h.runs (as := [.planes, .startQ, .ldr]) rfl (by simp)
    (fun d hd => he ▸ keeps_landEntry_convOpen d p r h.opcode hid ha hc happ (hd ▸ ho)) ?_
  rintro d d' rfl rfl hring hkeeps
  obtain ⟨⟨hopen, hat, hsrc, hprofile⟩, hother, hcount⟩ :=
    ((s.on t).begin p r it).landEntry_convOpen_shows p r h.opcode hid ha hc happ ho
  rw [he] at hopen hat hsrc hprofile hother hcount
  exact ⟨hopen, hat, hsrc, hprofile, hother, hring, hcount, hkeeps⟩

theorem runs_syncOpen {s : State} {t r : Nat} {p : Port} {it : Item} {b : List Byte} {a : Alloc} (h : Lands (s.on t) p r 0x16 it b)
    (hid : isSync a.id = true) (ha : it.allocs = [a]) (hc : it.closes = []) (he : a.entry = 1) (happ : it.applied.pl a.plane = true)
    (ho : ((s.on t).owner a.plane a.id).closing = false) :
    Runs (.syncOpen t p r) s fun d' =>
      d'.owner a.plane a.id = { a.owner with
        isOpen := true, openAt := it.point, opened := a.owner.cct, startDue := false, hold := 0
        pub := BitVec.ofNat 32 (1 + 2 * a.owner.depth) }
      ∧ (∀ k, k ≠ a.id → d'.owner a.plane k = (s.on t).owner a.plane k)
      ∧ d'.plane a.plane.other = { (s.on t).plane a.plane.other with was := (d'.plane a.plane.other).was }
      ∧ (d'.inp a.id).cct = (a.owner.cct.drop 4).take 8 ∧ (3, a.id) ∈ d'.ldr.jPend
      ∧ (∀ k, k ≠ a.id → d'.inp k = (s.on t).inp k)
      ∧ Becomes p r { it with landed := [1] } (s.on t) d' ∧ KeepsOthers .HAM_CB_CNT a.plane.id (s.on t) d'
      ∧ Keeps [.svr, .planes, .ins, .ldr] [.HAM_CB_CNT] (s.on t) d' := by
  refine h.runs (as := [.planes, .ins, .ldr]) rfl (by simp)
    (fun d hd => he ▸ keeps_landEntry_syncOpen d p r h.opcode hid ha hc happ (hd ▸ ho)) ?_
  rintro d d' rfl rfl hring hkeeps
  obtain ⟨⟨hself, hothers⟩, hother, ⟨hcct, hnoted, hins⟩, hcount⟩ :=
    ((s.on t).begin p r it).landEntry_syncOpen_shows p r h.opcode hid ha hc happ ho
  rw [he] at hself hothers hother hcct hnoted hins hcount
  exact ⟨hself, hothers, hother, hcct, hnoted, hins, hring, hcount, hkeeps⟩

theorem runs_convClose {s : State} {t r : Nat} {p : Port} {it : Item} {b : List Byte} {c : Alloc} (h : Lands (s.on t) p r 0x15 it b)
    (hc : it.closes = [c]) (he : c.entry = 1) (happ : it.applied.pl c.plane = true) (ha : it.allocs = []) :
    Runs (.convClose t p r) s fun d' =>
      (d'.owner c.plane c.id).isOpen = false ∧ (d'.owner c.plane c.id).closing = true
      ∧ (d'.owner c.plane c.id).closeAt = it.point + lineU ((s.on t).clsRate it.cls) ((s.on t).clsL it.cls)
      ∧ (∀ k, k ≠ c.id → d'.owner c.plane k = (s.on t).owner c.plane k)
      ∧ d'.plane c.plane.other = { (s.on t).plane c.plane.other with was := (d'.plane c.plane.other).was }
      ∧ Becomes p r { it with landed := [1] } (s.on t) d' ∧ Keeps [.svr, .planes, .ldr] [] (s.on t) d' := by
  refine h.runs (as := [.planes, .ldr]) rfl (by simp) (fun d _ => he ▸ keeps_landEntry_convClose d p r h.opcode hc ha happ) ?_
  rintro d d' rfl rfl hring hkeeps
  obtain ⟨⟨hopen, hclosing, hat, hothers⟩, hother⟩ := ((s.on t).begin p r it).landEntry_convClose_shows p r h.opcode hc ha happ
  rw [he] at hopen hclosing hat hothers hother
  exact ⟨hopen, hclosing, hat, hothers, hother, hring, hkeeps⟩

end Sys2Proof.Machine
end

section
/-! SUPPORT. A channel's return to the pools (R326, R355): it leaves every destination channel as it is. -/

namespace Sys2Proof.Machine

/-- Between `d` and `e` some resources return: the planes keep their destination channels, and nothing else changes but the pools,
the queued engine starts and the Larder's notes. -/
structure ReturnsOnly (d e : Dev) : Prop where
  keeps : Keeps [.planes, .startQ, .ldr] poolRegs d e
  dests : ∀ q : Plane, (e.plane q).dests = (d.plane q).dests

theorem ReturnsOnly.refl (d : Dev) : ReturnsOnly d d := ⟨Keeps.refl _ _ d, fun _ => rfl⟩

theorem ReturnsOnly.trans {d e f : Dev} (h : ReturnsOnly d e) (k : ReturnsOnly e f) : ReturnsOnly d f :=
  ⟨h.keeps.trans k.keeps, fun q => (k.dests q).trans (h.dests q)⟩

theorem ReturnsOnly.ite {d e f : Dev} {c : Prop} [Decidable c] (h : ReturnsOnly d e) (k : ReturnsOnly d f) :
    ReturnsOnly d (if c then e else f) := by
  split
  · exact h
  · exact k

theorem ReturnsOnly.each {α : Type} {f : Dev → α → Dev} (h : ∀ d x, ReturnsOnly d (f d x)) (xs : List α) (d : Dev) :
    ReturnsOnly d (d.each xs f) := by
  induction xs generalizing d with
  | nil => exact .refl d
  | cons x xs ih => exact (h d x).trans (ih _)

theorem ReturnsOnly.of_keeps {as : List Area} {rs : List RegName} {d e : Dev} (h : Keeps as rs d e)
    (ha : as ⊆ [.startQ, .ldr]) (hr : rs ⊆ poolRegs) : ReturnsOnly d e :=
  ⟨h.mono (fun _ hx => List.mem_cons_of_mem _ (ha hx)) hr,
    fun q => by rw [h.plane q fun hp => absurd (ha hp) (by simp)]⟩

theorem returnsOnly_wr (d : Dev) {f : Field} (v i : Nat) (h : f.reg ∈ poolRegs) : ReturnsOnly d (d.wr f v i) :=
  .of_keeps (keeps_wr [] d v i h) (by simp) (by simp)

theorem returnsOnly_modPlane (d : Dev) (p : Plane) {f : PlaneSt → PlaneSt} (hf : ∀ x, (f x).dests = x.dests) :
    ReturnsOnly d (d.modPlane p f) where
  keeps := keeps_modPlane _ d p f (by simp)
  dests q := by
    by_cases hq : q = p
    · rw [hq, Dev.plane_modPlane_self, hf]
    · rw [Dev.plane_modPlane_ne d f hq]

theorem returnsOnly_modEngine (d : Dev) (p : Plane) (i : Nat) (f : Engine → Engine) : ReturnsOnly d (d.modEngine p i f) :=
  returnsOnly_modPlane d p fun _ => rfl

theorem returnsOnly_unload (d : Dev) (p : Plane) (i id : Nat) : ReturnsOnly d (d.unload p i id) := by
  have hpub (d : Dev) : ReturnsOnly d (d.pubEngine p i) := by
    unfold Dev.pubEngine
    split
    exact returnsOnly_modEngine d p i _
  unfold Dev.unload
  dsimp only
  have hleft (f : Engine → Engine) := (returnsOnly_modEngine d p i f).trans (hpub _)
  exact .ite ((hleft _).trans (returnsOnly_wr _ _ _ (by decide))) (hleft _)

theorem returnsOnly_stopEngines (d : Dev) (p : Plane) (id kept : Nat) : ReturnsOnly d (d.stopEngines p id kept) := by
  unfold Dev.stopEngines
  dsimp only
  exact (((returnsOnly_wr d _ _ (by decide)).trans (.each (fun d i => returnsOnly_unload d p i id) _ _)).trans
    (.of_keeps (keeps_startQ (as := [.startQ]) [] _ _ (by simp)) (by simp) (by simp))).trans (returnsOnly_modPlane _ p fun _ => rfl)

theorem returnsOnly_giveBack (d : Dev) (p : Plane) (a : Amount) (ctx : Nat) : ReturnsOnly d (d.giveBack p a ctx) :=
  (((returnsOnly_wr d _ _ (by decide)).trans (returnsOnly_wr _ _ _ (by decide))).trans (returnsOnly_wr _ _ _ (by decide))).trans
    (returnsOnly_wr _ _ _ (by decide))

theorem returnsOnly_returnOwner (d : Dev) (p : Plane) (id : Nat) : ReturnsOnly d (d.returnOwner p id) := by
  unfold Dev.returnOwner
  dsimp only
  exact ((ReturnsOnly.ite (returnsOnly_stopEngines d p id _) (.refl d)).trans (returnsOnly_giveBack _ p _ _)).trans
    (returnsOnly_modPlane _ p fun _ => rfl)

theorem returnsOnly_releaseChan (d : Dev) (o : Nat) (p : Plane) : ReturnsOnly d (d.releaseChan o p) := by
  unfold Dev.releaseChan
  dsimp only
  have hnote (ty key : Nat) : ReturnsOnly d (d.noteJournal ty key) :=
    .of_keeps (keeps_noteJournal (as := [.ldr]) [] d ty key (by simp)) (by simp) (by simp)
  exact .ite (.refl d) ((hnote _ _).trans (returnsOnly_returnOwner _ p _))

end Sys2Proof.Machine
end

section
/-! SUPPORT. TAKE_VIDEO lands (R29, R198, R276): the plane mode, and on each plane that applies the salvo the pending route. -/

namespace Sys2Proof.Machine

/-- What an output's plane holds of its routes: the active one, the pending one and the one latched behind it. -/
def OutPlane.routing (x : OutPlane) : Route × Option Pending × Option Pending := (x.active, x.pend, x.next)

/-- What an output holds of its takes beside its routes: its raster, its plane mode and the modes that wait. -/
def Out.plan (x : Out) : Option Raster × Nat × List ModeTake := (x.raster, x.mode, x.modePend)

/-- The routing of an output on a plane. -/
def Dev.routing (d : Dev) (o : Nat) (q : Plane) : Route × Option Pending × Option Pending := (d.op o q).routing

/-- Output `o` has the same routes, raster and plane modes. -/
structure SameTakes (o : Nat) (d e : Dev) : Prop where
  plan : (e.out o).plan = (d.out o).plan
  routing : ∀ q : Plane, e.routing o q = d.routing o q

theorem SameTakes.refl (o : Nat) (d : Dev) : SameTakes o d d := ⟨rfl, fun _ => rfl⟩

theorem SameTakes.trans {o : Nat} {d e f : Dev} (h : SameTakes o d e) (k : SameTakes o e f) : SameTakes o d f :=
  ⟨k.plan.trans h.plan, fun q => (k.routing q).trans (h.routing q)⟩

theorem SameTakes.ite {o : Nat} {d e f : Dev} {c : Prop} [Decidable c] (h : SameTakes o d e) (k : SameTakes o d f) :
    SameTakes o d (if c then e else f) := by
  split
  · exact h
  · exact k

theorem SameTakes.of_keeps {o : Nat} {as : List Area} {rs : List RegName} {d e : Dev} (h : Keeps as rs d e) (ha : Area.outs ∉ as) :
    SameTakes o d e :=
  ⟨by rw [h.out o ha], fun q => by rw [Dev.routing, Dev.op, h.out o ha, Dev.routing, Dev.op]⟩

theorem SameTakes.each {α : Type} {o : Nat} {f : Dev → α → Dev} (h : ∀ d x, SameTakes o d (f d x)) (xs : List α) (d : Dev) :
    SameTakes o d (d.each xs f) := by
  induction xs generalizing d with
  | nil => exact .refl o d
  | cons x xs ih => exact (h d x).trans (ih _)

theorem sameTakes_modOut (o : Nat) (d : Dev) (n : Nat) {f : Out → Out} (hplan : ∀ x, (f x).plan = x.plan)
    (hpl : ∀ x q, ((f x).pl.pl q).routing = (x.pl.pl q).routing) : SameTakes o d (d.modOut n f) := by
  by_cases h : o = n
  · subst h
    exact ⟨by rw [Dev.out_modOut_self, hplan], fun q => by rw [Dev.routing, Dev.op, Dev.out_modOut_self, hpl]; rfl⟩
  · exact ⟨by rw [Dev.out_modOut_ne d f h], fun q => by rw [Dev.routing, Dev.op, Dev.out_modOut_ne d f h]; rfl⟩

theorem plan_modOp (d : Dev) (o n : Nat) (p : Plane) (f : OutPlane → OutPlane) : ((d.modOp n p f).out o).plan = (d.out o).plan := by
  by_cases h : o = n
  · subst h
    rw [Dev.modOp, Dev.out_modOut_self]
    rfl
  · rw [Dev.modOp, Dev.out_modOut_ne d _ h]

theorem sameTakes_modOp (o : Nat) (d : Dev) (n : Nat) (p : Plane) {f : OutPlane → OutPlane} (hf : ∀ x, (f x).routing = x.routing) :
    SameTakes o d (d.modOp n p f) where
  plan := plan_modOp d o n p f
  routing q := by
    by_cases h : o = n
    · by_cases hq : q = p
      · rw [h, hq, Dev.routing, Dev.op_modOp_self, hf, Dev.routing]
      · rw [h, Dev.routing, Dev.op_modOp_plane d n f hq, Dev.routing]
    · rw [Dev.routing, Dev.op_modOp_ne d f p q h, Dev.routing]

/-! ### The plane mode -/

/-- A new plane mode or preferred plane is noted, and the preferred plane's frames are counted afresh (R231, R489). -/
def Dev.noteMode (d : Dev) (o : Nat) : Dev := (d.noteJournal 1 o).modOut o fun x => { x with wtrRun := 0, wtrOk := false }

theorem keeps_noteMode (d : Dev) (o : Nat) (c : Bool) : Keeps [.outs, .ldr] [] d (d.when c fun d => d.noteMode o) :=
  Keeps.when fun _ => (keeps_noteJournal _ d 1 o (by simp)).trans (keeps_modOut _ _ o _ (by simp))

theorem sameTakes_noteMode (d : Dev) (o : Nat) (c : Bool) : SameTakes o d (d.when c fun d => d.noteMode o) := by
  unfold Dev.when
  split
  · exact (SameTakes.of_keeps (keeps_noteJournal (as := [.ldr]) [] d 1 o (by simp)) (by simp)).trans
      (sameTakes_modOut o _ o (fun _ => rfl) fun _ _ => rfl)
  · exact .refl o d

/-- A plane mode lands by one change of its output, which leaves its raster, its routes and the modes that wait; what follows it
leaves them too. -/
theorem Dev.landMode_eq (d : Dev) (o : Nat) (b : List Byte) (u : Bool) : ∃ f : Out → Out,
    SameTakes o (d.modOut o f) (d.landMode o b u) ∧ Keeps [.outs, .ldr] [] (d.modOut o f) (d.landMode o b u)
    ∧ (f (d.out o)).plan = ((d.out o).raster, newMode (d.out o).mode b, (d.out o).modePend) ∧ (f (d.out o)).pl = (d.out o).pl := by
  unfold Dev.landMode
  dsimp only
  exact ⟨_, (sameTakes_noteMode _ o _).trans (.ite (sameTakes_modOp o _ o _ fun _ => rfl) (.refl o _)),
    (keeps_noteMode _ o _).trans (Keeps.ite (fun _ => keeps_modOut _ _ o _ (by simp)) fun _ => Keeps.refl _ _ _), rfl, rfl⟩

theorem keeps_landMode (d : Dev) (o : Nat) (b : List Byte) (u : Bool) : Keeps [.outs, .ldr] [] d (d.landMode o b u) := by
  obtain ⟨f, -, hkeeps, -⟩ := d.landMode_eq o b u
  exact (keeps_modOut _ d o f (by simp)).trans hkeeps

/-- The new plane mode stands; the routes, the raster and the modes that wait are the same. -/
theorem Dev.landMode_shows (d : Dev) (o : Nat) (b : List Byte) (u : Bool) :
    ((d.landMode o b u).out o).plan = ((d.out o).raster, newMode (d.out o).mode b, (d.out o).modePend)
    ∧ ∀ q : Plane, (d.landMode o b u).routing o q = d.routing o q := by
  obtain ⟨f, hsame, -, hplan, hpl⟩ := d.landMode_eq o b u
  refine ⟨by rw [hsame.plan, Dev.out_modOut_self, hplan], fun q => ?_⟩
  rw [hsame.routing, Dev.routing, Dev.op, Dev.out_modOut_self, hpl]
  rfl

/-- What landing a plane mode may change. -/
def modeAreas : List Area := [.outs, .planes, .startQ, .ldr]

/-- A plane that no longer computes the output may give back its channel. -/
theorem returnsOnly_takeMode (d : Dev) (o : Nat) (b : List Byte) :
    ReturnsOnly (d.landMode o b (d.unrouted o && D.kind.of b != 0)) (d.takeMode o b) := by
  unfold Dev.takeMode
  dsimp only
  exact .ite (.refl _) (.ite (returnsOnly_releaseChan _ o .b) (.ite (returnsOnly_releaseChan _ o .a) (.refl _)))

theorem keeps_takeMode (d : Dev) (o : Nat) (b : List Byte) : Keeps modeAreas poolRegs d (d.takeMode o b) :=
  ((keeps_landMode d o b _).mono (by decide) (by decide)).trans ((returnsOnly_takeMode d o b).keeps.mono (by decide) (by simp))

theorem Dev.takeMode_shows (d : Dev) (o : Nat) (b : List Byte) :
    ((d.takeMode o b).out o).plan = ((d.out o).raster, newMode (d.out o).mode b, (d.out o).modePend)
    ∧ (∀ q : Plane, (d.takeMode o b).routing o q = d.routing o q)
    ∧ ∀ q : Plane, ((d.takeMode o b).plane q).dests = (d.plane q).dests := by
  have hreturn := returnsOnly_takeMode d o b
  have hsame : SameTakes o _ (d.takeMode o b) := .of_keeps hreturn.keeps (by simp)
  obtain ⟨hplan, hrouting⟩ := d.landMode_shows o b (d.unrouted o && D.kind.of b != 0)
  exact ⟨hsame.plan.trans hplan, fun q => (hsame.routing q).trans (hrouting q),
    fun q => by rw [hreturn.dests, (keeps_landMode d o b _).plane q (by simp)]⟩

theorem keeps_landModePend (d : Dev) (o f k : Nat) : Keeps modeAreas poolRegs d (d.landModePend o f k) :=
  (keeps_modOut _ d o _ (by decide)).trans (Keeps.each _ _ (fun d q _ => keeps_takeMode d o q.desc) _)

/-- The one plane mode that waits lands. -/
theorem Dev.landModePend_shows (d : Dev) {o f k : Nat} {x : ModeTake} (hx : (d.out o).modePend = [x])
    (hr : (d.out o).reached x.cls x.frame x.line f k = true) :
    ((d.landModePend o f k).out o).plan = ((d.out o).raster, newMode (d.out o).mode x.desc, [])
    ∧ (∀ q : Plane, (d.landModePend o f k).routing o q = d.routing o q)
    ∧ ∀ q : Plane, ((d.landModePend o f k).plane q).dests = (d.plane q).dests := by
  have hland : d.landModePend o f k = (d.modOut o fun y =>
      { y with modePend := y.modePend.filter fun q => !(d.out o).reached q.cls q.frame q.line f k }).takeMode o x.desc := by
    simp [Dev.landModePend, hx, hr, Dev.each]
  obtain ⟨hplan, hrouting, hdests⟩ := (d.modOut o fun y =>
      { y with modePend := y.modePend.filter fun q => !(d.out o).reached q.cls q.frame q.line f k }).takeMode_shows o x.desc
  rw [hland]
  refine ⟨?_, fun q => ?_, hdests⟩
  · simp [hplan, hx, hr]
  · rw [hrouting, Dev.routing, Dev.op, Dev.out_modOut_self]
    rfl

end Sys2Proof.Machine
end

section
/-! SUPPORT. The pending routes of a TAKE_VIDEO become active on the planes that apply it (R198, R276, R389). -/

namespace Sys2Proof.Machine

/-! ### A route lands -/

theorem keeps_noteRouted (d : Dev) (ms : List Nat) : Keeps [.lanes] [] d (d.noteRouted ms) :=
  Keeps.each _ _ (fun d n _ => keeps_modLane _ d n _ (by simp)) d

/-- A new route lands by one change of its plane's output; what comes before and after leaves the routes. -/
theorem Dev.landRoute_new (d : Dev) {o : Nat} {p : Plane} {r : Route} (sw : Bool) (h : (d.op o p).active ≠ r) : ∃ e f,
    Keeps [.lanes] [] d e ∧ (∀ x, (f x).routing = (r, none, x.next)) ∧ SameTakes o (e.modOp o p f) (d.landRoute o p r sw)
    ∧ Keeps [.outs, .ldr] [] (e.modOp o p f) (d.landRoute o p r sw) := by
  have hmark (d : Dev) (m : Nat) (marks : Bool) : SameTakes o d (d.modOp m p fun x => { x with swNext := x.swNext || marks }) :=
    sameTakes_modOp o d m p fun _ => rfl
  unfold Dev.landRoute
  rw [if_neg (by simpa using h)]
  exact ⟨_, _, keeps_noteRouted d _, fun _ => rfl,
    (SameTakes.of_keeps (keeps_noteJournal (as := [.ldr]) [] _ 1 o (by simp)) (by simp)).trans (.each (fun d m => hmark d m _) _ _),
    (keeps_noteJournal _ _ 1 o (by simp)).trans (Keeps.each _ _ (fun d _ _ => keeps_modOut _ d _ _ (by simp)) _)⟩

theorem Dev.landRoute_same (d : Dev) {o : Nat} {p : Plane} {r : Route} (sw : Bool) (h : (d.op o p).active = r) :
    d.landRoute o p r sw = d.modOp o p fun x => { x with pend := none } := by
  unfold Dev.landRoute
  rw [if_pos (by simpa using h)]

theorem keeps_landRoute (d : Dev) (o : Nat) (p : Plane) (r : Route) (sw : Bool) :
    Keeps [.outs, .lanes, .ldr] [] d (d.landRoute o p r sw) := by
  by_cases h : (d.op o p).active = r
  · rw [d.landRoute_same sw h]
    exact keeps_modOut _ d o _ (by simp)
  · obtain ⟨e, f, hbefore, -, -, hafter⟩ := d.landRoute_new sw h
    exact ((hbefore.mono (by simp) (by simp)).trans (keeps_modOut _ e o _ (by simp))).trans (hafter.mono (by simp) (by simp))

/-- The route is the plane's active one, and nothing else of the output's takes changes. -/
theorem Dev.landRoute_shows (d : Dev) (o : Nat) (p : Plane) (r : Route) (sw : Bool) :
    (d.landRoute o p r sw).routing o p = (r, none, (d.op o p).next) ∧ ((d.landRoute o p r sw).out o).plan = (d.out o).plan
    ∧ ∀ q : Plane, q ≠ p → (d.landRoute o p r sw).routing o q = d.routing o q := by
  by_cases h : (d.op o p).active = r
  · rw [d.landRoute_same sw h]
    refine ⟨by rw [Dev.routing, Dev.op_modOp_self, OutPlane.routing, h], plan_modOp d o o p _, fun q hq => ?_⟩
    rw [Dev.routing, Dev.op_modOp_plane d o _ hq, Dev.routing]
  · obtain ⟨e, f, hbefore, hf, hafter, -⟩ := d.landRoute_new sw h
    have hout := hbefore.out o (by simp)
    refine ⟨?_, ?_, fun q hq => ?_⟩
    · rw [hafter.routing, Dev.routing, Dev.op_modOp_self, hf, Dev.op, hout, Dev.op]
    · rw [hafter.plan, plan_modOp, hout]
    · rw [hafter.routing, Dev.routing, Dev.op_modOp_plane e o f hq, Dev.op, hout, Dev.routing, Dev.op]

/-! ### A pending route becomes active -/

theorem Out.fmt_congr {x y : Out} (h : x.raster = y.raster) : x.fmt = y.fmt := by rw [Out.fmt, Out.fmt, h]

theorem Out.reached_congr {x y : Out} (h : x.raster = y.raster) (cls frame line f k : Nat) :
    x.reached cls frame line f k = y.reached cls frame line f k := by rw [Out.reached, Out.reached, h, Out.fmt_congr h]

theorem Dev.repath_of_dests_nil (d : Dev) {p : Plane} (o : Nat) (ksw : Int) (h : (d.plane p).dests = []) : d.repath p o ksw = d := by
  simp [Dev.repath, h, Dev.each]

theorem keeps_repath (d : Dev) (p : Plane) (o : Nat) (ksw : Int) : Keeps [.planes, .ldr] [] d (d.repath p o ksw) := by
  unfold Dev.repath
  dsimp only
  exact Keeps.each _ _ (fun d a _ => Keeps.ite (fun _ => Keeps.refl _ _ d) fun _ => keeps_landContrib d p a _ _ _) d

/-- The route `r` lands, and the one latched behind it is the pending one. -/
def Dev.turnRoute (d : Dev) (o : Nat) (p : Plane) (r : Route) : Dev :=
  (d.landRoute o p r true).modOp o p fun x => { x with pend := (d.op o p).next, next := none }

theorem keeps_turnRoute (d : Dev) (o : Nat) (p : Plane) (r : Route) : Keeps [.outs, .lanes, .ldr] [] d (d.turnRoute o p r) :=
  (keeps_landRoute d o p r true).trans (keeps_modOut _ _ o _ (by simp))

theorem Dev.turnRoute_shows (d : Dev) (o : Nat) (p : Plane) (r : Route) :
    (d.turnRoute o p r).routing o p = (r, (d.op o p).next, none) ∧ ((d.turnRoute o p r).out o).plan = (d.out o).plan
    ∧ ∀ q : Plane, q ≠ p → (d.turnRoute o p r).routing o q = d.routing o q := by
  obtain ⟨hself, hplan, hothers⟩ := d.landRoute_shows o p r true
  have hactive : ((d.landRoute o p r true).op o p).active = r := congrArg Prod.fst hself
  refine ⟨?_, (plan_modOp _ o o p _).trans hplan, fun q hq => ?_⟩
  · rw [Dev.turnRoute, Dev.routing, Dev.op_modOp_self, OutPlane.routing, hactive]
  · rw [Dev.turnRoute, Dev.routing, Dev.op_modOp_plane _ o _ hq]
    exact hothers q hq

/-- What `Dev.activatePend` can do: nothing, or turn to the pending route, which is due, and give the output's audio its new paths. -/
theorem Dev.activatePend_cases (d : Dev) (o : Nat) (p : Plane) (f k : Nat) :
    (d.activatePend o p f k = d
      ∧ ∀ x, (d.op o p).pend = some x → (d.out o).reached x.cls x.frame x.line f k = false)
    ∨ ∃ x, (d.op o p).pend = some x ∧ (d.out o).reached x.cls x.frame x.line f k = true
      ∧ (d.activatePend o p f k = d.turnRoute o p x.route
        ∨ ∃ ksw, d.activatePend o p f k = (d.turnRoute o p x.route).repath p o ksw) := by
  unfold Dev.activatePend
  dsimp only
  split
  · next x hx =>
    split
    · next hr =>
      refine .inr ⟨x, hx, hr, ?_⟩
      split
      · exact .inl rfl
      · exact .inr ⟨_, rfl⟩
    · next hr =>
      refine .inl ⟨rfl, fun y hy => ?_⟩
      cases hx.symm.trans hy
      exact Bool.eq_false_iff.mpr hr
  · next hnone => exact .inl ⟨rfl, fun x hx => by simp [hnone] at hx⟩

theorem keeps_activatePend (d : Dev) (o : Nat) (p : Plane) (f k : Nat) :
    Keeps [.outs, .lanes, .planes, .ldr] [] d (d.activatePend o p f k) := by
  have hturn (r : Route) : Keeps [.outs, .lanes, .planes, .ldr] [] d (d.turnRoute o p r) :=
    (keeps_turnRoute d o p r).mono (by simp) (by simp)
  rcases d.activatePend_cases o p f k with ⟨h, -⟩ | ⟨x, -, -, h | ⟨ksw, h⟩⟩
  · rw [h]
    exact Keeps.refl _ _ d
  · rw [h]
    exact hturn _
  · rw [h]
    exact (hturn _).trans ((keeps_repath _ p o ksw).mono (by simp) (by simp))

/-- Where the plane has no destination channel, a pending route does no more than turn. -/
theorem Dev.activatePend_of_dests_nil (d : Dev) (o : Nat) {p : Plane} (f k : Nat) (hd : (d.plane p).dests = []) :
    (d.activatePend o p f k = d ∧ ∀ x, (d.op o p).pend = some x → (d.out o).reached x.cls x.frame x.line f k = false)
    ∨ ∃ x, (d.op o p).pend = some x ∧ d.activatePend o p f k = d.turnRoute o p x.route := by
  rcases d.activatePend_cases o p f k with h | ⟨x, hx, -, h | ⟨ksw, h⟩⟩
  · exact .inl h
  · exact .inr ⟨x, hx, h⟩
  · refine .inr ⟨x, hx, h.trans (Dev.repath_of_dests_nil _ o ksw ?_)⟩
    rw [(keeps_turnRoute d o p x.route).plane p (by simp), hd]

/-! ### TAKE_VIDEO -/

/-- No plane has a destination channel, and output `o` has the plan `x`. -/
structure Quiet (o : Nat) (x : Option Raster × Nat × List ModeTake) (d : Dev) : Prop where
  plan : (d.out o).plan = x
  dests : ∀ q : Plane, (d.plane q).dests = []

/-- Pending routes that are due turn, each on its plane. -/
theorem Dev.each_activatePend (d : Dev) {o f k : Nat} (hd : ∀ q : Plane, (d.plane q).dests = []) {ps : List Plane} (hps : ps.Nodup)
    (hdue : ∀ q ∈ ps, ∃ x, (d.op o q).pend = some x ∧ (d.out o).reached x.cls x.frame x.line f k = true) :
    let e := d.each ps fun d q => d.activatePend o q f k
    (e.out o).plan = (d.out o).plan
    ∧ (∀ q ∈ ps, ∃ x, (d.op o q).pend = some x ∧ e.routing o q = (x.route, (d.op o q).next, none))
    ∧ ∀ q ∉ ps, e.routing o q = d.routing o q := by
  intro e
  have keep (e : Dev) (p : Plane) (he : Quiet o (d.out o).plan e) : Quiet o (d.out o).plan (e.activatePend o p f k) := by
    rcases e.activatePend_of_dests_nil o f k (he.dests p) with ⟨h, -⟩ | ⟨x, -, h⟩
    · rwa [h]
    · rw [h]
      refine ⟨(e.turnRoute_shows o p x.route).2.1.trans he.plan, fun q => ?_⟩
      rw [(keeps_turnRoute e o p x.route).plane q (by simp), he.dests]
  have self (e : Dev) (p : Plane) (he : Quiet o (d.out o).plan e) (z : Pending) (hz : (e.op o p).pend = some z)
      (hr : (d.out o).reached z.cls z.frame z.line f k = true) :
      (e.activatePend o p f k).routing o p = (z.route, (e.op o p).next, none) := by
    rcases e.activatePend_of_dests_nil o f k (he.dests p) with ⟨-, hno⟩ | ⟨x, hx, h⟩
    · rw [← Out.reached_congr (congrArg Prod.fst he.plan), hno z hz] at hr
      exact absurd hr (by decide)
    · cases hx.symm.trans hz
      rw [h]
      exact (e.turnRoute_shows o p z.route).1
  have other (e : Dev) (p q : Plane) (he : Quiet o (d.out o).plan e) (hq : q ≠ p) :
      (e.activatePend o p f k).routing o q = e.routing o q := by
    rcases e.activatePend_of_dests_nil o f k (he.dests p) with ⟨h, -⟩ | ⟨x, _, h⟩
    · rw [h]
    · rw [h]
      exact (e.turnRoute_shows o p x.route).2.2 q hq
  obtain ⟨hquiet, hin, hout⟩ := Dev.each_planes (g := fun d q => d.routing o q) (post := fun _ x y => ∀ z, x.2.1 = some z →
    (d.out o).reached z.cls z.frame z.line f k = true → y = (z.route, x.2.2, none)) keep self other hps ⟨rfl, hd⟩
  refine ⟨hquiet.plan, fun q hq => ?_, hout⟩
  obtain ⟨x, hx, hr⟩ := hdue q hq
  exact ⟨x, hx, hin q hq x hx hr⟩

theorem Dev.landEntry_video (d : Dev) (p : Port) (r : Nat) {it : Item} (k : Nat) {b : List Byte} (h : descOp b = 0x10)
    (ht : D.out.of b ∉ it.tiedOuts) : d.landEntry p r it k b =
      (d.landModePend (D.out.of b) it.frame (d.landOn (D.out.of b) it.line)).each it.planes fun e q =>
        e.activatePend (D.out.of b) q it.frame (d.landOn (D.out.of b) it.line) := by
  simp [Dev.landEntry, h, ht, Item.planes]

/-- What landing a TAKE_VIDEO may change. -/
def videoAreas : List Area := [.outs, .ldr, .lanes, .planes, .ev, .startQ]

theorem keeps_landEntry_video (d : Dev) (p : Port) (r : Nat) {it : Item} (k : Nat) {b : List Byte} (h : descOp b = 0x10)
    (ht : D.out.of b ∉ it.tiedOuts) : Keeps videoAreas poolRegs d (d.landEntry p r it k b) := by
  rw [d.landEntry_video p r k h ht]
  exact ((keeps_landModePend d _ _ _).mono (by decide) (by simp)).trans
    (Keeps.each _ _ (fun d q _ => (keeps_activatePend d _ q _ _).mono (by decide) (by simp)) _)

/-- The plane mode that waits lands, and on each plane that applies the salvo the pending route. -/
theorem Dev.landEntry_video_shows (d : Dev) (p : Port) (r : Nat) {it : Item} (k : Nat) {b : List Byte} {o : Nat} {x : ModeTake}
    (h : descOp b = 0x10) (ho : o = D.out.of b) (ht : o ∉ it.tiedOuts) (hx : (d.out o).modePend = [x])
    (hr : (d.out o).reached x.cls x.frame x.line it.frame (d.landOn o it.line) = true) (hd : ∀ q : Plane, (d.plane q).dests = [])
    (hdue : ∀ q : Plane, it.applied.pl q = true →
      ∃ x, (d.op o q).pend = some x ∧ (d.out o).reached x.cls x.frame x.line it.frame (d.landOn o it.line) = true) :
    let e := d.landEntry p r it k b
    ((e.out o).modePend = [] ∧ (e.out o).mode = newMode (d.out o).mode x.desc)
    ∧ (∀ q : Plane, it.applied.pl q = true →
        (d.op o q).pend.map (·.route) = some (e.op o q).active ∧ (e.op o q).pend = (d.op o q).next)
    ∧ ∀ q : Plane, it.applied.pl q = false → (e.op o q).active = (d.op o q).active ∧ (e.op o q).pend = (d.op o q).pend := by
  subst ho
  intro e
  have he : e = _ := d.landEntry_video p r k h ht
  obtain ⟨hplan, hrouting, hdests⟩ := d.landModePend_shows hx hr
  generalize d.landModePend _ _ _ = y at he hplan hrouting hdests
  have hpend (q : Plane) : (y.op _ q).pend = (d.op _ q).pend := congrArg (·.2.1) (hrouting q)
  have hnext (q : Plane) : (y.op _ q).next = (d.op _ q).next := congrArg (·.2.2) (hrouting q)
  have hreached := Out.reached_congr (x := y.out (D.out.of b)) (y := d.out (D.out.of b)) (congrArg Prod.fst hplan)
  obtain ⟨hmode, hin, hout⟩ := y.each_activatePend (fun q => (hdests q).trans (hd q)) it.planes_nodup
    (o := D.out.of b) (f := it.frame) (k := d.landOn (D.out.of b) it.line)
    fun q hq => by simpa only [hpend, hreached] using hdue q (Item.mem_planes.mp hq)
  rw [← he] at hmode hin hout
  refine ⟨⟨congrArg (·.2.2) (hmode.trans hplan), congrArg (·.2.1) (hmode.trans hplan)⟩, fun q hq => ?_, fun q hq => ?_⟩
  · obtain ⟨z, hz, hturned⟩ := hin q (Item.mem_planes.mpr hq)
    rw [hpend] at hz
    rw [hnext] at hturned
    exact ⟨by rw [hz]; exact congrArg some (congrArg Prod.fst hturned).symm, congrArg (·.2.1) hturned⟩
  · have hsame := (hout q (Item.not_mem_planes.mpr hq)).trans (hrouting q)
    exact ⟨congrArg Prod.fst hsame, congrArg (·.2.1) hsame⟩

theorem runs_takeVideo {s : State} {t r o : Nat} {p : Port} {it : Item} {b : List Byte} {x : ModeTake}
    (h : Lands (s.on t) p r 0x10 it b) (ho : o = D.out.of b) (ht : o ∉ it.tiedOuts) (hx : ((s.on t).out o).modePend = [x])
    (hr : ((s.on t).out o).reached x.cls x.frame x.line it.frame ((s.on t).landOn o it.line) = true)
    (hd : ∀ q : Plane, ((s.on t).plane q).dests = [])
    (hdue : ∀ q : Plane, it.applied.pl q = true → ∃ x, ((s.on t).op o q).pend = some x
      ∧ ((s.on t).out o).reached x.cls x.frame x.line it.frame ((s.on t).landOn o it.line) = true) :
    Runs (.takeVideo t p r) s fun d' =>
      (d'.ring p r).items = [{ it with landed := [1] }] ∧ OtherRings p r (s.on t) d' ∧ (d'.out o).modePend = []
      ∧ (d'.out o).mode = newMode ((s.on t).out o).mode x.desc
      ∧ (∀ q : Plane, it.applied.pl q = true →
          ((s.on t).op o q).pend.map (·.route) = some (d'.op o q).active ∧ (d'.op o q).pend = ((s.on t).op o q).next)
      ∧ (∀ q : Plane, it.applied.pl q = false →
          (d'.op o q).active = ((s.on t).op o q).active ∧ (d'.op o q).pend = ((s.on t).op o q).pend)
      ∧ Keeps (.svr :: videoAreas) poolRegs (s.on t) d' := by
  refine h.runs (as := videoAreas) rfl (by decide) (fun d _ => keeps_landEntry_video d p r 1 h.opcode (ho ▸ ht)) ?_
  rintro d d' rfl rfl ⟨hitems, hrings⟩ hkeeps
  obtain ⟨⟨hpend, hmode⟩, hin, hout⟩ := ((s.on t).begin p r it).landEntry_video_shows p r 1 h.opcode ho ht hx hr hd hdue
  exact ⟨hitems, hrings, hpend, hmode, hin, hout, hkeeps⟩

end Sys2Proof.Machine
end

section
/-! SUPPORT. The obligation on the landing of a salvo's entries. -/

namespace Sys2Proof.Machine

/-- Settles O38: a due entry of a latched salvo lands by `Dev.landEntry` on the planes that apply the salvo, one lemma for each kind
of entry. -/
theorem salvoLands : Obligations.SalvoLands := by
  refine ⟨?video, ?audio, ?format, ?overlay, ?palette, ?convOpen, ?syncOpen, ?convClose⟩
  case video =>
    rintro s t r o p it b q _ rfl h ho ht hq hr hd hdue
    exact runs_takeVideo h ho ht hq hr hd hdue
  case audio =>
    rintro s t r a p it b e _ rfl h hb ht he
    exact runs_takeAudio h hb ht he
  case format =>
    rintro s t r p it b _ rfl h
    exact runs_takeFormat h
  case overlay =>
    rintro s t r p it b _ rfl h hb ht he
    exact runs_takeOverlay h hb ht he
  case palette =>
    rintro s t r p it b _ rfl h hb
    exact runs_takeOverlay_palette h hb
  case convOpen =>
    rintro s t r p it b a _ rfl h hid ha hc he happ ho
    exact runs_convOpen h hid ha hc he happ ho
  case syncOpen =>
    rintro s t r p it b a _ rfl h hid ha hc he happ ho
    exact runs_syncOpen h hid ha hc he happ ho
  case convClose =>
    rintro s t r p it b c _ rfl h hc he happ ha
    exact runs_convClose h hc he happ ha

end Sys2Proof.Machine
end

section
/-! SUPPORT. The move of time (R39, R41, R83, R87, R108, R447): SKP words, slews and the epoch counters. -/

namespace Sys2Proof.Machine

/-! ### SKP words (R108) -/

/-- Between `d` and `e` nothing but SKP words has left, and the lanes have counted them. -/
structure SkpsOnly (d e : Dev) : Prop where
  keeps : Keeps [.lanes, .emitted] [] d e
  lane : ∀ n, e.lane n = { d.lane n with skps := (e.lane n).skps }
  emitted : ∃ l, e.emitted = l ++ d.emitted ∧ ∀ x ∈ l, ∃ n k, x = Emission.lane n (.skp k)

theorem SkpsOnly.refl (d : Dev) : SkpsOnly d d := ⟨Keeps.refl _ _ d, fun _ => rfl, [], rfl, by simp⟩

theorem SkpsOnly.trans {d e f : Dev} (h : SkpsOnly d e) (k : SkpsOnly e f) : SkpsOnly d f := by
  obtain ⟨l, hl, hskp⟩ := h.emitted
  obtain ⟨l', hl', hskp'⟩ := k.emitted
  refine ⟨h.keeps.trans k.keeps, fun n => ?_, l' ++ l, by rw [hl', hl, List.append_assoc], fun x hx => ?_⟩
  · rw [k.lane n, h.lane n]
  · exact (List.mem_append.mp hx).elim (hskp' x) (hskp x)

/-- `k` SKP words leave on pair `n`. -/
theorem skpsOnly_send (d : Dev) (n k : Nat) :
    SkpsOnly d ((d.emit (.lane n (.skp k))).modLane n fun l => { l with skps := l.skps + k }) where
  keeps := (keeps_emit _ d _ (by simp)).trans (keeps_modLane _ _ n _ (by simp))
  lane m := by
    by_cases h : m = n
    · subst h; rw [Dev.lane_modLane_self]; rfl
    · rw [Dev.lane_modLane_ne _ _ h]; rfl
  emitted := ⟨[.lane n (.skp k)], rfl, by simp⟩

/-- The SKP words due on pair `n` leave. -/
def Dev.placeSkp (d : Dev) (n : Nat) : Dev :=
  if d.skpDue n = 0 then d else (d.emit (.lane n (.skp (d.skpDue n)))).modLane n fun l => { l with skps := l.skps + d.skpDue n }

theorem Dev.placeSkps_eq (d : Dev) : d.placeSkps = d.each d.lanes fun d x => d.placeSkp x.1 := rfl

theorem skpsOnly_placeSkp (d : Dev) (n : Nat) : SkpsOnly d (d.placeSkp n) := by
  unfold Dev.placeSkp
  split
  · exact SkpsOnly.refl d
  · exact skpsOnly_send d n _

theorem skpsOnly_placeSkps (d : Dev) : SkpsOnly d d.placeSkps := by
  rw [Dev.placeSkps_eq, Dev.each]
  generalize d.lanes = xs
  induction xs generalizing d with
  | nil => exact SkpsOnly.refl d
  | cons x xs ih => exact (skpsOnly_placeSkp d x.1).trans (ih _)

/-! ### Slews (R83, R94) -/

theorem keeps_modTb {as : List Area} (rs : List RegName) (d : Dev) (p : Plane) (f : Timebase → Timebase) (h : Area.tim ∈ as) :
    Keeps as rs d (d.modTb p f) := keeps_tim rs d _ h

theorem keeps_slew (d : Dev) (z : Int) : Keeps [.tim] [] d (d.slew z) := by
  unfold Dev.slew
  dsimp only
  refine ((keeps_tim _ d _ (by simp)).trans (Keeps.when fun _ => ?_)).trans (Keeps.when fun _ => ?_)
  · exact keeps_modTb _ _ _ _ (by simp)
  · exact keeps_modTb _ _ _ _ (by simp)

theorem keeps_slewFor (d : Dev) (dt : Nat) : Keeps [.tim] [] d (d.slewFor dt) := by
  unfold Dev.slewFor
  dsimp only
  refine Keeps.trans (keeps_tim _ d _ (by simp)) (Keeps.ite (fun _ => ?_) fun _ => Keeps.ite (fun _ => ?_) fun _ => Keeps.refl _ _ _)
  · exact (keeps_slew _ _).trans (keeps_tim _ _ _ (by simp))
  · exact (keeps_modTb _ _ _ _ (by simp)).trans (keeps_slew _ _)

/-- With nothing left of a TIME_SET and no build-out that slews, a timebase stays as it is. -/
theorem Dev.slewFor_of_settled (d : Dev) (dt : Nat) (ht : d.tim.timeSlew = 0) (hr : d.realigning = false) :
    ∃ n, d.slewFor dt = { d with tim := { d.tim with slewRem := n } } := by
  refine ⟨(d.tim.slewRem + max 1 (d.rd F.TB_REALIGN_rate) * dt) % 1000000000, ?_⟩
  have hr' : ({ d with tim := { d.tim with slewRem :=
      (d.tim.slewRem + max 1 (d.rd F.TB_REALIGN_rate) * dt) % 1000000000 } } : Dev).realigning = false := hr
  unfold Dev.slewFor
  dsimp only
  rw [if_neg (by simpa using ht), if_neg (by rw [hr']; decide)]

/-! ### The epoch counters (R39, R41, R87, R447) -/

/-- A timebase after `dt` u: its counter stands while its plane has no clocks. -/
def Timebase.run (stopped : Bool) (dt : Nat) (x : Timebase) : Timebase := if stopped then x else { x with epoch := x.epoch + dt }

/-- Both epoch counters after `dt` u. -/
def Dev.runEpochs (d : Dev) (dt : Nat) : Dev :=
  (d.modTb .a (Timebase.run (d.clocksStopped .a) dt)).modTb .b (Timebase.run (d.clocksStopped .b) dt)

theorem Dev.tb_runEpochs (d : Dev) (dt : Nat) (p : Plane) :
    (d.runEpochs dt).tb p = (d.tb p).run (d.clocksStopped p) dt := by cases p <;> rfl

theorem keeps_runEpochs (d : Dev) (dt : Nat) : Keeps [.tim] [] d (d.runEpochs dt) :=
  (keeps_modTb _ d _ _ (by simp)).trans (keeps_modTb _ _ _ _ (by simp))

theorem Timebase.run_epoch (stopped : Bool) (dt : Nat) (x : Timebase) :
    (x.run stopped dt).epoch = x.epoch + if stopped then 0 else dt := by cases stopped <;> rfl

theorem Timebase.run_buildout (stopped : Bool) (dt : Nat) (x : Timebase) : (x.run stopped dt).buildout = x.buildout := by
  cases stopped <;> rfl

theorem Dev.realigning_runEpochs (d : Dev) (dt : Nat) : (d.runEpochs dt).realigning = d.realigning := by
  have hlead : (d.runEpochs dt).lead = d.lead := rfl
  have hstate : (d.runEpochs dt).tbState d.lead = d.tbState d.lead := by cases d.lead <;> rfl
  have hsel : (d.runEpochs dt).rd F.TB_STATUS_sel = d.rd F.TB_STATUS_sel := rfl
  have henable : (d.runEpochs dt).flag F.TB_REALIGN_enable = d.flag F.TB_REALIGN_enable := rfl
  have hbears (x : Nat) : (d.runEpochs dt).timeBearing x = d.timeBearing x := rfl
  simp only [Dev.realigning, hlead, hstate, hsel, henable, hbears, Dev.tb_runEpochs, Timebase.run_buildout]

/-! ### Time moves on -/

/-- The device with its clock at `t`, if that lies ahead. -/
def Dev.clockTo (d : Dev) (t : Nat) : Dev := { d with now := max d.now t }

/-- What time does to the timing unit before SKP words leave. -/
def Dev.timeTo (d : Dev) (t : Nat) : Dev :=
  if d.tim.running && !d.flag F.CLK_STATUS_safe then ((d.clockTo t).runEpochs (t - d.now)).slewFor (t - d.now) else d.clockTo t

theorem Dev.advance_eq (d : Dev) (t : Nat) : d.advance t = (d.timeTo t).placeSkps := by
  have hnow : d.now + (t - d.now) = max d.now t := by omega
  rw [Dev.timeTo, Dev.clockTo, ← hnow]
  rfl

theorem keeps_timeTo (d : Dev) (t : Nat) : Keeps [.tim] [] (d.clockTo t) (d.timeTo t) :=
  Keeps.ite (fun _ => (keeps_runEpochs _ _).trans (keeps_slewFor _ _)) fun _ => Keeps.refl _ _ _

theorem tim_placeSkps (d : Dev) : d.placeSkps.tim = d.tim := (skpsOnly_placeSkps d).keeps.2.1 .tim (by simp)

theorem tim_advance_of_stopped (d : Dev) (t : Nat) (h : d.tim.running = false ∨ d.flag F.CLK_STATUS_safe = true) :
    (d.advance t).tim = d.tim := by
  rw [Dev.advance_eq, tim_placeSkps, Dev.timeTo, if_neg (by rcases h with h | h <;> simp [h])]
  rfl

/-- While no slew is under way each epoch counter runs with the device clock, unless its plane has no clocks. -/
theorem tb_advance_of_settled (d : Dev) (t : Nat) (p : Plane) (hrun : d.tim.running = true) (hsafe : d.flag F.CLK_STATUS_safe = false)
    (ht : d.tim.timeSlew = 0) (hr : d.realigning = false) : (d.advance t).tb p = (d.tb p).run (d.clocksStopped p) (t - d.now) := by
  obtain ⟨n, hn⟩ := ((d.clockTo t).runEpochs (t - d.now)).slewFor_of_settled (t - d.now) ht
    (((d.clockTo t).realigning_runEpochs (t - d.now)).trans hr)
  rw [Dev.advance_eq, Dev.tb, tim_placeSkps, Dev.timeTo, if_pos (by simp [hrun, hsafe]), hn]
  exact (d.clockTo t).tb_runEpochs (t - d.now) p

/-- Settles O6: time moves the clock on, then the epoch counters and slews, and last lets the SKP words leave. -/
theorem timePasses : Obligations.TimePasses := by
  refine ⟨fun s t => ?_, fun s t h => tim_advance_of_stopped s.dev t h, fun s t p hrun hsafe ht hr => ?_⟩
  · have hskps := skpsOnly_placeSkps (s.dev.timeTo t)
    have htime := keeps_timeTo s.dev t
    rw [State.on, Dev.advance_eq]
    refine ⟨hskps.keeps.1.trans htime.1, (htime.append hskps.keeps).mono (by simp) (by simp), fun n => ?_, ?_⟩
    · rw [hskps.lane n, Dev.lane, htime.2.1 .lanes (by simp)]
      rfl
    · obtain ⟨l, hl, hall⟩ := hskps.emitted
      exact ⟨l, hl.trans (by rw [htime.2.1 .emitted (by simp)]; rfl), hall⟩
  · have htb : (s.on t).tb p = _ := tb_advance_of_settled s.dev t p hrun hsafe ht hr
    rw [htb]
    exact ⟨Timebase.run_epoch _ _ _, Timebase.run_buildout _ _ _⟩

end Sys2Proof.Machine
end

section
/-! SUPPORT. Fields of one register: which of them an update leaves, whatever it does to the others. -/

namespace Sys2Proof.Machine

/-- Two fields have no bit in common. -/
abbrev Field.Apart (f g : Field) : Prop := f.lo + f.width ≤ g.lo ∨ g.lo + g.width ≤ f.lo

/-- Of register `r` at index `i` no field changes that is apart from all of `fs`. -/
def FieldsOnly (r : RegName) (i : Nat) (fs : List Field) (d e : Dev) : Prop :=
  ∀ g : Field, g.reg = r → (∀ f ∈ fs, f.Apart g) → e.rd g i = d.rd g i

theorem FieldsOnly.refl (r : RegName) (i : Nat) (fs : List Field) (d : Dev) : FieldsOnly r i fs d d := fun _ _ _ => rfl

theorem FieldsOnly.trans {r : RegName} {i : Nat} {fs : List Field} {d e f : Dev} (h : FieldsOnly r i fs d e)
    (k : FieldsOnly r i fs e f) : FieldsOnly r i fs d f := fun g hg ha => (k g hg ha).trans (h g hg ha)

theorem FieldsOnly.mono {r : RegName} {i : Nat} {fs gs : List Field} {d e : Dev} (h : FieldsOnly r i fs d e) (hs : fs ⊆ gs) :
    FieldsOnly r i gs d e := fun g hg ha => h g hg fun f hf => ha f (hs hf)

theorem FieldsOnly.ite {r : RegName} {i : Nat} {fs : List Field} {d e f : Dev} {c : Prop} [Decidable c]
    (h : c → FieldsOnly r i fs d e) (k : ¬c → FieldsOnly r i fs d f) : FieldsOnly r i fs d (if c then e else f) := by
  split
  · exact h ‹_›
  · exact k ‹_›

theorem FieldsOnly.when {r : RegName} {i : Nat} {fs : List Field} {d : Dev} {b : Bool} {f : Dev → Dev}
    (h : b = true → FieldsOnly r i fs d (f d)) : FieldsOnly r i fs d (d.when b f) := by
  unfold Dev.when
  exact FieldsOnly.ite h fun _ => FieldsOnly.refl r i fs d

theorem FieldsOnly.each {α : Type} {r : RegName} {i : Nat} {fs : List Field} (xs : List α) {f : Dev → α → Dev}
    (h : ∀ d x, FieldsOnly r i fs d (f d x)) (d : Dev) : FieldsOnly r i fs d (d.each xs f) := by
  unfold Dev.each
  induction xs generalizing d with
  | nil => exact FieldsOnly.refl r i fs d
  | cons x xs ih => exact (h d x).trans (ih _)

/-- What keeps the register keeps its fields. -/
theorem Keeps.fields {as : List Area} {rs : List RegName} {d e : Dev} (h : Keeps as rs d e) {r : RegName} (i : Nat)
    (fs : List Field) (hr : r ∉ rs) : FieldsOnly r i fs d e := fun g hg _ => h.rd i (by rw [hg]; exact hr)

/-- A field written by the device leaves the other fields of its register. -/
theorem fieldsOnly_wr (d : Dev) (f : Field) (v i : Nat) (h : f.lo + f.width ≤ 32) : FieldsOnly f.reg i [f] d (d.wr f v i) :=
  fun g hg ha => Dev.rd_wr_field d f g v i hg h (ha f (by simp))

theorem fieldsOnly_raise (d : Dev) (f : Field) (i : Nat) (h : f.lo + f.width ≤ 32) : FieldsOnly f.reg i [f] d (d.raise f i) :=
  fun g hg ha => (d.rd_raise f g i i).trans (fieldsOnly_wr d f 1 i h g hg ha)

theorem fieldsOnly_put (d : Dev) (f : Field) (b : Bool) (i : Nat) (h : f.lo + f.width ≤ 32) : FieldsOnly f.reg i [f] d (d.put f b i) :=
  fieldsOnly_wr d f _ i h

theorem fieldsOnly_setBit (d : Dev) (f : Field) (k : Nat) (b : Bool) (i : Nat) (h : f.lo + f.width ≤ 32) :
    FieldsOnly f.reg i [f] d (d.setBit f k b i) := fieldsOnly_wr d f _ i h

theorem FieldsOnly.flag {r : RegName} {i : Nat} {fs : List Field} {d e : Dev} (h : FieldsOnly r i fs d e) (g : Field)
    (hg : g.reg = r) (ha : ∀ f ∈ fs, f.Apart g) : e.flag g i = d.flag g i := by rw [Dev.flag, Dev.flag, h g hg ha]

theorem FieldsOnly.bitAt {r : RegName} {i : Nat} {fs : List Field} {d e : Dev} (h : FieldsOnly r i fs d e) (g : Field) (k : Nat)
    (hg : g.reg = r) (ha : ∀ f ∈ fs, f.Apart g) : e.bitAt g k i = d.bitAt g k i := by rw [Dev.bitAt, Dev.bitAt, h g hg ha]

/-! ### What a written flag reads -/

theorem Dev.flag_put_self (d : Dev) (f : Field) (b : Bool) (i : Nat) (h : f.lo + f.width ≤ 32) (hw : f.width = 1) :
    (d.put f b i).flag f i = b := by
  rw [Dev.flag, Dev.put, Dev.rd_wr_fits d f _ i h (by rw [hw]; exact b2n_lt b)]
  cases b <;> rfl

theorem Dev.flag_raise_self (d : Dev) (f : Field) (i : Nat) (h : f.lo + f.width ≤ 32) (hw : f.width = 1) :
    (d.raise f i).flag f i = true := by
  rw [Dev.flag, Dev.rd_raise, Dev.rd_wr_fits d f 1 i h (by rw [hw]; decide)]
  rfl

/-- A register that stands is not noted in the journal. -/
theorem Dev.noteReg_of_same (d old : Dev) {r : RegName} {i : Nat} (h : d.reg r i = old.reg r i) : d.noteReg old r i = d := by
  unfold Dev.noteReg
  rw [if_neg (by simp [h])]

end Sys2Proof.Machine
end

section
/-! SUPPORT. Timing classes and snapshots (R48 to R50, R97, R443). -/

namespace Sys2Proof.Machine

/-! ### Clock outputs that follow their sources (R443) -/

/-- Between `d` and `e` nothing but how clock outputs are driven changes, and how each is to be driven stands. -/
structure CkoOnly (d e : Dev) : Prop where
  keeps : Keeps [.clk, .emitted] [] d e
  clk : e.clk = { d.clk with cko := e.clk.cko }
  drive : ∀ c, e.ckoDrive c = d.ckoDrive c

theorem CkoOnly.refl (d : Dev) : CkoOnly d d := ⟨Keeps.refl _ _ d, rfl, fun _ => rfl⟩

theorem CkoOnly.trans {d e f : Dev} (h : CkoOnly d e) (k : CkoOnly e f) : CkoOnly d f :=
  ⟨h.keeps.trans k.keeps, by rw [k.clk, h.clk], fun c => (k.drive c).trans (h.drive c)⟩

theorem ckoOnly_refreshCko (d : Dev) (c : Nat) : CkoOnly d (d.refreshCko c) where
  keeps := keeps_refreshCko [] d c (by simp) (by simp)
  clk := by unfold Dev.refreshCko; split <;> rfl
  drive k := by unfold Dev.refreshCko; split <;> rfl

theorem Dev.cko_refreshCko (d : Dev) (c k : Nat) :
    Tbl.get none (d.refreshCko c).clk.cko k = if k = c then d.ckoDrive c else Tbl.get none d.clk.cko k := by
  unfold Dev.refreshCko
  by_cases hk : k = c
  · subst hk
    split
    · next h => rw [if_pos rfl, h]
    · rw [if_pos rfl]; exact Tbl.get_set_self none d.clk.cko k _
  · rw [if_neg hk]
    split
    · rfl
    · exact Tbl.get_set_ne none none d.clk.cko _ hk

/-- Clock output `c` is a PULSE output of class `n` (Table 13-10). -/
def ClkUnit.pulses (u : ClkUnit) (n c : Nat) : Bool :=
  Tbl.get 0 u.ckoCfg c / 4 % 16 == 9 && pulseClass (Tbl.get 0 u.ckoCfg c) == some n

theorem ClkUnit.pulses_iff (u : ClkUnit) (n c : Nat) : u.pulses n c = true ↔
    Tbl.get 0 u.ckoCfg c / 4 % 16 = 9 ∧ bitOf (Tbl.get 0 u.ckoCfg c) 6 = true ∧ bits (Tbl.get 0 u.ckoCfg c) 10 7 = n := by
  unfold ClkUnit.pulses pulseClass
  cases bitOf (Tbl.get 0 u.ckoCfg c) 6 <;> simp

/-- A clock output follows its source where it is a PULSE output of class `n`. -/
def Dev.refreshPulse (d : Dev) (n c : Nat) : Dev := d.when (d.clk.pulses n c) fun d => d.refreshCko c

theorem ckoOnly_refreshPulse (d : Dev) (n c : Nat) : CkoOnly d (d.refreshPulse n c) := by
  unfold Dev.refreshPulse Dev.when
  split
  · exact ckoOnly_refreshCko d c
  · exact CkoOnly.refl d

theorem Dev.cko_refreshPulse (d : Dev) (n x c : Nat) : Tbl.get none (d.refreshPulse n x).clk.cko c =
    if c = x ∧ d.clk.pulses n c = true then d.ckoDrive c else Tbl.get none d.clk.cko c := by
  unfold Dev.refreshPulse Dev.when
  by_cases hc : c = x
  · subst hc
    cases d.clk.pulses n c <;> simp [Dev.cko_refreshCko]
  · cases d.clk.pulses n x <;> simp [Dev.cko_refreshCko, hc]

/-- The listed PULSE outputs of the class follow it, and no other output does. -/
theorem Dev.each_refreshPulse (n : Nat) (cs : List Nat) (d : Dev) :
    CkoOnly d (d.each cs fun d c => d.refreshPulse n c)
    ∧ (∀ c, Tbl.get none (d.each cs fun d c => d.refreshPulse n c).clk.cko c =
        if c ∈ cs ∧ d.clk.pulses n c = true then d.ckoDrive c else Tbl.get none d.clk.cko c)
    ∧ ((∀ c ∈ cs, d.clk.pulses n c = false) → (d.each cs fun d c => d.refreshPulse n c) = d) := by
  induction cs generalizing d with
  | nil => exact ⟨CkoOnly.refl d, by simp [Dev.each], fun _ => rfl⟩
  | cons x cs ih =>
    have hx := ckoOnly_refreshPulse d n x
    have hpulses (c : Nat) : (d.refreshPulse n x).clk.pulses n c = d.clk.pulses n c := by rw [hx.clk]; rfl
    obtain ⟨honly, hcko, hnone⟩ := ih (d.refreshPulse n x)
    refine ⟨hx.trans honly, fun c => (hcko c).trans ?_, fun h => (hnone fun c hc => ?_).trans ?_⟩
    · rw [hpulses, hx.drive, Dev.cko_refreshPulse]
      by_cases hcx : c = x
      · subst hcx
        cases d.clk.pulses n c <;> simp
      · simp [hcx]
    · rw [hpulses, h c (List.mem_cons_of_mem x hc)]
    · rw [Dev.refreshPulse, Dev.when, h x (by simp)]; rfl

/-! ### A write to a class (R48 to R50) -/

theorem exec_tbClassWrite (s : State) (t n : Nat) (val : Word) : exec (.tbClassWrite t n val) s =
    onDev (classOk n) t s fun d => (d.writeClass n val).noteReg d .TB_CLASS n := rfl

theorem classOk_of_lt {n : Nat} (h : n < 16) : classOk n = true := by simp [classOk, h]

theorem runs_tbClassWrite {s : State} {t n : Nat} {val : Word} {post : Dev → Prop} (hn : n < 16)
    (h : post (((s.on t).writeClass n val).noteReg (s.on t) .TB_CLASS n)) : Runs (.tbClassWrite t n val) s post :=
  Runs.of_onDev (exec_tbClassWrite s t n val) (classOk_of_lt hn) h

/-- Word `w` changes what may not change while class `n` is in use (R49). -/
def Dev.classAlters (d : Dev) (n : Nat) (w : Word) : Bool :=
  (F.TB_CLASS_enable.get (d.reg .TB_CLASS n) == 1 && F.TB_CLASS_enable.get w == 0)
    || F.TB_CLASS_rate.get (d.reg .TB_CLASS n) != F.TB_CLASS_rate.get w || F.TB_CLASS_scan.get (d.reg .TB_CLASS n) != F.TB_CLASS_scan.get w
    || F.TB_CLASS_lines.get (d.reg .TB_CLASS n) != F.TB_CLASS_lines.get w

/-- Class `n` holds word `w`, and its PULSE outputs follow it (R443). -/
def Dev.storeClass (d : Dev) (n : Nat) (w : Word) : Dev := (d.setReg .TB_CLASS n w).refreshPulses n

/-- The first frame of class `n` that starts a full frame period after now or later (R50). -/
def Dev.effectFrame (d : Dev) (n : Nat) : Nat :=
  ceilDiv (d.epoch * rateNum (d.clsRate n) + rateDen (d.clsRate n) * secU) (rateDen (d.clsRate n) * secU)

/-- Parameters of class `n` wait for the first frame start that lies a full frame period after now (R50). -/
def Dev.queueClass (d : Dev) (n params : Nat) : Dev :=
  let q := Tbl.get [] d.tim.clsPend n ++ [(frameStart (d.clsRate n) (d.effectFrame n), params)]
  { d with tim := { d.tim with clsPend := Tbl.set [] d.tim.clsPend n q } }

theorem Dev.writeClass_eq (d : Dev) (n : Nat) (val : Word) : d.writeClass n val =
    if !clsWordOk (val &&& 0x7FFFFFF#32) then d.raise F.TB_ERR_class_invalid
    else if d.classAlters n (val &&& 0x7FFFFFF#32) && d.clsInUse n then d.raise F.TB_ERR_class_in_use
    else if clsWordParams (val &&& 0x7FFFFFF#32) == clsWordParams (d.reg .TB_CLASS n) then d.storeClass n (val &&& 0x7FFFFFF#32)
    else (d.storeClass n (val &&& 0x7FFFFFF#32)).queueClass n (clsWordParams (val &&& 0x7FFFFFF#32)) := rfl

theorem Dev.classAlters_eq_true {d : Dev} {n : Nat} {w : Word}
    (h : F.TB_CLASS_rate.get (d.reg .TB_CLASS n) ≠ F.TB_CLASS_rate.get w
        ∨ F.TB_CLASS_scan.get (d.reg .TB_CLASS n) ≠ F.TB_CLASS_scan.get w
        ∨ F.TB_CLASS_lines.get (d.reg .TB_CLASS n) ≠ F.TB_CLASS_lines.get w
        ∨ (F.TB_CLASS_enable.get (d.reg .TB_CLASS n) = 1 ∧ F.TB_CLASS_enable.get w = 0)) : d.classAlters n w = true := by
  rcases h with h | h | h | h <;> simp [Dev.classAlters, h]

theorem Dev.classAlters_eq_false {d : Dev} {n : Nat} {w : Word}
    (h : F.TB_CLASS_rate.get (d.reg .TB_CLASS n) = F.TB_CLASS_rate.get w
        ∧ F.TB_CLASS_scan.get (d.reg .TB_CLASS n) = F.TB_CLASS_scan.get w
        ∧ F.TB_CLASS_lines.get (d.reg .TB_CLASS n) = F.TB_CLASS_lines.get w
        ∧ (F.TB_CLASS_enable.get (d.reg .TB_CLASS n) = 0 ∨ F.TB_CLASS_enable.get w = 1)) : d.classAlters n w = false := by
  obtain ⟨hrate, hscan, hlines, hen | hen⟩ := h <;> simp [Dev.classAlters, hrate, hscan, hlines, hen]

/-- A status bit of TB_ERR that a refused word sets (R48, R49). -/
theorem runs_tbClassWrite_refused {s : State} {t n : Nat} {val : Word} {f : Field} (hn : n < 16) (hf : f.reg = .TB_ERR)
    (hw : f.width = 1) (hl : f.lo + f.width ≤ 32) (h : (s.on t).writeClass n val = (s.on t).raise f) :
    Runs (.tbClassWrite t n val) s fun d' => d'.flag f = true ∧ FieldsOnly .TB_ERR 0 [f] (s.on t) d'
      ∧ d'.reg .TB_CLASS n = (s.on t).reg .TB_CLASS n ∧ Keeps [] [.TB_ERR] (s.on t) d' := by
  have hk : Keeps [] [.TB_ERR] (s.on t) ((s.on t).raise f) := keeps_raise [] _ 0 (by simp [hf])
  have hreg := hk.2.2 .TB_CLASS n (by decide)
  refine runs_tbClassWrite hn ?_
  rw [h, Dev.noteReg_of_same _ _ hreg]
  exact ⟨Dev.flag_raise_self _ f 0 hl hw, hf ▸ fieldsOnly_raise _ f 0 hl, hreg, hk⟩

theorem keeps_storeClass (d : Dev) (n : Nat) (w : Word) : Keeps [.clk, .emitted] [.TB_CLASS] d (d.storeClass n w) :=
  (keeps_setReg _ d n w (by simp)).trans (((Dev.each_refreshPulse n _ _).1.keeps).mono (List.Subset.refl _) (by simp))

theorem Dev.reg_storeClass (d : Dev) (n : Nat) (w : Word) (i : Nat) :
    (d.storeClass n w).reg .TB_CLASS i = (d.setReg .TB_CLASS n w).reg .TB_CLASS i :=
  (Dev.each_refreshPulse n (List.range 8) (d.setReg .TB_CLASS n w)).1.keeps.2.2 .TB_CLASS i (by simp)

theorem keeps_queueClass (d : Dev) (n params : Nat) : Keeps [.tim] [] d (d.queueClass n params) := keeps_tim _ d _ (by simp)

theorem Dev.clsPend_queueClass (d : Dev) (n params : Nat) : Tbl.get [] (d.queueClass n params).tim.clsPend n =
    Tbl.get [] d.tim.clsPend n ++ [(frameStart (d.clsRate n) (d.effectFrame n), params)] := Tbl.get_set_self [] _ n _

theorem Dev.clsPend_queueClass_ne (d : Dev) {n m : Nat} (params : Nat) (h : m ≠ n) :
    Tbl.get [] (d.queueClass n params).tim.clsPend m = Tbl.get [] d.tim.clsPend m := Tbl.get_set_ne [] [] _ _ h

theorem ceilDiv_bounds (a : Nat) {b : Nat} (h : 0 < b) : a ≤ ceilDiv a b * b ∧ ceilDiv a b * b < a + b := by
  have hdiv := Nat.div_add_mod (a + b - 1) b
  have hmod := Nat.mod_lt (a + b - 1) h
  have hcomm := Nat.mul_comm b ((a + b - 1) / b)
  unfold ceilDiv
  omega

theorem rateDen_pos (r : Nat) : 0 < rateDen r := by unfold rateDen; split <;> omega

/-- The frame whose start parameters wait for starts a full frame period after now, and less than two. -/
theorem Dev.effectFrame_bounds (d : Dev) (n : Nat) :
    d.epoch * rateNum (d.clsRate n) + rateDen (d.clsRate n) * secU ≤ d.effectFrame n * (rateDen (d.clsRate n) * secU)
    ∧ d.effectFrame n * (rateDen (d.clsRate n) * secU) < d.epoch * rateNum (d.clsRate n) + 2 * (rateDen (d.clsRate n) * secU) := by
  have hpos : 0 < rateDen (d.clsRate n) * secU := Nat.mul_pos (rateDen_pos _) (by decide)
  obtain ⟨hlow, hhigh⟩ := ceilDiv_bounds (d.epoch * rateNum (d.clsRate n) + rateDen (d.clsRate n) * secU) hpos
  unfold Dev.effectFrame
  exact ⟨hlow, by omega⟩

theorem Dev.refreshPulses_follow (d : Dev) (n : Nat) : CkoOnly d (d.refreshPulses n)
    ∧ (∀ c, c < 8 → d.clk.pulses n c = true → Tbl.get none (d.refreshPulses n).clk.cko c = d.ckoDrive c)
    ∧ ((∀ c, c < 8 → d.clk.pulses n c = false) → d.refreshPulses n = d) := by
  obtain ⟨honly, hcko, hnone⟩ := Dev.each_refreshPulse n (List.range 8) d
  exact ⟨honly, fun c hc hp => (hcko c).trans (if_pos ⟨by simpa using hc, hp⟩), fun h => hnone fun c hc => h c (by simpa using hc)⟩

/-- The class's parameters that a word changes wait for their frame start. -/
def Dev.takeClass (d : Dev) (n : Nat) (w : Word) : Dev :=
  if clsWordParams w = clsWordParams (d.reg .TB_CLASS n) then d.storeClass n w
  else (d.storeClass n w).queueClass n (clsWordParams w)

/-- A word that is taken, in the register and in what waits (R48 to R50). -/
theorem Dev.takeClass_shows (d : Dev) {n : Nat} (w : Word) (hn : n < 16) :
    (d.takeClass n w).reg .TB_CLASS n = w ∧ KeepsOthers .TB_CLASS n d (d.takeClass n w)
    ∧ (d.takeClass n w).tim.clsNow = d.tim.clsNow
    ∧ (∀ m, m ≠ n → Tbl.get [] (d.takeClass n w).tim.clsPend m = Tbl.get [] d.tim.clsPend m)
    ∧ (clsWordParams w ≠ clsWordParams (d.reg .TB_CLASS n) → Tbl.get [] (d.takeClass n w).tim.clsPend n =
        Tbl.get [] d.tim.clsPend n ++ [(frameStart ((d.storeClass n w).clsRate n) ((d.storeClass n w).effectFrame n), clsWordParams w)])
    ∧ (d.takeClass n w).clsRate n = (d.storeClass n w).clsRate n := by
  have htim : (d.storeClass n w).tim = d.tim := (keeps_storeClass d n w).2.1 .tim (by simp)
  have hreg : (d.storeClass n w).reg .TB_CLASS n = w := by rw [Dev.reg_storeClass, Dev.reg_setReg_self]
  have hothers : KeepsOthers .TB_CLASS n d (d.storeClass n w) := fun i hi hne => by
    rw [Dev.reg_storeClass, Dev.reg_setReg_inst _ _ _ (by omega) hi hne]
  unfold Dev.takeClass
  split
  · next h => exact ⟨hreg, hothers, by rw [htim], fun m _ => by rw [htim], fun hne => absurd h hne, rfl⟩
  · have hq := keeps_queueClass (d.storeClass n w) n (clsWordParams w)
    refine ⟨(hq.2.2 _ _ (by simp)).trans hreg, fun i hi hne => (hq.2.2 _ _ (by simp)).trans (hothers i hi hne), ?_, fun m hm => ?_,
      fun _ => ?_, rfl⟩
    · rw [Dev.queueClass, htim]
    · rw [Dev.clsPend_queueClass_ne _ _ hm, htim]
    · rw [Dev.clsPend_queueClass, htim]

/-- The PULSE outputs of the class follow the word, and where it has none no output changes (R443). -/
theorem Dev.takeClass_outputs (d : Dev) (n : Nat) (w : Word) :
    (∀ c, c < 8 → d.clk.pulses n c = true → Tbl.get none (d.takeClass n w).clk.cko c = (d.takeClass n w).ckoDrive c)
    ∧ ((∀ c, c < 8 → d.clk.pulses n c = false) → (d.takeClass n w).clk = d.clk ∧ (d.takeClass n w).emitted = d.emitted)
    ∧ Keeps [.tim, .clk, .emitted] [.TB_CLASS] d (d.takeClass n w) := by
  obtain ⟨honly, hfollow, hnone⟩ := (d.setReg .TB_CLASS n w).refreshPulses_follow n
  have hclk : (d.takeClass n w).clk = (d.storeClass n w).clk := by unfold Dev.takeClass; split <;> rfl
  have hdrive (c : Nat) : (d.takeClass n w).ckoDrive c = (d.storeClass n w).ckoDrive c := by unfold Dev.takeClass; split <;> rfl
  have hemitted : (d.takeClass n w).emitted = (d.storeClass n w).emitted := by unfold Dev.takeClass; split <;> rfl
  refine ⟨fun c hc hp => ?_, fun h => ?_, ?_⟩
  · rw [hclk, hdrive]
    exact (hfollow c hc hp).trans (honly.drive c).symm
  · have hstore : d.storeClass n w = d.setReg .TB_CLASS n w := hnone h
    rw [hclk, hemitted, hstore]
    exact ⟨rfl, rfl⟩
  · have hstore : Keeps [.tim, .clk, .emitted] [.TB_CLASS] d (d.storeClass n w) :=
      (keeps_storeClass d n w).mono (by simp) (List.Subset.refl _)
    exact Keeps.ite (fun _ => hstore) fun _ => hstore.trans ((keeps_queueClass _ _ _).mono (by simp) (by simp))

theorem runs_tbClassWrite_taken {s : State} {t n : Nat} {val : Word} (hn : n < 16) (hok : clsWordOk (val &&& 0x7FFFFFF#32) = true)
    (hfree : ((s.on t).classAlters n (val &&& 0x7FFFFFF#32) && (s.on t).clsInUse n) = false) :
    Runs (.tbClassWrite t n val) s fun d' => ∃ l, d' = { (s.on t).takeClass n (val &&& 0x7FFFFFF#32) with ldr := l } := by
  refine runs_tbClassWrite hn ?_
  have htake : (s.on t).writeClass n val = (s.on t).takeClass n (val &&& 0x7FFFFFF#32) := by
    rw [Dev.writeClass_eq, hok, hfree]
    simp only [Bool.not_true, Bool.false_eq_true, if_false, beq_iff_eq, Dev.takeClass]
  rw [htake]
  exact Dev.noteReg_eq_ldr _ _ _ _

/-! ### Parameters take effect (R50) -/

theorem exec_classParamTakeEffect (s : State) (t n : Nat) : exec (.classParamTakeEffect t n) s =
    onDev (classOk n) t s fun d => d.classEffect n := rfl

/-- The first change that waits has come, and no other. -/
theorem Dev.classEffect_first (d : Dev) {n a v : Nat} {l : List (Nat × Nat)} (hq : Tbl.get [] d.tim.clsPend n = (a, v) :: l)
    (ha : a ≤ d.epoch) (hl : l.all (fun x => decide (d.epoch < x.1)) = true) : d.classEffect n =
      { d with tim := { d.tim with clsPend := Tbl.set [] d.tim.clsPend n l, clsNow := Tbl.set 0 d.tim.clsNow n v } } := by
  have hlate : ∀ x ∈ l, d.epoch < x.1 := fun x hx => by simpa using List.all_eq_true.mp hl x hx
  have hcome : l.filter (fun x => decide (x.1 ≤ d.epoch)) = [] :=
    List.filter_eq_nil_iff.mpr fun x hx => by simpa using hlate x hx
  have hwait : l.filter (fun x => decide (d.epoch < x.1)) = l :=
    List.filter_eq_self.mpr fun x hx => by simpa using hlate x hx
  have hna : ¬d.epoch < a := by omega
  simp [Dev.classEffect, hq, ha, hcome, hwait, hna]

/-! ### Snapshots (R97) -/

theorem exec_tbSnapA (s : State) (t : Nat) : exec (.tbSnapA t) s = onDev true t s fun d => d.snapshot .a := rfl

theorem exec_tbSnapB (s : State) (t : Nat) (both : Bool) : exec (.tbSnapB t both) s =
    onDev true t s fun d => d.snapshot (if both then .a else .b) := rfl

/-- The snapshot registers hold the parts of an epoch counter. -/
theorem Dev.snapshot_shows (d : Dev) (p : Plane) :
    (d.snapshot p).rd F.TB_SNAP_SEC_LO_sec_lo = (d.tb p).epoch / secU % 2 ^ 32
    ∧ (d.snapshot p).rd F.TB_SNAP_SEC_HI_sec_hi = (d.tb p).epoch / secU / 2 ^ 32 % 2 ^ 16
    ∧ (d.snapshot p).rd F.TB_SNAP_NS_ns = (d.tb p).epoch / nsU % 1000000000
    ∧ (d.snapshot p).rd F.TB_SNAP_FRAC_frac = (d.tb p).epoch % 65536
    ∧ Keeps [] [.TB_SNAP_SEC_LO, .TB_SNAP_SEC_HI, .TB_SNAP_NS, .TB_SNAP_FRAC] d (d.snapshot p) := by
  have hns : (d.tb p).epoch / nsU % 1000000000 < 2 ^ F.TB_SNAP_NS_ns.width := Nat.lt_trans (Nat.mod_lt _ (by decide)) (by decide)
  unfold Dev.snapshot
  dsimp only
  refine ⟨?_, ?_, ?_, ?_, ?_⟩
  · rw [Dev.rd_wr_name _ _ _ _ _ _ (by decide), Dev.rd_wr_name _ _ _ _ _ _ (by decide), Dev.rd_wr_name _ _ _ _ _ _ (by decide),
      Dev.rd_wr_self _ _ _ _ (by decide)]
    exact Nat.mod_mod _ _
  · rw [Dev.rd_wr_name _ _ _ _ _ _ (by decide), Dev.rd_wr_name _ _ _ _ _ _ (by decide), Dev.rd_wr_self _ _ _ _ (by decide)]
    rfl
  · rw [Dev.rd_wr_name _ _ _ _ _ _ (by decide), Dev.rd_wr_fits _ _ _ _ (by decide) hns]
  · rw [Dev.rd_wr_self _ _ _ _ (by decide)]
    exact Nat.mod_mod _ _
  · exact (((keeps_wr _ _ _ _ (by decide)).trans (keeps_wr _ _ _ _ (by decide))).trans (keeps_wr _ _ _ _ (by decide))).trans
      (keeps_wr _ _ _ _ (by decide))

/-! ### The obligation -/

/-- Settles O12: a class word is refused for its form or for the class's use, or taken; a change that has come takes effect; and a
snapshot holds the counter's parts. -/
theorem classesAndSnapshots : Obligations.ClassesAndSnapshots := by
  refine ⟨?invalid, ?inUse, ?taken, ?effect, ?snapA, ?snapB⟩
  case invalid =>
    rintro s t n val _ rfl hn hbad
    refine (runs_tbClassWrite_refused (f := F.TB_ERR_class_invalid) hn rfl rfl (by decide) ?_).mono ?_
    · rw [Dev.writeClass_eq, hbad]
      rfl
    · rintro d' ⟨hflag, hfields, hreg, hkeeps⟩
      exact ⟨hflag, hfields.flag _ rfl (by decide), hreg, hkeeps⟩
  case inUse =>
    rintro s t n val _ _ rfl hn rfl hok huse halters
    refine (runs_tbClassWrite_refused (f := F.TB_ERR_class_in_use) hn rfl rfl (by decide) ?_).mono ?_
    · rw [Dev.writeClass_eq, hok, Dev.classAlters_eq_true halters, huse]
      rfl
    · rintro d' ⟨hflag, -, hreg, hkeeps⟩
      exact ⟨hflag, hreg, hkeeps⟩
  case taken =>
    rintro s t n val _ _ rfl hn rfl hok hfree
    have hfree' : ((s.on t).classAlters n (val &&& 0x7FFFFFF#32) && (s.on t).clsInUse n) = false := by
      rcases hfree with h | h
      · rw [h, Bool.and_false]
      · rw [Dev.classAlters_eq_false h, Bool.false_and]
    refine (runs_tbClassWrite_taken hn hok hfree').mono ?_
    rintro _ ⟨l, rfl⟩
    obtain ⟨hreg, hothers, hnow, hpend, hqueued, hrate⟩ := (s.on t).takeClass_shows (val &&& 0x7FFFFFF#32) hn
    obtain ⟨hfollow, hstill, hkeeps⟩ := (s.on t).takeClass_outputs n (val &&& 0x7FFFFFF#32)
    have hepoch : ((s.on t).storeClass n (val &&& 0x7FFFFFF#32)).epoch = (s.on t).epoch := by
      have hk := keeps_storeClass (s.on t) n (val &&& 0x7FFFFFF#32)
      rw [Dev.epoch, Dev.epoch, Dev.lead, Dev.lead, hk.rd _ (by decide), Dev.tb, Dev.tb, hk.2.1 .tim (by simp)]
    refine ⟨hreg, hothers, hnow, hpend, fun hne => ?_, fun c hc hp => ?_, fun h => ?_, ?_⟩
    · have hbounds := ((s.on t).storeClass n (val &&& 0x7FFFFFF#32)).effectFrame_bounds n
      rw [hepoch, ← hrate] at hbounds
      exact ⟨_, (hqueued hne).trans (by rw [← hrate]; rfl), hbounds⟩
    · exact hfollow c hc (((s.on t).clk.pulses_iff n c).mpr hp)
    · refine hstill fun c hc => ?_
      have hnot := h c hc
      by_contra hp
      obtain ⟨hsrc, hcls, hbits⟩ := ((s.on t).clk.pulses_iff n c).mp (by simpa using hp)
      rcases hnot with h | h | h
      · exact h hsrc
      · rw [hcls] at h; cases h
      · exact h hbits
    · exact (hkeeps.mono (by simp) (List.Subset.refl _)).trans (keeps_ldr _ _ l (by simp))
  case effect =>
    rintro s t n a v l _ rfl hn hq ha hl
    refine Runs.of_onDev (exec_classParamTakeEffect s t n) (classOk_of_lt hn) ?_
    rw [Dev.classEffect_first _ hq ha hl]
    exact ⟨Tbl.get_set_self 0 _ n v, Tbl.get_set_self [] _ n l,
      fun m hm => ⟨Tbl.get_set_ne 0 0 _ v hm, Tbl.get_set_ne [] [] _ l hm⟩, keeps_tim _ _ _ (by simp)⟩
  case snapA =>
    rintro s t _ rfl
    exact Runs.of_onDev (exec_tbSnapA s t) rfl ((s.on t).snapshot_shows .a)
  case snapB =>
    rintro s t both _ rfl
    exact Runs.of_onDev (exec_tbSnapB s t both) rfl ((s.on t).snapshot_shows _)

end Sys2Proof.Machine
end

section
/-! SUPPORT. What a timebase's new state leaves: the other fields of TB_STATUS, and all of the clock unit but how pins and clock
outputs are driven (Table 2-5, R443, R445). -/

namespace Sys2Proof.Machine

/-! ### The clock unit beside its pins -/

/-- Of the clock unit nothing changes but how the lock pins and the clock outputs are driven. -/
def OnlyPins (u v : ClkUnit) : Prop := v = { u with lockE := v.lockE, pins := v.pins, cko := v.cko }

theorem OnlyPins.refl (u : ClkUnit) : OnlyPins u u := rfl

theorem OnlyPins.trans {u v w : ClkUnit} (h : OnlyPins u v) (k : OnlyPins v w) : OnlyPins u w := by
  unfold OnlyPins at *
  rw [k, h]

theorem onlyPins_refreshPin (d : Dev) (p : Plane) : OnlyPins d.clk (d.refreshPin p).clk := by
  rw [Dev.refreshPin_clk]; rfl

theorem onlyPins_refreshCko (d : Dev) (c : Nat) : OnlyPins d.clk (d.refreshCko c).clk := by
  rw [OnlyPins, (ckoOnly_refreshCko d c).clk]

theorem OnlyPins.each {α : Type} (xs : List α) {f : Dev → α → Dev} (h : ∀ d x, OnlyPins d.clk (f d x).clk) (d : Dev) :
    OnlyPins d.clk (d.each xs f).clk := by
  unfold Dev.each
  induction xs generalizing d with
  | nil => exact OnlyPins.refl _
  | cons x xs ih => exact (h d x).trans (ih _)

theorem onlyPins_refreshPins (d : Dev) : OnlyPins d.clk d.refreshPins.clk := by
  unfold Dev.refreshPins
  refine OnlyPins.trans ?_ (OnlyPins.each _ onlyPins_refreshCko _)
  refine OnlyPins.trans ?_ (onlyPins_refreshPin _ .b)
  refine OnlyPins.trans ?_ (onlyPins_refreshPin _ .a)
  rfl

/-- What keeps the clock unit keeps it beside its pins. -/
theorem Keeps.onlyPins {as : List Area} {rs : List RegName} {d e : Dev} (h : Keeps as rs d e) (ha : Area.clk ∉ as) :
    OnlyPins d.clk e.clk := by rw [h.2.1 .clk ha]; exact OnlyPins.refl _

/-! ### The state of a timebase -/

/-- The field of TB_STATUS with the state of a timebase. -/
def tbField : Plane → Field
  | .a => F.TB_STATUS_state_a
  | .b => F.TB_STATUS_state_b

@[simp] theorem tbField_reg (p : Plane) : (tbField p).reg = .TB_STATUS := by cases p <;> rfl

theorem tbField_fits (p : Plane) : (tbField p).lo + (tbField p).width ≤ 32 := by cases p <;> decide

theorem Dev.tbState_eq (d : Dev) (p : Plane) : d.tbState p = d.rd (tbField p) := by cases p <;> rfl

theorem Dev.setTbState_eq (d : Dev) (p : Plane) (v : Nat) : d.setTbState p v = d.wr (tbField p) v := by cases p <;> rfl

theorem FieldsOnly.tbState {fs : List Field} {d e : Dev} (h : FieldsOnly .TB_STATUS 0 fs d e) (p : Plane)
    (ha : ∀ f ∈ fs, f.Apart (tbField p)) : e.tbState p = d.tbState p := by
  rw [Dev.tbState_eq, Dev.tbState_eq, h _ (tbField_reg p) ha]

theorem FieldsOnly.lead {fs : List Field} {d e : Dev} (h : FieldsOnly .TB_STATUS 0 fs d e) (ha : ∀ f ∈ fs, f.Apart F.TB_STATUS_lead) :
    e.lead = d.lead := by rw [Dev.lead, Dev.lead, h _ rfl ha]

/-- What follows the state's field in `setTb`. -/
theorem keeps_setTb_wr (d : Dev) (p : Plane) (v parent : Nat) :
    Keeps (.clk :: evAreas) (.CLK_STATUS :: evRegs) (d.setTbState p v) (d.setTb p v parent) := by
  rw [Dev.setTb_eq]
  have coast := (evOnly_noteTb (d.setTbState p v) p (d.tbState p) v parent).append (keeps_refreshCoast _)
  exact (coast.mono (by simp) (by simp)).trans (keeps_refreshPins _ _ (by simp) (by decide))

theorem fieldsOnly_setTb (d : Dev) (p : Plane) (v parent : Nat) : FieldsOnly .TB_STATUS 0 [tbField p] d (d.setTb p v parent) := by
  have hwr := fieldsOnly_wr d (tbField p) v 0 (tbField_fits p)
  rw [tbField_reg, ← Dev.setTbState_eq] at hwr
  exact hwr.trans ((keeps_setTb_wr d p v parent).fields 0 _ (by decide))

theorem Dev.tbState_setTb (d : Dev) (p : Plane) {v : Nat} (parent : Nat) (h : v < 8) : (d.setTb p v parent).tbState p = v := by
  rw [Dev.tbState_eq, (keeps_setTb_wr d p v parent).rd 0 (by rw [tbField_reg]; decide), Dev.setTbState_eq,
    Dev.rd_wr_fits _ _ _ _ (tbField_fits p) (by cases p <;> exact h)]

theorem Dev.tim_setTb (d : Dev) (p : Plane) (v parent : Nat) : (d.setTb p v parent).tim = d.tim :=
  (keeps_setTb d p v parent).2.1 .tim (by decide)

theorem onlyPins_setTb (d : Dev) (p : Plane) (v parent : Nat) : OnlyPins d.clk (d.setTb p v parent).clk := by
  rw [Dev.setTb_eq]
  have hbefore : Keeps evAreas (.TB_STATUS :: .CLK_STATUS :: evRegs) d ((d.setTbState p v).noteTb p (d.tbState p) v parent).refreshCoast :=
    (((keeps_setTbState [] d p v).append (evOnly_noteTb _ p (d.tbState p) v parent)).append (keeps_refreshCoast _)).mono (by simp) (by simp)
  exact (hbefore.onlyPins (by decide)).trans (onlyPins_refreshPins _)

/-! ### The lead's DPLL takes a selection (R62, R81, R82, R86, R91) -/

/-- The lead's DPLL takes `x` as the selected input and enters state `v`: what stays. -/
structure LeadTakes (d e : Dev) (x v : Nat) : Prop where
  keeps : Keeps selAreas selRegs d e
  fields : FieldsOnly .TB_STATUS 0 [F.TB_STATUS_sel, tbField d.lead, F.TB_STATUS_time_valid] d e
  sel : e.rd F.TB_STATUS_sel = x
  state : e.tbState d.lead = v
  tim : ∃ tbs ever jump off, e.tim = { d.tim with tb := tbs, everSel := ever, jumpOpen := jump, refvOff := off }
  clk : OnlyPins d.clk e.clk

/-- SWITCH: the selected input changes, and is noted (Table 12-4). -/
theorem keeps_noteSel (d : Dev) (x : Nat) : Keeps evAreas (.TB_STATUS :: evRegs) d (d.noteSel x) := by
  unfold Dev.noteSel
  refine Keeps.ite (fun _ => Keeps.refl _ _ d) fun _ => ?_
  exact (keeps_wr _ d _ _ (by simp [F.TB_STATUS_sel])).trans ((evOnly_occur _ _ _ _ _ _ _).mono (List.Subset.refl _) (by simp))

theorem fieldsOnly_noteSel (d : Dev) (x : Nat) : FieldsOnly .TB_STATUS 0 [F.TB_STATUS_sel] d (d.noteSel x) := by
  unfold Dev.noteSel
  refine FieldsOnly.ite (fun _ => FieldsOnly.refl _ _ _ d) fun _ => ?_
  exact (fieldsOnly_wr d F.TB_STATUS_sel x 0 (by decide)).trans ((evOnly_occur _ _ _ _ _ _ _).fields 0 _ (by decide))

theorem Dev.sel_noteSel (d : Dev) {x : Nat} (h : x < 8) : (d.noteSel x).rd F.TB_STATUS_sel = x := by
  unfold Dev.noteSel
  dsimp only
  split
  · next heq => exact beq_iff_eq.mp heq
  · rw [(evOnly_occur _ _ _ _ _ _ _).rd 0 (by decide), Dev.rd_wr_fits _ _ _ _ (by decide) h]

/-- The frozen control value: of the timing unit only the timebase changes, and no epoch counter (R64). -/
theorem Dev.freeze_tim (d : Dev) (p : Plane) : ∃ tbs, (d.freeze p).tim = { d.tim with tb := tbs } := ⟨_, rfl⟩

theorem keeps_freeze (d : Dev) (p : Plane) : Keeps [.tim] [] d (d.freeze p) := keeps_modTb _ d p _ (by simp)

theorem Dev.epoch_freeze (d : Dev) (p q : Plane) : ((d.freeze p).tb q).epoch = (d.tb q).epoch := by cases p <;> cases q <;> rfl

/-- The parts that a new grid moves (R92, R95). -/
theorem keeps_regrid {as : List Area} (rs : List RegName) (d : Dev) (z : Int) (ho : Area.outs ∈ as) (hs : Area.svr ∈ as)
    (hi : Area.ins ∈ as) (hp : Area.planes ∈ as) : Keeps as rs d (d.regrid z) :=
  Keeps.of_same rfl rfl fun a ha => by
    cases a <;> first | exact absurd ho ha | exact absurd hs ha | exact absurd hi ha | exact absurd hp ha | rfl | exact ⟨rfl, rfl⟩

/-- The start jump before the new grid is taken: both epoch counters at `u`, and the jump noted. -/
def Dev.epochsAt (d : Dev) (u : Nat) : Dev :=
  let e := (d.modTb .a fun t => { t with epoch := u }).modTb .b fun t => { t with epoch := u }
  (e.raise F.TB_STATUS_time_valid).occur (evTb e.lead) 0x4D

/-- No start jump may be taken any more, and REFV's phase moves by `z`. -/
def Dev.jumpDone (d : Dev) (z : Int) : Dev :=
  { d with tim := { d.tim with jumpOpen := false, refvOff := d.tim.refvOff.map (· - z) } }

theorem Dev.startJump_eq (d : Dev) (u : Nat) : d.startJump u =
    ((d.epochsAt u).jumpDone ((u : Int) - (d.epoch : Int))).regrid ((u : Int) - (d.epoch : Int)) := by
  simp only [Dev.startJump, Dev.epochsAt, Dev.jumpDone]

theorem keeps_epochsAt (d : Dev) (u : Nat) : Keeps (.tim :: evAreas) (.TB_STATUS :: evRegs) d (d.epochsAt u) := by
  unfold Dev.epochsAt
  refine Keeps.trans ?_ ((evOnly_occur _ _ _ _ _ _ _).mono (by simp) (by simp))
  refine Keeps.trans ?_ (keeps_raise _ _ 0 (by simp [F.TB_STATUS_time_valid]))
  exact (keeps_modTb _ _ _ _ (by simp)).trans (keeps_modTb _ _ _ _ (by simp))

theorem fieldsOnly_epochsAt (d : Dev) (u : Nat) : FieldsOnly .TB_STATUS 0 [F.TB_STATUS_time_valid] d (d.epochsAt u) := by
  unfold Dev.epochsAt
  refine FieldsOnly.trans ?_ ((evOnly_occur _ _ _ _ _ _ _).fields 0 _ (by decide))
  refine FieldsOnly.trans ?_ (fieldsOnly_raise _ F.TB_STATUS_time_valid 0 (by decide))
  exact ((keeps_modTb (as := [.tim]) [] _ _ _ (by simp)).trans (keeps_modTb _ _ _ _ (by simp))).fields 0 _ (by simp)

theorem Dev.tim_epochsAt (d : Dev) (u : Nat) : (d.epochsAt u).tim =
    ((d.modTb .a fun t => { t with epoch := u }).modTb .b fun t => { t with epoch := u }).tim := by
  unfold Dev.epochsAt
  exact (evOnly_occur _ _ _ _ _ _ _).2.1 .tim (by decide)

theorem Dev.flag_epochsAt (d : Dev) (u : Nat) : (d.epochsAt u).flag F.TB_STATUS_time_valid = true := by
  unfold Dev.epochsAt
  rw [(evOnly_occur _ _ _ _ _ _ _).flag 0 (by decide), Dev.flag_raise_self _ _ _ (by decide) rfl]

/-- What follows the counters' jump changes no register. -/
theorem keeps_startJump_grid (d : Dev) (u : Nat) : Keeps [.svr, .tim, .outs, .ins, .planes] [] (d.epochsAt u) (d.startJump u) := by
  rw [Dev.startJump_eq]
  exact (keeps_tim _ _ _ (by simp)).trans (keeps_regrid _ _ _ (by simp) (by simp) (by simp) (by simp))

theorem keeps_startJump (d : Dev) (u : Nat) :
    Keeps (.svr :: .tim :: .outs :: .ins :: .planes :: evAreas) (.TB_STATUS :: evRegs) d (d.startJump u) :=
  ((keeps_epochsAt d u).mono (by decide) (List.Subset.refl _)).trans ((keeps_startJump_grid d u).mono (by decide) (by decide))

theorem fieldsOnly_startJump (d : Dev) (u : Nat) : FieldsOnly .TB_STATUS 0 [F.TB_STATUS_time_valid] d (d.startJump u) :=
  (fieldsOnly_epochsAt d u).trans ((keeps_startJump_grid d u).fields 0 _ (by simp))

theorem Dev.flag_startJump (d : Dev) (u : Nat) : (d.startJump u).flag F.TB_STATUS_time_valid = true := by
  rw [(keeps_startJump_grid d u).flag 0 (by simp), Dev.flag_epochsAt]

theorem Dev.startJump_tim (d : Dev) (u : Nat) : ∃ off, (d.startJump u).tim =
    { ((d.modTb .a fun t => { t with epoch := u }).modTb .b fun t => { t with epoch := u }).tim with jumpOpen := false, refvOff := off } := by
  have hgrid := keeps_regrid (as := [.outs, .svr, .ins, .planes]) [] ((d.epochsAt u).jumpDone ((u : Int) - (d.epoch : Int)))
    ((u : Int) - (d.epoch : Int)) (by simp) (by simp) (by simp) (by simp)
  refine ⟨(d.epochsAt u).tim.refvOff.map (· - ((u : Int) - (d.epoch : Int))), ?_⟩
  rw [Dev.startJump_eq, hgrid.2.1 .tim (by simp), Dev.jumpDone, ← Dev.tim_epochsAt]

theorem Dev.everSel_startJump (d : Dev) (u : Nat) : (d.startJump u).tim.everSel = d.tim.everSel := by
  obtain ⟨off, hoff⟩ := d.startJump_tim u
  rw [hoff]
  rfl

theorem Dev.epoch_startJump (d : Dev) (u : Nat) (p : Plane) : ((d.startJump u).tb p).epoch = u := by
  obtain ⟨off, hoff⟩ := d.startJump_tim u
  rw [Dev.tb, hoff]
  cases p <;> rfl

/-- SWITCHING on a new selection, before the start jump (R81, R82). -/
def Dev.switchTo (d : Dev) (x : Nat) : Dev :=
  let e := (d.noteSel x).freeze d.lead
  { e with tim := { e.tim with everSel := true } }.setTb d.lead 3

/-- A selection switches, and may make the start jump (R81, R91). -/
theorem Dev.select_cases (d : Dev) (x src : Nat) : d.select x src = d.switchTo x ∨ ∃ u, d.select x src = (d.switchTo x).startJump u := by
  unfold Dev.select
  dsimp only
  split
  · exact .inr ⟨_, rfl⟩
  · exact .inl rfl

theorem LeadTakes.startJump {d e : Dev} {x v : Nat} (h : LeadTakes d e x v) (u : Nat) : LeadTakes d (e.startJump u) x v where
  keeps := h.keeps.trans ((keeps_startJump e u).mono (by decide) (by decide))
  fields := h.fields.trans ((fieldsOnly_startJump e u).mono (by simp))
  sel := ((fieldsOnly_startJump e u) F.TB_STATUS_sel rfl (by decide)).trans h.sel
  state := ((fieldsOnly_startJump e u).tbState _ (by cases d.lead <;> decide)).trans h.state
  tim := by
    obtain ⟨tbs, ever, jump, off, htim⟩ := h.tim
    obtain ⟨off', hjump⟩ := e.startJump_tim u
    exact ⟨_, ever, false, off', by rw [hjump]; exact congrArg (fun m : TimingUnit => { m with
      tb := (m.tb.modPl .a fun t => { t with epoch := u }).modPl .b fun t => { t with epoch := u }, jumpOpen := false, refvOff := off' }) htim⟩
  clk := h.clk.trans ((keeps_startJump e u).onlyPins (by decide))

/-- Noting a selection, then a change of the timing unit, then the state. -/
theorem leadTakes_setTb (d : Dev) {x v : Nat} (parent : Nat) {e : Dev} (hx : x < 8) (hv : v < 8)
    (hk : Keeps [.tim] [] (d.noteSel x) e)
    (ht : ∃ tbs ever, e.tim = { (d.noteSel x).tim with tb := tbs, everSel := ever }) : LeadTakes d (e.setTb d.lead v parent) x v where
  keeps := (((keeps_noteSel d x).mono (by decide) (by decide)).trans (hk.mono (by decide) (by decide))).trans
    ((keeps_setTb e d.lead v parent).mono (by decide) (by decide))
  fields := (((fieldsOnly_noteSel d x).mono (by simp)).trans (hk.fields 0 _ (by simp))).trans
    ((fieldsOnly_setTb e d.lead v parent).mono (by simp))
  sel := by
    rw [fieldsOnly_setTb e d.lead v parent F.TB_STATUS_sel rfl (by cases d.lead <;> decide), hk.rd 0 (by simp), Dev.sel_noteSel d hx]
  state := Dev.tbState_setTb _ _ _ hv
  tim := by
    obtain ⟨tbs, ever, htim⟩ := ht
    exact ⟨tbs, ever, d.tim.jumpOpen, d.tim.refvOff, by rw [Dev.tim_setTb, htim, (keeps_noteSel d x).2.1 .tim (by decide)]⟩
  clk := (((keeps_noteSel d x).onlyPins (by decide)).trans (hk.onlyPins (by simp))).trans (onlyPins_setTb e _ _ _)

theorem leadTakes_select (d : Dev) {x : Nat} (src : Nat) (hx : x < 8) : LeadTakes d (d.select x src) x 3 := by
  have hswitch : LeadTakes d (d.switchTo x) x 3 := by
    unfold Dev.switchTo
    refine leadTakes_setTb d 0 hx (by decide) ((keeps_freeze _ _).trans (keeps_tim _ _ _ (by simp))) ?_
    obtain ⟨tbs, htbs⟩ := (d.noteSel x).freeze_tim d.lead
    exact ⟨tbs, true, by rw [htbs]⟩
  obtain h | ⟨u, h⟩ := d.select_cases x src
  · rw [h]; exact hswitch
  · rw [h]; exact hswitch.startJump u

theorem Dev.everSel_select (d : Dev) (x src : Nat) : (d.select x src).tim.everSel = true := by
  have hswitch : (d.switchTo x).tim.everSel = true := by rw [Dev.switchTo, Dev.tim_setTb]
  obtain h | ⟨u, h⟩ := d.select_cases x src
  · rw [h]; exact hswitch
  · rw [h, Dev.everSel_startJump, hswitch]

theorem Dev.holdOver_of_selected (d : Dev) (parent : Nat) (h : d.tim.everSel = true) :
    d.holdOver parent = (d.freeze d.lead).setTb d.lead 4 parent := by rw [Dev.holdOver, h, if_pos rfl]

theorem Dev.holdOver_of_none (d : Dev) (parent : Nat) (h : d.tim.everSel = false) : d.holdOver parent = d.setTb d.lead 0 := by
  rw [Dev.holdOver, h, if_neg (by decide)]

/-- Holdover: BECALMED, or FREERUN where no input has been selected since reset; the counters go on (R62, R86). -/
theorem leadTakes_holdOver (d : Dev) (parent : Nat) :
    LeadTakes d ((d.noteSel 7).holdOver parent) 7 (if d.tim.everSel then 4 else 0)
    ∧ ∀ p, (((d.noteSel 7).holdOver parent).tb p).epoch = (d.tb p).epoch := by
  have htim : (d.noteSel 7).tim = d.tim := (keeps_noteSel d 7).2.1 .tim (by decide)
  have hlead : (d.noteSel 7).lead = d.lead := (fieldsOnly_noteSel d 7).lead (by decide)
  cases hsel : d.tim.everSel with
  | true =>
    rw [Dev.holdOver_of_selected _ _ (by rw [htim, hsel]), hlead]
    refine ⟨leadTakes_setTb d parent (by decide) (by decide) (keeps_freeze _ _) ?_, fun p => ?_⟩
    · obtain ⟨tbs, htbs⟩ := (d.noteSel 7).freeze_tim d.lead
      exact ⟨tbs, _, htbs⟩
    · rw [Dev.tb, Dev.tim_setTb, ← Dev.tb, Dev.epoch_freeze, Dev.tb, Dev.tb, htim]
  | false =>
    rw [Dev.holdOver_of_none _ _ (by rw [htim, hsel]), hlead]
    refine ⟨leadTakes_setTb d 0 (by decide) (by decide) (Keeps.refl _ _ _) ⟨_, _, rfl⟩, fun p => ?_⟩
    rw [Dev.tb, Dev.tb, Dev.tim_setTb, htim]

section
variable {d e : Dev} {x v : Nat} (h : LeadTakes d e x v)
include h

theorem LeadTakes.lead : e.lead = d.lead := h.fields.lead (by cases d.lead <;> decide)

theorem LeadTakes.other : e.tbState d.lead.other = d.tbState d.lead.other := h.fields.tbState _ (by cases d.lead <;> decide)

theorem LeadTakes.qualified (y : Nat) : e.qualified y = d.qualified y := h.fields.bitAt _ y rfl (by cases d.lead <;> decide)

theorem LeadTakes.refLost (y : Nat) : e.refLost y = d.refLost y := h.fields.bitAt _ y rfl (by cases d.lead <;> decide)

theorem LeadTakes.ref (y : Nat) : e.ref y = d.ref y := by
  obtain ⟨tbs, ever, jump, off, htim⟩ := h.tim
  rw [Dev.ref, Dev.ref, htim]

end

end Sys2Proof.Machine
end

section
/-! SUPPORT. Timing inputs (R60, R61, R67 to R70, R75): what a change of one input's state leaves of the others and of the timing
unit. -/

namespace Sys2Proof.Machine

/-! ### A change of one input's state -/

/-- Between `d` and `e` the state of input `x` alone may change: its record, its bits in TB_STATUS, what the priority manager sees,
and TB_STATUS.force_wait. -/
structure InputMoves (x : Nat) (d e : Dev) : Prop where
  fields : FieldsOnly .TB_STATUS 0 [F.TB_STATUS_lost, F.TB_STATUS_qualified, F.TB_STATUS_force_wait] d e
  bits : ∀ y, y ≠ x → e.refLost y = d.refLost y ∧ e.qualified y = d.qualified y
  ref : ∀ y, y ≠ x → e.ref y = d.ref y
  tim : ∃ inputs sees, e.tim = { d.tim with inputs := inputs, sees := sees }

theorem InputMoves.refl (x : Nat) (d : Dev) : InputMoves x d d := ⟨FieldsOnly.refl _ _ _ d, fun _ _ => ⟨rfl, rfl⟩, fun _ _ => rfl, _, _, rfl⟩

theorem InputMoves.trans {x : Nat} {d e f : Dev} (h : InputMoves x d e) (k : InputMoves x e f) : InputMoves x d f where
  fields := h.fields.trans k.fields
  bits y hy := ⟨(k.bits y hy).1.trans (h.bits y hy).1, (k.bits y hy).2.trans (h.bits y hy).2⟩
  ref y hy := (k.ref y hy).trans (h.ref y hy)
  tim := by
    obtain ⟨i, l, hi⟩ := h.tim
    obtain ⟨i', l', hi'⟩ := k.tim
    exact ⟨i', l', by rw [hi', hi]⟩

theorem InputMoves.of_keeps {x : Nat} {as : List Area} {rs : List RegName} {d e : Dev} (h : Keeps as rs d e) (ha : Area.tim ∉ as)
    (hr : RegName.TB_STATUS ∉ rs) : InputMoves x d e where
  fields := h.fields 0 _ hr
  bits y _ := ⟨h.bitAt y 0 hr, h.bitAt y 0 hr⟩
  ref y _ := by rw [Dev.ref, Dev.ref, h.2.1 .tim ha]
  tim := ⟨d.tim.inputs, d.tim.sees, h.2.1 .tim ha⟩

theorem EvOnly.inputMoves {x : Nat} {d e : Dev} (h : EvOnly d e) : InputMoves x d e := InputMoves.of_keeps h (by decide) (by decide)

theorem InputMoves.sel {x : Nat} {d e : Dev} (h : InputMoves x d e) : e.rd F.TB_STATUS_sel = d.rd F.TB_STATUS_sel :=
  h.fields F.TB_STATUS_sel rfl (by decide)

/-! ### Its parts -/

theorem keeps_modRef {as : List Area} (rs : List RegName) (d : Dev) (x : Nat) (f : RefIn → RefIn) (h : Area.tim ∈ as) :
    Keeps as rs d (d.modRef x f) := keeps_tim rs d _ h

theorem inputMoves_modRef (d : Dev) (x : Nat) (f : RefIn → RefIn) : InputMoves x d (d.modRef x f) where
  fields := (keeps_modRef (as := [.tim]) [] d x f (by simp)).fields 0 _ (by simp)
  bits _ _ := ⟨rfl, rfl⟩
  ref _ hy := Dev.ref_modRef_ne d f hy
  tim := ⟨_, d.tim.sees, rfl⟩

theorem Dev.refLost_eq (d : Dev) (y : Nat) : d.refLost y = d.bitAt F.TB_STATUS_lost y := rfl

theorem Dev.qualified_eq (d : Dev) (y : Nat) : d.qualified y = d.bitAt F.TB_STATUS_qualified y := rfl

theorem Keeps.refLost {as : List Area} {rs : List RegName} {d e : Dev} (h : Keeps as rs d e) (hr : RegName.TB_STATUS ∉ rs) (y : Nat) :
    e.refLost y = d.refLost y := h.bitAt y 0 hr

theorem Keeps.qualified {as : List Area} {rs : List RegName} {d e : Dev} (h : Keeps as rs d e) (hr : RegName.TB_STATUS ∉ rs) (y : Nat) :
    e.qualified y = d.qualified y := h.bitAt y 0 hr

theorem Keeps.ref {as : List Area} {rs : List RegName} {d e : Dev} (h : Keeps as rs d e) (ha : Area.tim ∉ as) (y : Nat) :
    e.ref y = d.ref y := by rw [Dev.ref, Dev.ref, h.2.1 .tim ha]

theorem FieldsOnly.refLost {fs : List Field} {d e : Dev} (h : FieldsOnly .TB_STATUS 0 fs d e) (y : Nat)
    (ha : ∀ f ∈ fs, f.Apart F.TB_STATUS_lost) : e.refLost y = d.refLost y := h.bitAt F.TB_STATUS_lost y rfl ha

theorem FieldsOnly.qualified {fs : List Field} {d e : Dev} (h : FieldsOnly .TB_STATUS 0 fs d e) (y : Nat)
    (ha : ∀ f ∈ fs, f.Apart F.TB_STATUS_qualified) : e.qualified y = d.qualified y := h.bitAt F.TB_STATUS_qualified y rfl ha

/-- The lost bit of an input (Table 2-4). -/
theorem Dev.refLost_setLost (d : Dev) {x : Nat} (y : Nat) (b : Bool) (h : x < 5) :
    (d.setBit F.TB_STATUS_lost x b).refLost y = if y = x then b else d.refLost y := by
  rw [Dev.refLost_eq, Dev.refLost_eq, Dev.bitAt_setBit _ _ _ _ _ _ (by decide) h]

theorem Dev.qualified_setLost (d : Dev) (x y : Nat) (b : Bool) : (d.setBit F.TB_STATUS_lost x b).qualified y = d.qualified y :=
  (fieldsOnly_setBit d F.TB_STATUS_lost x b 0 (by decide)).qualified y (by decide)

theorem Dev.qualified_setQualified (d : Dev) {x : Nat} (y : Nat) (b : Bool) (h : x < 5) :
    (d.setBit F.TB_STATUS_qualified x b).qualified y = if y = x then b else d.qualified y := by
  rw [Dev.qualified_eq, Dev.qualified_eq, Dev.bitAt_setBit _ _ _ _ _ _ (by decide) h]

theorem Dev.refLost_setQualified (d : Dev) (x y : Nat) (b : Bool) : (d.setBit F.TB_STATUS_qualified x b).refLost y = d.refLost y :=
  (fieldsOnly_setBit d F.TB_STATUS_qualified x b 0 (by decide)).refLost y (by decide)

theorem inputMoves_setLost (d : Dev) {x : Nat} (b : Bool) (h : x < 5) : InputMoves x d (d.setBit F.TB_STATUS_lost x b) where
  fields := (fieldsOnly_setBit d F.TB_STATUS_lost x b 0 (by decide)).mono (by simp)
  bits y hy := ⟨by rw [Dev.refLost_setLost d y b h, if_neg hy], Dev.qualified_setLost d x y b⟩
  ref y _ := (keeps_setBit [] d x b 0 (by simp [F.TB_STATUS_lost])).ref (rs := [.TB_STATUS]) (by simp) y
  tim := ⟨d.tim.inputs, d.tim.sees, (keeps_setBit [] (rs := [.TB_STATUS]) d x b 0 (by simp [F.TB_STATUS_lost])).2.1 .tim (by simp)⟩

theorem inputMoves_setQualified (d : Dev) {x : Nat} (b : Bool) (h : x < 5) : InputMoves x d (d.setBit F.TB_STATUS_qualified x b) where
  fields := (fieldsOnly_setBit d F.TB_STATUS_qualified x b 0 (by decide)).mono (by simp)
  bits y hy := ⟨Dev.refLost_setQualified d x y b, by rw [Dev.qualified_setQualified d y b h, if_neg hy]⟩
  ref y _ := (keeps_setBit [] d x b 0 (by simp [F.TB_STATUS_qualified])).ref (rs := [.TB_STATUS]) (by simp) y
  tim := ⟨d.tim.inputs, d.tim.sees, (keeps_setBit [] (rs := [.TB_STATUS]) d x b 0 (by simp [F.TB_STATUS_qualified])).2.1 .tim (by simp)⟩

/-! ### TB_STATUS.force_wait (R80) -/

theorem Dev.noteForce_eq (d : Dev) : ∃ b, d.noteForce = d.put F.TB_STATUS_force_wait b := by
  unfold Dev.noteForce
  split <;> exact ⟨_, rfl⟩

theorem keeps_noteForce (as : List Area) (d : Dev) : Keeps as [.TB_STATUS] d d.noteForce := by
  obtain ⟨b, hb⟩ := d.noteForce_eq
  rw [hb]
  exact keeps_put as d b 0 (by simp [F.TB_STATUS_force_wait])

theorem fieldsOnly_noteForce (d : Dev) : FieldsOnly .TB_STATUS 0 [F.TB_STATUS_force_wait] d d.noteForce := by
  obtain ⟨b, hb⟩ := d.noteForce_eq
  rw [hb]
  exact fieldsOnly_put d F.TB_STATUS_force_wait b 0 (by decide)

theorem inputMoves_noteForce (d : Dev) (x : Nat) : InputMoves x d d.noteForce where
  fields := (fieldsOnly_noteForce d).mono (by simp)
  bits y _ := ⟨(fieldsOnly_noteForce d).refLost y (by decide), (fieldsOnly_noteForce d).qualified y (by decide)⟩
  ref y _ := (keeps_noteForce [] d).ref (by simp) y
  tim := ⟨_, _, (keeps_noteForce [] d).2.1 .tim (by simp)⟩

/-! ### The hold-off begins anew (R75, R78) -/

/-- The hold-off of an input begins, and the priority manager no longer sees it. -/
def Dev.unsee (d : Dev) (x : Nat) : Dev :=
  { d.modRef x (fun r => { r with since := d.now }) with tim :=
      { (d.modRef x (fun r => { r with since := d.now })).tim with sees := d.tim.sees.filter (· != x) } }

theorem Dev.stateChanged_eq (d : Dev) (x : Nat) : d.stateChanged x = (d.unsee x).noteForce := rfl

theorem keeps_unsee (d : Dev) (x : Nat) : Keeps [.tim] [] d (d.unsee x) :=
  (keeps_modRef _ d x _ (by simp)).trans (keeps_tim _ _ _ (by simp))

theorem inputMoves_unsee (d : Dev) (x : Nat) : InputMoves x d (d.unsee x) where
  fields := (keeps_unsee d x).fields 0 _ (by simp)
  bits y _ := ⟨(keeps_unsee d x).refLost (by simp) y, (keeps_unsee d x).qualified (by simp) y⟩
  ref _ hy := Dev.ref_modRef_ne d (fun r => { r with since := d.now }) hy
  tim := ⟨_, _, rfl⟩

theorem Dev.ref_unsee (d : Dev) (x : Nat) : (d.unsee x).ref x = { d.ref x with since := d.now } :=
  Dev.ref_modRef_self d x fun r => { r with since := d.now }

theorem keeps_stateChanged (d : Dev) (x : Nat) : Keeps [.tim] [.TB_STATUS] d (d.stateChanged x) := by
  rw [Dev.stateChanged_eq]
  exact ((keeps_unsee d x).mono (by simp) (by simp)).trans (keeps_noteForce _ _)

theorem inputMoves_stateChanged (d : Dev) (x : Nat) : InputMoves x d (d.stateChanged x) := by
  rw [Dev.stateChanged_eq]
  exact (inputMoves_unsee d x).trans (inputMoves_noteForce _ x)

theorem Dev.ref_stateChanged (d : Dev) (x : Nat) : (d.stateChanged x).ref x = { d.ref x with since := d.now } := by
  rw [Dev.stateChanged_eq, (keeps_noteForce [] _).ref (by simp), Dev.ref_unsee]

theorem Dev.bits_stateChanged (d : Dev) (x y : Nat) :
    (d.stateChanged x).refLost y = d.refLost y ∧ (d.stateChanged x).qualified y = d.qualified y := by
  have hfields : FieldsOnly .TB_STATUS 0 [F.TB_STATUS_force_wait] d (d.stateChanged x) := by
    rw [Dev.stateChanged_eq]
    exact ((keeps_unsee d x).fields 0 _ (by simp)).trans (fieldsOnly_noteForce _)
  exact ⟨hfields.refLost y (by decide), hfields.qualified y (by decide)⟩

/-! ### The lead's action on a loss (R62, R86) -/

/-- The lead's DPLL acts on the loss of input `x` where it follows it. -/
def Dev.actOnLoss (d : Dev) (x src : Nat) : Dev := if d.rd F.TB_STATUS_sel == x then d.selLost src else d

theorem Dev.actOnLoss_of_not (d : Dev) {x : Nat} (src : Nat) (h : d.rd F.TB_STATUS_sel ≠ x ∨ d.leadUp = false) : d.actOnLoss x src = d := by
  unfold Dev.actOnLoss Dev.selLost
  rcases h with h | h
  · rw [if_neg (by simpa using h)]
  · simp [h]

theorem Dev.actOnLoss_usable (d : Dev) {x : Nat} (src : Nat) (hsel : d.rd F.TB_STATUS_sel = x) (hup : d.leadUp = true)
    (hf : Usable d x (selIndex (d.rd F.TB_DPLL_SEL_fallback d.lead.id))) :
    d.actOnLoss x src = d.select (selIndex (d.rd F.TB_DPLL_SEL_fallback d.lead.id)) src := by
  obtain ⟨hlt, hq, hl, hne⟩ := hf
  simp [Dev.actOnLoss, Dev.selLost, hsel, hup, hlt, hq, hl, hne]

theorem Dev.actOnLoss_none (d : Dev) {x : Nat} (src : Nat) (hsel : d.rd F.TB_STATUS_sel = x) (hup : d.leadUp = true)
    (hf : ¬Usable d x (selIndex (d.rd F.TB_DPLL_SEL_fallback d.lead.id))) :
    d.actOnLoss x src = (d.noteSel 7).holdOver (d.causeOf (evRef x)) := by
  have hcond : (decide (selIndex (d.rd F.TB_DPLL_SEL_fallback d.lead.id) < 5)
      && d.qualified (selIndex (d.rd F.TB_DPLL_SEL_fallback d.lead.id)) && !d.refLost (selIndex (d.rd F.TB_DPLL_SEL_fallback d.lead.id))
      && selIndex (d.rd F.TB_DPLL_SEL_fallback d.lead.id) != x) = false := by
    by_contra hc
    exact hf (by simpa [and_assoc] using hc)
  simp [Dev.actOnLoss, Dev.selLost, hsel, hup, hcond]

theorem selIndex_lt (x : Nat) : selIndex x < 8 := by unfold selIndex; split <;> omega

/-- What the lead's action on a loss keeps. -/
structure LossActs (d e : Dev) : Prop where
  keeps : Keeps selAreas selRegs d e
  bits : ∀ y, e.refLost y = d.refLost y ∧ e.qualified y = d.qualified y
  ref : ∀ y, e.ref y = d.ref y
  clk : OnlyPins d.clk e.clk

theorem LeadTakes.lossActs {d e : Dev} {x v : Nat} (h : LeadTakes d e x v) : LossActs d e :=
  ⟨h.keeps, fun y => ⟨h.refLost y, h.qualified y⟩, h.ref, h.clk⟩

/-- The lead's action on a loss: none, a selection, or holdover. -/
theorem Dev.actOnLoss_acts (d : Dev) (x src : Nat) : LossActs d (d.actOnLoss x src) := by
  by_cases hno : d.rd F.TB_STATUS_sel ≠ x ∨ d.leadUp = false
  · rw [d.actOnLoss_of_not src hno]
    exact ⟨Keeps.refl _ _ d, fun _ => ⟨rfl, rfl⟩, fun _ => rfl, OnlyPins.refl _⟩
  · obtain ⟨hsel, hup⟩ : d.rd F.TB_STATUS_sel = x ∧ d.leadUp = true := by simpa using hno
    by_cases hf : Usable d x (selIndex (d.rd F.TB_DPLL_SEL_fallback d.lead.id))
    · rw [d.actOnLoss_usable src hsel hup hf]
      exact (leadTakes_select d src (selIndex_lt _)).lossActs
    · rw [d.actOnLoss_none src hsel hup hf]
      exact (leadTakes_holdOver d _).1.lossActs

/-- Between `d` and `e` nothing changed that the lead's action on the loss of input `x` rests on. -/
structure LeadSame (x : Nat) (d e : Dev) : Prop where
  fields : FieldsOnly .TB_STATUS 0 [F.TB_STATUS_lost, F.TB_STATUS_qualified, F.TB_STATUS_force_wait] d e
  bits : ∀ y, y ≠ x → e.refLost y = d.refLost y ∧ e.qualified y = d.qualified y
  tb : e.tim.tb = d.tim.tb
  everSel : e.tim.everSel = d.tim.everSel

theorem InputMoves.leadSame {x : Nat} {d e : Dev} (h : InputMoves x d e) : LeadSame x d e := by
  obtain ⟨_, _, ht⟩ := h.tim
  exact ⟨h.fields, h.bits, by rw [ht], by rw [ht]⟩

theorem LeadSame.sel {x : Nat} {d e : Dev} (h : LeadSame x d e) : e.rd F.TB_STATUS_sel = d.rd F.TB_STATUS_sel :=
  h.fields F.TB_STATUS_sel rfl (by decide)

theorem LeadSame.lead {x : Nat} {d e : Dev} (h : LeadSame x d e) : e.lead = d.lead := h.fields.lead (by decide)

theorem LeadSame.tbState {x : Nat} {d e : Dev} (h : LeadSame x d e) (p : Plane) : e.tbState p = d.tbState p :=
  h.fields.tbState p (by cases p <;> decide)

theorem LeadSame.leadUp {x : Nat} {d e : Dev} (h : LeadSame x d e) : e.leadUp = d.leadUp := by
  rw [Dev.leadUp, Dev.leadUp, h.lead, h.tbState]

/-- Where marking an input's loss has left the selection, the lead's action is that of R62. -/
theorem fallsBack_actOnLoss {x : Nat} {d e : Dev} (src : Nat) (h : LeadSame x d e)
    (hsel : e.rd F.TB_DPLL_SEL_fallback d.lead.id = d.rd F.TB_DPLL_SEL_fallback d.lead.id) : FallsBack d (e.actOnLoss x src) x := by
  have hup : e.leadUp = d.leadUp := h.leadUp
  have htb : e.tim.tb = d.tim.tb := h.tb
  have hever : e.tim.everSel = d.tim.everSel := h.everSel
  have husable : Usable e x (selIndex (e.rd F.TB_DPLL_SEL_fallback e.lead.id)) ↔
      Usable d x (selIndex (d.rd F.TB_DPLL_SEL_fallback d.lead.id)) := by
    rw [h.lead, hsel]
    by_cases hx : selIndex (d.rd F.TB_DPLL_SEL_fallback d.lead.id) = x
    · simp [Usable, hx]
    · rw [Usable, Usable, (h.bits _ hx).1, (h.bits _ hx).2]
  by_cases hno : d.rd F.TB_STATUS_sel ≠ x ∨ d.leadUp = false
  · rw [e.actOnLoss_of_not src (by rwa [h.sel, hup])]
    refine ⟨h.lead, h.tbState _, fun _ => ⟨h.sel, h.tbState _, htb⟩, fun hs hu => ?_, fun hs hu => ?_⟩
    · rcases hno with hno | hno
      · exact absurd hs hno
      · rw [hno] at hu; cases hu
    · rcases hno with hno | hno
      · exact absurd hs hno
      · rw [hno] at hu; cases hu
  · obtain ⟨hs, hu⟩ : d.rd F.TB_STATUS_sel = x ∧ d.leadUp = true := by simpa using hno
    have hs' : e.rd F.TB_STATUS_sel = x := h.sel.trans hs
    by_cases hf : Usable d x (selIndex (d.rd F.TB_DPLL_SEL_fallback d.lead.id))
    · have htakes := leadTakes_select e src (selIndex_lt (e.rd F.TB_DPLL_SEL_fallback e.lead.id))
      have hever' := e.everSel_select (selIndex (e.rd F.TB_DPLL_SEL_fallback e.lead.id)) src
      rw [e.actOnLoss_usable src hs' (hup.trans hu) (husable.mpr hf)]
      refine ⟨htakes.lead.trans h.lead, ?_, fun hn => absurd hn hno, fun _ _ _ => ⟨?_, ?_, hever'⟩, fun _ _ hn => absurd hf hn⟩
      · rw [← h.lead, htakes.other, h.tbState]
      · rw [htakes.sel, h.lead, hsel]
      · rw [← h.lead, htakes.state]
    · obtain ⟨htakes, hepoch⟩ := leadTakes_holdOver e (e.causeOf (evRef x))
      rw [e.actOnLoss_none src hs' (hup.trans hu) fun hn => hf (husable.mp hn)]
      refine ⟨htakes.lead.trans h.lead, ?_, fun hn => absurd hn hno, fun _ _ hn => absurd hn hf, fun _ _ _ => ⟨htakes.sel, ?_, ?_, ?_⟩⟩
      · rw [← h.lead, htakes.other, h.tbState]
      · rw [← h.lead, htakes.state, hever]
      · rw [hepoch, Dev.tb, Dev.tb, htb]
      · rw [hepoch, Dev.tb, Dev.tb, htb]

/-! ### An input is lost (R60, R61, R70) -/

/-- Input `x` is marked as lost and disqualified. -/
def Dev.markLost (d : Dev) (x : Nat) : Dev :=
  ((d.setBit F.TB_STATUS_lost x true).setBit F.TB_STATUS_qualified x false).modRef x fun r =>
    { r with qual := 3, run := 0, outRun := 0, avgs := [] }

/-- It is no longer among the inputs that were qualified when the safe state was entered (R431). -/
def Dev.notAtSafe (d : Dev) (x : Nat) : Dev :=
  { d with clk := { d.clk with refAtSafe := d.clk.refAtSafe.filter (· != x) } }

/-- The loss of an input is reported (Table 12-4). -/
def Dev.reportLoss (d : Dev) (x : Nat) (was : Bool) : Dev :=
  (d.setCause (evRef x) 0x40).when was fun d => d.occur (evRef x) 0x42 (ofInt 32 (d.ref x).avg)

theorem evOnly_reportLoss (d : Dev) (x : Nat) (was : Bool) : EvOnly d (d.reportLoss x was) :=
  (evOnly_setCause _ _ _ _ _ _ _).trans (Keeps.when fun _ => evOnly_occur _ _ _ _ _ _ _)

theorem inputMoves_notAtSafe (d : Dev) (x : Nat) : InputMoves x d (d.notAtSafe x) :=
  InputMoves.of_keeps (keeps_clk (as := [.clk]) [] d _ (by simp)) (by simp) (by simp)

/-- Input `x` is marked as lost, and its loss is reported. -/
def Dev.lose (d : Dev) (x : Nat) : Dev := (((d.markLost x).notAtSafe x).reportLoss x (d.qualified x)).stateChanged x

theorem Dev.loseInput_eq (d : Dev) (x src : Nat) : d.loseInput x src = (d.lose x).actOnLoss x src := by
  unfold Dev.loseInput Dev.lose Dev.markLost Dev.notAtSafe Dev.reportLoss Dev.actOnLoss
  rfl

theorem inputMoves_markLost (d : Dev) {x : Nat} (hx : x < 5) : InputMoves x d (d.markLost x) :=
  ((inputMoves_setLost d true hx).trans (inputMoves_setQualified _ false hx)).trans (inputMoves_modRef _ x _)

theorem keeps_markLost (d : Dev) (x : Nat) : Keeps [.tim] [.TB_STATUS] d (d.markLost x) :=
  ((keeps_setBit _ d x true 0 (by simp [F.TB_STATUS_lost])).trans (keeps_setBit _ _ x false 0 (by simp [F.TB_STATUS_qualified]))).trans
    (keeps_modRef _ _ x _ (by simp))

theorem Dev.bits_markLost (d : Dev) {x : Nat} (hx : x < 5) : (d.markLost x).refLost x = true ∧ (d.markLost x).qualified x = false := by
  have hmod := keeps_modRef (as := [.tim]) [] ((d.setBit F.TB_STATUS_lost x true).setBit F.TB_STATUS_qualified x false) x
    (fun r => { r with qual := 3, run := 0, outRun := 0, avgs := [] }) (by simp)
  unfold Dev.markLost
  rw [hmod.refLost (by simp), hmod.qualified (by simp), Dev.refLost_setQualified, Dev.refLost_setLost _ _ _ hx,
    Dev.qualified_setQualified _ _ _ hx, if_pos rfl, if_pos rfl]
  exact ⟨rfl, rfl⟩

theorem Dev.ref_markLost (d : Dev) (x : Nat) : (d.markLost x).ref x = { d.ref x with qual := 3, run := 0, outRun := 0, avgs := [] } := by
  have hbits := (keeps_setBit [] (rs := [.TB_STATUS]) (f := F.TB_STATUS_lost) d x true 0 (by decide)).trans
    (keeps_setBit [] (f := F.TB_STATUS_qualified) (d.setBit F.TB_STATUS_lost x true) x false 0 (by decide))
  rw [Dev.markLost, Dev.ref_modRef_self, hbits.ref (by simp)]

theorem inputMoves_lose (d : Dev) {x : Nat} (hx : x < 5) : InputMoves x d (d.lose x) :=
  (((inputMoves_markLost d hx).trans (inputMoves_notAtSafe _ x)).trans (evOnly_reportLoss _ x _).inputMoves).trans
    (inputMoves_stateChanged _ x)

theorem keeps_lose (d : Dev) (x : Nat) : Keeps (.tim :: .clk :: evAreas) (.TB_STATUS :: evRegs) d (d.lose x) := by
  have hmark := (keeps_markLost d x).append (keeps_clk (as := [.clk]) [] (d.markLost x)
    { (d.markLost x).clk with refAtSafe := (d.markLost x).clk.refAtSafe.filter (· != x) } (by simp))
  have hreport := evOnly_reportLoss ((d.markLost x).notAtSafe x) x (d.qualified x)
  exact ((hmark.mono (by simp) (by simp)).trans (hreport.mono (by simp) (by simp))).trans ((keeps_stateChanged _ x).mono (by simp) (by simp))

/-- An input as its loss leaves it, before the lead acts. -/
theorem Dev.lose_shows (d : Dev) {x : Nat} (hx : x < 5) : (d.lose x).refLost x = true ∧ (d.lose x).qualified x = false
    ∧ (d.lose x).ref x = { d.ref x with qual := 3, run := 0, outRun := 0, avgs := [], since := d.now }
    ∧ (d.lose x).clk = { d.clk with refAtSafe := d.clk.refAtSafe.filter (· != x) } := by
  have hkept := keeps_clk (as := [.clk]) [] (d.markLost x)
    { (d.markLost x).clk with refAtSafe := (d.markLost x).clk.refAtSafe.filter (· != x) } (by simp)
  have hreport := evOnly_reportLoss ((d.markLost x).notAtSafe x) x (d.qualified x)
  obtain ⟨hlost, hqual⟩ := d.bits_markLost hx
  obtain ⟨hlost', hqual'⟩ := (((d.markLost x).notAtSafe x).reportLoss x (d.qualified x)).bits_stateChanged x x
  unfold Dev.lose
  refine ⟨?_, ?_, ?_, ?_⟩
  · rw [hlost', hreport.refLost (by decide), ← hlost]
    exact hkept.refLost (by simp) x
  · rw [hqual', hreport.qualified (by decide), ← hqual]
    exact hkept.qualified (by simp) x
  · have href : ((d.markLost x).notAtSafe x).ref x = _ := (hkept.ref (by simp) x).trans (d.ref_markLost x)
    have hnow : ((d.markLost x).notAtSafe x).now = d.now := hkept.1.trans (keeps_markLost d x).1
    rw [Dev.ref_stateChanged, hreport.1, hreport.ref (by decide), href, hnow]
  · rw [(keeps_stateChanged _ x).2.1 .clk (by simp), hreport.2.1 .clk (by decide), Dev.notAtSafe, (keeps_markLost d x).2.1 .clk (by simp)]

end Sys2Proof.Machine
end

section
/-! SUPPORT. The obligation on the losses of inputs (R57, R60 to R62, R70). -/

namespace Sys2Proof.Machine

/-! ### A loss and what the lead does about it -/

/-- A lost input as `loseInput` leaves it. -/
theorem Dev.loseInput_shows (d : Dev) {x : Nat} (src : Nat) (hx : x < 5) :
    (d.loseInput x src).refLost x = true ∧ (d.loseInput x src).qualified x = false
    ∧ (d.loseInput x src).ref x = { d.ref x with qual := 3, run := 0, outRun := 0, avgs := [], since := d.now }
    ∧ (∀ y, y ≠ x → (d.loseInput x src).ref y = d.ref y ∧ (d.loseInput x src).refLost y = d.refLost y
        ∧ (d.loseInput x src).qualified y = d.qualified y)
    ∧ FallsBack d (d.loseInput x src) x ∧ (d.loseInput x src).clk.refAtSafe = d.clk.refAtSafe.filter (· != x)
    ∧ (d.rd F.TB_STATUS_sel ≠ x ∨ d.leadUp = false →
        Keeps (.tim :: .clk :: evAreas) (.TB_STATUS :: evRegs) d (d.loseInput x src))
    ∧ Keeps selAreas selRegs d (d.loseInput x src) := by
  have hmoves := inputMoves_lose d hx
  have hkeeps := keeps_lose d x
  obtain ⟨hlost, hqual, href, hclk⟩ := d.lose_shows hx
  have hacts := (d.lose x).actOnLoss_acts x src
  have hsel : (d.lose x).rd F.TB_STATUS_sel = d.rd F.TB_STATUS_sel := hmoves.sel
  have hup : (d.lose x).leadUp = d.leadUp := hmoves.leadSame.leadUp
  rw [Dev.loseInput_eq]
  refine ⟨(hacts.bits x).1.trans hlost, (hacts.bits x).2.trans hqual, (hacts.ref x).trans href, fun y hy => ⟨?_, ?_, ?_⟩,
    fallsBack_actOnLoss src hmoves.leadSame (hkeeps.rd _ (by decide)), ?_, fun hno => ?_, ?_⟩
  · rw [hacts.ref, hmoves.ref y hy]
  · rw [(hacts.bits y).1, (hmoves.bits y hy).1]
  · rw [(hacts.bits y).2, (hmoves.bits y hy).2]
  · rw [hacts.clk, hclk]
  · rw [Dev.actOnLoss_of_not _ src (by rwa [hsel, hup])]
    exact hkeeps
  · exact (hkeeps.mono (by decide) (by decide)).trans hacts.keeps

/-! ### REFV is disabled (R60) -/

/-- REFV's enable bit is cleared, and with it what stands of REFV in TB_STATUS. -/
def Dev.clearRefv (d : Dev) : Dev :=
  (((d.put F.TB_REFV_CFG_enable false).setBit F.TB_STATUS_qualified 4 false).setBit F.TB_STATUS_lost 4 false).modRef 4 fun r =>
    { r with qual := 0, run := 0, outRun := 0, avgs := [] }

/-- REFV states no phase any more. -/
def Dev.noRefv (d : Dev) : Dev := { d with tim := { d.tim with refvOff := none } }

theorem Dev.ref_noRefv (d : Dev) (y : Nat) : d.noRefv.ref y = d.ref y := rfl

/-- REFV is absent, before the lead acts on it. -/
def Dev.refvGone (d : Dev) : Dev := ((d.clearRefv.endCause (evRef 4)).noRefv).stateChanged 4

theorem Dev.refvEnable_off (d : Dev) (src : Nat) (h : d.flag F.TB_REFV_CFG_enable = true) :
    d.refvEnable false src = d.refvGone.actOnLoss 4 src := by
  unfold Dev.refvEnable
  rw [h, if_neg (by decide), if_pos (by decide)]
  unfold Dev.refvGone Dev.noRefv Dev.clearRefv Dev.actOnLoss
  rfl

theorem keeps_clearRefv (d : Dev) : Keeps [.tim] [.TB_REFV_CFG, .TB_STATUS] d d.clearRefv :=
  (((keeps_put _ d false 0 (by simp [F.TB_REFV_CFG_enable])).trans (keeps_setBit _ _ 4 false 0 (by simp [F.TB_STATUS_qualified]))).trans
    (keeps_setBit _ _ 4 false 0 (by simp [F.TB_STATUS_lost]))).trans (keeps_modRef _ _ 4 _ (by simp))

theorem inputMoves_clearRefv (d : Dev) : InputMoves 4 d d.clearRefv :=
  (((InputMoves.of_keeps (keeps_put [] (rs := [.TB_REFV_CFG]) d false 0 (by simp [F.TB_REFV_CFG_enable])) (by simp) (by simp)).trans
    (inputMoves_setQualified _ false (by decide))).trans (inputMoves_setLost _ false (by decide))).trans (inputMoves_modRef _ 4 _)

/-- REFV's registers and record once it is cleared. -/
theorem Dev.clearRefv_shows (d : Dev) : d.clearRefv.flag F.TB_REFV_CFG_enable = false ∧ d.clearRefv.qualified 4 = false
    ∧ d.clearRefv.refLost 4 = false ∧ d.clearRefv.ref 4 = { d.ref 4 with qual := 0, run := 0, outRun := 0, avgs := [] }
    ∧ d.clearRefv.tim = { d.tim with inputs := d.clearRefv.tim.inputs } := by
  have hput := keeps_put [] (rs := [.TB_REFV_CFG]) (f := F.TB_REFV_CFG_enable) d false 0 (by decide)
  have hbits := (keeps_setBit [] (rs := [.TB_STATUS]) (f := F.TB_STATUS_qualified) (d.put F.TB_REFV_CFG_enable false) 4 false 0
    (by decide)).trans (keeps_setBit [] (f := F.TB_STATUS_lost) _ 4 false 0 (by decide))
  have hmod := keeps_modRef (as := [.tim]) [] (((d.put F.TB_REFV_CFG_enable false).setBit F.TB_STATUS_qualified 4 false).setBit
    F.TB_STATUS_lost 4 false) 4 (fun r => { r with qual := 0, run := 0, outRun := 0, avgs := [] }) (by simp)
  have htim := (hbits.2.1 .tim (by simp)).trans (hput.2.1 .tim (by simp))
  refine ⟨?_, ?_, ?_, ?_, ?_⟩
  · rw [Dev.clearRefv, hmod.flag 0 (by simp), hbits.flag 0 (by decide), Dev.flag_put_self _ _ _ _ (by decide) rfl]
  · rw [Dev.clearRefv, hmod.qualified (by simp), Dev.qualified_setLost, Dev.qualified_setQualified _ _ _ (by decide), if_pos rfl]
  · rw [Dev.clearRefv, hmod.refLost (by simp), Dev.refLost_setLost _ _ _ (by decide), if_pos rfl]
  · rw [Dev.clearRefv, Dev.ref_modRef_self, hbits.ref (by simp), hput.ref (by simp)]
  · rw [Dev.clearRefv, Dev.modRef, htim]

theorem Dev.refvGone_steps (d : Dev) : EvOnly d.clearRefv (d.clearRefv.endCause (evRef 4))
    ∧ Keeps [.ev] [] d.clearRefv (d.clearRefv.endCause (evRef 4))
    ∧ Keeps [.tim] [] (d.clearRefv.endCause (evRef 4)) (d.clearRefv.endCause (evRef 4)).noRefv
    ∧ Keeps [.tim] [.TB_STATUS] (d.clearRefv.endCause (evRef 4)).noRefv d.refvGone :=
  ⟨evOnly_endCause _ _, keeps_ev _ _ _ (by simp), keeps_tim _ _ _ (by simp), keeps_stateChanged _ 4⟩

theorem keeps_refvGone (d : Dev) : Keeps [.tim, .ev] [.TB_REFV_CFG, .TB_STATUS] d d.refvGone := by
  obtain ⟨-, hend, hoff, hchanged⟩ := d.refvGone_steps
  exact ((((keeps_clearRefv d).mono (by simp) (by simp)).trans (hend.mono (by simp) (by simp))).trans (hoff.mono (by simp) (by simp))).trans
    (hchanged.mono (by simp) (by simp))

theorem inputMoves_refvGone (d : Dev) : ∀ y, y ≠ 4 → d.refvGone.ref y = d.ref y ∧ d.refvGone.refLost y = d.refLost y
    ∧ d.refvGone.qualified y = d.qualified y := fun y hy => by
  obtain ⟨hev, -, hoff, -⟩ := d.refvGone_steps
  have hchanged := inputMoves_stateChanged (d.clearRefv.endCause (evRef 4)).noRefv 4
  have hbefore := (inputMoves_clearRefv d).trans hev.inputMoves
  refine ⟨?_, ?_, ?_⟩
  · rw [Dev.refvGone, hchanged.ref y hy, Dev.ref_noRefv, hbefore.ref y hy]
  · rw [Dev.refvGone, (hchanged.bits y hy).1, hoff.refLost (by simp), (hbefore.bits y hy).1]
  · rw [Dev.refvGone, (hchanged.bits y hy).2, hoff.qualified (by simp), (hbefore.bits y hy).2]

/-- REFV as its disabling leaves it, before the lead acts. -/
theorem Dev.refvGone_shows (d : Dev) : d.refvGone.flag F.TB_REFV_CFG_enable = false ∧ d.refvGone.qualified 4 = false
    ∧ d.refvGone.refLost 4 = false ∧ d.refvGone.ref 4 = { d.ref 4 with qual := 0, run := 0, outRun := 0, avgs := [], since := d.now }
    ∧ d.refvGone.tim.refvOff = none := by
  obtain ⟨hev, -, hoff, hchanged⟩ := d.refvGone_steps
  obtain ⟨hflag, hqual, hlost, href, -⟩ := d.clearRefv_shows
  obtain ⟨hlost', hqual'⟩ := (d.clearRefv.endCause (evRef 4)).noRefv.bits_stateChanged 4 4
  have hnow : (d.clearRefv.endCause (evRef 4)).noRefv.now = d.now := (hoff.1.trans hev.1).trans (keeps_clearRefv d).1
  refine ⟨?_, ?_, ?_, ?_, ?_⟩
  · rw [hchanged.flag 0 (by decide), hoff.flag 0 (by simp), hev.flag 0 (by decide), hflag]
  · rw [Dev.refvGone, hqual', hoff.qualified (by simp), hev.qualified (by decide), hqual]
  · rw [Dev.refvGone, hlost', hoff.refLost (by simp), hev.refLost (by decide), hlost]
  · rw [Dev.refvGone, Dev.ref_stateChanged, Dev.ref_noRefv, hnow, hev.ref (by decide), href]
  · obtain ⟨_, _, htim⟩ := (inputMoves_stateChanged (d.clearRefv.endCause (evRef 4)).noRefv 4).tim
    rw [Dev.refvGone, htim, Dev.noRefv]

theorem leadSame_noRefv (d : Dev) : LeadSame 4 d d.noRefv where
  fields := (keeps_tim (as := [.tim]) [] d _ (by simp)).fields 0 _ (by simp)
  bits _ _ := ⟨rfl, rfl⟩
  tb := rfl
  everSel := rfl

theorem LeadSame.trans {x : Nat} {d e f : Dev} (h : LeadSame x d e) (k : LeadSame x e f) : LeadSame x d f where
  fields := h.fields.trans k.fields
  bits y hy := ⟨(k.bits y hy).1.trans (h.bits y hy).1, (k.bits y hy).2.trans (h.bits y hy).2⟩
  tb := k.tb.trans h.tb
  everSel := k.everSel.trans h.everSel

theorem leadSame_refvGone (d : Dev) : LeadSame 4 d d.refvGone :=
  (((inputMoves_clearRefv d).trans d.refvGone_steps.1.inputMoves).leadSame.trans (leadSame_noRefv _)).trans
    (inputMoves_stateChanged _ 4).leadSame

/-! ### PPSIN (R57) -/

/-- PPSIN's loss is noted and reported. -/
def Dev.losePps (d : Dev) : Dev := { d with tim := { d.tim with ppsLost := true } }.occur (evRef 5) 0x40

theorem exec_ppsinLost (s : State) (t : Nat) : exec (.ppsinLost t) s = onDev true t s fun d =>
    if d.tim.ppsLost || !(List.range 4).any d.ppsPairs then d else d.losePps := rfl

theorem Dev.losePps_shows (d : Dev) {x : Nat} (hx : x < 4) (hp : d.ppsPairs x = true) :
    d.losePps.tim = { d.tim with ppsLost := true } ∧ d.losePps.timeBearing x = false ∧ d.losePps.qualified x = d.qualified x
    ∧ d.losePps.refLost x = d.refLost x ∧ Keeps (.tim :: evAreas) evRegs d d.losePps := by
  have htim := keeps_tim (as := [.tim]) [] d { d.tim with ppsLost := true } (by simp)
  have hev : EvOnly { d with tim := { d.tim with ppsLost := true } } d.losePps := evOnly_occur _ _ _ _ _ _ _
  have hk : Keeps (.tim :: evAreas) evRegs d d.losePps := (htim.mono (by simp) (by simp)).trans (hev.mono (by simp) (List.Subset.refl _))
  have hlost : d.losePps.tim = { d.tim with ppsLost := true } := hev.2.1 .tim (by decide)
  have hpairs : d.losePps.ppsPairs x = true := by
    rw [← hp, Dev.ppsPairs, Dev.ppsPairs, hk.flag 0 (by decide), hk.rd 0 (by decide)]
  have hne : (x == 4) = false := by rw [beq_eq_false_iff_ne]; omega
  exact ⟨hlost, by simp [Dev.timeBearing, hpairs, hlost, hne], hk.qualified (by decide) x, hk.refLost (by decide) x, hk⟩

/-! ### The obligation -/

theorem exec_refinLost (s : State) (t x src : Nat) : exec (.refinLost t x src) s = onDev (refinOk x) t s fun d =>
    if d.refLost x then d else d.loseInput x src := rfl

theorem exec_refvLost (s : State) (t src : Nat) : exec (.refvLost t src) s = onDev true t s fun d =>
    if !d.flag F.TB_REFV_CFG_enable || d.refLost 4 || decide (d.now < d.tim.refvFrom + 3 * secU) then d else d.loseInput 4 src := rfl

theorem exec_refvEnableWrite (s : State) (t src : Nat) (en : Bool) : exec (.refvEnableWrite t en src) s = onDev true t s fun d =>
    (d.refvEnable en src).noteReg d .TB_REFV_CFG 0 := rfl

theorem refinOk_of_lt {x : Nat} (h : x < 4) : refinOk x = true := by simp [refinOk, h]

/-- A journal note leaves what the lead has done about a loss. -/
theorem FallsBack.keeps {as : List Area} {rs : List RegName} {d e f : Dev} {x : Nat} (h : FallsBack d e x) (k : Keeps as rs e f)
    (ha : Area.tim ∉ as) (hr : RegName.TB_STATUS ∉ rs) : FallsBack d f x := by
  have hrd (g : Field) (hg : g.reg = .TB_STATUS) : f.rd g = e.rd g := k.rd 0 (by rw [hg]; exact hr)
  have hst (p : Plane) : f.tbState p = e.tbState p := by rw [Dev.tbState_eq, Dev.tbState_eq, hrd _ (tbField_reg p)]
  have hlead : f.lead = e.lead := by rw [Dev.lead, Dev.lead, hrd _ rfl]
  have htim : f.tim = e.tim := k.2.1 .tim ha
  unfold FallsBack at *
  simp only [hrd F.TB_STATUS_sel rfl, hst, hlead, Dev.tb, htim] at *
  exact h

/-- Settles O8: the input's part is marked, and then the lead acts by `actOnLoss`, or nothing follows it. -/
theorem inputLosses : Obligations.InputLosses := by
  refine ⟨?refin, ?refv, ?disabled, ?pps⟩
  case refin =>
    rintro s t x src _ rfl hx hlost
    refine Runs.of_onDev (exec_refinLost s t x src) (refinOk_of_lt hx) ?_
    rw [if_neg (by simp [hlost])]
    exact (s.on t).loseInput_shows src (by omega)
  case refv =>
    rintro s t src _ rfl hen hlost hlate
    refine Runs.of_onDev (exec_refvLost s t src) rfl ?_
    rw [if_neg (by simp [hen, hlost, hlate])]
    obtain ⟨h1, h2, h3, h4, h5, -, h6, h7⟩ := (s.on t).loseInput_shows src (x := 4) (by decide)
    exact ⟨h1, h2, h3, h4, h5, h6, h7⟩
  case disabled =>
    rintro s t src _ rfl hen
    refine Runs.of_onDev (exec_refvEnableWrite s t src false) rfl ?_
    rw [Dev.refvEnable_off _ _ hen]
    obtain ⟨hflag, hqual, hlost, href, hoff⟩ := (s.on t).refvGone_shows
    have hacts := (s.on t).refvGone.actOnLoss_acts 4 src
    have hgone := keeps_refvGone (s.on t)
    have hnote := keeps_noteReg (as := [.ldr]) [] ((s.on t).refvGone.actOnLoss 4 src) (s.on t) .TB_REFV_CFG 0 (by simp)
    refine ⟨?_, ?_, ?_, ?_, fun y hy => ?_, ?_, fun hno => ?_, ?_⟩
    · rw [hnote.flag 0 (by simp), hacts.keeps.flag 0 (by decide), hflag]
    · rw [hnote.qualified (by simp), (hacts.bits 4).2, hqual]
    · rw [hnote.refLost (by simp), (hacts.bits 4).1, hlost]
    · rw [hnote.ref (by simp), hacts.ref, href]
    · obtain ⟨h1, h2, h3⟩ := inputMoves_refvGone (s.on t) y hy
      rw [hnote.ref (by simp), hnote.refLost (by simp), hnote.qualified (by simp), hacts.ref, (hacts.bits y).1, (hacts.bits y).2]
      exact ⟨h1, h2, h3⟩
    · exact (fallsBack_actOnLoss src (leadSame_refvGone _) (hgone.rd _ (by decide))).keeps hnote (by simp) (by simp)
    · have hsame := leadSame_refvGone (s.on t)
      rw [Dev.actOnLoss_of_not _ src (by rwa [hsame.sel, hsame.leadUp])] at hnote ⊢
      exact ⟨by rw [hnote.2.1 .tim (by simp), hoff], (hgone.mono (by simp) (by simp)).trans (hnote.mono (by simp) (by simp))⟩
    · exact ((hgone.mono (by decide) (by decide)).trans (hacts.keeps.mono (by decide) (by decide))).trans (hnote.mono (by decide) (by decide))
  case pps =>
    rintro s t x _ rfl hlive hx hp
    refine Runs.of_onDev (exec_ppsinLost s t) rfl ?_
    have hany : (List.range 4).any (s.on t).ppsPairs = true := List.any_eq_true.mpr ⟨x, by simpa using hx, hp⟩
    rw [if_neg (by simp [hlive, hany])]
    exact (s.on t).losePps_shows hx hp

end Sys2Proof.Machine
end

section
/-! SUPPORT. The obligation on inputs that come back and qualify (R60, R61, R67 to R70). -/

namespace Sys2Proof.Machine

/-! ### An input comes back (R61, R69) -/

/-- A lost input is present again: its bit ends, and it qualifies anew. -/
def Dev.markBack (d : Dev) (x : Nat) : Dev :=
  (d.setBit F.TB_STATUS_lost x false).modRef x fun r => { r with qual := 1, run := 0, outRun := 0 }

theorem Dev.inputBack_eq (d : Dev) (x : Nat) : d.inputBack x = ((d.markBack x).endCause (evRef x)).stateChanged x := rfl

theorem keeps_markBack (d : Dev) (x : Nat) : Keeps [.tim] [.TB_STATUS] d (d.markBack x) :=
  (keeps_setBit _ d x false 0 (by simp [F.TB_STATUS_lost])).trans (keeps_modRef _ _ x _ (by simp))

theorem keeps_inputBack (d : Dev) (x : Nat) : Keeps [.tim, .ev] [.TB_STATUS] d (d.inputBack x) := by
  rw [Dev.inputBack_eq]
  exact (((keeps_markBack d x).mono (by simp) (by simp)).trans (keeps_ev _ _ _ (by simp))).trans
    ((keeps_stateChanged _ x).mono (by simp) (by simp))

theorem inputMoves_inputBack (d : Dev) {x : Nat} (hx : x < 5) : InputMoves x d (d.inputBack x) := by
  rw [Dev.inputBack_eq]
  exact (((inputMoves_setLost d false hx).trans (inputMoves_modRef _ x _)).trans (evOnly_endCause _ _).inputMoves).trans
    (inputMoves_stateChanged _ x)

/-- An input as its return leaves it. -/
theorem Dev.inputBack_shows (d : Dev) {x : Nat} (hx : x < 5) :
    (d.inputBack x).refLost x = false ∧ (d.inputBack x).qualified x = d.qualified x
    ∧ (d.inputBack x).ref x = { d.ref x with qual := 1, run := 0, outRun := 0, since := d.now } := by
  have hbit := keeps_setBit [] (rs := [.TB_STATUS]) (f := F.TB_STATUS_lost) d x false 0 (by decide)
  have hmod := keeps_modRef (as := [.tim]) [] (d.setBit F.TB_STATUS_lost x false) x (fun r => { r with qual := 1, run := 0, outRun := 0 })
    (by simp)
  have hend : EvOnly (d.markBack x) ((d.markBack x).endCause (evRef x)) := evOnly_endCause _ _
  obtain ⟨hlost, hqual⟩ := ((d.markBack x).endCause (evRef x)).bits_stateChanged x x
  rw [Dev.inputBack_eq]
  refine ⟨?_, ?_, ?_⟩
  · rw [hlost, hend.refLost (by decide), Dev.markBack, hmod.refLost (by simp), Dev.refLost_setLost _ _ _ hx, if_pos rfl]
  · rw [hqual, hend.qualified (by decide), Dev.markBack, hmod.qualified (by simp), Dev.qualified_setLost]
  · rw [Dev.ref_stateChanged, hend.1, hend.ref (by decide), (keeps_markBack d x).1, Dev.markBack, Dev.ref_modRef_self, hbit.ref (by simp)]

/-! ### REFV is enabled (R60) -/

/-- REFV is on trial from now. -/
def Dev.tryRefv (d : Dev) : Dev :=
  ({ d with tim := { d.tim with refvFrom := d.now } }).modRef 4 fun r =>
    { r with qual := 1, run := 0, outRun := 0, samples := [], avgs := [] }

theorem Dev.refvEnable_on (d : Dev) (src : Nat) (h : d.flag F.TB_REFV_CFG_enable = false) :
    d.refvEnable true src = ((d.put F.TB_REFV_CFG_enable true).tryRefv).stateChanged 4 := by
  unfold Dev.refvEnable
  rw [h, if_pos (by decide)]
  rfl

theorem keeps_tryRefv (d : Dev) : Keeps [.tim] [] d d.tryRefv :=
  (keeps_tim _ d _ (by simp)).trans (keeps_modRef _ _ 4 _ (by simp))

theorem Dev.ref_tryRefv (d : Dev) (y : Nat) : d.tryRefv.ref y =
    if y = 4 then { d.ref 4 with qual := 1, run := 0, outRun := 0, samples := [], avgs := [] } else d.ref y := by
  by_cases hy : y = 4
  · subst hy
    rw [Dev.tryRefv, Dev.ref_modRef_self, if_pos rfl]
    rfl
  · rw [Dev.tryRefv, Dev.ref_modRef_ne _ _ hy, if_neg hy]
    rfl

theorem Dev.refvFrom_tryRefv (d : Dev) : d.tryRefv.tim.refvFrom = d.now := rfl

/-! ### One sample (R67 to R71) -/

/-- Only input `x`, the registers of a state change and the event unit may differ. -/
structure InputActs (x : Nat) (d e : Dev) : Prop where
  moves : InputMoves x d e
  keeps : Keeps (.tim :: evAreas) (.TB_STATUS :: evRegs) d e

theorem InputActs.refl (x : Nat) (d : Dev) : InputActs x d d := ⟨InputMoves.refl x d, Keeps.refl _ _ d⟩

theorem InputActs.trans {x : Nat} {d e f : Dev} (h : InputActs x d e) (k : InputActs x e f) : InputActs x d f :=
  ⟨h.moves.trans k.moves, h.keeps.trans k.keeps⟩

theorem inputActs_modRef (d : Dev) (x : Nat) (f : RefIn → RefIn) : InputActs x d (d.modRef x f) :=
  ⟨inputMoves_modRef d x f, keeps_modRef _ d x f (by decide)⟩

theorem EvOnly.inputActs {x : Nat} {d e : Dev} (h : EvOnly d e) : InputActs x d e := ⟨h.inputMoves, h.mono (by decide) (by decide)⟩

theorem inputActs_setQualified (d : Dev) {x : Nat} (b : Bool) (h : x < 5) : InputActs x d (d.setBit F.TB_STATUS_qualified x b) :=
  ⟨inputMoves_setQualified d b h, keeps_setBit _ d x b 0 (by decide)⟩

theorem inputActs_stateChanged (d : Dev) (x : Nat) : InputActs x d (d.stateChanged x) :=
  ⟨inputMoves_stateChanged d x, (keeps_stateChanged d x).mono (by decide) (by decide)⟩

theorem Keeps.hardWin {as : List Area} {rs : List RegName} {d e : Dev} (h : Keeps as rs d e) (hr : RegName.TB_QUAL ∉ rs) :
    e.hardWin = d.hardWin := by rw [Dev.hardWin, Dev.hardWin, h.rd 0 hr]

theorem Dev.qualified_modRef (d : Dev) (x y : Nat) (f : RefIn → RefIn) : (d.modRef x f).qualified y = d.qualified y := rfl

/-- The disqualification of an input, of which its average says nothing. -/
theorem Dev.disqualify_shows (d : Dev) {x : Nat} (hx : x < 5) : InputActs x d (d.disqualify x) ∧ (d.disqualify x).qualified x = false
    ∧ (d.disqualify x).ref x = { d.ref x with qual := 3, since := d.now } := by
  have hbit := inputActs_setQualified d false hx
  have hmod := inputActs_modRef (d.setBit F.TB_STATUS_qualified x false) x fun r => { r with qual := 3 }
  have hev : EvOnly ((d.setBit F.TB_STATUS_qualified x false).modRef x fun r => { r with qual := 3 })
      (((d.setBit F.TB_STATUS_qualified x false).modRef x fun r => { r with qual := 3 }).when (d.qualified x)
        fun d => d.occur (evRef x) 0x42 (ofInt 32 (d.ref x).avg)) := Keeps.when fun _ => evOnly_occur _ _ _ _ _ _ _
  have hset := keeps_setBit [] (rs := [.TB_STATUS]) (f := F.TB_STATUS_qualified) d x false 0 (by decide)
  unfold Dev.disqualify
  refine ⟨((hbit.trans hmod).trans hev.inputActs).trans (inputActs_stateChanged _ x), ?_, ?_⟩
  · rw [(Dev.bits_stateChanged _ x x).2, hev.qualified (by decide), Dev.qualified_modRef, Dev.qualified_setQualified _ _ _ hx, if_pos rfl]
  · rw [Dev.ref_stateChanged, hev.1, hmod.keeps.1, hset.1, hev.ref (by decide), Dev.ref_modRef_self, hset.ref (by simp)]

/-- The input begins to qualify with its first sample. -/
def Dev.beginQual (d : Dev) (x : Nat) : Dev := d.when ((d.ref x).qual == 0) fun d => d.modRef x fun r => { r with qual := 1 }

theorem Dev.beginQual_shows (d : Dev) (x : Nat) : InputActs x d (d.beginQual x) ∧ (d.beginQual x).qualified x = d.qualified x
    ∧ ∃ q, (d.beginQual x).ref x = { d.ref x with qual := q } := by
  unfold Dev.beginQual Dev.when
  split
  · exact ⟨inputActs_modRef d x _, rfl, 1, Dev.ref_modRef_self d x _⟩
  · exact ⟨InputActs.refl x d, rfl, (d.ref x).qual, rfl⟩

/-! #### An outlier (R68) -/

/-- An outlier is counted. -/
def Dev.countOutlier (d : Dev) (x : Nat) : Dev :=
  d.modRef x fun r => { r with outRun := r.outRun + 1, outliers := satAdd 16 r.outliers 1, run := 0 }

theorem exec_qualSample (s : State) (t x : Nat) (off : Int) : exec (.qualSample t x off) s = onDev (inputOk x) t s fun d =>
    if d.refLost x || (x == 4 && !d.flag F.TB_REFV_CFG_enable) then d
    else if !(d.ref x).samples.isEmpty && decide (off - (d.ref x).avg < -d.hardWin ∨ d.hardWin < off - (d.ref x).avg) then
      ((d.beginQual x).countOutlier x).when (decide (3 ≤ (((d.beginQual x).countOutlier x).ref x).outRun)) fun d => d.disqualify x
    else (d.beginQual x).acceptSample x off := by
  show execQualSample t x off s = _
  unfold execQualSample
  refine congrArg (onDev (inputOk x) t s) (funext fun d => ?_)
  have hwin : (d.beginQual x).hardWin = d.hardWin := (d.beginQual_shows x).1.keeps.hardWin (by decide)
  show (if d.refLost x || (x == 4 && !d.flag F.TB_REFV_CFG_enable) then d
    else if !(d.ref x).samples.isEmpty && decide (off - (d.ref x).avg < -(d.beginQual x).hardWin ∨ (d.beginQual x).hardWin < off - (d.ref x).avg)
    then _ else _) = _
  rw [hwin]
  rfl

theorem Dev.outlier_shows (d : Dev) {x : Nat} (hx : x < 5) {e : Dev}
    (he : e = (d.countOutlier x).when (decide (3 ≤ ((d.countOutlier x).ref x).outRun)) fun d => d.disqualify x) :
    InputActs x d e ∧ (e.ref x).samples = (d.ref x).samples ∧ (e.ref x).run = 0 ∧ (e.ref x).outRun = (d.ref x).outRun + 1
    ∧ (e.ref x).outliers = min ((d.ref x).outliers + 1) 65535 ∧ e.qualified x = (d.qualified x && decide ((d.ref x).outRun < 2)) := by
  have hcount : InputActs x d (d.countOutlier x) := inputActs_modRef d x _
  have href : (d.countOutlier x).ref x = _ := Dev.ref_modRef_self d x _
  have hqual : (d.countOutlier x).qualified x = d.qualified x := rfl
  obtain ⟨hdis, hdisq, hdisr⟩ := (d.countOutlier x).disqualify_shows hx
  rw [href] at he
  by_cases h : 3 ≤ (d.ref x).outRun + 1
  · rw [Dev.when, if_pos (decide_eq_true h)] at he
    have hout : ¬(d.ref x).outRun < 2 := by omega
    subst he
    rw [hdisr, href]
    exact ⟨hcount.trans hdis, rfl, rfl, rfl, rfl, by rw [hdisq]; simp [hout]⟩
  · rw [Dev.when, if_neg (by simpa using h)] at he
    have hout : (d.ref x).outRun < 2 := by omega
    subst he
    rw [href]
    exact ⟨hcount, rfl, rfl, rfl, rfl, by rw [hqual]; simp [hout]⟩

/-! #### An accepted sample (R67, R69 to R71) -/

/-- A sample joins the last 16. -/
def Dev.joinSample (d : Dev) (x : Nat) (off : Int) : Dev :=
  (d.modRef x fun r => { r with samples := (off :: r.samples).take 16, run := r.run + 1, outRun := 0 }).modRef x fun r =>
    { r with avgs := ((d.now, r.avg) :: r.avgs).filter fun a => decide (d.now ≤ a.1 + 60 * secU) }

/-- The average beyond the soft window, and its drift, are reported as they begin (R71). -/
def Dev.reportAverage (d : Dev) (x : Nat) (out drift : Bool) (a : Nat) : Dev :=
  (d.when (out && !(d.ref x).softOut) fun d => d.occur (evRef x) 0x43 a).when (drift && !(d.ref x).drifting) fun d =>
    d.occur (evRef x) 0x44 a

/-- They are reported and remembered. -/
def Dev.warnAverage (d : Dev) (x : Nat) : Dev :=
  (d.reportAverage x (decide ((d.ref x).avg < -d.softWin ∨ d.softWin < (d.ref x).avg))
    (decide ((d.ref x).slope < -100 ∨ 100 < (d.ref x).slope)) (ofInt 32 (d.ref x).avg)).modRef x fun r =>
    { r with softOut := decide ((d.ref x).avg < -d.softWin ∨ d.softWin < (d.ref x).avg)
             drifting := decide ((d.ref x).slope < -100 ∨ 100 < (d.ref x).slope) }

theorem evOnly_reportAverage (d : Dev) (x : Nat) (out drift : Bool) (a : Nat) : EvOnly d (d.reportAverage x out drift a) :=
  (Keeps.when fun _ => evOnly_occur _ _ _ _ _ _ _).trans (Keeps.when fun _ => evOnly_occur _ _ _ _ _ _ _)

/-- The input qualifies (R69). -/
def Dev.qualify (d : Dev) (x : Nat) (a : Nat) : Dev :=
  (((d.setBit F.TB_STATUS_qualified x true).modRef x fun r => { r with qual := 2 }).occur (evRef x) 0x41 a).stateChanged x

theorem Dev.acceptSample_eq (d : Dev) (x : Nat) (off : Int) : d.acceptSample x off =
    if (d.joinSample x off).beyondHard ((d.joinSample x off).ref x) then
      ((d.joinSample x off).warnAverage x).when (!(d.ref x).samples.isEmpty && !d.beyondHard (d.ref x)) fun d => d.disqualify x
    else if !((d.joinSample x off).warnAverage x).qualified x && decide (16 ≤ ((d.joinSample x off).ref x).run) then
      ((d.joinSample x off).warnAverage x).qualify x (ofInt 32 ((d.joinSample x off).ref x).avg)
    else (d.joinSample x off).warnAverage x := by
  unfold Dev.acceptSample Dev.qualify Dev.warnAverage Dev.reportAverage
  rfl

theorem Dev.joinSample_shows (d : Dev) (x : Nat) (off : Int) : InputActs x d (d.joinSample x off)
    ∧ (d.joinSample x off).qualified x = d.qualified x ∧ ∃ avgs, (d.joinSample x off).ref x =
      { d.ref x with samples := (off :: (d.ref x).samples).take 16, run := (d.ref x).run + 1, outRun := 0, avgs := avgs } := by
  unfold Dev.joinSample
  refine ⟨(inputActs_modRef d x _).trans (inputActs_modRef _ x _), rfl, ?_⟩
  rw [Dev.ref_modRef_self, Dev.ref_modRef_self]
  exact ⟨_, rfl⟩

theorem Dev.warnAverage_shows (d : Dev) (x : Nat) : InputActs x d (d.warnAverage x) ∧ (d.warnAverage x).qualified x = d.qualified x
    ∧ ∃ out drift, (d.warnAverage x).ref x = { d.ref x with softOut := out, drifting := drift } := by
  have hev := evOnly_reportAverage d x (decide ((d.ref x).avg < -d.softWin ∨ d.softWin < (d.ref x).avg))
    (decide ((d.ref x).slope < -100 ∨ 100 < (d.ref x).slope)) (ofInt 32 (d.ref x).avg)
  unfold Dev.warnAverage
  refine ⟨hev.inputActs.trans (inputActs_modRef _ x _), ?_, ?_⟩
  · rw [Dev.qualified_modRef, hev.qualified (by decide)]
  · rw [Dev.ref_modRef_self, hev.ref (by decide)]
    exact ⟨_, _, rfl⟩

theorem Dev.qualify_shows (d : Dev) {x : Nat} (a : Nat) (hx : x < 5) : InputActs x d (d.qualify x a) ∧ (d.qualify x a).qualified x = true
    ∧ (d.qualify x a).ref x = { d.ref x with qual := 2, since := d.now } := by
  have hbit := inputActs_setQualified d true hx
  have hmod := inputActs_modRef (d.setBit F.TB_STATUS_qualified x true) x fun r => { r with qual := 2 }
  have hset := keeps_setBit [] (rs := [.TB_STATUS]) (f := F.TB_STATUS_qualified) d x true 0 (by decide)
  have hev : EvOnly ((d.setBit F.TB_STATUS_qualified x true).modRef x fun r => { r with qual := 2 })
      (((d.setBit F.TB_STATUS_qualified x true).modRef x fun r => { r with qual := 2 }).occur (evRef x) 0x41 a) := evOnly_occur _ _ _ _ _ _ _
  unfold Dev.qualify
  refine ⟨((hbit.trans hmod).trans hev.inputActs).trans (inputActs_stateChanged _ x), ?_, ?_⟩
  · rw [(Dev.bits_stateChanged _ x x).2, hev.qualified (by decide), Dev.qualified_modRef, Dev.qualified_setQualified _ _ _ hx, if_pos rfl]
  · rw [Dev.ref_stateChanged, hev.1, hmod.keeps.1, hset.1, hev.ref (by decide), Dev.ref_modRef_self, hset.ref (by simp)]

theorem Dev.beyondHard_eq (d : Dev) (r : RefIn) : d.beyondHard r = !decide (-d.hardWin ≤ r.avg ∧ r.avg ≤ d.hardWin) := by
  rw [Dev.beyondHard, Bool.eq_iff_iff]
  simp only [decide_eq_true_eq, Bool.not_eq_true', decide_eq_false_iff_not]
  omega

/-- An accepted sample: the mean of the last 16 decides whether the input qualifies. -/
theorem Dev.acceptSample_shows (d : Dev) {x : Nat} (off : Int) (hx : x < 5) {r : Int} {inside was : Bool}
    (hr : r = mean 0 ((off :: (d.ref x).samples).take 16)) (hin : inside = decide (-d.hardWin ≤ r ∧ r ≤ d.hardWin))
    (hwas : was = decide ((d.ref x).samples ≠ [] ∧ -d.hardWin ≤ (d.ref x).avg ∧ (d.ref x).avg ≤ d.hardWin)) :
    InputActs x d (d.acceptSample x off) ∧ ((d.acceptSample x off).ref x).samples = (off :: (d.ref x).samples).take 16
    ∧ ((d.acceptSample x off).ref x).run = (d.ref x).run + 1 ∧ ((d.acceptSample x off).ref x).outRun = 0
    ∧ (d.acceptSample x off).qualified x =
      (if inside then d.qualified x || decide (16 ≤ (d.ref x).run + 1) else d.qualified x && !was) := by
  obtain ⟨htake, htakeq, avgs, htaker⟩ := d.joinSample_shows x off
  obtain ⟨hwarn, hwarnq, out, drift, hwarnr⟩ := (d.joinSample x off).warnAverage_shows x
  obtain ⟨hdis, hdisq, hdisr⟩ := ((d.joinSample x off).warnAverage x).disqualify_shows hx
  have hboth := htake.trans hwarn
  have hbeyond : (d.joinSample x off).beyondHard ((d.joinSample x off).ref x) = !inside := by
    rw [Dev.beyondHard_eq, htake.keeps.hardWin (by decide), RefIn.avg, htaker, hin, hr]
  have hbefore : (!(d.ref x).samples.isEmpty && !d.beyondHard (d.ref x)) = was := by
    rw [Dev.beyondHard_eq, hwas]
    cases (d.ref x).samples <;> simp
  have hrun : ((d.joinSample x off).ref x).run = (d.ref x).run + 1 := by rw [htaker]
  rw [Dev.acceptSample_eq, hbeyond, hbefore, hwarnq, htakeq, hrun]
  cases inside with
  | false =>
    rw [if_pos (by decide), if_neg (by decide)]
    cases was with
    | false =>
      rw [Dev.when, if_neg (by decide), hwarnr, htaker]
      exact ⟨hboth, rfl, rfl, rfl, by rw [hwarnq, htakeq]; simp⟩
    | true =>
      rw [Dev.when, if_pos rfl, hdisr, hwarnr, htaker]
      exact ⟨hboth.trans hdis, rfl, rfl, rfl, by rw [hdisq]; simp⟩
  | true =>
    rw [if_neg (by decide), if_pos rfl]
    generalize ofInt 32 ((d.joinSample x off).ref x).avg = a
    obtain ⟨hyes, hyesq, hyesr⟩ := ((d.joinSample x off).warnAverage x).qualify_shows a hx
    by_cases hq : (!d.qualified x && decide (16 ≤ (d.ref x).run + 1)) = true
    · obtain ⟨-, h16⟩ : d.qualified x = false ∧ 16 ≤ (d.ref x).run + 1 := by simpa using hq
      rw [if_pos hq, hyesr, hwarnr, htaker]
      exact ⟨hboth.trans hyes, rfl, rfl, rfl, by rw [hyesq]; simp [h16]⟩
    · rw [if_neg hq, hwarnr, htaker]
      refine ⟨hboth, rfl, rfl, rfl, ?_⟩
      rw [hwarnq, htakeq]
      cases hb : d.qualified x <;> simp_all

/-! ### The obligation -/

theorem exec_refinEdgesReturn (s : State) (t x : Nat) : exec (.refinEdgesReturn t x) s = onDev (edgeInOk x) t s fun d =>
    if x = 5 then { d with tim := { d.tim with ppsLost := false } }
    else if d.refLost x || (d.ref x).qual == 0 then d.inputBack x else d := rfl

theorem inputOk_of_lt {x : Nat} (h : x < 5) : inputOk x = true := by simp [inputOk, h]

/-- Settles O9: an input's return, its enabling, an outlier and an accepted sample, each as its own step leaves it. -/
theorem inputReturns : Obligations.InputReturns := by
  refine ⟨?edges, ?pps, ?enabled, ?outlier, ?accepted⟩
  case edges =>
    rintro s t x _ rfl hx hback
    refine Runs.of_onDev (exec_refinEdgesReturn s t x) (by simp [edgeInOk, hx]) ?_
    rw [if_neg (by omega), if_pos (by simpa using hback)]
    obtain ⟨hlost, hqual, href⟩ := (s.on t).inputBack_shows (x := x) (by omega)
    have hmoves := inputMoves_inputBack (s.on t) (x := x) (by omega)
    exact ⟨hlost, hqual, href, fun y hy => ⟨hmoves.ref y hy, hmoves.bits y hy⟩, hmoves.sel, keeps_inputBack _ x⟩
  case pps =>
    rintro s t _ rfl
    refine Runs.of_onDev (exec_refinEdgesReturn s t 5) (by decide) ?_
    rw [if_pos rfl]
    exact ⟨rfl, keeps_tim _ _ _ (by simp)⟩
  case enabled =>
    rintro s t src _ rfl hoff
    refine Runs.of_onDev (exec_refvEnableWrite s t src true) rfl ?_
    rw [Dev.refvEnable_on _ _ hoff]
    have hput := keeps_put [] (rs := [.TB_REFV_CFG]) (f := F.TB_REFV_CFG_enable) (s.on t) true 0 (by decide)
    have htry := keeps_tryRefv ((s.on t).put F.TB_REFV_CFG_enable true)
    have hchanged := keeps_stateChanged ((s.on t).put F.TB_REFV_CFG_enable true).tryRefv 4
    have hmoves := inputMoves_stateChanged ((s.on t).put F.TB_REFV_CFG_enable true).tryRefv 4
    have hbits := ((s.on t).put F.TB_REFV_CFG_enable true).tryRefv.bits_stateChanged 4
    have hnote := keeps_noteReg (as := [.ldr]) [] (((s.on t).put F.TB_REFV_CFG_enable true).tryRefv.stateChanged 4) (s.on t)
      .TB_REFV_CFG 0 (by simp)
    refine ⟨?_, ?_, ?_, fun y hy => ?_, fun y => ⟨?_, ?_⟩, ?_, ?_⟩
    · rw [hnote.flag 0 (by simp), hchanged.flag 0 (by decide), htry.flag 0 (by simp), Dev.flag_put_self _ _ _ _ (by decide) rfl]
    · obtain ⟨_, _, htim⟩ := hmoves.tim
      rw [hnote.2.1 .tim (by simp), htim, Dev.refvFrom_tryRefv, hput.1]
    · rw [hnote.ref (by simp), Dev.ref_stateChanged, Dev.ref_tryRefv, if_pos rfl, hput.ref (by simp), htry.1, hput.1]
    · rw [hnote.ref (by simp), hmoves.ref y hy, Dev.ref_tryRefv, if_neg hy, hput.ref (by simp)]
    · rw [hnote.refLost (by simp), (hbits y).1, htry.refLost (by simp), hput.refLost (by simp)]
    · rw [hnote.qualified (by simp), (hbits y).2, htry.qualified (by simp), hput.qualified (by simp)]
    · rw [hnote.rd 0 (by simp), hmoves.sel, htry.rd 0 (by simp), hput.rd 0 (by decide)]
    · exact (((hput.mono (by simp) (by simp)).trans (htry.mono (by simp) (by simp))).trans (hchanged.mono (by simp) (by simp))).trans
        (hnote.mono (by simp) (by simp))
  case outlier =>
    rintro s t x off _ rfl hx hlost hen hsome hout
    refine Runs.of_onDev (exec_qualSample s t x off) (inputOk_of_lt hx) ?_
    rw [if_neg (by simpa [hlost] using hen), if_pos (by simpa [hsome] using hout)]
    obtain ⟨hbegin, hbq, q, hbr⟩ := (s.on t).beginQual_shows x
    obtain ⟨hacts, hsamples, hrun, houtRun, houtliers, hqual⟩ := ((s.on t).beginQual x).outlier_shows hx rfl
    have hall := hbegin.trans hacts
    rw [hbr] at hsamples houtRun houtliers hqual
    exact ⟨hsamples, hrun, houtRun, houtliers, by rw [hqual, hbq], hall.moves.ref, hall.moves.sel, hall.keeps⟩
  case accepted =>
    rintro s t x off r inside was _ rfl hx hlost hen hwin hr hin hwas
    refine Runs.of_onDev (exec_qualSample s t x off) (inputOk_of_lt hx) ?_
    have hnot : ¬(!((s.on t).ref x).samples.isEmpty && decide (off - ((s.on t).ref x).avg < -(s.on t).hardWin
        ∨ (s.on t).hardWin < off - ((s.on t).ref x).avg)) = true := by
      rcases hwin with hwin | ⟨hlo, hhi⟩
      · simp [hwin]
      · simp only [Bool.and_eq_true, decide_eq_true_eq, not_and]
        omega
    rw [if_neg (by simpa [hlost] using hen), if_neg hnot]
    obtain ⟨hbegin, hbq, q, hbr⟩ := (s.on t).beginQual_shows x
    have hsame : ((s.on t).beginQual x).hardWin = (s.on t).hardWin := hbegin.keeps.hardWin (by decide)
    obtain ⟨hacts, hsamples, hrun, houtRun, hqual⟩ := ((s.on t).beginQual x).acceptSample_shows off hx (r := r) (inside := inside)
      (was := was) (by rw [hbr, hr]) (by rw [hsame, hin]) (by rw [hsame, hbr, hwas]; rfl)
    have hall := hbegin.trans hacts
    rw [hbr] at hsamples hrun hqual
    exact ⟨hsamples, hrun, houtRun, by rw [hqual, hbq], hall.moves.ref, hall.moves.sel, hall.keeps⟩

end Sys2Proof.Machine
end

section
/-! SUPPORT. The obligation on the priority manager and manual selection (R73, R75 to R80). -/

namespace Sys2Proof.Machine

/-! ### Eligibility and ranks (R74) -/

/-- The ranks of the inputs, and what makes them eligible, are the same. -/
structure Ranks (d e : Dev) : Prop where
  prio : ∀ i, e.reg .TB_PRIO i = d.reg .TB_PRIO i
  bits : ∀ y, e.refLost y = d.refLost y ∧ e.qualified y = d.qualified y

theorem Ranks.trans {d e f : Dev} (h : Ranks d e) (k : Ranks e f) : Ranks d f :=
  ⟨fun i => (k.prio i).trans (h.prio i), fun y => ⟨(k.bits y).1.trans (h.bits y).1, (k.bits y).2.trans (h.bits y).2⟩⟩

theorem Keeps.ranks {as : List Area} {rs : List RegName} {d e : Dev} (h : Keeps as rs d e) (hp : RegName.TB_PRIO ∉ rs)
    (hs : RegName.TB_STATUS ∉ rs) : Ranks d e := ⟨fun i => h.2.2 .TB_PRIO i hp, fun y => ⟨h.refLost hs y, h.qualified hs y⟩⟩

theorem LeadTakes.ranks {d e : Dev} {x v : Nat} (h : LeadTakes d e x v) : Ranks d e :=
  ⟨fun i => h.keeps.2.2 .TB_PRIO i (by decide), fun y => ⟨h.refLost y, h.qualified y⟩⟩

theorem Ranks.eligible {d e : Dev} (h : Ranks d e) (y : Nat) : e.eligible y = d.eligible y := by
  have hflag : e.flag F.TB_PRIO_enable y = d.flag F.TB_PRIO_enable y := congrArg (fun w => F.TB_PRIO_enable.get w == 1) (h.prio y)
  rw [Dev.eligible, Dev.eligible, hflag, (h.bits y).1, (h.bits y).2]

theorem Ranks.best {d e : Dev} (h : Ranks d e) (l : List Nat) : e.best l = d.best l := by
  have hprio (i : Nat) : e.rd F.TB_PRIO_prio i = d.rd F.TB_PRIO_prio i := congrArg F.TB_PRIO_prio.get (h.prio i)
  have hbetter : e.better = d.better := funext fun x => funext fun y => by rw [Dev.better, Dev.better, hprio, hprio]
  rw [Dev.best, Dev.best, hbetter]

/-- The best of the inputs other than `x` that the manager sees. -/
theorem Ranks.bestBut {d e : Dev} (h : Ranks d e) (l : List Nat) (x : Nat) :
    e.best (l.filter fun y => y != x && e.eligible y) = d.best (l.filter fun y => y != x && d.eligible y) := by
  rw [h.best, funext fun y => congrArg (y != x && ·) (h.eligible y)]

/-- The best of a list is one of it, or the one the search began with. -/
theorem Dev.foldl_better_mem (d : Dev) (xs : List Nat) (b : Nat) :
    xs.foldl (fun b x => if b == 7 || d.better x b then x else b) b ∈ b :: xs := by
  induction xs generalizing b with
  | nil => exact List.mem_cons_self
  | cons x xs ih =>
    rw [List.foldl_cons]
    split
    · exact List.mem_cons_of_mem b (ih x)
    · exact List.cons_subset_cons b (List.subset_cons_self x xs) (ih b)

theorem Dev.best_mem (d : Dev) {xs : List Nat} (h : xs ≠ []) : d.best xs ∈ xs := by
  cases xs with
  | nil => exact absurd rfl h
  | cons x xs =>
    show xs.foldl (fun b x => if b == 7 || d.better x b then x else b) x ∈ x :: xs
    exact d.foldl_better_mem xs x

theorem Dev.best_lt (d : Dev) {xs : List Nat} (h : ∀ x ∈ xs, x < 5) : d.best xs < 8 := by
  by_cases hxs : xs = []
  · rw [hxs]; exact (by decide : 7 < 8)
  · exact (h _ (d.best_mem hxs)).trans (by decide)

theorem Dev.lt_of_eligible {d : Dev} {x : Nat} (h : d.eligible x = true) : x < 5 := by
  simp only [Dev.eligible, Bool.and_eq_true, decide_eq_true_eq] at h
  exact h.1.1.1

/-! ### The fall-back is designated (R79) -/

/-- Input `f`, or none, as designated fall-back. -/
def Dev.designateTo (d : Dev) (f : Nat) : Dev := (d.wr F.TB_STATUS_fallback f).wr F.TB_DPLL_SEL_fallback f d.lead.id

theorem Dev.designate_eq (d : Dev) :
    d.designate = d.designateTo (d.best (d.tim.sees.filter fun y => y != d.rd F.TB_STATUS_sel && d.eligible y)) := rfl

theorem keeps_designateTo (d : Dev) (f : Nat) : Keeps [] [.TB_STATUS, .TB_DPLL_SEL] d (d.designateTo f) :=
  (keeps_wr _ d _ _ (by simp [F.TB_STATUS_fallback])).trans (keeps_wr _ _ _ _ (by simp [F.TB_DPLL_SEL_fallback]))

theorem fieldsOnly_designateTo (d : Dev) (f : Nat) : FieldsOnly .TB_STATUS 0 [F.TB_STATUS_fallback] d (d.designateTo f) :=
  (fieldsOnly_wr d F.TB_STATUS_fallback f 0 (by decide)).trans
    ((keeps_wr (f := F.TB_DPLL_SEL_fallback) [] (rs := [.TB_DPLL_SEL]) _ f _ (by decide)).fields 0 _ (by decide))

theorem Dev.designateTo_shows (d : Dev) {f : Nat} (h : f < 8) : (d.designateTo f).rd F.TB_STATUS_fallback = f
    ∧ (d.designateTo f).rd F.TB_DPLL_SEL_fallback d.lead.id = f
    ∧ (d.designateTo f).rd F.TB_DPLL_SEL_manual d.lead.id = d.rd F.TB_DPLL_SEL_manual d.lead.id := by
  unfold Dev.designateTo
  refine ⟨?_, ?_, ?_⟩
  · rw [Dev.rd_wr_name _ _ _ _ _ _ (by decide), Dev.rd_wr_fits _ _ _ _ (by decide) h]
  · rw [Dev.rd_wr_fits _ _ _ _ (by decide) h]
  · rw [Dev.rd_wr_field _ F.TB_DPLL_SEL_fallback F.TB_DPLL_SEL_manual _ _ rfl (by decide) (by decide),
      Dev.rd_wr_name _ _ _ _ _ _ (by decide)]

theorem keeps_designate (d : Dev) : Keeps [] [.TB_STATUS, .TB_DPLL_SEL] d d.designate := by
  rw [Dev.designate_eq]; exact keeps_designateTo d _

theorem fieldsOnly_designate (d : Dev) : FieldsOnly .TB_STATUS 0 [F.TB_STATUS_fallback] d d.designate := by
  rw [Dev.designate_eq]; exact fieldsOnly_designateTo d _

/-- The designated fall-back stands in TB_STATUS and in the lead's TB_DPLL_SEL, whose selection stays. -/
theorem Dev.designate_shows (d : Dev) :
    d.designate.rd F.TB_STATUS_fallback = d.best (d.tim.sees.filter fun y => y != d.rd F.TB_STATUS_sel && d.eligible y)
    ∧ d.designate.rd F.TB_DPLL_SEL_fallback d.lead.id = d.designate.rd F.TB_STATUS_fallback
    ∧ d.designate.rd F.TB_DPLL_SEL_manual d.lead.id = d.rd F.TB_DPLL_SEL_manual d.lead.id := by
  have hlt : d.best (d.tim.sees.filter fun y => y != d.rd F.TB_STATUS_sel && d.eligible y) < 8 := d.best_lt fun x hx => by
    have hel := (List.mem_filter.mp hx).2
    rw [Bool.and_eq_true] at hel
    exact Dev.lt_of_eligible hel.2
  rw [Dev.designate_eq]
  obtain ⟨hfall, hsel, hmanual⟩ := d.designateTo_shows hlt
  exact ⟨hfall, hsel.trans hfall.symm, hmanual⟩

/-! ### The manager selects (R75) -/

/-- The manager's choice is noted, before the lead's DPLL takes it. -/
def Dev.pmNote (d : Dev) (x : Nat) : Dev :=
  let e := { d with tim := { d.tim with pmAt := some d.now } }
  e.wr F.TB_DPLL_SEL_manual x e.lead.id

/-- The manager's last choice lies more than `h` back. -/
theorem not_soon_of_all {o : Option Nat} {h now : Nat} (hall : o.all (fun a => decide (a + h ≤ now)) = true) {a : Nat} (ha : o = some a) :
    ¬now < a + h := by
  have hlate : a + h ≤ now := by simpa [ha] using hall
  omega

theorem Dev.pmSelect_eq (d : Dev) {x : Nat} (src : Nat) (hmay : MaySelect d) (hne : d.rd F.TB_STATUS_sel ≠ x) :
    d.pmSelect x src = (d.pmNote x).select x src := by
  have hsel : (d.rd F.TB_STATUS_sel == x) = false := by simpa using hne
  have hlate {a : Nat} (ha : d.tim.pmAt = some a) : ¬d.now < a + d.holdOff := not_soon_of_all hmay ha
  clear hmay
  unfold Dev.pmSelect Dev.pmNote
  generalize d.holdOff = h at hlate ⊢
  cases hat : d.tim.pmAt with
  | none =>
    dsimp only
    rw [hsel, if_neg (by decide)]
  | some a =>
    dsimp only
    rw [hsel, if_neg (by simpa using hlate hat)]

theorem keeps_pmNote (d : Dev) (x : Nat) : Keeps [.tim] [.TB_DPLL_SEL] d (d.pmNote x) :=
  (keeps_tim _ d _ (by simp)).trans (keeps_wr _ _ _ _ (by simp [F.TB_DPLL_SEL_manual]))

theorem Dev.tim_pmNote (d : Dev) (x : Nat) : (d.pmNote x).tim = { d.tim with pmAt := some d.now } :=
  (keeps_wr (f := F.TB_DPLL_SEL_manual) [] (rs := [.TB_DPLL_SEL]) { d with tim := { d.tim with pmAt := some d.now } } x d.lead.id
    (by decide)).2.1 .tim (by simp)

theorem Dev.manual_pmNote (d : Dev) {x : Nat} (h : x < 8) : (d.pmNote x).rd F.TB_DPLL_SEL_manual d.lead.id = x :=
  Dev.rd_wr_fits _ _ _ _ (by decide) h

theorem Keeps.lead {as : List Area} {rs : List RegName} {d e : Dev} (h : Keeps as rs d e) (hr : RegName.TB_STATUS ∉ rs) :
    e.lead = d.lead := by rw [Dev.lead, Dev.lead, h.rd 0 hr]

theorem Keeps.tbState {as : List Area} {rs : List RegName} {d e : Dev} (h : Keeps as rs d e) (hr : RegName.TB_STATUS ∉ rs) (p : Plane) :
    e.tbState p = d.tbState p := by rw [Dev.tbState_eq, Dev.tbState_eq, h.rd 0 (by rwa [tbField_reg])]

/-- The manager's choice is followed, and the fall-back designated. -/
theorem Dev.pmSelect_chosen (d : Dev) {x : Nat} (src : Nat) (hx : x < 5) (hmay : MaySelect d) (hne : d.rd F.TB_STATUS_sel ≠ x) :
    Chosen d (d.pmSelect x src).designate x ∧ (d.pmSelect x src).designate.tim.sees = d.tim.sees
    ∧ Keeps selAreas (.TB_DPLL_SEL :: selRegs) d (d.pmSelect x src).designate ∧ Ranks d (d.pmSelect x src).designate := by
  have hnote := keeps_pmNote d x
  have htakes := leadTakes_select (d.pmNote x) src (x := x) (by omega)
  rw [d.pmSelect_eq src hmay hne]
  generalize (d.pmNote x).select x src = e at htakes
  have hdes := keeps_designate e
  have hfields := fieldsOnly_designate e
  obtain ⟨hfall, hfallSel, hmanual⟩ := e.designate_shows
  obtain ⟨tbs, ever, jump, off, htim⟩ := htakes.tim
  have hlead : e.lead = d.lead := htakes.lead.trans (hnote.lead (by simp))
  have hother : e.tbState d.lead.other = d.tbState d.lead.other := by
    rw [← hnote.lead (by simp), htakes.other, hnote.tbState (by simp)]
  have hstate : e.tbState d.lead = 3 := by rw [← hnote.lead (by simp), htakes.state]
  have hsees : e.designate.tim.sees = d.tim.sees := by rw [hdes.2.1 .tim (by simp), htim, Dev.tim_pmNote]
  have hmanualSel : e.rd F.TB_DPLL_SEL_manual d.lead.id = x := by
    rw [htakes.keeps.rd _ (by decide), d.manual_pmNote (by omega)]
  have hranks : Ranks d e := (hnote.ranks (by simp) (by simp)).trans htakes.ranks
  rw [hlead] at hfallSel hmanual
  refine ⟨⟨?_, ?_, ?_, ?_, ?_, ?_, ?_, hfallSel, fun y => ?_⟩, hsees, ?_, hranks.trans ⟨fun i => hdes.2.2 .TB_PRIO i (by simp),
    fun y => ⟨hfields.refLost y (by decide), hfields.qualified y (by decide)⟩⟩⟩
  · rw [hfields F.TB_STATUS_sel rfl (by decide), htakes.sel]
  · rw [hmanual, hmanualSel]
  · rw [hfields.tbState d.lead (by cases d.lead <;> decide), hstate]
  · rw [hfields.lead (by decide), hlead]
  · rw [hfields.tbState d.lead.other (by cases d.lead <;> decide), hother]
  · rw [hdes.2.1 .tim (by simp), htim, Dev.tim_pmNote]
  · rw [hfall, htakes.sel, hranks.bestBut, hsees, htim, Dev.tim_pmNote]
  · rw [hdes.ref (by simp), htakes.ref, Dev.ref, Dev.ref, Dev.tim_pmNote]
  · exact ((hnote.mono (by decide) (by decide)).trans (htakes.keeps.mono (List.Subset.refl _) (by decide))).trans
      (hdes.mono (by decide) (by decide))

/-- TB_STATUS.force_wait says nothing of the choice. -/
theorem Chosen.noteForce {d e : Dev} {x : Nat} (h : Chosen d e x) : Chosen d e.noteForce x := by
  have hfields := fieldsOnly_noteForce e
  have hkeeps := keeps_noteForce [] e
  obtain ⟨hsel, hmanual, hstate, hlead, hother, hat, hfall, hfallSel, href⟩ := h
  have hfall' : e.noteForce.rd F.TB_STATUS_fallback = e.rd F.TB_STATUS_fallback := hfields _ rfl (by decide)
  refine ⟨?_, ?_, ?_, ?_, ?_, ?_, ?_, ?_, fun y => ?_⟩
  · rw [hfields F.TB_STATUS_sel rfl (by decide), hsel]
  · rw [hkeeps.rd _ (by decide), hmanual]
  · rw [hfields.tbState _ (by cases d.lead <;> decide), hstate]
  · rw [hfields.lead (by decide), hlead]
  · rw [hfields.tbState _ (by cases d.lead <;> decide), hother]
  · rw [hkeeps.2.1 .tim (by simp), hat]
  · rw [hfall', hfall, hkeeps.2.1 .tim (by simp)]
  · rw [hfall', hkeeps.rd _ (by decide), hfallSel]
  · rw [hkeeps.ref (by simp), href]

/-- What the choice rests on was the same before `d`. -/
theorem Chosen.before {as : List Area} {rs : List RegName} {c d e : Dev} {x : Nat} (h : Chosen d e x) (k : Keeps as rs c d)
    (href : ∀ y, d.ref y = c.ref y) (hp : RegName.TB_PRIO ∉ rs) (hs : RegName.TB_STATUS ∉ rs) : Chosen c e x := by
  obtain ⟨hsel, hmanual, hstate, hlead, hother, hat, hfall, hfallSel, hrefs⟩ := h
  rw [k.lead hs] at hmanual hstate hlead hother hfallSel
  rw [k.tbState hs] at hother
  exact ⟨hsel, hmanual, hstate, hlead, hother, by rw [hat, k.1], by rw [hfall, (k.ranks hp hs).bestBut], hfallSel,
    fun y => (hrefs y).trans (href y)⟩

/-! ### The end of a hold-off (R75 to R78) -/

/-- The manager sees an input whose state has persisted. -/
def Dev.seeing (d : Dev) (l : List Nat) : Dev := { d with tim := { d.tim with sees := l } }

theorem keeps_seeing (d : Dev) (l : List Nat) : Keeps [.tim] [] d (d.seeing l) := keeps_tim _ d _ (by simp)

theorem Dev.tim_seeing (d : Dev) (l : List Nat) : (d.seeing l).tim = { d.tim with sees := l } := rfl

theorem Dev.ref_seeing (d : Dev) (l : List Nat) (y : Nat) : (d.seeing l).ref y = d.ref y := rfl

theorem exec_pmHoldoffExpiry (s : State) (t x src : Nat) : exec (.pmHoldoffExpiry t x src) s = onDev (inputOk x) t s fun d =>
    let e := d.seeing (if d.eligible x && d.persists x then setInsert x d.tim.sees else d.tim.sees)
    if e.flag F.TB_CTRL_pm_en && e.leadUp && e.taskRuns 0 then ((e.pmAct src).designate).noteForce else e.noteForce := rfl

theorem Keeps.leadUp {as : List Area} {rs : List RegName} {d e : Dev} (h : Keeps as rs d e) (hr : RegName.TB_STATUS ∉ rs) :
    e.leadUp = d.leadUp := by rw [Dev.leadUp, Dev.leadUp, h.lead hr, h.tbState hr]

theorem Keeps.taskRuns {as : List Area} {rs : List RegName} {d e : Dev} (h : Keeps as rs d e) (ha : Area.cmx ∉ as)
    (hr : RegName.CMX_RMB_STATUS ∉ rs) (c : Nat) : e.taskRuns c = d.taskRuns c := by
  rw [Dev.taskRuns, Dev.taskRuns, h.2.1 .cmx ha, h.1, h.rd _ hr]

theorem Keeps.forced {as : List Area} {rs : List RegName} {d e : Dev} (h : Keeps as rs d e) (hr : RegName.TB_PM_FORCE ∉ rs) :
    e.forced = d.forced := by rw [Dev.forced, Dev.forced, h.rd 0 hr, h.flag 0 hr]

/-- With no input selected, or the selected one out for a hold-off, the manager takes the best that it sees (R76, R77). -/
theorem Dev.pmAct_best (d : Dev) (src : Nat) (hforced : d.forced = none) (hcan : d.tim.sees.filter d.eligible ≠ [])
    (hout : d.rd F.TB_STATUS_sel = 7 ∨ ((d.qualified (d.rd F.TB_STATUS_sel) = false ∨ d.refLost (d.rd F.TB_STATUS_sel) = true)
      ∧ d.persists (d.rd F.TB_STATUS_sel) = true)) : d.pmAct src = d.pmSelect (d.best (d.tim.sees.filter d.eligible)) src := by
  have hsome : (d.tim.sees.filter d.eligible).isEmpty = false := by simpa [List.isEmpty_iff] using hcan
  unfold Dev.pmAct
  rw [hforced]
  dsimp only
  rw [hsome, if_neg (by decide), if_pos (by simpa using hout)]

/-- The best of the eligible inputs is not one that is out. -/
theorem Dev.best_ne_sel (d : Dev) (l : List Nat) (hcan : l.filter d.eligible ≠ [])
    (hout : d.rd F.TB_STATUS_sel = 7 ∨ (d.qualified (d.rd F.TB_STATUS_sel) = false ∨ d.refLost (d.rd F.TB_STATUS_sel) = true)) :
    d.best (l.filter d.eligible) < 5 ∧ d.rd F.TB_STATUS_sel ≠ d.best (l.filter d.eligible) := by
  have hel : d.eligible (d.best (l.filter d.eligible)) = true := (List.mem_filter.mp (d.best_mem hcan)).2
  refine ⟨Dev.lt_of_eligible hel, fun hsel => ?_⟩
  rw [← hsel] at hel
  have hlt := Dev.lt_of_eligible hel
  simp only [Dev.eligible, Bool.and_eq_true] at hel
  rcases hout with h | h | h
  · omega
  · simp [h] at hel
  · simp [h] at hel

/-! ### TB_PM_FORCE (R77, R80) -/

/-- A write's fields stand in TB_PM_FORCE. -/
def Dev.setForce (d : Dev) (val : Word) : Dev :=
  (d.wr F.TB_PM_FORCE_input (F.TB_PM_FORCE_input.get val)).wr F.TB_PM_FORCE_force (F.TB_PM_FORCE_force.get val)

theorem exec_tbPmForceWrite (s : State) (t src : Nat) (val : Word) : exec (.tbPmForceWrite t val src) s = onDev true t s fun d =>
    let e := d.setForce val
    if e.flag F.TB_CTRL_pm_en && e.leadUp && e.taskRuns 0 then
      match e.forced with
      | some x => ((if e.eligible x then e.pmSelect x src else e).designate).noteForce
      | none => e.noteForce
    else e.noteForce := rfl

theorem keeps_setForce (d : Dev) (val : Word) : Keeps [] [.TB_PM_FORCE] d (d.setForce val) :=
  (keeps_wr _ d _ _ (by simp [F.TB_PM_FORCE_input])).trans (keeps_wr _ _ _ _ (by simp [F.TB_PM_FORCE_force]))

theorem Dev.setForce_shows (d : Dev) (val : Word) : (d.setForce val).rd F.TB_PM_FORCE_input = F.TB_PM_FORCE_input.get val
    ∧ (d.setForce val).rd F.TB_PM_FORCE_force = F.TB_PM_FORCE_force.get val := by
  unfold Dev.setForce
  constructor
  · rw [Dev.rd_wr_field _ F.TB_PM_FORCE_force F.TB_PM_FORCE_input _ _ rfl (by decide) (by decide),
      Dev.rd_wr_fits _ _ _ _ (by decide) (Field.get_lt _ _)]
  · rw [Dev.rd_wr_fits _ _ _ _ (by decide) (Field.get_lt _ _)]

theorem Dev.forced_setForce (d : Dev) {val : Word} {x : Nat} (hforce : F.TB_PM_FORCE_force.get val = 1)
    (hinput : F.TB_PM_FORCE_input.get val = x) (hx : x < 5) : (d.setForce val).forced = some x := by
  obtain ⟨hin, hf⟩ := d.setForce_shows val
  simp [Dev.forced, Dev.flag, hf, hin, hforce, hinput, hx]

/-- TB_STATUS.force_wait says whether the forced input waits for its eligibility. -/
theorem Dev.forceWait_noteForce (d : Dev) {x : Nat} (h : d.forced = some x) :
    d.noteForce.rd F.TB_STATUS_force_wait = b2n (!d.eligible x) := by
  unfold Dev.noteForce
  rw [h]
  exact Dev.rd_wr_fits _ _ _ _ (by decide) (b2n_lt _)

theorem Dev.sel_noteForce (d : Dev) : d.noteForce.rd F.TB_STATUS_sel = d.rd F.TB_STATUS_sel :=
  fieldsOnly_noteForce d F.TB_STATUS_sel rfl (by decide)

/-! ### TB_DPLL_SEL (R73) -/

/-- A write's fields stand in a timebase's TB_DPLL_SEL. -/
def Dev.setSel (d : Dev) (tb : Plane) (val : Word) : Dev :=
  (d.wr F.TB_DPLL_SEL_manual (F.TB_DPLL_SEL_manual.get val) tb.id).wr F.TB_DPLL_SEL_fallback (F.TB_DPLL_SEL_fallback.get val) tb.id

/-- The lead takes the selection that was written, input `x`, and `f` as fall-back. -/
def Dev.followSel (d : Dev) (x f src : Nat) : Dev :=
  let e := d.wr F.TB_STATUS_fallback f
  if x == e.rd F.TB_STATUS_sel then e
  else if x == 7 then (e.noteSel 7).holdOver
  else if e.cannotFollow x then (e.noteSel x).selLost src
  else e.select x src

theorem Dev.dpllSel_eq (d : Dev) (tb : Plane) (val : Word) (src : Nat) (h : d.flag F.TB_CTRL_pm_en = false) : d.dpllSel tb val src =
    if tb == (d.setSel tb val).lead && (d.setSel tb val).leadUp then
      (d.setSel tb val).followSel (selIndex (F.TB_DPLL_SEL_manual.get val)) (selIndex (F.TB_DPLL_SEL_fallback.get val)) src
    else d.setSel tb val := by
  unfold Dev.dpllSel Dev.setSel Dev.followSel
  rw [h, if_neg (by decide)]

theorem exec_tbDpllSelWrite (s : State) (t src : Nat) (tb : Plane) (val : Word) :
    exec (.tbDpllSelWrite t tb val src) s = onDev true t s fun d => d.dpllSel tb val src := rfl

theorem keeps_setSel (d : Dev) (tb : Plane) (val : Word) : Keeps [] [.TB_DPLL_SEL] d (d.setSel tb val) :=
  (keeps_wr _ d _ _ (by simp [F.TB_DPLL_SEL_manual])).trans (keeps_wr _ _ _ _ (by simp [F.TB_DPLL_SEL_fallback]))

theorem Dev.setSel_shows (d : Dev) (tb : Plane) (val : Word) :
    (d.setSel tb val).rd F.TB_DPLL_SEL_manual tb.id = F.TB_DPLL_SEL_manual.get val
    ∧ (d.setSel tb val).rd F.TB_DPLL_SEL_fallback tb.id = F.TB_DPLL_SEL_fallback.get val
    ∧ KeepsOthers .TB_DPLL_SEL tb.id d (d.setSel tb val) := by
  have hid : tb.id < 65536 := by cases tb <;> decide
  unfold Dev.setSel
  refine ⟨?_, ?_, (keepsOthers_wr d _ _ hid _).trans (keepsOthers_wr _ _ _ hid _)⟩
  · rw [Dev.rd_wr_field _ F.TB_DPLL_SEL_fallback F.TB_DPLL_SEL_manual _ _ rfl (by decide) (by decide),
      Dev.rd_wr_fits _ _ _ _ (by decide) (Field.get_lt _ _)]
  · rw [Dev.rd_wr_fits _ _ _ _ (by decide) (Field.get_lt _ _)]

/-- Before the lead follows a written selection, only the designated fall-back of TB_STATUS has changed there. -/
structure Designated (d e : Dev) : Prop where
  keeps : Keeps [] [.TB_DPLL_SEL, .TB_STATUS] d e
  fields : FieldsOnly .TB_STATUS 0 [F.TB_STATUS_fallback] d e

theorem designated_setSel (d : Dev) (tb : Plane) (val : Word) (f : Nat) : Designated d ((d.setSel tb val).wr F.TB_STATUS_fallback f) where
  keeps := ((keeps_setSel d tb val).mono (by simp) (by simp)).trans (keeps_wr _ _ _ _ (by decide))
  fields := ((keeps_setSel d tb val).fields 0 _ (by simp)).trans (fieldsOnly_wr _ F.TB_STATUS_fallback f 0 (by decide))

theorem Designated.lead {d e : Dev} (h : Designated d e) : e.lead = d.lead := h.fields.lead (by decide)

theorem Designated.sel {d e : Dev} (h : Designated d e) : e.rd F.TB_STATUS_sel = d.rd F.TB_STATUS_sel := h.fields _ rfl (by decide)

theorem Designated.cannotFollow {d e : Dev} (h : Designated d e) (x : Nat) : e.cannotFollow x = d.cannotFollow x := by
  rw [Dev.cannotFollow, Dev.cannotFollow, h.fields.refLost x (by decide), h.keeps.flag 0 (by decide)]

/-- The lead's own TB_DPLL_SEL is followed while the manager is off and the lead is up. -/
theorem Dev.dpllSel_lead (d : Dev) (val : Word) (src : Nat) (hpm : d.flag F.TB_CTRL_pm_en = false) (hup : d.leadUp = true) :
    d.dpllSel d.lead val src =
      (d.setSel d.lead val).followSel (selIndex (F.TB_DPLL_SEL_manual.get val)) (selIndex (F.TB_DPLL_SEL_fallback.get val)) src := by
  rw [Dev.dpllSel_eq _ _ _ _ hpm, (keeps_setSel d d.lead val).lead (by simp), (keeps_setSel d d.lead val).leadUp (by simp), hup,
    if_pos (by simp)]

/-! ### The obligation -/

theorem exec_pmWtrExpiry (s : State) (t x src : Nat) : exec (.pmWtrExpiry t x src) s = onDev (inputOk x) t s fun d =>
    if d.flag F.TB_CTRL_pm_en && d.leadUp && d.taskRuns 0 && d.flag F.TB_PM_CTRL_revertive && d.forced.isNone
        && d.tim.sees.contains x && d.eligible x && d.restored x && d.rd F.TB_STATUS_sel != 7 && d.better x (d.rd F.TB_STATUS_sel)
    then (d.pmSelect x src).designate else d := rfl

theorem Dev.not_better_self (d : Dev) (x : Nat) : d.better x x = false := by simp [Dev.better]

/-- Settles O11: every selection of the manager is `pmSelect_chosen`, and every manual one a `LeadTakes` after the write. -/
theorem selections : Obligations.Selections := by
  refine ⟨?holdoffOff, ?holdoff, ?restore, ?forceOff, ?force, ?forceWaits, ?selIgnored, ?selOnly, ?selFollowed, ?selNone⟩
  case holdoffOff =>
    rintro s t x src _ rfl hx hpm
    refine Runs.of_onDev (exec_pmHoldoffExpiry s t x src) (inputOk_of_lt hx) ?_
    generalize (if (s.on t).eligible x && (s.on t).persists x then setInsert x (s.on t).tim.sees else (s.on t).tim.sees) = l
    have hsee := keeps_seeing (s.on t) l
    have hforce := keeps_noteForce [] ((s.on t).seeing l)
    dsimp only
    rw [hsee.flag 0 (by simp), hpm, if_neg (by simp)]
    exact ⟨by rw [hforce.2.1 .tim (by simp), Dev.tim_seeing], by rw [Dev.sel_noteForce, hsee.rd 0 (by simp)],
      (hsee.mono (by simp) (by simp)).trans (hforce.mono (by simp) (by simp))⟩
  case holdoff =>
    rintro s t x src y _ rfl hx hpm hup hruns hforced hel hpersists hmay hout rfl
    refine Runs.of_onDev (exec_pmHoldoffExpiry s t x src) (inputOk_of_lt hx) ?_
    rw [hel, hpersists, if_pos (show (true && true) = true from by decide)]
    have hsee := keeps_seeing (s.on t) (setInsert x (s.on t).tim.sees)
    have hranks : Ranks (s.on t) ((s.on t).seeing (setInsert x (s.on t).tim.sees)) := hsee.ranks (by simp) (by simp)
    have helig : ((s.on t).seeing (setInsert x (s.on t).tim.sees)).eligible = (s.on t).eligible := funext hranks.eligible
    have hcan : (setInsert x (s.on t).tim.sees).filter (s.on t).eligible ≠ [] :=
      List.ne_nil_of_mem (List.mem_filter.mpr ⟨mem_setInsert_self _ _, hel⟩)
    obtain ⟨hlt, hne⟩ := (s.on t).best_ne_sel _ hcan (hout.imp_right fun h => h.2.1)
    have hact : ((s.on t).seeing (setInsert x (s.on t).tim.sees)).pmAct src = ((s.on t).seeing (setInsert x (s.on t).tim.sees)).pmSelect
        ((s.on t).best ((setInsert x (s.on t).tim.sees).filter (s.on t).eligible)) src := by
      rw [Dev.pmAct_best _ src (by rw [hsee.forced (by simp), hforced]) (by rw [helig]; exact hcan) ?_, helig, hranks.best, Dev.tim_seeing]
      rw [hsee.rd 0 (by simp), hsee.qualified (by simp), hsee.refLost (by simp)]
      exact hout.imp_right fun h => h.2
    obtain ⟨hchosen, hsees, hkeeps, -⟩ := ((s.on t).seeing (setInsert x (s.on t).tim.sees)).pmSelect_chosen src hlt
      (by exact hmay) (by rwa [hsee.rd 0 (by simp)])
    dsimp only
    rw [hsee.flag 0 (by simp), hsee.leadUp (by simp), hsee.taskRuns (by simp) (by simp), hpm, hup, hruns, if_pos (by decide), hact]
    have hforce := keeps_noteForce [] (((s.on t).seeing (setInsert x (s.on t).tim.sees)).pmSelect
      ((s.on t).best ((setInsert x (s.on t).tim.sees).filter (s.on t).eligible)) src).designate
    exact ⟨by rw [hforce.2.1 .tim (by simp), hsees, Dev.tim_seeing],
      hchosen.noteForce.before hsee (Dev.ref_seeing _ _) (by simp) (by simp),
      ((hsee.mono (by decide) (by decide)).trans hkeeps).trans (hforce.mono (by decide) (by decide))⟩
  case restore =>
    rintro s t x src _ rfl hx hpm hup hruns hrev hforced hel hsees hrest hmay hsel hbetter
    refine Runs.of_onDev (exec_pmWtrExpiry s t x src) (inputOk_of_lt hx) ?_
    generalize s.on t = d at *
    have hne : d.rd F.TB_STATUS_sel ≠ x := fun h => by
      rw [h, Dev.not_better_self] at hbetter
      exact Bool.false_ne_true hbetter
    have h7 : d.rd F.TB_STATUS_sel ≠ 7 := by omega
    rw [if_pos (by simp [hpm, hup, hruns, hrev, hforced, hel, hsees, hrest, hbetter, h7])]
    obtain ⟨hchosen, -, hkeeps, -⟩ := d.pmSelect_chosen src hx hmay hne
    exact ⟨hchosen, hkeeps⟩
  case forceOff =>
    rintro s t src val _ rfl hpm
    refine Runs.of_onDev (exec_tbPmForceWrite s t src val) rfl ?_
    have hset := keeps_setForce (s.on t) val
    have hforce := keeps_noteForce [] ((s.on t).setForce val)
    obtain ⟨hin, hf⟩ := (s.on t).setForce_shows val
    dsimp only
    rw [hset.flag 0 (by decide), hpm, if_neg (by simp)]
    exact ⟨by rw [hforce.rd 0 (by decide), hin], by rw [hforce.rd 0 (by decide), hf],
      by rw [Dev.sel_noteForce, hset.rd 0 (by decide)], (hset.mono (by simp) (by simp)).trans (hforce.mono (by simp) (by simp))⟩
  case force =>
    rintro s t src x val _ rfl hpm hup hruns hforce hinput hx hel hmay hne
    refine Runs.of_onDev (exec_tbPmForceWrite s t src val) rfl ?_
    have hset := keeps_setForce (s.on t) val
    have hranks : Ranks (s.on t) ((s.on t).setForce val) := hset.ranks (by simp) (by simp)
    have hforced := (s.on t).forced_setForce hforce hinput hx
    obtain ⟨hin, hf⟩ := (s.on t).setForce_shows val
    have hmay' : MaySelect ((s.on t).setForce val) := by
      rw [MaySelect, hset.2.1 .tim (by simp), hset.1, Dev.holdOff, hset.rd 0 (by decide)]
      exact hmay
    obtain ⟨hchosen, -, hkeeps, hranks'⟩ := ((s.on t).setForce val).pmSelect_chosen src hx hmay' (by rwa [hset.rd 0 (by decide)])
    dsimp only
    rw [hset.flag 0 (by decide), hset.leadUp (by simp), hset.taskRuns (by simp) (by simp), hpm, hup, hruns, if_pos (by decide), hforced]
    dsimp only
    rw [hranks.eligible, hel, if_pos rfl]
    have hnote := keeps_noteForce [] (((s.on t).setForce val).pmSelect x src).designate
    have hforced' : (((s.on t).setForce val).pmSelect x src).designate.forced = some x := by rw [hkeeps.forced (by decide), hforced]
    refine ⟨hchosen.noteForce.before hset (fun y => hset.ref (by simp) y) (by simp) (by simp), ?_, ?_, ?_, ?_⟩
    · rw [Dev.forceWait_noteForce _ hforced', (hranks.trans hranks').eligible, hel]
      rfl
    · rw [hnote.rd 0 (by decide), hkeeps.rd 0 (by decide), hin, hinput]
    · rw [hnote.rd 0 (by decide), hkeeps.rd 0 (by decide), hf, hforce]
    · exact ((hset.mono (by decide) (by decide)).trans (hkeeps.mono (by decide) (by decide))).trans (hnote.mono (by decide) (by decide))
  case forceWaits =>
    rintro s t src x val _ rfl hforce hinput hx hel
    refine Runs.of_onDev (exec_tbPmForceWrite s t src val) rfl ?_
    have hset := keeps_setForce (s.on t) val
    have hranks : Ranks (s.on t) ((s.on t).setForce val) := hset.ranks (by simp) (by simp)
    have hforced := (s.on t).forced_setForce hforce hinput hx
    have hdes := keeps_designate ((s.on t).setForce val)
    have hdesFields := fieldsOnly_designate ((s.on t).setForce val)
    dsimp only
    rw [hforced]
    dsimp only
    rw [hranks.eligible, hel, if_neg (by decide : ¬false = true)]
    split
    · have hnote := keeps_noteForce [] ((s.on t).setForce val).designate
      have hranks' : Ranks (s.on t) ((s.on t).setForce val).designate := hranks.trans
        ⟨fun i => hdes.2.2 .TB_PRIO i (by simp), fun y => ⟨hdesFields.refLost y (by decide), hdesFields.qualified y (by decide)⟩⟩
      refine ⟨?_, ?_, ?_⟩
      · rw [Dev.forceWait_noteForce _ (by rw [hdes.forced (by simp), hforced]), hranks'.eligible, hel]
        rfl
      · rw [Dev.sel_noteForce, hdesFields F.TB_STATUS_sel rfl (by decide), hset.rd 0 (by decide)]
      · exact ((hset.mono (by simp) (by simp)).trans (hdes.mono (by simp) (by simp))).trans (hnote.mono (by simp) (by simp))
    · have hnote := keeps_noteForce [] ((s.on t).setForce val)
      refine ⟨?_, ?_, ?_⟩
      · rw [Dev.forceWait_noteForce _ hforced, hranks.eligible, hel]
        rfl
      · rw [Dev.sel_noteForce, hset.rd 0 (by decide)]
      · exact (hset.mono (by simp) (by simp)).trans (hnote.mono (by simp) (by simp))
  case selIgnored =>
    intro s t src tb val hpm
    refine OnlyTime.of_onDev (exec_tbDpllSelWrite s t src tb val) rfl ?_
    rw [Dev.dpllSel, hpm, if_pos rfl]
  case selOnly =>
    rintro s t src tb val _ rfl hpm hnot
    refine Runs.of_onDev (exec_tbDpllSelWrite s t src tb val) rfl ?_
    have hset := keeps_setSel (s.on t) tb val
    obtain ⟨hmanual, hfall, hothers⟩ := (s.on t).setSel_shows tb val
    have hoff : ¬(tb == (s.on t).lead && (s.on t).leadUp) = true := by
      rcases hnot with h | h
      · rw [beq_false_of_ne h]; simp
      · rw [h]; simp
    rw [Dev.dpllSel_eq _ _ _ _ hpm, hset.lead (by simp), hset.leadUp (by simp), if_neg hoff]
    exact ⟨hmanual, hfall, hothers, hset⟩
  case selFollowed =>
    rintro s t src x val _ rfl hpm hup hx hlt hcan hne
    refine Runs.of_onDev (exec_tbDpllSelWrite s t src (s.on t).lead val) rfl ?_
    have hdes := designated_setSel (s.on t) (s.on t).lead val (selIndex (F.TB_DPLL_SEL_fallback.get val))
    obtain ⟨hmanual, hfall, -⟩ := (s.on t).setSel_shows (s.on t).lead val
    have hwr := keeps_wr (f := F.TB_STATUS_fallback) [] (rs := [.TB_STATUS]) ((s.on t).setSel (s.on t).lead val)
      (selIndex (F.TB_DPLL_SEL_fallback.get val)) 0 (by decide)
    have hindex : selIndex x = x := if_pos hlt
    rw [Dev.dpllSel_lead _ _ _ hpm hup, hx, hindex, Dev.followSel]
    generalize ((s.on t).setSel (s.on t).lead val).wr F.TB_STATUS_fallback (selIndex (F.TB_DPLL_SEL_fallback.get val)) = e at hdes hwr
    rw [if_neg (by rw [hdes.sel]; simpa using hne.symm), if_neg (by rw [beq_iff_eq]; omega), hdes.cannotFollow, hcan, if_neg (by decide)]
    have htakes := leadTakes_select e src (x := x) (by omega)
    refine ⟨htakes.sel, ?_, htakes.lead.trans hdes.lead, ?_, ?_, ?_⟩
    · rw [← hdes.lead, htakes.state]
    · rw [htakes.keeps.rd _ (by decide), hwr.rd _ (by decide), hmanual, hx]
    · rw [htakes.keeps.rd _ (by decide), hwr.rd _ (by decide), hfall]
    · exact (hdes.keeps.mono (by decide) (by decide)).trans (htakes.keeps.mono (by decide) (by decide))
  case selNone =>
    rintro s t src val _ rfl hpm hup hnone hne
    refine Runs.of_onDev (exec_tbDpllSelWrite s t src (s.on t).lead val) rfl ?_
    have hdes := designated_setSel (s.on t) (s.on t).lead val (selIndex (F.TB_DPLL_SEL_fallback.get val))
    have hindex : selIndex (F.TB_DPLL_SEL_manual.get val) = 7 := if_neg (by omega)
    rw [Dev.dpllSel_lead _ _ _ hpm hup, hindex, Dev.followSel]
    generalize ((s.on t).setSel (s.on t).lead val).wr F.TB_STATUS_fallback (selIndex (F.TB_DPLL_SEL_fallback.get val)) = e at hdes
    rw [if_neg (by rw [hdes.sel]; simpa using hne.symm), if_pos (by decide)]
    have htim : e.tim = (s.on t).tim := hdes.keeps.2.1 .tim (by simp)
    obtain ⟨htakes, hepoch⟩ := leadTakes_holdOver e 0
    refine ⟨htakes.sel, ?_, htakes.lead.trans hdes.lead, ?_, ?_, ?_⟩
    · rw [← hdes.lead, htakes.state, htim]
    · rw [hepoch, Dev.tb, Dev.tb, htim]
    · rw [hepoch, Dev.tb, Dev.tb, htim]
    · exact (hdes.keeps.mono (by decide) (by decide)).trans (htakes.keeps.mono (by decide) (by decide))

end Sys2Proof.Machine
end

section
/-! SUPPORT. Standalone TIME_SET and TIME_ADJ (R58 to R60, R91, R94). -/

namespace Sys2Proof.Machine

/-! ### A standalone item that acts -/

theorem ringOk_of_lt {r : Nat} (h : r < 16) : ringOk r = true := by simp [ringOk, h]

/-- A command that lets the ring's acting item act does so by its function. -/
theorem Acting.runs {s : State} {t r op : Nat} {p : Port} {it : Item} {d : Dev} {c : Instr} {f : Dev → Item → Dev} {post : Dev → Prop}
    (h : Acting s t p r op it d) (hc : exec c s = onDev (ringOk r) t s fun e => e.act p r op f) (hpost : post (f d it)) :
    Runs c s post := by
  refine Runs.of_onDev hc (ringOk_of_lt h.ring) ?_
  rw [Dev.act, h.act]
  exact hpost

/-- The acting item is one of the opcode. -/
theorem Acting.item {s : State} {t r op : Nat} {p : Port} {it : Item} {d : Dev} (h : Acting s t p r op it d) :
    it.phase = .acting ∧ descOp it.head = op := by
  have hfind : (d.ring p r).items.find? (fun x => x.phase == .acting && descOp x.head == op) = some it := by
    have hact := h.act
    unfold Dev.acting at hact
    obtain ⟨hfind, hd⟩ := Prod.mk.inj hact
    rwa [hd] at hfind
  simpa using List.find?_some hfind

theorem Dev.finish_ok (d : Dev) (p : Port) (r idx : Nat) :
    d.finish p r idx 0 = d.modItem p r idx fun x => { x with phase := .done, status := 0 } := if_pos (by decide)

theorem keeps_finish {as : List Area} (rs : List RegName) (d : Dev) (p : Port) (r idx : Nat) (h : Area.svr ∈ as) :
    Keeps as rs d (d.finish p r idx 0) := by
  rw [Dev.finish_ok]
  exact keeps_modItem rs d p r idx _ h

/-- An item that is alone in its ring is done after its action. -/
theorem Acting.items_finish {s : State} {t r op : Nat} {p : Port} {it : Item} {d e : Dev} (h : Acting s t p r op it d)
    (he : e.svr = d.svr) : (e.finish p r it.idx 0).ring p r = { d.ring p r with items := [{ it with phase := .done, status := 0 }] } := by
  have hring : e.ring p r = d.ring p r := by rw [Dev.ring, Dev.ring, he]
  rw [Dev.finish_ok, Dev.modItem, Dev.ring_modRing_self, hring, h.only]
  simp

theorem Acting.becomes {s : State} {t r op : Nat} {p : Port} {it : Item} {d e : Dev} (h : Acting s t p r op it d) (he : e.svr = d.svr) :
    Becomes p r { it with phase := .done, status := 0 } d (e.finish p r it.idx 0) := by
  refine ⟨by rw [h.items_finish he], ?_⟩
  rw [Dev.finish_ok]
  exact (OtherRings.of_svr he).trans (otherRings_modItem e p r it.idx _)

theorem Acting.done {s : State} {t r op : Nat} {p : Port} {it : Item} {d e : Dev} (h : Acting s t p r op it d) (he : e.svr = d.svr) :
    ∃ x, ((e.finish p r it.idx 0).ring p r).items = [x] ∧ x.phase = .done ∧ x.status = 0 :=
  ⟨_, by rw [h.items_finish he], rfl, rfl⟩

/-! ### TIME_SET (R91, R94) -/

/-- The time that a TIME_SET carries, in u. -/
def timeSetU (b : List Byte) : Nat := D.sec.of b * secU + D.ns.of b * nsU + D.frac.of b

theorem exec_timeSet (s : State) (t r : Nat) (p : Port) : exec (.timeSet t p r) s = onDev (ringOk r) t s fun d =>
    d.act p r 0x30 fun d it => if D.subop.of it.head ≠ 0 then d else (d.timeSet (timeSetU it.head)).finish p r it.idx 0 := rfl

/-- The rest of a late TIME_SET is to be slewed. -/
def Dev.slewTo (d : Dev) (u : Nat) : Dev := { d with tim := { d.tim with timeSlew := (u : Int) - d.epoch } }

theorem keeps_slewTo (d : Dev) (u : Nat) : Keeps [.tim] [] d (d.slewTo u) := keeps_tim _ d _ (by simp)

theorem Dev.timeSet_late (d : Dev) (u : Nat) (h : d.tim.jumpOpen = false) :
    d.timeSet u = (d.raise F.TB_ERR_time_set_slewed).slewTo u := by
  rw [Dev.timeSet, h, if_neg (by decide)]
  rfl

theorem Dev.timeSet_open (d : Dev) (u : Nat) (h : d.tim.jumpOpen = true) : d.timeSet u = d.startJump u := by
  rw [Dev.timeSet, h, if_pos rfl]

theorem Keeps.epoch {as : List Area} {rs : List RegName} {d e : Dev} (h : Keeps as rs d e) (ha : Area.tim ∉ as)
    (hr : RegName.TB_STATUS ∉ rs) : e.epoch = d.epoch := by
  rw [Dev.epoch, Dev.epoch, h.lead hr, Dev.tb, Dev.tb, h.2.1 .tim ha]

theorem Tbl.get_map {V : Type} (z : V) (t : Tbl V) (g : V → V) (k : Nat) (hz : g z = z) :
    Tbl.get z (t.map fun x => (x.1, g x.2)) k = g (Tbl.get z t k) := by
  induction t with
  | nil => exact hz.symm
  | cons x t ih =>
    obtain ⟨j, v⟩ := x
    rw [List.map_cons, Tbl.get, Tbl.get, ih]
    split <;> rfl

theorem Dev.itemMoved_idx (d : Dev) (z : Int) (it : Item) : (d.itemMoved z it).idx = it.idx := by
  unfold Dev.itemMoved
  split
  · rfl
  · split
    · rfl
    · dsimp only
      split <;> rfl

/-- The new grid moves the items of a ring, and nothing else of it. -/
theorem Dev.ring_regrid (d : Dev) (z : Int) (p : Port) (r : Nat) :
    (d.regrid z).ring p r = { d.ring p r with items := (d.ring p r).items.map (d.itemMoved z) } :=
  Tbl.get_map {} d.svr (fun x => { x with items := x.items.map (d.itemMoved z) }) (16 * p.id + r) rfl

theorem Dev.items_startJump (d : Dev) (u : Nat) (p : Port) (r : Nat) : ∃ e : Dev, ∃ z : Int,
    ((d.startJump u).ring p r).items = (d.ring p r).items.map (e.itemMoved z) := by
  refine ⟨(d.epochsAt u).jumpDone ((u : Int) - (d.epoch : Int)), (u : Int) - (d.epoch : Int), ?_⟩
  have hsvr : (d.epochsAt u).svr = d.svr := (keeps_epochsAt d u).2.1 .svr (by decide)
  rw [Dev.startJump_eq, Dev.ring_regrid, Dev.ring, Dev.ring, Dev.jumpDone, hsvr]

theorem Acting.done_startJump {s : State} {t r op : Nat} {p : Port} {it : Item} {d : Dev} (h : Acting s t p r op it d) (u : Nat) :
    ∃ x, (((d.startJump u).finish p r it.idx 0).ring p r).items = [x] ∧ x.phase = .done ∧ x.status = 0 := by
  obtain ⟨e, z, hitems⟩ := d.items_startJump u p r
  have hidx : ((e.itemMoved z it).idx == it.idx) = true := by rw [Dev.itemMoved_idx, beq_self_eq_true]
  refine ⟨_, by rw [Dev.finish_ok, Dev.items_modItem, hitems, h.only, List.map_singleton, List.map_singleton, if_pos hidx], ?_, ?_⟩
  · rfl
  · rfl

/-! ### TIME_ADJ (R58 to R60) -/

/-- The phase of REFV that a TIME_ADJ states, in u. -/
def timeAdjOff (b : List Byte) : Int := toInt 32 (D.offNs.of b) * (nsU : Int) + (D.frac.of b : Int)

theorem exec_timeAdj (s : State) (t r : Nat) (p : Port) : exec (.timeAdj t p r) s = onDev (ringOk r) t s fun d =>
    d.act p r 0x30 fun d it =>
      if D.subop.of it.head ≠ 1 then d else (d.timeAdj (D.sec.of it.head) (timeAdjOff it.head)).finish p r it.idx 0 := rfl

/-- A sample of REFV is taken: its instant and its phase are noted. -/
def Dev.refvSample (d : Dev) (off : Int) : Dev := { d with tim := { d.tim with refvFrom := d.now, refvOff := some off } }

/-- A lost REFV is back with its sample. -/
def Dev.refvHeard (d : Dev) : Dev := if d.refLost 4 then d.inputBack 4 else d

/-- The lead takes no phase step: it notes its phase error. -/
def Dev.notePhase (d : Dev) (p : Plane) (e : Int) : Dev := (d.modTb p fun t => { t with phase := e, prev := some e }).refreshPins

/-- The lead takes the sample's phase error where it follows REFV. -/
def Dev.refvPhase (d : Dev) (off : Int) : Dev :=
  if d.rd F.TB_STATUS_sel = 4 ∧ (d.tbState d.lead = 1 ∨ d.tbState d.lead = 2) then
    if d.steps d.lead (off - (d.tb d.lead).buildout) then d.phaseStep d.lead
    else d.notePhase d.lead (off - (d.tb d.lead).buildout)
  else d

theorem Dev.timeAdj_eq (d : Dev) (sec : Nat) (off : Int) : d.timeAdj sec off =
    if !d.flag F.TB_REFV_CFG_enable then d.raise F.TB_ERR_refv_off
    else if sec * secU + min 2000 (max 100 (d.rd F.TB_REFV_CFG_late_ms)) * msU < d.epoch then
      (d.raise F.TB_ERR_refv_late).occur (evRef 4) 0x45
    else ((d.refvSample off).refvHeard).refvPhase off := by
  unfold Dev.timeAdj Dev.refvPhase Dev.notePhase Dev.refvHeard Dev.refvSample
  rfl

/-- What taking a phase error keeps: of the timing unit all but the timebases, of TB_STATUS all but the lead's state. -/
structure PhaseTaken (d e : Dev) : Prop where
  keeps : Keeps (.tim :: .clk :: evAreas) (.TB_STATUS :: .CLK_STATUS :: evRegs) d e
  tim : ∃ tbs, e.tim = { d.tim with tb := tbs }
  fields : FieldsOnly .TB_STATUS 0 [tbField d.lead] d e

theorem phaseTaken_phaseStep (d : Dev) : PhaseTaken d (d.phaseStep d.lead) where
  keeps := ((evOnly_occur d _ _ _ _ _ _).mono (by decide) (by decide)).trans
    (((keeps_freeze _ d.lead).mono (by decide) (by decide)).trans ((keeps_setTb _ d.lead 3 0).mono (by decide) (by decide)))
  tim := by
    obtain ⟨tbs, htbs⟩ := (d.occur (evTb d.lead) 0x4B).freeze_tim d.lead
    exact ⟨tbs, by rw [Dev.phaseStep, Dev.tim_setTb, htbs, (evOnly_occur d _ _ _ _ _ _).2.1 .tim (by decide)]⟩
  fields := (((evOnly_occur d _ _ _ _ _ _).fields 0 _ (by decide)).trans ((keeps_freeze _ d.lead).fields 0 _ (by simp))).trans
    (fieldsOnly_setTb _ d.lead 3 0)

theorem Dev.tim_notePhase (d : Dev) (p : Plane) (e : Int) :
    (d.notePhase p e).tim = (d.modTb p fun t => { t with phase := e, prev := some e }).tim :=
  (keeps_refreshPins [] _ (by decide : Area.clk ∈ [Area.clk, .emitted]) (by decide)).2.1 .tim (by decide)

theorem phaseTaken_notePhase (d : Dev) (e : Int) : PhaseTaken d (d.notePhase d.lead e) where
  keeps := (keeps_modTb _ d d.lead _ (by decide)).trans (keeps_refreshPins _ _ (by decide) (by decide))
  tim := by rw [Dev.tim_notePhase]; exact ⟨_, rfl⟩
  fields := ((keeps_modTb (as := [.tim]) [] d d.lead _ (by simp)).fields 0 _ (by simp)).trans
    ((keeps_refreshPins (as := [.clk, .emitted]) [] _ (by simp) (by simp)).fields 0 _ (by simp))

theorem phaseTaken_refvPhase (d : Dev) (off : Int) : PhaseTaken d (d.refvPhase off) := by
  unfold Dev.refvPhase
  split
  · split
    · exact phaseTaken_phaseStep d
    · exact phaseTaken_notePhase d _
  · exact ⟨Keeps.refl _ _ d, ⟨d.tim.tb, rfl⟩, FieldsOnly.refl _ _ _ d⟩

theorem Dev.phase_notePhase (d : Dev) (p : Plane) (e : Int) : ((d.notePhase p e).tb p).phase = e := by
  rw [Dev.tb, Dev.tim_notePhase, ← Dev.tb, Dev.tb_modTb_self]

theorem keeps_refvSample (d : Dev) (off : Int) : Keeps [.tim] [] d (d.refvSample off) := keeps_tim _ d _ (by simp)

theorem Dev.tim_refvSample (d : Dev) (off : Int) : (d.refvSample off).tim = { d.tim with refvFrom := d.now, refvOff := some off } := rfl

theorem Dev.refvPhase_of_not (d : Dev) (off : Int)
    (h : ¬(d.rd F.TB_STATUS_sel = 4 ∧ (d.tbState d.lead = 1 ∨ d.tbState d.lead = 2))) : d.refvPhase off = d := if_neg h

theorem Dev.refvPhase_of_no_step (d : Dev) (off : Int)
    (h : d.rd F.TB_STATUS_sel = 4 ∧ (d.tbState d.lead = 1 ∨ d.tbState d.lead = 2))
    (hs : d.steps d.lead (off - (d.tb d.lead).buildout) = false) : d.refvPhase off = d.notePhase d.lead (off - (d.tb d.lead).buildout) := by
  rw [Dev.refvPhase, if_pos h, hs, if_neg (by decide)]

/-- A sample that REFV's enabling and its time let pass. -/
theorem Dev.timeAdj_taken (d : Dev) (sec : Nat) (off : Int) (hen : d.flag F.TB_REFV_CFG_enable = true)
    (htime : d.epoch ≤ sec * secU + min 2000 (max 100 (d.rd F.TB_REFV_CFG_late_ms)) * msU) :
    d.timeAdj sec off = ((d.refvSample off).refvHeard).refvPhase off := by
  rw [Dev.timeAdj_eq, hen, if_neg (by decide), if_neg (Nat.not_lt.mpr htime)]

end Sys2Proof.Machine
end

section
/-! SUPPORT. Operations on the Salvo Rings and the Completion Rings (R256, R262, R263, R267, R278, R280, R292 to R294, R304, R467):
what each keeps, and what it leaves of the rings' items and holdings. -/

namespace Sys2Proof.Machine

/-! ### What stays of the rings -/

/-- Some item of the `i`-th Salvo Ring has latched. -/
def Dev.anyLatched (d : Dev) (i : Nat) : Bool := (Tbl.get {} d.svr i).items.any fun x => x.phase == .latched

/-- The same rings have latched items. -/
def LatchedSame (d e : Dev) : Prop := ∀ i, e.anyLatched i = d.anyLatched i

theorem LatchedSame.refl (d : Dev) : LatchedSame d d := fun _ => rfl

theorem LatchedSame.trans {d e f : Dev} (h : LatchedSame d e) (k : LatchedSame e f) : LatchedSame d f := fun i => (k i).trans (h i)

theorem LatchedSame.of_svr {d e : Dev} (h : e.svr = d.svr) : LatchedSame d e := fun _ => by rw [Dev.anyLatched, Dev.anyLatched, h]

theorem latchedSame_modRing (d : Dev) (p : Port) (r : Nat) {f : SvRing → SvRing}
    (h : ∀ x : SvRing, ((f x).items.any fun it => it.phase == .latched) = x.items.any fun it => it.phase == .latched) :
    LatchedSame d (d.modRing p r f) := fun i => by
  unfold Dev.anyLatched Dev.modRing
  by_cases hi : i = 16 * p.id + r
  · subst hi; rw [Tbl.get_mod_self, h]
  · rw [Tbl.get_mod_ne _ _ _ hi]

/-- What keeps each item's having latched keeps a list's. -/
theorem any_latched_map {l : List Item} {g : Item → Item} (h : ∀ it : Item, ((g it).phase == .latched) = (it.phase == .latched)) :
    (l.map g).any (fun it => it.phase == .latched) = l.any fun it => it.phase == .latched := by
  rw [List.any_map]
  exact congrArg l.any (funext h)

theorem latchedSame_modItem (d : Dev) (p : Port) (r idx : Nat) {f : Item → Item}
    (h : ∀ it : Item, ((f it).phase == .latched) = (it.phase == .latched)) : LatchedSame d (d.modItem p r idx f) :=
  latchedSame_modRing d p r fun x => any_latched_map fun it => by
    split
    · exact h it
    · rfl

/-- Two rings that differ in no item, holding or key. -/
structure RingHeld (x y : SvRing) : Prop where
  items : y.items = x.items
  hold : y.hold = x.hold
  key : y.key = x.key

/-- No ring changes its items, holdings or key. -/
def HeldSame (d e : Dev) : Prop := ∀ i, RingHeld (Tbl.get {} d.svr i) (Tbl.get {} e.svr i)

theorem HeldSame.of_svr {d e : Dev} (h : e.svr = d.svr) : HeldSame d e := fun _ => by rw [h]; exact ⟨rfl, rfl, rfl⟩

theorem HeldSame.trans {d e f : Dev} (h : HeldSame d e) (k : HeldSame e f) : HeldSame d f := fun i =>
  ⟨(k i).items.trans (h i).items, (k i).hold.trans (h i).hold, (k i).key.trans (h i).key⟩

theorem heldSame_modRing (d : Dev) (p : Port) (r : Nat) {f : SvRing → SvRing} (h : ∀ x, RingHeld x (f x)) :
    HeldSame d (d.modRing p r f) := fun i => by
  unfold Dev.modRing
  by_cases hi : i = 16 * p.id + r
  · subst hi; rw [Tbl.get_mod_self]; exact h _
  · rw [Tbl.get_mod_ne _ _ _ hi]; exact ⟨rfl, rfl, rfl⟩

theorem HeldSame.latched {d e : Dev} (h : HeldSame d e) : LatchedSame d e := fun i => by
  rw [Dev.anyLatched, Dev.anyLatched, (h i).items]

/-! ### Completions (R262, R263, R278 to R280) -/

/-- The parts that posting completions changes. -/
def postAreas : List Area := [.svr, .recs, .ports, .emitted]

/-- The registers that posting completions changes. -/
def postRegs : List RegName := [.HIF_CPR_STATUS, .HIF_SVR_STATUS, .HIF_LOSS]

/-- What posting completions keeps. -/
structure Posts (d e : Dev) : Prop where
  keeps : Keeps postAreas postRegs d e
  held : HeldSame d e

theorem Posts.refl (d : Dev) : Posts d d := ⟨Keeps.refl _ _ d, HeldSame.of_svr rfl⟩

theorem Posts.trans {d e f : Dev} (h : Posts d e) (k : Posts e f) : Posts d f := ⟨h.keeps.trans k.keeps, h.held.trans k.held⟩

theorem Posts.ite {d e f : Dev} {c : Prop} [Decidable c] (h : c → Posts d e) (k : ¬c → Posts d f) : Posts d (if c then e else f) := by
  split
  · exact h ‹_›
  · exact k ‹_›

theorem Posts.when {d : Dev} {b : Bool} {f : Dev → Dev} (h : Posts d (f d)) : Posts d (d.when b f) := by
  unfold Dev.when
  split
  · exact h
  · exact Posts.refl d

theorem Posts.each {α : Type} (xs : List α) {f : Dev → α → Dev} (h : ∀ d x, Posts d (f d x)) (d : Dev) : Posts d (d.each xs f) := by
  unfold Dev.each
  induction xs generalizing d with
  | nil => exact Posts.refl d
  | cons x xs ih => exact (h d x).trans (ih _)

/-- What changes no Salvo Ring only has to keep the rest. -/
theorem Posts.of_keeps {as : List Area} {rs : List RegName} {d e : Dev} (h : Keeps as rs d e) (ha : Area.svr ∉ as)
    (has : as ⊆ postAreas) (hrs : rs ⊆ postRegs) : Posts d e := ⟨h.mono has hrs, HeldSame.of_svr (h.2.1 .svr ha)⟩

theorem posts_put (d : Dev) {f : Field} (b : Bool) (i : Nat) (h : f.reg ∈ postRegs) : Posts d (d.put f b i) :=
  Posts.of_keeps (keeps_put [] d b i h) (by simp) (by simp) (List.Subset.refl _)

theorem posts_wr (d : Dev) {f : Field} (v i : Nat) (h : f.reg ∈ postRegs) : Posts d (d.wr f v i) :=
  Posts.of_keeps (keeps_wr [] d v i h) (by simp) (by simp) (List.Subset.refl _)

theorem posts_modRing (d : Dev) (p : Port) (r : Nat) {f : SvRing → SvRing} (h : ∀ x, RingHeld x (f x)) : Posts d (d.modRing p r f) :=
  ⟨keeps_modRing _ d p r f (by decide), heldSame_modRing d p r h⟩

theorem posts_modPort (d : Dev) (p : Port) (f : PortSt → PortSt) : Posts d (d.modPort p f) :=
  Posts.of_keeps (keeps_modPort (as := [.ports]) [] d p f (by simp)) (by simp) (by decide) (by simp)

theorem posts_modRec (d : Dev) (p : Port) (r : RecRing) (f : RecSt → RecSt) : Posts d (d.modRec p r f) :=
  Posts.of_keeps (keeps_recs (as := [.recs]) [] d _ (by simp)) (by simp) (by decide) (by simp)

theorem posts_emit (d : Dev) (x : Emission) : Posts d (d.emit x) :=
  Posts.of_keeps (keeps_emit (as := [.emitted]) [] d x (by simp)) (by simp) (by decide) (by simp)

theorem posts_raiseMsix (d : Dev) (p : Port) (v : Nat) : Posts d (d.raiseMsix p v) := by
  unfold Dev.raiseMsix
  exact Posts.ite (fun _ => posts_modPort d p _) fun _ => posts_emit d _

theorem posts_announce (d : Dev) (p : Port) (r : RecRing) : Posts d (d.announce p r) := (posts_modRec d p r _).trans (posts_raiseMsix _ p _)

/-- A record written into a Completion Ring. -/
theorem posts_writeRecord (d : Dev) (p : Port) (c : Nat) (bs : List Byte) (now : Bool) : Posts d (d.writeRecord p (.cpr c) bs now) := by
  have hpi (x : Dev) (v i : Nat) : Posts x (x.wr (recRegs p (.cpr c)).pi v i) :=
    posts_wr x v i (show F.HIF_CPR_STATUS_pi.reg ∈ postRegs by decide)
  have hphase (x : Dev) (v i : Nat) : Posts x (x.wr (recRegs p (.cpr c)).phase v i) :=
    posts_wr x v i (show F.HIF_CPR_STATUS_phase.reg ∈ postRegs by decide)
  unfold Dev.writeRecord Dev.hostWrite
  dsimp only
  refine Posts.trans ?_ (Posts.ite (fun _ => posts_announce _ p _) fun _ => posts_modRec _ p _ _)
  exact ((posts_emit d _).trans (hpi _ _ _)).trans (Posts.ite (fun _ => hphase _ _ _) fun _ => Posts.refl _)

theorem posts_drop (d : Dev) (p : Port) (n : Nat) : Posts d (d.drop p n) :=
  Posts.of_keeps (keeps_bump [] (rs := [.HIF_LOSS]) d _ _ (by decide)) (by simp) (by simp) (by decide)

theorem posts_refreshDrain (d : Dev) (p : Port) (r : Nat) : Posts d (d.refreshDrain p r) := by
  unfold Dev.refreshDrain
  exact Posts.ite (fun _ => posts_put d _ _ (by decide)) fun _ => Posts.refl d

theorem posts_setCi (d : Dev) (p : Port) (r ci : Nat) : Posts d (d.setCi p r ci) := by
  unfold Dev.setCi
  refine Posts.trans ?_ (posts_modPort _ p _)
  exact (posts_wr d _ _ (by decide)).trans (posts_modRing _ p r fun _ => ⟨rfl, rfl, rfl⟩)

theorem posts_settle (d : Dev) (p : Port) (r ci : Nat) (stall : Bool) : Posts d (d.settle p r ci stall) := by
  unfold Dev.settle
  refine ((posts_setCi d p r ci).trans (Posts.when ?_)).trans (posts_refreshDrain _ p r)
  exact (posts_put _ _ _ (by decide)).trans (posts_modRing _ p r fun _ => ⟨rfl, rfl, rfl⟩)

theorem posts_flushHeld (d : Dev) (p : Port) (c : Nat) (hs : List Held) : Posts d (d.flushHeld p c hs) := by
  induction hs generalizing d with
  | nil => exact posts_put d _ _ (by decide)
  | cons h hs ih =>
    unfold Dev.flushHeld
    refine Posts.ite (fun _ => Posts.trans ?_ (ih _)) fun _ => Posts.refl d
    refine Posts.trans ?_ (posts_settle _ p _ _ _)
    exact (posts_modRec d p (.cpr c) fun x => { x with held := hs }).trans
      (Posts.ite (fun _ => posts_drop _ p 1) fun _ => posts_writeRecord _ p c _ _)

/-! ### Withdrawal (R292 to R294) -/

/-- Work on one Salvo Ring: what it keeps, and that no other ring changes and no item latches or ceases to be latched. -/
structure RingWork (as : List Area) (rs : List RegName) (p : Port) (r : Nat) (d e : Dev) : Prop where
  keeps : Keeps as rs d e
  others : OtherRings p r d e
  latched : LatchedSame d e

section RingWork

variable {as : List Area} {rs : List RegName} {p : Port} {r : Nat}

theorem RingWork.refl (d : Dev) : RingWork as rs p r d d := ⟨Keeps.refl _ _ d, fun _ _ => rfl, LatchedSame.refl d⟩

theorem RingWork.trans {d e f : Dev} (h : RingWork as rs p r d e) (k : RingWork as rs p r e f) : RingWork as rs p r d f :=
  ⟨h.keeps.trans k.keeps, h.others.trans k.others, h.latched.trans k.latched⟩

theorem RingWork.each {α : Type} (xs : List α) {f : Dev → α → Dev} (h : ∀ d x, RingWork as rs p r d (f d x)) (d : Dev) :
    RingWork as rs p r d (d.each xs f) := by
  unfold Dev.each
  induction xs generalizing d with
  | nil => exact RingWork.refl d
  | cons x xs ih => exact (h d x).trans (ih _)

theorem RingWork.of_keeps {d e : Dev} (h : Keeps as rs d e) (hs : e.svr = d.svr) : RingWork as rs p r d e :=
  ⟨h, .of_svr hs, .of_svr hs⟩

theorem otherRings_modRing (d : Dev) (p : Port) (r : Nat) (f : SvRing → SvRing) : OtherRings p r d (d.modRing p r f) :=
  fun _ hk => Tbl.get_mod_ne _ _ _ hk

theorem ringWork_modRing (rs : List RegName) (d : Dev) (ha : Area.svr ∈ as) {f : SvRing → SvRing}
    (h : ∀ x : SvRing, ((f x).items.any fun it => it.phase == .latched) = x.items.any fun it => it.phase == .latched) :
    RingWork as rs p r d (d.modRing p r f) :=
  ⟨keeps_modRing rs d p r f ha, otherRings_modRing d p r f, latchedSame_modRing d p r h⟩

end RingWork

theorem keeps_setPool (as : List Area) (d : Dev) (p : Plane) (a : Amount) : Keeps as poolRegs d (d.setPool p a) :=
  ((keeps_wr as d _ _ (by decide)).trans (keeps_wr as _ _ _ (by decide))).trans (keeps_wr as _ _ _ (by decide))

theorem keeps_giveBack (as : List Area) (d : Dev) (p : Plane) (a : Amount) (ctx : Nat) : Keeps as poolRegs d (d.giveBack p a ctx) :=
  (keeps_setPool as d p _).trans (keeps_wr as _ _ _ (by decide))

theorem ringWork_modHold (d : Dev) (p : Port) (r : Nat) (q : Plane) (f : Amount → Amount) :
    RingWork [.svr] poolRegs p r d (d.modHold p r q f) := ringWork_modRing _ d (by simp) fun _ => rfl

/-- An amount moves between the pool and a ring's holdings. -/
theorem ringWork_setPool_modHold (d : Dev) (p : Port) (r : Nat) (q : Plane) (a : Amount) (f : Amount → Amount) :
    RingWork [.svr] poolRegs p r d ((d.setPool q a).modHold p r q f) :=
  (RingWork.of_keeps (keeps_setPool _ d q a) ((keeps_setPool [] d q a).2.1 .svr (by simp))).trans (ringWork_modHold _ p r q f)

/-- What an opening drew returns whence it came. -/
def Dev.undoAlloc (d : Dev) (p : Port) (r : Nat) (a : Alloc) : Dev :=
  (d.giveBack a.plane ((a.amount.sub a.fromHold).sub a.fromCredit) (a.ctx - a.ctxCredit)).modHold p r a.plane (·.add a.fromHold)

/-- What a RELEASE moved moves back on plane `q`, as far as it is still there. -/
def Dev.unrelease (d : Dev) (p : Port) (r : Nat) (b : List Byte) (q : Plane) : Dev :=
  (d.setPool q ((d.pool q).sub ((resAmount b).least (d.pool q)))).modHold p r q (·.add ((resAmount b).least (d.pool q)))

/-- What a RESERVE or RELEASE entry moved moves back. -/
def Dev.undoEntry (d : Dev) (p : Port) (r : Nat) (b : List Byte) : Dev :=
  if descOp b == 0x21 then d.fromHold p r (D.planes.of b) (resAmount b)
  else if descOp b == 0x22 then d.each (maskPlanes (D.planes.of b)) fun d q => d.unrelease p r b q
  else d

/-- The salvo holds nothing. -/
def Dev.holdsNone (d : Dev) (p : Port) (r idx : Nat) : Dev := d.modItem p r idx fun x => { x with allocs := [], closes := [], results := [] }

theorem Dev.undoItem_eq (d : Dev) (p : Port) (r : Nat) (it : Item) : d.undoItem p r it =
    (if it.isSalvo then (d.each it.allocs fun d a => d.undoAlloc p r a).each it.entries.reverse fun d b => d.undoEntry p r b
      else d.each it.allocs fun d a => d.undoAlloc p r a).holdsNone p r it.idx := rfl

theorem ringWork_undoAlloc (d : Dev) (p : Port) (r : Nat) (a : Alloc) : RingWork [.svr] poolRegs p r d (d.undoAlloc p r a) :=
  (RingWork.of_keeps (keeps_giveBack _ d a.plane _ _) ((keeps_giveBack [] d a.plane _ _).2.1 .svr (by simp))).trans
    (ringWork_modHold _ p r a.plane _)

theorem ringWork_fromHold (d : Dev) (p : Port) (r planes : Nat) (a : Amount) : RingWork [.svr] poolRegs p r d (d.fromHold p r planes a) :=
  RingWork.each _ (fun d q => ringWork_setPool_modHold d p r q _ _) d

theorem ringWork_undoEntry (d : Dev) (p : Port) (r : Nat) (b : List Byte) : RingWork [.svr] poolRegs p r d (d.undoEntry p r b) := by
  unfold Dev.undoEntry
  split
  · exact ringWork_fromHold d p r _ _
  · split
    · exact RingWork.each _ (fun d q => ringWork_setPool_modHold d p r q _ _) d
    · exact RingWork.refl d

theorem ringWork_holdsNone (d : Dev) (p : Port) (r idx : Nat) : RingWork [.svr] poolRegs p r d (d.holdsNone p r idx) :=
  ⟨keeps_modItem _ d p r idx _ (by simp), otherRings_modItem d p r idx _, latchedSame_modItem d p r idx fun _ => rfl⟩

/-- A secured salvo gives back what it holds. -/
theorem ringWork_undoItem (d : Dev) (p : Port) (r : Nat) (it : Item) : RingWork [.svr] poolRegs p r d (d.undoItem p r it) := by
  have hallocs : RingWork [.svr] poolRegs p r d (d.each it.allocs fun d a => d.undoAlloc p r a) :=
    RingWork.each _ (fun d a => ringWork_undoAlloc d p r a) d
  rw [Dev.undoItem_eq]
  refine RingWork.trans ?_ (ringWork_holdsNone _ p r it.idx)
  split
  · exact hallocs.trans (RingWork.each _ (fun d b => ringWork_undoEntry d p r b) _)
  · exact hallocs

/-- Items are withdrawn of which none has latched. -/
theorem ringWork_withdraw (d : Dev) (p : Port) (r : Nat) (sel : Item → Bool) (h : ∀ it, it.phase = .latched → sel it = false) :
    RingWork [.svr] poolRegs p r d (d.withdraw p r sel) := by
  unfold Dev.withdraw
  refine RingWork.trans (RingWork.each _ (fun d it => ?_) d) (ringWork_modRing _ _ (by simp) fun x => ?_)
  · split
    · exact ringWork_undoItem d p r it
    · exact RingWork.refl d
  · rw [List.any_filter]
    refine congrArg x.items.any (funext fun it => ?_)
    by_cases hl : it.phase = .latched
    · simp [h it hl, hl]
    · simp [hl]

theorem not_withdrawn_of_latched {it : Item} (h : it.phase = .latched) : (it.unlatched || it.undone) = false := by
  simp [Item.unlatched, Item.undone, h]

theorem ringWork_withdrawUnlatched (d : Dev) (p : Port) (r : Nat) : RingWork [.svr] poolRegs p r d (d.withdrawUnlatched p r) :=
  (ringWork_withdraw d p r _ fun _ => not_withdrawn_of_latched).trans (ringWork_modRing _ _ (by simp) fun _ => rfl)

/-- No unlatched item is left. -/
theorem Dev.unlatched_withdrawUnlatched (d : Dev) (p : Port) (r : Nat) :
    ∀ x ∈ ((d.withdrawUnlatched p r).ring p r).items, x.unlatched = false := by
  intro x hx
  rw [Dev.withdrawUnlatched, Dev.ring_modRing_self, Dev.withdraw, Dev.ring_modRing_self] at hx
  have hsel := (List.mem_filter.mp hx).2
  simp only [Bool.not_eq_true', Bool.or_eq_false_iff] at hsel
  exact hsel.1

/-! ### Abandonment (R304) -/

theorem ringWork_abandon (rs : List RegName) (d : Dev) (p : Port) (r : Nat) : RingWork [.svr] rs p r d (d.abandon p r) :=
  ringWork_modRing rs d (by simp) fun _ => any_latched_map fun it => by
    split
    · next h =>
      have hact : it.phase = .acting := by
        rw [Bool.and_eq_true, beq_iff_eq] at h
        exact h.1
      rw [hact]
      rfl
    · rfl

theorem Dev.unlatched_abandon (d : Dev) (p : Port) (r : Nat) (h : ∀ x ∈ (d.ring p r).items, x.unlatched = false) :
    ∀ x ∈ ((d.abandon p r).ring p r).items, x.unlatched = false := by
  intro x hx
  rw [Dev.abandon, Dev.ring_modRing_self] at hx
  obtain ⟨y, hy, rfl⟩ := List.mem_map.mp hx
  split
  · rfl
  · exact h y hy

/-! ### Master reset (R467) -/

theorem keeps_modTxns (rs : List RegName) (d : Dev) (f : List Txn → List Txn) : Keeps [.cmx] rs d (d.modTxns f) :=
  Keeps.of_same rfl rfl fun a ha => by
    cases a <;> first | exact absurd List.mem_cons_self ha | rfl | exact ⟨rfl, rfl⟩

theorem keeps_masterReset (d : Dev) (m : Nat) : Keeps [.cmx] [.CMX_MRST] d (d.masterReset m) := by
  unfold Dev.masterReset
  exact Keeps.ite (fun _ => Keeps.refl _ _ d) fun _ =>
    (keeps_modTxns _ d _).trans (keeps_setBit _ _ m true 0 (by simp [F.CMX_MRST_releasing]))

/-! ### Delivery (R267, R283) -/

/-- No item of the ring is delivered: it is off, or all its items have been. -/
def Dev.quiet (d : Dev) (p : Port) (r : Nat) : Prop := d.svrOn p r = false ∨ ∀ x ∈ (d.ring p r).items, x.seq ≠ 0

theorem Dev.deliverable_of_quiet (d : Dev) {p : Port} {r : Nat} (h : d.quiet p r) : d.deliverable p r = none := by
  unfold Dev.deliverable
  rcases h with h | h
  · simp [Dev.serves, h]
  · have hnone : (d.ring p r).items.find? (fun it => it.seq == 0) = none := List.find?_eq_none.mpr fun x hx => by simpa using h x hx
    dsimp only
    rw [hnone]
    split <;> rfl

/-- What delivery keeps: the ring items it delivers change, and the order of delivery. -/
structure Delivers (d e : Dev) : Prop where
  keeps : Keeps [.svr, .order, .ports] [] d e
  latched : LatchedSame d e
  quiet : ∀ p r, r < 16 → d.quiet p r → e.ring p r = d.ring p r

theorem Delivers.refl (d : Dev) : Delivers d d := ⟨Keeps.refl _ _ d, LatchedSame.refl d, fun _ _ _ _ => rfl⟩

theorem Delivers.stays {d e : Dev} (h : Delivers d e) {p : Port} {r : Nat} (hr : r < 16) (hq : d.quiet p r) : e.quiet p r := by
  rw [Dev.quiet, Dev.svrOn, h.keeps.flag _ (by simp), h.quiet p r hr hq]
  exact hq

theorem Delivers.trans {d e f : Dev} (h : Delivers d e) (k : Delivers e f) : Delivers d f :=
  ⟨h.keeps.trans k.keeps, h.latched.trans k.latched, fun p r hr hq => (k.quiet p r hr (h.stays hr hq)).trans (h.quiet p r hr hq)⟩

theorem ringIndex_inj {p q : Port} {r k : Nat} (hr : r < 16) (hk : k < 16) (h : 16 * q.id + k = 16 * p.id + r) : q = p ∧ k = r := by
  cases p <;> cases q <;> simp only [Port.id] at h <;> first | exact ⟨rfl, by omega⟩ | exact absurd h (by omega)

/-- One item is delivered. -/
def Dev.deliverItem (d : Dev) (p : Port) (r idx : Nat) : Dev :=
  let d := { d with seq := d.seq + 1 }
  (d.modItem p r idx fun it =>
      { it with seq := d.seq, phase := if it.phase == .fetched then .delivered else it.phase }).modPort p fun x => { x with turn := r }

theorem Dev.deliverOne_of_none {d : Dev} {p : Port} {r : Nat} (h : d.deliverable p r = none) : d.deliverOne p r = d := by
  unfold Dev.deliverOne
  rw [h]

theorem Dev.deliverOne_of_some {d : Dev} {p : Port} {r idx : Nat} (h : d.deliverable p r = some idx) :
    d.deliverOne p r = d.deliverItem p r idx := by
  unfold Dev.deliverOne
  rw [h]
  rfl

theorem keeps_seq (rs : List RegName) (d : Dev) (n : Nat) : Keeps [.order] rs d { d with seq := n } :=
  Keeps.of_same rfl rfl fun a ha => by
    cases a <;> first | exact absurd List.mem_cons_self ha | rfl | exact ⟨rfl, rfl⟩

theorem keeps_deliverItem (d : Dev) (p : Port) (r idx : Nat) : Keeps [.svr, .order, .ports] [] d (d.deliverItem p r idx) :=
  (((keeps_seq [] d _).mono (by simp) (by simp)).trans (keeps_modItem _ _ p r idx _ (by simp))).trans (keeps_modPort _ _ p _ (by simp))

theorem latchedSame_deliverItem (d : Dev) (p : Port) (r idx : Nat) : LatchedSame d (d.deliverItem p r idx) :=
  ((LatchedSame.of_svr rfl).trans (latchedSame_modItem { d with seq := d.seq + 1 } p r idx fun it => by
    dsimp only
    split
    · next h => rw [beq_iff_eq.mp h]; rfl
    · rfl)).trans (LatchedSame.of_svr rfl)

theorem otherRings_deliverItem (d : Dev) (p : Port) (r idx : Nat) : OtherRings p r d (d.deliverItem p r idx) :=
  otherRings_modItem { d with seq := d.seq + 1 } p r idx _

theorem delivers_deliverOne (d : Dev) (p : Port) {r : Nat} (hr : r < 16) : Delivers d (d.deliverOne p r) := by
  cases h : d.deliverable p r with
  | none => rw [Dev.deliverOne_of_none h]; exact Delivers.refl d
  | some idx =>
    rw [Dev.deliverOne_of_some h]
    refine ⟨keeps_deliverItem d p r idx, latchedSame_deliverItem d p r idx, fun q k hk hq => ?_⟩
    by_cases hne : 16 * q.id + k = 16 * p.id + r
    · obtain ⟨rfl, rfl⟩ := ringIndex_inj hr hk hne
      rw [d.deliverable_of_quiet hq] at h
      cases h
    · exact otherRings_deliverItem d p r idx _ hne

theorem Delivers.each {α : Type} (xs : List α) {f : Dev → α → Dev} (h : ∀ d x, Delivers d (f d x)) (d : Dev) : Delivers d (d.each xs f) := by
  unfold Dev.each
  induction xs generalizing d with
  | nil => exact Delivers.refl d
  | cons x xs ih => exact (h d x).trans (ih _)

theorem delivers_deliver (d : Dev) (p : Port) : Delivers d (d.deliver p) := by
  unfold Dev.deliver
  refine Delivers.each _ (fun d _ => ?_) d
  split
  · next r hfind =>
    have hmem := List.mem_of_find?_eq_some hfind
    obtain ⟨k, -, rfl⟩ := List.mem_map.mp hmem
    exact delivers_deliverOne d p (Nat.mod_lt _ (by decide))
  · exact Delivers.refl d

theorem delivers_deliverAll (d : Dev) : Delivers d d.deliverAll := by
  unfold Dev.deliverAll
  split
  · exact (delivers_deliver d .b).trans (delivers_deliver _ .a)
  · exact (delivers_deliver d .a).trans (delivers_deliver _ .b)

end Sys2Proof.Machine
end

section
/-! SUPPORT. TAKEOVER (R306, R307), and the obligation on standalone time items (R58 to R60, R91, R94). -/

namespace Sys2Proof.Machine

/-! ### A ring is taken -/

/-- What of a ring has not latched is withdrawn, what needs the host ends, and no completion of it waits. -/
def Dev.clearRing (d : Dev) (q : Port) (k : Nat) : Dev := ((d.withdrawUnlatched q k).abandon q k).unhold q k

/-- The ring is off, and marked as taken. -/
def Dev.markTaken (d : Dev) (q : Port) (k : Nat) : Dev :=
  ((d.put F.HIF_SVR_CFG_enable false (svrI q k)).setBit F.HIF_TAKEN_taken k true q.id).put F.HIF_SVR_STATUS_draining true (svrI q k)

/-- The ring has no key and no holdings. -/
def Dev.emptyHold (d : Dev) (q : Port) (k : Nat) : Dev := d.modRing q k fun x => { x with key := none, hold := ⟨{}, {}⟩ }

/-- Its holdings are those of ring `r` of port `p`. -/
def Dev.moveHold (d : Dev) (p : Port) (r : Nat) (q : Port) (k : Nat) : Dev :=
  ((d.emptyHold q k).modHold p r .a (·.add (d.ring q k).hold.a)).modHold p r .b (·.add (d.ring q k).hold.b)

theorem Dev.takeRing_eq (d : Dev) (p : Port) (r : Nat) (q : Port) (k : Nat) :
    d.takeRing p r q k = (((d.clearRing q k).markTaken q k).moveHold p r q k).refreshDrain q k := by
  simp only [Dev.takeRing, Dev.clearRing, Dev.markTaken, Dev.emptyHold, Dev.moveHold]

/-- A Completion Ring holds no completion of ring `k` any more, and its consumer index has moved past their items. -/
def Dev.dropHeld (d : Dev) (q : Port) (k c : Nat) : Dev :=
  ((d.rr q (.cpr c)).held.filter fun x => x.svr == k).foldl (fun d x => d.setCi q k x.newCi)
    (d.modRec q (.cpr c) fun x => { x with held := (d.rr q (.cpr c)).held.filter fun x => x.svr != k })

/-- What else the Completion Ring holds is posted while there is space. -/
def Dev.unholdIn (d : Dev) (q : Port) (k c : Nat) : Dev :=
  if (d.rr q (.cpr c)).held.isEmpty then d.dropHeld q k c
  else (d.dropHeld q k c).flushHeld q c ((d.dropHeld q k c).rr q (.cpr c)).held

theorem Dev.unhold_eq (d : Dev) (q : Port) (k : Nat) : d.unhold q k = d.each (List.range 16) fun d c => d.unholdIn q k c := by
  simp only [Dev.unhold, Dev.unholdIn, Dev.dropHeld]

theorem posts_dropHeld (d : Dev) (q : Port) (k c : Nat) : Posts d (d.dropHeld q k c) :=
  (posts_modRec d q (.cpr c) _).trans
    (Posts.each ((d.rr q (.cpr c)).held.filter fun x => x.svr == k) (fun d x => posts_setCi d q k x.newCi) _)

theorem posts_unholdIn (d : Dev) (q : Port) (k c : Nat) : Posts d (d.unholdIn q k c) :=
  Posts.ite (fun _ => posts_dropHeld d q k c) fun _ => (posts_dropHeld d q k c).trans (posts_flushHeld _ q c _)

theorem posts_unhold (d : Dev) (q : Port) (k : Nat) : Posts d (d.unhold q k) := by
  rw [Dev.unhold_eq]
  exact Posts.each _ (fun d c => posts_unholdIn d q k c) d

/-- The registers that taking a ring may change. -/
def takeRegs : List RegName := .HIF_SVR_CFG :: .HIF_TAKEN :: postRegs ++ poolRegs

/-- Every Salvo Ring but the `i`-th has the same items, holdings and key. -/
def HeldBut (i : Nat) (d e : Dev) : Prop := ∀ j, j ≠ i → RingHeld (Tbl.get {} d.svr j) (Tbl.get {} e.svr j)

theorem HeldBut.trans {i : Nat} {d e f : Dev} (h : HeldBut i d e) (k : HeldBut i e f) : HeldBut i d f := fun j hj =>
  ⟨(k j hj).items.trans (h j hj).items, (k j hj).hold.trans (h j hj).hold, (k j hj).key.trans (h j hj).key⟩

theorem HeldSame.but {d e : Dev} (h : HeldSame d e) (i : Nat) : HeldBut i d e := fun j _ => h j

theorem OtherRings.heldBut {p : Port} {r : Nat} {d e : Dev} (h : OtherRings p r d e) : HeldBut (16 * p.id + r) d e := fun j hj => by
  rw [h j hj]
  exact ⟨rfl, rfl, rfl⟩

/-- Clearing a ring. -/
theorem Dev.clearRing_shows (d : Dev) (q : Port) (k : Nat) : Keeps postAreas (postRegs ++ poolRegs) d (d.clearRing q k)
    ∧ LatchedSame d (d.clearRing q k) ∧ HeldBut (16 * q.id + k) d (d.clearRing q k)
    ∧ ∀ x ∈ ((d.clearRing q k).ring q k).items, x.unlatched = false := by
  have hdrop := ringWork_withdrawUnlatched d q k
  have habandon := ringWork_abandon poolRegs (d.withdrawUnlatched q k) q k
  have hunhold := posts_unhold ((d.withdrawUnlatched q k).abandon q k) q k
  have hring : RingHeld (((d.withdrawUnlatched q k).abandon q k).ring q k) ((d.clearRing q k).ring q k) := hunhold.held _
  refine ⟨?_, (hdrop.latched.trans habandon.latched).trans hunhold.held.latched,
    (hdrop.others.heldBut.trans habandon.others.heldBut).trans (hunhold.held.but _), ?_⟩
  · exact ((hdrop.keeps.trans habandon.keeps).mono (by decide) (by decide)).trans (hunhold.keeps.mono (List.Subset.refl _) (by decide))
  · rw [hring.items]
    exact Dev.unlatched_abandon _ q k (d.unlatched_withdrawUnlatched q k)

theorem svrI_lt {q : Port} {k : Nat} (hk : k < 16) : svrI q k < 65536 := by unfold svrI; cases q <;> simp only [Port.id] <;> omega

/-- Marking a ring as taken. -/
theorem Dev.markTaken_shows (d : Dev) {q : Port} {k : Nat} (hk : k < 16) : Keeps [] takeRegs d (d.markTaken q k)
    ∧ (d.markTaken q k).svrOn q k = false ∧ (d.markTaken q k).bitAt F.HIF_TAKEN_taken k q.id = true
    ∧ ∀ j, j < 16 → j ≠ k → (d.markTaken q k).svrOn q j = d.svrOn q j
      ∧ (d.markTaken q k).bitAt F.HIF_TAKEN_taken j q.id = d.bitAt F.HIF_TAKEN_taken j q.id := by
  have hoff := keeps_put [] (rs := [.HIF_SVR_CFG]) (f := F.HIF_SVR_CFG_enable) d false (svrI q k) (by decide)
  have htaken := keeps_setBit [] (rs := [.HIF_TAKEN]) (f := F.HIF_TAKEN_taken) (d.put F.HIF_SVR_CFG_enable false (svrI q k)) k true q.id
    (by decide)
  have hdrain := keeps_put [] (rs := [.HIF_SVR_STATUS]) (f := F.HIF_SVR_STATUS_draining)
    ((d.put F.HIF_SVR_CFG_enable false (svrI q k)).setBit F.HIF_TAKEN_taken k true q.id) true (svrI q k) (by decide)
  refine ⟨((hoff.mono (by simp) (by decide)).trans (htaken.mono (by simp) (by decide))).trans (hdrain.mono (by simp) (by decide)), ?_, ?_,
    fun j hj hne => ⟨?_, ?_⟩⟩
  · rw [Dev.markTaken, Dev.svrOn, hdrain.flag _ (by decide), htaken.flag _ (by decide), Dev.flag_put_self _ _ _ _ (by decide) rfl]
  · rw [Dev.markTaken, hdrain.bitAt _ _ (by decide), Dev.bitAt_setBit _ _ _ _ _ _ (by decide) hk, if_pos rfl]
  · rw [Dev.markTaken, Dev.svrOn, hdrain.flag _ (by decide), htaken.flag _ (by decide), Dev.svrOn, Dev.flag, Dev.flag, Dev.put,
      Dev.rd_wr_inst _ _ _ _ rfl (svrI_lt hk) (svrI_lt hj) (by unfold svrI; omega)]
  · rw [Dev.markTaken, hdrain.bitAt _ _ (by decide), Dev.bitAt_setBit _ _ _ _ _ _ (by decide) hk, if_neg hne, hoff.bitAt _ _ (by decide)]

/-- A ring that a TAKEOVER has taken. -/
structure TakenRing (d : Dev) (q : Port) (k : Nat) : Prop where
  off : d.svrOn q k = false
  taken : d.bitAt F.HIF_TAKEN_taken k q.id = true
  hold : (d.ring q k).hold = ⟨{}, {}⟩
  key : (d.ring q k).key = none
  latched : ∀ x ∈ (d.ring q k).items, x.unlatched = false

theorem RingHeld.trans {x y z : SvRing} (h : RingHeld x y) (k : RingHeld y z) : RingHeld x z :=
  ⟨k.items.trans h.items, k.hold.trans h.hold, k.key.trans h.key⟩

theorem RingHeld.refl (x : SvRing) : RingHeld x x := ⟨rfl, rfl, rfl⟩

/-- Moving a ring's holdings. -/
theorem Dev.moveHold_shows (d : Dev) {p q : Port} {r k : Nat} (hne : 16 * q.id + k ≠ 16 * p.id + r) :
    Keeps [.svr] [] d (d.moveHold p r q k) ∧ LatchedSame d (d.moveHold p r q k)
    ∧ (d.moveHold p r q k).ring q k = { d.ring q k with key := none, hold := ⟨{}, {}⟩ }
    ∧ (∀ j, j ≠ 16 * q.id + k → (Tbl.get {} (d.moveHold p r q k).svr j).items = (Tbl.get {} d.svr j).items)
    ∧ ∀ j, j ≠ 16 * q.id + k → j ≠ 16 * p.id + r → Tbl.get {} (d.moveHold p r q k).svr j = Tbl.get {} d.svr j := by
  have hempty : RingWork [.svr] [] q k d (d.emptyHold q k) := ringWork_modRing [] d (by simp) fun _ => rfl
  have hhold (e : Dev) (w : Plane) (f : Amount → Amount) : RingWork [.svr] [] p r e (e.modHold p r w f) :=
    ringWork_modRing [] e (by simp) fun _ => rfl
  have hitems (e : Dev) (w : Plane) (f : Amount → Amount) : ((e.modHold p r w f).ring p r).items = (e.ring p r).items := by
    rw [Dev.modHold, Dev.ring_modRing_self]
  have hmove := (hhold (d.emptyHold q k) .a (·.add (d.ring q k).hold.a)).trans (hhold _ .b (·.add (d.ring q k).hold.b))
  have hself : (d.emptyHold q k).ring q k = { d.ring q k with key := none, hold := ⟨{}, {}⟩ } := Dev.ring_modRing_self d q k _
  refine ⟨hempty.keeps.trans hmove.keeps, hempty.latched.trans hmove.latched, (hmove.others _ hne).trans hself, fun j hj => ?_,
    fun j hj hjr => (hmove.others j hjr).trans (hempty.others j hj)⟩
  rw [← hempty.others j hj]
  by_cases hjr : j = 16 * p.id + r
  · subst hjr
    exact (hitems _ .b _).trans (hitems _ .a _)
  · rw [← hmove.others j hjr]
    rfl

/-- Rings `ks` of port `q` are taken by ring `r` of port `p`. -/
structure Takes (p : Port) (r : Nat) (q : Port) (ks : List Nat) (d e : Dev) : Prop where
  keeps : Keeps postAreas takeRegs d e
  latched : LatchedSame d e
  taken : ∀ k ∈ ks, TakenRing e q k
  items : ∀ j, (∀ k ∈ ks, j ≠ 16 * q.id + k) → (Tbl.get {} e.svr j).items = (Tbl.get {} d.svr j).items
  held : ∀ j, (∀ k ∈ ks, j ≠ 16 * q.id + k) → j ≠ 16 * p.id + r → RingHeld (Tbl.get {} d.svr j) (Tbl.get {} e.svr j)
  on : ∀ k, k < 16 → k ∉ ks → e.svrOn q k = d.svrOn q k ∧ e.bitAt F.HIF_TAKEN_taken k q.id = d.bitAt F.HIF_TAKEN_taken k q.id

theorem takes_takeRing (d : Dev) {p q : Port} {r k : Nat} (hr : r < 16) (hk : k < 16) (hpq : q ≠ p) : Takes p r q [k] d (d.takeRing p r q k) := by
  have hne : 16 * q.id + k ≠ 16 * p.id + r := fun h => hpq (ringIndex_inj hr hk h).1
  obtain ⟨hclear, hclearL, hclearH, hclearU⟩ := d.clearRing_shows q k
  obtain ⟨hmark, hoff, htaken, hothers⟩ := (d.clearRing q k).markTaken_shows (q := q) hk
  have hsvr : ((d.clearRing q k).markTaken q k).svr = (d.clearRing q k).svr := hmark.2.1 .svr (by simp)
  obtain ⟨hmove, hmoveL, hself, hitems, hrest⟩ := ((d.clearRing q k).markTaken q k).moveHold_shows hne
  have hdrain := posts_refreshDrain (((d.clearRing q k).markTaken q k).moveHold p r q k) q k
  rw [Dev.takeRing_eq]
  generalize (((d.clearRing q k).markTaken q k).moveHold p r q k).refreshDrain q k = e4 at hdrain ⊢
  generalize ((d.clearRing q k).markTaken q k).moveHold p r q k = e3 at hmove hmoveL hself hitems hrest hdrain
  generalize (d.clearRing q k).markTaken q k = e2 at hmark hoff htaken hothers hsvr hmove hmoveL hself hitems hrest
  generalize d.clearRing q k = e1 at hclear hclearL hclearH hclearU hmark hothers hsvr
  have hring : RingHeld (e3.ring q k) (e4.ring q k) := hdrain.held _
  have hfrom := hmove.mono (by decide : [Area.svr] ⊆ postAreas) (by simp : [] ⊆ takeRegs)
  have hto := hdrain.keeps.mono (List.Subset.refl _) (by decide : postRegs ⊆ takeRegs)
  refine ⟨?_, ?_, fun j hj => ?_, fun j hj => ?_, fun j hj hjr => ?_, fun j hj hjk => ?_⟩
  · exact (((hclear.mono (List.Subset.refl _) (by decide)).trans (hmark.mono (by simp) (List.Subset.refl _))).trans hfrom).trans hto
  · exact ((hclearL.trans (.of_svr hsvr)).trans hmoveL).trans hdrain.held.latched
  · obtain rfl := List.mem_singleton.mp hj
    refine ⟨?_, ?_, ?_, ?_, ?_⟩
    · rw [Dev.svrOn, hdrain.keeps.flag _ (by decide), hmove.flag _ (by simp)]
      exact hoff
    · rw [hdrain.keeps.bitAt _ _ (by decide), hmove.bitAt _ _ (by simp), htaken]
    · rw [hring.hold, hself]
    · rw [hring.key, hself]
    · rw [hring.items, hself, Dev.ring, hsvr]
      exact hclearU
  · have hj := hj k (by simp)
    rw [(hdrain.held j).items, hitems j hj, hsvr, (hclearH j hj).items]
  · have hj := hj k (by simp)
    have hheld := hclearH j hj
    rw [← hsvr, ← hrest j hj hjr] at hheld
    exact hheld.trans (hdrain.held j)
  · obtain ⟨hon, hbit⟩ := hothers j hj (by simpa using hjk)
    constructor
    · rw [Dev.svrOn, hdrain.keeps.flag _ (by decide), hmove.flag _ (by simp)]
      exact hon.trans (hclear.flag _ (by decide))
    · rw [hdrain.keeps.bitAt _ _ (by decide), hmove.bitAt _ _ (by simp), hbit, hclear.bitAt _ _ (by decide)]

/-- A ring that has been taken stays so while others are. -/
theorem Takes.stays {p q : Port} {r k : Nat} {ks : List Nat} {d e : Dev} (h : Takes p r q ks d e) (hk : k < 16) (hr : r < 16) (hpq : q ≠ p)
    (hks : k ∉ ks) (ht : TakenRing d q k) : TakenRing e q k := by
  obtain ⟨hon, hbit⟩ := h.on k hk hks
  have hj : ∀ j ∈ ks, 16 * q.id + k ≠ 16 * q.id + j := fun j hj hkj => hks (by rwa [show k = j by omega])
  have hheld : RingHeld (d.ring q k) (e.ring q k) := h.held _ hj fun hkr => hpq (ringIndex_inj hr hk hkr).1
  exact ⟨hon.trans ht.off, hbit.trans ht.taken, hheld.hold.trans ht.hold, hheld.key.trans ht.key, by rw [hheld.items]; exact ht.latched⟩

theorem takes_each {p q : Port} {r : Nat} (hr : r < 16) (hpq : q ≠ p) (ks : List Nat) (hks : ks.Nodup) (hlt : ∀ k ∈ ks, k < 16) (d : Dev) :
    Takes p r q ks d (d.each ks fun d k => d.takeRing p r q k) := by
  induction ks generalizing d with
  | nil => exact ⟨Keeps.refl _ _ d, LatchedSame.refl d, by simp, fun _ _ => rfl, fun _ _ _ => RingHeld.refl _, fun _ _ _ => ⟨rfl, rfl⟩⟩
  | cons k ks ih =>
    obtain ⟨hnot, hrest⟩ := List.nodup_cons.mp hks
    have hk : k < 16 := hlt k (by simp)
    have hone := takes_takeRing d hr hk hpq
    have hall := ih hrest (fun j hj => hlt j (by simp [hj])) (d.takeRing p r q k)
    have hsplit {j : Nat} (hj : ∀ i ∈ k :: ks, j ≠ 16 * q.id + i) : (∀ i ∈ [k], j ≠ 16 * q.id + i) ∧ ∀ i ∈ ks, j ≠ 16 * q.id + i :=
      ⟨fun i hi => hj i (by simp_all), fun i hi => hj i (by simp [hi])⟩
    refine ⟨hone.keeps.trans hall.keeps, hone.latched.trans hall.latched, fun j hj => ?_, fun j hj => ?_, fun j hj hjr => ?_, fun j hj hjk => ?_⟩
    · rcases List.mem_cons.mp hj with rfl | hj
      · exact hall.stays hk hr hpq hnot (hone.taken j (by simp))
      · exact hall.taken j hj
    · exact (hall.items j (hsplit hj).2).trans (hone.items j (hsplit hj).1)
    · exact (hone.held j (hsplit hj).1 hjr).trans (hall.held j (hsplit hj).2 hjr)
    · obtain ⟨hon, hbit⟩ := hall.on j hj fun h => hjk (by simp [h])
      obtain ⟨hon', hbit'⟩ := hone.on j hj fun h => hjk (by simp_all)
      exact ⟨hon.trans hon', hbit.trans hbit'⟩

/-! ### A TAKEOVER acts (R306) -/

/-- The enabled rings of the other port that a TAKEOVER names. -/
def Dev.takenRings (d : Dev) (p : Port) (it : Item) : List Nat :=
  (List.range 16).filter fun k => bitOf (D.svrMask.of it.head) k && d.svrOn p.other k

theorem Dev.mem_takenRings {d : Dev} {p : Port} {it : Item} {k : Nat} :
    k ∈ d.takenRings p it ↔ k < 16 ∧ bitOf (D.svrMask.of it.head) k = true ∧ d.svrOn p.other k = true := by
  simp [Dev.takenRings]

/-- The rings `ks` of the other port are taken, and the takeover is reported. -/
def Dev.takeRings (d : Dev) (p : Port) (r : Nat) (ks : List Nat) (mask : Nat) : Dev :=
  ((d.masterReset (6 + p.other.id)).each ks fun d k => d.takeRing p r p.other k).occur (evPort p.other) 0x62 mask

/-- The TAKEOVER waits for what its rings have latched, and what they held back is delivered. -/
def Dev.awaitTaken (d : Dev) (p : Port) (r idx : Nat) : Dev := (d.modItem p r idx fun x => { x with cur := 1 }).deliverAll

theorem Dev.takeOver_eq (d : Dev) (p : Port) (r : Nat) (it : Item) (hcur : it.cur = 0) (hsome : d.takenRings p it ≠ []) :
    d.takeOver p r it =
      ((d.takeRings p r (d.takenRings p it) (D.svrMask.of it.head)).awaitTaken p r it.idx).takeoverDone p r { it with cur := 1 } := by
  have hempty : (d.takenRings p it).isEmpty = false := by simpa [List.isEmpty_iff] using hsome
  unfold Dev.takenRings at hempty
  simp only [Dev.takeOver, Dev.takeRings, Dev.awaitTaken, Dev.takenRings]
  rw [if_neg (by simp [hcur]), hempty, if_neg (by decide)]

theorem Dev.takeOver_none (d : Dev) (p : Port) (r : Nat) (it : Item) (hcur : it.cur = 0) (hnone : d.takenRings p it = []) :
    d.takeOver p r it = d.finish p r it.idx 0 := by
  unfold Dev.takenRings at hnone
  unfold Dev.takeOver
  dsimp only
  rw [hnone, if_neg (by simp [hcur]), if_pos List.isEmpty_nil]

theorem port_other_ne (p : Port) : p.other ≠ p := by cases p <;> decide

theorem Dev.ring_of_svr {d e : Dev} (h : e.svr = d.svr) (q : Port) (k : Nat) : e.ring q k = d.ring q k := by rw [Dev.ring, Dev.ring, h]

/-- The registers that a TAKEOVER may change. -/
def takeoverRegs : List RegName :=
  .HIF_SVR_CFG :: .HIF_SVR_STATUS :: .HIF_CPR_STATUS :: .HIF_TAKEN :: .CMX_MRST :: evRegs ++ poolRegs

theorem takes_takeRings (d : Dev) (p : Port) {r : Nat} (hr : r < 16) {ks : List Nat} (hks : ks.Nodup) (hlt : ∀ k ∈ ks, k < 16) (mask : Nat) :
    Keeps (.svr :: .cmx :: evAreas) takeoverRegs d (d.takeRings p r ks mask) ∧ LatchedSame d (d.takeRings p r ks mask)
    ∧ ((d.takeRings p r ks mask).ring p r).items = (d.ring p r).items
    ∧ (∀ k ∈ ks, TakenRing (d.takeRings p r ks mask) p.other k)
    ∧ ∀ k, k < 16 → k ∉ ks → (d.takeRings p r ks mask).svrOn p.other k = d.svrOn p.other k := by
  have hreset := keeps_masterReset d (6 + p.other.id)
  have hresetSvr : (d.masterReset (6 + p.other.id)).svr = d.svr := hreset.2.1 .svr (by simp)
  have htakes := takes_each hr (port_other_ne p) ks hks hlt (d.masterReset (6 + p.other.id))
  have hoccur : EvOnly ((d.masterReset (6 + p.other.id)).each ks fun d k => d.takeRing p r p.other k) (d.takeRings p r ks mask) :=
    evOnly_occur _ _ _ _ _ _ _
  have hsvr : (d.takeRings p r ks mask).svr = _ := hoccur.2.1 .svr (by decide)
  refine ⟨?_, ?_, ?_, fun k hk => ?_, fun k hk hks => ?_⟩
  · exact ((hreset.mono (by decide) (by decide)).trans (htakes.keeps.mono (by decide) (by decide))).trans
      (hoccur.mono (by decide) (by decide))
  · exact ((LatchedSame.of_svr hresetSvr).trans htakes.latched).trans (.of_svr hsvr)
  · rw [Dev.ring, hsvr, htakes.items _ fun k hk h => (port_other_ne p) (ringIndex_inj hr (hlt k hk) h.symm).1, hresetSvr, Dev.ring]
  · obtain ⟨hoff, htaken, hhold, hkey, hlatched⟩ := htakes.taken k hk
    have hring := Dev.ring_of_svr hsvr p.other k
    refine ⟨(hoccur.flag _ (by decide)).trans hoff, (hoccur.bitAt _ _ (by decide)).trans htaken, ?_, ?_, ?_⟩
    · rw [hring]; exact hhold
    · rw [hring]; exact hkey
    · rw [hring]; exact hlatched
  · rw [Dev.svrOn, hoccur.flag _ (by decide)]
    exact (htakes.on k hk hks).1.trans (hreset.flag _ (by decide))

theorem TakenRing.of_ring {d e : Dev} {q : Port} {k : Nat} (h : TakenRing d q k) (hon : e.svrOn q k = d.svrOn q k)
    (hbit : e.bitAt F.HIF_TAKEN_taken k q.id = d.bitAt F.HIF_TAKEN_taken k q.id) (hring : e.ring q k = d.ring q k) : TakenRing e q k :=
  ⟨hon.trans h.off, hbit.trans h.taken, by rw [hring]; exact h.hold, by rw [hring]; exact h.key, by rw [hring]; exact h.latched⟩

/-- The TAKEOVER as it waits: its item has begun, and what was taken stays taken. -/
theorem Dev.awaitTaken_shows (d : Dev) (p : Port) {r : Nat} {it : Item} (hr : r < 16) (honly : (d.ring p r).items = [it]) (hseq : it.seq ≠ 0) :
    Keeps [.svr, .order, .ports] [] d (d.awaitTaken p r it.idx) ∧ LatchedSame d (d.awaitTaken p r it.idx)
    ∧ ((d.awaitTaken p r it.idx).ring p r).items = [{ it with cur := 1 }]
    ∧ ∀ k, k < 16 → TakenRing d p.other k → TakenRing (d.awaitTaken p r it.idx) p.other k := by
  have hmod := keeps_modItem (as := [.svr, .order, .ports]) [] d p r it.idx (fun x => { x with cur := 1 }) (by simp)
  have hothers := otherRings_modItem d p r it.idx fun x => { x with cur := 1 }
  have hitems : ((d.modItem p r it.idx fun x => { x with cur := 1 }).ring p r).items = [{ it with cur := 1 }] := by
    rw [Dev.items_modItem, honly]
    simp
  have hlatched : LatchedSame d (d.modItem p r it.idx fun x => { x with cur := 1 }) := latchedSame_modItem d p r it.idx fun _ => rfl
  have hdeliver := delivers_deliverAll (d.modItem p r it.idx fun x => { x with cur := 1 })
  unfold Dev.awaitTaken
  generalize (d.modItem p r it.idx fun x => { x with cur := 1 }) = e at hmod hothers hitems hlatched hdeliver
  refine ⟨hmod.trans hdeliver.keeps, ?_, ?_, fun k hk ht => ?_⟩
  · exact hlatched.trans hdeliver.latched
  · rw [hdeliver.quiet p r hr (.inr (by rw [hitems]; simpa using hseq)), hitems]
  · have hring : e.ring p.other k = d.ring p.other k := hothers _ fun h => (port_other_ne p) (ringIndex_inj hr hk h).1
    have htaken : TakenRing e p.other k := ht.of_ring (hmod.flag _ (by simp)) (hmod.bitAt _ _ (by simp)) hring
    exact htaken.of_ring (hdeliver.keeps.flag _ (by simp)) (hdeliver.keeps.bitAt _ _ (by simp))
      (hdeliver.quiet p.other k hk (.inl htaken.off))

theorem Dev.takeoverDone_done (d : Dev) (p : Port) (r : Nat) {it : Item} (hop : descOp it.head = 0x60) (hphase : it.phase = .acting)
    (hcur : it.cur = 1) (h : ∀ k, k < 16 → d.anyLatched (16 * p.other.id + k) = false) :
    d.takeoverDone p r it = d.modItem p r it.idx fun x => { x with phase := .done, status := 0 } := by
  have hnone : ((List.range 16).any fun k => (bitOf (D.svrMask.of it.head) k && d.bitAt F.HIF_TAKEN_taken k p.other.id)
      && (d.ring p.other k).items.any fun x => x.phase == .latched) = false := by
    refine List.any_eq_false.mpr fun k hk => ?_
    have hk := h k (List.mem_range.mp hk)
    rw [Dev.anyLatched, ← Dev.ring] at hk
    rw [hk]
    simp
  unfold Dev.takeoverDone
  dsimp only
  rw [hnone, if_pos (by simp [hop, hphase, hcur])]

theorem Dev.takeoverDone_waits (d : Dev) (p : Port) (r : Nat) {it : Item} {k : Nat} (hk : k < 16)
    (hbit : bitOf (D.svrMask.of it.head) k = true) (htaken : d.bitAt F.HIF_TAKEN_taken k p.other.id = true)
    (h : d.anyLatched (16 * p.other.id + k) = true) : d.takeoverDone p r it = d := by
  have hsome : ((List.range 16).any fun k => (bitOf (D.svrMask.of it.head) k && d.bitAt F.HIF_TAKEN_taken k p.other.id)
      && (d.ring p.other k).items.any fun x => x.phase == .latched) = true := by
    refine List.any_eq_true.mpr ⟨k, List.mem_range.mpr hk, ?_⟩
    rw [Dev.anyLatched, ← Dev.ring] at h
    rw [hbit, htaken, h]
    rfl
  unfold Dev.takeoverDone
  dsimp only
  rw [hsome, if_neg (by simp)]

theorem Dev.anyLatched_eq_false {d : Dev} {q : Port} {k : Nat} (h : ∀ x, x ∈ (d.ring q k).items → x.phase ≠ .latched) :
    d.anyLatched (16 * q.id + k) = false := by
  rw [Dev.anyLatched, ← Dev.ring]
  exact List.any_eq_false.mpr fun x hx => by simpa using h x hx

theorem Dev.anyLatched_eq_true {d : Dev} {q : Port} {k : Nat} (h : ∃ x, x ∈ (d.ring q k).items ∧ x.phase = .latched) :
    d.anyLatched (16 * q.id + k) = true := by
  obtain ⟨x, hx, hl⟩ := h
  rw [Dev.anyLatched, ← Dev.ring]
  exact List.any_eq_true.mpr ⟨x, hx, by simp [hl]⟩

/-! ### The obligation -/

theorem exec_takeover (s : State) (t r : Nat) (p : Port) : exec (.takeover t p r) s = onDev (ringOk r) t s fun d =>
    d.act p r 0x60 fun d it => d.takeOver p r it := rfl

/-- A late TIME_SET. -/
theorem Acting.timeSet_late {s : State} {t r : Nat} {p : Port} {it : Item} {d : Dev} (h : Acting s t p r 0x30 it d)
    (hop : D.subop.of it.head = 0) (hjump : d.tim.jumpOpen = false) : Runs (.timeSet t p r) s fun d' =>
      Becomes p r { it with phase := .done, status := 0 } d d' ∧ d'.flag F.TB_ERR_time_set_slewed = true
      ∧ d'.tim = { d.tim with timeSlew := (timeSetU it.head : Int) - d.epoch } ∧ Keeps [.svr, .tim] [.TB_ERR] d d' := by
  refine h.runs (exec_timeSet s t r p) ?_
  generalize timeSetU it.head = u
  rw [if_neg (by simp [hop]), d.timeSet_late u hjump]
  have hraise := keeps_raise [] (rs := [.TB_ERR]) (f := F.TB_ERR_time_set_slewed) d 0 (by decide)
  have hslew := keeps_slewTo (d.raise F.TB_ERR_time_set_slewed) u
  have hfinish := keeps_finish (as := [.svr]) [] ((d.raise F.TB_ERR_time_set_slewed).slewTo u) p r it.idx (by simp)
  refine ⟨h.becomes ((hslew.2.1 .svr (by simp)).trans (hraise.2.1 .svr (by simp))), ?_, ?_, ?_⟩
  · rw [hfinish.flag _ (by simp), hslew.flag _ (by simp), Dev.flag_raise_self _ _ _ (by decide) rfl]
  · rw [hfinish.2.1 .tim (by simp), Dev.slewTo, hraise.epoch (by simp) (by decide), hraise.2.1 .tim (by simp)]
  · exact ((hraise.mono (by simp) (by simp)).trans (hslew.mono (by simp) (by simp))).trans (hfinish.mono (by simp) (by simp))

/-- A TIME_SET that makes the start jump. -/
theorem Acting.timeSet_open {s : State} {t r : Nat} {p : Port} {it : Item} {d : Dev} (h : Acting s t p r 0x30 it d)
    (hop : D.subop.of it.head = 0) (hjump : d.tim.jumpOpen = true) : Runs (.timeSet t p r) s fun d' =>
      (∃ x, (d'.ring p r).items = [x] ∧ x.phase = .done ∧ x.status = 0) ∧ (∀ q : Plane, (d'.tb q).epoch = timeSetU it.head)
      ∧ d'.flag F.TB_STATUS_time_valid = true ∧ d'.tim.jumpOpen = false
      ∧ Keeps (.svr :: .tim :: .outs :: .ins :: .planes :: evAreas) (.TB_STATUS :: evRegs) d d' := by
  refine h.runs (exec_timeSet s t r p) ?_
  generalize timeSetU it.head = u
  rw [if_neg (by simp [hop]), d.timeSet_open u hjump]
  have hfinish := keeps_finish (as := [.svr]) [] (d.startJump u) p r it.idx (by simp)
  have htim : ((d.startJump u).finish p r it.idx 0).tim = (d.startJump u).tim := hfinish.2.1 .tim (by simp)
  obtain ⟨off, hjumped⟩ := d.startJump_tim u
  refine ⟨h.done_startJump u, fun q => ?_, ?_, ?_, (keeps_startJump d u).trans (hfinish.mono (by decide) (by simp))⟩
  · rw [Dev.tb, htim, ← Dev.tb, Dev.epoch_startJump]
  · rw [hfinish.flag _ (by simp), Dev.flag_startJump]
  · rw [htim, hjumped]

/-- A TIME_ADJ whose sample is taken, REFV having been present. -/
theorem Acting.timeAdj_present {s : State} {t r : Nat} {p : Port} {it : Item} {d : Dev} (h : Acting s t p r 0x30 it d)
    (hop : D.subop.of it.head = 1) (hen : d.flag F.TB_REFV_CFG_enable = true) (hlost : d.refLost 4 = false)
    (htime : d.epoch ≤ D.sec.of it.head * secU + min 2000 (max 100 (d.rd F.TB_REFV_CFG_late_ms)) * msU) {off : Int}
    (hoff : off = timeAdjOff it.head) {tracks : Prop}
    (htracks : tracks ↔ d.rd F.TB_STATUS_sel = 4 ∧ (d.tbState d.lead = 1 ∨ d.tbState d.lead = 2)) :
    Runs (.timeAdj t p r) s fun d' =>
      (∃ x, (d'.ring p r).items = [x] ∧ x.phase = .done ∧ x.status = 0) ∧ d'.tim.refvFrom = d.now ∧ d'.tim.refvOff = some off
      ∧ (¬tracks → d'.tim = { d.tim with refvFrom := d.now, refvOff := some off } ∧ Keeps [.svr, .tim] [] d d')
      ∧ (tracks → d.steps d.lead (off - (d.tb d.lead).buildout) = false → (d'.tb d.lead).phase = off - (d.tb d.lead).buildout)
      ∧ Keeps (.svr :: .tim :: .clk :: .planes :: evAreas) (.TB_STATUS :: .CLK_STATUS :: evRegs) d d' := by
  refine h.runs (exec_timeAdj s t r p) ?_
  rw [if_neg (by simp [hop]), d.timeAdj_taken _ _ hen htime, ← hoff]
  have hsample := keeps_refvSample d off
  have hlost' : (d.refvSample off).refLost 4 = false := (hsample.refLost (by simp) 4).trans hlost
  have hheard : (d.refvSample off).refvHeard = d.refvSample off := by rw [Dev.refvHeard, hlost', if_neg (by decide)]
  have hbuild (q : Plane) : (d.refvSample off).tb q = d.tb q := rfl
  have hsteps (q : Plane) (z : Int) : (d.refvSample off).steps q z = d.steps q z := by
    rw [Dev.steps, Dev.steps, Dev.stepThr, Dev.stepThr, hsample.rd _ (by simp), hbuild]
  have hsame : ((d.refvSample off).rd F.TB_STATUS_sel = 4
      ∧ ((d.refvSample off).tbState (d.refvSample off).lead = 1 ∨ (d.refvSample off).tbState (d.refvSample off).lead = 2)) ↔ tracks := by
    rw [hsample.rd _ (by simp), hsample.lead (by simp), hsample.tbState (by simp), htracks]
  rw [hheard]
  obtain ⟨hkeeps, ⟨tbs, htim⟩, -⟩ := phaseTaken_refvPhase (d.refvSample off) off
  have hfinish := keeps_finish (as := [.svr]) [] ((d.refvSample off).refvPhase off) p r it.idx (by simp)
  have htim' := (hfinish.2.1 .tim (by simp)).trans htim
  refine ⟨h.done ((hkeeps.2.1 .svr (by decide)).trans (hsample.2.1 .svr (by simp))), by rw [htim']; rfl, by rw [htim']; rfl,
    fun hnot => ?_, fun ht hno => ?_, ?_⟩
  · rw [(d.refvSample off).refvPhase_of_not off fun hc => hnot (hsame.mp hc)] at hfinish ⊢
    exact ⟨(hfinish.2.1 .tim (by simp)).trans (d.tim_refvSample off), (hsample.mono (by simp) (by simp)).trans (hfinish.mono (by simp) (by simp))⟩
  · rw [(d.refvSample off).refvPhase_of_no_step off (hsame.mpr ht) (by rw [hsample.lead (by simp), hsteps, hbuild, hno])] at hfinish ⊢
    rw [Dev.tb, hfinish.2.1 .tim (by simp), ← Dev.tb, hsample.lead (by simp), Dev.phase_notePhase, hbuild]
  · exact ((hsample.mono (by decide) (by simp)).trans (hkeeps.mono (by decide) (by decide))).trans (hfinish.mono (by decide) (by simp))

theorem Dev.ref_of_tim {d e : Dev} {tbs : Duo Timebase} (h : e.tim = { d.tim with tb := tbs }) (y : Nat) : e.ref y = d.ref y := by
  rw [Dev.ref, Dev.ref, h]

/-- A TIME_ADJ whose sample is taken, REFV having been lost. -/
theorem Acting.timeAdj_back {s : State} {t r : Nat} {p : Port} {it : Item} {d : Dev} (h : Acting s t p r 0x30 it d)
    (hop : D.subop.of it.head = 1) (hen : d.flag F.TB_REFV_CFG_enable = true) (hlost : d.refLost 4 = true)
    (htime : d.epoch ≤ D.sec.of it.head * secU + min 2000 (max 100 (d.rd F.TB_REFV_CFG_late_ms)) * msU) :
    Runs (.timeAdj t p r) s fun d' =>
      (∃ x, (d'.ring p r).items = [x] ∧ x.phase = .done ∧ x.status = 0) ∧ d'.tim.refvOff = some (timeAdjOff it.head)
      ∧ d'.refLost 4 = false ∧ (d'.ref 4).qual = 1 ∧ (d'.ref 4).run = 0
      ∧ Keeps (.svr :: .tim :: .clk :: .planes :: evAreas) (.TB_STATUS :: .CLK_STATUS :: evRegs) d d' := by
  refine h.runs (exec_timeAdj s t r p) ?_
  generalize timeAdjOff it.head = off
  rw [if_neg (by simp [hop]), d.timeAdj_taken _ _ hen htime]
  have hsample := keeps_refvSample d off
  have hlost' : (d.refvSample off).refLost 4 = true := (hsample.refLost (by simp) 4).trans hlost
  have hheard : (d.refvSample off).refvHeard = (d.refvSample off).inputBack 4 := by rw [Dev.refvHeard, hlost', if_pos rfl]
  obtain ⟨hback, -, href⟩ := (d.refvSample off).inputBack_shows (x := 4) (by decide)
  obtain ⟨_, _, hbackTim⟩ := (inputMoves_inputBack (d.refvSample off) (x := 4) (by decide)).tim
  have hbackKeeps := keeps_inputBack (d.refvSample off) 4
  rw [hheard]
  obtain ⟨hkeeps, ⟨tbs, htim⟩, hfields⟩ := phaseTaken_refvPhase ((d.refvSample off).inputBack 4) off
  have hfinish := keeps_finish (as := [.svr]) [] (((d.refvSample off).inputBack 4).refvPhase off) p r it.idx (by simp)
  have htim' := (hfinish.2.1 .tim (by simp)).trans htim
  have href' : ((((d.refvSample off).inputBack 4).refvPhase off).finish p r it.idx 0).ref 4 = ((d.refvSample off).inputBack 4).ref 4 :=
    Dev.ref_of_tim htim' 4
  refine ⟨h.done (((hkeeps.2.1 .svr (by decide)).trans (hbackKeeps.2.1 .svr (by simp))).trans (hsample.2.1 .svr (by simp))),
    by rw [htim', hbackTim, Dev.tim_refvSample], ?_, by rw [href', href], by rw [href', href], ?_⟩
  · rw [hfinish.refLost (by simp), hfields.refLost 4 (by cases ((d.refvSample off).inputBack 4).lead <;> decide), hback]
  · exact (((hsample.mono (by decide) (by simp)).trans (hbackKeeps.mono (by decide) (by decide))).trans
      (hkeeps.mono (by decide) (by decide))).trans (hfinish.mono (by decide) (by simp))

/-- A TIME_ADJ while REFV is off. -/
theorem Acting.timeAdj_off {s : State} {t r : Nat} {p : Port} {it : Item} {d : Dev} (h : Acting s t p r 0x30 it d)
    (hop : D.subop.of it.head = 1) (hen : d.flag F.TB_REFV_CFG_enable = false) : Runs (.timeAdj t p r) s fun d' =>
      Becomes p r { it with phase := .done, status := 0 } d d' ∧ d'.flag F.TB_ERR_refv_off = true ∧ Keeps [.svr] [.TB_ERR] d d' := by
  refine h.runs (exec_timeAdj s t r p) ?_
  rw [if_neg (by simp [hop]), Dev.timeAdj_eq, hen, if_pos (by decide)]
  have hraise := keeps_raise [] (rs := [.TB_ERR]) (f := F.TB_ERR_refv_off) d 0 (by decide)
  have hfinish := keeps_finish (as := [.svr]) [] (d.raise F.TB_ERR_refv_off) p r it.idx (by simp)
  exact ⟨h.becomes (hraise.2.1 .svr (by simp)), by rw [hfinish.flag _ (by simp), Dev.flag_raise_self _ _ _ (by decide) rfl],
    (hraise.mono (by simp) (by simp)).trans (hfinish.mono (by simp) (by simp))⟩

/-- A TIME_ADJ that comes too late. -/
theorem Acting.timeAdj_late {s : State} {t r : Nat} {p : Port} {it : Item} {d : Dev} (h : Acting s t p r 0x30 it d)
    (hop : D.subop.of it.head = 1) (hen : d.flag F.TB_REFV_CFG_enable = true)
    (htime : D.sec.of it.head * secU + min 2000 (max 100 (d.rd F.TB_REFV_CFG_late_ms)) * msU < d.epoch) :
    Runs (.timeAdj t p r) s fun d' =>
      Becomes p r { it with phase := .done, status := 0 } d d' ∧ d'.flag F.TB_ERR_refv_late = true ∧ d'.tim = d.tim
      ∧ Keeps (.svr :: evAreas) (.TB_ERR :: evRegs) d d' := by
  refine h.runs (exec_timeAdj s t r p) ?_
  rw [if_neg (by simp [hop]), Dev.timeAdj_eq, hen, if_neg (by decide), if_pos htime]
  have hraise := keeps_raise [] (rs := [.TB_ERR]) (f := F.TB_ERR_refv_late) d 0 (by decide)
  have hoccur : EvOnly (d.raise F.TB_ERR_refv_late) ((d.raise F.TB_ERR_refv_late).occur (evRef 4) 0x45) := evOnly_occur _ _ _ _ _ _ _
  generalize (d.raise F.TB_ERR_refv_late).occur (evRef 4) 0x45 = e at hoccur
  have hfinish := keeps_finish (as := [.svr]) [] e p r it.idx (by simp)
  refine ⟨h.becomes ((hoccur.2.1 .svr (by decide)).trans (hraise.2.1 .svr (by simp))), ?_, ?_, ?_⟩
  · rw [hfinish.flag _ (by simp), hoccur.flag _ (by decide), Dev.flag_raise_self _ _ _ (by decide) rfl]
  · exact ((hfinish.2.1 .tim (by simp)).trans (hoccur.2.1 .tim (by decide))).trans (hraise.2.1 .tim (by simp))
  · exact ((hraise.mono (by simp) (by simp)).trans (hoccur.mono (by simp) (by simp))).trans (hfinish.mono (by simp) (by simp))

/-- A TAKEOVER that names an enabled ring. -/
theorem Acting.takeover {s : State} {t r : Nat} {p : Port} {it : Item} {d : Dev} (h : Acting s t p r 0x60 it d) (hcur : it.cur = 0)
    (hseq : it.seq ≠ 0) (hsome : ∃ k, k < 16 ∧ bitOf (D.svrMask.of it.head) k = true ∧ d.svrOn p.other k = true) :
    Runs (.takeover t p r) s fun d' =>
      ((∀ k, k < 16 → ∀ x, x ∈ (d.ring p.other k).items → x.phase ≠ .latched) →
        (d'.ring p r).items = [{ it with cur := 1, phase := .done, status := 0 }])
      ∧ ((∃ k, k < 16 ∧ bitOf (D.svrMask.of it.head) k = true ∧ d.svrOn p.other k = true
            ∧ ∃ x, x ∈ (d.ring p.other k).items ∧ x.phase = .latched) →
          (d'.ring p r).items = [{ it with cur := 1 }])
      ∧ (∀ k, k < 16 → bitOf (D.svrMask.of it.head) k = true → d.svrOn p.other k = true → TakenRing d' p.other k)
      ∧ (∀ k, k < 16 → bitOf (D.svrMask.of it.head) k = false → d'.svrOn p.other k = d.svrOn p.other k)
      ∧ Keeps (.svr :: .order :: .cmx :: evAreas) takeoverRegs d d' := by
  refine h.runs (exec_takeover s t r p) ?_
  obtain ⟨hphase, hop⟩ := h.item
  have hrings : d.takenRings p it ≠ [] := List.ne_nil_of_mem (Dev.mem_takenRings.mpr hsome.choose_spec)
  rw [d.takeOver_eq p r it hcur hrings]
  obtain ⟨htake, htakeL, htakeI, htaken, hon⟩ := takes_takeRings d p h.ring (ks := d.takenRings p it) (List.nodup_range.filter _)
    (fun k hk => (Dev.mem_takenRings.mp hk).1) (D.svrMask.of it.head)
  rw [h.only] at htakeI
  obtain ⟨hwait, hwaitL, hwaitI, hwaitT⟩ := (d.takeRings p r (d.takenRings p it) (D.svrMask.of it.head)).awaitTaken_shows p h.ring htakeI hseq
  generalize (d.takeRings p r (d.takenRings p it) (D.svrMask.of it.head)).awaitTaken p r it.idx = e at hwait hwaitL hwaitI hwaitT ⊢
  have hlatched := htakeL.trans hwaitL
  have hkeeps : Keeps (.svr :: .order :: .cmx :: evAreas) takeoverRegs d e :=
    (htake.mono (by decide) (List.Subset.refl _)).trans (hwait.mono (by decide) (by simp))
  have hall (k : Nat) (hk : k < 16) (hb : bitOf (D.svrMask.of it.head) k = true) (ho : d.svrOn p.other k = true) :
      TakenRing e p.other k := hwaitT k hk (htaken k (Dev.mem_takenRings.mpr ⟨hk, hb, ho⟩))
  obtain ⟨f, hf, hcases⟩ : ∃ f, e.takeoverDone p r { it with cur := 1 } = f ∧ (f = e ∨
      f = e.modItem p r it.idx fun x => { x with phase := .done, status := 0 }) := by
    refine ⟨_, rfl, ?_⟩
    unfold Dev.takeoverDone
    dsimp only
    split
    · exact .inr rfl
    · exact .inl rfl
  have hdone : Keeps [.svr] [] e f ∧ OtherRings p r e f := by
    rcases hcases with rfl | rfl
    · exact ⟨Keeps.refl _ _ _, fun _ _ => rfl⟩
    · exact ⟨keeps_modItem _ e p r it.idx _ (by simp), otherRings_modItem e p r it.idx _⟩
  obtain ⟨hdoneK, hdoneO⟩ := hdone
  rw [hf]
  refine ⟨fun hno => ?_, fun ⟨k, hk, hb, ho, hx⟩ => ?_, fun k hk hb ho => ?_, fun k hk hb => ?_, hkeeps.trans (hdoneK.mono (by decide) (by simp))⟩
  · rw [← hf, e.takeoverDone_done p r (it := { it with cur := 1 }) hop hphase rfl fun k hk => by
      rw [hlatched, Dev.anyLatched_eq_false (hno k hk)], Dev.items_modItem, hwaitI]
    simp
  · rw [← hf, e.takeoverDone_waits p r (it := { it with cur := 1 }) hk hb (hall k hk hb ho).taken (by rw [hlatched, Dev.anyLatched_eq_true hx]), hwaitI]
  · exact (hall k hk hb ho).of_ring (hdoneK.flag _ (by simp)) (hdoneK.bitAt _ _ (by simp))
      (hdoneO _ fun hi => (port_other_ne p) (ringIndex_inj h.ring hk hi).1)
  · have hnot : k ∉ d.takenRings p it := fun hk => by
      rw [Dev.mem_takenRings, hb] at hk
      exact absurd hk.2.1 (by decide)
    rw [Dev.svrOn, hdoneK.flag _ (by simp), hwait.flag _ (by simp)]
    exact hon k hk hnot

/-- Settles O34: each kind of item acts by its own lemma. -/
theorem timeItems : Obligations.TimeItems := by
  refine ⟨?late, ?jump, ?adj, ?back, ?off, ?takeover, ?takeNone, ?adjLate⟩
  case late => exact fun s t r p it d h hop hjump => h.timeSet_late hop hjump
  case jump => exact fun s t r p it d h hop hjump => h.timeSet_open hop hjump
  case adj => exact fun s t r p it d h hop hen hlost htime => h.timeAdj_present hop hen hlost htime rfl Iff.rfl
  case back => exact fun s t r p it d h hop hen hlost htime => h.timeAdj_back hop hen hlost htime
  case off => exact fun s t r p it d h hop hen => h.timeAdj_off hop hen
  case takeover =>
    intro s t r p it d h hcur hseq hsome
    refine (h.takeover hcur hseq hsome).mono ?_
    rintro d' ⟨hdone, hwaits, htaken, hon, hkeeps⟩
    refine ⟨hdone, hwaits, fun k hk hb ho => ?_, hon, hkeeps⟩
    obtain ⟨hoff, hbit, hhold, hkey, hlatched⟩ := htaken k hk hb ho
    exact ⟨hoff, hbit, hhold, hkey, hlatched⟩
  case takeNone =>
    intro s t r p it d h hcur hnone
    refine h.runs (exec_takeover s t r p) ?_
    have hrings : d.takenRings p it = [] := List.eq_nil_iff_forall_not_mem.mpr fun k hk => by
      obtain ⟨hk, hb, ho⟩ := Dev.mem_takenRings.mp hk
      rw [hnone k hk hb] at ho
      exact absurd ho (by decide)
    rw [d.takeOver_none p r it hcur hrings]
    exact ⟨h.becomes rfl, keeps_finish [] d p r it.idx (by simp)⟩
  case adjLate => exact fun s t r p it d h hop hen htime => h.timeAdj_late hop hen htime

end Sys2Proof.Machine
end

section
/-! SUPPORT. Raising an event only adds to what is put out, and takes no port away (chapter 12, R303). -/

namespace Sys2Proof.Machine

/-- What was put out stays, and the same ports are lost. -/
structure Notes (d e : Dev) : Prop where
  emitted : d.emitted <:+ e.emitted
  lost : ∀ p, e.lost p = d.lost p

theorem Notes.refl (d : Dev) : Notes d d := ⟨List.suffix_refl _, fun _ => rfl⟩

theorem Notes.trans {d e f : Dev} (h : Notes d e) (k : Notes e f) : Notes d f :=
  ⟨h.emitted.trans k.emitted, fun p => (k.lost p).trans (h.lost p)⟩

theorem Notes.ite {d e f : Dev} {c : Prop} [Decidable c] (h : c → Notes d e) (k : ¬c → Notes d f) : Notes d (if c then e else f) := by
  split
  · exact h ‹_›
  · exact k ‹_›

theorem Notes.when {d : Dev} {b : Bool} {f : Dev → Dev} (h : Notes d (f d)) : Notes d (d.when b f) := by
  unfold Dev.when
  exact Notes.ite (fun _ => h) fun _ => Notes.refl d

theorem Notes.each {α : Type} (xs : List α) {f : Dev → α → Dev} (h : ∀ d x, Notes d (f d x)) (d : Dev) : Notes d (d.each xs f) := by
  unfold Dev.each
  induction xs generalizing d with
  | nil => exact Notes.refl d
  | cons x xs ih => exact (h d x).trans (ih _)

/-- What puts out nothing and does not write HIF_LOSS. -/
theorem Keeps.notes {as : List Area} {rs : List RegName} {d e : Dev} (h : Keeps as rs d e) (ha : Area.emitted ∉ as)
    (hr : RegName.HIF_LOSS ∉ rs) : Notes d e :=
  ⟨by rw [h.2.1 .emitted ha], fun p => h.flag p.id hr⟩

theorem notes_emit (d : Dev) (x : Emission) : Notes d (d.emit x) := ⟨List.suffix_cons x d.emitted, fun _ => rfl⟩

theorem notes_wr (d : Dev) {f : Field} (v i : Nat) (h : f.reg ≠ .HIF_LOSS) : Notes d (d.wr f v i) :=
  (keeps_wr [] (rs := [f.reg]) d v i (by simp)).notes (by simp) (by simpa using h.symm)

theorem notes_bump (d : Dev) {f : Field} (i n : Nat) (h : f.reg ≠ .HIF_LOSS) : Notes d (d.bump f i n) := notes_wr d _ i h

theorem notes_ev (d : Dev) (u : EventUnit) : Notes d { d with ev := u } :=
  (keeps_ev (as := [.ev]) [] d u (by simp)).notes (by simp) (by simp)

theorem notes_ldr (d : Dev) (u : LarderUnit) : Notes d { d with ldr := u } :=
  (keeps_ldr (as := [.ldr]) [] d u (by simp)).notes (by simp) (by simp)

theorem notes_modPort (d : Dev) (p : Port) (f : PortSt → PortSt) : Notes d (d.modPort p f) :=
  (keeps_modPort (as := [.ports]) [] d p f (by simp)).notes (by simp) (by simp)

theorem notes_modRec (d : Dev) (p : Port) (r : RecRing) (f : RecSt → RecSt) : Notes d (d.modRec p r f) :=
  (keeps_recs (as := [.recs]) [] d _ (by simp)).notes (by simp) (by simp)

/-- A discarded record is counted. -/
theorem notes_drop (d : Dev) (p : Port) (n : Nat) : Notes d (d.drop p n) where
  emitted := List.suffix_refl _
  lost q := by
    rw [Dev.lost, Dev.lost, Dev.drop, Dev.flag, Dev.flag, Dev.bump]
    by_cases h : q = p
    · subst h
      rw [Dev.rd_wr_field _ F.HIF_LOSS_dropped F.HIF_LOSS_lost _ _ rfl (by decide) (by decide)]
    · have hid : q.id ≠ p.id := by revert h; cases p <;> cases q <;> decide
      rw [Dev.rd_wr_inst _ F.HIF_LOSS_dropped F.HIF_LOSS_lost _ rfl (by cases p <;> decide) (by cases q <;> decide) hid]

/-! ### Records -/

theorem notes_raiseMsix (d : Dev) (p : Port) (v : Nat) : Notes d (d.raiseMsix p v) := by
  unfold Dev.raiseMsix
  exact Notes.ite (fun _ => notes_modPort d p _) fun _ => notes_emit d _

theorem notes_announce (d : Dev) (p : Port) (r : RecRing) : Notes d (d.announce p r) :=
  (notes_modRec d p r _).trans (notes_raiseMsix _ p _)

theorem recRegs_pi (p : Port) (r : RecRing) : (recRegs p r).pi.reg ≠ .HIF_LOSS := by cases r <;> exact RegName.noConfusion

theorem recRegs_phase (p : Port) (r : RecRing) : (recRegs p r).phase.reg ≠ .HIF_LOSS := by cases r <;> exact RegName.noConfusion

theorem notes_writeRecord (d : Dev) (p : Port) (r : RecRing) (bs : List Byte) (now : Bool) : Notes d (d.writeRecord p r bs now) := by
  unfold Dev.writeRecord Dev.hostWrite
  dsimp only
  refine Notes.trans ?_ (Notes.ite (fun _ => notes_announce _ p r) fun _ => notes_modRec _ p r _)
  exact ((notes_emit d _).trans (notes_wr _ _ _ (recRegs_pi p r))).trans
    (Notes.ite (fun _ => notes_wr _ _ _ (recRegs_phase p r)) fun _ => Notes.refl _)

theorem notes_flushLost (d : Dev) (p : Port) (r : RecRing) : Notes d (d.flushLost p r) := by
  unfold Dev.flushLost
  dsimp only
  refine Notes.ite (fun _ => ?_) fun _ => Notes.refl d
  refine Notes.trans ?_ (notes_bump _ _ _ (by decide))
  refine Notes.trans ?_ (notes_writeRecord _ p r _ _)
  exact (notes_modRec d p r _).trans (Notes.when (notes_emit _ _))

theorem notes_writeOrdinary (d : Dev) (p : Port) (s : Nat) (w : EvWait) : Notes d (d.writeOrdinary p s w) := by
  unfold Dev.writeOrdinary
  dsimp only
  refine Notes.ite (fun _ => Notes.refl d) fun _ => Notes.ite (fun _ => notes_drop d p _) fun _ =>
    Notes.ite (fun _ => notes_bump d _ _ (by decide)) fun _ => ?_
  refine (notes_flushLost d p (d.evRing p s)).trans (Notes.ite (fun _ => ?_) fun _ => ?_)
  · exact (notes_writeRecord _ p _ _ _).trans (notes_bump _ _ _ (by decide))
  · exact (notes_modRec _ p _ _).trans (notes_bump _ _ _ (by decide))

theorem notes_modCause (d : Dev) (s : Nat) (f : Cause → Cause) : Notes d (d.modCause s f) := notes_ev d _

theorem notes_modWaits (d : Dev) (p : Port) (f : List CauseRec → List CauseRec) : Notes d (d.modWaits p f) := notes_ev d _

theorem notes_modSrc (d : Dev) (s : Nat) (f : EvSrc → EvSrc) : Notes d (d.modSrc s f) := notes_ev d _

theorem notes_writeCause (d : Dev) (p : Port) (c : CauseRec) : Notes d (d.writeCause p c) := by
  unfold Dev.writeCause
  dsimp only
  refine Notes.ite (fun _ => Notes.refl d) fun _ => Notes.ite (fun _ => notes_drop d p _) fun _ =>
    Notes.ite (fun _ => notes_bump d _ _ (by decide)) fun _ => Notes.ite (fun _ => ?_) fun _ => notes_modWaits d p _
  exact (notes_writeRecord d p _ _ _).trans (notes_bump _ _ _ (by decide))

theorem notes_drainCauses (d : Dev) (p : Port) (cs : List CauseRec) : Notes d (d.drainCauses p cs) := by
  induction cs generalizing d with
  | nil => exact Notes.refl d
  | cons c cs ih =>
    unfold Dev.drainCauses
    refine Notes.trans ((notes_modWaits d p _).trans (Notes.ite (fun _ => ?_) fun _ => notes_modWaits _ p _)) (ih _)
    exact (notes_writeRecord _ p _ _ _).trans (notes_bump _ _ _ (by decide))

theorem notes_logFault (d : Dev) (src code id a0 a1 : Nat) : Notes d (d.logFault src code id a0 a1) := by
  unfold Dev.logFault Dev.countUp
  exact Notes.ite (fun _ => notes_ldr d _) fun _ => notes_ldr d _

/-! ### Occurrences -/

theorem notes_serveSrc (d : Dev) (s : Nat) : Notes d (d.serveSrc s) := by
  unfold Dev.serveSrc
  dsimp only
  split
  · exact Notes.refl d
  · refine Notes.ite (fun _ => Notes.refl d) fun _ => ?_
    refine Notes.trans ?_ (Notes.when (notes_logFault _ _ _ _ _ _))
    exact ((notes_modSrc d s _).trans (notes_writeOrdinary _ .a s _)).trans (notes_writeOrdinary _ .b s _)

theorem notes_serviceSrc (d : Dev) (s : Nat) : Notes d (d.serviceSrc s) := by
  unfold Dev.serviceSrc
  exact ((notes_serveSrc d s).trans (Notes.when (notes_drainCauses _ .a _))).trans (Notes.when (notes_drainCauses _ .b _))

theorem notes_writeSlot (d : Dev) (p : Port) (k : Cause) (final : Bool) : Notes d (d.writeSlot p k final) := by
  unfold Dev.writeSlot
  split
  · exact Notes.refl d
  · refine Notes.ite (fun _ => Notes.refl d) fun _ => ?_
    exact ((notes_modPort d p _).trans (notes_modCause _ _ _)).trans (notes_emit _ _)

theorem notes_newCause (d : Dev) (s code a0 a1 parent : Nat) (codes : List Nat) : Notes d (d.newCause s code a0 a1 parent codes) := by
  unfold Dev.newCause
  dsimp only
  refine Notes.trans ?_ ((notes_logFault _ _ _ _ _ _).trans (notes_ev _ _))
  exact ((((notes_ev d _).trans (notes_writeSlot _ _ _ _)).trans (notes_writeCause _ _ _)).trans
    (notes_writeSlot _ _ _ _)).trans (notes_writeCause _ _ _)

theorem notes_squallNote (d : Dev) (s c : Nat) : Notes d (d.squallNote s c) := by
  unfold Dev.squallNote
  dsimp only
  split
  · refine Notes.ite (fun _ => notes_ev d _) fun _ => Notes.ite (fun _ => notes_ev d _) fun _ => notes_ev d _
  · exact Notes.ite (fun _ => Notes.trans (notes_ev d _) (notes_newCause _ _ _ _ _ _ _)) fun _ => notes_ev d _

/-- An occurrence of an event source. -/
theorem notes_occur (d : Dev) (s code a0 a1 cnt : Nat) (time : Option Nat) : Notes d (d.occur s code a0 a1 cnt time) := by
  have hlose (d : Dev) (p : Port) (b : Bool) : Notes d (d.when b fun d => d.loseRecord p (d.evRing p s) s) := Notes.when (notes_modRec d p _ _)
  have hsquall : Notes d (d.when (foldable s code &&
      !d.ev.causes.any fun k => k.active && k.src != evSquall && d.covers k s code cnt) fun d => d.squallNote s code) :=
    Notes.when (notes_squallNote d s code)
  unfold Dev.occur
  dsimp only
  generalize Dev.when d _ _ = e at hsquall ⊢
  refine hsquall.trans (Notes.trans ?_ (notes_serviceSrc _ s))
  refine Notes.ite (fun _ => notes_modSrc _ s _) fun _ => Notes.ite (fun _ => notes_modSrc _ s _) fun _ =>
    Notes.ite (fun _ => ?_) fun _ => notes_modSrc _ s _
  exact (hlose _ .a _).trans (hlose _ .b _)

/-! ### Completions, lock pins and clock outputs -/

theorem notes_refreshDrain (d : Dev) (p : Port) (r : Nat) : Notes d (d.refreshDrain p r) := by
  unfold Dev.refreshDrain
  exact Notes.ite (fun _ => notes_wr d _ _ (by decide)) fun _ => Notes.refl d

theorem notes_modRing (d : Dev) (p : Port) (r : Nat) (f : SvRing → SvRing) : Notes d (d.modRing p r f) :=
  (keeps_modRing (as := [.svr]) [] d p r f (by simp)).notes (by simp) (by simp)

theorem notes_settle (d : Dev) (p : Port) (r ci : Nat) (stall : Bool) : Notes d (d.settle p r ci stall) := by
  have hci : Notes d (d.setCi p r ci) := ((notes_wr d _ _ (by decide)).trans (notes_modRing _ p r _)).trans (notes_modPort _ p _)
  unfold Dev.settle
  refine (hci.trans (Notes.when ?_)).trans (notes_refreshDrain _ p r)
  exact (notes_wr _ _ _ (by decide)).trans (notes_modRing _ p r _)

theorem notes_flushHeld (d : Dev) (p : Port) (c : Nat) (hs : List Held) : Notes d (d.flushHeld p c hs) := by
  induction hs generalizing d with
  | nil => exact notes_wr d _ _ (by decide)
  | cons h hs ih =>
    unfold Dev.flushHeld
    refine Notes.ite (fun _ => Notes.trans ?_ (ih _)) fun _ => Notes.refl d
    refine Notes.trans ?_ (notes_settle _ p _ _ _)
    exact (notes_modRec d p (.cpr c) fun x => { x with held := hs }).trans
      (Notes.ite (fun _ => notes_drop _ p 1) fun _ => notes_writeRecord _ p _ _ _)

theorem notes_clk (d : Dev) (u : ClkUnit) : Notes d { d with clk := u } :=
  (keeps_clk (as := [.clk]) [] d u (by simp)).notes (by simp) (by simp)

theorem notes_refreshPin (d : Dev) (p : Plane) : Notes d (d.refreshPin p) := by
  unfold Dev.refreshPin
  exact Notes.ite (fun _ => Notes.refl d) fun _ => (notes_clk d _).trans (notes_emit _ _)

theorem notes_refreshCko (d : Dev) (c : Nat) : Notes d (d.refreshCko c) := by
  unfold Dev.refreshCko
  exact Notes.ite (fun _ => Notes.refl d) fun _ => (notes_clk d _).trans (notes_emit _ _)

theorem notes_refreshPins (d : Dev) : Notes d d.refreshPins :=
  (((notes_clk d _).trans (notes_refreshPin _ .a)).trans (notes_refreshPin _ .b)).trans (Notes.each _ notes_refreshCko _)

theorem notes_refreshDiag (d : Dev) : Notes d d.refreshDiag := by
  unfold Dev.refreshDiag
  exact Notes.ite (fun _ => Notes.refl d) fun _ => (notes_clk d _).trans (notes_emit _ _)

end Sys2Proof.Machine
end

section
/-! SUPPORT. Lane synthesizers that coast (R435, R441): which fields and parts change with it. -/

namespace Sys2Proof.Machine

/-- The oscillators' monitors are the same. -/
structure MonSame (u v : ClkUnit) : Prop where
  xaMon : v.xaMon = u.xaMon
  xaFrom : v.xaFrom = u.xaFrom
  xaFailed : v.xaFailed = u.xaFailed
  xbWinAt : v.xbWinAt = u.xbWinAt
  xbOffset : v.xbOffset = u.xbOffset
  xbOut : v.xbOut = u.xbOut

theorem MonSame.refl (u : ClkUnit) : MonSame u u := ⟨rfl, rfl, rfl, rfl, rfl, rfl⟩

theorem MonSame.trans {u v w : ClkUnit} (h : MonSame u v) (k : MonSame v w) : MonSame u w :=
  ⟨k.xaMon.trans h.xaMon, k.xaFrom.trans h.xaFrom, k.xaFailed.trans h.xaFailed, k.xbWinAt.trans h.xbWinAt,
    k.xbOffset.trans h.xbOffset, k.xbOut.trans h.xbOut⟩

theorem OnlyPins.monSame {u v : ClkUnit} (h : OnlyPins u v) : MonSame u v := by
  unfold OnlyPins at h
  rw [h]
  exact ⟨rfl, rfl, rfl, rfl, rfl, rfl⟩

theorem Keeps.monSame {as : List Area} {rs : List RegName} {d e : Dev} (h : Keeps as rs d e) (ha : Area.clk ∉ as) :
    MonSame d.clk e.clk := (h.onlyPins ha).monSame

/-- The field of CLK_STATUS with the state of a lane synthesizer. -/
def lsField : Plane → Field
  | .a => F.CLK_STATUS_ls_a_state
  | .b => F.CLK_STATUS_ls_b_state

@[simp] theorem lsField_reg (p : Plane) : (lsField p).reg = .CLK_STATUS := by cases p <;> rfl

theorem lsField_fits (p : Plane) : (lsField p).lo + (lsField p).width ≤ 32 := by cases p <;> decide

theorem lsField_apart_other {p q : Plane} (h : q ≠ p) : (lsField p).Apart (lsField q) := by
  revert h
  cases p <;> cases q <;> decide

theorem Dev.lsState_eq (d : Dev) (p : Plane) : d.lsState p = d.rd (lsField p) := by cases p <;> rfl

/-- The fields of CLK_STATUS that a lane synthesizer's new state may change beside the state. -/
def coastFields : List Field := [F.CLK_STATUS_ctl_on_fio, F.CLK_STATUS_syn_coast]

/-- What a lane synthesizer that coasts may change: the states, the clocks of DOM_CTL and the synthesizers, pins and events. -/
structure Coasts (d e : Dev) : Prop where
  keeps : Keeps (.clk :: evAreas) (.CLK_STATUS :: .CLK_ERR :: evRegs) d e
  status : FieldsOnly .CLK_STATUS 0 (F.CLK_STATUS_ls_a_state :: F.CLK_STATUS_ls_b_state :: coastFields) d e
  err : FieldsOnly .CLK_ERR 0 [F.CLK_ERR_ls_coast] d e
  mon : MonSame d.clk e.clk

theorem Coasts.refl (d : Dev) : Coasts d d := ⟨Keeps.refl _ _ d, FieldsOnly.refl _ _ _ d, FieldsOnly.refl _ _ _ d, MonSame.refl _⟩

theorem Coasts.trans {d e f : Dev} (h : Coasts d e) (k : Coasts e f) : Coasts d f :=
  ⟨h.keeps.trans k.keeps, h.status.trans k.status, h.err.trans k.err, h.mon.trans k.mon⟩

theorem Coasts.when {d : Dev} {b : Bool} {f : Dev → Dev} (h : Coasts d (f d)) : Coasts d (d.when b f) := by
  unfold Dev.when
  split
  · exact h
  · exact Coasts.refl d

/-- What raises events only. -/
theorem EvOnly.coasts {d e : Dev} (h : EvOnly d e) : Coasts d e where
  keeps := h.mono (by decide) (by decide)
  status := h.fields 0 _ (by decide)
  err := h.fields 0 _ (by decide)
  mon := h.monSame (by decide)

/-- A part of the clock unit beside the monitors. -/
theorem coasts_clk (d : Dev) {u : ClkUnit} (h : MonSame d.clk u) : Coasts d { d with clk := u } where
  keeps := keeps_clk _ d u (by simp)
  status := (keeps_clk (as := [.clk]) [] d u (by simp)).fields 0 _ (by simp)
  err := (keeps_clk (as := [.clk]) [] d u (by simp)).fields 0 _ (by simp)
  mon := h

theorem coasts_raiseCoast (d : Dev) : Coasts d (d.raise F.CLK_ERR_ls_coast) where
  keeps := keeps_raise _ d 0 (by decide)
  status := (keeps_raise [] (rs := [.CLK_ERR]) d 0 (by decide)).fields 0 _ (by decide)
  err := fieldsOnly_raise d F.CLK_ERR_ls_coast 0 (by decide)
  mon := (keeps_raise [] (rs := [.CLK_ERR]) d 0 (by decide)).monSame (by simp)

/-! ### The synthesizers follow (R441) -/

theorem fieldsOnly_refreshCoast (d : Dev) : FieldsOnly .CLK_STATUS 0 [F.CLK_STATUS_syn_coast] d d.refreshCoast := by
  unfold Dev.refreshCoast
  refine FieldsOnly.each _ (fun d m => ?_) d
  have hset (b : Bool) : FieldsOnly .CLK_STATUS 0 [F.CLK_STATUS_syn_coast] d (d.setBit F.CLK_STATUS_syn_coast m b) :=
    fieldsOnly_setBit d F.CLK_STATUS_syn_coast m b 0 (by decide)
  refine FieldsOnly.ite (fun _ => FieldsOnly.refl _ _ _ _) fun _ => FieldsOnly.ite (fun _ => ?_) fun _ => hset false
  exact FieldsOnly.ite (fun _ => FieldsOnly.refl _ _ _ _) fun _ => (hset true).trans ((evOnly_occur _ _ _ _ _ _ _).fields 0 _ (by decide))

/-- The clock of DOM_CTL, and the reference of OM, SYN4 and SYN5, follow the lane synthesizers' states (Table 13-1, R434). -/
def Dev.followLs (d : Dev) : Dev :=
  let d := d.when (d.lsState .a == 1 && !d.flag F.CLK_STATUS_safe) fun d => d.put F.CLK_STATUS_ctl_on_fio false
  let d := d.when (d.lsState .a == 3) fun d => d.put F.CLK_STATUS_ctl_on_fio true
  { d with clk := { d.clk with omRef := if d.lsState .a == 3 then .b else .a } }.refreshCoast.refreshPins

theorem Dev.setLs_eq (d : Dev) (p : Plane) (v : Nat) : d.setLs p v = (d.wr (lsField p) v).followLs := by cases p <;> rfl

theorem keeps_ctlOnFio (d : Dev) (b c : Bool) :
    Keeps [] [.CLK_STATUS] d (d.when c fun d => d.put F.CLK_STATUS_ctl_on_fio b) := Keeps.when fun _ => keeps_put _ d b 0 (by decide)

theorem fieldsOnly_ctlOnFio (d : Dev) (b c : Bool) :
    FieldsOnly .CLK_STATUS 0 coastFields d (d.when c fun d => d.put F.CLK_STATUS_ctl_on_fio b) :=
  FieldsOnly.when fun _ => (fieldsOnly_put d F.CLK_STATUS_ctl_on_fio b 0 (by decide)).mono (by simp [coastFields])

/-- What follows a lane synthesizer's state. -/
theorem Dev.followLs_shows (d : Dev) : Keeps (.clk :: evAreas) (.CLK_STATUS :: evRegs) d d.followLs
    ∧ FieldsOnly .CLK_STATUS 0 coastFields d d.followLs ∧ MonSame d.clk d.followLs.clk := by
  unfold Dev.followLs
  have hback := keeps_ctlOnFio d false (d.lsState .a == 1 && !d.flag F.CLK_STATUS_safe)
  have hbackF := fieldsOnly_ctlOnFio d false (d.lsState .a == 1 && !d.flag F.CLK_STATUS_safe)
  dsimp only
  generalize (d.when (d.lsState .a == 1 && !d.flag F.CLK_STATUS_safe) fun d => d.put F.CLK_STATUS_ctl_on_fio false) = e at *
  have hfio := keeps_ctlOnFio e true (e.lsState .a == 3)
  have hfioF := fieldsOnly_ctlOnFio e true (e.lsState .a == 3)
  generalize (e.when (e.lsState .a == 3) fun d => d.put F.CLK_STATUS_ctl_on_fio true) = f at *
  have href : Keeps [.clk] [] f { f with clk := { f.clk with omRef := if f.lsState .a == 3 then .b else .a } } :=
    keeps_clk [] f _ (by simp)
  have hmon : MonSame f.clk ({ f with clk := { f.clk with omRef := if f.lsState .a == 3 then .b else .a } } : Dev).clk :=
    ⟨rfl, rfl, rfl, rfl, rfl, rfl⟩
  generalize ({ f with clk := { f.clk with omRef := if f.lsState .a == 3 then .b else .a } } : Dev) = g at href hmon ⊢
  have hcoast := keeps_refreshCoast g
  have hcoastF := fieldsOnly_refreshCoast g
  generalize g.refreshCoast = h at hcoast hcoastF ⊢
  have hpins : Keeps [.clk, .emitted] [] h h.refreshPins := keeps_refreshPins [] h (by simp) (by simp)
  refine ⟨?_, ?_, ?_⟩
  · refine Keeps.trans (Keeps.trans ?_ (hcoast.mono (by simp) (List.Subset.refl _))) (hpins.mono (by decide) (by simp))
    exact ((hback.trans hfio).mono (by simp) (by simp)).trans (href.mono (by simp) (by simp))
  · refine ((hbackF.trans hfioF).trans (href.fields 0 _ (by simp))).trans (FieldsOnly.trans ?_ (hpins.fields 0 _ (by simp)))
    exact hcoastF.mono (by simp [coastFields])
  · refine ((hback.monSame (by simp)).trans (hfio.monSame (by simp))).trans (hmon.trans ?_)
    exact (hcoast.monSame (by decide)).trans (onlyPins_refreshPins h).monSame

/-! ### A lane synthesizer's state, and its coasting (R435) -/

theorem coasts_setLs (d : Dev) (p : Plane) (v : Nat) : Coasts d (d.setLs p v) := by
  rw [Dev.setLs_eq]
  obtain ⟨hkeeps, hstatus, hmon⟩ := (d.wr (lsField p) v).followLs_shows
  have hwr : Keeps [] [.CLK_STATUS] d (d.wr (lsField p) v) := keeps_wr [] d v 0 (by simp)
  have hwrF := fieldsOnly_wr d (lsField p) v 0 (lsField_fits p)
  rw [lsField_reg] at hwrF
  generalize d.wr (lsField p) v = e at *
  exact {
    keeps := (hwr.mono (by simp) (by simp)).trans (hkeeps.mono (List.Subset.refl _) (by simp))
    status := (hwrF.mono (by cases p <;> simp [lsField])).trans (hstatus.mono (by simp))
    err := (hwr.fields 0 _ (by simp)).trans (hkeeps.fields 0 _ (by decide))
    mon := (hwr.monSame (by simp)).trans hmon }

theorem Dev.lsState_setLs (d : Dev) (p q : Plane) {v : Nat} (h : v < 4) :
    (d.setLs p v).lsState q = if q = p then v else d.lsState q := by
  have hstatus := (d.wr (lsField p) v).followLs_shows.2.1
  rw [Dev.setLs_eq, Dev.lsState_eq, hstatus _ (lsField_reg q) (by cases q <;> decide)]
  split
  · next hq => rw [hq, Dev.rd_wr_fits d _ _ 0 (lsField_fits p) (by cases p <;> exact h)]
  · next hq => rw [Dev.rd_wr_field d (lsField p) (lsField q) v 0 (by simp) (lsField_fits p) (lsField_apart_other hq), Dev.lsState_eq]

theorem Coasts.lsOnXb {d e : Dev} (h : Coasts d e) (p : Plane) : e.lsOnXb p = d.lsOnXb p := by
  cases p
  · exact h.status.flag F.CLK_STATUS_ls_a_src rfl (by decide)
  · exact h.status.flag F.CLK_STATUS_ls_b_src rfl (by decide)

/-- The synthesizer coasts from now, and its coasting is noted. -/
def Dev.markCoast (d : Dev) (p : Plane) : Dev :=
  let d := { d with clk := { d.clk with lsCoastAt := d.clk.lsCoastAt.modPl p fun _ => d.now } }
  (d.raise F.CLK_ERR_ls_coast).occur (evLs p) 0x6A

theorem Dev.coastLs_of_locked {d : Dev} {p : Plane} (h : d.lsState p = 1) : d.coastLs p = (d.markCoast p).setLs p 2 := by
  unfold Dev.coastLs Dev.markCoast
  rw [h, if_pos (by decide)]

theorem Dev.coastLs_of_not {d : Dev} {p : Plane} (h : d.lsState p ≠ 1) : d.coastLs p = d := by
  unfold Dev.coastLs
  rw [if_neg (by simpa using h)]

theorem coasts_markCoast (d : Dev) (p : Plane) : Coasts d (d.markCoast p) := by
  unfold Dev.markCoast
  refine Coasts.trans (Coasts.trans ?_ (coasts_raiseCoast _)) (evOnly_occur _ _ _ _ _ _ _).coasts
  exact coasts_clk d ⟨rfl, rfl, rfl, rfl, rfl, rfl⟩

theorem Dev.lsState_markCoast (d : Dev) (p q : Plane) : (d.markCoast p).lsState q = d.lsState q := by
  have hkeeps : Keeps (.clk :: evAreas) (.CLK_ERR :: evRegs) d (d.markCoast p) := by
    unfold Dev.markCoast
    refine Keeps.trans ?_ ((evOnly_occur _ _ _ _ _ _ _).mono (by simp) (by simp))
    refine Keeps.trans ?_ (keeps_raise _ (f := F.CLK_ERR_ls_coast) _ 0 (by decide))
    exact keeps_clk _ d _ (by simp)
  rw [Dev.lsState_eq, Dev.lsState_eq, hkeeps.rd 0 (by rw [lsField_reg]; decide)]

/-- Only a locked synthesizer coasts. -/
theorem Dev.coastLs_shows (d : Dev) (p : Plane) : Coasts d (d.coastLs p)
    ∧ ∀ q, (d.coastLs p).lsState q = if q = p ∧ d.lsState p = 1 then 2 else d.lsState q := by
  by_cases h : d.lsState p = 1
  · rw [Dev.coastLs_of_locked h]
    refine ⟨(coasts_markCoast d p).trans (coasts_setLs _ p 2), fun q => ?_⟩
    rw [Dev.lsState_setLs _ p q (by decide), Dev.lsState_markCoast]
    simp [h]
  · rw [Dev.coastLs_of_not h]
    exact ⟨Coasts.refl d, fun q => by simp [h]⟩

/-- The locked ones of the synthesizers that `sel` picks coast. -/
theorem Dev.coastWhere_shows {sel : Dev → Plane → Bool} (hsel : ∀ {d e : Dev} (p : Plane), Coasts d e → sel e p = sel d p) (d : Dev) :
    Coasts d (d.each [Plane.a, Plane.b] fun d p => d.when (sel d p) fun d => d.coastLs p)
    ∧ ∀ q, (d.each [Plane.a, Plane.b] fun d p => d.when (sel d p) fun d => d.coastLs p).lsState q =
        if sel d q = true ∧ d.lsState q = 1 then 2 else d.lsState q := by
  have hone (d : Dev) (p : Plane) : Coasts d (d.when (sel d p) fun d => d.coastLs p)
      ∧ ∀ q, (d.when (sel d p) fun d => d.coastLs p).lsState q =
          if q = p ∧ sel d q = true ∧ d.lsState q = 1 then 2 else d.lsState q := by
    obtain ⟨hcoasts, hstate⟩ := d.coastLs_shows p
    refine ⟨Coasts.when hcoasts, fun q => ?_⟩
    by_cases hq : q = p
    · subst hq
      cases hs : sel d q <;> simp [Dev.when, hstate]
    · cases hs : sel d p <;> simp [Dev.when, hstate, hq]
  obtain ⟨hca, hsa⟩ := hone d .a
  obtain ⟨hcb, hsb⟩ := hone (d.when (sel d .a) fun d => d.coastLs .a) .b
  refine ⟨hca.trans hcb, fun q => (hsb q).trans ?_⟩
  rw [hsel q hca, hsa]
  cases q <;> simp

end Sys2Proof.Machine
end

section
/-! SUPPORT. The loss of a port (R303, R304, R547): what it keeps, which ports are lost after it, and whose link is down. -/

namespace Sys2Proof.Machine

/-- The ports' links are up and down as before. -/
def LinkSame (d e : Dev) : Prop := ∀ p : Port, e.flag F.HIF_PORT_STATUS_link_up p.id = d.flag F.HIF_PORT_STATUS_link_up p.id

theorem Keeps.linkSame {as : List Area} {rs : List RegName} {d e : Dev} (h : Keeps as rs d e) (hr : RegName.HIF_PORT_STATUS ∉ rs) :
    LinkSame d e := fun p => h.flag p.id hr

/-- The parts that the loss of a port changes. -/
def lossAreas : List Area := .svr :: .order :: .cmx :: evAreas

/-- Work at a port that is lost: what it keeps; no port is lost or found, and no link goes up or down. -/
structure LossWork (d e : Dev) : Prop where
  keeps : Keeps lossAreas lossRegs d e
  notes : Notes d e
  link : LinkSame d e

theorem LossWork.refl (d : Dev) : LossWork d d := ⟨Keeps.refl _ _ d, Notes.refl d, fun _ => rfl⟩

theorem LossWork.trans {d e f : Dev} (h : LossWork d e) (k : LossWork e f) : LossWork d f :=
  ⟨h.keeps.trans k.keeps, h.notes.trans k.notes, fun p => (k.link p).trans (h.link p)⟩

theorem LossWork.each {α : Type} (xs : List α) {f : Dev → α → Dev} (h : ∀ d x, LossWork d (f d x)) (d : Dev) :
    LossWork d (d.each xs f) := by
  unfold Dev.each
  induction xs generalizing d with
  | nil => exact LossWork.refl d
  | cons x xs ih => exact (h d x).trans (ih _)

/-- What puts out nothing and writes no register of a port's state. -/
theorem Keeps.lossWork {as : List Area} {rs : List RegName} {d e : Dev} (h : Keeps as rs d e) (ha : as ⊆ lossAreas)
    (hr : rs ⊆ lossRegs) (he : Area.emitted ∉ as) (hl : RegName.HIF_LOSS ∉ rs) (hp : RegName.HIF_PORT_STATUS ∉ rs) : LossWork d e :=
  ⟨h.mono ha hr, h.notes he hl, h.linkSame hp⟩

/-- A field written at one port leaves the fields of that register beside it at every port. -/
theorem Dev.flag_wr_port (d : Dev) (f g : Field) (v : Nat) (p q : Port) (hr : g.reg = f.reg) (hf : f.lo + f.width ≤ 32)
    (hd : f.Apart g) : (d.wr f v p.id).flag g q.id = d.flag g q.id := by
  rw [Dev.flag, Dev.flag]
  by_cases h : q = p
  · rw [h, Dev.rd_wr_field d f g v p.id hr hf hd]
  · have hid : q.id ≠ p.id := by revert h; cases p <;> cases q <;> decide
    rw [Dev.rd_wr_inst d f g v hr (by cases p <;> decide) (by cases q <;> decide) hid]

/-- A flag put at one port stays at the other. -/
theorem Dev.flag_put_port (d : Dev) (f : Field) (b : Bool) (p q : Port) (hf : f.lo + f.width ≤ 32) (hw : f.width = 1) :
    (d.put f b p.id).flag f q.id = if q = p then b else d.flag f q.id := by
  split
  · next h => rw [h, Dev.flag_put_self d f b p.id hf hw]
  · next h =>
    have hid : q.id ≠ p.id := by revert h; cases p <;> cases q <;> decide
    rw [Dev.flag, Dev.put, Dev.rd_wr_inst d f f _ rfl (by cases p <;> decide) (by cases q <;> decide) hid, Dev.flag]

theorem lossWork_refreshActive (d : Dev) (p : Port) : LossWork d (d.refreshActive p) where
  keeps := keeps_put _ d _ p.id (by decide)
  notes := notes_wr d _ p.id (by decide)
  link q := d.flag_wr_port F.HIF_PORT_STATUS_active F.HIF_PORT_STATUS_link_up _ p q rfl (by decide) (by decide)

theorem lossWork_countLoss (d : Dev) (p : Port) : LossWork d (d.bump F.HIF_LOSS_losses p.id) where
  keeps := keeps_bump _ d _ _ (by decide)
  notes := ⟨List.suffix_refl _, fun q => d.flag_wr_port F.HIF_LOSS_losses F.HIF_LOSS_lost _ p q rfl (by decide) (by decide)⟩
  link := (keeps_bump [] (rs := [.HIF_LOSS]) d p.id 1 (by decide)).linkSame (by decide)

theorem lossWork_modPort (d : Dev) (p : Port) (f : PortSt → PortSt) : LossWork d (d.modPort p f) :=
  (keeps_modPort (as := [.ports]) [] d p f (by simp)).lossWork (by decide) (by simp) (by simp) (by simp) (by simp)

theorem RingWork.lossWork {p : Port} {r : Nat} {d e : Dev} (h : RingWork [.svr] poolRegs p r d e) : LossWork d e :=
  h.keeps.lossWork (by decide) (by decide) (by simp) (by decide) (by decide)

theorem lossWork_masterReset (d : Dev) (m : Nat) : LossWork d (d.masterReset m) :=
  (keeps_masterReset d m).lossWork (by decide) (by decide) (by simp) (by simp) (by simp)

theorem lossWork_flushHeld (d : Dev) (p : Port) (c : Nat) (hs : List Held) : LossWork d (d.flushHeld p c hs) where
  keeps := (posts_flushHeld d p c hs).keeps.mono (by decide) (by decide)
  notes := notes_flushHeld d p c hs
  link := (posts_flushHeld d p c hs).keeps.linkSame (by decide)

theorem lossWork_occur (d : Dev) (s code a0 a1 cnt : Nat) (time : Option Nat) : LossWork d (d.occur s code a0 a1 cnt time) where
  keeps := (evOnly_occur _ _ _ _ _ _ _).mono (by decide) (by decide)
  notes := notes_occur d s code a0 a1 cnt time
  link := (evOnly_occur _ _ _ _ _ _ _).linkSame (by decide)

theorem lossWork_drop (d : Dev) (p : Port) (n : Nat) : LossWork d (d.drop p n) where
  keeps := (evOnly_drop d p n).mono (by decide) (by decide)
  notes := notes_drop d p n
  link := (evOnly_drop d p n).linkSame (by decide)

theorem lossWork_discardHeld (d : Dev) (p : Port) : LossWork d (d.discardHeld p) := by
  have hasr (d : Dev) : LossWork d (d.put F.HIF_ASR_STATUS_full false p.id) :=
    (keeps_put [] (rs := [.HIF_ASR_STATUS]) d false p.id (by decide)).lossWork (by simp) (by decide) (by simp) (by simp) (by simp)
  have hrec (d : Dev) : LossWork d (d.modRec p .asr fun x => { x with heldAsr := [] }) :=
    (keeps_recs (as := [.recs]) [] d _ (by simp)).lossWork (by decide) (by simp) (by simp) (by simp) (by simp)
  have hwaits (d : Dev) : LossWork d (d.modWaits p fun _ => []) :=
    (keeps_ev (as := [.ev]) [] d _ (by simp)).lossWork (by decide) (by simp) (by simp) (by simp) (by simp)
  unfold Dev.discardHeld
  dsimp only
  generalize (d.rr p .asr).heldAsr.length = n
  refine LossWork.trans ?_ (lossWork_drop _ p _)
  refine LossWork.trans ?_ (hwaits _)
  refine LossWork.trans ?_ (hasr _)
  refine LossWork.trans ?_ (hrec _)
  exact LossWork.each _ (fun d c => lossWork_flushHeld d p c _) d

theorem lossWork_deliverAll (d : Dev) : LossWork d d.deliverAll :=
  (delivers_deliverAll d).keeps.lossWork (by decide) (by simp) (by simp) (by simp) (by simp)

/-- What happens at a port once it shows as lost (R304). -/
def Dev.clearPort (d : Dev) (p : Port) : Dev :=
  let d := (d.bump F.HIF_LOSS_losses p.id).refreshActive p
  let d := d.modPort p fun x => { x with reading := false, sweepDue := false, cctReads := [], probing := false }
  let d := d.each (List.range 16) fun d r => (d.withdrawUnlatched p r).abandon p r
  let d := d.each [4 + p.id, 6 + p.id, 8 + p.id] fun d m => d.masterReset m
  ((d.discardHeld p).occur (evPort p) 0x60).deliverAll

theorem Dev.loseNow_eq (d : Dev) (p : Port) :
    d.loseNow p = if d.lost p then d else (d.put F.HIF_LOSS_lost true p.id).clearPort p := rfl

theorem lossWork_clearPort (d : Dev) (p : Port) : LossWork d (d.clearPort p) := by
  unfold Dev.clearPort
  refine LossWork.trans ?_ (lossWork_deliverAll _)
  refine LossWork.trans ?_ (lossWork_occur _ _ _ _ _ _ _)
  refine LossWork.trans ?_ (lossWork_discardHeld _ p)
  refine LossWork.trans ?_ (LossWork.each _ lossWork_masterReset _)
  refine LossWork.trans ?_ (LossWork.each _ (fun d r =>
    ((ringWork_withdrawUnlatched d p r).trans (ringWork_abandon poolRegs _ p r)).lossWork) _)
  exact ((lossWork_countLoss d p).trans (lossWork_refreshActive _ p)).trans (lossWork_modPort _ p _)

/-- Port `p` is lost with its link down, and what is lost and down at the other port stays. -/
structure LosesPort (p : Port) (d e : Dev) : Prop where
  keeps : Keeps lossAreas lossRegs d e
  emitted : d.emitted <:+ e.emitted
  lost : ∀ q, e.lost q = if q = p then true else d.lost q
  link : ∀ q : Port, e.flag F.HIF_PORT_STATUS_link_up q.id = if q = p then false else d.flag F.HIF_PORT_STATUS_link_up q.id

theorem Dev.losePort_shows (d : Dev) (p : Port) : LosesPort p d (d.losePort p) := by
  have hlink : Keeps [.ports] [.HIF_PORT_STATUS] d (d.setLink p false) :=
    (keeps_modPort _ d p _ (by simp)).trans (keeps_put _ _ _ _ (by decide))
  have hlinks (q : Port) := (d.modPort p fun x => { x with linkUp := false }).flag_put_port F.HIF_PORT_STATUS_link_up false p q
    (by decide) rfl
  have hdown (q : Port) : ((d.setLink p false).resetConfig p).flag F.HIF_PORT_STATUS_link_up q.id =
      if q = p then false else d.flag F.HIF_PORT_STATUS_link_up q.id := hlinks q
  have hconfig : Keeps [.ports] [.HIF_PORT_STATUS] d ((d.setLink p false).resetConfig p) :=
    hlink.trans (keeps_modPort _ _ p _ (by simp))
  have hconfigN := hconfig.notes (by simp) (by simp)
  unfold Dev.losePort
  generalize (d.setLink p false).resetConfig p = e at *
  have hlost (q : Port) : (e.put F.HIF_LOSS_lost true p.id).lost q = if q = p then true else e.lost q :=
    e.flag_put_port F.HIF_LOSS_lost true p q (by decide) rfl
  have hput : Keeps [] [.HIF_LOSS] e (e.put F.HIF_LOSS_lost true p.id) := keeps_put _ e _ _ (by decide)
  rw [Dev.loseNow_eq]
  split
  · next h =>
    refine ⟨hconfig.mono (by decide) (by decide), hconfigN.emitted, fun q => ?_, hdown⟩
    split
    · next hq => rw [hq, h]
    · exact hconfigN.lost q
  · have hclear := lossWork_clearPort (e.put F.HIF_LOSS_lost true p.id) p
    generalize e.put F.HIF_LOSS_lost true p.id = f at *
    refine ⟨?_, ?_, fun q => ?_, fun q => ?_⟩
    · exact ((hconfig.mono (by decide) (by decide)).trans (hput.mono (by decide) (by decide))).trans hclear.keeps
    · have hsame : f.emitted = e.emitted := hput.2.1 .emitted (by simp)
      exact hconfigN.emitted.trans (hsame ▸ hclear.notes.emitted)
    · rw [hclear.notes.lost, hlost, hconfigN.lost]
    · rw [hclear.link, hput.flag q.id (by decide), hdown]

end Sys2Proof.Machine
end

section
/-! SUPPORT. The clock safe state is entered (R446, R447). -/

namespace Sys2Proof.Machine

/-! ### What the safe state leaves undriven -/

theorem Dev.ckoDrive_of_safe {d : Dev} (h : d.flag F.CLK_STATUS_safe = true) (c : Nat) : d.ckoDrive c = none := by
  unfold Dev.ckoDrive
  exact if_pos (.inr h)

theorem Dev.diagDrive_of_safe {d : Dev} (h : d.flag F.CLK_STATUS_safe = true) : d.diagDrive = none := by
  unfold Dev.diagDrive
  exact if_pos (by rw [h, Bool.or_true])

/-- Each listed clock output follows its source. -/
theorem Dev.cko_each_refreshCko (cs : List Nat) (d : Dev) (c : Nat) : Tbl.get none (d.each cs fun d c => d.refreshCko c).clk.cko c =
    if c ∈ cs then d.ckoDrive c else Tbl.get none d.clk.cko c := by
  induction cs generalizing d with
  | nil => rfl
  | cons x cs ih =>
    refine (ih (d.refreshCko x)).trans ?_
    rw [(ckoOnly_refreshCko d x).drive, Dev.cko_refreshCko]
    by_cases hx : c = x <;> simp [hx]

/-- In the safe state the clock outputs are undriven, and the lock pins released. -/
theorem Dev.refreshPins_of_safe {d : Dev} (h : d.flag F.CLK_STATUS_safe = true) :
    (∀ c, c < 8 → Tbl.get none d.refreshPins.clk.cko c = none) ∧ ∀ p : Plane, d.refreshPins.clk.pins.pl p = none := by
  refine ⟨fun c hc => ?_, fun p => by rw [Dev.refreshPins_pins, h]; simp⟩
  have hpins (e : Dev) : Keeps [.clk, .emitted] [] e ((e.refreshPin .a).refreshPin .b) :=
    (keeps_refreshPin [] e .a (by simp) (by simp)).trans (keeps_refreshPin [] _ .b (by simp) (by simp))
  unfold Dev.refreshPins
  rw [Dev.cko_each_refreshCko, if_pos (by simpa using hc)]
  refine Dev.ckoDrive_of_safe ?_ c
  rw [(hpins _).flag 0 (by simp)]
  exact h

theorem Dev.refreshDiag_clk (d : Dev) : d.refreshDiag.clk = { d.clk with diag := d.diagDrive } := by
  unfold Dev.refreshDiag
  split
  · next h => rw [h]
  · rfl

theorem Dev.refreshDiag_clk_of_safe {d : Dev} (h : d.flag F.CLK_STATUS_safe = true) :
    d.refreshDiag.clk = { d.clk with diag := none } := by rw [Dev.refreshDiag_clk, Dev.diagDrive_of_safe h]

theorem keeps_refreshDiag (d : Dev) : Keeps [.clk, .emitted] [] d d.refreshDiag := by
  unfold Dev.refreshDiag
  exact Keeps.ite (fun _ => Keeps.refl _ _ d) fun _ => (keeps_clk _ d _ (by simp)).trans (keeps_emit _ _ _ (by simp))

/-- The lanes turn high-impedance, the lock pins are released, and clock outputs and DIAGCLK follow (R447). -/
def Dev.releaseClocks (d : Dev) : Dev := (d.releaseLanes.emit (.lockPins true)).refreshPins.refreshDiag

/-- The clock unit after it, beside pins and clock outputs. -/
structure ReleasesClocks (d e : Dev) : Prop where
  keeps : Keeps [.clk, .emitted] [] d e
  lanes : ∀ n, n < 384 → d.lnState n ≠ 0 → Emission.lane n .hiZ ∈ e.emitted
  lockPins : Emission.lockPins true ∈ e.emitted
  cko : ∀ c, c < 8 → Tbl.get none e.clk.cko c = none
  pins : ∀ p : Plane, e.clk.pins.pl p = none
  clk : e.clk = { d.clk with lockE := e.clk.lockE, pins := e.clk.pins, cko := e.clk.cko, diag := none }

/-- After lanes and lock pins, clock outputs and DIAGCLK follow the safe state. -/
theorem ReleasesClocks.of_steps {d f g e : Dev} (hout : Keeps [.emitted] [] d f) (hpins : Keeps [.clk, .emitted] [] f g)
    (hdiag : Keeps [.clk, .emitted] [] g e) (hsub : f.emitted ⊆ e.emitted)
    (hlanes : ∀ n, n < 384 → d.lnState n ≠ 0 → Emission.lane n .hiZ ∈ f.emitted) (hlock : Emission.lockPins true ∈ f.emitted)
    (hundriven : (∀ c, c < 8 → Tbl.get none g.clk.cko c = none) ∧ ∀ p : Plane, g.clk.pins.pl p = none)
    (honly : OnlyPins f.clk g.clk) (hclk : e.clk = { g.clk with diag := none }) : ReleasesClocks d e where
  keeps := ((hout.mono (by simp) (by simp)).trans hpins).trans hdiag
  lanes n hn hs := hsub (hlanes n hn hs)
  lockPins := hsub hlock
  cko := by rw [hclk]; exact hundriven.1
  pins := by rw [hclk]; exact hundriven.2
  clk := by
    unfold OnlyPins at honly
    rw [hclk, honly, hout.2.1 .clk (by simp)]

theorem Dev.releaseClocks_shows {d : Dev} (h : d.flag F.CLK_STATUS_safe = true) : ReleasesClocks d d.releaseClocks := by
  have hlanes := keeps_releaseLanes d
  have hemit := keeps_emit (as := [.emitted]) [] d.releaseLanes (.lockPins true) (by simp)
  have hout := hlanes.trans hemit
  have hsafe := (hout.flag (f := F.CLK_STATUS_safe) 0 (by simp)).trans h
  have hpins := keeps_refreshPins (as := [.clk, .emitted]) [] (d.releaseLanes.emit (.lockPins true)) (by simp) (by simp)
  exact .of_steps hout hpins (keeps_refreshDiag _) ((notes_refreshPins _).trans (notes_refreshDiag _)).emitted.subset
    (fun n hn hs => (notes_emit _ _).emitted.subset (d.hiZ_mem_releaseLanes hn hs)) List.mem_cons_self
    (Dev.refreshPins_of_safe hsafe) (onlyPins_refreshPins _) (Dev.refreshDiag_clk_of_safe ((hpins.flag 0 (by simp)).trans hsafe))

end Sys2Proof.Machine
end

section
/-! SUPPORT. What entering the clock safe state shows, and what the loss of the ports leaves of it (R446, R447). -/

namespace Sys2Proof.Machine

/-- The trigger stands, and is counted. -/
def Dev.countTrigger (d : Dev) (code : Nat) : Dev :=
  { d with clk := { d.clk with triggers := setInsert code d.clk.triggers } }.bump F.CLK_SAFE_count

/-- The safe state shows in the registers. -/
def Dev.showSafe (d : Dev) (code : Nat) : Dev :=
  (((d.put F.CLK_STATUS_safe true).wr F.CLK_SAFE_trigger code).raise F.CLK_ERR_safe_entered).put F.CLK_STATUS_ctl_on_fio true

/-- The safe state runs from now, with the inputs qualified that are so. -/
def Dev.beginSafe (d : Dev) : Dev :=
  let d := d.countUp 2
  { d with clk := { d.clk with refAtSafe := (List.range 4).filter d.qualified, safeAt := d.now } }

/-- Ports in separate-reference-clock operation are lost (R447). -/
def Dev.loseRefPorts (d : Dev) : Dev := d.when (d.flag F.GLB_START_laneref) fun d => (d.losePort .a).losePort .b

theorem Dev.safeEnter_eq {d : Dev} (code : Nat) (h : d.flag F.CLK_STATUS_safe = false) : d.safeEnter code =
    ((((d.countTrigger code).showSafe code).beginSafe.releaseClocks).occur evSafe 0x6D code).loseRefPorts := by
  simp only [Dev.safeEnter, h, Bool.false_eq_true, if_false, Dev.countTrigger, Dev.showSafe, Dev.beginSafe, Dev.releaseClocks,
    Dev.releaseLanes, Dev.loseRefPorts]

theorem Dev.safeEnter_of_safe {d : Dev} (code : Nat) (h : d.flag F.CLK_STATUS_safe = true) : d.safeEnter code = d.countTrigger code := by
  unfold Dev.safeEnter
  rw [h]
  rfl

/-- The fields that show the safe state, and what the registers hold beside them. -/
structure ShowsSafe (d e : Dev) (code : Nat) : Prop where
  keeps : Keeps [] [.CLK_STATUS, .CLK_SAFE, .CLK_ERR] d e
  status : FieldsOnly .CLK_STATUS 0 [F.CLK_STATUS_safe, F.CLK_STATUS_ctl_on_fio] d e
  err : FieldsOnly .CLK_ERR 0 [F.CLK_ERR_safe_entered] d e
  count : e.rd F.CLK_SAFE_count = d.rd F.CLK_SAFE_count
  safe : e.flag F.CLK_STATUS_safe = true
  fio : e.flag F.CLK_STATUS_ctl_on_fio = true
  entered : e.flag F.CLK_ERR_safe_entered = true
  trigger : e.rd F.CLK_SAFE_trigger = code

theorem Dev.showSafe_shows (d : Dev) {code : Nat} (hc : code < 16) : ShowsSafe d (d.showSafe code) code := by
  unfold Dev.showSafe
  have k1 : Keeps [] [.CLK_STATUS] d (d.put F.CLK_STATUS_safe true) := keeps_put _ d _ _ (by decide)
  have f1 := fieldsOnly_put d F.CLK_STATUS_safe true 0 (by decide)
  have v1 := d.flag_put_self F.CLK_STATUS_safe true 0 (by decide) rfl
  generalize d.put F.CLK_STATUS_safe true = e1 at *
  have k2 : Keeps [] [.CLK_SAFE] e1 (e1.wr F.CLK_SAFE_trigger code) := keeps_wr _ e1 _ _ (by decide)
  have f2 := fieldsOnly_wr e1 F.CLK_SAFE_trigger code 0 (by decide)
  have v2 := e1.rd_wr_fits F.CLK_SAFE_trigger code 0 (by decide) hc
  generalize e1.wr F.CLK_SAFE_trigger code = e2 at *
  have k3 : Keeps [] [.CLK_ERR] e2 (e2.raise F.CLK_ERR_safe_entered) := keeps_raise _ e2 _ (by decide)
  have f3 := fieldsOnly_raise e2 F.CLK_ERR_safe_entered 0 (by decide)
  have v3 := e2.flag_raise_self F.CLK_ERR_safe_entered 0 (by decide) rfl
  generalize e2.raise F.CLK_ERR_safe_entered = e3 at *
  have k4 : Keeps [] [.CLK_STATUS] e3 (e3.put F.CLK_STATUS_ctl_on_fio true) := keeps_put _ e3 _ _ (by decide)
  have f4 := fieldsOnly_put e3 F.CLK_STATUS_ctl_on_fio true 0 (by decide)
  have v4 := e3.flag_put_self F.CLK_STATUS_ctl_on_fio true 0 (by decide) rfl
  generalize e3.put F.CLK_STATUS_ctl_on_fio true = e4 at *
  have k14 : Keeps [] [.CLK_SAFE, .CLK_ERR] e1 e3 := (k2.mono (by simp) (by simp)).trans (k3.mono (by simp) (by simp))
  refine ⟨?_, ?_, ?_, ?_, ?_, v4, ?_, ?_⟩
  · exact ((k1.mono (by decide) (by decide)).trans (k14.mono (by decide) (by decide))).trans (k4.mono (by decide) (by decide))
  · exact ((f1.mono (by decide)).trans (k14.fields 0 _ (by decide))).trans (f4.mono (by decide))
  · exact (((k1.fields 0 _ (by decide)).trans (k2.fields 0 _ (by decide))).trans f3).trans (k4.fields 0 _ (by decide))
  · rw [k4.rd 0 (by decide), k3.rd 0 (by decide), f2 F.CLK_SAFE_count rfl (by decide), k1.rd 0 (by decide)]
  · rw [f4.flag F.CLK_STATUS_safe rfl (by decide), k14.flag 0 (by decide), v1]
  · rw [k4.flag 0 (by decide), v3]
  · rw [k4.rd 0 (by decide), k3.rd 0 (by decide), v2]

/-- The registers and the clock unit once the safe state has been entered, before any port is lost. -/
structure SafeIn (d e : Dev) (code : Nat) : Prop where
  keeps : Keeps safeAreas safeRegs d e
  status : FieldsOnly .CLK_STATUS 0 [F.CLK_STATUS_safe, F.CLK_STATUS_ctl_on_fio] d e
  err : FieldsOnly .CLK_ERR 0 [F.CLK_ERR_safe_entered] d e
  count : e.rd F.CLK_SAFE_count = satAdd F.CLK_SAFE_count.width (d.rd F.CLK_SAFE_count) 1
  safe : e.flag F.CLK_STATUS_safe = true
  fio : e.flag F.CLK_STATUS_ctl_on_fio = true
  entered : e.flag F.CLK_ERR_safe_entered = true
  trigger : e.rd F.CLK_SAFE_trigger = code
  mon : MonSame d.clk e.clk
  stands : e.clk.triggers.contains code = true
  since : e.clk.safeAt = d.now
  lanes : ∀ n, n < 384 → d.lnState n ≠ 0 → Emission.lane n .hiZ ∈ e.emitted
  lockPins : Emission.lockPins true ∈ e.emitted
  cko : ∀ c, c < 8 → Tbl.get none e.clk.cko c = none
  diag : e.clk.diag = none
  pins : ∀ p : Plane, e.clk.pins.pl p = none

theorem Dev.countTrigger_shows (d : Dev) (code : Nat) : Keeps [.clk] [.CLK_SAFE] d (d.countTrigger code)
    ∧ (d.countTrigger code).rd F.CLK_SAFE_count = satAdd F.CLK_SAFE_count.width (d.rd F.CLK_SAFE_count) 1
    ∧ (d.countTrigger code).clk = { d.clk with triggers := setInsert code d.clk.triggers } := by
  have hclk := keeps_clk (as := [.clk]) [.CLK_SAFE] d { d.clk with triggers := setInsert code d.clk.triggers } (by simp)
  exact ⟨hclk.trans (keeps_bump _ _ _ _ (by decide)), Dev.rd_bump_self _ F.CLK_SAFE_count 0 1 (by decide), rfl⟩

theorem Dev.beginSafe_shows (d : Dev) : Keeps [.clk, .ldr] [] d d.beginSafe
    ∧ ∃ rs, d.beginSafe.clk = { d.clk with refAtSafe := rs, safeAt := d.now } :=
  ⟨(keeps_countUp [] d 2 1 (by simp)).trans (keeps_clk [] _ _ (by simp)), _, rfl⟩

theorem SafeIn.of_steps {d d₁ d₂ d₃ d₄ e : Dev} {code : Nat} (hk : Keeps [.clk] [.CLK_SAFE] d d₁)
    (hcount : d₁.rd F.CLK_SAFE_count = satAdd F.CLK_SAFE_count.width (d.rd F.CLK_SAFE_count) 1)
    (htrig : d₁.clk = { d.clk with triggers := setInsert code d.clk.triggers }) (hshow : ShowsSafe d₁ d₂ code)
    (hbegin : Keeps [.clk, .ldr] [] d₂ d₃) (hsince : ∃ rs, d₃.clk = { d₂.clk with refAtSafe := rs, safeAt := d₂.now })
    (hrel : ReleasesClocks d₃ d₄) (hev : EvOnly d₄ e) (hnotes : Notes d₄ e) : SafeIn d e code := by
  have hnow : d₂.now = d.now := hshow.keeps.1.trans hk.1
  obtain ⟨rs, hsince⟩ := hsince
  have hclk : e.clk = { d.clk with
      triggers := setInsert code d.clk.triggers, refAtSafe := rs, safeAt := d.now
      lockE := d₄.clk.lockE, pins := d₄.clk.pins, cko := d₄.clk.cko, diag := none } := by
    rw [hev.2.1 .clk (by decide), hrel.clk, hsince, hshow.keeps.2.1 .clk (by simp), htrig, hnow]
  have hafter : Keeps safeAreas evRegs d₂ e :=
    ((hbegin.mono (by decide) (by simp)).trans (hrel.keeps.mono (by decide) (by simp))).trans (hev.mono (by decide) (by simp))
  have hbefore : Keeps [.clk, .ldr] [.CLK_SAFE, .CLK_STATUS, .CLK_ERR] d d₃ :=
    ((hk.mono (by simp) (by simp)).trans (hshow.keeps.mono (by simp) (by simp))).trans (hbegin.mono (by simp) (by simp))
  have hsub := hnotes.emitted.subset
  exact {
    keeps := ((hk.mono (by decide) (by decide)).trans (hshow.keeps.mono (by decide) (by decide))).trans (hafter.mono (by simp) (by decide))
    status := ((hk.fields 0 _ (by simp)).trans hshow.status).trans (hafter.fields 0 _ (by decide))
    err := ((hk.fields 0 _ (by simp)).trans hshow.err).trans (hafter.fields 0 _ (by decide))
    count := by rw [hafter.rd 0 (by decide), hshow.count, hcount]
    safe := (hafter.flag 0 (by decide)).trans hshow.safe
    fio := (hafter.flag 0 (by decide)).trans hshow.fio
    entered := (hafter.flag 0 (by decide)).trans hshow.entered
    trigger := (hafter.rd 0 (by decide)).trans hshow.trigger
    mon := by rw [hclk]; exact ⟨rfl, rfl, rfl, rfl, rfl, rfl⟩
    stands := by rw [hclk]; exact List.contains_iff_mem.mpr (mem_setInsert_self code _)
    since := by rw [hclk]
    lanes := fun n hn hs => hsub (hrel.lanes n hn (by rwa [Dev.lnState, hbefore.rd n (by decide)]))
    lockPins := hsub hrel.lockPins
    cko := by rw [hclk]; exact hrel.cko
    diag := by rw [hclk]
    pins := by rw [hclk]; exact hrel.pins }

/-- The safe state before any port is lost. -/
def Dev.enterSafe (d : Dev) (code : Nat) : Dev := (((d.countTrigger code).showSafe code).beginSafe.releaseClocks).occur evSafe 0x6D code

theorem Dev.enterSafe_shows (d : Dev) {code : Nat} (hc : code < 16) : SafeIn d (d.enterSafe code) code := by
  obtain ⟨hk, hcount, htrig⟩ := d.countTrigger_shows code
  have hshow := (d.countTrigger code).showSafe_shows hc
  obtain ⟨hbegin, hsince⟩ := ((d.countTrigger code).showSafe code).beginSafe_shows
  exact .of_steps hk hcount htrig hshow hbegin hsince (Dev.releaseClocks_shows ((hbegin.flag 0 (by simp)).trans hshow.safe))
    (evOnly_occur _ _ _ _ _ _ _) (notes_occur _ _ _ _ _ _ _)

/-! ### The ports in separate-reference-clock operation -/

/-- The registers and the clock unit in the safe state, with the ports lost where they need a reference. -/
structure SafeOut (d e : Dev) : Prop where
  keeps : Keeps lossAreas lossRegs d e
  emitted : d.emitted <:+ e.emitted
  gone : d.flag F.GLB_START_laneref = true → ∀ p : Port, e.lost p = true ∧ e.flag F.HIF_PORT_STATUS_link_up p.id = false
  same : d.flag F.GLB_START_laneref = false → e = d

theorem Dev.loseRefPorts_shows (d : Dev) : SafeOut d d.loseRefPorts := by
  unfold Dev.loseRefPorts Dev.when
  split
  · next h =>
    have ha := d.losePort_shows .a
    have hb := (d.losePort .a).losePort_shows .b
    refine ⟨ha.keeps.trans hb.keeps, ha.emitted.trans hb.emitted, fun _ p => ⟨?_, ?_⟩, fun hn => absurd h (by simp [hn])⟩
    · rw [hb.lost, ha.lost]
      cases p <;> simp
    · rw [hb.link, ha.link]
      cases p <;> simp
  · next h => exact ⟨Keeps.refl _ _ d, List.suffix_refl _, fun hy => absurd hy h, fun _ => rfl⟩

/-- What comes before the ports' loss, and the loss. -/
theorem EntersSafe.of_in {d e f : Dev} {code : Nat} (h : SafeIn d e code) (k : SafeOut e f) : EntersSafe d f code := by
  have hsub := k.emitted.subset
  have hlane : d.flag F.GLB_START_laneref = e.flag F.GLB_START_laneref := (h.keeps.flag 0 (by decide)).symm
  have hclk : f.clk = e.clk := k.keeps.2.1 .clk (by decide)
  have hlanes : f.lanes = d.lanes := (k.keeps.2.1 .lanes (by decide)).trans (h.keeps.2.1 .lanes (by decide))
  refine ⟨?_, ?_, ?_, ?_, ?_, ?_, ?_, fun n hn hs => hsub (h.lanes n hn hs), hlanes, ?_, ?_, ?_, hsub h.lockPins,
    fun hr => k.gone (hlane ▸ hr), fun _ => ?_, fun hr => ?_⟩
  · rw [k.keeps.flag 0 (by decide), h.safe]
  · rw [k.keeps.rd 0 (by decide), h.trigger]
  · rw [k.keeps.flag 0 (by decide), h.entered]
  · rw [k.keeps.rd 0 (by decide), h.count]
  · rw [k.keeps.flag 0 (by decide), h.fio]
  · rw [hclk, h.stands]
  · rw [hclk, h.since]
  · rw [hclk]; exact h.cko
  · rw [hclk, h.diag]
  · rw [hclk]; exact h.pins
  · exact (h.keeps.mono (by decide) (by decide)).trans (k.keeps.mono (by decide) (by decide))
  · rw [k.same (hlane ▸ hr)]
    exact h.keeps

/-- What a command does before the safe state is entered. -/
theorem EntersSafe.after {d e f : Dev} {code : Nat} (h : Keeps (.clk :: evAreas) (.CLK_STATUS :: .CLK_ERR :: evRegs) d e)
    (k : EntersSafe e f code) : EntersSafe d f code := by
  obtain ⟨hsafe, htrig, hent, hcount, hfio, hstands, hsince, hlanes, hlane, hcko, hdiag, hpins, hlock, hgone, hloss, hkeeps⟩ := k
  have hsame : e.flag F.GLB_START_laneref = d.flag F.GLB_START_laneref := h.flag 0 (by decide)
  refine ⟨hsafe, htrig, hent, ?_, hfio, hstands, hsince.trans h.1, fun n hn hs => hlanes n hn ?_, ?_, hcko, hdiag, hpins, hlock,
    fun hr => hgone (hsame.trans hr), fun hr => ?_, fun hr => ?_⟩
  · rw [hcount, h.rd 0 (by decide)]
  · rwa [Dev.lnState, h.rd n (by decide)]
  · rw [hlane, h.2.1 .lanes (by decide)]
  · exact (h.mono (by decide) (by decide)).trans (hloss (hsame.trans hr))
  · exact (h.mono (by decide) (by decide)).trans (hkeeps (hsame.trans hr))

end Sys2Proof.Machine
end

section
/-! SUPPORT. XA fails (R430, R435, R446). -/

namespace Sys2Proof.Machine

/-- What a safe-state trigger leaves of the clocks' registers and of the oscillators' monitors. -/
structure Triggers (d e : Dev) : Prop where
  status : FieldsOnly .CLK_STATUS 0 [F.CLK_STATUS_safe, F.CLK_STATUS_ctl_on_fio] d e
  err : FieldsOnly .CLK_ERR 0 [F.CLK_ERR_safe_entered] d e
  mon : MonSame d.clk e.clk

theorem Dev.safeEnter_enters {d : Dev} {code : Nat} (hc : code < 16) (h : d.flag F.CLK_STATUS_safe = false) :
    EntersSafe d (d.safeEnter code) code ∧ Triggers d (d.safeEnter code) := by
  have hin := d.enterSafe_shows hc
  have hout := (d.enterSafe code).loseRefPorts_shows
  rw [Dev.safeEnter_eq code h, ← Dev.enterSafe]
  exact ⟨.of_in hin hout, hin.status.trans (hout.keeps.fields 0 _ (by decide)), hin.err.trans (hout.keeps.fields 0 _ (by decide)),
    hin.mon.trans (hout.keeps.monSame (by decide))⟩

theorem Dev.triggers_safeEnter (d : Dev) {code : Nat} (hc : code < 16) : Triggers d (d.safeEnter code) := by
  cases h : d.flag F.CLK_STATUS_safe with
  | false => exact (Dev.safeEnter_enters hc h).2
  | true =>
    obtain ⟨hkeeps, -, hclk⟩ := d.countTrigger_shows code
    rw [Dev.safeEnter_of_safe code h]
    exact ⟨hkeeps.fields 0 _ (by simp), hkeeps.fields 0 _ (by simp), by rw [hclk]; exact ⟨rfl, rfl, rfl, rfl, rfl, rfl⟩⟩

/-- The XA monitor may pass again from now. -/
def Dev.xaBreaks (d : Dev) : Dev := { d with clk := { d.clk with xaFrom := d.now } }

/-- XA shows as failed. -/
def Dev.markXaFail (d : Dev) : Dev :=
  { ((d.put F.CLK_STATUS_xa_usable false).raise F.CLK_ERR_xa_fail) with clk := { d.clk with xaFailed := true } }.occur evXa 0x6B

/-- The locked lane synthesizers on XA coast. -/
def Dev.coastXa (d : Dev) : Dev := d.each [Plane.a, Plane.b] fun d p => d.when (!d.lsOnXb p) fun d => d.coastLs p

theorem Dev.xaFail_eq {d : Dev} (hmon : d.clk.xaMon = true) (hf : d.clk.xaFailed = false) :
    d.xaFail = d.xaBreaks.markXaFail.coastXa.when (d.xaBreaks.xaOk && !d.xaBreaks.markXaFail.coastXa.xbFit) fun d => d.safeEnter 1 := by
  simp only [Dev.xaFail, hmon, hf, Bool.not_true, Bool.or_false, Bool.false_eq_true, if_false, Dev.xaBreaks, Dev.markXaFail,
    Dev.coastXa]

theorem Dev.xaFail_of_not {d : Dev} (h : d.clk.xaMon = false ∨ d.clk.xaFailed = true) : d.xaFail = d.xaBreaks := by
  unfold Dev.xaFail
  exact if_pos (by rcases h with h | h <;> simp [h])

/-- XA is down: what its failure shows before a trigger. -/
structure XaDown (d e : Dev) : Prop where
  keeps : Keeps (.clk :: evAreas) (.CLK_STATUS :: .CLK_ERR :: evRegs) d e
  status : FieldsOnly .CLK_STATUS 0 (F.CLK_STATUS_xa_usable :: F.CLK_STATUS_ls_a_state :: F.CLK_STATUS_ls_b_state :: coastFields) d e
  down : e.xaOk = false
  fail : e.flag F.CLK_ERR_xa_fail = true
  err : FieldsOnly .CLK_ERR 0 [F.CLK_ERR_xa_fail, F.CLK_ERR_ls_coast] d e
  failed : e.clk.xaFailed = true
  since : e.clk.xaFrom = d.now
  ls : ∀ p, e.lsState p = if d.lsOnXb p = false ∧ d.lsState p = 1 then 2 else d.lsState p

/-- The register writes of XA's failure. -/
theorem Dev.markXaFail_shows (d : Dev) : Keeps (.clk :: evAreas) (.CLK_STATUS :: .CLK_ERR :: evRegs) d d.markXaFail
    ∧ FieldsOnly .CLK_STATUS 0 [F.CLK_STATUS_xa_usable] d d.markXaFail ∧ d.markXaFail.xaOk = false
    ∧ d.markXaFail.flag F.CLK_ERR_xa_fail = true ∧ FieldsOnly .CLK_ERR 0 [F.CLK_ERR_xa_fail] d d.markXaFail
    ∧ d.markXaFail.clk = { d.clk with xaFailed := true } := by
  have hput : Keeps [] [.CLK_STATUS] d (d.put F.CLK_STATUS_xa_usable false) := keeps_put _ d _ _ (by decide)
  have hputF := fieldsOnly_put d F.CLK_STATUS_xa_usable false 0 (by decide)
  have hdown := d.flag_put_self F.CLK_STATUS_xa_usable false 0 (by decide) rfl
  unfold Dev.markXaFail
  generalize d.put F.CLK_STATUS_xa_usable false = e at *
  have hraise : Keeps [] [.CLK_ERR] e (e.raise F.CLK_ERR_xa_fail) := keeps_raise _ e _ (by decide)
  have hfail := e.flag_raise_self F.CLK_ERR_xa_fail 0 (by decide) rfl
  have hraiseF := fieldsOnly_raise e F.CLK_ERR_xa_fail 0 (by decide)
  generalize e.raise F.CLK_ERR_xa_fail = f at *
  have hclk := keeps_clk (as := [.clk]) [] f { d.clk with xaFailed := true } (by simp)
  have hev := evOnly_occur { f with clk := { d.clk with xaFailed := true } } evXa 0x6B 0 0 1 none
  have hall : Keeps (.clk :: evAreas) (.CLK_ERR :: evRegs) e
      ({ f with clk := { d.clk with xaFailed := true } }.occur evXa 0x6B 0 0 1 none) :=
    ((hraise.mono (by simp) (by simp)).trans (hclk.mono (by simp) (by simp))).trans (hev.mono (by simp) (by simp))
  refine ⟨(hput.mono (by simp) (by simp)).trans (hall.mono (by simp) (by simp)), hputF.trans (hall.fields 0 _ (by decide)),
    (hall.flag 0 (by decide)).trans hdown, ?_, ?_, hev.2.1 .clk (by decide)⟩
  case refine_2 =>
    exact (hput.fields 0 _ (by decide)).trans (hraiseF.trans ((hclk.fields 0 _ (by simp)).trans (hev.fields 0 _ (by decide))))
  rw [hev.flag 0 (by decide), hclk.flag 0 (by simp), hfail]

theorem Coasts.xaOk {d e : Dev} (h : Coasts d e) : e.xaOk = d.xaOk := h.status.flag _ rfl (by decide)

theorem Dev.coastXa_shows (d : Dev) : Coasts d d.coastXa
    ∧ ∀ q, d.coastXa.lsState q = if d.lsOnXb q = false ∧ d.lsState q = 1 then 2 else d.lsState q := by
  obtain ⟨hcoasts, hls⟩ := Dev.coastWhere_shows (sel := fun d p => !d.lsOnXb p) (fun p h => by rw [h.lsOnXb]) d
  exact ⟨hcoasts, fun q => by rw [Dev.coastXa, hls]; simp⟩

theorem FieldsOnly.lsState {fs : List Field} {d e : Dev} (h : FieldsOnly .CLK_STATUS 0 fs d e) (p : Plane)
    (ha : ∀ f ∈ fs, f.Apart (lsField p)) : e.lsState p = d.lsState p := by
  rw [Dev.lsState_eq, Dev.lsState_eq, h _ (lsField_reg p) ha]

theorem FieldsOnly.lsOnXb {fs : List Field} {d e : Dev} (h : FieldsOnly .CLK_STATUS 0 fs d e) (p : Plane)
    (ha : ∀ f ∈ fs, f.Apart F.CLK_STATUS_ls_a_src ∧ f.Apart F.CLK_STATUS_ls_b_src) : e.lsOnXb p = d.lsOnXb p := by
  cases p
  · exact h.flag F.CLK_STATUS_ls_a_src rfl fun f hf => (ha f hf).1
  · exact h.flag F.CLK_STATUS_ls_b_src rfl fun f hf => (ha f hf).2

theorem XaDown.of_steps {d e f g : Dev} (hfrom : Keeps [.clk] [] d e) (hsince : e.clk = { d.clk with xaFrom := d.now })
    (hmark : Keeps (.clk :: evAreas) (.CLK_STATUS :: .CLK_ERR :: evRegs) e f ∧ FieldsOnly .CLK_STATUS 0 [F.CLK_STATUS_xa_usable] e f
      ∧ f.xaOk = false ∧ f.flag F.CLK_ERR_xa_fail = true ∧ FieldsOnly .CLK_ERR 0 [F.CLK_ERR_xa_fail] e f ∧ f.clk = { e.clk with xaFailed := true })
    (hcoast : Coasts f g ∧ ∀ q, g.lsState q = if f.lsOnXb q = false ∧ f.lsState q = 1 then 2 else f.lsState q) : XaDown d g := by
  obtain ⟨hkeeps, hstatus, hdown, hfail, herr, hclk⟩ := hmark
  obtain ⟨hcoasts, hls⟩ := hcoast
  have hfields := (hfrom.fields 0 [F.CLK_STATUS_xa_usable] (by simp)).trans hstatus
  exact {
    keeps := ((hfrom.mono (by simp) (by simp)).trans hkeeps).trans hcoasts.keeps
    status := (hfields.mono (by simp)).trans (hcoasts.status.mono (by simp))
    down := hcoasts.xaOk.trans hdown
    fail := (hcoasts.err.flag _ rfl (by decide)).trans hfail
    err := ((hfrom.fields 0 _ (by simp)).trans (herr.mono (by simp))).trans (hcoasts.err.mono (by simp))
    failed := by rw [hcoasts.mon.xaFailed, hclk]
    since := by rw [hcoasts.mon.xaFrom, hclk, hsince]
    ls := fun p => by rw [hls, hfields.lsOnXb p (by decide), hfields.lsState p (by cases p <;> decide)] }

theorem Dev.xaDown_shows (d : Dev) : XaDown d d.xaBreaks.markXaFail.coastXa :=
  .of_steps (keeps_clk [] d _ (by simp)) rfl (Dev.markXaFail_shows _) (Dev.coastXa_shows _)

section
variable {d e : Dev} (h : XaDown d e)
include h

theorem XaDown.xbFit : e.xbFit = d.xbFit := h.status.flag _ rfl (by decide)

theorem XaDown.safe : e.flag F.CLK_STATUS_safe = d.flag F.CLK_STATUS_safe := h.status.flag _ rfl (by decide)

/-- XA has failed, with the trigger or without it. -/
theorem XaDown.fails : XaFails d (e.when (d.xaOk && !e.xbFit) fun d => d.safeEnter 1) := by
  by_cases ht : (d.xaOk && !e.xbFit) = true
  · rw [ht, Dev.when, if_pos rfl]
    rw [h.xbFit, Bool.and_eq_true, Bool.not_eq_true'] at ht
    have htrig := e.triggers_safeEnter (code := 1) (by decide)
    refine ⟨(htrig.status.flag _ rfl (by decide)).trans h.down, htrig.mon.xaFailed.trans h.failed,
      (htrig.err.flag _ rfl (by decide)).trans h.fail, htrig.mon.xaFrom.trans h.since, fun p => ?_, fun hno => ?_, fun _ _ hs => ?_⟩
    · rw [htrig.status.lsState p (by cases p <;> decide), h.ls]
    · simp [ht.1, ht.2] at hno
    · exact (Dev.safeEnter_enters (by decide) (h.safe.trans hs)).1.after h.keeps
  · rw [Bool.not_eq_true] at ht
    rw [ht, Dev.when, if_neg (by decide)]
    rw [h.xbFit] at ht
    exact ⟨h.down, h.failed, h.fail, h.since, h.ls, fun _ => ⟨h.safe, h.keeps⟩, fun hx ha => by simp [hx, ha] at ht⟩

end

/-- A monitored XA that has not failed fails. -/
theorem Dev.xaFail_fails {d : Dev} (hmon : d.clk.xaMon = true) (hf : d.clk.xaFailed = false) : XaFails d d.xaFail := by
  rw [Dev.xaFail_eq hmon hf]
  exact d.xaDown_shows.fails

/-- XA's failure leaves whether XB is qualified, and its disqualification noted. -/
theorem Dev.xaFail_leaves (d : Dev) : d.xaFail.xbOk = d.xbOk ∧ d.xaFail.flag F.CLK_ERR_xb_disq = d.flag F.CLK_ERR_xb_disq := by
  by_cases h : d.clk.xaMon = false ∨ d.clk.xaFailed = true
  · rw [Dev.xaFail_of_not h]
    exact ⟨rfl, rfl⟩
  · simp only [not_or, Bool.not_eq_false, Bool.not_eq_true] at h
    rw [Dev.xaFail_eq h.1 h.2]
    have hdown := d.xaDown_shows
    generalize d.xaBreaks.markXaFail.coastXa = e at *
    have htrig := e.triggers_safeEnter (code := 1) (by decide)
    unfold Dev.when
    split
    · exact ⟨(htrig.status.flag _ rfl (by decide)).trans (hdown.status.flag _ rfl (by decide)),
        (htrig.err.flag _ rfl (by decide)).trans (hdown.err.flag _ rfl (by decide))⟩
    · exact ⟨hdown.status.flag _ rfl (by decide), hdown.err.flag _ rfl (by decide)⟩

end Sys2Proof.Machine
end

section
/-! SUPPORT. XB is disqualified, or ceases to be lane-fit (R432, R433, R435). -/

namespace Sys2Proof.Machine

theorem Keeps.tb {as : List Area} {rs : List RegName} {d e : Dev} (h : Keeps as rs d e) (ha : Area.tim ∉ as) (p : Plane) :
    e.tb p = d.tb p := by rw [Dev.tb, Dev.tb, h.2.1 .tim ha]

/-! ### The control values follow a change of oscillator (R433) -/

theorem keeps_moveOsc (d : Dev) (z : Int) : Keeps [.tim] [] d (d.moveOsc z) :=
  (keeps_modTb _ d .a _ (by simp)).trans (keeps_modTb _ _ .b _ (by simp))

theorem Dev.tb_moveOsc (d : Dev) (z : Int) (p : Plane) :
    ((d.moveOsc z).tb p).ctl = (d.tb p).ctl + 1000000 * z ∧ ((d.moveOsc z).tb p).epoch = (d.tb p).epoch := by
  cases p <;> exact ⟨rfl, rfl⟩

/-! ### Lane synthesizers lose XB (R435) -/

/-- The locked lane synthesizers on XB coast. -/
def Dev.coastXb (d : Dev) : Dev := d.each [Plane.a, Plane.b] fun d p => d.when (d.lsOnXb p) fun d => d.coastLs p

/-- Lane synthesizers on XB are to return to XA where it is usable. -/
def Dev.returnToXa (d : Dev) : Dev :=
  { d with clk := { d.clk with lsReturn := ⟨d.xaOk && d.lsOnXb .a, d.xaOk && d.lsOnXb .b⟩ } }

theorem Dev.xbUnfit_eq (d : Dev) : d.xbUnfit = d.returnToXa.coastXb := rfl

theorem Dev.coastXb_shows (d : Dev) : Coasts d d.coastXb
    ∧ ∀ q, d.coastXb.lsState q = if d.lsOnXb q = true ∧ d.lsState q = 1 then 2 else d.lsState q := by
  obtain ⟨hcoasts, hls⟩ := Dev.coastWhere_shows (sel := fun d p => d.lsOnXb p) (fun p h => h.lsOnXb p) d
  exact ⟨hcoasts, fun q => by rw [Dev.coastXb, hls]⟩

theorem Dev.xbUnfit_shows (d : Dev) : Coasts d d.xbUnfit
    ∧ ∀ q, d.xbUnfit.lsState q = if d.lsOnXb q = true ∧ d.lsState q = 1 then 2 else d.lsState q := by
  have hreturn : Coasts d d.returnToXa := coasts_clk d ⟨rfl, rfl, rfl, rfl, rfl, rfl⟩
  have hsame : Keeps [.clk] [] d d.returnToXa := keeps_clk [] d _ (by simp)
  obtain ⟨hcoasts, hls⟩ := d.returnToXa.coastXb_shows
  rw [Dev.xbUnfit_eq]
  have hfields := hsame.fields (r := .CLK_STATUS) 0 [] (by simp)
  exact ⟨hreturn.trans hcoasts, fun q => by rw [hls, hfields.lsOnXb q (by simp), hfields.lsState q (by simp)]⟩

/-! ### Disqualification (R432) -/

/-- XB shows as disqualified. -/
def Dev.xbDown (d : Dev) : Dev :=
  ((d.put F.CLK_STATUS_xb_qualified false).put F.CLK_STATUS_xb_lane_fit false).raise F.CLK_ERR_xb_disq

/-- XB shows as disqualified, no window has passed, and the control values return by its offset. -/
def Dev.xbLeft (d : Dev) : Dev := (d.xbDown.wr F.CLK_XB_STATUS_passed 0).moveOsc d.xbDown.clk.xbOffset

/-- No window has been outside the tolerance. -/
def Dev.noXbOut (d : Dev) : Dev := { d with clk := { d.clk with xbOut := 0 } }

theorem Dev.xbDisqualify_eq {d : Dev} (h : d.xbOk = true) :
    d.xbDisqualify = ((d.xbLeft.noXbOut).occur evXb 0x6B).xbUnfit.refreshPins := by
  simp only [Dev.xbDisqualify, h, Bool.not_true, Bool.false_eq_true, if_false, Dev.xbLeft, Dev.xbDown, Dev.noXbOut]

theorem Dev.xbDisqualify_of_not {d : Dev} (h : d.xbOk = false) : d.xbDisqualify = d := by
  unfold Dev.xbDisqualify
  exact if_pos (by simp [h])

/-- The writes of XB's disqualification. -/
structure XbLeft (d e : Dev) : Prop where
  keeps : Keeps [.tim] [.CLK_STATUS, .CLK_ERR, .CLK_XB_STATUS] d e
  status : FieldsOnly .CLK_STATUS 0 [F.CLK_STATUS_xb_qualified, F.CLK_STATUS_xb_lane_fit] d e
  out : e.xbOk = false
  unfit : e.xbFit = false
  disq : e.flag F.CLK_ERR_xb_disq = true
  passed : e.rd F.CLK_XB_STATUS_passed = 0
  tb : ∀ p, (e.tb p).ctl = (d.tb p).ctl + 1000000 * d.clk.xbOffset ∧ (e.tb p).epoch = (d.tb p).epoch

theorem Dev.xbLeft_shows (d : Dev) : XbLeft d d.xbLeft := by
  have k1 : Keeps [] [.CLK_STATUS] d (d.put F.CLK_STATUS_xb_qualified false) := keeps_put _ d _ _ (by decide)
  have f1 := fieldsOnly_put d F.CLK_STATUS_xb_qualified false 0 (by decide)
  have v1 := d.flag_put_self F.CLK_STATUS_xb_qualified false 0 (by decide) rfl
  unfold Dev.xbLeft Dev.xbDown
  generalize d.put F.CLK_STATUS_xb_qualified false = e1 at *
  have k2 : Keeps [] [.CLK_STATUS] e1 (e1.put F.CLK_STATUS_xb_lane_fit false) := keeps_put _ e1 _ _ (by decide)
  have f2 := fieldsOnly_put e1 F.CLK_STATUS_xb_lane_fit false 0 (by decide)
  have v2 := e1.flag_put_self F.CLK_STATUS_xb_lane_fit false 0 (by decide) rfl
  generalize e1.put F.CLK_STATUS_xb_lane_fit false = e2 at *
  have k3 : Keeps [] [.CLK_ERR] e2 (e2.raise F.CLK_ERR_xb_disq) := keeps_raise _ e2 _ (by decide)
  have v3 := e2.flag_raise_self F.CLK_ERR_xb_disq 0 (by decide) rfl
  generalize e2.raise F.CLK_ERR_xb_disq = e3 at *
  have k4 : Keeps [] [.CLK_XB_STATUS] e3 (e3.wr F.CLK_XB_STATUS_passed 0) := keeps_wr _ e3 _ _ (by decide)
  have v4 := e3.rd_wr_fits F.CLK_XB_STATUS_passed 0 0 (by decide) (by decide)
  generalize e3.wr F.CLK_XB_STATUS_passed 0 = e4 at *
  have k5 := keeps_moveOsc e4 e3.clk.xbOffset
  have v5 := e4.tb_moveOsc e3.clk.xbOffset
  have k45 : Keeps [.tim] [.CLK_XB_STATUS] e3 (e4.moveOsc e3.clk.xbOffset) := (k4.mono (by simp) (by simp)).trans (k5.mono (by simp) (by simp))
  have k13 : Keeps [] [.CLK_STATUS, .CLK_ERR] d e3 :=
    ((k1.mono (by simp) (by simp)).trans (k2.mono (by simp) (by simp))).trans (k3.mono (by simp) (by simp))
  have k35 : Keeps [.tim] [.CLK_ERR, .CLK_XB_STATUS] e2 (e4.moveOsc e3.clk.xbOffset) := (k3.mono (by simp) (by simp)).trans (k45.mono (by simp) (by simp))
  refine ⟨(k13.mono (by simp) (by simp)).trans (k45.mono (by simp) (by simp)), ?_, ?_, ?_, ?_, ?_, fun p => ?_⟩
  · exact ((f1.mono (by simp)).trans (f2.mono (by simp))).trans (k35.fields 0 _ (by decide))
  · exact (k35.flag 0 (by decide)).trans ((f2.flag F.CLK_STATUS_xb_qualified rfl (by decide)).trans v1)
  · exact (k35.flag 0 (by decide)).trans v2
  · exact (k45.flag 0 (by decide)).trans v3
  · exact (k5.rd 0 (by simp)).trans v4
  · have htb : e4.tb p = d.tb p := (k4.tb (by simp) p).trans (k13.tb (by simp) p)
    rw [(v5 p).1, (v5 p).2, htb, k13.2.1 .clk (by simp)]
    exact ⟨rfl, rfl⟩

/-- XB is out; XA's monitor stays. -/
structure XbGone (d e : Dev) : Prop where
  out : XbOut d e
  xaMon : e.clk.xaMon = d.clk.xaMon
  xaFailed : e.clk.xaFailed = d.clk.xaFailed

theorem XbGone.of_steps {d e f g k j : Dev} (hleft : XbLeft d e) (hout : Keeps [.clk] [] e f) (hclk : f.clk = { e.clk with xbOut := 0 })
    (hev : EvOnly f g) (hunfit : Coasts g k ∧ ∀ q, k.lsState q = if g.lsOnXb q = true ∧ g.lsState q = 1 then 2 else g.lsState q)
    (hpins : Keeps [.clk, .emitted] [] k j) (honly : OnlyPins k.clk j.clk) : XbGone d j := by
  obtain ⟨hcoasts, hls⟩ := hunfit
  have heg : Keeps (.clk :: evAreas) evRegs e g := (hout.mono (by simp) (by simp)).trans (hev.mono (by simp) (by simp))
  have hstatus := hleft.status.trans (heg.fields 0 _ (by decide))
  have hkj := hpins.fields (r := .CLK_STATUS) 0 [] (by simp)
  have hmon := hcoasts.mon.trans honly.monSame
  have hgclk : g.clk = { d.clk with xbOut := 0 } := by rw [hev.2.1 .clk (by decide), hclk, hleft.keeps.2.1 .clk (by simp)]
  have hgj : Keeps (.clk :: evAreas) (.CLK_STATUS :: .CLK_ERR :: evRegs) g j := hcoasts.keeps.trans (hpins.mono (by decide) (by simp))
  have hej : Keeps (.clk :: evAreas) (.CLK_STATUS :: .CLK_ERR :: evRegs) e j := (heg.mono (by simp) (by simp)).trans hgj
  refine ⟨⟨?_, ?_, ?_, ?_, fun p => ?_, fun p => ?_, ?_⟩, ?_, ?_⟩
  · exact (hpins.flag 0 (by simp)).trans ((hcoasts.status.flag _ rfl (by decide)).trans ((heg.flag 0 (by decide)).trans hleft.out))
  · exact (hpins.flag 0 (by simp)).trans ((hcoasts.status.flag _ rfl (by decide)).trans ((heg.flag 0 (by decide)).trans hleft.unfit))
  · exact (hpins.flag 0 (by simp)).trans ((hcoasts.err.flag _ rfl (by decide)).trans ((heg.flag 0 (by decide)).trans hleft.disq))
  · exact (hej.rd 0 (by decide)).trans hleft.passed
  · rw [hej.tb (by decide) p]
    exact hleft.tb p
  · rw [hkj.lsState p (by simp), hls, hstatus.lsOnXb p (by decide), hstatus.lsState p (by cases p <;> decide)]
  · exact (hleft.keeps.mono (by simp) (by simp)).trans (hej.mono (by simp) (by decide))
  · rw [hmon.xaMon, hgclk]
  · rw [hmon.xaFailed, hgclk]

/-- A qualified XB is disqualified. -/
theorem Dev.xbDisqualify_gone {d : Dev} (h : d.xbOk = true) : XbGone d d.xbDisqualify := by
  rw [Dev.xbDisqualify_eq h]
  exact .of_steps d.xbLeft_shows (keeps_clk [] _ _ (by simp)) rfl (evOnly_occur _ _ _ _ _ _ _) (Dev.xbUnfit_shows _)
    (keeps_refreshPins [] _ (by simp) (by simp)) (onlyPins_refreshPins _)

/-- What a window shows before XB is disqualified. -/
theorem XbOut.after {d e f : Dev} (h : Keeps [.clk] [.CLK_XB_STATUS] d e) (ho : e.clk.xbOffset = d.clk.xbOffset) (k : XbOut e f) :
    XbOut d f := by
  obtain ⟨hout, hunfit, hdisq, hpassed, htb, hls, hkeeps⟩ := k
  have hfields := h.fields (r := .CLK_STATUS) 0 [] (by simp)
  refine ⟨hout, hunfit, hdisq, hpassed, fun p => ?_, fun p => ?_, (h.mono (by simp) (by simp)).trans hkeeps⟩
  · rw [← h.tb (by simp) p, ← ho]
    exact htb p
  · rw [hls, hfields.lsOnXb p (by simp), hfields.lsState p (by simp)]

end Sys2Proof.Machine
end

section
/-! SUPPORT. The monitors' commands: the start delay, XA's return, and the windows of XB (R41, R85, R429 to R433). -/

namespace Sys2Proof.Machine

/-! ### XA (R41, R85, R429, R430) -/

/-- Both epoch counters start from 0. -/
def Dev.zeroEpochs (d : Dev) : Dev := (d.modTb .a fun x => { x with epoch := 0 }).modTb .b fun x => { x with epoch := 0 }

/-- The XA monitor and both epoch counters run from now (R41, R429). -/
def Dev.startMonitor (d : Dev) : Dev :=
  let d := d.zeroEpochs
  { d with clk := { d.clk with xaMon := true, xaFrom := d.now }, tim := { d.tim with running := true } }

/-- The follower, whose state reads 0 at reset, follows the lead (R85). -/
def Dev.follow (d : Dev) : Dev := if d.tbState d.lead.other == 0 then d.setTb d.lead.other 5 else d

theorem exec_xaStartDelayExpiry (s : State) (t : Nat) : exec (.xaStartDelayExpiry t) s = onDev true t s fun d =>
    if d.start.booted && !d.clk.xaMon && decide (d.start.t0 + xaDelayMs (d.rd F.GLB_START_xadly) * msU ≤ d.now) then
      d.startMonitor.follow
    else d := rfl

theorem keeps_clk_tim (d : Dev) (u : ClkUnit) (v : TimingUnit) : Keeps [.clk, .tim] [] d { d with clk := u, tim := v } :=
  (keeps_clk _ d u (by simp)).trans (keeps_tim _ { d with clk := u } v (by simp))

theorem keeps_startMonitor (d : Dev) : Keeps [.clk, .tim] [] d d.startMonitor := by
  have hzero : Keeps [.clk, .tim] [] d d.zeroEpochs := (keeps_modTb _ d .a _ (by simp)).trans (keeps_modTb _ _ .b _ (by simp))
  exact hzero.trans (keeps_clk_tim _ _ _)

theorem keeps_follow (d : Dev) : Keeps (.clk :: evAreas) (.TB_STATUS :: .CLK_STATUS :: evRegs) d d.follow :=
  Keeps.ite (fun _ => keeps_setTb d _ 5 0) fun _ => Keeps.refl _ _ d

theorem Dev.follow_shows (d : Dev) : d.follow.lead = d.lead ∧ d.follow.tbState d.lead = d.tbState d.lead
    ∧ d.follow.tbState d.lead.other = (if d.tbState d.lead.other = 0 then 5 else d.tbState d.lead.other)
    ∧ MonSame d.clk d.follow.clk ∧ d.follow.tim = d.tim := by
  unfold Dev.follow
  by_cases h : d.tbState d.lead.other = 0
  · rw [h, if_pos (by decide), if_pos rfl]
    have hfields := fieldsOnly_setTb d d.lead.other 5 0
    exact ⟨hfields.lead (by cases d.lead <;> decide), hfields.tbState _ (by cases d.lead <;> decide),
      Dev.tbState_setTb d _ 0 (by decide), (onlyPins_setTb d _ 5 0).monSame, Dev.tim_setTb d _ 5 0⟩
  · rw [if_neg (by simpa using h), if_neg h]
    exact ⟨rfl, rfl, rfl, MonSame.refl _, rfl⟩

theorem exec_xaUsable (s : State) (t : Nat) : exec (.xaUsable t) s = onDev true t s fun d =>
    if !d.clk.xaMon || d.xaOk
        || decide (d.now < d.clk.xaFrom + (if d.clk.xaFailed then xaDelayMs (d.rd F.GLB_START_xadly) else 1) * msU) then d
    else
      let d := { (d.put F.CLK_STATUS_xa_usable true) with clk := { d.clk with xaFailed := false, xbWinAt := d.now } }
      ((d.when (d.rd F.GLB_START_phase == 1) fun d => d.wr F.GLB_START_phase 2).occur evXa 0x6C).clearTriggers [1, 2, 3] := rfl

/-- XA shows as usable. -/
def Dev.xaReturns (d : Dev) : Dev :=
  { (d.put F.CLK_STATUS_xa_usable true) with clk := { d.clk with xaFailed := false, xbWinAt := d.now } }

/-- Start-up moves on once XA is usable (R521). -/
def Dev.movePhase (d : Dev) : Dev := d.when (d.rd F.GLB_START_phase == 1) fun d => d.wr F.GLB_START_phase 2

/-- Outside the safe state triggers only cease to stand. -/
theorem Dev.clearTriggers_shows {d : Dev} (cs : List Nat) (h : d.flag F.CLK_STATUS_safe = false) :
    Keeps [.clk] [] d (d.clearTriggers cs) ∧ ∃ ts, (d.clearTriggers cs).clk = { d.clk with triggers := ts } := by
  have heq : d.clearTriggers cs = { d with clk := { d.clk with triggers := d.clk.triggers.filter fun c => !cs.contains c } } := by
    unfold Dev.clearTriggers
    exact if_neg (by rw [show ∀ u, ({ d with clk := u } : Dev).flag F.CLK_STATUS_safe = false from fun _ => h]; simp)
  rw [heq]
  exact ⟨keeps_clk _ d _ (by simp), _, rfl⟩

/-- The start delay's end starts the monitor, and the follower follows. -/
theorem startMonitor_starts (d : Dev) : d.startMonitor.follow.clk.xaMon = true ∧ d.startMonitor.follow.clk.xaFrom = d.now
    ∧ d.startMonitor.follow.tim.running = true ∧ (d.startMonitor.follow.tb .a).epoch = 0 ∧ (d.startMonitor.follow.tb .b).epoch = 0
    ∧ d.startMonitor.follow.lead = d.lead ∧ d.startMonitor.follow.tbState d.lead = d.tbState d.lead
    ∧ d.startMonitor.follow.tbState d.lead.other = (if d.tbState d.lead.other = 0 then 5 else d.tbState d.lead.other)
    ∧ Keeps (.clk :: .tim :: evAreas) (.TB_STATUS :: .CLK_STATUS :: evRegs) d d.startMonitor.follow := by
  have hkeeps := keeps_startMonitor d
  have hfollow := keeps_follow d.startMonitor
  have hlead : d.startMonitor.lead = d.lead := hkeeps.lead (by simp)
  have hstate (p : Plane) : d.startMonitor.tbState p = d.tbState p := hkeeps.tbState (by simp) p
  obtain ⟨hlead', hold, hother, hmon, htim⟩ := d.startMonitor.follow_shows
  rw [hlead, hstate] at hold
  rw [hlead, hstate] at hother
  have htb (p : Plane) : d.startMonitor.follow.tb p = d.startMonitor.tb p := by rw [Dev.tb, Dev.tb, htim]
  refine ⟨hmon.xaMon, hmon.xaFrom, by rw [htim]; rfl, by rw [htb]; rfl, by rw [htb]; rfl, hlead'.trans hlead, hold, hother, ?_⟩
  exact (hkeeps.mono (by simp) (by simp)).trans (hfollow.mono (by simp) (by simp))

theorem Dev.xaReturns_shows (d : Dev) : Keeps [.clk] [.CLK_STATUS] d d.xaReturns
    ∧ FieldsOnly .CLK_STATUS 0 [F.CLK_STATUS_xa_usable] d d.xaReturns
    ∧ d.xaReturns.reg .CLK_STATUS 0 = F.CLK_STATUS_xa_usable.put (d.reg .CLK_STATUS 0) 1
    ∧ d.xaReturns.xaOk = true ∧ d.xaReturns.clk = { d.clk with xaFailed := false, xbWinAt := d.now } := by
  have hput : Keeps [.clk] [.CLK_STATUS] d (d.put F.CLK_STATUS_xa_usable true) := keeps_put _ d _ _ (by decide)
  exact ⟨hput.trans (keeps_clk _ _ _ (by simp)), fieldsOnly_put d F.CLK_STATUS_xa_usable true 0 (by decide),
    Dev.reg_wr_self d F.CLK_STATUS_xa_usable 1 0, d.flag_put_self F.CLK_STATUS_xa_usable true 0 (by decide) rfl, rfl⟩

theorem Dev.movePhase_shows (d : Dev) : Keeps [] [.GLB_START] d d.movePhase
    ∧ d.movePhase.rd F.GLB_START_phase = if d.rd F.GLB_START_phase = 1 then 2 else d.rd F.GLB_START_phase := by
  unfold Dev.movePhase
  refine ⟨Keeps.when fun _ => keeps_wr _ d _ _ (by decide), ?_⟩
  by_cases h : d.rd F.GLB_START_phase = 1
  · rw [h, if_pos rfl]
    exact Dev.rd_wr_fits d F.GLB_START_phase 2 0 (by decide) (by decide)
  · rw [if_neg h, Dev.when, if_neg (by simpa using h)]

/-- XA becomes usable, and start-up moves on. -/
theorem xaReturns_usable {d e f g h : Dev} (hsafe : d.flag F.CLK_STATUS_safe = false)
    (hret : Keeps [.clk] [.CLK_STATUS] d e ∧ FieldsOnly .CLK_STATUS 0 [F.CLK_STATUS_xa_usable] d e
      ∧ e.reg .CLK_STATUS 0 = F.CLK_STATUS_xa_usable.put (d.reg .CLK_STATUS 0) 1
      ∧ e.xaOk = true ∧ e.clk = { d.clk with xaFailed := false, xbWinAt := d.now })
    (hphase : Keeps [] [.GLB_START] e f
      ∧ f.rd F.GLB_START_phase = if e.rd F.GLB_START_phase = 1 then 2 else e.rd F.GLB_START_phase)
    (hev : EvOnly f g) (hclear : g.flag F.CLK_STATUS_safe = false → Keeps [.clk] [] g h ∧ ∃ ts, h.clk = { g.clk with triggers := ts }) :
    h.reg .CLK_STATUS 0 = F.CLK_STATUS_xa_usable.put (d.reg .CLK_STATUS 0) 1 ∧ h.xaOk = true
      ∧ h.rd F.GLB_START_phase = (if d.rd F.GLB_START_phase = 1 then 2 else d.rd F.GLB_START_phase)
      ∧ h.clk.xaFailed = false ∧ h.clk.xbWinAt = d.now ∧ Keeps (.clk :: evAreas) (.CLK_STATUS :: .GLB_START :: evRegs) d h := by
  obtain ⟨hretK, hretF, hreg, hok, hclk⟩ := hret
  obtain ⟨hphaseK, hphaseV⟩ := hphase
  have hfg : Keeps evAreas (.GLB_START :: evRegs) e g := (hphaseK.mono (by simp) (by simp)).trans (hev.mono (by simp) (by simp))
  have hgsafe : g.flag F.CLK_STATUS_safe = false := by
    rw [hfg.flag 0 (by decide), hretF.flag F.CLK_STATUS_safe rfl (by decide), hsafe]
  obtain ⟨hclearK, ts, hts⟩ := hclear hgsafe
  have hgclk : g.clk = { d.clk with xaFailed := false, xbWinAt := d.now } := (hfg.2.1 .clk (by decide)).trans hclk
  refine ⟨?_, ?_, ?_, by rw [hts, hgclk], by rw [hts, hgclk], ?_⟩
  · rw [hclearK.2.2 .CLK_STATUS 0 (by simp), hfg.2.2 .CLK_STATUS 0 (by decide), hreg]
  · exact (hclearK.flag 0 (by simp)).trans ((hfg.flag 0 (by decide)).trans hok)
  · rw [hclearK.rd 0 (by simp), hev.rd 0 (by decide), hphaseV, hretK.rd 0 (by decide)]
  · exact ((hretK.mono (by simp) (by simp)).trans (hfg.mono (by simp) (by simp))).trans (hclearK.mono (by simp) (by simp))

theorem Dev.xaReturns_movePhase {d : Dev} (hsafe : d.flag F.CLK_STATUS_safe = false) {h : Dev}
    (hh : h = (d.xaReturns.movePhase.occur evXa 0x6C).clearTriggers [1, 2, 3]) :
    h.reg .CLK_STATUS 0 = F.CLK_STATUS_xa_usable.put (d.reg .CLK_STATUS 0) 1 ∧ h.xaOk = true
      ∧ h.rd F.GLB_START_phase = (if d.rd F.GLB_START_phase = 1 then 2 else d.rd F.GLB_START_phase)
      ∧ h.clk.xaFailed = false ∧ h.clk.xbWinAt = d.now ∧ Keeps (.clk :: evAreas) (.CLK_STATUS :: .GLB_START :: evRegs) d h := by
  rw [hh]
  exact xaReturns_usable hsafe d.xaReturns_shows (Dev.movePhase_shows _) (evOnly_occur _ _ _ _ _ _ _) (Dev.clearTriggers_shows _)

/-! ### Windows of XB (R431 to R433, R435) -/

/-- The next window runs from now. -/
def Dev.windowEnds (d : Dev) : Dev := { d with clk := { d.clk with xbWinAt := d.now } }

/-- A window ends: its basis shows, and the next one runs. -/
def Dev.showBasis (d : Dev) : Dev :=
  (d.windowEnds.wr F.CLK_XB_STATUS_basis d.xbBasis.1).wr F.CLK_XB_STATUS_input d.xbBasis.2

/-- The window's offset shows, in 24 bits. -/
def Dev.showOffset (d : Dev) (off : Int) : Dev := d.wr F.CLK_XB_STATUS_offset (ofInt 24 (max (-8388608) (min 8388607 off)))

/-- The window passes. -/
def Dev.passes (d : Dev) (off : Int) (gap : Bool) : Bool := decide (off.natAbs ≤ d.xbTol) && !gap

/-- The windows passed in a row with it. -/
def Dev.passCount (d : Dev) (off : Int) (gap : Bool) : Nat := if d.passes off gap then min 4 (d.rd F.CLK_XB_STATUS_passed + 1) else 0

/-- Four windows qualify XB: the control values move by its offset. -/
def Dev.xbQualifies (d : Dev) (off : Int) : Dev := (((d.put F.CLK_STATUS_xb_qualified true).moveOsc (-off)).occur evXb 0x6C).refreshPins

/-- What a window that passes or not, with `k` passed in a row, makes of XB. -/
def Dev.judge (d : Dev) (pass gap : Bool) (k : Nat) (off xaOff xbOff : Int) : Dev :=
  if d.xbOk then
    if pass then d.noteFit off
    else if gap then d.xbDisqualify
    else if 1 ≤ d.clk.xbOut then d.xbBlame xaOff xbOff
    else { d with clk := { d.clk with xbOut := 1 } }
  else if k = 4 then (d.xbQualifies off).noteFit off
  else d

theorem exec_xbWindow (s : State) (t : Nat) (off : Int) (gap : Bool) (xaOff xbOff : Int) : exec (.xbWindow t off gap xaOff xbOff) s =
    onDev true t s fun d => if d.now < d.clk.xbWinAt + 100 * msU then d else
      if !d.showBasis.flag F.CLK_XB_CFG_fitted || d.xbBasis.1 == 0 then d.showBasis
      else ((d.showBasis.showOffset off).wr F.CLK_XB_STATUS_passed ((d.showBasis.showOffset off).passCount off gap)).judge
        ((d.showBasis.showOffset off).passes off gap) gap ((d.showBasis.showOffset off).passCount off gap) off xaOff xbOff := rfl

end Sys2Proof.Machine
end

section
/-! SUPPORT. What a window of XB shows, and how it judges XB (R431 to R433, R435). -/

namespace Sys2Proof.Machine

theorem ofInt_lt (w : Nat) (z : Int) : ofInt w z < 2 ^ w := by
  have hpos : (0 : Int) < 2 ^ w := by positivity
  have hlt := Int.emod_lt_of_pos z hpos
  unfold ofInt
  rw [Int.toNat_lt (Int.emod_nonneg z hpos.ne')]
  exact_mod_cast hlt

/-- A basis and its input show. -/
theorem Dev.basis_shows (d : Dev) (b x : Nat) :
    Keeps [] [.CLK_XB_STATUS] d ((d.wr F.CLK_XB_STATUS_basis b).wr F.CLK_XB_STATUS_input x)
    ∧ FieldsOnly .CLK_XB_STATUS 0 [F.CLK_XB_STATUS_basis, F.CLK_XB_STATUS_input] d
        ((d.wr F.CLK_XB_STATUS_basis b).wr F.CLK_XB_STATUS_input x)
    ∧ ((d.wr F.CLK_XB_STATUS_basis b).wr F.CLK_XB_STATUS_input x).rd F.CLK_XB_STATUS_basis = b % 4
    ∧ ((d.wr F.CLK_XB_STATUS_basis b).wr F.CLK_XB_STATUS_input x).rd F.CLK_XB_STATUS_input = x % 8 := by
  have hbasis := fieldsOnly_wr d F.CLK_XB_STATUS_basis b 0 (by decide)
  have hinput := fieldsOnly_wr (d.wr F.CLK_XB_STATUS_basis b) F.CLK_XB_STATUS_input x 0 (by decide)
  refine ⟨(keeps_wr _ d _ _ (by decide)).trans (keeps_wr _ _ _ _ (by decide)), ?_, ?_, ?_⟩
  · exact (hbasis.mono (by simp)).trans (hinput.mono (by simp))
  · exact (hinput F.CLK_XB_STATUS_basis rfl (by decide)).trans (Dev.rd_wr_self d F.CLK_XB_STATUS_basis b 0 (by decide))
  · exact Dev.rd_wr_self _ F.CLK_XB_STATUS_input x 0 (by decide)

theorem Dev.showBasis_shows (d : Dev) : Keeps [.clk] [.CLK_XB_STATUS] d d.showBasis
    ∧ FieldsOnly .CLK_XB_STATUS 0 [F.CLK_XB_STATUS_basis, F.CLK_XB_STATUS_input] d d.showBasis
    ∧ d.showBasis.rd F.CLK_XB_STATUS_basis = d.xbBasis.1 % 4 ∧ d.showBasis.rd F.CLK_XB_STATUS_input = d.xbBasis.2 % 8
    ∧ d.showBasis.clk = { d.clk with xbWinAt := d.now } := by
  have hclk : Keeps [.clk] [] d d.windowEnds := keeps_clk [] d _ (by simp)
  obtain ⟨hkeeps, hfields, hbasis, hinput⟩ := d.windowEnds.basis_shows d.xbBasis.1 d.xbBasis.2
  exact ⟨(hclk.mono (by simp) (by simp)).trans (hkeeps.mono (by simp) (by simp)), (hclk.fields 0 _ (by simp)).trans hfields, hbasis,
    hinput, hkeeps.2.1 .clk (by simp)⟩

/-- A window of XB has been measured: what it shows, and what stays. -/
structure Measured (d w : Dev) (b x : Nat) (off : Int) (k : Nat) : Prop where
  keeps : Keeps [.clk] [.CLK_XB_STATUS] d w
  shown : Shows d w b x off k
  clk : w.clk = { d.clk with xbWinAt := d.now }

theorem Measured.of_steps {d e f : Dev} {b x k : Nat} {off : Int} (hk : k < 8) (hb : d.xbBasis = (b, x))
    (hbasis : Keeps [.clk] [.CLK_XB_STATUS] d e
      ∧ FieldsOnly .CLK_XB_STATUS 0 [F.CLK_XB_STATUS_basis, F.CLK_XB_STATUS_input] d e
      ∧ e.rd F.CLK_XB_STATUS_basis = d.xbBasis.1 % 4 ∧ e.rd F.CLK_XB_STATUS_input = d.xbBasis.2 % 8
      ∧ e.clk = { d.clk with xbWinAt := d.now })
    (hf : f = e.showOffset off) : Measured d (f.wr F.CLK_XB_STATUS_passed k) b x off k := by
  obtain ⟨hkeeps, -, hbasisV, hinput, hclk⟩ := hbasis
  rw [hb] at hbasisV hinput
  have hoffK : Keeps [] [.CLK_XB_STATUS] e f := hf ▸ keeps_wr _ e _ _ (by decide)
  have hoffF : FieldsOnly .CLK_XB_STATUS 0 [F.CLK_XB_STATUS_offset] e f := hf ▸ fieldsOnly_wr e F.CLK_XB_STATUS_offset _ 0 (by decide)
  have hoffV : f.rd F.CLK_XB_STATUS_offset = ofInt 24 (max (-8388608) (min 8388607 off)) :=
    hf ▸ e.rd_wr_fits F.CLK_XB_STATUS_offset _ 0 (by decide) (ofInt_lt 24 _)
  have hpassK : Keeps [] [.CLK_XB_STATUS] f (f.wr F.CLK_XB_STATUS_passed k) := keeps_wr _ f _ _ (by decide)
  have hpassF := fieldsOnly_wr f F.CLK_XB_STATUS_passed k 0 (by decide)
  have hpassV := f.rd_wr_fits F.CLK_XB_STATUS_passed k 0 (by decide) hk
  generalize f.wr F.CLK_XB_STATUS_passed k = w at *
  have hwclk : w.clk = { d.clk with xbWinAt := d.now } := by
    rw [hpassK.2.1 .clk (by simp), hoffK.2.1 .clk (by simp), hclk]
  refine ⟨(hkeeps.trans (hoffK.mono (by simp) (by simp))).trans (hpassK.mono (by simp) (by simp)), ⟨?_, ?_, hpassV, ?_, ?_⟩, hwclk⟩
  · rw [hpassF F.CLK_XB_STATUS_basis rfl (by decide), hoffF F.CLK_XB_STATUS_basis rfl (by decide), hbasisV]
  · rw [hpassF F.CLK_XB_STATUS_input rfl (by decide), hoffF F.CLK_XB_STATUS_input rfl (by decide), hinput]
  · rw [hpassF F.CLK_XB_STATUS_offset rfl (by decide), hoffV]
  · rw [hwclk]

theorem Dev.passCount_lt (d : Dev) (off : Int) (gap : Bool) : d.passCount off gap < 8 := by
  unfold Dev.passCount
  split <;> omega

/-- A measured window is judged by what stood before it. -/
theorem runs_xbWindow {s : State} {t b x : Nat} {off xaOff xbOff : Int} {gap : Bool} {d : Dev} {post : Dev → Prop} (hd : d = s.on t)
    (hm : Measures d b x) (h : ∀ w, Measured d w b x off (d.passCount off gap) →
      post (w.judge (d.passes off gap) gap (d.passCount off gap) off xaOff xbOff)) : Runs (.xbWindow t off gap xaOff xbOff) s post := by
  obtain ⟨hwin, hfit, hb, hne⟩ := hm
  refine Runs.of_onDev (exec_xbWindow s t off gap xaOff xbOff) rfl ?_
  rw [← hd, if_neg (Nat.not_lt.mpr hwin)]
  have hshow := d.showBasis_shows
  have hfitted : d.showBasis.flag F.CLK_XB_CFG_fitted = true := (hshow.1.flag 0 (by decide)).trans hfit
  rw [hfitted, hb, if_neg (by simpa using hne)]
  have hoff : Keeps [.clk] [.CLK_XB_STATUS] d (d.showBasis.showOffset off) := hshow.1.trans (keeps_wr _ _ _ _ (by decide))
  have htol : (d.showBasis.showOffset off).xbTol = d.xbTol := by rw [Dev.xbTol, Dev.xbTol, hoff.rd 0 (by decide)]
  have hpassed : (d.showBasis.showOffset off).rd F.CLK_XB_STATUS_passed = d.rd F.CLK_XB_STATUS_passed :=
    (fieldsOnly_wr d.showBasis F.CLK_XB_STATUS_offset _ 0 (by decide) F.CLK_XB_STATUS_passed rfl (by decide)).trans
      (hshow.2.1 _ rfl (by decide))
  have hpass : (d.showBasis.showOffset off).passes off gap = d.passes off gap := by rw [Dev.passes, Dev.passes, htol]
  have hcount : (d.showBasis.showOffset off).passCount off gap = d.passCount off gap := by
    rw [Dev.passCount, Dev.passCount, hpass, hpassed]
  rw [hpass, hcount]
  exact h _ (.of_steps (d.passCount_lt off gap) hb hshow rfl)

theorem Measured.flag {d w : Dev} {b x k : Nat} {off : Int} (h : Measured d w b x off k) {f : Field} (hf : f.reg ≠ .CLK_XB_STATUS) :
    w.flag f = d.flag f := h.keeps.flag 0 (by simpa using hf)

/-- What a window shows stays with what keeps the register and the clock unit's time of it. -/
theorem Shows.after {d w e : Dev} {b x k : Nat} {off : Int} {as : List Area} {rs : List RegName} (h : Shows d w b x off k)
    (hk : Keeps as rs w e) (hr : RegName.CLK_XB_STATUS ∉ rs) (hw : e.clk.xbWinAt = w.clk.xbWinAt) : Shows d e b x off k := by
  obtain ⟨hb, hx, hp, ho, hwin⟩ := h
  exact ⟨(hk.rd 0 hr).trans hb, (hk.rd 0 hr).trans hx, (hk.rd 0 hr).trans hp, (hk.rd 0 hr).trans ho, hw.trans hwin⟩

/-! ### A passing window (R433, R435) -/

/-- XB's fitness shows, with its offset. -/
def Dev.showFit (d : Dev) (fit : Bool) (off : Int) : Dev :=
  { (d.put F.CLK_STATUS_xb_lane_fit fit) with clk := { d.clk with xbOffset := off, xbOut := 0 } }

/-- A fit XB ends triggers; an unfit one is lost to the lane synthesizers on it. -/
def Dev.actOnFit (d : Dev) (fit was : Bool) : Dev :=
  if fit then d.clearTriggers [1, 2, 3] else if was then d.xbUnfit else d

theorem Dev.noteFit_eq (d : Dev) (off : Int) : d.noteFit off =
    (d.showFit (decide (off.natAbs ≤ 30000)) off).actOnFit (decide (off.natAbs ≤ 30000)) d.xbFit := by
  simp only [Dev.noteFit, Dev.showFit, Dev.actOnFit]

/-- What a passing window leaves outside the safe state where no lane synthesizer loses XB. -/
structure Fits (d e : Dev) (fit : Bool) (off : Int) : Prop where
  keeps : Keeps [.clk] [.CLK_STATUS] d e
  status : FieldsOnly .CLK_STATUS 0 [F.CLK_STATUS_xb_lane_fit] d e
  fit : e.xbFit = fit
  offset : e.clk.xbOffset = off
  out : e.clk.xbOut = 0
  win : e.clk.xbWinAt = d.clk.xbWinAt

theorem Dev.showFit_fits (d : Dev) (fit : Bool) (off : Int) : Fits d (d.showFit fit off) fit off := by
  have hput : Keeps [.clk] [.CLK_STATUS] d (d.put F.CLK_STATUS_xb_lane_fit fit) := keeps_put _ d _ _ (by decide)
  have hclk : Keeps [.clk] [] (d.put F.CLK_STATUS_xb_lane_fit fit) (d.showFit fit off) := keeps_clk [] _ _ (by simp)
  have hfields := fieldsOnly_put d F.CLK_STATUS_xb_lane_fit fit 0 (by decide)
  exact ⟨hput.trans (hclk.mono (by simp) (by simp)), hfields.trans (hclk.fields 0 _ (by simp)),
    (hclk.flag 0 (by simp)).trans (d.flag_put_self _ fit 0 (by decide) rfl), rfl, rfl, rfl⟩

theorem Fits.actOnFit {d e : Dev} {fit was : Bool} {off : Int} (h : Fits d e fit off) (hsafe : d.flag F.CLK_STATUS_safe = false)
    (hfit : fit = true ∨ was = false) : Fits d (e.actOnFit fit was) fit off := by
  unfold Dev.actOnFit
  cases fit with
  | true =>
    rw [if_pos rfl]
    obtain ⟨hkeeps, ts, hclk⟩ := Dev.clearTriggers_shows (d := e) [1, 2, 3] ((h.status.flag F.CLK_STATUS_safe rfl (by decide)).trans hsafe)
    exact ⟨h.keeps.trans (hkeeps.mono (by simp) (by simp)), h.status.trans (hkeeps.fields 0 _ (by simp)),
      (hkeeps.flag 0 (by simp)).trans h.fit, by rw [hclk]; exact h.offset, by rw [hclk]; exact h.out, by rw [hclk]; exact h.win⟩
  | false =>
    rw [if_neg (by decide), hfit.resolve_left (by decide), if_neg (by decide)]
    exact h

theorem Dev.noteFit_fits {d : Dev} {off : Int} (hsafe : d.flag F.CLK_STATUS_safe = false) (hfit : off.natAbs ≤ 30000 ∨ d.xbFit = false) :
    Fits d (d.noteFit off) (decide (off.natAbs ≤ 30000)) off := by
  rw [Dev.noteFit_eq]
  exact (d.showFit_fits _ off).actOnFit hsafe (hfit.imp_left fun h => decide_eq_true h)

end Sys2Proof.Machine
end

section
/-! SUPPORT. Obligation O45: the crystal monitors (R41, R85, R429 to R433, R435). -/

namespace Sys2Proof.Machine

/-! ### XB qualifies (R431, R433) -/

/-- What XB's qualification leaves. -/
structure Qualifies (d e : Dev) (off : Int) : Prop where
  keeps : Keeps (.clk :: .tim :: evAreas) (.CLK_STATUS :: evRegs) d e
  status : FieldsOnly .CLK_STATUS 0 [F.CLK_STATUS_xb_qualified] d e
  ok : e.xbOk = true
  tb : ∀ p, (e.tb p).ctl = (d.tb p).ctl - 1000000 * off ∧ (e.tb p).epoch = (d.tb p).epoch
  mon : MonSame d.clk e.clk

theorem Qualifies.of_steps {d e f g h : Dev} {off : Int} (hput : Keeps [] [.CLK_STATUS] d e)
    (hfields : FieldsOnly .CLK_STATUS 0 [F.CLK_STATUS_xb_qualified] d e) (hok : e.xbOk = true) (hmove : f = e.moveOsc (-off))
    (hev : EvOnly f g) (hpins : Keeps [.clk, .emitted] [] g h) (honly : OnlyPins g.clk h.clk) : Qualifies d h off := by
  have hmoveK : Keeps [.tim] [] e f := hmove ▸ keeps_moveOsc e (-off)
  have heh : Keeps (.clk :: .tim :: evAreas) evRegs e h :=
    ((hmoveK.mono (by simp) (by simp)).trans (hev.mono (by decide) (by simp))).trans (hpins.mono (by decide) (by simp))
  refine ⟨(hput.mono (by simp) (by simp)).trans (heh.mono (by simp) (by simp)), hfields.trans (heh.fields 0 _ (by decide)),
    (heh.flag 0 (by decide)).trans hok, fun p => ?_, ?_⟩
  · obtain ⟨hctl, hepoch⟩ := e.tb_moveOsc (-off) p
    rw [hpins.tb (by simp), hev.tb (by decide), hmove, hctl, hepoch, hput.tb (by simp)]
    exact ⟨by omega, rfl⟩
  · exact (((hput.monSame (by simp)).trans (hmoveK.monSame (by simp))).trans (hev.monSame (by decide))).trans honly.monSame

theorem Dev.xbQualifies_shows (d : Dev) (off : Int) : Qualifies d (d.xbQualifies off) off :=
  .of_steps (keeps_put _ d _ _ (by decide)) (fieldsOnly_put d F.CLK_STATUS_xb_qualified true 0 (by decide))
    (d.flag_put_self F.CLK_STATUS_xb_qualified true 0 (by decide) rfl) rfl (evOnly_occur _ _ _ _ _ _ _)
    (keeps_refreshPins [] _ (by simp) (by simp)) (onlyPins_refreshPins _)

/-! ### How a window is judged -/

section
variable {w : Dev} {pass gap : Bool} {k : Nat} {off xaOff xbOff : Int}

theorem Dev.judge_unqualified (h : w.xbOk = false) (hk : k ≠ 4) : w.judge pass gap k off xaOff xbOff = w := by
  rw [Dev.judge, h, if_neg (by decide), if_neg hk]

theorem Dev.judge_fourth (h : w.xbOk = false) : w.judge pass gap 4 off xaOff xbOff = (w.xbQualifies off).noteFit off := by
  rw [Dev.judge, h, if_neg (by decide), if_pos rfl]

theorem Dev.judge_pass (h : w.xbOk = true) : w.judge true gap k off xaOff xbOff = w.noteFit off := by
  rw [Dev.judge, h, if_pos rfl, if_pos rfl]

theorem Dev.judge_gap (h : w.xbOk = true) : w.judge false true k off xaOff xbOff = w.xbDisqualify := by
  rw [Dev.judge, h, if_pos rfl, if_neg (by decide), if_pos rfl]

theorem Dev.judge_second (h : w.xbOk = true) (ho : 1 ≤ w.clk.xbOut) :
    w.judge false false k off xaOff xbOff = w.xbBlame xaOff xbOff := by
  rw [Dev.judge, h, if_pos rfl, if_neg (by decide), if_neg (by decide), if_pos ho]

theorem Dev.judge_first (h : w.xbOk = true) (ho : w.clk.xbOut = 0) :
    w.judge false false k off xaOff xbOff = { w with clk := { w.clk with xbOut := 1 } } := by
  rw [Dev.judge, h, if_pos rfl, if_neg (by decide), if_neg (by decide), if_neg (by omega)]

end

theorem Dev.passes_eq_true {d : Dev} {off : Int} (h : off.natAbs ≤ d.xbTol) : d.passes off false = true := by
  rw [Dev.passes, decide_eq_true h]
  rfl

theorem Dev.passes_eq_false {d : Dev} {off : Int} {gap : Bool} (h : gap = true ∨ d.xbTol < off.natAbs) : d.passes off gap = false := by
  unfold Dev.passes
  rcases h with h | h
  · rw [h, Bool.not_true, Bool.and_false]
  · rw [decide_eq_false (Nat.not_le.mpr h), Bool.false_and]

theorem Dev.passCount_of_pass {d : Dev} {off : Int} {gap : Bool} (h : d.passes off gap = true) :
    d.passCount off gap = min 4 (d.rd F.CLK_XB_STATUS_passed + 1) := by rw [Dev.passCount, h, if_pos rfl]

theorem Dev.passCount_of_fail {d : Dev} {off : Int} {gap : Bool} (h : d.passes off gap = false) : d.passCount off gap = 0 := by
  rw [Dev.passCount, h, if_neg (by decide)]

/-! ### Two windows outside the tolerance (R432) -/

/-- The lead has a locked reference that says which oscillator is at fault. -/
def Dev.judged (d : Dev) : Bool := d.tbState d.lead == 2 && decide (d.rd F.TB_STATUS_sel < 5) && d.qualified (d.rd F.TB_STATUS_sel)

/-- XB is disqualified where it is at fault. -/
def Dev.blameXb (d : Dev) (off : Int) : Dev := d.when (decide (d.xbTol < off.natAbs)) fun d => d.xbDisqualify

/-- XA fails where it is at fault. -/
def Dev.blameXa (d : Dev) (off : Int) : Dev := d.when (decide (d.xbTol < off.natAbs)) fun d => d.xaFail

theorem Dev.xbBlame_eq (d : Dev) (xaOff xbOff : Int) : d.xbBlame xaOff xbOff =
    if d.noXbOut.judged then (d.noXbOut.blameXb xbOff).blameXa xaOff else d.noXbOut.xbDisqualify := rfl

theorem Keeps.xbTol {as : List Area} {rs : List RegName} {d e : Dev} (h : Keeps as rs d e) (hr : RegName.CLK_XB_CFG ∉ rs) :
    e.xbTol = d.xbTol := by rw [Dev.xbTol, Dev.xbTol, h.rd 0 hr]

theorem Keeps.judged {as : List Area} {rs : List RegName} {d e : Dev} (h : Keeps as rs d e) (hr : RegName.TB_STATUS ∉ rs) :
    e.judged = d.judged := by
  rw [Dev.judged, Dev.judged, h.lead hr, h.tbState hr, h.rd 0 hr, h.qualified hr]

theorem Dev.blameXb_of_lt {d : Dev} {off : Int} (h : d.xbTol < off.natAbs) : d.blameXb off = d.xbDisqualify := by
  rw [Dev.blameXb, decide_eq_true h, Dev.when, if_pos rfl]

theorem Dev.blameXb_of_le {d : Dev} {off : Int} (h : off.natAbs ≤ d.xbTol) : d.blameXb off = d := by
  rw [Dev.blameXb, decide_eq_false (Nat.not_lt.mpr h), Dev.when, if_neg (by decide)]

theorem Dev.blameXa_of_lt {d : Dev} {off : Int} (h : d.xbTol < off.natAbs) : d.blameXa off = d.xaFail := by
  rw [Dev.blameXa, decide_eq_true h, Dev.when, if_pos rfl]

theorem Dev.blameXa_of_le {d : Dev} {off : Int} (h : off.natAbs ≤ d.xbTol) : d.blameXa off = d := by
  rw [Dev.blameXa, decide_eq_false (Nat.not_lt.mpr h), Dev.when, if_neg (by decide)]

theorem Dev.blameXa_leaves (d : Dev) (off : Int) : (d.blameXa off).xbOk = d.xbOk
    ∧ (d.blameXa off).flag F.CLK_ERR_xb_disq = d.flag F.CLK_ERR_xb_disq := by
  unfold Dev.blameXa Dev.when
  split
  · exact d.xaFail_leaves
  · exact ⟨rfl, rfl⟩

/-- The blamed monitor after XB's share of it. -/
structure Blamed (d n f : Dev) (off : Int) : Prop where
  tol : f.xbTol = d.xbTol
  xaMon : f.clk.xaMon = d.clk.xaMon
  xaFailed : f.clk.xaFailed = d.clk.xaFailed
  gone : d.xbTol < off.natAbs → f.xbOk = false ∧ f.flag F.CLK_ERR_xb_disq = true
  same : off.natAbs ≤ d.xbTol → f = n

theorem Dev.blameXb_shows {d n : Dev} (off : Int) (hn : Keeps [.clk] [.CLK_XB_STATUS] d n) (hok : n.xbOk = true)
    (hmon : n.clk.xaMon = d.clk.xaMon) (hf : n.clk.xaFailed = d.clk.xaFailed) : Blamed d n (n.blameXb off) off := by
  have htol : n.xbTol = d.xbTol := hn.xbTol (by simp)
  by_cases h : d.xbTol < off.natAbs
  · obtain ⟨⟨hout, -, hdisq, -, -, -, hkeeps⟩, hmonG, hfG⟩ := Dev.xbDisqualify_gone hok
    rw [Dev.blameXb_of_lt (htol.symm ▸ h)]
    exact ⟨(hkeeps.xbTol (by decide)).trans htol, hmonG.trans hmon, hfG.trans hf, fun _ => ⟨hout, hdisq⟩,
      fun hle => absurd h (Nat.not_lt.mpr hle)⟩
  · rw [Dev.blameXb_of_le (htol.symm ▸ Nat.not_lt.mp h)]
    exact ⟨htol, hmon, hf, fun hlt => absurd hlt h, fun _ => rfl⟩

/-- Which oscillator the locked reference blames. -/
theorem Dev.xbBlame_shows {d w : Dev} {b x k : Nat} {off xaOff xbOff : Int} (hw : Measured d w b x off k) (hok : d.xbOk = true) :
    (d.judged = false ∨ d.xbTol < xbOff.natAbs →
        (w.xbBlame xaOff xbOff).xbOk = false ∧ (w.xbBlame xaOff xbOff).flag F.CLK_ERR_xb_disq = true)
    ∧ (d.judged = false → XbOut d (w.xbBlame xaOff xbOff))
    ∧ (d.judged = true → d.xbTol < xaOff.natAbs → d.clk.xaMon = true → d.clk.xaFailed = false →
        (w.xbBlame xaOff xbOff).xaOk = false ∧ (w.xbBlame xaOff xbOff).clk.xaFailed = true
        ∧ (w.xbBlame xaOff xbOff).flag F.CLK_ERR_xa_fail = true)
    ∧ (d.judged = true → xaOff.natAbs ≤ d.xbTol → xbOff.natAbs ≤ d.xbTol →
        (w.xbBlame xaOff xbOff).xbOk = true ∧ (w.xbBlame xaOff xbOff).xaOk = d.xaOk
        ∧ Keeps [.clk] [.CLK_XB_STATUS] d (w.xbBlame xaOff xbOff)) := by
  have hnoK : Keeps [.clk] [.CLK_XB_STATUS] w w.noXbOut := keeps_clk _ w _ (by simp)
  have hn := hw.keeps.trans hnoK
  have hclk : w.noXbOut.clk = { d.clk with xbWinAt := d.now, xbOut := 0 } := by rw [Dev.noXbOut, hw.clk]
  have hoffset : w.noXbOut.clk.xbOffset = d.clk.xbOffset := by rw [hclk]
  have hnok : w.noXbOut.xbOk = true := (hn.flag 0 (by decide)).trans hok
  rw [Dev.xbBlame_eq, hn.judged (by simp)]
  cases hj : d.judged with
  | false =>
    have hgone : XbOut d w.noXbOut.xbDisqualify := (Dev.xbDisqualify_gone hnok).out.after hn hoffset
    rw [if_neg (by decide)]
    have ⟨hout, _, hdisq, _⟩ := hgone
    exact ⟨fun _ => ⟨hout, hdisq⟩, fun _ => hgone, fun h => by simp at h, fun h => by simp at h⟩
  | true =>
    have hblame := Dev.blameXb_shows xbOff hn hnok (by rw [hclk]) (by rw [hclk])
    rw [if_pos rfl]
    generalize w.noXbOut.blameXb xbOff = f at *
    obtain ⟨hxb, hdisq⟩ := f.blameXa_leaves xaOff
    refine ⟨fun h => ?_, fun h => by simp at h, fun _ hlt hmon hfail => ?_, fun _ hxa hle => ?_⟩
    · rw [hxb, hdisq]
      exact hblame.gone (h.resolve_left (by decide))
    · rw [Dev.blameXa_of_lt (hblame.tol.symm ▸ hlt)]
      obtain ⟨hxa, hxf, hfl, -⟩ := Dev.xaFail_fails (hblame.xaMon.trans hmon) (hblame.xaFailed.trans hfail)
      exact ⟨hxa, hxf, hfl⟩
    · rw [Dev.blameXa_of_le (hblame.tol.symm ▸ hxa), hblame.same hle]
      exact ⟨hnok, hn.flag 0 (by decide), hn⟩

/-! ### The commands -/

theorem exec_xaEdgeTimeout (s : State) (t : Nat) : exec (.xaEdgeTimeout t) s = onDev true t s fun d => d.xaFail := rfl

theorem exec_xaCountCheck (s : State) (t count : Nat) : exec (.xaCountCheck t count) s =
    onDev true t s fun d => if 15 * 512 < 100 * ((count : Int) - 512).natAbs then d.xaFail else d := rfl

theorem exec_xbEdgeGap (s : State) (t : Nat) : exec (.xbEdgeGap t) s = onDev true t s fun d => d.xbDisqualify := rfl

theorem Measured.xbOk {d w : Dev} {b x k : Nat} {off : Int} (h : Measured d w b x off k) : w.xbOk = d.xbOk := h.flag (by decide)

theorem Dev.xbBasis_lt (d : Dev) : d.xbBasis.1 < 4 := by
  have hinput (x : Nat) (c : Prop) [Decidable c] : (if c then (2, x) else (0, 0)).1 < 4 := by split <;> simp
  unfold Dev.xbBasis
  split
  · exact (by decide : 1 < 4)
  · split
    · exact hinput _ _
    · exact hinput _ _

/-- A fourth passing window qualifies XB. -/
theorem Measured.fourth {d w : Dev} {b x : Nat} {off : Int} (hw : Measured d w b x off 4) (hsafe : d.flag F.CLK_STATUS_safe = false)
    (hfit : d.xbFit = false) (e : Dev) (he : e = (w.xbQualifies off).noteFit off) :
    Shows d e b x off 4 ∧ e.xbOk = true ∧ e.xbFit = decide (off.natAbs ≤ 30000) ∧ e.clk.xbOffset = off
      ∧ (∀ p, (e.tb p).ctl = (d.tb p).ctl - 1000000 * off ∧ (e.tb p).epoch = (d.tb p).epoch)
      ∧ Keeps (.clk :: .tim :: evAreas) (.CLK_XB_STATUS :: .CLK_STATUS :: evRegs) d e := by
  have hq := w.xbQualifies_shows off
  generalize w.xbQualifies off = q at *
  have hqsafe : q.flag F.CLK_STATUS_safe = false :=
    (hq.status.flag _ rfl (by decide)).trans ((hw.flag (by decide)).trans hsafe)
  have hqfit : q.xbFit = false := (hq.status.flag _ rfl (by decide)).trans ((hw.flag (by decide)).trans hfit)
  have hn := he ▸ Dev.noteFit_fits (off := off) hqsafe (.inr hqfit)
  have hwe : Keeps (.clk :: .tim :: evAreas) (.CLK_STATUS :: evRegs) w e := hq.keeps.trans (hn.keeps.mono (by simp) (by simp))
  refine ⟨hw.shown.after hwe (by decide) (hn.win.trans hq.mon.xbWinAt), ?_, hn.fit, hn.offset, fun p => ?_, ?_⟩
  · exact (hn.status.flag _ rfl (by decide)).trans hq.ok
  · rw [hn.keeps.tb (by simp) p, (hq.tb p).1, (hq.tb p).2, hw.keeps.tb (by simp) p]
    exact ⟨rfl, rfl⟩
  · exact (hw.keeps.mono (by simp) (by simp)).trans (hwe.mono (by simp) (by simp))

/-- A passing window of a qualified XB. -/
theorem Measured.fits {d w : Dev} {b x k : Nat} {off : Int} (hw : Measured d w b x off k) (hok : d.xbOk = true)
    (hsafe : d.flag F.CLK_STATUS_safe = false) (hfit : off.natAbs ≤ 30000 ∨ d.xbFit = false) (e : Dev) (he : e = w.noteFit off) :
    e.xbOk = true ∧ e.xbFit = decide (off.natAbs ≤ 30000) ∧ e.clk.xbOffset = off ∧ e.clk.xbOut = 0
      ∧ (∀ p, e.tb p = d.tb p) ∧ Keeps [.clk] [.CLK_XB_STATUS, .CLK_STATUS] d e := by
  have hwfit : w.xbFit = d.xbFit := hw.flag (by decide)
  have hn := he ▸ Dev.noteFit_fits (off := off) ((hw.flag (by decide)).trans hsafe) (hwfit.symm ▸ hfit)
  refine ⟨?_, hn.fit, hn.offset, hn.out, fun p => ?_, (hw.keeps.mono (by simp) (by simp)).trans (hn.keeps.mono (by simp) (by simp))⟩
  · exact (hn.status.flag _ rfl (by decide)).trans (hw.xbOk.trans hok)
  · rw [hn.keeps.tb (by simp) p, hw.keeps.tb (by simp) p]

/-- A first window outside the tolerance is only counted. -/
theorem Measured.first {d w : Dev} {b x k : Nat} {off : Int} (hw : Measured d w b x off k) (hok : d.xbOk = true) (e : Dev)
    (he : e = { w with clk := { w.clk with xbOut := 1 } }) :
    Shows d e b x off k ∧ e.xbOk = true ∧ e.clk.xbOut = 1 ∧ Keeps [.clk] [.CLK_XB_STATUS] d e := by
  have hk : Keeps [.clk] [] w e := he ▸ keeps_clk [] w _ (by simp)
  exact ⟨hw.shown.after hk (by simp) (by rw [he]), (hk.flag 0 (by simp)).trans (hw.xbOk.trans hok), by rw [he],
    hw.keeps.trans (hk.mono (by simp) (by simp))⟩

/-- Settles O45: the monitors' commands act by their own lemmas, and each window by how it is judged. -/
theorem crystalMonitors : Obligations.CrystalMonitors := by
  refine ⟨?start, ?startNot, ?usable, ?usableNot, ?edge, ?count, ?edgeNot, ?countNot, ?pass, ?fourth, ?fail, ?unfitted, ?fit, ?first,
    ?second, ?early, ?gap, ?gapNot⟩
  case start =>
    rintro s t d hd hboot hmon hwait
    refine Runs.of_onDev (exec_xaStartDelayExpiry s t) rfl ?_
    rw [← hd, hboot, hmon, decide_eq_true hwait, if_pos (by decide)]
    exact startMonitor_starts d
  case startNot =>
    rintro s t d hd h
    refine OnlyTime.of_onDev (exec_xaStartDelayExpiry s t) rfl (if_neg ?_)
    rw [← hd, Bool.and_eq_true, Bool.and_eq_true, decide_eq_true_eq, Bool.not_eq_true']
    rintro ⟨⟨hboot, hmon⟩, hwait⟩
    rcases h with h | h | h
    · rw [hboot] at h; cases h
    · rw [hmon] at h; cases h
    · exact Nat.not_le.mpr h hwait
  case usable =>
    rintro s t d hd hmon hok hsafe hwait
    refine Runs.of_onDev (exec_xaUsable s t) rfl ?_
    rw [← hd, hmon, hok, decide_eq_false (Nat.not_lt.mpr hwait), if_neg (by decide)]
    exact Dev.xaReturns_movePhase hsafe rfl
  case usableNot =>
    rintro s t d hd h
    refine OnlyTime.of_onDev (exec_xaUsable s t) rfl (if_pos ?_)
    rw [← hd, Bool.or_eq_true, Bool.or_eq_true, decide_eq_true_eq, Bool.not_eq_true', or_assoc]
    exact h
  case edge =>
    rintro s t d hd hmon hf
    refine Runs.of_onDev (exec_xaEdgeTimeout s t) rfl ?_
    rw [← hd]
    exact Dev.xaFail_fails hmon hf
  case count =>
    rintro s t count d hd hmon hf hoff
    refine Runs.of_onDev (exec_xaCountCheck s t count) rfl ?_
    rw [← hd, if_pos hoff]
    exact Dev.xaFail_fails hmon hf
  case edgeNot =>
    rintro s t d hd h
    refine Runs.of_onDev (exec_xaEdgeTimeout s t) rfl ?_
    rw [← hd, Dev.xaFail_of_not h]
    exact ⟨rfl, keeps_clk [] d _ (by simp)⟩
  case countNot => exact fun s t count h => OnlyTime.of_onDev (exec_xaCountCheck s t count) rfl (if_neg (Nat.not_lt.mpr h))
  case pass =>
    rintro s t b x off xaOff xbOff d hd hm hok htol hpassed
    refine runs_xbWindow hd hm fun w hw => ?_
    rw [Dev.passCount_of_pass (Dev.passes_eq_true htol), Nat.min_eq_right (by omega)] at hw ⊢
    rw [Dev.judge_unqualified (hw.xbOk.trans hok) (by omega)]
    exact ⟨hw.shown, hw.keeps⟩
  case fourth =>
    rintro s t b x off xaOff xbOff d hd hm hok htol hpassed hsafe hfit
    refine runs_xbWindow hd hm fun w hw => ?_
    rw [Dev.passCount_of_pass (Dev.passes_eq_true htol), Nat.min_eq_left (by omega)] at hw ⊢
    rw [Dev.judge_fourth (hw.xbOk.trans hok)]
    exact hw.fourth hsafe hfit _ rfl
  case fail =>
    rintro s t b x off xaOff xbOff gap d hd hm hok hout
    refine runs_xbWindow hd hm fun w hw => ?_
    rw [Dev.passCount_of_fail (Dev.passes_eq_false hout)] at hw ⊢
    rw [Dev.judge_unqualified (hw.xbOk.trans hok) (by decide)]
    exact ⟨hw.shown, hw.xbOk.trans hok, hw.keeps⟩
  case unfitted =>
    rintro s t off xaOff xbOff gap d hd hwin h
    refine Runs.of_onDev (exec_xbWindow s t off gap xaOff xbOff) rfl ?_
    obtain ⟨hkeeps, hfields, hbasis, -, hclk⟩ := d.showBasis_shows
    have hstop : (!d.showBasis.flag F.CLK_XB_CFG_fitted || d.xbBasis.1 == 0) = true := by
      rw [hkeeps.flag 0 (by decide)]
      rcases h with h | h <;> simp [h]
    rw [← hd, if_neg (Nat.not_lt.mpr hwin), hstop, if_pos rfl]
    exact ⟨hfields _ rfl (by decide), hbasis.trans (Nat.mod_eq_of_lt d.xbBasis_lt), hclk, hkeeps⟩
  case fit =>
    rintro s t b x off xaOff xbOff d hd hm hok hsafe htol hfit
    refine runs_xbWindow hd hm fun w hw => ?_
    rw [Dev.passes_eq_true htol, Dev.judge_pass (hw.xbOk.trans hok)]
    exact hw.fits hok hsafe hfit _ rfl
  case first =>
    rintro s t b x off xaOff xbOff d hd hm hok hout hfirst
    refine runs_xbWindow hd hm fun w hw => ?_
    have hfail : d.passes off false = false := Dev.passes_eq_false (.inr hout)
    rw [Dev.passCount_of_fail hfail] at hw ⊢
    rw [hfail, Dev.judge_first (hw.xbOk.trans hok) (by rw [hw.clk]; exact hfirst)]
    exact hw.first hok _ rfl
  case second =>
    rintro s t b x off xaOff xbOff gap judged d hd hm hok hj hout
    refine runs_xbWindow hd hm fun w hw => ?_
    rw [Dev.passes_eq_false (hout.imp_right And.left)]
    change judged = d.judged at hj
    cases gap with
    | true =>
      have hgone : XbOut d w.xbDisqualify := (Dev.xbDisqualify_gone (hw.xbOk.trans hok)).out.after hw.keeps (by rw [hw.clk])
      have ⟨hxb, _, hdisq, _⟩ := hgone
      rw [Dev.judge_gap (hw.xbOk.trans hok)]
      exact ⟨fun _ => ⟨hxb, hdisq⟩, fun _ => hgone, fun h => Bool.noConfusion h, fun h => Bool.noConfusion h⟩
    | false =>
      rw [Dev.judge_second (hw.xbOk.trans hok) (by rw [hw.clk]; exact (hout.resolve_left (by decide)).2)]
      obtain ⟨hxb, hgone, hxa, hsame⟩ := Dev.xbBlame_shows (xaOff := xaOff) (xbOff := xbOff) hw hok
      rw [← hj] at hxb hgone hxa hsame
      exact ⟨fun h => hxb (h.resolve_left (by decide)), fun h => hgone (h.resolve_left (by decide)), fun _ => hxa, fun _ => hsame⟩
  case early => exact fun s t off xaOff xbOff gap h => OnlyTime.of_onDev (exec_xbWindow s t off gap xaOff xbOff) rfl (if_pos h)
  case gap =>
    rintro s t d hd hok
    refine Runs.of_onDev (exec_xbEdgeGap s t) rfl ?_
    rw [← hd]
    exact (Dev.xbDisqualify_gone hok).out
  case gapNot => exact fun s t h => OnlyTime.of_onDev (exec_xbEdgeGap s t) rfl (Dev.xbDisqualify_of_not h)

end Sys2Proof.Machine
end

section
/-! SUPPORT. Step 9's replay of the journal (R525, R526): its stages, and what its end leaves of them. -/

namespace Sys2Proof.Machine

/-! ### The stages of the replay -/

/-- REG entries are written. -/
def Dev.replayRegs (d : Dev) : Dev := d.each (d.shadowOf 5) fun d x => d.hwDefault x.1 (jRegVal.of x.2)

/-- OUTPUT entries are replayed. -/
def Dev.replayOutputs (d : Dev) : Dev := d.each (d.shadowOf 1) fun d x => d.restoreOutput x.1 x.2

/-- AUDIO entries are replayed. -/
def Dev.replayAudio (d : Dev) : Dev := d.each (d.shadowOf 2) fun d x => d.restoreAudio x.1 x.2

/-- The CCT bytes of INPUT entries are replayed. -/
def Dev.replayInputs (d : Dev) : Dev := d.each (d.shadowOf 3) fun d x => d.restoreInput x.1 x.2

/-- The entry that records a channel. -/
def Dev.channelEntry (d : Dev) (id : Nat) : List Byte :=
  (((d.shadowOf (if isSync id then 3 else 4)).find? fun x => x.1 == id).map (·.2)).getD []

/-- The channels of INPUT and CONV entries are opened. -/
def Dev.replayChannels (d : Dev) : Dev :=
  d.each ((d.shadowOf 3 ++ d.shadowOf 4).foldl (fun l x => setInsert x.1 l) []) fun e id => e.restoreChannel id (d.channelEntry id)

/-- The paths follow, and the journal's own notes stay as `d` has them (R525). -/
def Dev.replayEnds (e d : Dev) : Dev :=
  { e.pathsAnew with ldr := { e.ldr with jPend := d.ldr.jPend, jSince := d.ldr.jSince } }

theorem Dev.restoreAll_eq (d : Dev) :
    d.restoreAll = (d.replayRegs.replayOutputs.replayAudio.replayInputs.replayChannels).replayEnds d := by
  simp only [Dev.restoreAll, Dev.replayRegs, Dev.replayOutputs, Dev.replayAudio, Dev.replayInputs, Dev.replayChannels, Dev.replayEnds,
    Dev.channelEntry]

/-- Step 9 is over. -/
def Dev.restoreDone (d : Dev) : Dev := { (d.wr F.GLB_START_phase 3) with start := { d.start with shadow := [] } }

theorem exec_restore (s : State) (t : Nat) : exec (.restore t) s = onDev true t s fun d =>
    if d.rd F.GLB_START_phase != 2 || (d.plane .a).training || (d.plane .b).training then d
    else (if d.flag F.GLB_START_boothold then d else d.restoreAll).restoreDone := rfl

/-! ### A shadow of one entry -/

section
variable {d : Dev} {ty key : Nat} {bs : List Byte}

theorem Dev.shadowOf_self (h : d.start.shadow = [(ty, key, bs)]) : d.shadowOf ty = [(key, bs)] := by simp [Dev.shadowOf, h]

theorem Dev.shadowOf_other (h : d.start.shadow = [(ty, key, bs)]) {k : Nat} (hk : ty ≠ k) : d.shadowOf k = [] := by
  simp [Dev.shadowOf, h, hk]

end

theorem Dev.replayRegs_none {d : Dev} (h : d.shadowOf 5 = []) : d.replayRegs = d := by rw [Dev.replayRegs, h]; rfl

theorem Dev.replayOutputs_none {d : Dev} (h : d.shadowOf 1 = []) : d.replayOutputs = d := by rw [Dev.replayOutputs, h]; rfl

theorem Dev.replayAudio_none {d : Dev} (h : d.shadowOf 2 = []) : d.replayAudio = d := by rw [Dev.replayAudio, h]; rfl

theorem Dev.replayInputs_none {d : Dev} (h : d.shadowOf 3 = []) : d.replayInputs = d := by rw [Dev.replayInputs, h]; rfl

theorem Dev.replayChannels_none {d : Dev} (h : d.shadowOf 3 = []) (hc : d.shadowOf 4 = []) : d.replayChannels = d := by
  rw [Dev.replayChannels, h, hc]; rfl

/-! ### The end of the replay -/

/-- The paths change no entry. -/
structure PathsOnly (d e : Dev) : Prop where
  keeps : Keeps [.planes] [] d e
  entry : ∀ p a, (e.dest p a).now.entry = (d.dest p a).now.entry

theorem PathsOnly.refl (d : Dev) : PathsOnly d d := ⟨Keeps.refl _ _ d, fun _ _ => rfl⟩

theorem PathsOnly.trans {d e f : Dev} (h : PathsOnly d e) (k : PathsOnly e f) : PathsOnly d f :=
  ⟨h.keeps.trans k.keeps, fun p a => (k.entry p a).trans (h.entry p a)⟩

theorem PathsOnly.each {α : Type} (xs : List α) {f : Dev → α → Dev} (h : ∀ d x, PathsOnly d (f d x)) (d : Dev) :
    PathsOnly d (d.each xs f) := by
  unfold Dev.each
  induction xs generalizing d with
  | nil => exact PathsOnly.refl d
  | cons x xs ih => exact (h d x).trans (ih _)

theorem keeps_modDest (d : Dev) (p : Plane) (a : Nat) (f : Dest → Dest) : Keeps [.planes] [] d (d.modDest p a f) :=
  keeps_modPlane _ d p _ (by simp)

/-- A destination of one plane beside another, or of the other plane. -/
theorem Dev.dest_modDest_cases (d : Dev) (p q : Plane) (a x : Nat) (f : Dest → Dest) :
    (d.modDest p a f).dest q x = if q = p ∧ x = a then f (d.dest p a) else d.dest q x := by
  by_cases hq : q = p
  · subst hq
    by_cases hx : x = a
    · subst hx
      rw [Dev.dest_modDest_self, if_pos ⟨rfl, rfl⟩]
    · rw [Dev.dest_modDest_ne d q f hx, if_neg (by simp [hx])]
  · rw [if_neg (by simp [hq]), Dev.dest, Dev.dest, Dev.modDest, Dev.plane_modPlane_ne d _ hq]

theorem pathsOnly_setPath (d : Dev) (p : Plane) (a : Nat) {f : Dest → Dest} (h : ∀ x, (f x).now.entry = x.now.entry) :
    PathsOnly d (d.modDest p a f) := by
  refine ⟨keeps_modDest d p a f, fun q x => ?_⟩
  rw [Dev.dest_modDest_cases]
  split
  · next hx => rw [h, hx.1, hx.2]
  · rfl

theorem pathsOnly_pathsAnew (d : Dev) : PathsOnly d d.pathsAnew := by
  unfold Dev.pathsAnew
  refine PathsOnly.each _ (fun d p => PathsOnly.each _ (fun d a => ?_) d) d
  exact pathsOnly_setPath d p a fun _ => rfl

/-- Where the journal has only been noted, the end of the replay keeps the Larder unit of `d`. -/
def JournalOnly (d e : Dev) : Prop := e.ldr = { d.ldr with jPend := e.ldr.jPend, jSince := e.ldr.jSince }

/-- The replay from `d` has come to `e`, and step 9 to its end at `f`. -/
structure Replayed (d e f : Dev) : Prop where
  keeps : Keeps [.start, .planes, .ldr] [.GLB_START] e f
  ldr : f.ldr = d.ldr
  phase : f.rd F.GLB_START_phase = 3
  reg : f.reg .GLB_START 0 = F.GLB_START_phase.put (e.reg .GLB_START 0) 3
  start : f.start = { d.start with shadow := [] }
  entry : ∀ p a, (f.dest p a).now.entry = (e.dest p a).now.entry

/-- The end of step 9: the phase, and no shadow. -/
theorem Dev.restoreDone_shows (d : Dev) : Keeps [.start] [.GLB_START] d d.restoreDone
    ∧ d.restoreDone.rd F.GLB_START_phase = 3 ∧ d.restoreDone.reg .GLB_START 0 = F.GLB_START_phase.put (d.reg .GLB_START 0) 3
    ∧ d.restoreDone.start = { d.start with shadow := [] } :=
  ⟨(keeps_wr _ d _ _ (by decide)).trans (keeps_start _ _ _ (by simp)), d.rd_wr_fits F.GLB_START_phase 3 0 (by decide) (by decide),
    d.reg_wr_self F.GLB_START_phase 3 0, rfl⟩

theorem Replayed.of_ends {d e p f : Dev} (hstart : e.start = d.start) (hldr : JournalOnly d e) (hpaths : PathsOnly e p)
    (hf : f = { p with ldr := { e.ldr with jPend := d.ldr.jPend, jSince := d.ldr.jSince } }) : Replayed d e f.restoreDone := by
  obtain ⟨hkeeps, hphase, hreg, hshadow⟩ := f.restoreDone_shows
  have hl : Keeps [.ldr] [] p f := hf ▸ keeps_ldr [] p _ (by simp)
  have hef : Keeps [.planes, .ldr] [] e f := (hpaths.keeps.mono (by simp) (by simp)).trans (hl.mono (by simp) (by simp))
  have hflr : f.ldr = d.ldr := by
    unfold JournalOnly at hldr
    rw [hf, hldr]
  refine ⟨(hef.mono (by simp) (by simp)).trans (hkeeps.mono (by simp) (by simp)), (hkeeps.2.1 .ldr (by simp)).trans hflr, hphase,
    ?_, ?_, fun q a => ?_⟩
  · rw [hreg, hef.2.2 .GLB_START 0 (by simp)]
  · rw [hshadow, show f.start = d.start from (hef.2.1 .start (by simp)).trans hstart]
  · rw [← hpaths.entry q a, Dev.dest, Dev.dest, Dev.plane, Dev.plane, show f.restoreDone.planes = f.planes from hkeeps.2.1 .planes (by simp),
      show f.planes = p.planes from hl.2.1 .planes (by simp)]

theorem Dev.replayEnds_replayed {d e : Dev} (hstart : e.start = d.start) (hldr : JournalOnly d e) :
    Replayed d e (e.replayEnds d).restoreDone := .of_ends hstart hldr (pathsOnly_pathsAnew e) rfl

/-- Step 9 replays the journal. -/
theorem runs_restore {s : State} {t : Nat} {d e : Dev} {post : Dev → Prop} (hd : d = s.on t) (hr : Restores d)
    (he : d.replayRegs.replayOutputs.replayAudio.replayInputs.replayChannels = e) (hstart : e.start = d.start) (hldr : JournalOnly d e)
    (h : ∀ f, Replayed d e f → post f) : Runs (.restore t) s post := by
  obtain ⟨hphase, ha, hb, hboot⟩ := hr
  refine Runs.of_onDev (exec_restore s t) rfl ?_
  rw [← hd, hphase, ha, hb, if_neg (by decide), hboot, if_neg (by decide), Dev.restoreAll_eq, he]
  exact h _ (Dev.replayEnds_replayed hstart hldr)

end Sys2Proof.Machine
end

section
/-! SUPPORT. What the entries of the replay restore (R525, R526), and obligation O58. -/

namespace Sys2Proof.Machine

/-! ### OUTPUT entries -/

/-- The raster that an OUTPUT entry records. -/
def replayedRaster (e : List Byte) : Raster := { cls := jCls.of e, fmt := jFmt.of e, off := toInt 32 (jOff.of e) }

/-- The plane mode that it records; mode 3 is that of no class (R32). -/
def replayedMode (e : List Byte) : Nat := if jMode.of e = 3 then 0 else jMode.of e

/-- The route that it records, for plane `p`: Plane B's own converter of a mirrored output (R299). -/
def replayedRoute (e : List Byte) (p : Plane) : Route :=
  { kind := jKind.of e, src := jSrc.of e
    chan := if jKind.of e = 3 ∧ replayedMode e = 0 ∧ p = .b ∧ isConv (jChan.of e) then jChan.of e + 96 else jChan.of e }

/-- The output beside its routes. -/
def Dev.replayRaster (d : Dev) (o : Nat) (e : List Byte) : Dev :=
  d.modOut o fun x =>
    { x with raster := some (replayedRaster e)
             after := (replayedRaster e).lineAt (({ replayedRaster e with off := 0 } : Raster).frameFrom (d.epoch + 1)) 1
             mode := replayedMode e, preferred := Plane.ofId (jPref.of e), moveTo := false
             serving := if replayedMode e = 1 then .a else if replayedMode e = 2 then .b else Plane.ofId (jPref.of e)
             cct := jForm.of e, matchLine := jMatch.of e }

/-- The output's route on each of the planes `ps`. -/
def Dev.replayRoutes (d : Dev) (o : Nat) (e : List Byte) (ps : List Plane) : Dev :=
  d.each ps fun d p => d.modOp o p fun y => { y with active := replayedRoute e p }

/-- One more raster has been restored. -/
def Dev.countRestored (d : Dev) : Dev := d.wr F.GLB_READY_restored (d.rd F.GLB_READY_restored + 1)

theorem Dev.restoreOutput_fits {d : Dev} {o : Nat} {e : List Byte} (hf : jFmt.of e ≠ 0) (hon : d.clsOn (jCls.of e) = true)
    (hok : fmtOk (jFmt.of e) = true) (hfit : d.fmtFits (jFmt.of e) (jCls.of e) = true) :
    d.restoreOutput o e = ((d.replayRaster o e).replayRoutes o e (d.replayRaster o e).planesUp).countRestored := by
  simp only [Dev.restoreOutput, hf, hon, hok, hfit, Bool.and_self, Bool.not_true, Bool.false_eq_true, and_false, if_false,
    Option.isSome_some, if_true, Dev.replayRaster, Dev.replayRoutes, Dev.countRestored, replayedRaster, replayedMode, replayedRoute]
  rfl

theorem Dev.restoreOutput_unfit {d : Dev} (o : Nat) {e : List Byte} (hf : jFmt.of e ≠ 0)
    (h : d.clsOn (jCls.of e) = false ∨ fmtOk (jFmt.of e) = false ∨ d.fmtFits (jFmt.of e) (jCls.of e) = false) :
    d.restoreOutput o e = d := by
  unfold Dev.restoreOutput
  refine if_pos ⟨hf, ?_⟩
  rcases h with h | h | h <;> simp [h]

/-- Only output `o` changes, and of it only the routes on the planes `ps`. -/
structure RoutesOnly (o : Nat) (ps : List Plane) (r : Plane → Route) (d e : Dev) : Prop where
  keeps : Keeps [.outs] [] d e
  others : ∀ k, k ≠ o → e.out k = d.out k
  out : ∃ pl, e.out o = { d.out o with pl := pl }
  op : ∀ p, e.op o p = if p ∈ ps then { d.op o p with active := r p } else d.op o p

theorem Dev.replayRoutes_only (o : Nat) (e : List Byte) (ps : List Plane) (d : Dev) :
    RoutesOnly o ps (replayedRoute e) d (d.replayRoutes o e ps) := by
  unfold Dev.replayRoutes Dev.each
  induction ps generalizing d with
  | nil => exact ⟨Keeps.refl _ _ d, fun _ _ => rfl, ⟨_, rfl⟩, fun p => by simp⟩
  | cons q ps ih =>
    obtain ⟨hkeeps, hothers, ⟨pl, hout⟩, hop⟩ := ih (d.modOp o q fun y => { y with active := replayedRoute e q })
    refine ⟨(keeps_modOut [] d o _ (by simp)).trans hkeeps, fun k hk => (hothers k hk).trans (Dev.out_modOut_ne d _ hk),
      ⟨pl, hout.trans (by rw [Dev.modOp, Dev.out_modOut_self])⟩, fun p => (hop p).trans ?_⟩
    by_cases hp : p = q
    · subst hp
      rw [Dev.op_modOp_self]
      by_cases hm : p ∈ ps <;> simp [hm]
    · rw [Dev.op_modOp_plane d o _ hp]
      simp [hp]

/-- An output replayed: its raster, mode and routes, and the count. -/
structure OutputReplayed (d f : Dev) (o : Nat) (e : List Byte) : Prop where
  keeps : Keeps [.outs] [.GLB_READY] d f
  count : f.rd F.GLB_READY_restored = (d.rd F.GLB_READY_restored + 1) % 2048
  raster : (f.out o).raster = some (replayedRaster e)
  mode : (f.out o).mode = replayedMode e
  preferred : (f.out o).preferred = Plane.ofId (jPref.of e)
  cct : (f.out o).cct = jForm.of e
  matchLine : (f.out o).matchLine = jMatch.of e
  routes : ∀ p, d.inService p = true → (f.op o p).active = replayedRoute e p
  idle : ∀ p, d.inService p = false → f.op o p = d.op o p
  others : ∀ k, k ≠ o → f.out k = d.out k

theorem Dev.mem_planesUp (d : Dev) (p : Plane) : p ∈ d.planesUp ↔ d.inService p = true := by
  unfold Dev.planesUp
  cases p <;> simp

theorem Keeps.planesUp {as : List Area} {rs : List RegName} {d e : Dev} (h : Keeps as rs d e) (hr : RegName.PL_STATUS ∉ rs) :
    e.planesUp = d.planesUp := by
  have hin (p : Plane) : e.inService p = d.inService p := by
    rw [Dev.inService, Dev.inService, Dev.plState, Dev.plState, h.rd p.id hr]
  rw [Dev.planesUp, Dev.planesUp, funext hin]

theorem OutputReplayed.of_steps {d e₁ e₂ f : Dev} {o : Nat} {e : List Byte} (hr : e₁ = d.replayRaster o e)
    (hroutes : RoutesOnly o e₁.planesUp (replayedRoute e) e₁ e₂) (hf : f = e₂.countRestored) : OutputReplayed d f o e := by
  have hraster : Keeps [.outs] [] d e₁ := hr ▸ keeps_modOut [] d o _ (by simp)
  have hcount : Keeps [] [.GLB_READY] e₂ f := hf ▸ keeps_wr _ e₂ _ _ (by decide)
  have hout (k : Nat) : f.out k = e₂.out k := by rw [Dev.out, Dev.out, show f.outs = e₂.outs from hcount.2.1 .outs (by simp)]
  have hop (p : Plane) : f.op o p = e₂.op o p := by rw [Dev.op, Dev.op, hout]
  have hold (p : Plane) : e₁.op o p = d.op o p := by rw [hr, Dev.op, Dev.replayRaster, Dev.out_modOut_self]; rfl
  obtain ⟨pl, hpl⟩ := hroutes.out
  have hnew : f.out o = { (d.replayRaster o e).out o with pl := pl } := by rw [hout, hpl, hr]
  rw [Dev.replayRaster, Dev.out_modOut_self] at hnew
  have hkeeps : Keeps [.outs] [] d e₂ := hraster.trans hroutes.keeps
  refine ⟨(hkeeps.mono (by simp) (by simp)).trans (hcount.mono (by simp) (by simp)), ?_, by rw [hnew], by rw [hnew], by rw [hnew],
    by rw [hnew], by rw [hnew], fun p hp => ?_, fun p hp => ?_, fun k hk => ?_⟩
  · rw [hf, Dev.countRestored, Dev.rd_wr_self _ F.GLB_READY_restored _ 0 (by decide), hkeeps.rd 0 (by simp)]
    rfl
  · rw [hop, hroutes.op, if_pos ((hraster.planesUp (by simp)).symm ▸ (d.mem_planesUp p).mpr hp)]
  · rw [hop, hroutes.op, if_neg, hold]
    rw [hraster.planesUp (by simp), d.mem_planesUp, hp]
    decide
  · rw [hout, hroutes.others k hk, hr, Dev.replayRaster, Dev.out_modOut_ne d _ hk]

/-- An OUTPUT entry whose class runs its format. -/
theorem Dev.restoreOutput_replayed {d : Dev} {o : Nat} {e : List Byte} (hf : jFmt.of e ≠ 0) (hon : d.clsOn (jCls.of e) = true)
    (hok : fmtOk (jFmt.of e) = true) (hfit : d.fmtFits (jFmt.of e) (jCls.of e) = true) :
    OutputReplayed d (d.restoreOutput o e) o e := by
  rw [Dev.restoreOutput_fits hf hon hok hfit]
  exact .of_steps rfl (Dev.replayRoutes_only o e _ _) rfl

theorem replayedMode_of (e : List Byte) (h : jMode.of e = 1 ∨ jMode.of e = 2) : replayedMode e ≠ 0 := by
  unfold replayedMode
  rcases h with h | h <;> rw [h] <;> decide

/-- Where the route keeps the recorded channel. -/
theorem replayedRoute_chan {e : List Byte} {p : Plane}
    (h : jKind.of e ≠ 3 ∨ p = .a ∨ jMode.of e = 1 ∨ jMode.of e = 2 ∨ isConv (jChan.of e) = false) :
    (replayedRoute e p).chan = jChan.of e := by
  refine if_neg ?_
  rintro ⟨hkind, hmode, hp, hconv⟩
  rcases h with h | h | h | h | h
  · exact h hkind
  · rw [h] at hp; cases hp
  · exact replayedMode_of e (.inl h) hmode
  · exact replayedMode_of e (.inr h) hmode
  · rw [h] at hconv; cases hconv

/-- Where Plane B takes its own converter. -/
theorem replayedRoute_chan_b {e : List Byte} (hk : jKind.of e = 3) (hm : jMode.of e = 0) (hc : isConv (jChan.of e) = true) :
    (replayedRoute e .b).chan = jChan.of e + 96 := if_pos ⟨hk, by rw [replayedMode, hm]; decide, rfl, hc⟩

/-! ### AUDIO entries -/

/-- The entry of destination `j` of the four that an AUDIO entry records. -/
def replayedAudio (e : List Byte) (j : Nat) : AEntry :=
  { src := (jASrc j).of e, mute := (jAMute j).on e, invert := (jAInvert j).on e, gain := (jAGain j).of e, xfade := (jAXfade j).of e }

/-- One of the four destinations on one plane. -/
def Dev.replayDest (d : Dev) (p : Plane) (key : Nat) (e : List Byte) (j : Nat) : Dev :=
  d.modDest p (4 * key + j) fun x => { x with now := { x.now with entry := replayedAudio e j } }

/-- Those of `js` on one plane. -/
def Dev.replayDests (d : Dev) (p : Plane) (key : Nat) (e : List Byte) (js : List Nat) : Dev :=
  d.each js fun d j => d.replayDest p key e j

theorem Dev.restoreAudio_eq (d : Dev) (key : Nat) (e : List Byte) :
    d.restoreAudio key e = d.each d.planesUp fun d p => d.replayDests p key e (List.range 4) := rfl

/-- Destination `a` is among those of `js`. -/
def destAmong (key : Nat) (js : List Nat) (a : Nat) : Prop := ∃ j ∈ js, a = 4 * key + j

/-- Of the audio destinations those of `js` on the planes `ps` take their entries, and no other one changes its entry. -/
structure DestsOnly (ps : List Plane) (key : Nat) (e : List Byte) (js : List Nat) (d f : Dev) : Prop where
  keeps : Keeps [.planes] [] d f
  takes : ∀ p a, p ∈ ps → destAmong key js a → (f.dest p a).now.entry = replayedAudio e (a - 4 * key)
  others : ∀ p a, p ∉ ps ∨ ¬destAmong key js a → (f.dest p a).now.entry = (d.dest p a).now.entry

/-- One destination takes its entry. -/
theorem Dev.entry_replayDest (d : Dev) (p q : Plane) (key j a : Nat) (e : List Byte) :
    ((d.replayDest p key e j).dest q a).now.entry =
      if q = p ∧ a = 4 * key + j then replayedAudio e j else (d.dest q a).now.entry := by
  rw [Dev.replayDest, Dev.dest_modDest_cases]
  split <;> rfl

theorem Dev.replayDests_only (p : Plane) (key : Nat) (e : List Byte) (js : List Nat) (d : Dev) :
    DestsOnly [p] key e js d (d.replayDests p key e js) := by
  induction js generalizing d with
  | nil => exact ⟨Keeps.refl _ _ d, fun _ _ _ ⟨j, hj, _⟩ => by simp at hj, fun _ _ _ => rfl⟩
  | cons j js ih =>
    obtain ⟨hkeeps, htakes, hothers⟩ := ih (d.replayDest p key e j)
    rw [show d.replayDests p key e (j :: js) = (d.replayDest p key e j).replayDests p key e js from rfl]
    have hone : Keeps [.planes] [] d (d.replayDest p key e j) := keeps_modDest d p _ _
    refine ⟨hone.trans hkeeps, fun q a hq ha => ?_, fun q a h => ?_⟩
    · by_cases hrest : destAmong key js a
      · exact htakes q a hq hrest
      · obtain ⟨k, hk, rfl⟩ := ha
        have hkj : k = j := (List.mem_cons.mp hk).resolve_right fun hm => hrest ⟨k, hm, rfl⟩
        subst hkj
        refine (hothers q _ (.inr hrest)).trans ?_
        rw [Dev.entry_replayDest, if_pos ⟨List.mem_singleton.mp hq, rfl⟩, Nat.add_sub_cancel_left]
    · have hrest : q ∉ [p] ∨ ¬destAmong key js a := h.imp_right fun hn ⟨k, hk, ha⟩ => hn ⟨k, List.mem_cons_of_mem j hk, ha⟩
      refine (hothers q a hrest).trans ?_
      rw [Dev.entry_replayDest, if_neg]
      rintro ⟨hq, ha⟩
      exact h.elim (fun hn => hn (List.mem_singleton.mpr hq)) fun hn => hn ⟨j, List.mem_cons_self, ha⟩

theorem DestsOnly.cons {p : Plane} {ps : List Plane} {key : Nat} {e : List Byte} {js : List Nat} {d f g : Dev}
    (h : DestsOnly [p] key e js d f) (k : DestsOnly ps key e js f g) : DestsOnly (p :: ps) key e js d g := by
  refine ⟨h.keeps.trans k.keeps, fun q a hq ha => ?_, fun q a hno => ?_⟩
  · by_cases hps : q ∈ ps
    · exact k.takes q a hps ha
    · refine (k.others q a (.inl hps)).trans (h.takes q a ?_ ha)
      exact List.mem_singleton.mpr ((List.mem_cons.mp hq).resolve_right hps)
  · have hps : q ∉ ps ∨ ¬destAmong key js a := hno.imp_left fun hn hm => hn (List.mem_cons_of_mem p hm)
    have hp : q ∉ [p] ∨ ¬destAmong key js a := hno.imp_left fun hn hm => hn (List.mem_cons.mpr (.inl (List.mem_singleton.mp hm)))
    exact (k.others q a hps).trans (h.others q a hp)

theorem Dev.replayPlanes_only (key : Nat) (e : List Byte) (js : List Nat) (ps : List Plane) (d : Dev) :
    DestsOnly ps key e js d (d.each ps fun d p => d.replayDests p key e js) := by
  unfold Dev.each
  induction ps generalizing d with
  | nil => exact ⟨Keeps.refl _ _ d, fun _ _ h => by simp at h, fun _ _ _ => rfl⟩
  | cons p ps ih => exact (d.replayDests_only p key e js).cons (ih _)

theorem Dev.restoreAudio_only (d : Dev) (key : Nat) (e : List Byte) :
    DestsOnly d.planesUp key e (List.range 4) d (d.restoreAudio key e) := by
  rw [Dev.restoreAudio_eq]
  exact Dev.replayPlanes_only key e _ _ d

/-! ### REG entries -/

theorem Dev.noteReg_ldr (d old : Dev) (r : RegName) (i : Nat) : JournalOnly d (d.noteReg old r i) := by
  unfold JournalOnly Dev.noteReg Dev.noteJournal
  split
  · split <;> rfl
  · rfl

theorem JournalOnly.of_ldr {d e : Dev} (h : e.ldr = d.ldr) : JournalOnly d e := by rw [JournalOnly, h]

/-- A register entry replayed. -/
theorem Dev.hwDefault_replayed {d : Dev} {off i : Nat} {r : RegName} (v : Nat) (hat : regAt off = some (r, i)) (hi : i < 65536)
    (hhw : r.hwReset = true) (hr : r ∉ commandRegs) :
    (d.hwDefault off v).reg r i = r.written (d.lockedAt (regOff r i)) (d.reg r i) (BitVec.ofNat 32 v) (d.newBits r i)
    ∧ KeepsOthers r i d (d.hwDefault off v) ∧ Keeps [.ldr] [r] d (d.hwDefault off v) ∧ JournalOnly d (d.hwDefault off v) := by
  have heq : d.hwDefault off v = (d.writeBits r i (BitVec.ofNat 32 v)).noteReg d r i := by
    rw [Dev.hwDefault, hat]
    dsimp only
    rw [if_pos hhw, Dev.writeReg_plain _ _ _ _ hr]
  have hbits : Keeps [] [r] d (d.writeBits r i (BitVec.ofNat 32 v)) := keeps_writeBits _ d i _ (by simp)
  have hjournal := (d.writeBits r i (BitVec.ofNat 32 v)).noteReg_ldr d r i
  rw [heq]
  refine ⟨by simp, fun j hj hne => ?_, (hbits.mono (by simp) (by simp)).trans (keeps_noteReg _ _ _ r i (by simp)), ?_⟩
  · rw [Dev.reg_noteReg]
    exact keepsOthers_writeBits d r _ hi j hj hne
  · unfold JournalOnly at hjournal ⊢
    rw [hjournal, show (d.writeBits r i (BitVec.ofNat 32 v)).ldr = d.ldr from hbits.2.1 .ldr (by simp)]

theorem Dev.hwDefault_none {d : Dev} {off i : Nat} {r : RegName} (v : Nat) (hat : regAt off = some (r, i)) (hhw : r.hwReset = false) :
    d.hwDefault off v = d := by
  rw [Dev.hwDefault, hat]
  dsimp only
  rw [if_neg (by simp [hhw])]

end Sys2Proof.Machine
end

section
/-! SUPPORT. Obligation O58: restore and readiness (R90, R94, R524 to R528). -/

namespace Sys2Proof.Machine

/-! ### READY and the grace period (R90, R94, R524, R528) -/

/-- READY or HELD shows, and the grace period opens. -/
def Dev.markReady (d : Dev) : Dev :=
  let e := (d.wr F.GLB_READY_ms ((d.now - d.start.t0) / msU)).wr F.GLB_START_phase (if d.flag F.GLB_START_boothold then 5 else 4)
  { (e.raise F.TB_STATUS_grace_open) with start := { e.start with readyAt := e.now } }

theorem exec_ready (s : State) (t : Nat) : exec (.ready t) s = onDev true t s fun d =>
    if d.rd F.GLB_START_phase != 3 || d.outs.any (fun x => x.2.raster.isSome && decide (d.epoch < x.2.after)) then d
    else (if d.flag F.GLB_START_boothold then d.markReady.occur evStart 0x85
      else d.markReady.occur evStart 0x84 (d.rd F.GLB_READY_restored)).deliverAll := rfl

/-- What READY shows. -/
structure Ready (d e : Dev) : Prop where
  keeps : Keeps [.start] [.GLB_START, .GLB_READY, .TB_STATUS] d e
  phase : e.rd F.GLB_START_phase = if d.flag F.GLB_START_boothold then 5 else 4
  ms : e.rd F.GLB_READY_ms = (d.now - d.start.t0) / msU % 65536
  grace : e.flag F.TB_STATUS_grace_open = true
  start : e.start = { d.start with readyAt := d.now }

theorem Ready.of_steps {d e f g h : Dev} {n : Nat} (he : e = d.wr F.GLB_READY_ms n) (hn : n = (d.now - d.start.t0) / msU)
    (hf : f = e.wr F.GLB_START_phase (if d.flag F.GLB_START_boothold then 5 else 4)) (hg : g = f.raise F.TB_STATUS_grace_open)
    (hh : h = { g with start := { f.start with readyAt := f.now } }) : Ready d h := by
  have hms : Keeps [] [.GLB_READY] d e := he ▸ keeps_wr _ d _ _ (by decide)
  have hphase : Keeps [] [.GLB_START] e f := hf ▸ keeps_wr _ e _ _ (by decide)
  have hgrace : Keeps [] [.TB_STATUS] f g := hg ▸ keeps_raise _ f _ (by decide)
  have hstart : Keeps [.start] [] g h := hh ▸ keeps_start _ g _ (by simp)
  have hdf : Keeps [] [.GLB_START, .GLB_READY] d f := (hms.mono (by simp) (by simp)).trans (hphase.mono (by simp) (by simp))
  have hfh : Keeps [.start] [.TB_STATUS] f h := (hgrace.mono (by simp) (by simp)).trans (hstart.mono (by simp) (by simp))
  refine ⟨(hdf.mono (by simp) (by simp)).trans (hfh.mono (by simp) (by simp)), ?_, ?_, ?_, ?_⟩
  · rw [hfh.rd 0 (by decide), hf, Dev.rd_wr_fits e F.GLB_START_phase _ 0 (by decide) (by split <;> decide)]
  · rw [hfh.rd 0 (by decide), hphase.rd 0 (by decide), he, Dev.rd_wr_self d F.GLB_READY_ms n 0 (by decide), ← hn]
    rfl
  · rw [hstart.flag 0 (by simp), hg, Dev.flag_raise_self f F.TB_STATUS_grace_open 0 (by decide) rfl]
  · rw [hh, hdf.1, show f.start = d.start from hdf.2.1 .start (by simp)]

theorem Dev.markReady_ready (d : Dev) : Ready d d.markReady := .of_steps rfl rfl rfl rfl rfl

/-- READY or HELD is reported, and what waited for it is delivered. -/
theorem Ready.delivered {d e f g : Dev} (h : Ready d e) (hev : EvOnly e f) (hdel : Keeps [.svr, .order, .ports] [] f g) :
    g.rd F.GLB_START_phase = (if d.flag F.GLB_START_boothold then 5 else 4)
      ∧ g.rd F.GLB_READY_ms = (d.now - d.start.t0) / msU % 65536 ∧ g.flag F.TB_STATUS_grace_open = true
      ∧ g.start = { d.start with readyAt := d.now }
      ∧ Keeps (.start :: .svr :: .order :: evAreas) (.GLB_START :: .GLB_READY :: .TB_STATUS :: evRegs) d g := by
  have heg : Keeps (.svr :: .order :: evAreas) evRegs e g := (hev.mono (by simp) (List.Subset.refl _)).trans (hdel.mono (by decide) (by simp))
  refine ⟨?_, ?_, ?_, ?_, ?_⟩
  · rw [heg.rd 0 (by decide), h.phase]
  · rw [heg.rd 0 (by decide), h.ms]
  · rw [heg.flag 0 (by decide), h.grace]
  · rw [show g.start = e.start from heg.2.1 .start (by decide), h.start]
  · exact (h.keeps.mono (by simp) (by decide)).trans (heg.mono (by decide) (by decide))

theorem Dev.ready_delivered (d : Dev) {g : Dev} (hg : g = (if d.flag F.GLB_START_boothold then d.markReady.occur evStart 0x85
      else d.markReady.occur evStart 0x84 (d.rd F.GLB_READY_restored)).deliverAll) :
    g.rd F.GLB_START_phase = (if d.flag F.GLB_START_boothold then 5 else 4)
      ∧ g.rd F.GLB_READY_ms = (d.now - d.start.t0) / msU % 65536 ∧ g.flag F.TB_STATUS_grace_open = true
      ∧ g.start = { d.start with readyAt := d.now }
      ∧ Keeps (.start :: .svr :: .order :: evAreas) (.GLB_START :: .GLB_READY :: .TB_STATUS :: evRegs) d g := by
  rw [hg]
  exact d.markReady_ready.delivered (Keeps.ite (fun _ => evOnly_occur _ _ _ _ _ _ _) fun _ => evOnly_occur _ _ _ _ _ _ _)
    (delivers_deliverAll _).keeps

theorem exec_graceClosed (s : State) (t : Nat) : exec (.graceClosed t) s = onDev true t s fun d =>
    if d.flag F.TB_STATUS_grace_open && decide (d.start.readyAt + 30 * secU ≤ d.now) then
      { (d.put F.TB_STATUS_grace_open false).occur evStart 0x86 with tim := { d.tim with jumpOpen := false } }
    else d := rfl

/-- The grace period closes, and with it the start jump. -/
theorem graceClosed_shows {d e f g : Dev} (he : e = d.put F.TB_STATUS_grace_open false) (hev : EvOnly e f)
    (hg : g = { f with tim := { d.tim with jumpOpen := false } }) :
    g.reg .TB_STATUS 0 = F.TB_STATUS_grace_open.put (d.reg .TB_STATUS 0) 0 ∧ g.tim = { d.tim with jumpOpen := false }
      ∧ Keeps (.tim :: evAreas) (.TB_STATUS :: evRegs) d g := by
  have hput : Keeps [] [.TB_STATUS] d e := he ▸ keeps_put _ d _ _ (by decide)
  have htim : Keeps [.tim] [] f g := hg ▸ keeps_tim _ f _ (by simp)
  refine ⟨?_, by rw [hg], ?_⟩
  · rw [htim.2.2 .TB_STATUS 0 (by simp), hev.2.2 .TB_STATUS 0 (by decide), he]
    exact d.reg_wr_self F.TB_STATUS_grace_open 0 0
  · exact ((hput.mono (by simp) (by simp)).trans (hev.mono (by simp) (by simp))).trans (htim.mono (by simp) (by simp))

/-! ### The replay's entries, to the end of step 9 -/

/-- A part that stands need not be named. -/
theorem Keeps.without_ldr {as : List Area} {rs : List RegName} {d e : Dev} (h : Keeps (.ldr :: as) rs d e) (hl : e.ldr = d.ldr) :
    Keeps as rs d e := by
  refine ⟨h.1, fun a ha => ?_, h.2.2⟩
  by_cases hal : a = .ldr
  · rw [hal]; exact hl
  · exact h.2.1 a (by simp [hal, ha])

/-- What the replay changed, with the end of step 9, is all that changed. -/
theorem Replayed.keeps_from {as : List Area} {rs : List RegName} {d e f : Dev} (h : Replayed d e f) (hk : Keeps (.ldr :: as) rs d e) :
    Keeps (.start :: .planes :: as) (.GLB_START :: rs) d f := by
  refine Keeps.without_ldr ?_ h.ldr
  refine (hk.mono ?_ (by simp)).trans (h.keeps.mono (by simp) (by simp))
  exact List.cons_subset_cons _ fun a ha => by simp [ha]

section
variable {d : Dev} {key : Nat} {e : List Byte}

/-- A shadow of one OUTPUT entry. -/
theorem Dev.replay_output (hs : d.start.shadow = [(1, key, e)]) {f : Dev} (hf : d.restoreOutput key e = f) (hstart : f.start = d.start) :
    d.replayRegs.replayOutputs.replayAudio.replayInputs.replayChannels = f := by
  have hfs : f.start.shadow = [(1, key, e)] := by rw [hstart, hs]
  have hout : d.replayOutputs = f := by
    rw [Dev.replayOutputs, Dev.shadowOf_self hs]
    exact hf
  rw [Dev.replayRegs_none (Dev.shadowOf_other hs (by decide)), hout, Dev.replayAudio_none (Dev.shadowOf_other hfs (by decide)),
    Dev.replayInputs_none (Dev.shadowOf_other hfs (by decide)),
    Dev.replayChannels_none (Dev.shadowOf_other hfs (by decide)) (Dev.shadowOf_other hfs (by decide))]

/-- A shadow of one AUDIO entry. -/
theorem Dev.replay_audio (hs : d.start.shadow = [(2, key, e)]) {f : Dev} (hf : d.restoreAudio key e = f) (hstart : f.start = d.start) :
    d.replayRegs.replayOutputs.replayAudio.replayInputs.replayChannels = f := by
  have hfs : f.start.shadow = [(2, key, e)] := by rw [hstart, hs]
  have hout : d.replayAudio = f := by
    rw [Dev.replayAudio, Dev.shadowOf_self hs]
    exact hf
  rw [Dev.replayRegs_none (Dev.shadowOf_other hs (by decide)), Dev.replayOutputs_none (Dev.shadowOf_other hs (by decide)), hout,
    Dev.replayInputs_none (Dev.shadowOf_other hfs (by decide)),
    Dev.replayChannels_none (Dev.shadowOf_other hfs (by decide)) (Dev.shadowOf_other hfs (by decide))]

/-- A shadow of one REG entry. -/
theorem Dev.replay_reg (hs : d.start.shadow = [(5, key, e)]) {f : Dev} (hf : d.hwDefault key (jRegVal.of e) = f)
    (hstart : f.start = d.start) : d.replayRegs.replayOutputs.replayAudio.replayInputs.replayChannels = f := by
  have hfs : f.start.shadow = [(5, key, e)] := by rw [hstart, hs]
  have hout : d.replayRegs = f := by
    rw [Dev.replayRegs, Dev.shadowOf_self hs]
    exact hf
  rw [hout, Dev.replayOutputs_none (Dev.shadowOf_other hfs (by decide)), Dev.replayAudio_none (Dev.shadowOf_other hfs (by decide)),
    Dev.replayInputs_none (Dev.shadowOf_other hfs (by decide)),
    Dev.replayChannels_none (Dev.shadowOf_other hfs (by decide)) (Dev.shadowOf_other hfs (by decide))]

end

/-- Settles O58: each kind of entry by its replay, READY and the grace period by their own lemmas. -/
theorem readiness : Obligations.Readiness := by
  refine ⟨?held, ?notYet, ?output, ?unfit, ?audio, ?reg, ?regNot, ?ready, ?readyNot, ?grace, ?graceNot⟩
  case held =>
    rintro s t d hd hphase ha hb hboot
    refine Runs.of_onDev (exec_restore s t) rfl ?_
    rw [← hd, hphase, ha, hb, if_neg (by decide), hboot, if_pos rfl]
    obtain ⟨hkeeps, -, hreg, hstart⟩ := d.restoreDone_shows
    exact ⟨hreg, hstart, hkeeps⟩
  case notYet =>
    rintro s t d hd h
    refine OnlyTime.of_onDev (exec_restore s t) rfl (if_pos ?_)
    rw [← hd, Bool.or_eq_true, Bool.or_eq_true, bne_iff_ne, or_assoc]
    exact h
  case output =>
    rintro s t o e d hd hr hs hf hon hok hfit hcount
    have hrep := Dev.restoreOutput_replayed (o := o) hf hon hok hfit
    generalize hx : d.restoreOutput o e = x at hrep
    have hstart : x.start = d.start := hrep.keeps.2.1 .start (by simp)
    refine runs_restore hd hr (Dev.replay_output hs hx hstart) hstart (.of_ldr (hrep.keeps.2.1 .ldr (by simp))) fun f hdone => ?_
    have hout (k : Nat) : f.out k = x.out k := by rw [Dev.out, Dev.out, show f.outs = x.outs from hdone.keeps.2.1 .outs (by simp)]
    have hop (p : Plane) : f.op o p = x.op o p := by rw [Dev.op, Dev.op, hout]
    refine ⟨hdone.phase, ?_, by rw [hout, hrep.raster]; rfl, by rw [hout, hrep.mode]; rfl, by rw [hout, hrep.preferred],
      by rw [hout, hrep.cct], by rw [hout, hrep.matchLine], fun p hp => ?_, fun p hp => by rw [hop, hrep.idle p hp],
      fun k hk => by rw [hout, hrep.others k hk], ?_⟩
    · rw [hdone.keeps.rd 0 (by decide), hrep.count, Nat.mod_eq_of_lt (by omega)]
    · rw [hop, hrep.routes p hp]
      exact ⟨rfl, rfl, replayedRoute_chan, fun hk hb hm hc => by rw [hb]; exact replayedRoute_chan_b hk hm hc⟩
    · exact hdone.keeps_from (hrep.keeps.mono (by simp) (List.Subset.refl _))
  case unfit =>
    rintro s t o e d hd hr hs hf h
    refine runs_restore hd hr (Dev.replay_output hs (d.restoreOutput_unfit o hf h) rfl) rfl (.of_ldr rfl) fun f hdone => ?_
    exact ⟨hdone.phase, hdone.keeps.2.1 .outs (by simp), hdone.start, hdone.keeps_from (Keeps.refl _ _ d)⟩
  case audio =>
    rintro s t key e d hd hr hs
    have hrep := d.restoreAudio_only key e
    generalize hx : d.restoreAudio key e = x at hrep
    have hstart : x.start = d.start := hrep.keeps.2.1 .start (by simp)
    refine runs_restore hd hr (Dev.replay_audio hs hx hstart) hstart (.of_ldr (hrep.keeps.2.1 .ldr (by simp))) fun f hdone => ?_
    refine ⟨fun p hp j hj => ?_, fun p j _ hj => ?_, hdone.phase, ?_⟩
    · rw [hdone.entry, hrep.takes p _ ((d.mem_planesUp p).mpr hp) ⟨j, List.mem_range.mpr hj, rfl⟩, Nat.add_sub_cancel_left]
      rfl
    · rw [hdone.entry, hrep.others p j (.inr ?_)]
      rintro ⟨k, hk, rfl⟩
      have := List.mem_range.mp hk
      omega
    · exact (hdone.keeps_from (as := [.planes]) (hrep.keeps.mono (by simp) (List.Subset.refl _))).mono (by simp) (by simp)
  case reg =>
    rintro s t off i r e d hd hr hs hat hi hhw hcmd
    obtain ⟨hreg, hothers, hkeeps, hjournal⟩ := Dev.hwDefault_replayed (d := d) (jRegVal.of e) hat hi hhw hcmd
    generalize hx : d.hwDefault off (jRegVal.of e) = x at hreg hothers hkeeps hjournal
    have hstart : x.start = d.start := hkeeps.2.1 .start (by simp)
    have hne : r ≠ .GLB_START := by rintro rfl; simp [RegName.hwReset] at hhw
    refine runs_restore hd hr (Dev.replay_reg hs hx hstart) hstart hjournal fun f hdone => ?_
    refine ⟨by rw [hdone.keeps.2.2 r i (by simpa using hne), hreg], hdone.phase, fun j hj hji => ?_, ?_⟩
    · rw [hdone.keeps.2.2 r j (by simpa using hne), hothers j hj hji]
    · exact (hdone.keeps_from (as := []) hkeeps).mono (List.Subset.refl _) (by simp)
  case regNot =>
    rintro s t off i r e d hd hr hs hat hhw
    refine runs_restore hd hr (Dev.replay_reg hs (Dev.hwDefault_none _ hat hhw) rfl) rfl (.of_ldr rfl) fun f hdone => ?_
    exact ⟨hdone.reg, hdone.keeps_from (Keeps.refl _ _ d)⟩
  case ready =>
    rintro s t d hd hphase hafter
    refine Runs.of_onDev (exec_ready s t) rfl ?_
    have hany : d.outs.any (fun x => x.2.raster.isSome && decide (d.epoch < x.2.after)) = false := by
      rw [List.any_eq_false]
      intro x hx h
      rw [Bool.and_eq_true, decide_eq_true_eq] at h
      exact Nat.not_le.mpr h.2 (hafter x hx h.1)
    rw [← hd, hphase, hany, if_neg (by decide)]
    exact d.ready_delivered rfl
  case readyNot =>
    rintro s t d hd h
    refine OnlyTime.of_onDev (exec_ready s t) rfl (if_pos ?_)
    rw [← hd, Bool.or_eq_true, bne_iff_ne]
    exact h
  case grace =>
    rintro s t d hd hopen hwait
    refine Runs.of_onDev (exec_graceClosed s t) rfl ?_
    rw [← hd, hopen, decide_eq_true hwait, if_pos (by decide)]
    exact graceClosed_shows rfl (evOnly_occur _ _ _ _ _ _ _) rfl
  case graceNot =>
    rintro s t d hd h
    refine OnlyTime.of_onDev (exec_graceClosed s t) rfl (if_neg ?_)
    rw [← hd, Bool.and_eq_true, decide_eq_true_eq]
    rintro ⟨hopen, hwait⟩
    rcases h with h | h
    · rw [hopen] at h; cases h
    · exact Nat.not_le.mpr h hwait

end Sys2Proof.Machine
end

section
/-! SUPPORT. Updates of one lane pair: what they leave of the other pairs, and how the fields of its registers read after each. -/

namespace Sys2Proof.Machine

/-! ### Fields after an update

The lemmas with proof `(rfl)` are kept from being used as definitional equalities: the kernel would unfold long chains of updates. -/

/-- Fields of two registers, or fields of one without a bit in common. -/
abbrev Field.Sep (f g : Field) : Prop := g.reg ≠ f.reg ∨ f.Apart g

/-- A field reads as before where no bit of it is written. -/
@[simp] theorem Dev.rd_wr_sep (d : Dev) (f g : Field) (v i : Nat) (h : f.lo + f.width ≤ 32) (hs : f.Sep g) :
    (d.wr f v i).rd g i = d.rd g i := by
  by_cases hr : g.reg = f.reg
  · exact d.rd_wr_field f g v i hr h (hs.resolve_left fun hne => hne hr)
  · exact d.rd_wr_name f g v i i hr

@[simp] theorem Dev.rd_put_sep (d : Dev) (f g : Field) (b : Bool) (i : Nat) (h : f.lo + f.width ≤ 32) (hs : f.Sep g) :
    (d.put f b i).rd g i = d.rd g i := d.rd_wr_sep f g _ i h hs

@[simp] theorem Dev.rd_bump_sep (d : Dev) (f g : Field) (i n : Nat) (h : f.lo + f.width ≤ 32) (hs : f.Sep g) :
    (d.bump f i n).rd g i = d.rd g i := d.rd_wr_sep f g _ i h hs

@[simp] theorem Dev.rd_modLane (d : Dev) (n : Nat) (f : Lane → Lane) (g : Field) (i : Nat) : (d.modLane n f).rd g i = d.rd g i := (rfl)

@[simp] theorem Dev.rd_emit (d : Dev) (x : Emission) (g : Field) (i : Nat) : (d.emit x).rd g i = d.rd g i := (rfl)

@[simp] theorem Dev.rd_when (d : Dev) (b : Bool) (f : Dev → Dev) (g : Field) (i : Nat) :
    (d.when b f).rd g i = if b then (f d).rd g i else d.rd g i := by cases b <;> rfl

/-- A field of another register reads as before. -/
@[simp] theorem Dev.rd_setReg_name (d : Dev) (r : RegName) (w : Word) (g : Field) (i j : Nat) (h : g.reg ≠ r) :
    (d.setReg r i w).rd g j = d.rd g j := by rw [Dev.rd, Dev.reg_setReg_name d w i j h, Dev.rd]

/-- A flag of width 1 is set where its bit is. -/
theorem Dev.rd_of_flag {d : Dev} {f : Field} {i : Nat} (hw : f.width = 1) : d.rd f i = b2n (d.flag f i) := by
  have := d.rd_lt f i
  rw [hw] at this
  obtain h | h : d.rd f i = 0 ∨ d.rd f i = 1 := by omega
  all_goals simp [Dev.flag, h, b2n]

@[simp] theorem Dev.flag_wr_sep (d : Dev) (f g : Field) (v i : Nat) (h : f.lo + f.width ≤ 32) (hs : f.Sep g) :
    (d.wr f v i).flag g i = d.flag g i := by rw [Dev.flag, d.rd_wr_sep f g v i h hs, Dev.flag]

@[simp] theorem Dev.flag_put_sep (d : Dev) (f g : Field) (b : Bool) (i : Nat) (h : f.lo + f.width ≤ 32) (hs : f.Sep g) :
    (d.put f b i).flag g i = d.flag g i := d.flag_wr_sep f g _ i h hs

@[simp] theorem Dev.flag_raise_sep (d : Dev) (f g : Field) (i : Nat) (h : f.lo + f.width ≤ 32) (hs : f.Sep g) :
    (d.raise f i).flag g i = d.flag g i := by rw [Dev.flag, Dev.rd_raise, d.rd_wr_sep f g 1 i h hs, Dev.flag]

@[simp] theorem Dev.flag_modLane (d : Dev) (n : Nat) (f : Lane → Lane) (g : Field) (i : Nat) :
    (d.modLane n f).flag g i = d.flag g i := (rfl)

@[simp] theorem Dev.flag_emit (d : Dev) (x : Emission) (g : Field) (i : Nat) : (d.emit x).flag g i = d.flag g i := (rfl)

@[simp] theorem Dev.flag_when (d : Dev) (b : Bool) (f : Dev → Dev) (g : Field) (i : Nat) :
    (d.when b f).flag g i = if b then (f d).flag g i else d.flag g i := by cases b <;> rfl

theorem Dev.reg_emit (d : Dev) (x : Emission) (r : RegName) (i : Nat) : (d.emit x).reg r i = d.reg r i := rfl

/-- A field written with the value it holds leaves its register. -/
theorem Field.put_get (f : Field) (w : Word) : f.put w (f.get w) = w := by
  have hle : f.get w * 2 ^ f.lo ≤ w.toNat := by
    rw [Field.get, Nat.shiftRight_eq_div_pow]
    exact (Nat.mul_le_mul_right _ (Nat.mod_le _ _)).trans (Nat.div_mul_le_self _ _)
  rw [Field.put, Nat.mod_eq_of_lt (f.get_lt w), Nat.sub_add_cancel hle, BitVec.ofNat_toNat, BitVec.setWidth_eq]

/-- A register written with the word it holds leaves every register. -/
theorem Dev.reg_setReg_same (d : Dev) (r q : RegName) (i j : Nat) (h : r.reset = fun _ => r.resetBase) :
    (d.setReg r i (d.reg r i)).reg q j = d.reg q j := by
  by_cases hk : q.key j = r.key i
  · have hq : q = r := by
      by_contra hne
      exact RegName.key_ne_name j i hne hk
    subst hq
    have hsame : d.reg q j = d.reg q i := by rw [Dev.reg, Dev.reg, hk, h]
    rw [Dev.reg, hk, hsame, Dev.setReg, h, Tbl.get_set_self]
  · exact Tbl.get_set_ne _ _ d.regs _ hk

theorem Dev.reg_wr_same (d : Dev) (f : Field) (i : Nat) (q : RegName) (j : Nat) (h : f.reg.reset = fun _ => f.reg.resetBase) :
    (d.wr f (d.rd f i) i).reg q j = d.reg q j := by
  rw [Dev.wr, Dev.rd, Field.put_get]
  exact d.reg_setReg_same f.reg q i j h

/-! ### The lane's own state and what leaves -/

@[simp] theorem Dev.lane_wr (d : Dev) (f : Field) (v i m : Nat) : (d.wr f v i).lane m = d.lane m := (rfl)
@[simp] theorem Dev.lane_put (d : Dev) (f : Field) (b : Bool) (i m : Nat) : (d.put f b i).lane m = d.lane m := (rfl)
@[simp] theorem Dev.lane_bump (d : Dev) (f : Field) (i n m : Nat) : (d.bump f i n).lane m = d.lane m := (rfl)
@[simp] theorem Dev.lane_raise (d : Dev) (f : Field) (i m : Nat) : (d.raise f i).lane m = d.lane m := (rfl)
@[simp] theorem Dev.lane_emit (d : Dev) (x : Emission) (m : Nat) : (d.emit x).lane m = d.lane m := (rfl)
@[simp] theorem Dev.lane_when (d : Dev) (b : Bool) (f : Dev → Dev) (m : Nat) :
    (d.when b f).lane m = if b then (f d).lane m else d.lane m := by cases b <;> rfl

theorem Dev.now_wr (d : Dev) (f : Field) (v i : Nat) : (d.wr f v i).now = d.now := (rfl)
@[simp] theorem Dev.now_put (d : Dev) (f : Field) (b : Bool) (i : Nat) : (d.put f b i).now = d.now := (rfl)
@[simp] theorem Dev.now_raise (d : Dev) (f : Field) (i : Nat) : (d.raise f i).now = d.now := (rfl)

theorem Dev.emitted_wr (d : Dev) (f : Field) (v i : Nat) : (d.wr f v i).emitted = d.emitted := (rfl)
theorem Dev.emitted_modLane (d : Dev) (n : Nat) (f : Lane → Lane) : (d.modLane n f).emitted = d.emitted := (rfl)
@[simp] theorem Dev.emitted_when (d : Dev) (b : Bool) (f : Dev → Dev) :
    (d.when b f).emitted = if b then (f d).emitted else d.emitted := by cases b <;> rfl
@[simp] theorem Dev.emitted_put (d : Dev) (f : Field) (b : Bool) (i : Nat) : (d.put f b i).emitted = d.emitted := (rfl)

/-! ### Changes of one pair -/

/-- Between `d` and `e` no part but `as` changes and no register but `rs`; of those none but that of `n`, beside the registers of the
event unit; and no lane pair but `n`. -/
structure OnPair (n : Nat) (as : List Area) (rs : List RegName) (d e : Dev) : Prop where
  keeps : Keeps as rs d e
  lanes : ∀ m, m ≠ n → e.lane m = d.lane m
  regs : ∀ r i, r ∉ evRegs → i < 65536 → i ≠ n → e.reg r i = d.reg r i

namespace OnPair

variable {n : Nat} {as : List Area} {rs : List RegName} {d e f : Dev}

theorem refl (n : Nat) (as : List Area) (rs : List RegName) (d : Dev) : OnPair n as rs d d :=
  ⟨Keeps.refl as rs d, fun _ _ => rfl, fun _ _ _ _ _ => rfl⟩

theorem trans (h : OnPair n as rs d e) (k : OnPair n as rs e f) : OnPair n as rs d f where
  keeps := h.keeps.trans k.keeps
  lanes m hm := (k.lanes m hm).trans (h.lanes m hm)
  regs r i hr hi hn := (k.regs r i hr hi hn).trans (h.regs r i hr hi hn)

theorem mono {bs : List Area} {qs : List RegName} (h : OnPair n as rs d e) (ha : as ⊆ bs := by simp) (hr : rs ⊆ qs := by simp) :
    OnPair n bs qs d e := ⟨h.keeps.mono ha hr, h.lanes, h.regs⟩

theorem ite {c : Prop} [Decidable c] (h : c → OnPair n as rs d e) (k : ¬c → OnPair n as rs d f) :
    OnPair n as rs d (if c then e else f) := by
  split
  · exact h ‹_›
  · exact k ‹_›

/-- What raises an event changes no pair. -/
theorem ev (h : OnPair n as rs d e) (k : EvOnly e f) (ha : evAreas ⊆ as := by simp [evAreas])
    (hr : evRegs ⊆ rs := by simp [evRegs, laneRegs]) : OnPair n as rs d f :=
  h.trans ⟨k.mono ha hr, fun m _ => by rw [Dev.lane, Dev.lane, k.2.1 .lanes (by decide)], fun r i hr _ _ => k.2.2 r i hr⟩

theorem setReg {r : RegName} (h : OnPair n as rs d e) (w : Word) (hn : n < 65536) (hr : r ∈ rs := by simp [laneRegs]) :
    OnPair n as rs d (e.setReg r n w) :=
  h.trans ⟨keeps_setReg as e n w hr, fun _ _ => rfl, fun q i _ hi hne => by
    by_cases hq : q = r
    · subst hq; exact Dev.reg_setReg_inst e q w hn hi hne
    · exact Dev.reg_setReg_name e w n i hq⟩

theorem wr {g : Field} (h : OnPair n as rs d e) (v : Nat) (hn : n < 65536) (hr : g.reg ∈ rs := by decide) :
    OnPair n as rs d (e.wr g v n) := h.setReg _ hn hr

theorem put {g : Field} (h : OnPair n as rs d e) (b : Bool) (hn : n < 65536) (hr : g.reg ∈ rs := by decide) :
    OnPair n as rs d (e.put g b n) := h.setReg _ hn hr

theorem bump {g : Field} (h : OnPair n as rs d e) (k : Nat) (hn : n < 65536) (hr : g.reg ∈ rs := by decide) :
    OnPair n as rs d (e.bump g n k) := h.setReg _ hn hr

theorem raise {g : Field} (h : OnPair n as rs d e) (hn : n < 65536) (hr : g.reg ∈ rs := by decide) :
    OnPair n as rs d (e.raise g n) :=
  (h.wr 1 hn hr).trans ⟨keeps_noteSet as rs _ g n 0, fun _ _ => rfl, fun q i _ _ _ => Dev.reg_noteSet _ g n 0 q i⟩

theorem modLane (h : OnPair n as rs d e) (g : Lane → Lane) (ha : Area.lanes ∈ as := by simp) : OnPair n as rs d (e.modLane n g) :=
  h.trans ⟨keeps_modLane rs e n g ha, fun _ hm => Dev.lane_modLane_ne e g hm, fun _ _ _ _ _ => rfl⟩

theorem emit (h : OnPair n as rs d e) (x : Emission) (ha : Area.emitted ∈ as := by simp [evAreas]) : OnPair n as rs d (e.emit x) :=
  h.trans ⟨keeps_emit rs e x ha, fun _ _ => rfl, fun _ _ _ _ _ => rfl⟩

theorem noteReg (h : OnPair n as rs d e) (old : Dev) (r : RegName) (i : Nat) (ha : Area.ldr ∈ as := by simp [evAreas]) :
    OnPair n as rs d (e.noteReg old r i) :=
  h.trans ⟨keeps_noteReg rs e old r i ha, fun m _ => by obtain ⟨l, hl⟩ := e.noteReg_eq_ldr old r i; rw [hl]; rfl,
    fun _ _ _ _ _ => Dev.reg_noteReg e old r _ i _⟩

theorem when {b : Bool} {g : Dev → Dev} (h : OnPair n as rs d e) (k : b = true → OnPair n as rs e (g e)) :
    OnPair n as rs d (e.when b g) := h.trans (ite k fun _ => refl n as rs e)

/-- No other pair changes, with its status register. -/
theorem others (h : OnPair n as rs d e) : OtherLanes n d e :=
  fun m hm hne => ⟨h.lanes m hne, h.regs .LN_STATUS m (by decide) (by omega) hne⟩

theorem keepsOthers (h : OnPair n as rs d e) (r : RegName) (hr : r ∉ evRegs := by decide) : KeepsOthers r n d e :=
  fun i hi hne => h.regs r i hr hi hne

end OnPair

end Sys2Proof.Machine
end

section
/-! SUPPORT. A pair enters a state of Table 3-5, fails, or enters ingress recovery (R111, R112, R120): what it shows then, and what
stays. -/

namespace Sys2Proof.Machine

/-! ### The Ingress lane down cause (Table 12-5) -/

theorem notes_resumeCause (d : Dev) (k : Cause) (a0 a1 : Nat) : Notes d (d.resumeCause k a0 a1) := by
  have one (d : Dev) (p : Port) (k' : Cause) (r : CauseRec) (f : List CauseRec → List CauseRec) :
      Notes d (if d.bothWait p k.src then
          (d.modCause k.src fun c => { c with dirty := c.dirty.modPo p fun _ => true }).modWaits p f
        else (d.writeSlot p k' false).writeCause p r) :=
    Notes.ite (fun _ => (notes_modCause d _ _).trans (notes_modWaits _ p f)) fun _ =>
      (notes_writeSlot d p k' false).trans (notes_writeCause _ p r)
  unfold Dev.resumeCause
  dsimp only
  exact (((notes_modCause d _ _).trans (one _ _ _ _ _)).trans (one _ _ _ _ _)).trans (notes_ev _ _)

theorem notes_setCause (d : Dev) (s code a0 a1 parent : Nat) (codes : List Nat) : Notes d (d.setCause s code a0 a1 parent codes) := by
  unfold Dev.setCause
  split
  · exact Notes.ite (fun _ => notes_modCause d s _) fun _ => Notes.ite (fun _ => notes_resumeCause d _ a0 a1) fun _ =>
      notes_newCause d s code a0 a1 parent codes
  · exact notes_newCause d s code a0 a1 parent codes

theorem evOnly_refreshDown (d : Dev) (n : Nat) : EvOnly d (d.refreshDown n) := by
  unfold Dev.refreshDown
  exact Keeps.ite (fun _ => Keeps.ite (fun _ => evOnly_modCause d _ _) fun _ => evOnly_setCause d _ _ _ _ _ _) fun _ =>
    evOnly_endCause d _

theorem notes_refreshDown (d : Dev) (n : Nat) : Notes d (d.refreshDown n) := by
  unfold Dev.refreshDown
  exact Notes.ite (fun _ => Notes.ite (fun _ => notes_modCause d _ _) fun _ => notes_setCause d _ _ _ _ _ _) fun _ =>
    notes_modCause d _ _

/-- What raises an event leaves the pairs as they are. -/
theorem EvOnly.lane {d e : Dev} (h : EvOnly d e) (m : Nat) : e.lane m = d.lane m := by
  rw [Dev.lane, h.2.1 .lanes (by decide), Dev.lane]

/-! ### What a state's entry writes -/

/-- A pair as it enters state `v` at `now`, whichever that is. -/
def Lane.begin (l : Lane) (v now : Nat) : Lane :=
  { l with since := now, winAt := now, winErr := 0, owed := false, restartRun := 0, busyAt := now, term := v != 0 }

/-- The exchange of CAP starts anew. -/
def Lane.clearCap (l : Lane) : Lane :=
  { l with run21 := 0, capSeen := false, capLast := [], capRun := 0, capOk := false, capPeer := false, capSent := 0 }

/-- A pair as it enters state `v` at `now`. -/
def Lane.enter (l : Lane) (v now : Nat) : Lane := if v = 4 then (l.begin v now).clearCap else l.begin v now

/-- The flags of a pair that enters state `v`. -/
def Dev.enterFlags (d : Dev) (n v : Nat) : Dev :=
  ((((d.wr F.LN_STATUS_state v n).modLane n fun l => l.begin v d.now).when (v != 6) fun d =>
    (((d.put F.LN_STATUS_rx_idle false n).put F.LN_STATUS_tx_idle false n).put F.LN_STATUS_rx_recover false n).put
      F.LN_BRZ_STATUS_active false n).when (decide (v < 4) || v == 7) fun d => d.put F.LN_STATUS_rx_aligned false n).when
    (decide (v < 3) || v == 7) fun d => d.put F.LN_STATUS_rx_bitlock false n

/-- The registers of a pair that enters state `v`, before what it sends and reports. -/
def Dev.enterRegs (d : Dev) (n v : Nat) : Dev :=
  (((d.enterFlags n v).when (v == 2) fun d => d.clearLaneCounters n).when (v == 3) fun d =>
    (d.wr F.LN_STATUS_slips 0 n).put F.LN_COMMA_window_valid false n).when (v == 4) fun d => d.modLane n Lane.clearCap

theorem Dev.setLane_stages (d : Dev) (n v : Nat) : d.setLane n v = (((d.enterRegs n v).stateSet n v).when (v == 6 && d.lnState n != 6)
    fun d => ((d.startWords n).startBreeze n).occur (evIL n) 0x21).refreshDown n := rfl

/-- A state but ACTIVE is entered by its registers, what it begins to send, and the cause. -/
theorem Dev.setLane_eq (d : Dev) (n : Nat) {v : Nat} (h : v ≠ 6) : d.setLane n v = ((d.enterRegs n v).stateSet n v).refreshDown n := by
  rw [Dev.setLane_stages, beq_false_of_ne h, Bool.false_and, Dev.when, if_neg (by decide)]

/-- ACTIVE is entered with SKP words and Breeze begun. -/
theorem Dev.setLane_active (d : Dev) (n : Nat) (h : d.lnState n ≠ 6) :
    d.setLane n 6 = ((((d.enterRegs n 6).startWords n).startBreeze n).occur (evIL n) 0x21).refreshDown n := by
  rw [Dev.setLane_stages, Dev.when, if_pos (by simpa using h), Dev.stateSet]

/-- The counters that entry to TRAIN clears. -/
def laneCounters : List RegName := [.LN_CNT_CODE, .LN_CNT_HDR, .LN_CNT_PCL, .LN_BRZ_CNT, .LN_TWIN_CNT]

theorem onPair_clearLaneCounters {n : Nat} {as : List Area} {rs : List RegName} (d : Dev) (hn : n < 65536) (hr : laneCounters ⊆ rs) :
    OnPair n as rs d (d.clearLaneCounters n) := by
  have hmem (r : RegName) (h : r ∈ laneCounters := by simp [laneCounters]) : r ∈ rs := hr h
  exact (((((OnPair.refl n as rs d).setReg _ hn (hmem _)).setReg _ hn (hmem _)).setReg _ hn (hmem _)).setReg _ hn (hmem _)).setReg _ hn
    (hmem _)

theorem onPair_enterFlags {n : Nat} {as : List Area} {rs : List RegName} (d : Dev) (v : Nat) (hn : n < 65536) (ha : Area.lanes ∈ as)
    (hs : RegName.LN_STATUS ∈ rs) (hb : RegName.LN_BRZ_STATUS ∈ rs) : OnPair n as rs d (d.enterFlags n v) := by
  have refl (d : Dev) : OnPair n as rs d d := OnPair.refl n as rs d
  refine .when (.when (.when (((refl d).wr v hn hs).modLane _ ha) fun _ => ?_) fun _ => ?_) fun _ => ?_
  · exact ((((refl _).put _ hn hs).put _ hn hs).put _ hn hs).put _ hn hb
  · exact (refl _).put _ hn hs
  · exact (refl _).put _ hn hs

theorem onPair_enterRegs {n : Nat} {as : List Area} {rs : List RegName} (d : Dev) (v : Nat) (hn : n < 65536) (ha : Area.lanes ∈ as)
    (hr : laneRegs ⊆ rs) (h2 : v = 2 → laneCounters ⊆ rs) (h3 : v = 3 → RegName.LN_COMMA ∈ rs) :
    OnPair n as rs d (d.enterRegs n v) := by
  have hs : RegName.LN_STATUS ∈ rs := hr (by decide)
  have refl (d : Dev) : OnPair n as rs d d := OnPair.refl n as rs d
  refine .when (.when (.when (onPair_enterFlags d v hn ha hs (hr (by decide))) fun h => ?_) fun h => ?_) fun _ => ?_
  · exact onPair_clearLaneCounters _ hn (h2 (by simpa using h))
  · exact ((refl _).wr _ hn hs).put _ hn (h3 (by simpa using h))
  · exact (refl _).modLane _ ha

/-! ### What the pair sends -/

/-- What a pair puts out as it enters a state other than CAP and ACTIVE. -/
def stateWords : Nat → LaneSet
  | 0 => .hiZ
  | 2 => .wt1 4096
  | 3 => .wt2 0
  | 4 => .wt2 1
  | _ => .idle

theorem Dev.stateSet_eq (d : Dev) (n v : Nat) : d.stateSet n v = if v = 5 ∨ v = 6 then d else d.emit (.lane n (stateWords v)) :=
  match v with
  | 0 | 1 | 2 | 3 | 4 | 5 | 6 => rfl
  | _ + 7 => (if_neg (by omega)).symm

theorem onPair_stateSet {n : Nat} {as : List Area} (rs : List RegName) (d : Dev) (v : Nat) (ha : Area.emitted ∈ as) :
    OnPair n as rs d (d.stateSet n v) := by
  rw [Dev.stateSet_eq]
  exact OnPair.ite (fun _ => OnPair.refl n as rs d) fun _ => (OnPair.refl n as rs d).emit _ ha

/-! ### Breeze begins anew (R174, R175) -/

theorem onPair_sendBrz {n : Nat} {as : List Area} {rs : List RegName} (d : Dev) (ty : Nat) (pl : List Byte) (hn : n < 65536)
    (hl : Area.lanes ∈ as) (he : Area.emitted ∈ as) (hr : RegName.LN_BRZ_STATUS ∈ rs) : OnPair n as rs d (d.sendBrz n ty pl) := by
  have hsent (x : Emission) (f : Lane → Lane) : OnPair n as rs d ((d.emit x).modLane n f) :=
    ((OnPair.refl n as rs d).emit x he).modLane f hl
  exact OnPair.ite (fun _ => hsent _ _) fun _ => ((hsent _ _).wr _ hn hr).wr _ hn hr

theorem onPair_flushBrz {n : Nat} {as : List Area} {rs : List RegName} (hn : n < 65536) (hl : Area.lanes ∈ as)
    (he : Area.emitted ∈ as) (hr : RegName.LN_BRZ_STATUS ∈ rs) (ms : List (Nat × List Byte)) (d : Dev) :
    OnPair n as rs d (d.flushBrz n ms) := by
  induction ms generalizing d with
  | nil => exact (OnPair.refl n as rs d).modLane _ hl
  | cons m ms ih =>
    exact OnPair.ite (fun _ => (onPair_sendBrz d m.1 m.2 hn hl he hr).trans (ih _)) fun _ => (OnPair.refl n as rs d).modLane _ hl

theorem onPair_queueBrz {n : Nat} {as : List Area} {rs : List RegName} (d : Dev) (ty : Nat) (pl : List Byte) (hn : n < 65536)
    (hl : Area.lanes ∈ as) (he : Area.emitted ∈ as) (hr : RegName.LN_BRZ_STATUS ∈ rs) : OnPair n as rs d (d.queueBrz n ty pl) := by
  have hbusy : OnPair n as rs d (d.noteBusy n) := (OnPair.refl n as rs d).modLane _ hl
  refine OnPair.ite (fun _ => OnPair.refl n as rs d) fun _ => OnPair.ite (fun _ => hbusy.modLane _ hl) fun _ => ?_
  exact hbusy.trans (onPair_flushBrz hn hl he hr _ _)

theorem onPair_startBreeze {n : Nat} {as : List Area} {rs : List RegName} (d : Dev) (hn : n < 65536)
    (hl : Area.lanes ∈ as) (he : Area.emitted ∈ as) (hr : RegName.LN_BRZ_STATUS ∈ rs) : OnPair n as rs d (d.startBreeze n) := by
  unfold Dev.startBreeze
  have hbegun (b : Bool) (f : Lane → Lane) (v : Nat) : OnPair n as rs d
      ((((d.setReg .LN_BRZ_STATUS n 0#32).put F.LN_BRZ_STATUS_active b n).modLane n f).wr F.LN_BRZ_STATUS_tx_credits v n) :=
    ((((OnPair.refl n as rs d).setReg _ hn hr).put _ hn hr).modLane f hl).wr v hn hr
  refine OnPair.ite (fun _ => ?_) fun _ => hbegun _ _ _
  exact ((hbegun _ _ _).trans (onPair_sendBrz _ _ _ hn hl he hr)).trans (onPair_queueBrz _ _ _ hn hl he hr)

/-! ### The states of Table 3-5 -/

/-- A state's entry changes the pair alone, beside what it reports. -/
theorem onPair_setLane {n : Nat} {rs : List RegName} (d : Dev) (v : Nat) (hn : n < 384) (hr : laneRegs ⊆ rs := by simp)
    (h2 : v = 2 → laneCounters ⊆ rs := by simp) (h3 : v = 3 → RegName.LN_COMMA ∈ rs := by simp) :
    OnPair n (.lanes :: evAreas) rs d (d.setLane n v) := by
  have hn' : n < 65536 := by omega
  have hbrz : RegName.LN_BRZ_STATUS ∈ rs := hr (by decide)
  have hev : evRegs ⊆ rs := fun r h => hr (by simp [laneRegs, h])
  refine OnPair.ev ?_ (evOnly_refreshDown _ n) (by simp) hev
  refine OnPair.when ((onPair_enterRegs d v hn' (by simp) hr h2 h3).trans (onPair_stateSet rs _ v (by decide))) fun _ => ?_
  have hwords (d : Dev) : OnPair n (.lanes :: evAreas) rs d (d.startWords n) := (OnPair.refl n _ rs d).modLane _ (by simp)
  exact ((hwords _).trans (onPair_startBreeze _ hn' (by simp) (by decide) hbrz)).ev (evOnly_occur _ _ _ _ _ _ _) (by simp) hev

end Sys2Proof.Machine
end

section
/-! SUPPORT. How the registers of a pair read once it has entered a state of Table 3-5 (R111, R112). -/

namespace Sys2Proof.Machine

/-! ### The registers of an entry -/

/-- The fields that a state's entry may write. -/
def entryFields : List Field :=
  [F.LN_STATUS_state, F.LN_STATUS_rx_idle, F.LN_STATUS_tx_idle, F.LN_STATUS_rx_recover, F.LN_BRZ_STATUS_active,
    F.LN_STATUS_rx_aligned, F.LN_STATUS_rx_bitlock, F.LN_STATUS_slips, F.LN_COMMA_window_valid]

theorem entryFields_fit : ∀ f ∈ entryFields, f.lo + f.width ≤ 32 := by decide

theorem Dev.emitted_clearLaneCounters (d : Dev) (n : Nat) : (d.clearLaneCounters n).emitted = d.emitted := (rfl)

@[simp] theorem Dev.lane_clearLaneCounters (d : Dev) (n m : Nat) : (d.clearLaneCounters n).lane m = d.lane m := (rfl)

theorem Dev.reg_when (d : Dev) (b : Bool) (f : Dev → Dev) (r : RegName) (i : Nat) :
    (d.when b f).reg r i = if b then (f d).reg r i else d.reg r i := by cases b <;> rfl

theorem Dev.rd_clearLaneCounters (d : Dev) (n : Nat) (g : Field) (i : Nat) (h : g.reg ∉ laneCounters) :
    (d.clearLaneCounters n).rd g i = d.rd g i := by
  simp only [laneCounters, List.mem_cons, List.not_mem_nil, or_false, not_or] at h
  obtain ⟨hcode, hhdr, hpcl, hbrz, htwin⟩ := h
  simp only [Dev.clearLaneCounters, Dev.rd_setReg_name _ _ _ _ _ _ hcode, Dev.rd_setReg_name _ _ _ _ _ _ hhdr,
    Dev.rd_setReg_name _ _ _ _ _ _ hpcl, Dev.rd_setReg_name _ _ _ _ _ _ hbrz, Dev.rd_setReg_name _ _ _ _ _ _ htwin]

theorem Dev.reg_clearLaneCounters (d : Dev) (n : Nat) {r : RegName} (h : r ∈ laneCounters) : (d.clearLaneCounters n).reg r n = 0#32 := by
  simp only [laneCounters, List.mem_cons, List.not_mem_nil, or_false] at h
  rcases h with rfl | rfl | rfl | rfl | rfl <;>
    simp (disch := decide) only [Dev.clearLaneCounters, Dev.reg_setReg_name, Dev.reg_setReg_self]

@[simp] theorem Dev.flag_clearLaneCounters (d : Dev) (n : Nat) (g : Field) (i : Nat) (h : g.reg ∉ laneCounters) :
    (d.clearLaneCounters n).flag g i = d.flag g i := by rw [Dev.flag, d.rd_clearLaneCounters n g i h, Dev.flag]

section
variable (d : Dev) (n v : Nat)

theorem Dev.lnState_enterRegs (hv : v < 8) : (d.enterRegs n v).rd F.LN_STATUS_state n = v := by
  simp (disch := decide) only [Dev.enterRegs, Dev.enterFlags, Dev.rd_when, Dev.rd_put_sep, Dev.rd_wr_sep, Dev.rd_modLane,
    Dev.rd_clearLaneCounters, ite_self]
  exact d.rd_wr_fits F.LN_STATUS_state v n (by decide) hv

theorem Dev.rd_enterRegs (g : Field) (h : ∀ f ∈ entryFields, f.Sep g) (hc : v = 2 → g.reg ∉ laneCounters) :
    (d.enterRegs n v).rd g n = d.rd g n := by
  have hwr (f : Field) (d : Dev) (w : Nat) (hf : f ∈ entryFields) : (d.wr f w n).rd g n = d.rd g n :=
    d.rd_wr_sep f g w n (entryFields_fit f hf) (h f hf)
  have hput (f : Field) (d : Dev) (b : Bool) (hf : f ∈ entryFields) : (d.put f b n).rd g n = d.rd g n :=
    d.rd_put_sep f g b n (entryFields_fit f hf) (h f hf)
  simp (disch := decide) only [Dev.enterRegs, Dev.enterFlags, Dev.rd_when, hput, hwr, Dev.rd_modLane, ite_self]
  split
  · next h2 =>
    rw [Dev.rd_clearLaneCounters _ _ _ _ (hc (by simpa using h2))]
    simp (disch := decide) only [Dev.rd_when, hput, hwr, Dev.rd_modLane, ite_self]
  · rfl

theorem Dev.flag_enterRegs_idle (hv : v ≠ 6) : (d.enterRegs n v).flag F.LN_STATUS_rx_idle n = false
    ∧ (d.enterRegs n v).flag F.LN_STATUS_rx_recover n = false := by
  have h6 : (v != 6) = true := by simpa using hv
  simp (disch := decide) only [Dev.enterRegs, Dev.enterFlags, Dev.flag_when, Dev.flag_put_sep, Dev.flag_wr_sep,
    Dev.flag_modLane, Dev.flag_clearLaneCounters, ite_self, h6, if_true, Dev.flag_put_self, and_self]

theorem Dev.flag_enterRegs_aligned : (d.enterRegs n v).flag F.LN_STATUS_rx_aligned n =
    if v < 4 ∨ v = 7 then false else d.flag F.LN_STATUS_rx_aligned n := by
  simp (disch := decide) only [Dev.enterRegs, Dev.enterFlags, Dev.flag_when, Dev.flag_put_sep, Dev.flag_wr_sep,
    Dev.flag_modLane, Dev.flag_clearLaneCounters, ite_self, Dev.flag_put_self, Bool.or_eq_true, decide_eq_true_eq, beq_iff_eq]

theorem Dev.flag_enterRegs_bitlock : (d.enterRegs n v).flag F.LN_STATUS_rx_bitlock n =
    if v < 3 ∨ v = 7 then false else d.flag F.LN_STATUS_rx_bitlock n := by
  simp (disch := decide) only [Dev.enterRegs, Dev.enterFlags, Dev.flag_when, Dev.flag_put_sep, Dev.flag_wr_sep,
    Dev.flag_modLane, Dev.flag_clearLaneCounters, ite_self, Dev.flag_put_self, Bool.or_eq_true, decide_eq_true_eq, beq_iff_eq]

theorem Dev.enterRegs_align (hv : v = 3) :
    (d.enterRegs n v).rd F.LN_STATUS_slips n = 0 ∧ (d.enterRegs n v).flag F.LN_COMMA_window_valid n = false := by
  have h3 : (v == 3) = true := beq_iff_eq.mpr hv
  constructor
  · simp (disch := decide) only [Dev.enterRegs, Dev.enterFlags, Dev.rd_when, Dev.rd_put_sep, Dev.rd_modLane, ite_self, h3, if_true, Dev.rd_wr_fits]
  · simp (disch := decide) only [Dev.enterRegs, Dev.enterFlags, Dev.flag_when, Dev.flag_put_self, Dev.flag_modLane, ite_self, h3, if_true]

theorem Dev.reg_enterRegs_train (hv : v = 2) {r : RegName} (h : r ∈ laneCounters) : (d.enterRegs n v).reg r n = 0#32 := by
  have h2 : (v == 2) = true := beq_iff_eq.mpr hv
  have h3 : (v == 3) = false := beq_false_of_ne (by omega)
  have h4 : (v == 4) = false := beq_false_of_ne (by omega)
  rw [Dev.enterRegs, Dev.reg_when, h4, if_neg Bool.false_ne_true, Dev.reg_when, h3, if_neg Bool.false_ne_true, Dev.reg_when, h2, if_pos rfl,
    Dev.reg_clearLaneCounters _ n h]

theorem Dev.lane_enterRegs : (d.enterRegs n v).lane n = (d.lane n).enter v d.now := by
  have hflags : (d.enterFlags n v).lane n = (d.lane n).begin v d.now := by
    simp only [Dev.enterFlags, Dev.lane_when, Dev.lane_put, Dev.lane_wr, ite_self, Dev.lane_modLane_self]
  simp only [Dev.enterRegs, Dev.lane_when, Dev.lane_put, Dev.lane_wr, Dev.lane_clearLaneCounters, ite_self, Dev.lane_modLane_self, hflags,
    Lane.enter, beq_iff_eq]

theorem Dev.emitted_enterRegs : (d.enterRegs n v).emitted = d.emitted := by
  simp only [Dev.enterRegs, Dev.enterFlags, Dev.emitted_when, Dev.emitted_put, Dev.emitted_wr, Dev.emitted_clearLaneCounters,
    Dev.emitted_modLane, ite_self]

end

/-! ### The states but ACTIVE -/

theorem Dev.rd_stateSet (d : Dev) (n v : Nat) (g : Field) (i : Nat) : (d.stateSet n v).rd g i = d.rd g i := by
  rw [Dev.stateSet_eq]
  split
  · rfl
  · rfl

/-- Pair `n` of `e` has entered state `v`, which is not ACTIVE. -/
structure Enters (n v : Nat) (d e : Dev) : Prop where
  state : e.lnState n = v
  rxIdle : e.flag F.LN_STATUS_rx_idle n = false
  recover : e.flag F.LN_STATUS_rx_recover n = false
  aligned : e.flag F.LN_STATUS_rx_aligned n = if v < 4 ∨ v = 7 then false else d.flag F.LN_STATUS_rx_aligned n
  bitlock : e.flag F.LN_STATUS_rx_bitlock n = if v < 3 ∨ v = 7 then false else d.flag F.LN_STATUS_rx_bitlock n
  align : v = 3 → e.rd F.LN_STATUS_slips n = 0 ∧ e.flag F.LN_COMMA_window_valid n = false
  train : v = 2 → ∀ r ∈ laneCounters, e.reg r n = 0#32
  fields : ∀ g : Field, (∀ f ∈ entryFields, f.Sep g) → g.reg ∉ evRegs → (v = 2 → g.reg ∉ laneCounters) → e.rd g n = d.rd g n
  lane : e.lane n = (d.lane n).enter v d.now
  notes : d.emitted <:+ e.emitted
  words : v ≠ 5 → Emission.lane n (stateWords v) ∈ e.emitted

theorem Dev.setLane_enters (d : Dev) (n : Nat) {v : Nat} (hv : v < 8) (h6 : v ≠ 6) : Enters n v d (d.setLane n v) := by
  have hset : EvOnly ((d.enterRegs n v).stateSet n v) (d.setLane n v) := d.setLane_eq n h6 ▸ evOnly_refreshDown _ n
  have hnotes : Notes ((d.enterRegs n v).stateSet n v) (d.setLane n v) := d.setLane_eq n h6 ▸ notes_refreshDown _ n
  generalize d.setLane n v = e at hset hnotes
  have hrd (g : Field) (hg : g.reg ∉ evRegs) : e.rd g n = (d.enterRegs n v).rd g n := (hset.rd n hg).trans (Dev.rd_stateSet _ n v g n)
  have hflag (g : Field) (hg : g.reg ∉ evRegs) : e.flag g n = (d.enterRegs n v).flag g n := by rw [Dev.flag, hrd g hg, Dev.flag]
  obtain ⟨hidle, hrecover⟩ := d.flag_enterRegs_idle n v h6
  have hsent := hnotes.emitted
  rw [Dev.stateSet_eq] at hsent hset
  refine ⟨(hrd _ (by decide)).trans (d.lnState_enterRegs n v hv), (hflag _ (by decide)).trans hidle,
    (hflag _ (by decide)).trans hrecover, (hflag _ (by decide)).trans (d.flag_enterRegs_aligned n v),
    (hflag _ (by decide)).trans (d.flag_enterRegs_bitlock n v), fun h3 => ?_, fun h2 r hr => ?_,
    fun g hg hev hc => (hrd g hev).trans (d.rd_enterRegs n v g hg hc), ?_, ?_, fun h5 => ?_⟩
  · obtain ⟨hslips, hvalid⟩ := d.enterRegs_align n v h3
    exact ⟨(hrd _ (by decide)).trans hslips, (hflag _ (by decide)).trans hvalid⟩
  · have hev : r ∉ evRegs := by
      revert r
      decide
    rw [hset.2.2 r n hev, if_neg (by omega), Dev.reg_emit]
    exact d.reg_enterRegs_train n v h2 hr
  · rw [hset.lane]
    refine Eq.trans ?_ (d.lane_enterRegs n v)
    split
    · rfl
    · rfl
  · refine List.IsSuffix.trans ?_ hsent
    rw [← d.emitted_enterRegs n v]
    split
    · exact List.suffix_refl _
    · exact List.suffix_cons _ _
  · rw [if_neg (by omega)] at hsent
    exact hsent.subset (List.mem_cons_self ..)

end Sys2Proof.Machine
end

section
/-! SUPPORT. The shapes of the lane commands (R447, R111, R129), and what a pair shows that has failed (R111) or begun ingress recovery
(R120). -/

namespace Sys2Proof.Machine

/-! ### Lane commands -/

/-- A lane command acts while the clocks run. -/
theorem Runs.of_onLane {c : Instr} {s : State} {t n : Nat} {f : Dev → Dev} {P : Dev → Prop} (h : exec c s = onLane n t s f)
    (hn : n < 384) (hsafe : (s.on t).flag F.CLK_STATUS_safe = false) (hP : P (f (s.on t))) : Runs c s P :=
  Runs.of_onDev h (decide_eq_true hn) (by rwa [hsafe, if_neg (by decide)])

/-- A command that brings words acts where the pair takes them. -/
theorem Runs.of_onWords {c : Instr} {s : State} {t n : Nat} {f : Dev → Dev} {P : Dev → Prop} (h : exec c s = onWords n t s f)
    (hears : Hears (s.on t) n) (hP : P (f (s.on t))) : Runs c s P := by
  obtain ⟨hn, hsafe, hstate, hidle⟩ := hears
  refine Runs.of_onLane h hn hsafe ?_
  rwa [hidle, Bool.or_false, if_neg (by simpa using hstate)]

/-- A lane command that leaves the device as it is while the clocks run changes nothing but time: nothing moves in the safe state. -/
theorem OnlyTime.of_onLane {c : Instr} {s : State} {t n : Nat} {f : Dev → Dev} (h : exec c s = onLane n t s f) (hn : n < 384)
    (hf : (s.on t).flag F.CLK_STATUS_safe = false → f (s.on t) = s.on t) : OnlyTime c s t := by
  refine OnlyTime.of_onDev h (decide_eq_true hn) ?_
  split
  · rfl
  · next hsafe => exact hf (by simpa using hsafe)

/-- An idle pair takes no words. -/
theorem OnlyTime.of_onWords_idle {c : Instr} {s : State} {t n : Nat} {f : Dev → Dev} (h : exec c s = onWords n t s f) (hn : n < 384)
    (hidle : (s.on t).flag F.LN_STATUS_rx_idle n = true) : OnlyTime c s t :=
  OnlyTime.of_onLane h hn fun _ => by rw [hidle, Bool.or_true, if_pos rfl]

/-! ### Reads of an entered state -/

theorem Enters.flag {n v : Nat} {d e : Dev} (h : Enters n v d e) (g : Field) (hs : ∀ f ∈ entryFields, f.Sep g) (hev : g.reg ∉ evRegs)
    (hc : v = 2 → g.reg ∉ laneCounters) : e.flag g n = d.flag g n := by rw [Dev.flag, Dev.flag, h.fields g hs hev hc]

/-! ### Failure (R111) -/

/-- What a failure records before the pair enters FAILED. -/
def Dev.noteFail (d : Dev) (n cause : Nat) : Dev :=
  ((d.wr F.LN_STATUS_fail_cause cause n).bump F.LN_STATUS_fail_count n).raise F.LN_ERR_bringup_fail n

theorem Dev.failLane_eq (d : Dev) (n cause : Nat) : d.failLane n cause =
    (((d.noteFail n cause).setLane n 7).when (d.lnState n != 6) fun d => d.occur (evIL n) 0x22 cause).when (cause == 6) fun d =>
      d.occur (evEL n) 0x29 := rfl

/-- The registers that a failure may change. -/
def laneFailRegs : List RegName := .LN_STATUS :: .LN_ERR :: .LN_BRZ_STATUS :: .LN_CNT_CODE :: .LN_COMMA :: evRegs

theorem Dev.failLane_fails (d : Dev) {n cause : Nat} (hn : n < 384) (hc : cause < 16) : Fails d (d.failLane n cause) n cause := by
  have hn' : n < 65536 := by omega
  have hnote : OnPair n (.lanes :: evAreas) laneFailRegs d (d.noteFail n cause) := (((OnPair.refl n _ _ d).wr _ hn').bump _ hn').raise hn'
  have hpair : OnPair n (.lanes :: evAreas) laneFailRegs d ((d.noteFail n cause).setLane n 7) :=
    hnote.trans (onPair_setLane _ 7 hn (by decide) (by simp) (by simp))
  have hent := (d.noteFail n cause).setLane_enters n (v := 7) (by decide) (by decide)
  have hev : EvOnly ((d.noteFail n cause).setLane n 7) (d.failLane n cause) :=
    d.failLane_eq n cause ▸ (Keeps.when fun _ => evOnly_occur _ _ _ _ _ _ _).trans (Keeps.when fun _ => evOnly_occur _ _ _ _ _ _ _)
  generalize (d.noteFail n cause).setLane n 7 = e at hpair hent hev
  have hall := hpair.ev hev (by decide) (by decide)
  refine ⟨(hev.rd n (by decide)).trans hent.state, ?_, ?_, ?_, (hev.flag n (by decide)).trans hent.recover,
    (hev.flag n (by decide)).trans hent.aligned, hall.others, hall.keeps⟩
  · rw [hev.rd n (by decide), hent.fields _ (by decide) (by decide) (by simp)]
    simp (disch := decide) only [Dev.noteFail, Dev.rd_raise, Dev.rd_wr_sep, Dev.rd_bump_sep]
    exact d.rd_wr_fits F.LN_STATUS_fail_cause cause n (by decide) hc
  · rw [hev.flag n (by decide), hent.flag _ (by decide) (by decide) (by simp)]
    exact Dev.flag_raise_self _ _ n (by decide) rfl
  · rw [hev.rd n (by decide), hent.fields _ (by decide) (by decide) (by simp)]
    simp (disch := decide) only [Dev.noteFail, Dev.rd_raise, Dev.rd_wr_sep, Dev.rd_bump_self]
    rfl

/-- A failure after changes of the lane's own state alone is a failure of the device before them. -/
theorem Fails.from {n cause : Nat} {d e f : Dev} (h : Fails e f n cause) (k : OnPair n [.lanes] [] d e) : Fails d f n cause := by
  obtain ⟨hstate, hcause, hflag, hcount, hrec, hali, hothers, hkeeps⟩ := h
  refine ⟨hstate, hcause, hflag, by rw [hcount, k.keeps.rd n (by simp)], hrec, hali, fun m hm hne => ?_,
    (k.keeps.mono (by simp) (by simp)).trans hkeeps⟩
  exact ⟨(hothers m hm hne).1.trans (k.others m hm hne).1, (hothers m hm hne).2.trans (k.others m hm hne).2⟩

/-! ### Ingress recovery begins (R120) -/

/-- The registers of a pair whose recovery begins. -/
def Dev.recoveryRegs (d : Dev) (n : Nat) : Dev :=
  (((((d.put F.LN_STATUS_rx_recover true n).put F.LN_STATUS_rx_aligned false n).put F.LN_STATUS_rx_idle false n).raise
    F.LN_ERR_rx_lost n).wr F.LN_STATUS_slips 0 n).put F.LN_COMMA_window_valid false n

/-- What the beginning of a recovery records. -/
def Dev.noteRecovery (d : Dev) (n : Nat) : Dev :=
  (d.recoveryRegs n).modLane n fun l =>
    { l with recFrom := (d.recoveryRegs n).now, winAt := (d.recoveryRegs n).now, winErr := 0, restartRun := 0 }

theorem Dev.lane_recoveryRegs (d : Dev) (n m : Nat) : (d.recoveryRegs n).lane m = d.lane m := by
  simp only [Dev.recoveryRegs, Dev.lane_put, Dev.lane_raise, Dev.lane_wr]

theorem Dev.now_recoveryRegs (d : Dev) (n : Nat) : (d.recoveryRegs n).now = d.now := by
  simp only [Dev.recoveryRegs, Dev.now_put, Dev.now_raise, Dev.now_wr]

theorem Dev.beginRecovery_eq (d : Dev) (n : Nat) (h6 : d.lnState n = 6) (hrec : d.flag F.LN_STATUS_rx_recover n = false) :
    d.beginRecovery n = (d.noteRecovery n).refreshDown n := by
  rw [Dev.beginRecovery, if_pos (by rw [h6, hrec]; rfl)]
  rfl

/-- Pair `n` of `e` has begun ingress recovery, and shows the rest as before. -/
structure BeginsRecovery (n : Nat) (d e : Dev) : Prop where
  recovers : Recovers d e n
  pair : OnPair n (.lanes :: evAreas) (.LN_STATUS :: .LN_ERR :: .LN_COMMA :: evRegs) d e
  rxIdle : e.flag F.LN_STATUS_rx_idle n = false
  bitlock : e.flag F.LN_STATUS_rx_bitlock n = d.flag F.LN_STATUS_rx_bitlock n
  zephyrFail : e.flag F.LN_ERR_zephyr_fail n = d.flag F.LN_ERR_zephyr_fail n
  noSignal : (e.lane n).noSignal = (d.lane n).noSignal

theorem Dev.beginRecovery_begins (d : Dev) {n : Nat} (hn : n < 384) (h6 : d.lnState n = 6)
    (hrec : d.flag F.LN_STATUS_rx_recover n = false) : BeginsRecovery n d (d.beginRecovery n) := by
  have hn' : n < 65536 := by omega
  have hev : EvOnly (d.noteRecovery n) (d.beginRecovery n) := d.beginRecovery_eq n h6 hrec ▸ evOnly_refreshDown _ n
  have hpair : OnPair n (.lanes :: evAreas) (.LN_STATUS :: .LN_ERR :: .LN_COMMA :: evRegs) d (d.beginRecovery n) :=
    (((((((OnPair.refl n _ _ d).put _ hn').put _ hn').put _ hn').raise hn').wr _ hn').put _ hn').modLane _ |>.ev hev (by simp) (by decide)
  generalize d.beginRecovery n = e at hev hpair
  have hflag (g : Field) (hg : g.reg ∉ evRegs) : e.flag g n = (d.noteRecovery n).flag g n := hev.flag n hg
  have hrd (g : Field) (hg : g.reg ∉ evRegs) : e.rd g n = (d.noteRecovery n).rd g n := hev.rd n hg
  have hlane : e.lane n = { d.lane n with recFrom := d.now, winAt := d.now, winErr := 0, restartRun := 0 } := by
    rw [hev.lane, Dev.noteRecovery, Dev.lane_modLane_self, Dev.lane_recoveryRegs, Dev.now_recoveryRegs]
  refine ⟨⟨?_, ?_, ?_, ?_, ?_, ?_, by rw [hlane], hpair.others⟩, hpair, ?_, ?_, ?_, by rw [hlane]⟩
  · rw [Dev.lnState, hrd _ (by decide)]
    simp (disch := decide) only [Dev.noteRecovery, Dev.recoveryRegs, Dev.rd_modLane, Dev.rd_put_sep, Dev.rd_wr_sep, Dev.rd_raise]
    exact h6
  · rw [hflag _ (by decide)]
    simp (disch := decide) only [Dev.noteRecovery, Dev.recoveryRegs, Dev.flag_modLane, Dev.flag_put_sep, Dev.flag_wr_sep,
      Dev.flag_raise_sep, Dev.flag_put_self]
  · rw [hflag _ (by decide)]
    simp (disch := decide) only [Dev.noteRecovery, Dev.recoveryRegs, Dev.flag_modLane, Dev.flag_put_sep, Dev.flag_wr_sep,
      Dev.flag_raise_sep, Dev.flag_put_self]
  · rw [hflag _ (by decide)]
    simp (disch := decide) only [Dev.noteRecovery, Dev.recoveryRegs, Dev.flag_modLane, Dev.flag_put_sep, Dev.flag_wr_sep, Dev.flag_raise_self]
  · rw [hrd _ (by decide)]
    simp (disch := decide) only [Dev.noteRecovery, Dev.recoveryRegs, Dev.rd_modLane, Dev.rd_put_sep, Dev.rd_wr_fits]
  · rw [hflag _ (by decide)]
    simp (disch := decide) only [Dev.noteRecovery, Dev.recoveryRegs, Dev.flag_modLane, Dev.flag_put_self]
  · rw [hflag _ (by decide)]
    simp (disch := decide) only [Dev.noteRecovery, Dev.recoveryRegs, Dev.flag_modLane, Dev.flag_put_sep, Dev.flag_wr_sep,
      Dev.flag_raise_sep, Dev.flag_put_self]
  · rw [hflag _ (by decide)]
    simp (disch := decide) only [Dev.noteRecovery, Dev.recoveryRegs, Dev.flag_modLane, Dev.flag_put_sep, Dev.flag_wr_sep, Dev.flag_raise_sep]
  · rw [hflag _ (by decide)]
    simp (disch := decide) only [Dev.noteRecovery, Dev.recoveryRegs, Dev.flag_modLane, Dev.flag_put_sep, Dev.flag_wr_sep, Dev.flag_raise_sep]

/-- A recovery that begins after changes of the pair alone has begun after the device before them. -/
theorem Recovers.from {n : Nat} {as : List Area} {rs : List RegName} {d e f : Dev} (h : Recovers e f n) (k : OnPair n as rs d e) :
    Recovers d f n := by
  obtain ⟨hstate, hrec, hali, hlost, hslips, hvalid, hfrom, hothers⟩ := h
  exact ⟨hstate, hrec, hali, hlost, hslips, hvalid, hfrom.trans k.keeps.1, fun m hm hne =>
    ⟨(hothers m hm hne).1.trans (k.others m hm hne).1, (hothers m hm hne).2.trans (k.others m hm hne).2⟩⟩

end Sys2Proof.Machine
end

section
/-! SUPPORT. A pair is enabled, disabled and retrained, and comes up to HANDSHAKE (R111, R112, R114, R120); obligation O13. -/

namespace Sys2Proof.Machine

/-! ### The octet's gate (R464) -/

/-- A write to a pair or octet whose gate is open acts. -/
theorem Dev.ite_open {d e : Dev} {k : Nat} (h : d.octetGated k = false) : (if d.octetGated k then d else e) = e :=
  if_neg (by rw [h]; decide)

/-! ### Enabling (R111, R112) -/

/-- An OFF pair whose octet's delay line is locked goes to DETECT as it is enabled. -/
theorem Dev.laneEnable_detects (d : Dev) (n : Nat) (hsafe : d.flag F.CLK_STATUS_safe = false) (h0 : d.lnState n = 0)
    (hlock : d.flag F.LN_OCT_STATUS_om_lock (n / 8) = true) : d.laneEnable n = (d.put F.LN_CTRL_enable true n).setLane n 1 := by
  have hput : Keeps [] [.LN_CTRL] d (d.put F.LN_CTRL_enable true n) := keeps_put _ d _ n (by decide)
  unfold Dev.laneEnable Dev.tryDetect Dev.lnState
  dsimp only
  rw [hput.flag 0 (by decide), hput.rd n (by decide), hput.flag (n / 8) (by decide), hsafe, if_neg (by decide), if_pos]
  rw [Dev.flag_put_self _ _ _ n (by decide) rfl, hlock, show d.rd F.LN_STATUS_state n = 0 from h0]
  rfl

/-- In the safe state, in another state, and with an octet that is not locked, enabling writes the bit alone. -/
theorem Dev.laneEnable_stays (d : Dev) (n : Nat) (h : d.flag F.CLK_STATUS_safe = true ∨ d.lnState n ≠ 0
    ∨ d.flag F.LN_OCT_STATUS_om_lock (n / 8) = false) : d.laneEnable n = d.put F.LN_CTRL_enable true n := by
  have hput : Keeps [] [.LN_CTRL] d (d.put F.LN_CTRL_enable true n) := keeps_put _ d _ n (by decide)
  unfold Dev.laneEnable Dev.tryDetect Dev.lnState
  dsimp only
  rw [hput.flag 0 (by decide), hput.rd n (by decide), hput.flag (n / 8) (by decide)]
  by_cases hsafe : d.flag F.CLK_STATUS_safe = true
  · rw [hsafe, if_pos rfl]
  · rw [if_neg hsafe, if_neg]
    rcases h with h | h | h
    · exact absurd h hsafe
    · simp [show d.rd F.LN_STATUS_state n ≠ 0 from h]
    · simp [h]

/-! ### Disabling (Table 3-10) -/

/-- LULL leaves before OFF where the pair is ACTIVE, awake, and has LULL. -/
def Dev.lastLull (d : Dev) (n : Nat) : Dev :=
  d.when (d.lnState n == 6 && d.laneRate n != 1 && !d.flag F.LN_STATUS_tx_idle n) fun d => d.emit (.lane n (.lull 4))

theorem Dev.laneDisable_goesOff (d : Dev) (n : Nat) (hsafe : d.flag F.CLK_STATUS_safe = false) (h0 : d.lnState n ≠ 0) :
    d.laneDisable n = ((d.put F.LN_CTRL_enable false n).lastLull n).setLane n 0 := by
  have hput : Keeps [] [.LN_CTRL] d (d.put F.LN_CTRL_enable false n) := keeps_put _ d _ n (by decide)
  have hstate : (d.put F.LN_CTRL_enable false n).lnState n = d.lnState n := hput.rd n (by decide)
  unfold Dev.laneDisable
  dsimp only
  rw [hput.flag 0 (by decide), hsafe, hstate, if_neg (by simpa using h0), Dev.lastLull, hstate]

theorem Dev.laneDisable_stays (d : Dev) (n : Nat) (h : d.flag F.CLK_STATUS_safe = true ∨ d.lnState n = 0) :
    d.laneDisable n = d.put F.LN_CTRL_enable false n := by
  have hput : Keeps [] [.LN_CTRL] d (d.put F.LN_CTRL_enable false n) := keeps_put _ d _ n (by decide)
  have hstate : (d.put F.LN_CTRL_enable false n).lnState n = d.lnState n := hput.rd n (by decide)
  unfold Dev.laneDisable
  dsimp only
  rw [hput.flag 0 (by decide), hstate, if_pos]
  rcases h with h | h <;> simp [h]

/-- A write of LN_CTRL.enable that does nothing more. -/
theorem enable_written (d : Dev) (b : Bool) {n : Nat} (hn : n < 384) :
    ((d.put F.LN_CTRL_enable b n).noteReg d .LN_CTRL n).reg .LN_CTRL n = F.LN_CTRL_enable.put (d.reg .LN_CTRL n) (b2n b)
    ∧ OnPair n [.ldr] [.LN_CTRL] d ((d.put F.LN_CTRL_enable b n).noteReg d .LN_CTRL n) :=
  ⟨(Dev.reg_noteReg _ d .LN_CTRL .LN_CTRL n n).trans (d.reg_wr_self F.LN_CTRL_enable (b2n b) n),
    ((OnPair.refl n _ _ d).put b (by omega)).noteReg d .LN_CTRL n⟩

/-- A write of LN_CTRL.enable by which the pair enters a state: what the entry shows stands under the journal's note. -/
theorem enable_enters {d e : Dev} {n v : Nat} (b : Bool) (hn : n < 384) (hv : v < 2)
    (he : OnPair n evAreas [.LN_CTRL] d e) (hreg : e.reg .LN_CTRL n = F.LN_CTRL_enable.put (d.reg .LN_CTRL n) (b2n b)) :
    ((e.setLane n v).noteReg d .LN_CTRL n).reg .LN_CTRL n = F.LN_CTRL_enable.put (d.reg .LN_CTRL n) (b2n b)
    ∧ OnPair n (.lanes :: evAreas) (.LN_CTRL :: laneRegs) d ((e.setLane n v).noteReg d .LN_CTRL n) := by
  have hset : OnPair n (.lanes :: evAreas) laneRegs e (e.setLane n v) :=
    onPair_setLane e v hn (List.Subset.refl _) (by omega) (by omega)
  refine ⟨?_, ((he.mono).trans (hset.mono)).noteReg d .LN_CTRL n⟩
  rw [Dev.reg_noteReg, hset.keeps.2.2 .LN_CTRL n (by decide), hreg]

/-- A journal note stands beside what an entry shows. -/
theorem Enters.noteReg {n v : Nat} {d e : Dev} (h : Enters n v d e) (old : Dev) (r : RegName) (i : Nat) : Enters n v d (e.noteReg old r i) := by
  obtain ⟨l, hl⟩ := e.noteReg_eq_ldr old r i
  rw [hl]
  exact ⟨h.state, h.rxIdle, h.recover, h.aligned, h.bitlock, h.align, h.train, h.fields, h.lane, h.notes, h.words⟩

/-! ### From DETECT to ALIGN (R111) -/

theorem Dev.detectPulse_found (d : Dev) {n : Nat} (hn : n < 384) :
    Enters n 2 (d.emit (.lane n .detect)) ((d.emit (.lane n .detect)).setLane n 2)
    ∧ OnPair n (.lanes :: evAreas) (.LN_CNT_CODE :: .LN_CNT_HDR :: .LN_CNT_PCL :: .LN_BRZ_CNT :: .LN_TWIN_CNT :: laneRegs) d
        ((d.emit (.lane n .detect)).setLane n 2) :=
  ⟨Dev.setLane_enters _ n (by decide) (by decide),
    ((OnPair.refl n _ _ d).emit _).trans (onPair_setLane _ 2 hn (by decide) (by decide) (by decide))⟩

/-- Bit lock has held: it shows, and the signal is there. -/
def Dev.lockBits (d : Dev) (n : Nat) : Dev := (d.put F.LN_STATUS_rx_bitlock true n).modLane n fun l => { l with noSignal := false }

theorem onPair_lockBits (d : Dev) {n : Nat} (hn : n < 384) : OnPair n [.lanes] [.LN_STATUS] d (d.lockBits n) :=
  ((OnPair.refl n _ _ d).put _ (by omega)).modLane _

theorem Dev.lnState_lockBits (d : Dev) (n : Nat) : (d.lockBits n).lnState n = d.lnState n := by
  simp (disch := decide) only [Dev.lockBits, Dev.lnState, Dev.rd_modLane, Dev.rd_put_sep]

theorem Dev.wordsIn_lockBits (d : Dev) (n : Nat) : (d.lockBits n).wordsIn n = d.wordsIn n := by
  have hkeeps : Keeps [.lanes] [.LN_STATUS] d (d.lockBits n) := (keeps_put _ d _ n (by decide)).trans (keeps_modLane _ _ n _ (by simp))
  have hsince : ((d.lockBits n).lane n).since = (d.lane n).since := by rw [Dev.lockBits, Dev.lane_modLane_self]; rfl
  unfold Dev.wordsIn Dev.laneWords
  rw [hkeeps.1, hkeeps.rd (n / 8) (by decide), hsince]

theorem exec_rxBitLock (s : State) (t n : Nat) : exec (.rxBitLock t n) s = onLane n t s fun d => if d.lnState n = 0 then d else
    if (d.lockBits n).lnState n == 2 && decide (4096 ≤ (d.lockBits n).wordsIn n) then
      ((d.lockBits n).setLane n 3).put F.LN_STATUS_rx_bitlock true n else d.lockBits n := rfl

theorem runs_rxBitLock_aligns {s : State} {t n : Nat} {d : Dev} (hd : d = s.on t) (hn : n < 384)
    (hsafe : d.flag F.CLK_STATUS_safe = false) (h2 : d.lnState n = 2) (hw : 4096 ≤ d.wordsIn n) :
    Runs (.rxBitLock t n) s fun d' =>
      d'.lnState n = 3 ∧ d'.flag F.LN_STATUS_rx_bitlock n = true ∧ d'.rd F.LN_STATUS_slips n = 0
      ∧ d'.flag F.LN_COMMA_window_valid n = false ∧ (d'.lane n).noSignal = false ∧ Emission.lane n (.wt2 0) ∈ d'.emitted
      ∧ OtherLanes n d d' ∧ Keeps (.lanes :: evAreas) (.LN_COMMA :: laneRegs) d d' := by
  subst hd
  refine Runs.of_onLane (exec_rxBitLock s t n) hn hsafe ?_
  rw [if_neg (by omega), Dev.lnState_lockBits, Dev.wordsIn_lockBits, if_pos (by rw [h2, decide_eq_true hw]; rfl)]
  have hpair : OnPair n (.lanes :: evAreas) (.LN_COMMA :: laneRegs) (s.on t) (((s.on t).lockBits n).setLane n 3) :=
    (onPair_lockBits (s.on t) hn).mono (by simp) (by simp [laneRegs]) |>.trans
      (onPair_setLane _ 3 hn (by decide) (by decide) (by decide))
  have hent := ((s.on t).lockBits n).setLane_enters n (v := 3) (by decide) (by decide)
  have hsignal : (((s.on t).lockBits n).lane n).noSignal = false := by rw [Dev.lockBits, Dev.lane_modLane_self]
  generalize ((s.on t).lockBits n).setLane n 3 = e at hpair hent
  obtain ⟨hslips, hvalid⟩ := hent.align rfl
  have hall := hpair.put (g := F.LN_STATUS_rx_bitlock) true (by omega)
  refine ⟨?_, Dev.flag_put_self _ _ _ n (by decide) rfl, ?_, ?_, ?_,
    (e.emitted_put _ _ n).symm ▸ hent.words (by decide), hall.others, hall.keeps⟩
  · exact (e.rd_put_sep F.LN_STATUS_rx_bitlock F.LN_STATUS_state true n (by decide) (by decide)).trans hent.state
  · rw [e.rd_put_sep _ _ _ n (by decide) (by decide), hslips]
  · rw [e.flag_put_sep _ _ _ n (by decide) (by decide), hvalid]
  · rw [Dev.lane_put, hent.lane]
    exact hsignal

theorem runs_rxBitLock_stays {s : State} {t n : Nat} {d : Dev} (hd : d = s.on t) (hn : n < 384)
    (hsafe : d.flag F.CLK_STATUS_safe = false) (h0 : d.lnState n ≠ 0) (h : d.lnState n ≠ 2 ∨ d.wordsIn n < 4096) :
    Runs (.rxBitLock t n) s fun d' =>
      d'.reg .LN_STATUS n = F.LN_STATUS_rx_bitlock.put (d.reg .LN_STATUS n) 1
      ∧ d'.lane n = { d.lane n with noSignal := false } ∧ OtherLanes n d d' ∧ Keeps [.lanes] [.LN_STATUS] d d' := by
  subst hd
  refine Runs.of_onLane (exec_rxBitLock s t n) hn hsafe ?_
  rw [if_neg h0, Dev.lnState_lockBits, Dev.wordsIn_lockBits, if_neg]
  · have hpair := onPair_lockBits (s.on t) hn
    exact ⟨(s.on t).reg_wr_self F.LN_STATUS_rx_bitlock 1 n, Dev.lane_modLane_self _ n _, hpair.others, hpair.keeps⟩
  · rw [Bool.and_eq_true, beq_iff_eq, decide_eq_true_eq]
    omega

end Sys2Proof.Machine
end

section
/-! SUPPORT. The windows of 1,024 symbols, bit slips and the alignment that a window declares (R114, R115, R120, R121, R123). -/

namespace Sys2Proof.Machine

/-! ### Counted errors (R104) -/

theorem onPair_countErrors {n : Nat} {as : List Area} {rs : List RegName} (d : Dev) (code disp : Nat) (hn : n < 384)
    (hr : RegName.LN_CNT_CODE ∈ rs) : OnPair n as rs d (d.countErrors n code disp) :=
  ((OnPair.refl n as rs d).bump code (by omega) hr).bump disp (by omega) hr

theorem Dev.rd_countErrors (d : Dev) (n code disp : Nat) :
    (d.countErrors n code disp).rd F.LN_CNT_CODE_code_err n = min (d.rd F.LN_CNT_CODE_code_err n + code) 65535
    ∧ (d.countErrors n code disp).rd F.LN_CNT_CODE_disp_err n = min (d.rd F.LN_CNT_CODE_disp_err n + disp) 65535 := by
  constructor
  · rw [Dev.countErrors, Dev.rd_bump_sep _ _ _ n _ (by decide) (by decide), Dev.rd_bump_self _ _ n _ (by decide)]
    rfl
  · rw [Dev.countErrors, Dev.rd_bump_self _ _ n _ (by decide), Dev.rd_bump_sep _ _ _ n _ (by decide) (by decide)]
    rfl

theorem Dev.lane_countErrors (d : Dev) (n code disp m : Nat) : (d.countErrors n code disp).lane m = d.lane m := by
  rw [Dev.countErrors, Dev.lane_bump, Dev.lane_bump]

/-- A window that ends leaves its errors in the counters, and begins the next. -/
theorem Dev.endWindow_shows (d : Dev) {n : Nat} (code disp : Nat) (hn : n < 384) :
    OnPair n [.lanes] [.LN_CNT_CODE] d (d.endWindow n code disp)
    ∧ (d.endWindow n code disp).rd F.LN_CNT_CODE_code_err n = min (d.rd F.LN_CNT_CODE_code_err n + code) 65535
    ∧ (d.endWindow n code disp).rd F.LN_CNT_CODE_disp_err n = min (d.rd F.LN_CNT_CODE_disp_err n + disp) 65535
    ∧ (d.endWindow n code disp).lane n = { d.lane n with winAt := d.now, winErr := 0 } := by
  have hcount : OnPair n [.lanes] [.LN_CNT_CODE] d (d.countErrors n code disp) := onPair_countErrors d code disp hn (by simp)
  obtain ⟨hcode, hdisp⟩ := d.rd_countErrors n code disp
  refine ⟨hcount.modLane _, (Dev.rd_modLane _ n _ _ n).trans hcode, (Dev.rd_modLane _ n _ _ n).trans hdisp, ?_⟩
  rw [Dev.endWindow, Dev.lane_modLane_self, Dev.lane_countErrors]

/-! ### What a window of commas shows (R114) -/

/-- The signal is there while commas come. -/
def Dev.hearCommas (d : Dev) (n anywhere : Nat) : Dev := d.when (decide (0 < anywhere)) fun d => d.hear n

/-- LN_COMMA shows a window with `atb` commas at the boundary, `anywhere` in all and `errs` errors. -/
def Dev.showCommas (d : Dev) (n atb anywhere errs : Nat) : Dev :=
  (((d.wr F.LN_COMMA_at_boundary (min 2047 atb) n).wr F.LN_COMMA_anywhere (min 2047 anywhere) n).put F.LN_COMMA_window_valid true n).put
    F.LN_COMMA_clean (errs == 0) n

/-- The device once a window of commas has ended. -/
def Dev.window (d : Dev) (n atb anywhere code disp : Nat) : Dev :=
  ((d.hearCommas n anywhere).showCommas n atb anywhere (d.windowErrors n code disp)).endWindow n code disp

theorem exec_alignWindowEnd (s : State) (t n atb anywhere code disp pos : Nat) :
    exec (.alignWindowEnd t n atb anywhere code disp pos) s = onWords n t s fun d =>
      if !d.windowOver n then d
      else if (d.window n atb anywhere code disp).searching n && decide (16 ≤ atb) && d.windowErrors n code disp == 0 then
        (d.window n atb anywhere code disp).declareAligned n pos
      else if 16 ≤ d.windowErrors n code disp then ((d.window n atb anywhere code disp).beginRecovery n).fwStep n
      else (d.window n atb anywhere code disp).fwStep n := rfl

/-- What `w` shows of a window of commas that has ended in `d`. -/
structure WindowEnds (n atb anywhere code disp : Nat) (d w : Dev) : Prop where
  pair : OnPair n [.lanes] [.LN_COMMA, .LN_CNT_CODE] d w
  atBoundary : w.rd F.LN_COMMA_at_boundary n = min 2047 atb
  anywhere : w.rd F.LN_COMMA_anywhere n = min 2047 anywhere
  valid : w.flag F.LN_COMMA_window_valid n = true
  clean : w.flag F.LN_COMMA_clean n = decide (d.windowErrors n code disp = 0)
  codeErr : w.rd F.LN_CNT_CODE_code_err n = min (d.rd F.LN_CNT_CODE_code_err n + code) 65535
  dispErr : w.rd F.LN_CNT_CODE_disp_err n = min (d.rd F.LN_CNT_CODE_disp_err n + disp) 65535
  winAt : (w.lane n).winAt = d.now
  winErr : (w.lane n).winErr = 0
  boundary : (w.lane n).boundary = (d.lane n).boundary

theorem Dev.window_ends (d : Dev) {n : Nat} (atb anywhere code disp : Nat) (hn : n < 384) :
    WindowEnds n atb anywhere code disp d (d.window n atb anywhere code disp) := by
  have hn' : n < 65536 := by omega
  have hhear : OnPair n [.lanes] [] d (d.hearCommas n anywhere) :=
    (OnPair.refl n _ _ d).when fun _ => (OnPair.refl n _ _ d).modLane _
  have hbound : ((d.hearCommas n anywhere).lane n).boundary = (d.lane n).boundary := by
    rw [Dev.hearCommas, Dev.lane_when]
    split
    · rw [Dev.hear, Dev.lane_modLane_self]
    · rfl
  unfold Dev.window
  generalize d.hearCommas n anywhere = h at hhear hbound
  have hshow : OnPair n [.lanes] [.LN_COMMA] h (h.showCommas n atb anywhere (d.windowErrors n code disp)) :=
    ((((OnPair.refl n _ _ h).wr _ hn').wr _ hn').put _ hn').put _ hn'
  have hatb : (h.showCommas n atb anywhere (d.windowErrors n code disp)).rd F.LN_COMMA_at_boundary n = min 2047 atb := by
    simp (disch := decide) only [Dev.showCommas, Dev.rd_put_sep, Dev.rd_wr_sep]
    exact h.rd_wr_fits _ _ n (by decide) (by simp [F.LN_COMMA_at_boundary])
  have hany : (h.showCommas n atb anywhere (d.windowErrors n code disp)).rd F.LN_COMMA_anywhere n = min 2047 anywhere := by
    simp (disch := decide) only [Dev.showCommas, Dev.rd_put_sep]
    exact Dev.rd_wr_fits _ _ _ n (by decide) (by simp [F.LN_COMMA_anywhere])
  have hvalid : (h.showCommas n atb anywhere (d.windowErrors n code disp)).flag F.LN_COMMA_window_valid n = true := by
    simp (disch := decide) only [Dev.showCommas, Dev.flag_put_sep, Dev.flag_put_self]
  have hclean : (h.showCommas n atb anywhere (d.windowErrors n code disp)).flag F.LN_COMMA_clean n
      = decide (d.windowErrors n code disp = 0) := Dev.flag_put_self _ _ _ n (by decide) rfl
  have hlane : (h.showCommas n atb anywhere (d.windowErrors n code disp)).lane n = h.lane n := by
    simp only [Dev.showCommas, Dev.lane_put, Dev.lane_wr]
  generalize h.showCommas n atb anywhere (d.windowErrors n code disp) = w at hshow hatb hany hvalid hclean hlane
  obtain ⟨hend, hcode, hdisp, hwin⟩ := w.endWindow_shows code disp hn
  have hfirst : OnPair n [.lanes] [.LN_COMMA] d w := (hhear.mono).trans hshow
  refine ⟨(hfirst.mono).trans (hend.mono), (hend.keeps.rd n (by decide)).trans hatb, (hend.keeps.rd n (by decide)).trans hany,
    (hend.keeps.flag n (by decide)).trans hvalid, (hend.keeps.flag n (by decide)).trans hclean, ?_, ?_, ?_, ?_, ?_⟩
  · rw [hcode, hfirst.keeps.rd n (by decide)]
  · rw [hdisp, hfirst.keeps.rd n (by decide)]
  · rw [hwin]
    exact hfirst.keeps.1
  · rw [hwin]
  · rw [hwin, hlane, hbound]

/-- Whether an alignment attempt is under way is read from LN_STATUS alone. -/
theorem Keeps.searching {as : List Area} {rs : List RegName} {d e : Dev} (h : Keeps as rs d e) (n : Nat) (hs : RegName.LN_STATUS ∉ rs) :
    e.searching n = d.searching n := by
  unfold Dev.searching Dev.lnState
  rw [h.rd n hs, h.flag n hs, h.flag n hs]

theorem Keeps.lnState {as : List Area} {rs : List RegName} {d e : Dev} (h : Keeps as rs d e) (n : Nat) (hs : RegName.LN_STATUS ∉ rs) :
    e.lnState n = d.lnState n := h.rd n hs

/-! ### Bit slips (R114, R115) -/

/-- What a slip that does not fail the pair does. -/
structure Slips (n : Nat) (d e : Dev) : Prop where
  pair : OnPair n [.lanes] [.LN_STATUS, .LN_COMMA] d e
  slips : e.rd F.LN_STATUS_slips n = if d.rd F.LN_STATUS_slips n < 10 then d.rd F.LN_STATUS_slips n + 1 else 0
  state : e.lnState n = d.lnState n
  lane : e.lane n = { d.lane n with boundary := ((d.lane n).boundary + 1) % 10, winAt := d.now, winErr := 0 }
  valid : e.flag F.LN_COMMA_window_valid n = false

/-- The registers of a slip. -/
def Dev.slipRegs (d : Dev) (n k : Nat) : Dev := (d.wr F.LN_STATUS_slips k n).put F.LN_COMMA_window_valid false n

theorem Dev.slip_slips (d : Dev) {n : Nat} (hn : n < 384) (h : d.lnState n ≠ 3 ∨ d.rd F.LN_STATUS_slips n < 10) :
    Slips n d (d.slip n) := by
  have hn' : n < 65536 := by omega
  generalize hk : (if 10 ≤ d.rd F.LN_STATUS_slips n then 0 else d.rd F.LN_STATUS_slips n + 1) = k
  have hslip : d.slip n = (d.slipRegs n k).modLane n fun l =>
      { l with boundary := (l.boundary + 1) % 10, winAt := d.now, winErr := 0 } := by
    rw [Dev.slip, if_neg (by rw [Bool.and_eq_true, decide_eq_true_eq, beq_iff_eq]; omega), hk]
    rfl
  have hk16 : k < 16 := by split at hk <;> omega
  have hregs : OnPair n [.lanes] [.LN_STATUS, .LN_COMMA] d (d.slipRegs n k) := ((OnPair.refl n _ _ d).wr _ hn').put _ hn'
  have hslips : (d.slipRegs n k).rd F.LN_STATUS_slips n = k := by
    rw [Dev.slipRegs, Dev.rd_put_sep _ _ _ _ n (by decide) (by decide), d.rd_wr_fits F.LN_STATUS_slips k n (by decide) hk16]
  have hstate : (d.slipRegs n k).lnState n = d.lnState n := by
    simp (disch := decide) only [Dev.slipRegs, Dev.lnState, Dev.rd_put_sep, Dev.rd_wr_sep]
  have hvalid : (d.slipRegs n k).flag F.LN_COMMA_window_valid n = false := Dev.flag_put_self _ _ _ n (by decide) rfl
  have hlane : (d.slipRegs n k).lane n = d.lane n := by rw [Dev.slipRegs, Dev.lane_put, Dev.lane_wr]
  rw [hslip]
  generalize d.slipRegs n k = e at hregs hslips hstate hvalid hlane
  refine ⟨hregs.modLane _, ?_, (e.rd_modLane n _ _ n).trans hstate, ?_, (e.flag_modLane n _ _ n).trans hvalid⟩
  · rw [Dev.rd_modLane, hslips, ← hk]
    split <;> split <;> omega
  · rw [Dev.lane_modLane_self, hlane]

theorem Dev.slip_fails (d : Dev) {n : Nat} (hn : n < 384) (h3 : d.lnState n = 3) (h : 10 ≤ d.rd F.LN_STATUS_slips n) :
    Fails d (d.slip n) n 2 := by
  rw [Dev.slip, if_pos (by rw [Bool.and_eq_true, decide_eq_true_eq, beq_iff_eq]; exact ⟨h, h3⟩)]
  exact d.failLane_fails hn (by decide)

/-- The firmware takes no slip where no attempt is under way, host software aligns, its core does not run, or commas lack. -/
theorem Dev.fwStep_stays (d : Dev) (n : Nat) (h : d.searching n = false ∨ d.flag F.LN_CTRL_host_align n = true ∨ d.taskRuns 1 = false
    ∨ d.rd F.LN_COMMA_anywhere n < 16) : d.fwStep n = d := by
  rw [Dev.fwStep, if_neg]
  rcases h with h | h | h | h <;> simp [h]

/-- The firmware slips after a window with commas elsewhere. -/
theorem Dev.fwStep_slips (d : Dev) (n : Nat) (hsearch : d.searching n = true) (hhost : d.flag F.LN_CTRL_host_align n = false)
    (htask : d.taskRuns 1 = true) (hvalid : d.flag F.LN_COMMA_window_valid n = true) (hany : 16 ≤ d.rd F.LN_COMMA_anywhere n)
    (hslips : d.rd F.LN_STATUS_slips n < 10) : d.fwStep n = d.slip n := by
  rw [Dev.fwStep, if_pos (by simp [hsearch, hhost, htask, hvalid, hany]), if_neg (by omega)]

end Sys2Proof.Machine
end

section
/-! SUPPORT. Obligation O13: a pair is enabled, disabled and retrained, and comes up to HANDSHAKE (R111, R112, R114, R120). -/

namespace Sys2Proof.Machine

/-! ### Alignment is declared (R105, R114, R123) -/

/-- The pair is aligned, with K28.5 at position `pos`. -/
def Dev.markAligned (d : Dev) (n pos : Nat) : Dev :=
  (d.put F.LN_STATUS_rx_aligned true n).modLane n fun l => { l with wordPos := pos % 4 }

theorem onPair_markAligned (d : Dev) {n : Nat} (pos : Nat) (hn : n < 384) : OnPair n [.lanes] [.LN_STATUS] d (d.markAligned n pos) :=
  ((OnPair.refl n _ _ d).put _ (by omega)).modLane _

theorem Dev.lnState_markAligned (d : Dev) (n pos : Nat) : (d.markAligned n pos).lnState n = d.lnState n := by
  rw [Dev.markAligned, Dev.lnState, Dev.rd_modLane, Dev.rd_put_sep _ _ _ _ n (by decide) (by decide), Dev.lnState]

theorem Dev.flag_markAligned (d : Dev) (n pos : Nat) : (d.markAligned n pos).flag F.LN_STATUS_rx_aligned n = true := by
  rw [Dev.markAligned, Dev.flag_modLane, Dev.flag_put_self _ _ _ n (by decide) rfl]

theorem Dev.lane_markAligned (d : Dev) (n pos : Nat) : (d.markAligned n pos).lane n = { d.lane n with wordPos := pos % 4 } := by
  rw [Dev.markAligned, Dev.lane_modLane_self, Dev.lane_put]

/-- From ALIGN the aligned pair goes on to HANDSHAKE. -/
theorem Dev.declareAligned_align (d : Dev) (n pos : Nat) (h3 : d.lnState n = 3) :
    d.declareAligned n pos = (d.markAligned n pos).setLane n 4 := by
  have hmark := d.lnState_markAligned n pos
  rw [h3] at hmark
  exact if_pos (beq_iff_eq.mpr hmark)

/-- The pair's recovery has ended, and its first parcels will not be compared with those before it. -/
def Dev.endRecovery (d : Dev) (n : Nat) : Dev := (d.put F.LN_STATUS_rx_recover false n).modLane n fun l => { l with seqPrev := [] }

/-- In recovery the aligned pair receives again. -/
theorem Dev.declareAligned_recovery (d : Dev) (n pos : Nat) (h3 : d.lnState n ≠ 3) :
    d.declareAligned n pos = (((d.markAligned n pos).endRecovery n).refreshDown n).occur (evIL n) 0x21 := by
  rw [← d.lnState_markAligned n pos] at h3
  exact if_neg fun h => h3 (beq_iff_eq.mp h)

/-- What a clean window in ALIGN leaves. -/
theorem Dev.declareAligned_enters (d : Dev) {n : Nat} (pos : Nat) (hn : n < 384) (h3 : d.lnState n = 3) :
    Enters n 4 (d.markAligned n pos) (d.declareAligned n pos)
    ∧ OnPair n (.lanes :: evAreas) laneRegs d (d.declareAligned n pos)
    ∧ (d.declareAligned n pos).flag F.LN_STATUS_rx_aligned n = true
    ∧ ((d.declareAligned n pos).lane n).wordPos = pos % 4 := by
  rw [d.declareAligned_align n pos h3]
  have hent := (d.markAligned n pos).setLane_enters n (v := 4) (by decide) (by decide)
  refine ⟨hent, ((onPair_markAligned d pos hn).mono (by simp) (by simp [laneRegs])).trans
    (onPair_setLane _ 4 hn (List.Subset.refl _) (by simp) (by simp)), ?_, ?_⟩
  · rw [hent.aligned, if_neg (by decide), d.flag_markAligned n pos]
  · rw [hent.lane, d.lane_markAligned n pos]
    rfl

/-- What a clean window in ingress recovery leaves. -/
theorem Dev.declareAligned_recovers (d : Dev) {n : Nat} (pos : Nat) (hn : n < 384) (h3 : d.lnState n ≠ 3) :
    OnPair n (.lanes :: evAreas) laneRegs d (d.declareAligned n pos)
    ∧ (d.declareAligned n pos).lnState n = d.lnState n
    ∧ (d.declareAligned n pos).flag F.LN_STATUS_rx_aligned n = true
    ∧ (d.declareAligned n pos).flag F.LN_STATUS_rx_recover n = false
    ∧ (d.declareAligned n pos).lane n = { d.lane n with wordPos := pos % 4, seqPrev := [] } := by
  have hmark : OnPair n (.lanes :: evAreas) laneRegs d (d.markAligned n pos) :=
    (onPair_markAligned d pos hn).mono (by simp) (by simp [laneRegs])
  have hend : OnPair n (.lanes :: evAreas) laneRegs (d.markAligned n pos) ((d.markAligned n pos).endRecovery n) :=
    ((OnPair.refl n _ _ _).put _ (by omega)).modLane _
  have hev : EvOnly ((d.markAligned n pos).endRecovery n) (d.declareAligned n pos) := by
    rw [d.declareAligned_recovery n pos h3]
    exact (evOnly_refreshDown _ n).trans (evOnly_occur _ _ _ _ _ _ _)
  refine ⟨(hmark.trans hend).ev hev, ?_, ?_, ?_, ?_⟩
  · rw [Dev.lnState, hev.rd n (by decide), Dev.endRecovery, Dev.rd_modLane, Dev.rd_put_sep _ _ _ _ n (by decide) (by decide)]
    exact d.lnState_markAligned n pos
  · rw [hev.flag n (by decide), Dev.endRecovery, Dev.flag_modLane, Dev.flag_put_sep _ _ _ _ n (by decide) (by decide),
      d.flag_markAligned n pos]
  · rw [hev.flag n (by decide), Dev.endRecovery, Dev.flag_modLane, Dev.flag_put_self _ _ _ n (by decide) rfl]
  · rw [hev.lane, Dev.endRecovery, Dev.lane_modLane_self, Dev.lane_put, d.lane_markAligned n pos]

/-- A window that ends acts on what it shows. -/
theorem runs_alignWindowEnd {s : State} {t n atb anywhere code disp pos : Nat} {d : Dev} {P : Dev → Prop} (hd : d = s.on t)
    (hears : Hears d n) (hover : d.windowOver n = true)
    (h : ∀ w, WindowEnds n atb anywhere code disp d w → P
      (if d.searching n = true ∧ 16 ≤ atb ∧ d.windowErrors n code disp = 0 then w.declareAligned n pos
      else if 16 ≤ d.windowErrors n code disp then (w.beginRecovery n).fwStep n else w.fwStep n)) :
    Runs (.alignWindowEnd t n atb anywhere code disp pos) s P := by
  subst hd
  refine Runs.of_onWords (exec_alignWindowEnd s t n atb anywhere code disp pos) hears ?_
  have hends := (s.on t).window_ends atb anywhere code disp hears.1
  have hsearch := hends.pair.keeps.searching n (by decide)
  rw [hover, Bool.not_true, if_neg (by decide), hsearch]
  have hiff : ((s.on t).searching n && decide (16 ≤ atb) && (s.on t).windowErrors n code disp == 0) = true
      ↔ (s.on t).searching n = true ∧ 16 ≤ atb ∧ (s.on t).windowErrors n code disp = 0 := by
    rw [Bool.and_eq_true, Bool.and_eq_true, decide_eq_true_eq, beq_iff_eq, and_assoc]
  rw [if_congr hiff rfl rfl]
  exact h _ hends

/-! ### The obligation -/

theorem exec_laneEnable (s : State) (t n : Nat) : exec (.laneEnable t n) s = onDev (laneOk n) t s fun d =>
    if d.octetGated (n / 8) then d else (d.laneEnable n).noteReg d .LN_CTRL n := rfl

theorem exec_laneDisable (s : State) (t n : Nat) : exec (.laneDisable t n) s = onDev (laneOk n) t s fun d =>
    if d.octetGated (n / 8) then d else (d.laneDisable n).noteReg d .LN_CTRL n := rfl

theorem exec_lnRetrain (s : State) (t n : Nat) : exec (.lnRetrain t n) s = onLane n t s fun d =>
    if d.octetGated (n / 8) then d else d.retrain n := rfl

theorem exec_detectPulse (s : State) (t n : Nat) (found : Bool) : exec (.detectPulse t n found) s = onLane n t s fun d =>
    if d.lnState n == 1 then (d.emit (.lane n .detect)).when found fun d => d.setLane n 2 else d := rfl

/-- LULL leaves before the pair goes OFF. -/
theorem onPair_lastLull (d : Dev) (n : Nat) (rs : List RegName) : OnPair n evAreas rs d (d.lastLull n) :=
  (OnPair.refl n _ _ d).when fun _ => (OnPair.refl n _ _ d).emit _

/-- Settles O13: each command by the state it makes the pair enter, and each window by what it declares. -/
theorem laneBringUp : Obligations.LaneBringUp := by
  refine ⟨?enable, ?enableStays, ?disable, ?disableStays, ?retrain, ?retrainOff, ?found, ?notFound, ?bitLock, ?bitLockStays, ?aligned,
    ?realigned, ?counted⟩
  case enable =>
    rintro s t n d hd hn hopen hsafe h0 hlock
    refine Runs.of_onDev (exec_laneEnable s t n) (decide_eq_true hn) ?_
    rw [← hd, Dev.ite_open hopen, d.laneEnable_detects n hsafe h0 hlock]
    obtain ⟨hreg, hpair⟩ := enable_enters (d := d) (v := 1) true hn (by decide) ((OnPair.refl n _ _ d).put true (by omega))
      (d.reg_wr_self F.LN_CTRL_enable 1 n)
    have hent := ((d.put F.LN_CTRL_enable true n).setLane_enters n (v := 1) (by decide) (by decide)).noteReg d .LN_CTRL n
    refine ⟨hreg, hent.state, ?_, ?_, hpair.keepsOthers _, hpair.others, hpair.keeps⟩
    · rw [hent.lane]
      rfl
    · rw [hent.lane]
      rfl
  case enableStays =>
    rintro s t n d hd hn hopen h
    refine Runs.of_onDev (exec_laneEnable s t n) (decide_eq_true hn) ?_
    rw [← hd, Dev.ite_open hopen, d.laneEnable_stays n h]
    obtain ⟨hreg, hpair⟩ := enable_written d true hn
    exact ⟨hreg, hpair.keepsOthers _, hpair.keeps⟩
  case disable =>
    rintro s t n d hd hn hopen hsafe h0
    refine Runs.of_onDev (exec_laneDisable s t n) (decide_eq_true hn) ?_
    rw [← hd, Dev.ite_open hopen, d.laneDisable_goesOff n hsafe h0]
    have hput : Keeps [] [.LN_CTRL] d (d.put F.LN_CTRL_enable false n) := keeps_put _ d _ n (by decide)
    have hlull := onPair_lastLull (d.put F.LN_CTRL_enable false n) n []
    obtain ⟨hreg, hpair⟩ := enable_enters (d := d) (v := 0) false hn (by decide)
      (((OnPair.refl n _ _ d).put false (by omega)).trans hlull.mono)
      ((hlull.keeps.2.2 _ n (by decide)).trans (d.reg_wr_self F.LN_CTRL_enable 0 n))
    have hent := (((d.put F.LN_CTRL_enable false n).lastLull n).setLane_enters n (v := 0) (by decide) (by decide)).noteReg d .LN_CTRL n
    refine ⟨hreg, hent.state, hent.bitlock, hent.aligned, ?_, hent.words (by decide), fun h6 hrate hidle => ?_, hpair.keepsOthers _,
      hpair.others, hpair.keeps⟩
    · rw [hent.lane]
      rfl
    · refine hent.notes.subset ?_
      rw [Dev.lastLull, Dev.emitted_when, if_pos]
      · exact List.mem_cons_self ..
      · rw [Dev.lnState, hput.rd n (by decide), Dev.laneRate, hput.rd (n / 8) (by decide), hput.flag n (by decide), hidle]
        simp [show d.rd F.LN_STATUS_state n = 6 from h6, show d.rd F.LN_OCT_CTRL_rate (n / 8) ≠ 1 from hrate]
  case disableStays =>
    rintro s t n d hd hn hopen h
    refine Runs.of_onDev (exec_laneDisable s t n) (decide_eq_true hn) ?_
    rw [← hd, Dev.ite_open hopen, d.laneDisable_stays n h]
    obtain ⟨hreg, hpair⟩ := enable_written d false hn
    exact ⟨hreg, hpair.keepsOthers _, hpair.keeps⟩
  case retrain =>
    rintro s t n d rfl hn hopen hsafe h0
    refine Runs.of_onLane (exec_lnRetrain s t n) hn hsafe ?_
    rw [Dev.ite_open hopen, Dev.retrain, if_neg (by simpa using h0)]
    have hent := (s.on t).setLane_enters n (v := 1) (by decide) (by decide)
    have hpair : OnPair n (.lanes :: evAreas) laneRegs (s.on t) _ := onPair_setLane (s.on t) 1 hn (List.Subset.refl _) (by simp) (by simp)
    refine ⟨hent.state, hent.aligned, ?_, ?_, hpair.others, hpair.keeps⟩
    · rw [hent.lane]
      rfl
    · rw [hent.lane]
      rfl
  case retrainOff =>
    rintro s t n hn h0
    refine OnlyTime.of_onLane (exec_lnRetrain s t n) hn fun _ => ?_
    rw [Dev.retrain, h0]
    exact ite_self _
  case found =>
    rintro s t n d rfl hn hsafe h1
    refine Runs.of_onLane (exec_detectPulse s t n true) hn hsafe ?_
    rw [if_pos (by rw [h1]; rfl), Dev.when, if_pos rfl]
    obtain ⟨hent, hpair⟩ := (s.on t).detectPulse_found hn
    have hcleared := hent.train rfl
    exact ⟨hent.state, hcleared _ (by decide), hcleared _ (by decide), hcleared _ (by decide), hcleared _ (by decide),
      hcleared _ (by decide), hent.notes.subset (List.mem_cons_self ..), hent.words (by decide), hpair.others, hpair.keeps⟩
  case notFound =>
    rintro s t n d rfl hn hsafe h1
    refine Runs.of_onLane (exec_detectPulse s t n false) hn hsafe ?_
    rw [if_pos (by rw [h1]; rfl), Dev.when, if_neg (by decide)]
    exact ⟨rfl, keeps_emit _ _ _ (by simp)⟩
  case bitLock => exact fun s t n d => runs_rxBitLock_aligns
  case bitLockStays => exact fun s t n d => runs_rxBitLock_stays
  case aligned =>
    rintro s t n atb anywhere pos d hd hears h3 hali hover hatb herr
    refine runs_alignWindowEnd hd hears hover fun w hw => ?_
    rw [if_pos ⟨by simp [Dev.searching, h3, hali], hatb, by simp [Dev.windowErrors, herr]⟩]
    have hw3 : w.lnState n = 3 := (hw.pair.keeps.lnState n (by decide)).trans h3
    obtain ⟨hent, hpair, hflag, hpos⟩ := w.declareAligned_enters pos hears.1 hw3
    have hall : OnPair n (.lanes :: evAreas) (.LN_COMMA :: .LN_CNT_CODE :: laneRegs) d (w.declareAligned n pos) :=
      (hw.pair.mono (by simp) (by simp)).trans (hpair.mono (by simp) (by simp))
    refine ⟨hent.state, hflag, (hpair.keeps.rd n (by decide)).trans hw.atBoundary, (hpair.keeps.rd n (by decide)).trans hw.anywhere, ?_,
      hpos, hent.words (by decide), hall.others, hall.keeps⟩
    rw [hpair.keeps.flag n (by decide), hw.clean, decide_eq_true (by simp [Dev.windowErrors, herr])]
  case realigned =>
    rintro s t n atb anywhere pos d hd hears h6 hrec hali hover hatb herr
    refine runs_alignWindowEnd hd hears hover fun w hw => ?_
    rw [if_pos ⟨by simp [Dev.searching, hrec, hali], hatb, by simp [Dev.windowErrors, herr]⟩]
    have hw6 : w.lnState n = 6 := (hw.pair.keeps.lnState n (by decide)).trans h6
    obtain ⟨hpair, hstate, hflag, hdone, hlane⟩ := w.declareAligned_recovers pos hears.1 (by omega)
    have hall : OnPair n (.lanes :: evAreas) (.LN_COMMA :: .LN_CNT_CODE :: laneRegs) d (w.declareAligned n pos) :=
      (hw.pair.mono (by simp) (by simp)).trans (hpair.mono (by simp) (by simp))
    exact ⟨hstate.trans hw6, hflag, hdone, by rw [hlane], by rw [hlane], hall.others, hall.keeps⟩
  case counted =>
    rintro s t n atb anywhere code disp pos errs d hd hears hover rfl hlow hno hstays
    refine runs_alignWindowEnd hd hears hover fun w hw => ?_
    have hsearch := hw.pair.keeps.searching n (by decide)
    have hhost := hw.pair.keeps.flag (f := F.LN_CTRL_host_align) n (by decide)
    have htask := hw.pair.keeps.taskRuns (by decide) (by decide) 1
    have hany := hw.anywhere
    rw [if_neg (by
      rintro ⟨hs, ha, he⟩
      rcases hno with hno | hno | hno
      · rw [hs] at hno; cases hno
      · omega
      · exact Nat.ne_of_gt hno he), if_neg (show ¬16 ≤ d.windowErrors n code disp from Nat.not_le.mpr hlow), w.fwStep_stays n (by
        rw [hsearch, hhost, htask, hany]
        exact hstays.imp_right (.imp_right (.imp_right fun h => by omega)))]
    exact ⟨hw.atBoundary, hw.anywhere, hw.valid, hw.clean, hw.codeErr, hw.dispErr, hw.winAt, hw.winErr, hw.pair.others,
      hw.pair.keepsOthers _, hw.pair.keepsOthers _, hw.pair.keeps⟩

end Sys2Proof.Machine
end

section
/-! SUPPORT. Obligation O14: bit slips and octet set-up (R99, R114, R115, R133, R464, R560). -/

namespace Sys2Proof.Machine

/-! ### Octet set-up (R99, R133) -/

section
variable (d : Dev) (k : Nat) (val : Word)

/-- A pair of the octet is enabled. -/
def Dev.octBusy : Bool := (List.range 8).any fun j => d.flag F.LN_CTRL_enable (8 * k + j)

/-- The octet's rate is taken, or refused and flagged. -/
def Dev.octRate : Dev :=
  if d.flag F.LN_OCT_CTRL_lock k || F.LN_OCT_CTRL_rate.get val == d.rd F.LN_OCT_CTRL_rate k then d
  else if F.LN_OCT_CTRL_rate.get val == 3 || d.octBusy k then d.raise F.LN_OCT_STATUS_rate_ignored k
  else d.wr F.LN_OCT_CTRL_rate (F.LN_OCT_CTRL_rate.get val) k

/-- A twin is to be set at rate 1, as the octet had it (`d`) or has it now (`e`). -/
def Dev.twinAtRate1 (e : Dev) : Bool :=
  (d.rd F.LN_OCT_CTRL_rate k == 1 || e.rd F.LN_OCT_CTRL_rate k == 1)
    && (F.LN_OCT_CTRL_twin.get val &&& (15 - d.rd F.LN_OCT_CTRL_twin k)) != 0

/-- The octet's twin bits are taken, or refused and flagged; `e` has the rate settled. -/
def Dev.octTwin (e : Dev) : Dev :=
  if d.flag F.LN_OCT_CTRL_lock k || F.LN_OCT_CTRL_twin.get val == d.rd F.LN_OCT_CTRL_twin k then e
  else if d.octBusy k || d.twinAtRate1 k val e then e.raise F.LN_OCT_STATUS_twin_ignored k
  else e.wr F.LN_OCT_CTRL_twin (F.LN_OCT_CTRL_twin.get val) k

/-- The octet's lock is set where the word says so. -/
def Dev.octLock : Dev := d.when (F.LN_OCT_CTRL_lock.get val == 1) fun d => d.raise F.LN_OCT_CTRL_lock k

theorem Dev.octWrite_eq : d.octWrite k val = (d.octTwin k val (d.octRate k val)).octLock k val := rfl

theorem exec_lnOctCtrlWrite (s : State) (t : Nat) : exec (.lnOctCtrlWrite t k val) s = onDev (octetOk k) t s fun d =>
    if d.octetGated k then d else (d.octWrite k val).noteReg d .LN_OCT_CTRL k := rfl

end

/-- A write to an octet whose gate is open acts; the journal's note changes no register. -/
theorem runs_lnOctCtrlWrite {s : State} {t k : Nat} {val : Word} {d : Dev} {P : Dev → Prop} (hd : d = s.on t) (hk : k < 48)
    (hopen : d.octetGated k = false)
    (h : ∀ f, (∀ r i, f.reg r i = (d.octWrite k val).reg r i) → Keeps [.ldr] [] (d.octWrite k val) f → P f) :
    Runs (.lnOctCtrlWrite t k val) s P := by
  subst hd
  refine Runs.of_onDev (exec_lnOctCtrlWrite k val s t) (decide_eq_true hk) ?_
  rw [Dev.ite_open hopen]
  exact h _ (fun r i => Dev.reg_noteReg _ _ _ r k i) (keeps_noteReg [] _ _ _ k (by simp))

/-- The registers of an octet's set-up. -/
def octRegs : List RegName := [.LN_OCT_CTRL, .LN_OCT_STATUS]

/-- Between `d` and `e` octet `k`'s registers change alone, and of LN_OCT_CTRL only the fields `fs`. -/
structure OctStep (k : Nat) (fs : List Field) (d e : Dev) : Prop where
  pair : OnPair k [] octRegs d e
  fields : FieldsOnly .LN_OCT_CTRL k fs d e

section
variable {k : Nat} {d e : Dev} {fs : List Field}

theorem OctStep.refl (k : Nat) (fs : List Field) (d : Dev) : OctStep k fs d d := ⟨OnPair.refl k _ _ d, FieldsOnly.refl _ _ _ d⟩

theorem OctStep.wr (d : Dev) (f : Field) (v : Nat) (hk : k < 48) (hr : f.reg = .LN_OCT_CTRL) (hf : f.lo + f.width ≤ 32) :
    OctStep k [f] d (d.wr f v k) :=
  ⟨(OnPair.refl k _ _ d).wr v (by omega) (by rw [hr]; decide), hr ▸ fieldsOnly_wr d f v k hf⟩

/-- A flag of LN_OCT_STATUS is raised. -/
theorem OctStep.ignored (d : Dev) (f : Field) (fs : List Field) (hk : k < 48) (hr : f.reg = .LN_OCT_STATUS) :
    OctStep k fs d (d.raise f k) :=
  ⟨(OnPair.refl k _ _ d).raise (by omega) (by rw [hr]; decide),
    (keeps_raise (rs := [.LN_OCT_STATUS]) [] d k (by rw [hr]; decide)).fields k fs (by decide)⟩

theorem octStep_rate (d : Dev) (val : Word) (hk : k < 48) : OctStep k [F.LN_OCT_CTRL_rate] d (d.octRate k val) := by
  unfold Dev.octRate
  split
  · exact OctStep.refl k _ d
  · split
    · exact OctStep.ignored d _ _ hk rfl
    · exact OctStep.wr d _ _ hk rfl (by decide)

theorem octStep_twin (d e : Dev) (val : Word) (hk : k < 48) : OctStep k [F.LN_OCT_CTRL_twin] e (d.octTwin k val e) := by
  unfold Dev.octTwin
  split
  · exact OctStep.refl k _ e
  · split
    · exact OctStep.ignored e _ _ hk rfl
    · exact OctStep.wr e _ _ hk rfl (by decide)

/-- The lock changes nothing but its own bit. -/
theorem onPair_octLock (d : Dev) (val : Word) (hk : k < 48) : OnPair k [] [.LN_OCT_CTRL] d (d.octLock k val)
    ∧ FieldsOnly .LN_OCT_CTRL k [F.LN_OCT_CTRL_lock] d (d.octLock k val) :=
  ⟨(OnPair.refl k _ _ d).when fun _ => (OnPair.refl k _ _ _).raise (by omega),
    FieldsOnly.when fun _ => fieldsOnly_raise d F.LN_OCT_CTRL_lock k (by decide)⟩

/-- What an octet's write leaves: the registers of the octet alone. -/
theorem onPair_octWrite (d : Dev) (val : Word) (hk : k < 48) : OnPair k [] octRegs d (d.octWrite k val) :=
  ((octStep_rate d val hk).pair.trans (octStep_twin d _ val hk).pair).trans ((onPair_octLock _ val hk).1.mono (by simp) (by decide))

/-- The rate and its flag are settled by the first step. -/
theorem Dev.octWrite_rate (d : Dev) (val : Word) (hk : k < 48) :
    (d.octWrite k val).rd F.LN_OCT_CTRL_rate k = (d.octRate k val).rd F.LN_OCT_CTRL_rate k := by
  rw [Dev.octWrite_eq, (onPair_octLock _ val hk).2 F.LN_OCT_CTRL_rate rfl (by decide),
    (octStep_twin d _ val hk).fields F.LN_OCT_CTRL_rate rfl (by decide)]

/-- The twin bits are settled by the second. -/
theorem Dev.octWrite_twin (d : Dev) (val : Word) (hk : k < 48) :
    (d.octWrite k val).rd F.LN_OCT_CTRL_twin k = (d.octTwin k val (d.octRate k val)).rd F.LN_OCT_CTRL_twin k := by
  rw [Dev.octWrite_eq, (onPair_octLock _ val hk).2 F.LN_OCT_CTRL_twin rfl (by decide)]

/-- A refused rate stays, and is flagged. -/
theorem Dev.octWrite_rateIgnored (d : Dev) (val : Word) (hk : k < 48) (hlock : d.flag F.LN_OCT_CTRL_lock k = false)
    (h : d.octBusy k = true ∨ F.LN_OCT_CTRL_rate.get val = 3) (hne : F.LN_OCT_CTRL_rate.get val ≠ d.rd F.LN_OCT_CTRL_rate k) :
    (d.octWrite k val).flag F.LN_OCT_STATUS_rate_ignored k = true
    ∧ (d.octWrite k val).rd F.LN_OCT_CTRL_rate k = d.rd F.LN_OCT_CTRL_rate k := by
  have hrate : d.octRate k val = d.raise F.LN_OCT_STATUS_rate_ignored k := by
    rw [Dev.octRate, hlock, Bool.false_or, if_neg (by simpa using hne), if_pos]
    rcases h with h | h <;> simp [h]
  have hraised : (d.raise F.LN_OCT_STATUS_rate_ignored k).flag F.LN_OCT_STATUS_rate_ignored k = true :=
    d.flag_raise_self _ k (by decide) rfl
  constructor
  · rw [Dev.octWrite_eq, (onPair_octLock _ val hk).1.keeps.flag k (by decide), hrate]
    unfold Dev.octTwin
    split
    · exact hraised
    · split
      · rw [Dev.flag_raise_sep _ _ _ k (by decide) (by decide), hraised]
      · rw [Dev.flag_wr_sep _ _ _ _ k (by decide) (by decide), hraised]
  · rw [d.octWrite_rate val hk, hrate, Dev.rd_raise, Dev.rd_wr_sep _ _ _ _ k (by decide) (by decide)]

/-- Refused twin bits stay, and are flagged. -/
theorem Dev.octWrite_twinIgnored (d : Dev) (val : Word) (hk : k < 48) (hlock : d.flag F.LN_OCT_CTRL_lock k = false)
    (h : d.octBusy k = true ∨ d.twinAtRate1 k val (d.octRate k val) = true)
    (hne : F.LN_OCT_CTRL_twin.get val ≠ d.rd F.LN_OCT_CTRL_twin k) :
    (d.octWrite k val).flag F.LN_OCT_STATUS_twin_ignored k = true
    ∧ (d.octWrite k val).rd F.LN_OCT_CTRL_twin k = d.rd F.LN_OCT_CTRL_twin k := by
  have htwin : d.octTwin k val (d.octRate k val) = (d.octRate k val).raise F.LN_OCT_STATUS_twin_ignored k := by
    rw [Dev.octTwin, hlock, Bool.false_or, if_neg (by simpa using hne), if_pos (by rwa [Bool.or_eq_true])]
  constructor
  · rw [Dev.octWrite_eq, (onPair_octLock _ val hk).1.keeps.flag k (by decide), htwin]
    exact Dev.flag_raise_self _ _ k (by decide) rfl
  · rw [d.octWrite_twin val hk, htwin, Dev.rd_raise, Dev.rd_wr_sep _ _ _ _ k (by decide) (by decide),
      (octStep_rate d val hk).fields F.LN_OCT_CTRL_twin rfl (by decide)]

/-- With its pairs disabled an octet takes rate and twin bits; at rates other than 1 nothing refuses them. -/
theorem Dev.octWrite_taken (d : Dev) (val : Word) (hk : k < 48) (hlock : d.flag F.LN_OCT_CTRL_lock k = false)
    (hbusy : d.octBusy k = false) (h0 : d.rd F.LN_OCT_CTRL_rate k ≠ 1) (h1 : F.LN_OCT_CTRL_rate.get val ≠ 1)
    (h3 : F.LN_OCT_CTRL_rate.get val ≠ 3) :
    (d.octWrite k val).rd F.LN_OCT_CTRL_rate k = F.LN_OCT_CTRL_rate.get val
    ∧ (d.octWrite k val).rd F.LN_OCT_CTRL_twin k = F.LN_OCT_CTRL_twin.get val
    ∧ (d.octWrite k val).rd F.LN_OCT_CTRL_lock k = F.LN_OCT_CTRL_lock.get val
    ∧ OnPair k [] [.LN_OCT_CTRL] d (d.octWrite k val) := by
  have hrate : (d.octRate k val).rd F.LN_OCT_CTRL_rate k = F.LN_OCT_CTRL_rate.get val
      ∧ OnPair k [] [.LN_OCT_CTRL] d (d.octRate k val) := by
    rw [Dev.octRate, hlock, hbusy, Bool.false_or, Bool.or_false]
    split
    · next h => exact ⟨(beq_iff_eq.mp h).symm, OnPair.refl k _ _ d⟩
    · rw [if_neg (by simpa using h3)]
      exact ⟨d.rd_wr_fits _ _ k (by decide) (Field.get_lt _ _), (OnPair.refl k _ _ d).wr _ (by omega)⟩
  have hrate1 : d.twinAtRate1 k val (d.octRate k val) = false := by
    rw [Dev.twinAtRate1, hrate.1, beq_false_of_ne h0, beq_false_of_ne h1]
    rfl
  have htwin0 := (octStep_rate d val hk).fields F.LN_OCT_CTRL_twin rfl (by decide)
  have hlock0 := (octStep_rate d val hk).fields F.LN_OCT_CTRL_lock rfl (by decide)
  have htwin : (d.octTwin k val (d.octRate k val)).rd F.LN_OCT_CTRL_twin k = F.LN_OCT_CTRL_twin.get val
      ∧ OnPair k [] [.LN_OCT_CTRL] (d.octRate k val) (d.octTwin k val (d.octRate k val)) := by
    rw [Dev.octTwin, hlock, hbusy, hrate1, Bool.false_or, Bool.or_false]
    split
    · next h => exact ⟨htwin0.trans (beq_iff_eq.mp h).symm, OnPair.refl k _ _ _⟩
    · rw [if_neg (by decide)]
      exact ⟨Dev.rd_wr_fits _ _ _ k (by decide) (Field.get_lt _ _), (OnPair.refl k _ _ _).wr _ (by omega)⟩
  refine ⟨(d.octWrite_rate val hk).trans hrate.1, (d.octWrite_twin val hk).trans htwin.1, ?_,
    (hrate.2.trans htwin.2).trans (onPair_octLock _ val hk).1⟩
  have hlock1 : (d.octTwin k val (d.octRate k val)).rd F.LN_OCT_CTRL_lock k = 0 := by
    rw [(octStep_twin d _ val hk).fields F.LN_OCT_CTRL_lock rfl (by decide), hlock0, Dev.rd_of_flag rfl, hlock]
    rfl
  rw [Dev.octWrite_eq, Dev.octLock, Dev.rd_when]
  split
  · next h => rw [Dev.rd_raise, Dev.rd_wr_fits _ _ _ k (by decide) (by decide), beq_iff_eq.mp h]
  · next h =>
    have hlt := F.LN_OCT_CTRL_lock.get_lt val
    have hw : F.LN_OCT_CTRL_lock.width = 1 := rfl
    rw [hw] at hlt
    rw [hlock1]
    have hne : F.LN_OCT_CTRL_lock.get val ≠ 1 := by simpa using h
    omega

/-- A locked octet keeps every register. -/
theorem Dev.octWrite_locked (d : Dev) (val : Word) (hlock : d.flag F.LN_OCT_CTRL_lock k = true) :
    Keeps [] [] d (d.octWrite k val) := by
  have hrate : d.octRate k val = d := by rw [Dev.octRate, hlock, Bool.true_or, if_pos rfl]
  have htwin : d.octTwin k val d = d := by rw [Dev.octTwin, hlock, Bool.true_or, if_pos rfl]
  rw [Dev.octWrite_eq, hrate, htwin]
  refine Keeps.when fun _ => ?_
  have hset : d.rd F.LN_OCT_CTRL_lock k = 1 := by rw [Dev.rd_of_flag rfl, hlock]; rfl
  have hkeeps : Keeps [] [.LN_OCT_CTRL] d (d.wr F.LN_OCT_CTRL_lock 1 k) := keeps_wr _ d _ _ (by decide)
  have hsame (r : RegName) (i : Nat) : (d.wr F.LN_OCT_CTRL_lock 1 k).reg r i = d.reg r i :=
    hset ▸ d.reg_wr_same F.LN_OCT_CTRL_lock k r i rfl
  exact Keeps.trans (e := d.wr F.LN_OCT_CTRL_lock 1 k) ⟨hkeeps.1, hkeeps.2.1, fun r i _ => hsame r i⟩ (keeps_noteSet [] [] _ _ k 0)

end

/-- Bit `j` of what is newly set of a mask of four bits. -/
theorem and_complement_ne_zero {w v j : Nat} (hj : j < 4) (hv : v < 16) (hw : bitOf w j = true) (hn : bitOf v j = false) :
    w &&& (15 - v) ≠ 0 := by
  intro h
  have hcomp : (15 - v).testBit j = true := by
    have := Nat.testBit_two_pow_sub_succ (n := 4) hv j
    rw [show 15 - v = 2 ^ 4 - (v + 1) by omega, this, ← bitOf_eq_testBit, hn, decide_eq_true hj]
    rfl
  have hbit : (w &&& (15 - v)).testBit j = true := by
    rw [Nat.testBit_and, hcomp, ← bitOf_eq_testBit, hw]
    rfl
  rw [h, Nat.zero_testBit] at hbit
  cases hbit

/-! ### The obligation -/

theorem exec_lnBitSlip (s : State) (t n : Nat) (host : Bool) : exec (.lnBitSlip t n host) s = onLane n t s fun d =>
    if d.octetGated (n / 8) then d else d.bitSlip n host := rfl

/-- Settles O14: a slip is `Dev.slip`, whoever takes it, and an octet's write is settled rate first, then twin bits, then lock. -/
theorem slipsAndOctets : Obligations.SlipsAndOctets := by
  refine ⟨?slips, ?fails, ?stays, ?firmware, ?taken, ?rate, ?twin, ?twinAtRate1, ?locked, ?gated⟩
  case slips =>
    rintro s t n host d rfl hn hopen hsafe hsearch hhost h
    refine Runs.of_onLane (exec_lnBitSlip s t n host) hn hsafe ?_
    rw [Dev.ite_open hopen, Dev.bitSlip, if_pos (by rw [hsearch, hhost, BEq.rfl]; rfl)]
    have hslip := (s.on t).slip_slips hn h
    exact ⟨hslip.slips, hslip.state, by rw [hslip.lane], by rw [hslip.lane], by rw [hslip.lane], hslip.valid, hslip.pair.others,
      hslip.pair.keepsOthers _, hslip.pair.keeps⟩
  case fails =>
    rintro s t n host d rfl hn hopen hsafe h3 hali hhost h
    refine Runs.of_onLane (exec_lnBitSlip s t n host) hn hsafe ?_
    rw [Dev.ite_open hopen, Dev.bitSlip, if_pos (by simp [Dev.searching, h3, hali, hhost])]
    exact (s.on t).slip_fails hn h3 h
  case stays =>
    rintro s t n host hn h
    refine OnlyTime.of_onLane (exec_lnBitSlip s t n host) hn fun _ => ?_
    have hstays : (s.on t).bitSlip n host = s.on t := if_neg (by
      rw [Bool.and_eq_true, beq_iff_eq]
      rintro ⟨hsearch, hhost⟩
      rcases h with h | h
      · rw [hsearch] at h; cases h
      · exact h hhost)
    rw [hstays, ite_self]
  case firmware =>
    rintro s t n atb anywhere code disp pos errs d hd hears hover rfl hsearch hno hhost htask hany hslips
    refine runs_alignWindowEnd hd hears hover fun w hw => ?_
    have hsearchW : w.searching n = true := (hw.pair.keeps.searching n (by decide)).trans hsearch
    have hslipsW : w.rd F.LN_STATUS_slips n = d.rd F.LN_STATUS_slips n := hw.pair.keeps.rd n (by decide)
    have hstateW : w.lnState n = d.lnState n := hw.pair.keeps.lnState n (by decide)
    have hstep : w.fwStep n = w.slip n := w.fwStep_slips n hsearchW ((hw.pair.keeps.flag n (by decide)).trans hhost)
      ((hw.pair.keeps.taskRuns (by decide) (by decide) 1).trans htask) hw.valid (by rw [hw.anywhere]; omega) (by omega)
    have hrecover : w.beginRecovery n = w := by
      rw [Dev.beginRecovery, if_neg]
      intro hboth
      rw [Bool.and_eq_true, beq_iff_eq, Bool.not_eq_true'] at hboth
      simp [Dev.searching, hboth] at hsearchW
    rw [if_neg (by
      rintro ⟨-, ha, he⟩
      rcases hno with hno | hno
      · omega
      · exact Nat.ne_of_gt hno he), hrecover, ite_self, hstep]
    have hslip := w.slip_slips hears.1 (.inr (by omega))
    have hall : OnPair n [.lanes] [.LN_STATUS, .LN_COMMA, .LN_CNT_CODE] d (w.slip n) := (hw.pair.mono).trans (hslip.pair.mono)
    refine ⟨?_, ?_, hslip.valid, hslip.state.trans hstateW, hall.others, hall.keeps⟩
    · rw [hslip.slips, hslipsW, if_pos hslips]
    · rw [hslip.lane]
      exact congrArg (fun b => (b + 1) % 10) hw.boundary
  case taken =>
    rintro s t k val d hd hk hopen hlock hoff h0 h1 h3
    refine runs_lnOctCtrlWrite hd hk hopen fun f hf hnote => ?_
    have hbusy : d.octBusy k = false := by
      rw [Dev.octBusy, List.any_eq_false]
      exact fun j hj => by rw [hoff j (List.mem_range.mp hj)]; decide
    obtain ⟨hrate, htwin, hlocked, hpair⟩ := d.octWrite_taken val hk hlock hbusy h0 h1 h3
    refine ⟨(hnote.rd k (by decide)).trans hrate, (hnote.rd k (by decide)).trans htwin, (hnote.rd k (by decide)).trans hlocked,
      fun i hi hne => (hf _ i).trans (hpair.keepsOthers _ (by decide) i hi hne), ?_⟩
    exact (hpair.keeps.mono (by simp) (by simp)).trans (hnote.mono (by simp) (by simp))
  case rate =>
    rintro s t k val d hd hk hopen hlock h hne
    refine runs_lnOctCtrlWrite hd hk hopen fun f hf hnote => ?_
    obtain ⟨hflag, hrate⟩ := d.octWrite_rateIgnored val hk hlock h hne
    have hpair := onPair_octWrite d val hk
    exact ⟨(hnote.flag k (by decide)).trans hflag, (hnote.rd k (by decide)).trans hrate,
      fun i hi hn => (hf _ i).trans (hpair.keepsOthers _ (by decide) i hi hn),
      fun i hi hn => (hf _ i).trans (hpair.keepsOthers _ (by decide) i hi hn),
      (hpair.keeps.mono (by simp) (by simp [octRegs])).trans (hnote.mono (by simp) (by simp))⟩
  case twin =>
    rintro s t k val d hd hk hopen hlock h hne
    refine runs_lnOctCtrlWrite hd hk hopen fun f hf hnote => ?_
    obtain ⟨hflag, htwin⟩ := d.octWrite_twinIgnored val hk hlock (.inl h) hne
    have hpair := onPair_octWrite d val hk
    exact ⟨(hnote.flag k (by decide)).trans hflag, (hnote.rd k (by decide)).trans htwin,
      fun i hi hn => (hf _ i).trans (hpair.keepsOthers _ (by decide) i hi hn),
      fun i hi hn => (hf _ i).trans (hpair.keepsOthers _ (by decide) i hi hn),
      (hpair.keeps.mono (by simp) (by simp [octRegs])).trans (hnote.mono (by simp) (by simp))⟩
  case twinAtRate1 =>
    rintro s t k j val d hd hk hopen hlock h1 hj hset hclear
    refine runs_lnOctCtrlWrite hd hk hopen fun f _ hnote => ?_
    have hnew := and_complement_ne_zero hj (d.rd_lt F.LN_OCT_CTRL_twin k) hset hclear
    obtain ⟨hflag, htwin⟩ := d.octWrite_twinIgnored val hk hlock
      (.inr (by rw [Dev.twinAtRate1, h1, BEq.rfl, Bool.true_or, Bool.true_and, bne_iff_ne]; exact hnew))
      (by rintro he; rw [he, hclear] at hset; cases hset)
    exact ⟨(hnote.flag k (by decide)).trans hflag, (hnote.rd k (by decide)).trans htwin,
      ((onPair_octWrite d val hk).keeps.mono (by simp) (by simp [octRegs])).trans (hnote.mono (by simp) (by simp))⟩
  case locked =>
    rintro s t k val d rfl hk hopen hlock
    have hkeeps := (s.on t).octWrite_locked val hlock
    refine Runs.of_onDev (exec_lnOctCtrlWrite k val s t) (decide_eq_true hk) ?_
    rw [Dev.ite_open hopen, Dev.noteReg_of_same _ _ (hkeeps.2.2 _ k (by simp))]
    exact hkeeps
  case gated =>
    rintro s t n host val c hn hgated hc
    simp only [List.mem_cons, List.not_mem_nil, or_false] at hc
    rcases hc with rfl | rfl | rfl | rfl | rfl
    · exact OnlyTime.of_onDev (exec_laneEnable s t n) (decide_eq_true hn) (if_pos hgated)
    · exact OnlyTime.of_onDev (exec_laneDisable s t n) (decide_eq_true hn) (if_pos hgated)
    · exact OnlyTime.of_onLane (exec_lnRetrain s t n) hn fun _ => if_pos hgated
    · exact OnlyTime.of_onLane (exec_lnBitSlip s t n host) hn fun _ => if_pos hgated
    · exact OnlyTime.of_onDev (exec_lnOctCtrlWrite (n / 8) val s t) (decide_eq_true (show n / 8 < 48 by omega)) (if_pos hgated)

end Sys2Proof.Machine
end

section
/-! SUPPORT. What received words and the exchange of CAP do to a pair (R107, R111, R117, R118), and how a pair enters ACTIVE (R174). -/

namespace Sys2Proof.Machine

/-! ### The lane's own state (R111, R123) -/

/-- What changes nothing of a pair but its lane's own state. -/
theorem onPair_modLane (d : Dev) (n : Nat) (rs : List RegName) (g : Lane → Lane) : OnPair n [.lanes] rs d (d.modLane n g) :=
  (OnPair.refl n _ _ d).modLane g

theorem Dev.lnState_modLane (d : Dev) (n : Nat) (g : Lane → Lane) (m : Nat) : (d.modLane n g).lnState m = d.lnState m := by
  rw [Dev.lnState, Dev.rd_modLane, Dev.lnState]

/-- Time in the state runs on while `since` stands. -/
theorem Dev.wordsIn_modLane (d : Dev) (n : Nat) {g : Lane → Lane} (hg : (g (d.lane n)).since = (d.lane n).since) :
    (d.modLane n g).wordsIn n = d.wordsIn n := by
  rw [Dev.wordsIn, Dev.laneWords, Dev.rd_modLane, Dev.lane_modLane_self, hg, Dev.modLane_now, Dev.wordsIn, Dev.laneWords]

theorem Dev.lane_hear (d : Dev) (n : Nat) : (d.hear n).lane n = { d.lane n with noSignal := false } := by
  rw [Dev.hear, Dev.lane_modLane_self]

theorem Dev.lane_hearSet (d : Dev) (n : Nat) :
    (d.hearSet n).lane n = { d.lane n with noSignal := false, run21 := 0, restartRun := 0 } := by
  rw [Dev.hearSet, Dev.lane_modLane_self]

theorem onPair_hear (d : Dev) (n : Nat) (rs : List RegName) : OnPair n [.lanes] rs d (d.hear n) := onPair_modLane d n rs _

theorem onPair_hearSet (d : Dev) (n : Nat) (rs : List RegName) : OnPair n [.lanes] rs d (d.hearSet n) := onPair_modLane d n rs _

theorem Dev.lnState_hear (d : Dev) (n : Nat) : (d.hear n).lnState n = d.lnState n := d.lnState_modLane n _ n

theorem Dev.lnState_hearSet (d : Dev) (n : Nat) : (d.hearSet n).lnState n = d.lnState n := d.lnState_modLane n _ n

/-- Code errors that a command reports are counted, and join the window under way. -/
theorem Dev.codeErrors_shows (d : Dev) {n : Nat} (k : Nat) (hn : n < 384) : OnPair n [.lanes] [.LN_CNT_CODE] d (d.codeErrors n k)
    ∧ (d.codeErrors n k).rd F.LN_CNT_CODE_code_err n = min (d.rd F.LN_CNT_CODE_code_err n + k) 65535
    ∧ (d.codeErrors n k).lane n = { d.lane n with winErr := (d.lane n).winErr + k } := by
  have hcount : OnPair n [.lanes] [.LN_CNT_CODE] d (d.countErrors n k 0) := onPair_countErrors d k 0 hn (by simp)
  refine ⟨hcount.modLane _, ?_, ?_⟩
  · rw [Dev.codeErrors, Dev.rd_modLane, (d.rd_countErrors n k 0).1]
  · rw [Dev.codeErrors, Dev.lane_modLane_self, Dev.lane_countErrors]

/-! ### HANDSHAKE to CAP (Table 3-5) -/

/-- The partner is ready, and 16 words have been sent. -/
theorem Dev.tryCap_goes (d : Dev) (n : Nat) (h4 : d.lnState n = 4) (hready : 8 ≤ (d.lane n).run21 ∨ (d.lane n).capSeen = true)
    (hw : 16 ≤ d.wordsIn n) : d.tryCap n = d.setLane n 5 := by
  refine if_pos ?_
  rw [Bool.and_eq_true, Bool.and_eq_true, Bool.or_eq_true, beq_iff_eq, decide_eq_true_eq, decide_eq_true_eq]
  exact ⟨⟨h4, hready⟩, hw⟩

theorem Dev.tryCap_stays (d : Dev) (n : Nat)
    (h : d.lnState n ≠ 4 ∨ ((d.lane n).run21 < 8 ∧ (d.lane n).capSeen = false) ∨ d.wordsIn n < 16) : d.tryCap n = d := by
  refine if_neg ?_
  rw [Bool.and_eq_true, Bool.and_eq_true, Bool.or_eq_true, beq_iff_eq, decide_eq_true_eq, decide_eq_true_eq]
  rintro ⟨⟨h4, hready⟩, hw⟩
  rcases h with h | ⟨hrun, hseen⟩ | h
  · exact h h4
  · rcases hready with hready | hready
    · omega
    · rw [hseen] at hready; cases hready
  · omega

/-! ### WT2 (R107) -/

/-- A run of WT2 words with D21.2 goes on or ends. -/
def Lane.countWt2 (l : Lane) (status : Wt2Status) : Lane := { l with run21 := if status = .ready then l.run21 + 1 else 0 }

theorem exec_wt2Received (s : State) (t n : Nat) (status : Wt2Status) (inP : Bool) :
    exec (.wt2Received t n status inP) s = onWords n t s fun d =>
      if status = .other then ((d.hear n).codeErrors n 1).hearSet n
      else if (d.hear n).lnState n = 4 then ((d.hear n).modLane n fun l => l.countWt2 status).tryCap n
      else if (d.hear n).lnState n = 6 then (d.hear n).wt2Active n status inP
      else d.hear n := rfl

/-- In HANDSHAKE a WT2 word is counted. -/
def Dev.hearWt2 (d : Dev) (n : Nat) (status : Wt2Status) : Dev := (d.hear n).modLane n fun l => l.countWt2 status

theorem onPair_hearWt2 (d : Dev) (n : Nat) (status : Wt2Status) : OnPair n [.lanes] [] d (d.hearWt2 n status) :=
  (onPair_hear d n _).modLane _

theorem Dev.lane_hearWt2 (d : Dev) (n : Nat) (status : Wt2Status) : (d.hearWt2 n status).lane n =
    { d.lane n with noSignal := false, run21 := if status = .ready then (d.lane n).run21 + 1 else 0 } := by
  rw [Dev.hearWt2, Dev.lane_modLane_self, Dev.lane_hear]
  rfl

theorem Dev.wordsIn_hearWt2 (d : Dev) (n : Nat) (status : Wt2Status) : (d.hearWt2 n status).wordsIn n = d.wordsIn n := by
  rw [Dev.hearWt2, Dev.wordsIn_modLane _ n rfl, Dev.hear, Dev.wordsIn_modLane _ n rfl]

theorem runs_wt2Received {s : State} {t n : Nat} {status : Wt2Status} {inP : Bool} {d : Dev} {P : Dev → Prop} (hd : d = s.on t)
    (hears : Hears d n) (h4 : d.lnState n = 4) (hst : status ≠ .other) (hP : P ((d.hearWt2 n status).tryCap n)) :
    Runs (.wt2Received t n status inP) s P := by
  subst hd
  refine Runs.of_onWords (exec_wt2Received s t n status inP) hears ?_
  rwa [if_neg hst, Dev.lnState_hear, if_pos h4]

/-! ### CAP (R117) -/

/-- The copies of a CAP received in a row, with this one. -/
def Lane.capCount (l : Lane) (cap : List Byte) : Nat := if l.capLast = capMasked cap then l.capRun + 1 else 1

/-- A copy of a CAP is noted. -/
def Dev.noteCap (d : Dev) (n : Nat) (cap : List Byte) : Dev :=
  d.modLane n fun l => { l with capLast := capMasked cap, capRun := (d.lane n).capCount cap, capSeen := true }

/-- A CAP while the pair is ACTIVE is flagged. -/
def Dev.capInActive (d : Dev) (n : Nat) : Dev := (d.raise F.LN_ERR_cap_active n).occur (evIL n) 0x26

theorem exec_capReceived (s : State) (t n : Nat) (cap : List Byte) : exec (.capReceived t n cap) s = onWords n t s fun d =>
    if (d.hearSet n).lnState n = 6 then (d.hearSet n).capInActive n
    else if (d.hearSet n).lnState n = 4 ∨ (d.hearSet n).lnState n = 5 then
      if (((d.hearSet n).noteCap n (fit 15 cap)).tryCap n).lnState n == 5 && decide (3 ≤ ((d.hearSet n).lane n).capCount (fit 15 cap)) then
        (((d.hearSet n).noteCap n (fit 15 cap)).tryCap n).acceptCap n (fit 15 cap)
      else ((d.hearSet n).noteCap n (fit 15 cap)).tryCap n
    else d.hearSet n := rfl

/-- A copy of a CAP is received and noted. -/
def Dev.hearCap (d : Dev) (n : Nat) (cap : List Byte) : Dev := (d.hearSet n).noteCap n cap

theorem onPair_hearCap (d : Dev) (n : Nat) (cap : List Byte) (rs : List RegName) : OnPair n [.lanes] rs d (d.hearCap n cap) :=
  (onPair_hearSet d n rs).modLane _

theorem Dev.lane_hearCap (d : Dev) (n : Nat) (cap : List Byte) : (d.hearCap n cap).lane n =
    { d.lane n with noSignal := false, run21 := 0, restartRun := 0, capSeen := true, capLast := capMasked cap
                    capRun := (d.lane n).capCount cap } := by
  rw [Dev.hearCap, Dev.noteCap, Dev.lane_modLane_self, Dev.lane_hearSet]
  rfl

theorem Dev.wordsIn_hearCap (d : Dev) (n : Nat) (cap : List Byte) : (d.hearCap n cap).wordsIn n = d.wordsIn n := by
  rw [Dev.hearCap, Dev.noteCap, Dev.wordsIn_modLane _ n rfl, Dev.hearSet, Dev.wordsIn_modLane _ n rfl]

/-- A copy in HANDSHAKE or CAP that makes the pair go on to no state is noted, and the third accepted or refused. -/
theorem runs_capReceived {s : State} {t n : Nat} {cap : List Byte} {d : Dev} {P : Dev → Prop} (hd : d = s.on t) (hears : Hears d n)
    (h45 : d.lnState n = 4 ∨ d.lnState n = 5) (hstay : d.lnState n = 5 ∨ d.wordsIn n < 16)
    (hP : P (if d.lnState n = 5 ∧ 3 ≤ (d.lane n).capCount (fit 15 cap) then (d.hearCap n (fit 15 cap)).acceptCap n (fit 15 cap)
      else d.hearCap n (fit 15 cap))) : Runs (.capReceived t n cap) s P := by
  subst hd
  refine Runs.of_onWords (exec_capReceived s t n cap) hears ?_
  have hstate : ((s.on t).hearCap n (fit 15 cap)).lnState n = (s.on t).lnState n :=
    (onPair_hearCap (s.on t) n (fit 15 cap) []).keeps.lnState n (by simp)
  have htry : ((s.on t).hearCap n (fit 15 cap)).tryCap n = (s.on t).hearCap n (fit 15 cap) := by
    refine Dev.tryCap_stays _ n ?_
    rw [hstate, Dev.wordsIn_hearCap]
    rcases hstay with h5 | hw
    · exact .inl (by omega)
    · exact .inr (.inr hw)
  have hcount : ((s.on t).hearSet n).lane n = _ := (s.on t).lane_hearSet n
  have hiff : (((s.on t).hearCap n (fit 15 cap)).lnState n == 5 && decide (3 ≤ ((s.on t).lane n).capCount (fit 15 cap))) = true
      ↔ (s.on t).lnState n = 5 ∧ 3 ≤ ((s.on t).lane n).capCount (fit 15 cap) := by
    rw [hstate, Bool.and_eq_true, beq_iff_eq, decide_eq_true_eq]
  rw [Dev.lnState_hearSet, if_neg (by omega), if_pos h45, hcount]
  change P (if (((((s.on t).hearCap n (fit 15 cap)).tryCap n).lnState n == 5
    && decide (3 ≤ ((s.on t).lane n).capCount (fit 15 cap))) = true) then (((s.on t).hearCap n (fit 15 cap)).tryCap n).acceptCap n (fit 15 cap)
    else ((s.on t).hearCap n (fit 15 cap)).tryCap n)
  rwa [htry, if_congr hiff rfl rfl]

/-! ### The partner's CAP is accepted (R117) -/

theorem ofLe_lt (bs : List Byte) : ofLe bs < 256 ^ bs.length := by
  induction bs with
  | nil => exact Nat.one_pos
  | cons b bs ih =>
    have hb := b.isLt
    rw [ofLe, List.length_cons, Nat.pow_succ]
    omega

theorem fieldAt_lt (bs : List Byte) (off n : Nat) : fieldAt bs off n < 256 ^ n :=
  (ofLe_lt _).trans_le (Nat.pow_le_pow_right (by decide) (by rw [List.length_take]; exact Nat.min_le_left _ _))

theorem evOnly_rasterOccur (d : Dev) (o k code a0 cnt : Nat) (time : Option Nat) : EvOnly d (d.rasterOccur o k code a0 cnt time) :=
  Keeps.ite (fun _ => evOnly_occur _ _ _ _ _ _ _) fun _ => EvOnly.refl d

theorem evOnly_noteNotReceived (d : Dev) (n : Nat) : EvOnly d (d.noteNotReceived n) :=
  Keeps.each _ _ (fun _ _ _ => Keeps.when fun _ => evOnly_rasterOccur _ _ _ _ _ _ _) d

/-- The registers that show the partner's CAP. -/
def Dev.showCap (d : Dev) (n : Nat) (cap : List Byte) : Dev :=
  ((((d.wr F.LN_CAP_RX0_cap (fieldAt cap 0 4) n).wr F.LN_CAP_RX1_cap (fieldAt cap 4 4) n).wr F.LN_CAP_RX2_cap (fieldAt cap 8 4) n).wr
    F.LN_CAP_RX3_cap (fieldAt cap 12 3) n).put F.LN_STATUS_partner_w1 (fieldAt cap 0 1 == 1) n

/-- The pair has the partner's CAP, and knows whether the partner has its own. -/
def Dev.takeCap (d : Dev) (n : Nat) (cap : List Byte) : Dev :=
  ((d.showCap n cap).modLane n fun l => { l with capOk := true, capPeer := bitOf (fieldAt cap 2 1) 0 }).noteNotReceived n

theorem Dev.acceptCap_fits (d : Dev) (n : Nat) (cap : List Byte) (h : d.capFits n cap = true) :
    d.acceptCap n cap = (d.takeCap n cap).tryActive n := by
  rw [Dev.acceptCap, h, Bool.not_true, if_neg (by decide)]
  rfl

theorem Dev.acceptCap_misfits (d : Dev) (n : Nat) (cap : List Byte) (h : d.capFits n cap = false) :
    d.acceptCap n cap = d.failLane n 6 := by rw [Dev.acceptCap, h, Bool.not_false, if_pos rfl]

/-- Whether a CAP is compatible hangs on the octet's rate alone. -/
theorem Keeps.capFits {as : List Area} {rs : List RegName} {d e : Dev} (h : Keeps as rs d e) (n : Nat) (cap : List Byte)
    (hr : RegName.LN_OCT_CTRL ∉ rs) : e.capFits n cap = d.capFits n cap := by
  unfold Dev.capFits Dev.laneRate
  rw [h.rd (n / 8) hr]

/-- What an accepted CAP shows. -/
structure CapTaken (n : Nat) (cap : List Byte) (d e : Dev) : Prop where
  pair : OnPair n (.lanes :: evAreas) (.LN_STATUS :: .LN_CAP_RX0 :: .LN_CAP_RX1 :: .LN_CAP_RX2 :: .LN_CAP_RX3 :: evRegs) d e
  state : e.lnState n = d.lnState n
  lane : e.lane n = { d.lane n with capOk := true, capPeer := bitOf (fieldAt cap 2 1) 0 }
  cap0 : e.rd F.LN_CAP_RX0_cap n = fieldAt cap 0 4
  cap1 : e.rd F.LN_CAP_RX1_cap n = fieldAt cap 4 4
  cap2 : e.rd F.LN_CAP_RX2_cap n = fieldAt cap 8 4
  cap3 : e.rd F.LN_CAP_RX3_cap n = fieldAt cap 12 3

theorem Dev.takeCap_taken (d : Dev) {n : Nat} (cap : List Byte) (hn : n < 384) : CapTaken n cap d (d.takeCap n cap) := by
  have hn' : n < 65536 := by omega
  have hshow : OnPair n (.lanes :: evAreas) (.LN_STATUS :: .LN_CAP_RX0 :: .LN_CAP_RX1 :: .LN_CAP_RX2 :: .LN_CAP_RX3 :: evRegs) d
      (d.showCap n cap) := (((((OnPair.refl n _ _ d).wr _ hn').wr _ hn').wr _ hn').wr _ hn').put _ hn'
  have hlane : (d.showCap n cap).lane n = d.lane n := by simp only [Dev.showCap, Dev.lane_put, Dev.lane_wr]
  have hstate : (d.showCap n cap).lnState n = d.lnState n := by
    simp (disch := decide) only [Dev.showCap, Dev.lnState, Dev.rd_put_sep, Dev.rd_wr_sep]
  have hcap0 : (d.showCap n cap).rd F.LN_CAP_RX0_cap n = fieldAt cap 0 4 := by
    simp (disch := decide) only [Dev.showCap, Dev.rd_put_sep, Dev.rd_wr_sep]
    exact Dev.rd_wr_fits _ _ _ n (by decide) (fieldAt_lt cap 0 4)
  have hcap1 : (d.showCap n cap).rd F.LN_CAP_RX1_cap n = fieldAt cap 4 4 := by
    simp (disch := decide) only [Dev.showCap, Dev.rd_put_sep, Dev.rd_wr_sep]
    exact Dev.rd_wr_fits _ _ _ n (by decide) (fieldAt_lt cap 4 4)
  have hcap2 : (d.showCap n cap).rd F.LN_CAP_RX2_cap n = fieldAt cap 8 4 := by
    simp (disch := decide) only [Dev.showCap, Dev.rd_put_sep, Dev.rd_wr_sep]
    exact Dev.rd_wr_fits _ _ _ n (by decide) (fieldAt_lt cap 8 4)
  have hcap3 : (d.showCap n cap).rd F.LN_CAP_RX3_cap n = fieldAt cap 12 3 := by
    simp (disch := decide) only [Dev.showCap, Dev.rd_put_sep]
    exact Dev.rd_wr_fits _ _ _ n (by decide) (fieldAt_lt cap 12 3)
  generalize hs : d.showCap n cap = e at hshow hlane hstate hcap0 hcap1 hcap2 hcap3
  have hev := evOnly_noteNotReceived (e.modLane n fun l => { l with capOk := true, capPeer := bitOf (fieldAt cap 2 1) 0 }) n
  have htake : d.takeCap n cap = (e.modLane n fun l => { l with capOk := true, capPeer := bitOf (fieldAt cap 2 1) 0 }).noteNotReceived n := by
    rw [Dev.takeCap, hs]
  rw [← htake] at hev
  have hrd (g : Field) (hg : g.reg ∉ evRegs) : (d.takeCap n cap).rd g n = e.rd g n := (hev.rd n hg).trans (Dev.rd_modLane _ n _ g n)
  refine ⟨(hshow.modLane _).ev hev (by simp) (by decide), (hrd _ (by decide)).trans hstate, ?_, (hrd _ (by decide)).trans hcap0,
    (hrd _ (by decide)).trans hcap1, (hrd _ (by decide)).trans hcap2, (hrd _ (by decide)).trans hcap3⟩
  rw [hev.lane, Dev.lane_modLane_self, hlane]

/-! ### CAP to ACTIVE (R118) -/

theorem Dev.tryActive_goes (d : Dev) (n : Nat) (h5 : d.lnState n = 5) (hok : (d.lane n).capOk = true)
    (hpeer : (d.lane n).capPeer = true) (hsent : 3 ≤ (d.lane n).capSent) : d.tryActive n = d.setLane n 6 :=
  if_pos (by simp [h5, hok, hpeer, hsent])

theorem Dev.tryActive_stays (d : Dev) (n : Nat) (h : (d.lane n).capOk = false ∨ (d.lane n).capPeer = false ∨ (d.lane n).capSent < 3) :
    d.tryActive n = d := by
  refine if_neg ?_
  rcases h with h | h | h <;> simp [h]

end Sys2Proof.Machine
end

section
/-! SUPPORT. A pair enters ACTIVE (R118, R174, R175), and obligation O15. -/

namespace Sys2Proof.Machine

/-! ### Breeze begins (R174, R175) -/

/-- Sending on Breeze writes its figures alone. -/
def brzFigures : List Field := [F.LN_BRZ_STATUS_tx_seq, F.LN_BRZ_STATUS_tx_credits]

theorem fieldsOnly_modLane (d : Dev) (n : Nat) (g : Lane → Lane) (r : RegName) (i : Nat) (fs : List Field) :
    FieldsOnly r i fs d (d.modLane n g) := fun f _ _ => Dev.rd_modLane d n g f i

theorem fieldsOnly_sendBrz (d : Dev) (n ty : Nat) (pl : List Byte) : FieldsOnly .LN_BRZ_STATUS n brzFigures d (d.sendBrz n ty pl) := by
  have hwr (d : Dev) (f : Field) (v : Nat) (hr : f.reg = .LN_BRZ_STATUS) (hf : f.lo + f.width ≤ 32) (hm : f ∈ brzFigures) :
      FieldsOnly .LN_BRZ_STATUS n brzFigures d (d.wr f v n) :=
    hr ▸ (fieldsOnly_wr d f v n hf).mono (by simpa using hm)
  have hsent (x : Emission) (g : Lane → Lane) : FieldsOnly .LN_BRZ_STATUS n brzFigures d ((d.emit x).modLane n g) :=
    FieldsOnly.trans (e := d.emit x) (fun f _ _ => d.rd_emit x f n) (fieldsOnly_modLane _ n g _ n _)
  exact FieldsOnly.ite (fun _ => hsent _ _) fun _ =>
    ((hsent _ _).trans (hwr _ _ _ rfl (by decide) (by simp [brzFigures]))).trans (hwr _ _ _ rfl (by decide) (by simp [brzFigures]))

theorem fieldsOnly_flushBrz (n : Nat) (ms : List (Nat × List Byte)) (d : Dev) :
    FieldsOnly .LN_BRZ_STATUS n brzFigures d (d.flushBrz n ms) := by
  induction ms generalizing d with
  | nil => exact fieldsOnly_modLane d n _ _ n _
  | cons m ms ih =>
    exact FieldsOnly.ite (fun _ => (fieldsOnly_sendBrz d n m.1 m.2).trans (ih _)) fun _ => fieldsOnly_modLane d n _ _ n _

theorem fieldsOnly_queueBrz (d : Dev) (n ty : Nat) (pl : List Byte) : FieldsOnly .LN_BRZ_STATUS n brzFigures d (d.queueBrz n ty pl) :=
  FieldsOnly.ite (fun _ => FieldsOnly.refl _ _ _ d) fun _ =>
    FieldsOnly.ite (fun _ => (fieldsOnly_modLane d n _ _ n _).trans (fieldsOnly_modLane _ n _ _ n _)) fun _ =>
      (fieldsOnly_modLane d n _ _ n _).trans (fieldsOnly_flushBrz n _ _)

theorem notes_modLane (d : Dev) (n : Nat) (g : Lane → Lane) : Notes d (d.modLane n g) :=
  (keeps_modLane (as := [.lanes]) [] d n g (by simp)).notes (by simp) (by simp)

theorem notes_sendBrz (d : Dev) (n ty : Nat) (pl : List Byte) : Notes d (d.sendBrz n ty pl) := by
  have hsent (x : Emission) (g : Lane → Lane) : Notes d ((d.emit x).modLane n g) := (notes_emit d x).trans (notes_modLane _ n g)
  exact Notes.ite (fun _ => hsent _ _) fun _ => ((hsent _ _).trans (notes_wr _ _ _ (by decide))).trans (notes_wr _ _ _ (by decide))

theorem notes_flushBrz (n : Nat) (ms : List (Nat × List Byte)) (d : Dev) : Notes d (d.flushBrz n ms) := by
  induction ms generalizing d with
  | nil => exact notes_modLane d n _
  | cons m ms ih => exact Notes.ite (fun _ => (notes_sendBrz d n m.1 m.2).trans (ih _)) fun _ => notes_modLane d n _

theorem notes_queueBrz (d : Dev) (n ty : Nat) (pl : List Byte) : Notes d (d.queueBrz n ty pl) :=
  Notes.ite (fun _ => Notes.refl d) fun _ => Notes.ite (fun _ => (notes_modLane d n _).trans (notes_modLane _ n _)) fun _ =>
    (notes_modLane d n _).trans (notes_flushBrz n _ _)

/-- Breeze with its register and its lane state as they begin, and nothing sent. -/
def Dev.brzBegun (d : Dev) (n : Nat) : Dev :=
  ((((d.setReg .LN_BRZ_STATUS n 0#32).put F.LN_BRZ_STATUS_active (bitOf (d.capByte n 2) 3) n).modLane n fun l =>
    { l with credits := if bitOf (d.capByte n 2) 3 then
               ((d.setReg .LN_BRZ_STATUS n 0#32).put F.LN_BRZ_STATUS_active (bitOf (d.capByte n 2) 3) n).capByte n 6 else 0
             release := 0, used := 0, relDue := false, queue := [], ident := [], pstatLast := [], twinLast := [] })).noteCredits n

theorem Dev.startBreeze_eq (d : Dev) (n : Nat) : d.startBreeze n = if bitOf (d.capByte n 2) 3 then
    ((d.brzBegun n).sendBrz n 0 []).queueBrz n 1 (le 4 0x4F4C1152 ++ le 8 Config.serial ++ le 4 Config.firmware) else d.brzBegun n := rfl

/-- Breeze runs where the partner's CAP says so, and what was put out stays. -/
theorem Dev.startBreeze_shows (d : Dev) (n : Nat) :
    (d.startBreeze n).flag F.LN_BRZ_STATUS_active n = bitOf (d.capByte n 2) 3 ∧ d.emitted <:+ (d.startBreeze n).emitted := by
  have hbegun : (d.brzBegun n).flag F.LN_BRZ_STATUS_active n = bitOf (d.capByte n 2) 3 := by
    rw [Dev.brzBegun, Dev.noteCredits, Dev.flag_wr_sep _ _ _ _ n (by decide) (by decide), Dev.flag_modLane,
      Dev.flag_put_self _ _ _ n (by decide) rfl]
  have hemitted : (d.brzBegun n).emitted = d.emitted := by
    rw [Dev.brzBegun, Dev.noteCredits, Dev.emitted_wr, Dev.emitted_modLane, Dev.emitted_put, Dev.setReg_emitted]
  rw [Dev.startBreeze_eq, ← hemitted]
  generalize d.brzBegun n = e at hbegun
  split
  · have hfields := (fieldsOnly_sendBrz e n 0 []).trans (fieldsOnly_queueBrz _ n 1 (le 4 0x4F4C1152 ++ le 8 Config.serial ++ le 4 Config.firmware))
    exact ⟨(hfields.flag _ rfl (by decide)).trans hbegun, ((notes_sendBrz e n 0 []).trans (notes_queueBrz _ n 1 _)).emitted⟩
  · exact ⟨hbegun, List.suffix_refl _⟩

/-! ### ACTIVE -/

/-- The partner's CAP is read from its registers alone. -/
theorem Keeps.capByte {as : List Area} {rs : List RegName} {d e : Dev} (h : Keeps as rs d e) (n k : Nat)
    (h0 : RegName.LN_CAP_RX0 ∉ rs) (h1 : RegName.LN_CAP_RX1 ∉ rs) (h2 : RegName.LN_CAP_RX2 ∉ rs) (h3 : RegName.LN_CAP_RX3 ∉ rs) :
    e.capByte n k = d.capByte n k := by
  unfold Dev.capByte
  rw [h.rd n h0, h.rd n h1, h.rd n h2, h.rd n h3]

/-- A pair that enters ACTIVE runs Breeze where the partner's CAP says so. -/
theorem Dev.setLane_activates (d : Dev) {n : Nat} (hn : n < 384) (h : d.lnState n ≠ 6) :
    (d.setLane n 6).lnState n = 6 ∧ d.emitted <:+ (d.setLane n 6).emitted
    ∧ (d.setLane n 6).flag F.LN_BRZ_STATUS_active n = bitOf (d.capByte n 2) 3 := by
  have hn' : n < 65536 := by omega
  rw [d.setLane_active n h]
  have hregs : OnPair n [.lanes] laneRegs d (d.enterRegs n 6) :=
    onPair_enterRegs d 6 hn' (by simp) (List.Subset.refl _) (by simp) (by simp)
  have hstate := d.lnState_enterRegs n 6 (by decide)
  have hemitted := d.emitted_enterRegs n 6
  generalize d.enterRegs n 6 = e at hregs hstate hemitted
  have hwords : Keeps [.lanes] [] e (e.startWords n) := keeps_modLane _ e n _ (by simp)
  have hbreeze : OnPair n [.lanes, .emitted] [.LN_BRZ_STATUS] (e.startWords n) ((e.startWords n).startBreeze n) :=
    onPair_startBreeze _ hn' (by simp) (by simp) (by simp)
  obtain ⟨hactive, hsent⟩ := (e.startWords n).startBreeze_shows n
  have hcap : (e.startWords n).capByte n 2 = d.capByte n 2 :=
    (hwords.capByte n 2 (by simp) (by simp) (by simp) (by simp)).trans
      (hregs.keeps.capByte n 2 (by decide) (by decide) (by decide) (by decide))
  have hold : (e.startWords n).emitted = d.emitted := (hwords.2.1 .emitted (by simp)).trans hemitted
  generalize (e.startWords n).startBreeze n = f at hbreeze hactive hsent
  have hev : EvOnly f ((f.occur (evIL n) 0x21).refreshDown n) := (evOnly_occur _ _ _ _ _ _ _).trans (evOnly_refreshDown _ n)
  have hnotes : Notes f ((f.occur (evIL n) 0x21).refreshDown n) := (notes_occur _ _ _ _ _ _ _).trans (notes_refreshDown _ n)
  refine ⟨?_, hold ▸ hsent.trans hnotes.emitted, ?_⟩
  · rw [Keeps.lnState hev n (by decide), hbreeze.keeps.lnState n (by decide), hwords.lnState n (by decide)]
    exact hstate
  · rw [hev.flag n (by decide), hactive, hcap]

/-! ### The obligation -/

/-- A CAP leaves, and is counted once the partner's is accepted. -/
def Dev.countCap (d : Dev) (n : Nat) : Dev :=
  (d.emit (.lane n (.cap (d.ownCap n)))).modLane n fun l => { l with capSent := if l.capOk then l.capSent + 1 else 0 }

theorem exec_capSend (s : State) (t n : Nat) : exec (.capSend t n) s = onLane n t s fun d =>
    if d.lnState n = 5 then (d.countCap n).tryActive n else d := rfl

theorem Dev.lane_countCap (d : Dev) (n : Nat) : (d.countCap n).lane n =
    { d.lane n with capSent := if (d.lane n).capOk then (d.lane n).capSent + 1 else 0 } := by
  rw [Dev.countCap, Dev.lane_modLane_self, Dev.lane_emit]

theorem onPair_countCap (d : Dev) (n : Nat) : OnPair n [.lanes, .emitted] [] d (d.countCap n) :=
  ((OnPair.refl n _ _ d).emit _ (by simp)).modLane _ (by simp)

theorem Dev.emitted_countCap (d : Dev) (n : Nat) : (d.countCap n).emitted = .lane n (.cap (d.ownCap n)) :: d.emitted := by
  rw [Dev.countCap, Dev.emitted_modLane, Dev.emit_emitted]

theorem exec_laneStateTimeout (s : State) (t n : Nat) : exec (.laneStateTimeout t n) s = execLaneStateTimeout t n s := rfl

/-- A pair that stays too long in a state of the bring-up fails with the state's cause (Table 3-5). -/
theorem runs_laneStateTimeout_fails {s : State} {t n v ms cause : Nat} {d : Dev} (hd : d = s.on t) (hn : n < 384)
    (hsafe : d.flag F.CLK_STATUS_safe = false) (hv : d.lnState n = v)
    (hm : (v, ms, cause) ∈ [(2, 20, 1), (3, 20, 3), (4, 10, 4), (5, 10, 5)]) (hpassed : (d.lane n).since + ms * msU ≤ d.now) :
    Runs (.laneStateTimeout t n) s fun d' => Fails d d' n cause := by
  subst hd
  have hexec := exec_laneStateTimeout s t n
  unfold execLaneStateTimeout at hexec
  refine Runs.of_onLane hexec hn hsafe ?_
  have hfails (c : Nat) (hc : c < 16) := (s.on t).failLane_fails hn hc
  simp only [List.mem_cons, Prod.mk.injEq, List.not_mem_nil, or_false] at hm
  rcases hm with ⟨rfl, rfl, rfl⟩ | ⟨rfl, rfl, rfl⟩ | ⟨rfl, rfl, rfl⟩ | ⟨rfl, rfl, rfl⟩ <;>
    simpa only [hv, hpassed, decide_true, if_true] using hfails _ (by decide)

/-- A failed pair tries again after 100 ms (R111). -/
theorem runs_laneStateTimeout_retries {s : State} {t n : Nat} {d : Dev} {P : Dev → Prop} (hd : d = s.on t) (hn : n < 384)
    (hsafe : d.flag F.CLK_STATUS_safe = false) (h7 : d.lnState n = 7) (hpassed : (d.lane n).since + 100 * msU ≤ d.now)
    (hP : P (d.setLane n 1)) : Runs (.laneStateTimeout t n) s P := by
  subst hd
  have hexec := exec_laneStateTimeout s t n
  unfold execLaneStateTimeout at hexec
  refine Runs.of_onLane hexec hn hsafe ?_
  simpa only [h7, hpassed, decide_true, if_true] using hP

/-- Settles O15: WT2 words and CAP copies are noted before `Dev.tryCap`, `Dev.acceptCap` and `Dev.tryActive` judge them. -/
theorem laneHandshake : Obligations.LaneHandshake := by
  refine ⟨?toCap, ?counted, ?invalid, ?copies, ?accepted, ?refused, ?flagged, ?sent, ?toActive, ?timeout, ?retry⟩
  case toCap =>
    rintro s t n inP d hd hears h4 hready hw
    refine runs_wt2Received hd hears h4 (by decide) ?_
    have hpair := onPair_hearWt2 d n .ready
    have hlane := d.lane_hearWt2 n .ready
    rw [Dev.tryCap_goes _ n ((hpair.keeps.lnState n (by simp)).trans h4)
      (by rw [hlane]; exact hready.imp_left fun h => Nat.succ_le_succ h) (by rwa [Dev.wordsIn_hearWt2])]
    have hent := (d.hearWt2 n .ready).setLane_enters n (v := 5) (by decide) (by decide)
    have hall : OnPair n (.lanes :: evAreas) laneRegs d _ :=
      hpair.mono.trans (onPair_setLane (d.hearWt2 n .ready) 5 hears.1 (List.Subset.refl _) (by simp) (by simp))
    refine ⟨hent.state, ?_, ?_, hall.others, hall.keeps⟩
    · rw [hent.lane, hlane]
      rfl
    · rw [hent.lane]
      exact hpair.keeps.1
  case counted =>
    rintro s t n st inP d hd hears h4 hst hseen h
    refine runs_wt2Received hd hears h4 hst ?_
    have hpair := onPair_hearWt2 d n st
    have hlane := d.lane_hearWt2 n st
    rw [Dev.tryCap_stays _ n (.inr (by
      rw [hlane, Dev.wordsIn_hearWt2]
      refine h.imp_left fun hrun => ⟨?_, hseen⟩
      dsimp only
      split <;> omega))]
    exact ⟨hlane, hpair.others, hpair.keeps⟩
  case invalid =>
    rintro s t n inP d rfl hears
    refine Runs.of_onWords (exec_wt2Received s t n .other inP) hears ?_
    rw [if_pos rfl]
    have hhear := onPair_hear (s.on t) n []
    obtain ⟨hpair, hcode, hlane⟩ := ((s.on t).hear n).codeErrors_shows 1 hears.1
    have hset := onPair_hearSet (((s.on t).hear n).codeErrors n 1) n []
    have hall : OnPair n [.lanes] [.LN_CNT_CODE] (s.on t) _ := (hhear.mono.trans hpair).trans hset.mono
    refine ⟨?_, ?_, hall.others, hall.keepsOthers _, hall.keeps⟩
    · rw [hset.keeps.rd n (by simp), hcode, hhear.keeps.rd n (by simp)]
    · rw [Dev.lane_hearSet, hlane, Dev.lane_hear]
  case copies =>
    rintro s t n cap d hd hears h45 hstay hfew
    refine runs_capReceived hd hears h45 hstay ?_
    rw [if_neg (by
      rintro ⟨-, hcount⟩
      rw [Lane.capCount] at hcount
      split at hcount
      · next hsame => exact hfew.elim (fun h => h hsame) fun h => by omega
      · omega)]
    have hpair := onPair_hearCap d n (fit 15 cap) []
    exact ⟨d.lane_hearCap n (fit 15 cap), hpair.others, hpair.keeps⟩
  case accepted =>
    rintro s t n cap d hd hears h5 hsame hrun hfits hwait
    refine runs_capReceived hd hears (.inr h5) (.inl h5) ?_
    have hpair := onPair_hearCap d n (fit 15 cap) []
    have hlane := d.lane_hearCap n (fit 15 cap)
    have htaken := (d.hearCap n (fit 15 cap)).takeCap_taken (fit 15 cap) hears.1
    have hstate := hpair.keeps.lnState n (by simp)
    rw [if_pos ⟨h5, by rw [Lane.capCount, if_pos hsame]; omega⟩,
      Dev.acceptCap_fits _ n _ ((hpair.keeps.capFits n _ (by simp)).trans hfits), Dev.tryActive_stays _ n (by
        rw [htaken.lane, hlane]
        exact .inr hwait)]
    have hall := hpair.mono.trans htaken.pair
    exact ⟨htaken.state.trans (hstate.trans h5), by rw [htaken.lane], by rw [htaken.lane], htaken.cap0, htaken.cap1, htaken.cap2,
      htaken.cap3, hall.others, hall.keeps⟩
  case refused =>
    rintro s t n cap d hd hears h5 hsame hrun hmisfit
    refine runs_capReceived hd hears (.inr h5) (.inl h5) ?_
    have hpair := onPair_hearCap d n (fit 15 cap) []
    rw [if_pos ⟨h5, by rw [Lane.capCount, if_pos hsame]; omega⟩,
      Dev.acceptCap_misfits _ n _ ((hpair.keeps.capFits n _ (by simp)).trans hmisfit)]
    exact (Dev.failLane_fails _ hears.1 (by decide)).from hpair
  case flagged =>
    rintro s t n cap d rfl hears h6
    refine Runs.of_onWords (exec_capReceived s t n cap) hears ?_
    rw [Dev.lnState_hearSet, if_pos h6]
    have hset := onPair_hearSet (s.on t) n []
    have hev := evOnly_occur (((s.on t).hearSet n).raise F.LN_ERR_cap_active n) (evIL n) 0x26 0 0 1 none
    have hraise : OnPair n (.lanes :: evAreas) (.LN_ERR :: evRegs) ((s.on t).hearSet n) (((s.on t).hearSet n).capInActive n) :=
      ((OnPair.refl n _ _ _).raise (by omega)).ev hev (by simp) (by simp)
    have hall := hset.mono.trans hraise
    refine ⟨?_, ?_, hall.others, hall.keeps⟩
    · rw [Dev.capInActive, hev.flag n (by decide)]
      exact Dev.flag_raise_self _ _ n (by decide) rfl
    · rw [Dev.capInActive, hev.lane, Dev.lane_raise, Dev.lane_hearSet]
  case sent =>
    rintro s t n d rfl hn hsafe h5 hwait
    refine Runs.of_onLane (exec_capSend s t n) hn hsafe ?_
    have hpair := onPair_countCap (s.on t) n
    have hlane := (s.on t).lane_countCap n
    rw [if_pos h5, Dev.tryActive_stays _ n (by
      rw [hlane]
      refine hwait.imp_right (.imp_right fun h => ?_)
      dsimp only
      split <;> omega)]
    exact ⟨(s.on t).emitted_countCap n, hlane, hpair.others, hpair.keeps⟩
  case toActive =>
    rintro s t n d rfl hn hsafe h5 hok hpeer hsent
    refine Runs.of_onLane (exec_capSend s t n) hn hsafe ?_
    have hpair := onPair_countCap (s.on t) n
    have hlane := (s.on t).lane_countCap n
    have hstate : ((s.on t).countCap n).lnState n = 5 := (hpair.keeps.lnState n (by simp)).trans h5
    rw [if_pos h5, Dev.tryActive_goes _ n hstate (by rw [hlane]; exact hok) (by rw [hlane]; exact hpeer)
      (by rw [hlane, hok]; exact Nat.succ_le_succ hsent)]
    obtain ⟨hactive, hkept, hbrz⟩ := ((s.on t).countCap n).setLane_activates hn (by omega)
    have hall : OnPair n (.lanes :: evAreas) laneRegs (s.on t) _ :=
      (hpair.mono (by simp [evAreas]) (by simp)).trans (onPair_setLane ((s.on t).countCap n) 6 hn (List.Subset.refl _) (by simp) (by simp))
    refine ⟨hactive, hkept.subset ?_, ?_, hall.others, hall.keeps⟩
    · rw [Dev.emitted_countCap]
      exact List.mem_cons_self ..
    · rw [hbrz, hpair.keeps.capByte n 2 (by simp) (by simp) (by simp) (by simp)]
  case timeout => exact fun s t n ms cause d hd hn hsafe hm => runs_laneStateTimeout_fails hd hn hsafe rfl hm
  case retry =>
    rintro s t n d hd hn hsafe h7 hpassed
    refine runs_laneStateTimeout_retries hd hn hsafe h7 hpassed ?_
    have hpair : OnPair n (.lanes :: evAreas) laneRegs d _ := onPair_setLane d 1 hn (List.Subset.refl _) (by simp) (by simp)
    exact ⟨(d.setLane_enters n (by decide) (by decide)).state, hpair.others, hpair.keeps⟩

end Sys2Proof.Machine
end

section
/-! SUPPORT. Obligation O16: ingress recovery (R104, R109, R120 to R123). -/

namespace Sys2Proof.Machine

/-! ### The commands -/

/-- The receiver has no signal. -/
def Dev.loseSignal (d : Dev) (n : Nat) : Dev := d.modLane n fun l => { l with noSignal := true }

theorem exec_rxSquelch (s : State) (t n : Nat) : exec (.rxSquelch t n) s = onLane n t s fun d =>
    if d.flag F.LN_STATUS_rx_idle n || d.lnState n == 0 then d else (d.loseSignal n).beginRecovery n := rfl

theorem exec_rxBitLockLost (s : State) (t n : Nat) : exec (.rxBitLockLost t n) s = onLane n t s fun d =>
    if d.flag F.LN_STATUS_rx_idle n then d else (d.put F.LN_STATUS_rx_bitlock false n).beginRecovery n := rfl

theorem exec_skpTimeout (s : State) (t n : Nat) : exec (.skpTimeout t n) s = onLane n t s fun d => d.rxError n := rfl

theorem exec_errorWindowEnd (s : State) (t n code disp : Nat) : exec (.errorWindowEnd t n code disp) s = onWords n t s fun d =>
    if !d.windowOver n then d
    else (d.endWindow n code disp).when (decide (16 ≤ d.windowErrors n code disp)) fun d => d.beginRecovery n := rfl

theorem exec_recoveryRequestSend (s : State) (t n : Nat) : exec (.recoveryRequestSend t n) s = onLane n t s fun d =>
    if d.flag F.LN_STATUS_rx_recover n && !d.flag F.LN_STATUS_tx_idle n then d.emit (.lane n (.wt2 2)) else d := rfl

/-- A run of IDL words leaves, and is noted. -/
def Dev.sendRun (d : Dev) (n : Nat) : Dev :=
  ((d.emit (.lane n (.idl 64))).noteBusy n).modLane n fun l => { l with owed := !d.requestOver n, ran := true }

theorem exec_idlRunSend (s : State) (t n : Nat) : exec (.idlRunSend t n) s = onLane n t s fun d =>
    if d.runOwed n && d.lnState n == 6 then d.sendRun n else d := rfl

theorem exec_ingressRecoveryTimeout (s : State) (t n : Nat) : exec (.ingressRecoveryTimeout t n) s = onLane n t s fun d =>
    if d.flag F.LN_STATUS_rx_recover n && d.flag F.LN_CTRL_los_teardown n && decide ((d.lane n).recFrom + 100 * msU ≤ d.now) then
      d.failLane n (if (d.lane n).noSignal then 7 else 8)
    else d := rfl

theorem exec_skpReceived (s : State) (t n : Nat) : exec (.skpReceived t n) s = onWords n t s fun d => d.hear n := rfl

theorem Receiving.hears {d : Dev} {n : Nat} (h : Receiving d n) : Hears d n := by
  obtain ⟨hn, hsafe, h6, hidle, -⟩ := h
  exact ⟨hn, hsafe, by omega, hidle⟩

/-! ### The obligation -/

/-- Settles O16: every cause of recovery changes the pair a little and then begins it by `Dev.beginRecovery`. -/
theorem ingressRecovery : Obligations.IngressRecovery := by
  refine ⟨?squelch, ?lockLost, ?noSkp, ?errors, ?counted, ?request, ?run, ?teardown, ?stays, ?skp⟩
  case squelch =>
    rintro s t n d rfl ⟨hn, hsafe, h6, hidle, hrec⟩
    refine Runs.of_onLane (exec_rxSquelch s t n) hn hsafe ?_
    have he : OnPair n [.lanes] [] (s.on t) ((s.on t).loseSignal n) := onPair_modLane _ n _ _
    have hbegins := ((s.on t).loseSignal n).beginRecovery_begins hn ((he.keeps.lnState n (by simp)).trans h6)
      ((he.keeps.flag n (by simp)).trans hrec)
    rw [if_neg (by simp [hidle, h6])]
    refine ⟨hbegins.recovers.from he, hbegins.noSignal.trans ?_, (he.keeps.mono (by simp) (by simp)).trans hbegins.pair.keeps⟩
    rw [Dev.loseSignal, Dev.lane_modLane_self]
  case lockLost =>
    rintro s t n d rfl ⟨hn, hsafe, h6, hidle, hrec⟩
    refine Runs.of_onLane (exec_rxBitLockLost s t n) hn hsafe ?_
    have he : OnPair n [.lanes] [.LN_STATUS] (s.on t) ((s.on t).put F.LN_STATUS_rx_bitlock false n) :=
      (OnPair.refl n _ _ _).put _ (by omega)
    have hbegins := ((s.on t).put F.LN_STATUS_rx_bitlock false n).beginRecovery_begins hn
      (((s.on t).rd_put_sep _ _ _ n (by decide) (by decide)).trans h6)
      (((s.on t).flag_put_sep _ _ _ n (by decide) (by decide)).trans hrec)
    rw [hidle, if_neg (by decide)]
    exact ⟨hbegins.recovers.from he, hbegins.bitlock.trans ((s.on t).flag_put_self _ _ n (by decide) rfl),
      (he.keeps.mono (by simp) (by simp)).trans hbegins.pair.keeps⟩
  case noSkp =>
    rintro s t n d rfl ⟨hn, hsafe, h6, hidle, hrec⟩
    refine Runs.of_onLane (exec_skpTimeout s t n) hn hsafe ?_
    have hbegins := (s.on t).beginRecovery_begins hn h6 hrec
    rw [Dev.rxError, hidle, if_neg (by decide)]
    exact ⟨hbegins.recovers, hbegins.pair.keeps⟩
  case errors =>
    rintro s t n code disp d rfl hrecv hover hmany
    obtain ⟨hn, hsafe, h6, hidle, hrec⟩ := id hrecv
    refine Runs.of_onWords (exec_errorWindowEnd s t n code disp) hrecv.hears ?_
    obtain ⟨he, hcode, hdisp, -⟩ := (s.on t).endWindow_shows code disp hn
    have hbegins := ((s.on t).endWindow n code disp).beginRecovery_begins hn ((he.keeps.lnState n (by decide)).trans h6)
      ((he.keeps.flag n (by decide)).trans hrec)
    rw [hover, Bool.not_true, if_neg (by decide), Dev.windowErrors, decide_eq_true hmany, Dev.when, if_pos rfl]
    refine ⟨hbegins.recovers.from he, (hbegins.pair.keeps.rd n (by decide)).trans hcode, (hbegins.pair.keeps.rd n (by decide)).trans hdisp,
      (he.keeps.mono (by simp) (by simp)).trans (hbegins.pair.keeps.mono (by simp) (by decide))⟩
  case counted =>
    rintro s t n code disp d rfl hears hover hfew
    refine Runs.of_onWords (exec_errorWindowEnd s t n code disp) hears ?_
    obtain ⟨he, hcode, hdisp, hlane⟩ := (s.on t).endWindow_shows code disp hears.1
    rw [hover, Bool.not_true, if_neg (by decide), Dev.when, if_neg (by rw [decide_eq_true_eq, Dev.windowErrors]; omega)]
    exact ⟨hcode, hdisp, hlane, he.others, he.keepsOthers _, he.keeps⟩
  case request =>
    rintro s t n d rfl hn hsafe hrec hidle
    refine Runs.of_onLane (exec_recoveryRequestSend s t n) hn hsafe ?_
    rw [hrec, hidle, if_pos (by decide)]
    exact ⟨rfl, keeps_emit _ _ _ (by simp)⟩
  case run =>
    rintro s t n d rfl hn hsafe howed hmore h6
    refine Runs.of_onLane (exec_idlRunSend s t n) hn hsafe ?_
    have howes : (s.on t).runOwed n = true := by
      rw [Dev.runOwed, howed]
      rcases hmore with h | h <;> simp [h]
    have hpair : OnPair n [.lanes, .emitted] [] (s.on t) ((s.on t).sendRun n) :=
      (((OnPair.refl n _ _ _).emit _ (by simp)).modLane _ (by simp)).modLane _ (by simp)
    rw [howes, h6, if_pos (by decide)]
    refine ⟨?_, ?_, hpair.others, hpair.keeps⟩
    · rw [Dev.sendRun, Dev.emitted_modLane, Dev.noteBusy, Dev.emitted_modLane, Dev.emit_emitted]
    · rw [Dev.sendRun, Dev.lane_modLane_self, Dev.noteBusy, Dev.lane_modLane_self, Dev.lane_emit, Dev.emit_now]
  case teardown =>
    rintro s t n d rfl hn hsafe hrec htear hlong
    refine Runs.of_onLane (exec_ingressRecoveryTimeout s t n) hn hsafe ?_
    rw [hrec, htear, decide_eq_true hlong, if_pos (by decide)]
    exact (s.on t).failLane_fails hn (by split <;> decide)
  case stays =>
    rintro s t n hn htear
    exact OnlyTime.of_onLane (exec_ingressRecoveryTimeout s t n) hn fun _ => by rw [htear, Bool.and_false, Bool.false_and, if_neg (by decide)]
  case skp =>
    rintro s t n d rfl hears
    refine Runs.of_onWords (exec_skpReceived s t n) hears ?_
    have hpair := onPair_hear (s.on t) n []
    exact ⟨(s.on t).lane_hear n, hpair.others, hpair.keeps⟩

end Sys2Proof.Machine
end

section
/-! SUPPORT. Obligation O17: electrical idle (R124, R127 to R132, R135, R144), and the stillness of the clock safe state (R447). -/

namespace Sys2Proof.Machine

/-! ### LULL (R129, R144) -/

/-- Whether electrical idle is in use hangs on the pair's state, its rate and the partner's CAP. -/
theorem Keeps.idleUsed {as : List Area} {rs : List RegName} {d e : Dev} (h : Keeps as rs d e) (n : Nat)
    (hr : ∀ r ∈ rs, r ∉ [RegName.LN_STATUS, .LN_OCT_CTRL, .LN_CAP_RX0, .LN_CAP_RX1, .LN_CAP_RX2, .LN_CAP_RX3]) :
    e.idleUsed n = d.idleUsed n := by
  have hnot (r : RegName) (hm : r ∈ [RegName.LN_STATUS, .LN_OCT_CTRL, .LN_CAP_RX0, .LN_CAP_RX1, .LN_CAP_RX2, .LN_CAP_RX3]) : r ∉ rs :=
    fun hrs => hr r hrs hm
  unfold Dev.idleUsed Dev.laneRate
  rw [h.lnState n (hnot _ (by decide)), h.rd (n / 8) (hnot _ (by decide)),
    h.capByte n 2 (hnot _ (by decide)) (hnot _ (by decide)) (hnot _ (by decide)) (hnot _ (by decide))]

/-- LULL words are heard; a parcel that they stand in is cut short. -/
def Dev.hearLull (d : Dev) (n : Nat) (inP : Bool) : Dev := (d.hearSet n).when (inP && (d.hearSet n).rxOpen n) fun d => d.cutShort n

theorem exec_lullReceived (s : State) (t n words : Nat) (inP : Bool) : exec (.lullReceived t n words inP) s = onWords n t s fun d =>
    if (d.hearLull n inP).idleUsed n then
      if 2 ≤ words ∧ !(d.hearLull n inP).flag F.LN_STATUS_rx_recover n then (d.hearLull n inP).put F.LN_STATUS_rx_idle true n
      else d.hearLull n inP
    else (d.hearLull n inP).codeErrors n words := rfl

/-- What LULL words that a pair hears in or out of a parcel change. -/
def lullAreas (inP : Bool) : List Area := .lanes :: if inP then evAreas else []
def lullRegs (inP : Bool) : List RegName := .LN_CNT_PCL :: if inP then evRegs else []

/-- LULL words of a pair whose ingress is open count the parcel that they cut short, and are heard. -/
theorem Dev.hearLull_shows (d : Dev) {n : Nat} (inP : Bool) (hn : n < 384) (hopen : d.rxOpen n = true) :
    OnPair n (lullAreas inP) (lullRegs inP) d (d.hearLull n inP)
    ∧ (d.hearLull n inP).rd F.LN_CNT_PCL_len_err n = min (d.rd F.LN_CNT_PCL_len_err n + b2n inP) 65535
    ∧ (d.hearLull n inP).lane n = { d.lane n with noSignal := false, run21 := 0, restartRun := 0 } := by
  have hset := onPair_hearSet d n []
  have hopenSet : (d.hearSet n).rxOpen n = true := by
    rw [← hopen, Dev.rxOpen, Dev.rxOpen, hset.keeps.lnState n (by simp), hset.keeps.flag n (by simp), hset.keeps.flag n (by simp)]
  have hcount : (d.hearSet n).rd F.LN_CNT_PCL_len_err n = d.rd F.LN_CNT_PCL_len_err n := hset.keeps.rd n (by simp)
  rw [Dev.hearLull, hopenSet, Bool.and_true, ← hcount, ← d.lane_hearSet n]
  generalize d.hearSet n = e at hset
  cases inP
  case false =>
    have hlt := e.rd_lt F.LN_CNT_PCL_len_err n
    rw [show F.LN_CNT_PCL_len_err.width = 16 from rfl] at hlt
    exact ⟨hset.mono (by simp [lullAreas]) (by simp), (Nat.min_eq_left (Nat.le_of_lt_succ hlt)).symm, rfl⟩
  case true =>
    rw [Dev.when, if_pos rfl]
    have hev := evOnly_occur (e.bump F.LN_CNT_PCL_len_err n) (evIL n) 0x23 0 0 1 none
    have hcut : OnPair n (lullAreas true) (lullRegs true) e (e.cutShort n) :=
      ((OnPair.refl n _ _ e).bump _ (by omega)).ev hev (by decide) (by decide)
    refine ⟨(hset.mono (by simp [lullAreas]) (by simp)).trans hcut, ?_, ?_⟩
    · rw [Dev.cutShort, hev.rd n (by decide), Dev.rd_bump_self _ _ n _ (by decide)]
      rfl
    · rw [Dev.cutShort, hev.lane, Dev.lane_bump]

/-! ### Zephyr bursts (R124, R131) -/

/-- A burst without its comma is flagged. -/
def Dev.failZephyr (d : Dev) (n : Nat) : Dev := (d.raise F.LN_ERR_zephyr_fail n).occur (evIL n) 0x24

/-- The ingress of pair `n` is awake. -/
def Dev.wakeRx (d : Dev) (n : Nat) : Dev := (d.hearSet n).put F.LN_STATUS_rx_idle false n

theorem exec_zephyrBurstReceived (s : State) (t n wt1 : Nat) (comma : Bool) :
    exec (.zephyrBurstReceived t n comma wt1) s = onLane n t s fun d =>
      if d.lnState n = 6 then
        if 64 < wt1 then (d.hearSet n).partnerRestart n 2
        else if comma then d.wakeRx n else ((d.wakeRx n).failZephyr n).beginRecovery n
      else d := rfl

theorem onPair_wakeRx (d : Dev) {n : Nat} (hn : n < 384) : OnPair n [.lanes] [.LN_STATUS] d (d.wakeRx n) :=
  (onPair_hearSet d n _).put _ (by omega)

/-- A burst without its comma flags the failure, and leaves what recovery looks at. -/
theorem Dev.failZephyr_shows (d : Dev) {n : Nat} (hn : n < 384) :
    OnPair n (.lanes :: evAreas) (.LN_ERR :: evRegs) d (d.failZephyr n) ∧ (d.failZephyr n).flag F.LN_ERR_zephyr_fail n = true := by
  have hev := evOnly_occur (d.raise F.LN_ERR_zephyr_fail n) (evIL n) 0x24 0 0 1 none
  refine ⟨((OnPair.refl n _ _ d).raise (by omega)).ev hev (by simp) (by simp), ?_⟩
  rw [Dev.failZephyr, hev.flag n (by decide)]
  exact d.flag_raise_self _ n (by decide) rfl

/-! ### The members of a twin set (R133) -/

theorem Dev.members_lt (d : Dev) {n : Nat} (hn : n < 384) : ∀ m ∈ d.members n, m < 384 := by
  intro m hm
  unfold Dev.members at hm
  split at hm <;> simp only [List.mem_cons, List.not_mem_nil, or_false] at hm <;> omega

theorem Dev.members_nodup (d : Dev) (n : Nat) : (d.members n).Nodup := by
  unfold Dev.members
  split <;> simp

/-- Pair `m` is the same, beside the registers of the event unit. -/
structure SamePair (m : Nat) (d e : Dev) : Prop where
  lane : e.lane m = d.lane m
  reg : ∀ r, r ∉ evRegs → e.reg r m = d.reg r m

theorem SamePair.refl (m : Nat) (d : Dev) : SamePair m d d := ⟨rfl, fun _ _ => rfl⟩

theorem SamePair.trans {m : Nat} {d e f : Dev} (h : SamePair m d e) (k : SamePair m e f) : SamePair m d f :=
  ⟨k.lane.trans h.lane, fun r hr => (k.reg r hr).trans (h.reg r hr)⟩

theorem SamePair.flag {m : Nat} {d e : Dev} (h : SamePair m d e) (f : Field) (hf : f.reg ∉ evRegs) : e.flag f m = d.flag f m := by
  rw [Dev.flag, Dev.flag, Dev.rd, Dev.rd, h.reg _ hf]

theorem OnPair.same {n m : Nat} {as : List Area} {rs : List RegName} {d e : Dev} (h : OnPair n as rs d e) (hm : m < 384)
    (hne : m ≠ n) : SamePair m d e := ⟨h.lanes m hne, fun r hr => h.regs r m hr (by omega) hne⟩

/-- What is done to each of some pairs, each once, and to no other pair with it, finds each of them as before and leaves it as it made
it; and what it puts out stays. -/
theorem each_pairs {as : List Area} {rs : List RegName} {f : Dev → Nat → Dev}
    (hf : ∀ d m, m < 384 → OnPair m as rs d (f d m)) (hsent : ∀ d m, d.emitted <:+ (f d m).emitted) {ms : List Nat} (hms : ms.Nodup)
    (hlt : ∀ m ∈ ms, m < 384) (d : Dev) :
    Keeps as rs d (d.each ms f) ∧ d.emitted <:+ (d.each ms f).emitted
    ∧ (∀ m, m < 384 → m ∉ ms → SamePair m d (d.each ms f))
    ∧ ∀ m ∈ ms, ∃ x, SamePair m d x ∧ SamePair m (f x m) (d.each ms f) ∧ (f x m).emitted <:+ (d.each ms f).emitted := by
  induction ms generalizing d with
  | nil => exact ⟨Keeps.refl _ _ d, List.suffix_refl _, fun m _ _ => SamePair.refl m d, by simp⟩
  | cons n ms ih =>
    obtain ⟨hn, hms⟩ := List.nodup_cons.mp hms
    have hn384 := hlt n (by simp)
    have hfirst := hf d n hn384
    obtain ⟨hkeeps, hsuffix, hothers, hall⟩ := ih hms (fun m hm => hlt m (by simp [hm])) (f d n)
    refine ⟨hfirst.keeps.trans hkeeps, (hsent d n).trans hsuffix, fun m hm hnot => ?_, fun m hm => ?_⟩
    · obtain ⟨hne, hrest⟩ := not_or.mp (mt List.mem_cons.mpr hnot)
      exact (hfirst.same hm hne).trans (hothers m hm hrest)
    · rcases List.mem_cons.mp hm with rfl | hmem
      · exact ⟨d, SamePair.refl m d, hothers m hn384 hn, hsuffix⟩
      · have hne : m ≠ n := fun h => hn (h ▸ hmem)
        obtain ⟨x, hx, hafter, hout⟩ := hall m hmem
        exact ⟨x, (hfirst.same (hlt m (by simp [hm])) hne).trans hx, hafter, hout⟩

/-! ### Going idle and waking (R127 to R130, R135) -/

/-- A member goes idle after LULL, unless it is. -/
def Dev.idleOne (d : Dev) (m : Nat) : Dev :=
  if d.flag F.LN_STATUS_tx_idle m then d else (d.emit (.lane m (.lull 4))).put F.LN_STATUS_tx_idle true m

theorem exec_egressIdleEnter (s : State) (t n : Nat) : exec (.egressIdleEnter t n) s = onLane n t s fun d =>
    if (d.members n).all d.mayIdle then d.each (d.members n) Dev.idleOne else d := rfl

theorem onPair_idleOne (d : Dev) (m : Nat) (hm : m < 384) : OnPair m [.emitted] [.LN_STATUS] d (d.idleOne m) :=
  OnPair.ite (fun _ => OnPair.refl m _ _ d) fun _ => ((OnPair.refl m _ _ d).emit _ (by simp)).put _ (by omega)

theorem Dev.emitted_idleOne (d : Dev) (m : Nat) : d.emitted <:+ (d.idleOne m).emitted := by
  unfold Dev.idleOne
  split
  · exact List.suffix_refl _
  · exact List.suffix_cons _ _

theorem Dev.idleOne_shows (d : Dev) (m : Nat) :
    (d.idleOne m).reg .LN_STATUS m = F.LN_STATUS_tx_idle.put (d.reg .LN_STATUS m) 1
    ∧ (d.flag F.LN_STATUS_tx_idle m = false → Emission.lane m (.lull 4) ∈ (d.idleOne m).emitted) := by
  unfold Dev.idleOne
  split
  · next hidle =>
    have hget : F.LN_STATUS_tx_idle.get (d.reg .LN_STATUS m) = 1 :=
      (Dev.rd_of_flag (d := d) (f := F.LN_STATUS_tx_idle) rfl).trans (by rw [hidle]; rfl)
    exact ⟨by rw [← hget, Field.put_get], fun h => by rw [hidle] at h; cases h⟩
  · refine ⟨?_, fun _ => ?_⟩
    · exact (Dev.reg_wr_self _ F.LN_STATUS_tx_idle 1 m).trans (by rw [show F.LN_STATUS_tx_idle.reg = .LN_STATUS from rfl, Dev.reg_emit])
    · rw [Dev.emitted_put, Dev.emit_emitted]
      exact List.mem_cons_self ..

/-- A member's egress is awake, with its burst sent. -/
def Dev.wakeTx (d : Dev) (m : Nat) : Dev := ((d.put F.LN_STATUS_tx_idle false m).zephyr m).noteBusy m

/-- An idle member wakes, and Breeze goes on. -/
def Dev.wakeOne (d : Dev) (m : Nat) : Dev :=
  if d.flag F.LN_STATUS_tx_idle m then
    if (d.wakeTx m).brzOn m then ((d.wakeTx m).sendBrz m 0 []).flushBrz m ((d.wakeTx m).lane m).queue else d.wakeTx m
  else d

theorem Dev.wakeLane_eq (d : Dev) (n : Nat) : d.wakeLane n = d.each (d.members n) Dev.wakeOne := rfl

theorem exec_egressWake (s : State) (t n : Nat) : exec (.egressWake t n) s = onLane n t s fun d =>
    if d.laneRouted n || (d.members n).any (fun m => !(d.lane m).queue.isEmpty || d.runOwed m) then d.wakeLane n else d := rfl

/-- A member wakes: what that changes, what it puts out, and that its egress is awake. -/
theorem Dev.wakeOne_shows (d : Dev) {m : Nat} (hm : m < 384) :
    OnPair m [.lanes, .emitted] [.LN_STATUS, .LN_BRZ_STATUS] d (d.wakeOne m) ∧ (d.wakeOne m).flag F.LN_STATUS_tx_idle m = false
    ∧ (d.flag F.LN_STATUS_tx_idle m = true → Emission.lane m .zephyr ∈ (d.wakeOne m).emitted) := by
  have hm' : m < 65536 := by omega
  unfold Dev.wakeOne
  split
  case isFalse h => exact ⟨OnPair.refl m _ _ d, by simpa using h, fun hidle => absurd hidle h⟩
  case isTrue =>
    have hwake : OnPair m [.lanes, .emitted] [.LN_STATUS, .LN_BRZ_STATUS] d (d.wakeTx m) :=
      ((((OnPair.refl m _ _ d).put _ hm').emit _ (by simp)).modLane _ (by simp)).modLane _ (by simp)
    have hflag : (d.wakeTx m).flag F.LN_STATUS_tx_idle m = false := by
      rw [Dev.wakeTx, Dev.noteBusy, Dev.flag_modLane, Dev.zephyr, Dev.startWords, Dev.flag_modLane, Dev.flag_emit,
        d.flag_put_self _ _ m (by decide) rfl]
    have hsent : Emission.lane m .zephyr ∈ (d.wakeTx m).emitted := by
      rw [Dev.wakeTx, Dev.noteBusy, Dev.emitted_modLane, Dev.zephyr, Dev.startWords, Dev.emitted_modLane, Dev.emit_emitted]
      exact List.mem_cons_self ..
    generalize d.wakeTx m = e at hwake hflag hsent
    split
    · have hsend : OnPair m [.lanes, .emitted] [.LN_BRZ_STATUS] e ((e.sendBrz m 0 []).flushBrz m (e.lane m).queue) :=
        (onPair_sendBrz e 0 [] hm' (by simp) (by simp) (by simp)).trans (onPair_flushBrz hm' (by simp) (by simp) (by simp) _ _)
      exact ⟨hwake.trans (hsend.mono (by simp) (by simp)), (hsend.keeps.flag m (by decide)).trans hflag,
        fun _ => ((notes_sendBrz e m 0 []).trans (notes_flushBrz m _ _)).emitted.subset hsent⟩
    · exact ⟨hwake, hflag, fun _ => hsent⟩

theorem Dev.emitted_wakeOne (d : Dev) (m : Nat) : d.emitted <:+ (d.wakeOne m).emitted := by
  have hwake : Notes d (d.wakeTx m) :=
    (((notes_wr d _ m (by decide)).trans (notes_emit _ _)).trans (notes_modLane _ m _)).trans (notes_modLane _ m _)
  exact (Notes.ite (fun _ => Notes.ite (fun _ => (hwake.trans (notes_sendBrz _ m 0 [])).trans (notes_flushBrz m _ _)) fun _ => hwake)
    fun _ => Notes.refl d : Notes d (d.wakeOne m)).emitted

/-! ### The safe state (R447) -/

theorem exec_breezeBufferRelease (s : State) (t n : Nat) : exec (.breezeBufferRelease t n) s = onLane n t s fun d =>
    if (d.lane n).used = 0 then d else (d.modLane n fun l => { l with used := l.used - 1 }).releases n 1 := rfl

theorem exec_creditSend (s : State) (t n : Nat) : exec (.creditSend t n) s = onLane n t s fun d =>
    if d.brzOn n && !d.flag F.LN_STATUS_tx_idle n then d.sendBrz n 0 [] else d := rfl

theorem exec_tallySend (s : State) (t n : Nat) : exec (.tallySend t n) s = onLane n t s fun d => d.queueBrz n 3 (d.tallyPayload n) := rfl

theorem exec_twinSend (s : State) (t n : Nat) : exec (.twinSend t n) s = onLane n t s fun d =>
    if d.twinned n then d.queueBrz n 4 (d.twinPayload n) else d := rfl

theorem exec_timingSend (s : State) (t n : Nat) : exec (.timingSend t n) s = onLane n t s fun d => d.queueBrz n 5 (d.timingPayload n) := rfl

/-- In the safe state a lane command changes nothing but time. -/
theorem OnlyTime.of_safe {c : Instr} {s : State} {t n : Nat} {f : Dev → Dev} (h : exec c s = onLane n t s f) (hn : n < 384)
    (hsafe : (s.on t).flag F.CLK_STATUS_safe = true) : OnlyTime c s t :=
  OnlyTime.of_onLane h hn fun h => by rw [hsafe] at h; cases h

end Sys2Proof.Machine
end

section
/-! SUPPORT. Obligation O17: the clauses of electrical idle and of the safe state, put together. -/

namespace Sys2Proof.Machine

/-! ### LULL -/

/-- The ingress of an ACTIVE pair outside recovery and idle is open. -/
theorem Dev.rxOpen_of {d : Dev} {n : Nat} (h6 : d.lnState n = 6) (hrec : d.flag F.LN_STATUS_rx_recover n = false)
    (hidle : d.flag F.LN_STATUS_rx_idle n = false) : d.rxOpen n = true := by simp [Dev.rxOpen, h6, hrec, hidle]

theorem Dev.lnState_of_idleUsed {d : Dev} {n : Nat} (h : d.idleUsed n = true) : d.lnState n = 6 := by
  simp only [Dev.idleUsed, Bool.and_eq_true, beq_iff_eq] at h
  exact h.1.1

/-- LULL words of a pair that uses idle put its ingress to rest. -/
theorem runs_lullReceived_idles {s : State} {t n words : Nat} {inP : Bool} {d : Dev} {P : Dev → Prop} (hd : d = s.on t)
    (hears : Hears d n) (hused : d.idleUsed n = true) (hwords : 2 ≤ words) (hrec : d.flag F.LN_STATUS_rx_recover n = false)
    (hP : P ((d.hearLull n inP).put F.LN_STATUS_rx_idle true n)) : Runs (.lullReceived t n words inP) s P := by
  subst hd
  obtain ⟨hn, -, -, hidle⟩ := id hears
  obtain ⟨hpair, -, -⟩ := (s.on t).hearLull_shows inP hn (Dev.rxOpen_of (Dev.lnState_of_idleUsed hused) hrec hidle)
  refine Runs.of_onWords (exec_lullReceived s t n words inP) hears ?_
  rwa [hpair.keeps.idleUsed n (by cases inP <;> decide), hused, if_pos rfl,
    hpair.keeps.flag n (by cases inP <;> decide), hrec, if_pos ⟨hwords, rfl⟩]

/-! ### The obligation -/

/-- Settles O17: the going idle and the waking of a twin set go by `each_pairs`, a failed burst by `Dev.beginRecovery_begins`. -/
theorem electricalIdle : Obligations.ElectricalIdle := by
  refine ⟨?lull, ?lullUnused, ?idleTakesNone, ?zephyr, ?zephyrFails, ?zephyrRestarts, ?goIdle, ?stayAwake, ?wake, ?safe⟩
  case lull =>
    rintro s t n words inP d hd hears hused hwords hrec
    refine runs_lullReceived_idles hd hears hused hwords hrec ?_
    obtain ⟨hn, -, -, hidle⟩ := hears
    obtain ⟨hpair, hcount, hlane⟩ := d.hearLull_shows inP hn (Dev.rxOpen_of (Dev.lnState_of_idleUsed hused) hrec hidle)
    have hstatus : (d.hearLull n inP).reg .LN_STATUS n = d.reg .LN_STATUS n := hpair.keeps.2.2 _ n (by cases inP <;> decide)
    generalize d.hearLull n inP = e at hpair hcount hlane hstatus
    have hall : OnPair n (.lanes :: if inP then evAreas else []) (.LN_STATUS :: .LN_CNT_PCL :: if inP then evRegs else []) d
        (e.put F.LN_STATUS_rx_idle true n) :=
      (hpair.mono (List.Subset.refl _) (List.subset_cons_self _ _)).put _ (by omega) (List.mem_cons_self ..)
    refine ⟨?_, hall.keepsOthers _, ?_, hlane, (hall.setReg _ (by omega) (List.mem_cons_self ..)).others, hall.keeps⟩
    · exact (Dev.reg_wr_self e F.LN_STATUS_rx_idle 1 n).trans (by rw [← hstatus]; rfl)
    · rw [Dev.rd_put_sep _ _ _ _ n (by decide) (by decide), hcount]
  case lullUnused =>
    rintro s t n words d rfl hears hunused
    refine Runs.of_onWords (exec_lullReceived s t n words false) hears ?_
    have hset := onPair_hearSet (s.on t) n []
    have hlull : (s.on t).hearLull n false = (s.on t).hearSet n := rfl
    rw [hlull, hset.keeps.idleUsed n (by simp), hunused, if_neg (by decide)]
    obtain ⟨hpair, hcount, hlane⟩ := ((s.on t).hearSet n).codeErrors_shows words hears.1
    have hall := hset.mono.trans hpair
    exact ⟨hcount.trans (by rw [hset.keeps.rd n (by simp)]), hlane.trans (by rw [Dev.lane_hearSet]), hall.others, hall.keepsOthers _, hall.keeps⟩
  case idleTakesNone =>
    rintro s t n k l m b w cap c hn hidle hc
    have still {c : Instr} {f : Dev → Dev} (h : exec c s = onWords n t s f) : OnlyTime c s t := OnlyTime.of_onWords_idle h hn hidle
    revert c hc
    simp only [List.forall_mem_cons]
    exact ⟨still (exec_alignWindowEnd ..), still (exec_wt2Received ..), still (exec_capReceived ..), still (exec_errorWindowEnd ..),
      still (exec_skpReceived ..), still (exec_lullReceived ..),
      OnlyTime.of_onLane (exec_rxSquelch s t n) hn fun _ => by rw [hidle, Bool.true_or, if_pos rfl],
      OnlyTime.of_onLane (exec_rxBitLockLost s t n) hn fun _ => by rw [hidle, if_pos rfl],
      OnlyTime.of_onLane (exec_skpTimeout s t n) hn fun _ => by rw [Dev.rxError, hidle, if_pos rfl], by simp⟩
  case zephyr =>
    rintro s t n wt1 d rfl hn hsafe h6 hfew
    refine Runs.of_onLane (exec_zephyrBurstReceived s t n wt1 true) hn hsafe ?_
    rw [if_pos h6, if_neg (by omega), if_pos rfl]
    have hpair := onPair_wakeRx (s.on t) hn
    exact ⟨Dev.reg_wr_self _ F.LN_STATUS_rx_idle 0 n, hpair.keepsOthers _, (s.on t).lane_hearSet n, hpair.lanes, hpair.keeps⟩
  case zephyrFails =>
    rintro s t n wt1 d rfl hn hsafe h6 hrec hfew
    refine Runs.of_onLane (exec_zephyrBurstReceived s t n wt1 false) hn hsafe ?_
    rw [if_pos h6, if_neg (by omega), if_neg (by decide)]
    obtain ⟨hnote, hflag⟩ := ((s.on t).wakeRx n).failZephyr_shows hn
    have hwake : OnPair n (.lanes :: evAreas) (.LN_STATUS :: .LN_ERR :: evRegs) (s.on t) ((s.on t).wakeRx n) := (onPair_wakeRx _ hn).mono
    have hpair := hwake.trans hnote.mono
    have hstate : (((s.on t).wakeRx n).failZephyr n).lnState n = 6 := by
      rw [hnote.keeps.lnState n (by decide), Dev.wakeRx, Dev.lnState, Dev.rd_put_sep _ _ _ _ n (by decide) (by decide)]
      exact ((s.on t).lnState_hearSet n).trans h6
    have hnot : (((s.on t).wakeRx n).failZephyr n).flag F.LN_STATUS_rx_recover n = false := by
      rw [hnote.keeps.flag n (by decide), Dev.wakeRx, Dev.flag_put_sep _ _ _ _ n (by decide) (by decide), Dev.hearSet, Dev.flag_modLane, hrec]
    generalize ((s.on t).wakeRx n).failZephyr n = e at hflag hpair hstate hnot
    have hbegins := e.beginRecovery_begins hn hstate hnot
    exact ⟨hbegins.zephyrFail.trans hflag, hbegins.rxIdle, hbegins.recovers.from hpair,
      (hpair.keeps.mono (by simp) (by decide)).trans (hbegins.pair.keeps.mono (by simp) (by decide))⟩
  case zephyrRestarts =>
    rintro s t n wt1 comma d rfl hn hsafe h6 hmany
    refine Runs.of_onLane (exec_zephyrBurstReceived s t n wt1 comma) hn hsafe ?_
    rw [if_pos h6, if_pos hmany, Dev.partnerRestart]
    have hev := evOnly_occur ((s.on t).hearSet n) (evIL n) 0x25 0 0 1 none
    have hset : OnPair n (.lanes :: evAreas) (.LN_CNT_CODE :: .LN_CNT_HDR :: .LN_CNT_PCL :: .LN_BRZ_CNT :: .LN_TWIN_CNT :: laneRegs)
        (s.on t) ((s.on t).hearSet n) := (onPair_hearSet _ n _).mono (by simp) (List.Subset.refl _)
    have hpair := hset.ev hev (by simp) (by decide)
    generalize ((s.on t).hearSet n).occur (evIL n) 0x25 = e at hpair
    have hent := e.setLane_enters n (v := 2) (by decide) (by decide)
    have hall := hpair.trans (onPair_setLane e 2 hn (by decide) (fun _ => by decide) (fun h => by omega))
    exact ⟨hent.state, hent.words (by decide), hall.others, hall.keeps⟩
  case goIdle =>
    rintro s t n d rfl hn hsafe hmay
    refine Runs.of_onLane (exec_egressIdleEnter s t n) hn hsafe ?_
    rw [if_pos hmay]
    obtain ⟨hkeeps, -, hothers, hall⟩ :=
      each_pairs onPair_idleOne Dev.emitted_idleOne ((s.on t).members_nodup n) ((s.on t).members_lt hn) (s.on t)
    refine ⟨fun m hm => ?_, fun m hm hnot => (hothers m hm hnot).reg _ (by decide), hkeeps⟩
    obtain ⟨x, hbefore, hafter, hout⟩ := hall m hm
    obtain ⟨hidle, hlull⟩ := x.idleOne_shows m
    rw [hafter.reg _ (by decide), hidle, hbefore.reg _ (by decide)]
    exact ⟨rfl, fun hawake => hout.subset (hlull ((hbefore.flag _ (by decide)).trans hawake))⟩
  case stayAwake =>
    rintro s t n hn hmay
    exact OnlyTime.of_onLane (exec_egressIdleEnter s t n) hn fun _ => by rw [hmay, if_neg (by decide)]
  case wake =>
    rintro s t n d rfl hn hsafe hrouted -
    refine Runs.of_onLane (exec_egressWake s t n) hn hsafe ?_
    rw [hrouted, Bool.true_or, if_pos rfl, Dev.wakeLane_eq]
    obtain ⟨hkeeps, -, hothers, hall⟩ :=
      each_pairs (fun d m hm => (d.wakeOne_shows hm).1) Dev.emitted_wakeOne ((s.on t).members_nodup n) ((s.on t).members_lt hn) (s.on t)
    refine ⟨fun m hm => ?_, fun m hm hnot => ⟨(hothers m hm hnot).lane, (hothers m hm hnot).reg _ (by decide)⟩, hkeeps⟩
    obtain ⟨x, hbefore, hafter, hout⟩ := hall m hm
    obtain ⟨-, hawake, hburst⟩ := x.wakeOne_shows ((s.on t).members_lt hn m hm)
    exact ⟨(hafter.flag _ (by decide)).trans hawake, fun hidle => hout.subset (hburst ((hbefore.flag _ (by decide)).trans hidle))⟩
  case safe =>
    rintro s t n k l m b w cap c hn hsafe hc
    have still {c : Instr} {f : Dev → Dev} (h : exec c s = onLane n t s f) : OnlyTime c s t := OnlyTime.of_safe h hn hsafe
    revert c hc
    simp only [List.forall_mem_cons]
    exact ⟨still (exec_lnRetrain ..), still (exec_lnBitSlip ..), still (exec_detectPulse ..), still (exec_rxBitLock ..),
      still (exec_alignWindowEnd ..), still (exec_wt2Received ..), still (exec_capReceived ..), still (exec_capSend ..),
      still (exec_laneStateTimeout ..), still (exec_rxSquelch ..), still (exec_rxBitLockLost ..), still (exec_errorWindowEnd ..),
      still (exec_skpTimeout ..), still (exec_recoveryRequestSend ..), still (exec_idlRunSend ..), still (exec_ingressRecoveryTimeout ..),
      still (exec_skpReceived ..), still (exec_lullReceived ..), still (exec_zephyrBurstReceived ..), still (exec_egressIdleEnter ..),
      still (exec_egressWake ..), still (exec_creditSend ..), still (exec_tallySend ..), still (exec_twinSend ..),
      still (exec_timingSend ..), still (exec_breezeBufferRelease ..), by simp⟩

end Sys2Proof.Machine
end

section
/-! SUPPORT. The code groups of a lane (R103, R104): no two symbols in use share one, at the same running disparity or at two. -/

namespace Sys2Proof.Machine

/-! ### The two sub-blocks of a data byte -/

/-- The sub-block abcdei of a byte whose five low bits are `x`. -/
def sixOf (rd : Bool) (x : Nat) : Nat := atRd 6 rd (x == 7) (sixMinus x)

/-- Whether low bits `x` take the alternate sub-block fghj where the three high bits are 7. -/
def altFour (r : Bool) (x : Nat) : Bool := if r then x == 11 || x == 13 || x == 14 else x == 17 || x == 18 || x == 20

/-- The sub-block fghj of a byte whose three high bits are `y`, from the running disparity `r` after abcdei. -/
def fourOf (r alt : Bool) (y : Nat) : Nat :=
  if y == 7 && alt then (if r then 0b1000 else 0b0111) else atRd 4 r (y == 3) (fourMinus y)

/-- The code group of a byte of low bits `x` and high bits `y`, where `r` is the running disparity after abcdei. -/
def pairGroup (rd r : Bool) (x y : Nat) : Nat := sixOf rd x * 16 + fourOf r (altFour r x) y

theorem dataGroup_eq (rd : Bool) (b : Byte) :
    dataGroup rd b = pairGroup rd (rdAfter 6 rd (sixOf rd (b.toNat % 32))) (b.toNat % 32) (b.toNat / 32) := rfl

theorem fourOf_lt : ∀ r alt : Bool, ∀ y < 8, fourOf r alt y < 16 := by decide +kernel

theorem sixOf_inj : ∀ r r' : Bool, ∀ x < 32, ∀ x' < 32, sixOf r x = sixOf r' x' → x = x' := by decide +kernel

theorem fourOf_inj : ∀ r r' alt alt' : Bool, ∀ y < 8, ∀ y' < 8, fourOf r alt y = fourOf r' alt' y' → y = y' := by decide +kernel

/-- The six bits of a group give the low bits of its byte, and the four the high ones. -/
theorem pairGroup_inj {rd rd' r r' : Bool} {x x' y y' : Nat} (hx : x < 32) (hx' : x' < 32) (hy : y < 8) (hy' : y' < 8)
    (h : pairGroup rd r x y = pairGroup rd' r' x' y') : x = x' ∧ y = y' := by
  have hlt := fourOf_lt r (altFour r x) y hy
  have hlt' := fourOf_lt r' (altFour r' x') y' hy'
  rw [pairGroup, pairGroup] at h
  exact ⟨sixOf_inj rd rd' x hx x' hx' (by omega), fourOf_inj r r' (altFour r x) (altFour r' x') y hy y' hy' (by omega)⟩

theorem dataGroup_inj {r r' : Bool} {b b' : Byte} (h : dataGroup r b = dataGroup r' b') : b = b' := by
  have hb := b.isLt
  have hb' := b'.isLt
  rw [dataGroup_eq, dataGroup_eq] at h
  obtain ⟨hlow, hhigh⟩ := pairGroup_inj (by omega) (by omega) (by omega) (by omega) h
  exact BitVec.eq_of_toNat_eq (by omega)

/-! ### Control characters (Table 3-2) -/

/-- The code group of a control character from that at negative running disparity. -/
def controlGroup (rd : Bool) (g : Nat) : Nat := if rd then 1023 - g else g

theorem Sym.group_k {rd : Bool} {b : Byte} {g : Nat} (h : (Sym.k b).group rd = some g) :
    ∃ c ∈ controls, c.1 = b ∧ controlGroup rd c.2 = g := by
  rw [Sym.group, Option.map_eq_some_iff] at h
  obtain ⟨c, hfind, hg⟩ := h
  exact ⟨c, List.mem_of_find?_eq_some hfind, by simpa using List.find?_some hfind, hg⟩

theorem controlGroup_inj : ∀ r r' : Bool, ∀ c ∈ controls, ∀ c' ∈ controls, controlGroup r c.2 = controlGroup r' c'.2 → c = c' := by
  decide +kernel

theorem controlGroup_ne_pairGroup : ∀ rd rd' : Bool, ∀ c ∈ controls, ∀ x < 32, ∀ y < 8,
    controlGroup rd c.2 ≠ pairGroup rd' (rdAfter 6 rd' (sixOf rd' x)) x y := by decide +kernel

theorem controlGroup_ne_dataGroup (r r' : Bool) {c : Byte × Nat} (hc : c ∈ controls) (b : Byte) : controlGroup r c.2 ≠ dataGroup r' b :=
  controlGroup_ne_pairGroup r r' c hc _ (by have := b.isLt; omega) _ (by have := b.isLt; omega)

/-! ### Symbols -/

theorem Sym.mem_all {rd : Bool} {x : Sym} {g : Nat} (h : x.group rd = some g) : x ∈ Sym.all := by
  cases x with
  | d b => exact List.mem_append_left _ (List.mem_map.mpr ⟨b.toNat, List.mem_range.mpr b.isLt, by rw [BitVec.ofNat_toNat, BitVec.setWidth_eq]⟩)
  | k b =>
    obtain ⟨c, hc, rfl, -⟩ := Sym.group_k h
    exact List.mem_append_right _ (List.mem_map.mpr ⟨c, hc, rfl⟩)

/-- A code group stands for one symbol, whatever the running disparity. -/
theorem Sym.group_inj {r r' : Bool} {x y : Sym} {g : Nat} (hx : x.group r = some g) (hy : y.group r' = some g) : x = y := by
  cases x with
  | d b =>
    cases y with
    | d b' => exact congrArg Sym.d (dataGroup_inj (Option.some.inj (hx.trans hy.symm)))
    | k b' =>
      obtain ⟨c, hc, -, hg⟩ := Sym.group_k hy
      exact absurd (hg.trans (Option.some.inj hx).symm) (controlGroup_ne_dataGroup r' r hc b)
  | k b =>
    obtain ⟨c, hc, rfl, hg⟩ := Sym.group_k hx
    cases y with
    | d b' => exact absurd (hg.trans (Option.some.inj hy).symm) (controlGroup_ne_dataGroup r r' hc b')
    | k b' =>
      obtain ⟨c', hc', rfl, hg'⟩ := Sym.group_k hy
      rw [controlGroup_inj r r' c hc c' hc' (hg.trans hg'.symm)]

/-! ### The receiver (R104) -/

theorem Sym.find_group {rd : Bool} {x : Sym} {g : Nat} (h : x.group rd = some g) : (Sym.all.find? fun s => s.group rd == some g) = some x := by
  cases hfind : Sym.all.find? fun s => s.group rd == some g with
  | none => exact absurd (beq_iff_eq.mpr h) (List.find?_eq_none.mp hfind x (Sym.mem_all h))
  | some y => exact congrArg some (Sym.group_inj (by simpa using List.find?_some hfind) h)

theorem Sym.find_group_none {rd : Bool} {g : Nat} (h : ∀ x : Sym, x.group rd ≠ some g) :
    (Sym.all.find? fun s => s.group rd == some g) = none := List.find?_eq_none.mpr fun x _ => by simpa using h x

theorem receive_of_group {rd : Bool} {x : Sym} {g : Nat} (h : x.group rd = some g) : receive rd g = .ok x := by
  rw [receive, Sym.find_group h]

/-- A group of the other disparity, which is no group of its symbol at this one, is none of another's either. -/
theorem receive_of_other {rd : Bool} {x : Sym} {g : Nat} (h : x.group (!rd) = some g) (hnot : x.group rd ≠ some g) :
    receive rd g = .disparity x := by
  rw [receive, Sym.find_group_none fun y hy => hnot (Sym.group_inj h hy ▸ hy), Sym.find_group h]

theorem receive_of_none {rd : Bool} {g : Nat} (h : ∀ (r : Bool) (x : Sym), x.group r ≠ some g) : receive rd g = .code := by
  rw [receive, Sym.find_group_none (h rd), Sym.find_group_none (h !rd)]

/-! ### The balance of a group -/

theorem controlGroup_balanced : ∀ rd : Bool, ∀ c ∈ controls, controlGroup rd c.2 < 1024
    ∧ (ones 10 (controlGroup rd c.2) = 5 ∨ (ones 10 (controlGroup rd c.2) = 6 ∧ rd = false)
      ∨ (ones 10 (controlGroup rd c.2) = 4 ∧ rd = true)) := by decide +kernel

theorem dataGroup_balanced : ∀ rd : Bool, ∀ b : Byte, dataGroup rd b < 1024
    ∧ (ones 10 (dataGroup rd b) = 5 ∨ (ones 10 (dataGroup rd b) = 6 ∧ rd = false) ∨ (ones 10 (dataGroup rd b) = 4 ∧ rd = true)) := by
  decide +kernel

theorem Sym.group_balanced {rd : Bool} {x : Sym} {g : Nat} (h : x.group rd = some g) :
    g < 1024 ∧ (ones 10 g = 5 ∨ (ones 10 g = 6 ∧ rd = false) ∨ (ones 10 g = 4 ∧ rd = true)) := by
  cases x with
  | d b => exact Option.some.inj h ▸ dataGroup_balanced rd b
  | k b =>
    obtain ⟨c, hc, -, rfl⟩ := Sym.group_k h
    exact controlGroup_balanced rd c hc

theorem length_lineBits (rd : Bool) (xs : List Sym) : (lineBits rd xs).length = 10 * xs.length := by
  induction xs generalizing rd with
  | nil => rfl
  | cons x xs ih =>
    rw [lineBits, List.length_append, ih, groupBits, List.length_map, List.length_range, List.length_cons]
    omega

end Sys2Proof.Machine
end

section
/-! SUPPORT. Obligation O18: the coding of a lane (R103 to R107, R143, R170, R171). -/

namespace Sys2Proof.Machine

/-! ### Byte strings -/

@[simp] theorem length_le (n v : Nat) : (le n v).length = n := by
  induction n generalizing v with
  | zero => rfl
  | succ n ih => rw [le, List.length_cons, ih]

theorem ofLe_le (n v : Nat) : ofLe (le n v) = v % 256 ^ n := by
  induction n generalizing v with
  | zero => rw [le, ofLe, Nat.pow_zero, Nat.mod_one]
  | succ n ih =>
    rw [le, ofLe, ih, BitVec.toNat_ofNat, show 256 ^ (n + 1) = 256 * 256 ^ n from Nat.pow_succ', Nat.mod_mul]

/-- A field that a byte string holds reads as its number. -/
theorem fieldAt_le (a c : List Byte) (n v : Nat) : fieldAt (a ++ (le n v ++ c)) a.length n = v % 256 ^ n := by
  rw [fieldAt, List.drop_left, List.take_left' (length_le n v), ofLe_le]

theorem length_fit (n : Nat) (bs : List Byte) : (fit n bs).length = n := by
  rw [fit, List.length_take, List.length_append, zeros, List.length_replicate]
  omega

theorem fit_of_length {n : Nat} {bs : List Byte} (h : bs.length = n) : fit n bs = bs := by
  rw [fit, h, Nat.sub_self, List.take_left' h]

/-- A field of the first bytes alone reads as that of the whole. -/
theorem fieldAt_take (bs : List Byte) {off n k : Nat} (h : off + n ≤ k) : fieldAt (bs.take k) off n = fieldAt bs off n := by
  rw [fieldAt, List.drop_take, List.take_take, Nat.min_eq_left (by omega), fieldAt]

/-- The pairs of a byte string of `2 * m` bytes, one after the other, are the string. -/
theorem flatMap_pairs {α : Type} (bs : List α) (m : Nat) : ((List.range m).flatMap fun i => (bs.drop (2 * i)).take 2) = bs.take (2 * m) := by
  induction m with
  | zero => rfl
  | succ m ih => rw [List.range_succ, List.flatMap_append, ih, List.flatMap_singleton, Nat.mul_succ, List.take_add]

theorem crc16Bit_lt {c : Nat} (h : c < 65536) : crc16Bit c < 65536 := by
  unfold crc16Bit
  split
  · exact Nat.mod_lt _ (by decide)
  · rw [Nat.shiftLeft_eq]
    omega

theorem crc16Byte_lt {c : Nat} (b : Byte) (h : c < 65536) : crc16Byte c b < 65536 := by
  have hb : b.toNat <<< 8 < 2 ^ 16 := by
    have := b.isLt
    rw [Nat.shiftLeft_eq]
    omega
  have hxor : c ^^^ (b.toNat <<< 8) < 65536 := Nat.xor_lt_two_pow (n := 16) h hb
  exact crc16Bit_lt (crc16Bit_lt (crc16Bit_lt (crc16Bit_lt (crc16Bit_lt (crc16Bit_lt (crc16Bit_lt (crc16Bit_lt hxor)))))))

theorem foldl_crc16Byte_lt (bs : List Byte) {c : Nat} (h : c < 65536) : bs.foldl crc16Byte c < 65536 := by
  induction bs generalizing c with
  | nil => exact h
  | cons b bs ih =>
    rw [List.foldl_cons]
    exact ih (crc16Byte_lt b h)

theorem crc16_lt (bs : List Byte) : crc16 bs < 65536 := foldl_crc16Byte_lt bs (by decide)

/-! ### Words of four symbols (R105, R143) -/

theorem length_of_mem_inWords (xs : List Sym) : ∀ w ∈ inWords xs, w.length = 4 := by
  induction xs using inWords.induct with
  | case1 a b c e r ih => exact List.forall_mem_cons.mpr ⟨rfl, ih⟩
  | case2 xs h => simp [inWords]

theorem length_inWords (xs : List Sym) : (inWords xs).length = xs.length / 4 := by
  induction xs using inWords.induct with
  | case1 a b c e r ih =>
    rw [inWords, List.length_cons, ih]
    simp only [List.length_cons]
    omega
  | case2 xs h =>
    match xs, h with
    | [], _ | [_], _ | [_, _], _ | [_, _, _], _ => simp [inWords]
    | a :: b :: c :: e :: r, h => exact absurd rfl (h a b c e r)

/-- Words put one after the other are the symbols again, where they fill their words. -/
theorem flatten_inWords (xs : List Sym) (h : xs.length % 4 = 0) : (inWords xs).flatten = xs := by
  induction xs using inWords.induct with
  | case1 a b c e r ih =>
    simp only [List.length_cons] at h
    rw [inWords, List.flatten_cons, ih (by omega)]
    rfl
  | case2 xs hne =>
    match xs, hne, h with
    | [], _, _ => rfl
    | a :: b :: c :: e :: r, hne, _ => exact absurd rfl (hne a b c e r)

theorem length_of_mem_replicate {α : Type} {n : Nat} {xs w : List α} (h : w ∈ List.replicate n xs) : w.length = xs.length := by
  rw [List.eq_of_mem_replicate h]

theorem LaneSet.length_of_mem_words (x : LaneSet) : ∀ w ∈ x.words, w.length = 4 := by
  cases x with
  | wt1 n | skp n | idl n | lull n => exact fun w h => length_of_mem_replicate h
  | wt2 status | fch p | swm p => exact List.forall_mem_singleton.mpr rfl
  | cap bytes => exact length_of_mem_inWords _
  | zephyr => decide
  | idle | hiZ | detect => exact fun w h => nomatch h

theorem length_dataWord (w : Word) : (dataWord w).length = 4 := by rw [dataWord, List.length_map, wordBytes, length_le]

theorem length_parcelWords (pos : Nat) {hdr : List Byte} (body : List Word) (h : hdr.length = 16) :
    (parcelWords pos hdr body).length = 6 + body.length := by
  simp only [parcelWords, List.length_append, List.length_cons, length_inWords, List.length_map, h, List.length_nil]
  omega

theorem length_of_mem_parcelWords (pos : Nat) (hdr : List Byte) (body : List Word) : ∀ w ∈ parcelWords pos hdr body, w.length = 4 := by
  intro w hw
  rw [parcelWords, List.mem_append, List.mem_append, List.mem_cons, List.mem_singleton, List.mem_map] at hw
  rcases hw with ((rfl | hw) | ⟨v, -, rfl⟩) | rfl
  · rfl
  · exact length_of_mem_inWords _ w hw
  · exact length_dataWord v
  · rfl

/-! ### Breeze messages (R170, R171) -/

/-- BRZ word `i` of the `m` that carry `bs`. -/
def brzWord (bs : List Byte) (m i : Nat) : List Byte := le 1 (2 * i + b2n (i + 1 == m)) ++ (bs.drop (2 * i)).take 2

/-- The words that carry a byte string of `2 * m` bytes. -/
def brzWords (bs : List Byte) (m : Nat) : List (List Byte) := (List.range m).map (brzWord bs m)

/-- Word `i` states its index, and whether it is the last. -/
def Framed (ws : List (List Byte)) : Prop := ∀ i < ws.length,
  fieldAt (ws.getD i []) 0 1 / 2 % 64 = i ∧ fieldAt (ws.getD i []) 0 1 % 2 = b2n (i + 1 == ws.length)

/-- The bytes that words carry. -/
def brzCarried (ws : List (List Byte)) : List Byte := ws.flatMap fun w => fit 2 (w.drop 1)

theorem brzCheck_eq_some (ws : List (List Byte)) (b : List Byte) : brzCheck ws = some b ↔
    (Framed ws ∧ fieldAt (brzCarried ws) 1 1 ≤ 120 ∧ ws.length = brzLen (fieldAt (brzCarried ws) 1 1)
      ∧ crc16 ((brzCarried ws).take (4 + fieldAt (brzCarried ws) 1 1)) = fieldAt (brzCarried ws) (4 + fieldAt (brzCarried ws) 1 1) 2)
    ∧ b = (brzCarried ws).take (4 + fieldAt (brzCarried ws) 1 1) := by
  simp only [brzCheck, brzCarried, Framed, Option.ite_none_right_eq_some, Option.some.injEq, Bool.and_eq_true, List.all_eq_true,
    List.mem_range, beq_iff_eq, decide_eq_true_eq, and_assoc, eq_comm (b := b)]

theorem length_brzCarried (ws : List (List Byte)) : (brzCarried ws).length = 2 * ws.length := by
  rw [brzCarried, List.length_flatMap]
  simp only [length_fit, List.map_const', List.sum_replicate, smul_eq_mul]
  omega

section
variable {bs : List Byte} {m : Nat} (h : bs.length = 2 * m)
include h

theorem length_pair {i : Nat} (hi : i < m) : ((bs.drop (2 * i)).take 2).length = 2 := by
  rw [List.length_take, List.length_drop, h]
  omega

theorem length_of_mem_brzWords : ∀ w ∈ brzWords bs m, w.length = 3 := by
  intro w hw
  obtain ⟨i, hi, rfl⟩ := List.mem_map.mp hw
  rw [brzWord, List.length_append, length_le, length_pair h (List.mem_range.mp hi)]

/-- What the words carry is the byte string. -/
theorem brzCarried_brzWords : brzCarried (brzWords bs m) = bs := by
  have hword : ∀ i ∈ List.range m, fit 2 ((brzWord bs m i).drop 1) = (bs.drop (2 * i)).take 2 := fun i hi => by
    rw [brzWord, List.drop_left' (length_le 1 _), fit_of_length (length_pair h (List.mem_range.mp hi))]
  rw [brzCarried, brzWords, List.flatMap_map, List.flatMap_congr hword, flatMap_pairs, ← h, List.take_length]

end

theorem length_brzWords (bs : List Byte) (m : Nat) : (brzWords bs m).length = m := by rw [brzWords, List.length_map, List.length_range]

/-- A message of at most 64 words shows its frame. -/
theorem framed_brzWords (bs : List Byte) {m : Nat} (hm : m ≤ 64) : Framed (brzWords bs m) := by
  intro i hi
  rw [length_brzWords] at hi
  have hlast : b2n (i + 1 == m) < 2 := by cases i + 1 == m <;> decide
  have hfirst : fieldAt (brzWord bs m i) 0 1 = (2 * i + b2n (i + 1 == m)) % 256 ^ 1 := fieldAt_le [] _ 1 _
  rw [length_brzWords, List.getD_eq_getElem?_getD, brzWords, List.getElem?_map, List.getElem?_range hi, Option.map_some, Option.getD_some, hfirst]
  omega

section
variable (ty seq release : Nat) (payload : List Byte)

theorem length_brzHead : (brzHead ty seq release payload).length = 4 + payload.length := by
  simp only [brzHead, List.length_append, length_le]

theorem length_brzBytes : (brzBytes ty seq release payload).length = 2 * brzLen payload.length := by
  simp only [brzBytes, List.length_append, length_brzHead, length_le, zeros, List.length_replicate, brzLen]
  omega

theorem brzMsg_eq : brzMsg ty seq release payload = brzWords (brzBytes ty seq release payload) (brzLen payload.length) := by
  have hlen : (brzBytes ty seq release payload).length / 2 = brzLen payload.length := by rw [length_brzBytes]; omega
  rw [← hlen]
  rfl

/-- A message states its payload's length, and its CRC follows the payload. -/
theorem brzBytes_shows : fieldAt (brzBytes ty seq release payload) 1 1 = payload.length % 256
    ∧ (brzBytes ty seq release payload).take (4 + payload.length) = brzHead ty seq release payload
    ∧ fieldAt (brzBytes ty seq release payload) (4 + payload.length) 2 = crc16 (brzHead ty seq release payload) := by
  have hhead := length_brzHead ty seq release payload
  have hbytes : brzBytes ty seq release payload = brzHead ty seq release payload
      ++ (le 2 (crc16 (brzHead ty seq release payload)) ++ zeros (payload.length % 2)) := List.append_assoc ..
  refine ⟨?_, ?_, ?_⟩
  · exact fieldAt_le (le 1 ty) _ 1 payload.length
  · rw [hbytes, List.take_left' hhead]
  · rw [hbytes, ← hhead, fieldAt_le, Nat.mod_eq_of_lt (show _ < 256 ^ 2 from crc16_lt _)]

theorem brzCheck_brzMsg (h : payload.length ≤ 120) : brzCheck (brzMsg ty seq release payload) = some (brzHead ty seq release payload) := by
  obtain ⟨hlen, hhead, hcrc⟩ := brzBytes_shows ty seq release payload
  rw [Nat.mod_eq_of_lt (by omega)] at hlen
  rw [brzCheck_eq_some, brzMsg_eq, brzCarried_brzWords (length_brzBytes ty seq release payload), hlen, length_brzWords, hhead, hcrc]
  exact ⟨⟨framed_brzWords _ (by unfold brzLen; omega), h, rfl, rfl⟩, rfl⟩

end

/-- What is put together is as long as it states. -/
theorem length_of_brzCheck {ws : List (List Byte)} {b : List Byte} (h : brzCheck ws = some b) :
    ws.length = brzLen (fieldAt b 1 1) ∧ fieldAt b 1 1 ≤ 120 ∧ b.length = 4 + fieldAt b 1 1 := by
  obtain ⟨⟨-, hmax, hlen, -⟩, rfl⟩ := (brzCheck_eq_some ws b).mp h
  rw [fieldAt_take _ (by omega), List.length_take, length_brzCarried]
  refine ⟨hlen, hmax, Nat.min_eq_left ?_⟩
  rw [hlen, brzLen]
  omega

/-! ### The obligation -/

/-- Settles O18: a code group stands for one symbol (`Sym.group_inj`), and a message's words carry its bytes (`brzCarried_brzWords`). -/
theorem laneCoding : Obligations.LaneCoding := by
  refine ⟨fun rd x g => receive_of_group, fun rd x g => receive_of_other, fun rd g => receive_of_none, fun rd x g => Sym.group_balanced,
    length_lineBits, fun x w => x.length_of_mem_words w, fun bytes h => ?_,
    fun pos hdr body h => ⟨length_parcelWords pos body h, length_of_mem_parcelWords pos hdr body⟩,
    fun ty seq release payload h => ⟨brzCheck_brzMsg ty seq release payload h, ?_, ?_⟩, fun ws b => length_of_brzCheck⟩
  · exact flatten_inWords _ (by rw [List.length_cons, List.length_map, h])
  · rw [brzMsg_eq, length_brzWords]
  · rw [brzMsg_eq]
    exact length_of_mem_brzWords (length_brzBytes ty seq release payload)

end Sys2Proof.Machine
end
